-- ==== Sys2Proof/Word.lean ====
section
/-! DEFINITION. The word types of the model and a finite table: sparse data by a natural number key.
Registers and fields the manual treats as bits are bit vectors; counts, indexes and addresses used as keys are
natural numbers. -/

namespace Sys2Proof

/-- One byte. -/
abbrev Byte := BitVec 8

/-- A 64-bit scalar, address or handle register (R101). -/
abbrev Word := BitVec 64

/-- A 32-bit counter (R116) or FP32 bit pattern (R72). -/
abbrev W32 := BitVec 32

/-- Sparse data: the value at a key, absent keys reading as a default that the reader names. -/
abbrev Tbl (α : Type) := List (Nat × α)

/-- The entry at `k`, if the table lists one. -/
def Tbl.find? {α : Type} : Tbl α → Nat → Option α
  | [], _ => none
  | (j, v) :: r, k => if j = k then some v else Tbl.find? r k

/-- The value at `k`, `d` where the table lists none. DESIGN CHOICE (log 6). -/
def Tbl.get {α : Type} (t : Tbl α) (d : α) (k : Nat) : α :=
  (t.find? k).getD d

/-- The table with `v` at `k`. -/
def Tbl.set {α : Type} : Tbl α → Nat → α → Tbl α
  | [], k, v => [(k, v)]
  | (j, w) :: r, k, v => if j = k then (k, v) :: r else (j, w) :: Tbl.set r k v

/-- The table with no entry at any key that satisfies `p`. -/
def Tbl.clear {α : Type} (t : Tbl α) (p : Nat → Bool) : Tbl α :=
  t.filter (fun e => !p e.1)

end Sys2Proof
end

