-- ==== Sys2Proof/Syntax.lean ====
section
/-! DEFINITION. The commands of the P25: one constructor of `Instr` per row of spec/opcode_table.json, with the operands
a command carries. What the spec gives the environment to say (a sensor reading, an error outcome, a message, a host
side block) is an operand. DESIGN CHOICE (logs 9, 13, 15). -/

namespace Sys2Proof

/-- A Scribe instruction as it is issued: cluster 0 to 799 (R17), strand 0 to 7 (R99) and the 64-bit word (R133). -/
structure Issue where
  cluster : Nat
  strand : Nat
  word : Word
  deriving DecidableEq, Repr

/-- One in-flight operation of a cluster: the cluster and the operation's number in it. -/
structure OpRef where
  cluster : Nat
  op : Nat
  deriving DecidableEq, Repr

/-- One stream of a cluster's Feed port: the cluster, the strand and the handle q0 to q7 (R104). Strand 8 + k names what is left
of an ended binding of strand k, handle q + 8 i a binding that later ones displaced. DESIGN CHOICE (log 35). -/
structure StreamRef where
  cluster : Nat
  strand : Nat
  handle : Nat
  deriving DecidableEq, Repr

/-- What the error code of a memory finds on a read (R193, R196, R205): the outcome after the one re-read of LPDDR5X.
DESIGN CHOICE (log 13). -/
inductive Ecc
  | clean
  | corrected
  | uncorrectable
  deriving DecidableEq, Repr

/-- A transaction of a stream, by the number it was injected with. -/
structure StreamTxn where
  stream : StreamRef
  id : Nat
  deriving DecidableEq, Repr

/-- A write of an out-stream at its destination, and what the code finds at a line that it covers in part (R200). -/
structure OutWrite where
  stream : StreamRef
  id : Nat
  ecc : Ecc
  deriving DecidableEq, Repr

/-- The response to a read of a cancelled stream of a cluster, by the number of its transaction (R242, R207). -/
structure VoidResponse where
  cluster : Nat
  id : Nat
  ecc : Ecc
  deriving DecidableEq, Repr

/-- An error that a memory has taken since a scrubber last looked (R193, R196, R205): the place as a package address, the tag of
the Well row there in place of its word, and whether the code cannot correct it. DESIGN CHOICE (log 94). -/
structure Upset where
  place : Nat
  tag : Bool
  uncorrectable : Bool
  deriving DecidableEq, Repr

/-- What a scrubber finds at the line it reads, and the errors that memories have taken since the last command that named any.
DESIGN CHOICE (logs 13, 94). -/
structure ScrubRead where
  ecc : Ecc
  arisen : List Upset
  deriving DecidableEq, Repr

/-- A fetched submission entry (Table "Submission entry", R394): the partition whose function it came from, the ring,
the opcode, the tag and the operand words W0 to W6. `reserved` holds bits [503:480]. -/
structure Entry where
  partition : Nat
  ring : Nat
  opcode : Nat
  reserved : Nat
  tag : Nat
  words : List Nat
  /-- The place of the entry in its function's fetches, the model's own: two entries may else be equal (R386, R395). -/
  serial : Nat := 0
  deriving DecidableEq, Repr

/-- The rights of the object dictionary, in rising order (R408). -/
inductive Right
  | tenant
  | operator
  | firmware
  | debug
  deriving DecidableEq, Repr

/-- The transport a dictionary request came by (R407). -/
inductive Transport
  | mailbox (partition : Nat) (function : Nat)
  | management
  | inBand
  | internal
  | jtag
  /-- Forwarded by the master of the cascade to this member (R420). -/
  | cascade
  deriving DecidableEq, Repr

/-- How a request in a UDP packet came, and so how its response goes back: the network port (none on the management port), its source
UDP port, and the address it came to (R373, R413, R422). -/
structure ReplyPath where
  port : Nat
  udpPort : Nat
  own : Nat
  deriving DecidableEq, Repr

/-- No path: the request came in no UDP packet. -/
def ReplyPath.none : ReplyPath := ⟨0, 0, 0⟩

/-- Who makes a dictionary request and how it names it: the transport, the source (an address, or the stamp), the
Request ID and Reply mailbox of its frame (R410), and the path of its response. -/
structure Requester where
  transport : Transport
  source : Nat
  requestId : Nat
  reply : Nat
  path : ReplyPath := .none
  deriving DecidableEq, Repr

/-- A Rinay frame (Table "Rinay header", R410) with its payload. -/
structure Frame where
  version : Nat
  kind : Nat
  status : Nat
  requestId : Nat
  index : Nat
  subindex : Nat
  device : Nat
  reply : Nat
  offset : Nat
  length : Nat
  last : Bool
  type : Nat
  sequence : Nat
  payload : List Byte
  deriving DecidableEq, Repr

/-- The registers of a ring that a host may write (R389). -/
inductive RingField
  | base
  | sizeExponent
  | enable
  deriving DecidableEq, Repr

/-- A sender or receiver of a mailbox (R397, R398). -/
inductive Party
  | pf
  | vf
  | firmware
  deriving DecidableEq, Repr

/-- A Kolas flow as this device names it (R358): the engine, the peer's address and the two partitions. -/
structure FlowKey where
  engine : Nat
  peer : Nat
  localPartition : Nat
  peerPartition : Nat
  deriving DecidableEq, Repr

/-- A collective message (Table "Collective message header", R327) with the flow it travels on. The partition is the receiving
one; `reserved` is the sum of the reserved fields. -/
structure CollMsg where
  via : FlowKey
  partition : Nat
  treeB : Bool
  last : Bool
  attempt : Nat
  kind : Nat
  format : Nat
  fmt : Nat
  tree : Nat
  source : Nat
  epoch : Nat
  sequence : Nat
  offset : Nat
  count : Nat
  size : Nat
  newScale : Nat
  reserved : Nat
  payload : List Byte
  /-- No field of the message: the faults of this device's adders while it adds contributions of its own (R323), entries
  16 × block + 4 × level + adder. DESIGN CHOICE (log 39). -/
  faults : List Nat := []
  deriving DecidableEq, Repr

/-- A COLL whose claim resolves, and the faults of the adders while this member's blocks begin (R323): entries 16 × block + 4 × level +
adder. DESIGN CHOICE (log 39). -/
structure ClaimRef where
  op : OpRef
  faults : List Nat
  deriving DecidableEq, Repr

/-- A PLL of an island that loses lock: that of its live source, or the other one, its standby (R454, R456). -/
structure PllRef where
  island : Nat
  standby : Bool
  deriving DecidableEq, Repr

/-- A held collective by its number, and the faults of the adders while its blocks begin (R323). DESIGN CHOICE (log 39). -/
structure HeldRef where
  id : Nat
  faults : List Nat
  deriving DecidableEq, Repr

/-- A DOWN message, with the blocks of it that completed SATURATED (R318). DESIGN CHOICE (log 40). -/
structure DownMsg where
  msg : CollMsg
  saturated : List Nat
  deriving DecidableEq, Repr

/-- A PULL_DATA message, with whether its block completed SATURATED (R318). DESIGN CHOICE (log 40). -/
structure PulledMsg where
  msg : CollMsg
  saturated : Bool
  deriving DecidableEq, Repr

/-- The port and the PTP domain of a PTP message (R368). -/
structure PtpAt where
  port : Nat
  domain : Nat
  /-- A delay request of another clock came, and no exchange with the master ended. -/
  request : Bool
  deriving DecidableEq, Repr

/-- The port of a received UDP frame, its UDP ports, and whether its IPv6 and UDP headers are in order (no extension header, a good
checksum) (R364, R373, R413). Port 32 is the management port. -/
structure UdpAt where
  port : Nat
  udpPort : Nat
  udpSource : Nat
  intact : Bool
  deriving DecidableEq, Repr

/-- Where a UDP packet arrives at the management port from: its source address, the UDP port it names and its source port (R413). -/
structure MgmtAt where
  source : Nat
  udpPort : Nat
  udpSource : Nat
  deriving DecidableEq, Repr

/-- What a lane's error window counts (R360), with the codewords that the FEC of its port corrected in it, and those it could not
(R364). DEDUCED (log 69). -/
structure LaneErrors where
  errors : Nat
  corrected : Nat
  uncorrected : Nat
  deriving DecidableEq, Repr

/-- The protection of a received frame (R369, R481): its secure channel, a partition or 16 for the operator, its association
number and its packet number. -/
structure Secured where
  channel : Nat
  an : Nat
  pn : Nat
  deriving DecidableEq, Repr

/-- The port of a received frame, 32 for the management port, and its protection (R359, R369, R413). -/
structure FrameAt where
  port : Nat
  secured : Option Secured
  deriving DecidableEq, Repr

/-- Where a CNP came: the partition of its queue pair, the port and its protection (R367, R369). -/
structure CnpAt where
  partition : Nat
  port : Nat
  secured : Option Secured
  deriving DecidableEq, Repr

/-- A Kolas packet as it arrives (Table "Kolas transport header", R370): the port, its protection, if any, whether its IPv6 and UDP
headers are in order (no extension header, a good checksum, R364), its UDP port, its addresses and its header. -/
structure Packet where
  port : Nat
  secured : Option Secured
  intact : Bool
  udpPort : Nat
  sourceAddr : Nat
  destAddr : Nat
  version : Nat
  type : Nat
  destPartition : Nat
  sourcePartition : Nat
  channel : Nat
  ecnEcho : Bool
  resent : Bool
  reserved : Nat
  psn : Nat
  ackPsn : Nat
  length : Nat
  ce : Bool
  payload : List Byte
  deriving DecidableEq, Repr

/-- A membership message (Table "Membership message"); `sender` is the address it came from, a pair is an old engine address and
its replacement, and `operator` says that it came on the operator secure channel (R377). -/
structure MemberMsg where
  operator : Bool
  group : Nat
  epoch : Nat
  member : Nat
  sequence : Nat
  timestamp : Nat
  sender : Nat
  pairs : List (Nat × Nat)
  deriving DecidableEq, Repr

/-- An inbound RDMA request (R366, R367): the port it came by, its protection, whether its headers and ICRC are in order, whether
it carries a CE mark, the queue pair it names, the peer's address, the key, the first package address and the length in
bytes. -/
structure RdmaReq where
  port : Nat
  secured : Option Secured
  intact : Bool
  ce : Bool
  qp : Nat
  psn : Nat
  peer : Nat
  key : Nat
  address : Nat
  length : Nat
  deriving DecidableEq, Repr

/-- How a transfer that leaves the package ended (R262, R340). -/
inductive Transfer
  | done
  | uncorrectable (address : Nat)
  | endpointDown
  | collective (status : Nat)
  deriving DecidableEq, Repr

/-- The wake events of P1 (R460). -/
inductive Wake
  | doorbell
  | mailbox
  | dictionary
  | packet
  | ews
  | membership
  deriving DecidableEq, Repr

/-- One unit that the device clears for a new owner (R475): a compute die, a Fine pair, an Inkwell window, the Blotter
slots of a die or the granule set of an assignment. -/
inductive ClearUnit
  | computeDie (d : Nat)
  | finePair (i : Nat)
  | inkwell (b : Nat)
  | blotter (b : Nat)
  | granules
  deriving DecidableEq, Repr

/-- The fields of a firmware image that the boot checks read (Table "Firmware header", R484), with its digest. -/
structure FirmwareImage where
  magic : Nat
  headerVersion : Nat
  keySlot : Nat
  securityVersion : Nat
  bodyLength : Nat
  build : Nat
  reserved : Nat
  publicKey : Nat
  body : List Byte
  signature : List Byte
  deriving DecidableEq, Repr

/-- The commands: one constructor per row of the opcode table, in the table's order. -/
inductive Instr
  -- Scribe instructions (05_instruction_set.md)
  | nop (x : Issue)
  | endStrand (x : Issue)
  | eret (x : Issue)
  | brk (x : Issue)
  | sysr (x : Issue)
  | sysw (x : Issue)
  | fence (x : Issue)
  | plog (x : Issue)
  | add (x : Issue)
  | sub (x : Issue)
  | mul (x : Issue)
  | andr (x : Issue)
  | orr (x : Issue)
  | xorr (x : Issue)
  | shl (x : Issue)
  | shr (x : Issue)
  | asr (x : Issue)
  | minS (x : Issue)
  | maxS (x : Issue)
  | li (x : Issue)
  | lih (x : Issue)
  | cmp (x : Issue)
  | fop (x : Issue)
  | fcmp (x : Issue)
  | aadd (x : Issue)
  | amov (x : Issue)
  | atos (x : Issue)
  | tset (x : Issue)
  | tget (x : Issue)
  | br (x : Issue)
  | bcc (x : Issue)
  | bdec (x : Issue)
  | jal (x : Issue)
  | jr (x : Issue)
  | signal (x : Issue)
  | setCounter (x : Issue)
  | wait (x : Issue)
  | cread (x : Issue)
  | wload (x : Issue)
  | tmul (x : Issue)
  | drain (x : Issue)
  | aclr (x : Issue)
  | drainb (x : Issue)
  | vop (x : Issue)
  | bind (x : Issue)
  | unbind (x : Issue)
  | sin (x : Issue)
  | sout (x : Issue)
  | swait (x : Issue)
  | sarm (x : Issue)
  | scancel (x : Issue)
  | scred (x : Issue)
  | ld (x : Issue)
  | st (x : Issue)
  | coll (x : Issue)
  | sample (x : Issue)
  | saccept (x : Issue)
  -- completions and events of clusters, launches, memory and streams
  | operationHoldRelease (o : OpRef)
  | weightLoadComplete (o : OpRef)
  | tileMultiplyComplete (o : OpRef) (bad : List (List Nat))
  | drainComplete (o : OpRef)
  | drainbApplied (o : OpRef)
  | vopComplete (o : OpRef)
  | counterWake (c k : Nat)
  | waitTimeout (c k : Nat)
  | transferWaitTimeout (o : OpRef)
  | asyncExceptionTaken (c k : Nat)
  | clusterTerminationDone (c : Nat)
  | terminationReport (c : Nat)
  | launchAdmit (p : Nat)
  | imageLoadComplete (c : Nat)
  | launchEnd (p launch : Nat)
  | setupCommit (e : Entry)
  | commitBankFreed (scope : Nat)
  | drainLimitExpiry (scope : Nat)
  | memoryTransaction (id : Nat) (ecc : Ecc)
  | segmentBatchFetched (r : StreamRef) (ecc : Ecc)
  | streamUnitLands (r : StreamRef) (unit : Nat) (remote : List Byte) (ecc : Ecc)
  | outWriteAccepted (r : OutWrite)
  | streamWindowReturn (r : StreamRef)
  | voidResponseDrop (c : VoidResponse)
  | endpointDown (r : StreamTxn)
  -- host interface: doorbells, rings, windows, mailboxes
  | sqTailDoorbell (p ring value : Nat)
  | submissionFetch (p : Nat) (entry : BitVec 512)
  | cqHeadDoorbell (p : Nat) (value : W32)
  | completionWrite (p : Nat)
  | ringRegisterWrite (p ring : Nat) (field : RingField) (value : Nat)
  | hostWindowTableWrite (p i base length flags reserved : Nat)
  | mailboxSend (who : Party) (p m : Nat) (message : BitVec 512)
  | mailboxRetract (who : Party) (p m : Nat)
  | mailboxTake (who : Party) (p m : Nat)
  | functionLevelReset (p : Nat)
  -- ring commands, folios, sampler, steps, versions and Ductus jobs
  | nopCommand (e : Entry)
  | launch (e : Entry) (args : List Word) (clusters : List Nat) (streams trees : List Nat)
  | cancel (e : Entry)
  | batchAdmit (e : Entry) (seqs : List Nat)
  | batchEnd (e : Entry)
  | counterSignal (e : Entry)
  | counterSet (e : Entry)
  | counterRead (e : Entry)
  | setupWriteStream (e : Entry) (source : BitVec 512)
  | setupWriteTree (e : Entry) (source : BitVec 512)
  | setupWriteEndpoint (e : Entry) (source : BitVec 512)
  | setupWriteExport (e : Entry) (source : BitVec 512)
  | seqOpen (e : Entry)
  | seqClose (e : Entry)
  | folioAlloc (e : Entry)
  | folioMove (e : Entry)
  | folioPark (e : Entry)
  | folioUnpark (e : Entry)
  | folioFree (e : Entry)
  | folioMoveComplete (p folio : Nat) (remote : List Byte) (outcome : Transfer)
  | folioExpiry (p folio : Nat)
  | samplerStart (b : Nat)
  | samplerCommit (b : Nat)
  | stepOpen (e : Entry)
  | stepClose (e : Entry)
  | waveOpen (p : Nat)
  | fallbackAreasWritten (p : Nat)
  | versionOpen (e : Entry) (areas : List (Nat × Nat))
  | versionSwitch (e : Entry)
  | versionFree (e : Entry)
  | ductusJob (e : Entry)
  | ductusJobStart (b p : Nat)
  | ductusTurn (b : Nat) (remote : List Byte)
  | ductusJobComplete (b p : Nat) (outcome : Transfer)
  -- Kolas collectives
  | collectiveHoldRelease (o : HeldRef)
  | upMsg (m : CollMsg) (pipe : List Nat)
  | downMsg (m : DownMsg)
  | reissue (m : CollMsg)
  | agreeUp (m : CollMsg)
  | agreeDown (m : CollMsg)
  | dataMsg (m : CollMsg)
  | cut (m : CollMsg)
  | pull (m : CollMsg)
  | pullData (m : PulledMsg)
  | notReady (m : CollMsg)
  | notReadyRepeat (id : Nat)
  | abortMsg (m : CollMsg)
  | collectiveComplete (id : Nat)
  -- Kolas transport, RoCEv2, PTP, ports, lanes and laser
  | kolasData (k : Packet)
  | kolasAck (k : Packet)
  | kolasNak (k : Packet)
  | probe (k : Packet)
  | probeAck (k : Packet)
  | kolasResend (f : FlowKey)
  | ackTimer (f : FlowKey)
  | probeTimer (f : FlowKey)
  | peerDown (f : FlowKey)
  | roceReadRequest (r : RdmaReq)
  | roceWriteRequest (r : RdmaReq) (bytes : List Byte)
  | roceAckTimeout (p i : Nat)
  | cnp (at_ : CnpAt) (i : Nat)
  | neighbourSolicitation (at_ : FrameAt) (target : Nat)
  | echoRequest (at_ : FrameAt) (target source : Nat)
  | ptpMessage (at_ : PtpAt) (offset : Int) (locked : Bool)
  | portLinkDown (port : Nat)
  | laneSignalLoss (lane : Nat)
  | laneErrorWindow (lane : Nat) (errors : LaneErrors)
  | portFormed (port : Nat)
  | portFormFailed (port : Nat)
  | laserLowLight (engine : Nat)
  | laserFault (bank : Nat)
  | laserPresent (identityRead : Bool)
  -- base links, membership and cascade
  | baseLinkCrcError (link : Nat)
  | baseLinkReplayTimeout (link : Nat)
  | heartbeatTimer
  | heartbeat (m : MemberMsg)
  | loss (m : MemberMsg)
  | workerLossTimeout (member : Nat)
  | stateMsg (m : MemberMsg)
  | epochAck (m : MemberMsg)
  | epochAckTimeout
  | stateRepeat
  | epoch (m : MemberMsg)
  | assign (m : MemberMsg)
  | managerTimeout
  | cascadeLinkLoss (k : Nat)
  -- dictionary, Rinay, Noivos and EWS_N
  | mgmtPortFrame (at_ : MgmtAt) (frame : Frame) (tag : Nat)
  | rinayRead (rq : Requester) (frame : Frame)
  | rinayWrite (rq : Requester) (frame : Frame)
  | rinayStrayFrame (frame : Frame)
  | jtagDictionaryAccess (frame : Frame)
  | tapReset
  | dictionaryWrite (rq : Requester) (index sub value : Nat)
  | portModeWrite (rq : Requester) (engine value : Nat)
  | portEnableWrite (rq : Requester) (port value : Nat)
  | eventLogRelease (rq : Requester) (n : Nat)
  | noivosFullRestoreLocal (rq : Requester) (p : Nat)
  | noivosDeltaRestoreLocal (rq : Requester) (p : Nat)
  | noivosFullRestoreRemote (rq : Requester) (p : Nat)
  | noivosDeltaRestoreRemote (rq : Requester) (p : Nat)
  | restored (p : Nat) (records : List Byte) (pages : List (Nat × List Byte)) (failed : Bool)
  | checkpointPageAck (p page : Nat)
  | checkpointFailed (p target : Nat)
  | heldPageWriteRelease (id : Nat)
  | ewsAsserted
  | ewsGraceExpiry
  | ewsHolding
  | ewsResume (rq : Requester) (pinHigh : Bool)
  -- power, thermal, clocks and resets
  | powerSample (milliwatts : Nat)
  | dutyUpdate (duty : Nat)
  | thermalCheck (tenths : Int)
  | thermalTrip
  | wearSecond (tenths : Int)
  | idleGatingEntry
  | wakeEvent (w : Wake)
  | powerStateRequestS1 (rq : Requester)
  | powerStateRequestP0 (rq : Requester)
  | pllReady (island pll : Nat)
  | pllLockLoss (pll : PllRef)
  | hardwareClockSwitch (island : Nat)
  | missedRefreshTimeout (island : Nat)
  | referenceLoss (input : Nat)
  | clockSourceRequestA (rq : Requester)
  | clockSourceRequestB (rq : Requester)
  | ppsEdge
  | ppsTimeout
  | coldReset
  | powerLoss
  | bootGo (address length : Nat)
  | firmwareStart (image : FirmwareImage)
  | warmResetPin
  | warmReset (rq : Requester)
  | rstNRelease
  | partitionReset (rq : Requester) (p : Nat)
  | clusterReset (rq : Requester) (c : Nat)
  | clusterResetDone (c : Nat) (failing : BitVec 64)
  | hpPerstAssert
  | hpPerstRelease (width rate : Nat)
  | pcieRecoveryFailure
  | watchdog (processor restart : Nat)
  -- partitions, security and attestation
  | partitionStart (rq : Requester) (p : Nat)
  | partitionStop (rq : Requester) (p : Nat)
  | partitionMapWrite (rq : Requester) (index sub value : Nat)
  | unitClearDone (p : Nat) (u : ClearUnit)
  | strictIsolationWrite (rq : Requester) (value : Nat)
  | macsecModeWrite (rq : Requester) (port value : Nat)
  | macsecKeyInstall (rq : Requester) (p : Nat) (record : List Byte)
  | macsecKeyDelete (rq : Requester) (p : Nat) (record : List Byte)
  | operatorMacsecKeyInstall (rq : Requester) (record : List Byte)
  | operatorMacsecKeyDelete (rq : Requester) (record : List Byte)
  | managementKey (rq : Requester) (key : BitVec 256)
  | attestationRequest (rq : Requester) (p : Nat) (record : List Byte)
  | deviceAttestationRequest (rq : Requester) (record : List Byte)
  | attestationSigned (p : Nat)
  | securityVersionRaise (rq : Requester) (v : Nat)
  | keyRevoke (rq : Requester) (slot : Nat)
  | debugDisable (rq : Requester) (value : Nat)
  -- memory maintenance and late events
  | inkwellScrub (b line : Nat) (found : ScrubRead)
  | patrolScrub (channel line : Nat) (found : ScrubRead)
  | hourlyWindow
  | accessTimeout (channel : Nat)
  | retrainingFailure (channel : Nat)
  | migrationLine (b : Nat) (ecc : Ecc)
  | homeFillDone (b : Nat)
  | samplerComplete (b : Nat)
  | bindResolved (o : OpRef)
  | claimResolved (o : ClaimRef)
  | bootCheckFailed (code : Nat) (image : FirmwareImage)
  | portLinkUp (port : Nat)
  | referenceReturn (input : Nat)
  | mgPhyInt (up : Bool)
  | inBandRinayFrame (source : Nat) (frame : Frame) (at_ : UdpAt) (secured : Option Secured)
  deriving DecidableEq, Repr

end Sys2Proof
end

