-- ==== Sys2Proof/Decode.lean ====
section
/-! DEFINITION. The command a word spells by the bits of spec/opcode_table.json. The table gives no row any bits: the
commands come from outside as commands, and a Scribe instruction's 64-bit word (R133) is an operand of its issue. -/

namespace Sys2Proof

/-- The command that `nbits` bits spell: none, since no row of the table has bits. -/
def decodeTableWord (_nbits _w : Nat) : Option Instr := none

end Sys2Proof
end

