-- ==== Sys2Proof/Config.lean ====
section
/-! DEFINITION. What the model leaves uninterpreted: free values of the spec and primitives it names by their standard
only. Nothing here has a body, so a statement that holds, holds whatever they are. -/

namespace Sys2Proof.Config

/-- SHAKE256 with 256 bits of output (R130, R425, R484, R488), as a number. DESIGN CHOICE: uninterpreted (log 7). -/
opaque shake256 : List Byte → Nat

/-- KMAC256 with customisation string "RINAY" (R413): key, message. DESIGN CHOICE: uninterpreted (log 7). -/
opaque kmac256 : Nat → List Byte → Nat

/-- SLH-DSA-SHAKE-256s verification in pure mode (R484): public key, message, context, signature.
DESIGN CHOICE (log 7). -/
opaque verifySignature : Nat → List Byte → String → List Byte → Bool

/-- The signature the security block makes under the identity key (R490): message, context. DESIGN CHOICE (log 7). -/
opaque sign : List Nat → String → List Nat

/-- The identity public key that R487 derives from the device secret. DESIGN CHOICE (log 7). -/
opaque identityKey : Nat → Nat

/-- What the CTR_DRBG of the security block draws for a key pair (R480): the number of the pair, and of the draw.
DESIGN CHOICE: uninterpreted (log 7). -/
opaque drbg : Nat → Nat → BitVec 256

/-- The second key of pair n: the first of the draws from number i on that differs from the first key (R480); should none of them, the
first key's complement. DESIGN CHOICE (log 7). -/
def secondKey (n : Nat) : Nat → Nat → BitVec 256
  | 0, _ => ~~~(drbg n 0)
  | k + 1, i => if drbg n i = drbg n 0 then secondKey n k (i + 1) else drbg n i

/-- THE XTS KEY PAIR of a number (R480): two 256-bit keys, drawn again while they are equal. -/
def keyPair (n : Nat) : BitVec 256 × BitVec 256 := (drbg n 0, secondKey n 256 1)

/-- AES-256-XTS of one 16-byte block of a line (R202): key pair, tweak, block 0 to 3 of the line, plain block.
DESIGN CHOICE: uninterpreted (logs 7, 12). -/
opaque xtsEncrypt : BitVec 256 × BitVec 256 → Nat → Nat → BitVec 128 → BitVec 128

/-- The inverse of `xtsEncrypt` under one key pair (R202): key pair, tweak, block, ciphertext. DESIGN CHOICE: uninterpreted
(logs 7, 12). -/
opaque xtsDecrypt : BitVec 256 × BitVec 256 → Nat → Nat → BitVec 128 → BitVec 128

/-- The 16-bit check word of 512 stored bits at a physical line (R199). The spec names no code: free value. DESIGN CHOICE (log 94). -/
opaque checkWord : BitVec 512 → Nat → BitVec 16

/-- The code under which a strand would learn that its transaction was dropped for a bad tag (R33). Table "Feed status" has none
for BAD_TAG: free value. DESIGN CHOICE (log 22). -/
opaque badTagStatus : Nat

/-- An FP32 result of a transcendental function whose enclosure at 512 fractional bits does not decide the rounding:
function code and operand. Free value; no operand is known to reach it. DESIGN CHOICE (log 8). -/
opaque hardCase : Nat → W32 → W32

/-- The hash that places a flow on a port (R358), named in event KOLAS_RESEND. The spec gives no function: free value.
DESIGN CHOICE (log 23). -/
opaque flowHash : FlowKey → Nat

/-- The management processor, 0 to 3, that a function of the host link is assigned to (R425). DESIGN CHOICE (log 113). -/
opaque processorOf : Nat → Nat

/-- The index in the group of a peer that this device's membership table does not list, as a worker names it in a LOSS
message (R433). The spec does not say how a worker knows it: free value. DESIGN CHOICE (log 24). -/
opaque memberOf : Nat → Nat

/-- The answer of a cascade member to the n-th forwarded request, as its master relays it (R420): status, type code, Last and payload.
DESIGN CHOICE (log 26). -/
opaque memberAnswer : Nat → Nat × Nat × Bool × List Byte

/-- The cascade index of the member that has an engine address, for the choice of its link (R379). The spec does not say how a
package knows it: free value. DESIGN CHOICE (log 108). -/
opaque cascadeMember : Nat → Nat

/-- Devices of a ring, for its shorter way (R374). No entry holds it: free value. DESIGN CHOICE (log 102). -/
opaque ringSize : Nat

/-- The status that CHECKPOINT_FAILED names for a failure other than an RDMA WRITE's: 0 an uncorrectable page, 1 a restore
without a complete copy or with a failed read (R440, R441, R429). The spec gives no code: free value. DESIGN CHOICE (log 25). -/
opaque checkpointStatus : Nat → Nat

end Sys2Proof.Config
end

