-- ==== Sys2Proof/Machine/State.lean ====
section
/-! DEFINITION. The state of one P25 package as plain data: the queue of waiting commands, the package memory, the
security block and the rest of the device (`Fab`). Every dictionary entry (R403) has its one home in `Fab.dict`, keyed
by index and subindex, unless a field below is named as its home. -/

namespace Sys2Proof.Machine

open Sys2Proof

/-- Reasons a step stops with a fault. The spec gives every command of the table an effect, so no command raises one and
there is no constructor: an address outside the map is an exception or a status, never a stop (safe). -/
inductive Fault
  deriving DecidableEq, Repr

/-- Reasons a command is refused. -/
inductive Refusal
  /-- Raised by an arm of `exec` that has no meaning yet, named by its mnemonic; safe, since a refused command claims
  nothing. -/
  | notModelled (mnemonic : String)
  deriving DecidableEq, Repr

/-! ### Scribe and cluster -/

/-- Table "Strand states" (R99). -/
inductive StrandState
  | idle
  | running
  | blocked
  | trapped
  | ended
  | faulted
  deriving DecidableEq, Repr

/-- Table "Exception causes" (R124). -/
inductive Cause
  | illegal
  | badHandle
  | wellRange
  | accRange
  | tileWidth
  | klenRange
  | formatPair
  | addrRange
  | notSetUp
  | counterRange
  | imemRange
  | brk
  | waitTimeout
  | scaleLimit
  | flagTrap
  | streamError
  | collectiveError
  | noRoute
  | staleRoute
  | nibFault
  | memUncorrectable
  | aborted
  deriving DecidableEq, Repr

/-- An exception with what it records: the cause, the index for EPC and EINFO (R124). -/
structure Exc where
  cause : Cause
  epc : BitVec 16
  einfo : Word
  deriving DecidableEq, Repr

/-- A register that an operation in flight will write (R111, R137). -/
inductive Dest
  | s (r : Nat)
  | q (r : Nat)
  deriving DecidableEq, Repr

/-- What a Blocked strand waits for (R99, R118, R156), with the cycle it began to wait. -/
inductive WaitFor
  | counter (scope index : Nat) (target : W32)
  | credits (handle count : Nat)
  deriving DecidableEq, Repr

/-- One strand: its registers (Table "Strand registers", R101), the system registers that are the strand's own
(Table "System registers", R106) and its waiting state. -/
structure Strand where
  st : StrandState
  pc : BitVec 16
  /-- s0 to s31. -/
  s : Tbl Word
  /-- a0 to a15. -/
  a : Tbl Word
  /-- p1 to p7; p0 is hard-wired to 1 by the read operation. -/
  p : Tbl Bool
  /-- t0 to t15. -/
  t : Tbl Word
  /-- q0 to q7: Valid, Direction and Stream number. Credits is computed from the stream. -/
  q : Tbl Word
  flags : W32
  flagTrap : W32
  tvec : BitVec 16
  epc : BitVec 16
  cause : Byte
  einfo : Word
  waitLimit : Word
  replays : W32
  /-- What a Blocked strand waits for, and the cycle of the wait's issue (R121). -/
  waiting : Option (WaitFor × Nat)
  /-- Registers with a write pending from an operation in flight (R111). -/
  busy : List Dest
  /-- Asynchronous exceptions raised and not yet taken (R165). -/
  async : List Exc
  /-- The first cycle in which the strand may issue after a taken branch or a trap (R110, R125). -/
  readyAt : Nat
  deriving DecidableEq, Repr

/-- A strand at the start of a launch, before its entry point, argument values and wait limit are put in (R101, R106).
DESIGN CHOICE (log 5). -/
def Strand.idleReset : Strand :=
  { st := .idle, pc := 0, s := [], a := [], p := [], t := [], q := [], flags := 0, flagTrap := 0, tvec := 0, epc := 0,
    cause := 0, einfo := 0, waitLimit := 0, replays := 0, waiting := none, busy := [], async := [], readyAt := 0 }

/-- The format codes of Table "Format codes" (R139). -/
inductive Fmt
  | fp32
  | bf16
  | fp16
  | e4m3
  | e5m2
  | int8
  | mxE4m3
  | mxE5m2
  | mxE3m2
  | mxE2m3
  | mxE2m1
  deriving DecidableEq, Repr

/-- One weight column: its 64 bytes and its scale tag (R40, R78). -/
structure Column where
  bytes : List Byte
  tag : W32
  deriving DecidableEq, Repr

/-- The live or the shadow buffers of a cluster: their format (none while unformatted, R40) and the presented columns
that are not all zero. -/
structure WBuf where
  fmt : Option Fmt
  cols : Tbl Column
  deriving DecidableEq, Repr

/-- The operands of a tile multiply as read at issue (R149). -/
structure TmulOp where
  act : Nat
  stride : Nat
  fmt : Fmt
  base : Nat
  m : Nat
  w : Nat
  k : Nat
  e : Int
  accumulate : Bool
  swap : Bool
  rp : Bool
  /-- The live buffers from its start on: a later load or swap does not change them (R51). -/
  weights : WBuf := ⟨none, []⟩
  /-- Since it started, a swap has made its buffers the shadow ones (R52). -/
  swapped : Bool := false
  deriving DecidableEq, Repr

/-- The operands of a DRAIN as read at issue (R151). -/
structure DrainOp where
  addr : Nat
  stride : Nat
  fmt : Fmt
  base : Nat
  m : Nat
  w : Nat
  e : Int
  rp : Bool
  z : Bool
  /-- The accumulator entries it has read, once its hold has ended (R53, R151). -/
  got : Option (Tbl W32)
  /-- It is replayed, so that its rows are cleared only at its completion (R151). -/
  later : Bool := false
  deriving DecidableEq, Repr

/-- An operand of a VOP: a Well tile (handle), a stream handle, or the scalar (R138, R170, R171). -/
inductive VSrc
  | tile (addr rows stride : Nat) (fmt : Fmt)
  | stream (handle : Nat) (fmt : Fmt)
  | scalar (bits : W32)
  | unused
  deriving DecidableEq, Repr

/-- One unit of 64 bytes with its Well row tag (R220, R221), where an out-stream writes it (element and scale addresses), whether
it is the last of its segment and that segment signals (R227), whether it is the last of its row (R228), and the operation that gave
it to an out-stream (R119). -/
structure StreamUnit where
  bytes : List Byte
  tag : W32
  addr : Nat
  scale : Nat
  ends : Bool
  signal : Bool
  rowEnd : Bool
  op : Nat
  deriving DecidableEq, Repr

/-- The operands of a VOP as read at issue (R154, R172). -/
structure VopOp where
  fn : Nat
  dst : VSrc
  src1 : VSrc
  src2 : VSrc
  src3 : VSrc
  bc : Nat
  count : Nat
  /-- Units taken so far from the streams of src1, src2 and src3 (R171, R183). -/
  got1 : List StreamUnit
  got2 : List StreamUnit
  got3 : List StreamUnit
  deriving DecidableEq, Repr

/-- The operands of a COLL as read at issue (R159). -/
structure CollOp where
  rd : Nat
  src : Nat
  dst : Nat
  size : Nat
  tree : Nat
  kind : Nat
  fmt : Nat
  scope : Nat
  ctr : Nat
  deriving DecidableEq, Repr

/-- What an operation in flight does when it completes. -/
inductive OpKind
  | tmul (o : TmulOp)
  | wload (addr stride : Nat) (fmt : Fmt) (w : Nat)
  | drain (o : DrainOp)
  | aclr (base m : Nat)
  /-- The last field holds the accumulator entries it has read, once its hold has ended (R53, R153). -/
  | drainb (slot offset base m w : Nat) (got : Option (Tbl W32))
  | vop (o : VopOp)
  /-- A VOP that has its result and still gives units to its destination stream; the flags it raises at the end. -/
  | vout (handle : Nat) (units : List StreamUnit) (flags : W32)
  | sin (handle addr stride units moved : Nat)
  | sout (handle addr stride units moved : Nat)
  | bind (handle number : Nat)
  | load (rd : Nat) (addr size : Nat) (signed : Bool)
  | store (addr size value : Nat)
  | coll (o : CollOp)
  | sample (rd : Nat) (logits block : Nat) (draft : Option Nat)
  | signal (scope index : Nat) (n : Option W32) (value : W32)
  deriving DecidableEq, Repr

/-- One operation of a cluster in flight: its number, its strand, the index of its instruction (EPC), whether it is held
(R48, R52, R53, R113), its issue cycle and the cycle its spec latency gives for completion. -/
structure Op where
  id : Nat
  strand : Nat
  epc : BitVec 16
  kind : OpKind
  held : Bool
  issued : Nat
  due : Nat
  /-- It has raised WAIT_TIMEOUT (R157, R183). -/
  late : Bool
  deriving DecidableEq, Repr

/-- Table "Stream states" (R222). -/
inductive StreamState
  | armed
  | spent
  | cancelling
  deriving DecidableEq, Repr

/-- A pass of a stream: its base and the absolute number of its first unit (R220, R224). -/
structure Pass where
  base : Nat
  start : Nat
  deriving DecidableEq, Repr

/-- A bound stream of a Feed port (R216, R222, R225). Units are numbered from 0 over all passes since BIND. `uid` is its number
among the bindings of its cluster, by which its transactions name it. -/
structure Stream where
  uid : Nat
  strand : Nat
  handle : Nat
  number : Nat
  /-- Index of the instruction that armed the current pass, for EPC (R124). -/
  epc : BitVec 16
  /-- The port's copy of the stream descriptor. -/
  desc : BitVec 512
  /-- The segment store: the batch, once fetched (R219). -/
  segs : Option (List (BitVec 256))
  state : StreamState
  /-- The running pass. -/
  cur : Option Pass
  /-- The base of the pending arm and the index of its SARM. -/
  pendingArm : Option (Nat × BitVec 16)
  /-- In-stream: landed units not yet consumed. Out-stream: accepted units not yet acknowledged. -/
  units : Tbl StreamUnit
  /-- Units consumed by SIN or VOP (in), or accepted from SOUT or VOP (out). -/
  head : Nat
  /-- The unit to be requested next (in), or to be injected next (out) (R225, R226). -/
  asked : Nat
  /-- The segment batch has been requested (R219). -/
  fetching : Bool
  /-- Out-stream: units through which everything has been acknowledged, segments in order (R227). -/
  written : Nat
  /-- Out-stream: units past `written` acknowledged out of order. -/
  acked : List Nat
  /-- Out-stream of an MX format: the partial scale lines gathered so far, by line number: their bytes by place (R221). -/
  gather : Tbl (Tbl Byte)
  /-- Scale bytes ready to be written: the unit that completed them, their address and the bytes (R221). -/
  lines : List (Nat × Nat × List Byte)
  /-- Segments of the current pass whose last unit was consumed or accepted. -/
  retired : Nat
  deriving DecidableEq, Repr

/-- What a cluster is doing (R100, R126, R129, R466). -/
inductive ClusterPhase
  | idle
  | loading
  | running
  | terminating
  | awaitReset
  | resetting
  deriving DecidableEq, Repr

/-- One cluster, Broad or Fine (R17, R99). Its presented width and bad-nib map are dictionary entries (R70). -/
structure Cluster where
  phase : ClusterPhase
  /-- Launch identifier of the launch on the cluster (system register LAUNCH). -/
  launch : Nat
  /-- PWIDTH of the launch, after any cap (R63, R107). -/
  pwidth : Nat
  /-- Cycle of the launch start; CYCLE counts from it. -/
  startCycle : Nat
  strands : Tbl Strand
  /-- The strand that issued most recently (R111). -/
  lastIssued : Nat
  /-- The first cycle in which the Scribe may issue its next instruction: one a cycle (R111). -/
  issueFrom : Nat
  /-- The first cycle in which the matrix unit accepts the next tile multiply (R57, R112). -/
  matrixFrom : Nat
  imem : List Word
  /-- Digest and partition of the image that instruction memory holds since the last cluster reset (R130). -/
  imemImage : Option (Nat × Nat)
  /-- Accumulator file: entry 64 r + n holds row r, column n (R46). -/
  acc : Tbl W32
  live : WBuf
  shadow : WBuf
  /-- Cluster counters c.0 to c.31 (R116). -/
  counters : Tbl W32
  ops : List Op
  nextOp : Nat
  streams : List Stream
  /-- Bindings made so far, for the number of the next (`Stream.uid`). -/
  nextStream : Nat
  /-- Per-nib residue mismatches since cold reset (R68). -/
  nibMiss : Tbl Nat
  /-- A nib became permanent-bad since the last cluster reset: no new launch until the next (R68). -/
  nibBad : Bool
  /-- Nib residue limit in force since the last cluster reset (R71). -/
  nibLimit : Nat
  /-- Issue credit of R448, times 64, at cycle `creditAt`; it rises from there. -/
  credit : Int
  creditAt : Nat
  /-- The first fatal exception of the launch on this cluster (R126, R131): strand and exception. -/
  fatal : Option (Nat × Exc)
  /-- Residue replays run (R67). -/
  residueReplays : Nat
  deriving DecidableEq, Repr

/-- A cluster after its cluster reset (R40, R466): no image, accumulators clear, buffers zero and unformatted.
DESIGN CHOICE (log 5). -/
def Cluster.idleReset : Cluster :=
  { phase := .idle, launch := 0, pwidth := 64, startCycle := 0, strands := [], lastIssued := 7, issueFrom := 0, matrixFrom := 0, imem := [],
    imemImage := none, acc := [], live := ⟨none, []⟩, shadow := ⟨none, []⟩, counters := [], ops := [], nextOp := 0,
    streams := [], nextStream := 0, nibMiss := [], nibBad := false, nibLimit := 4, credit := 16384, creditAt := 0,
    fatal := none, residueReplays := 0 }

/-! ### Package transactions, launches and setup -/

/-- The transaction tag of R33. -/
structure Tag where
  partition : Nat
  bank : Bool
  cls : Nat
  sourceDie : Nat
  sourceUnit : Nat
  destDie : Nat
  seq : Nat
  deriving DecidableEq, Repr

/-- What a transaction is for: an LD or ST of a cluster; the segment batch of a stream, `n` units of an in-stream from `first` on,
`n` units of an out-stream, or scale bytes that unit `last` completed (R219 to R221, R228); or a request that a cancel made
void (R242). -/
inductive TxnFor
  | op (cluster id : Nat)
  | batch (cluster uid : Nat)
  | units (cluster uid first n : Nat)
  | out (cluster uid first n : Nat)
  | scale (cluster uid last : Nat)
  | void (cluster : Nat)
  deriving DecidableEq, Repr

/-- Where a transaction goes: package memory, host memory, a peer's endpoint window (R228, R243, R244), or, a DRAINB, a Blotter slot of
its own base die (R37, R153). -/
inductive Far
  | package
  | host
  | peer (endpoint : Nat)
  | slot (index : Nat)
  deriving DecidableEq, Repr

/-- The sub-shares of an LPDDR5X channel's slots (Table "Sub-shares", R232). -/
inductive SubShare
  | bondRead
  | baseRead
  | write
  | remote
  deriving DecidableEq, Repr

/-- A package transaction in flight (R33): where it goes, what it reads or writes, and who waits for it; `write` holds its bytes
for a write, `more` the scale bytes that a read of stream units takes with it (R220). -/
structure Txn where
  id : Nat
  tag : Tag
  addr : Nat
  len : Nat
  more : List (Nat × Nat)
  write : Option (List Byte)
  origin : TxnFor
  far : Far
  /-- Held by a checkpoint read of its page (R439). -/
  heldPage : Bool
  /-- The route bank read at injection (R27). -/
  routeBank : Bool
  /-- The entry of its peer's window as read at injection, 0 for another destination (R27, R244). -/
  window : Nat := 0
  /-- The islands of its route, in order, as the route entry read at injection gives them (R18, R27, R32). -/
  route : List Nat
  /-- The island before the crossing it stands in, and the islands it has still to enter: none once it stands in the queue of
  its memory (R22, R195, R235). -/
  behind : Nat
  ahead : List Nat
  deriving DecidableEq, Repr

/-- An LD or ST that waits at its port for a free entry at its destination (R192, R235): its operation, the address and
length, and the bytes of a store. -/
structure Waiting where
  cluster : Nat
  op : Nat
  addr : Nat
  len : Nat
  write : Option (List Byte)
  deriving DecidableEq, Repr

/-- The slot plan of a frame: read, write, remote and bond-side read slots (R233). -/
structure Plan where
  r : Nat
  w : Nat
  m : Nat
  rb : Nat
  deriving DecidableEq, Repr

/-- An LPDDR5X channel (R200, R231 to R236): the plan of the running frame, its next slot, the sub-share that last received a
lent slot, the partition that each sub-share served last, and the cached ECC lines, the last used first, with their dirty
marks. -/
structure Chan where
  plan : Option Plan
  slot : Nat
  lent : SubShare
  turn : Tbl Nat
  ecc : List (Nat × Bool)
  deriving DecidableEq, Repr

/-- A channel at the start of a frame, with no ECC line cached, the lending rotation after its last and no partition served before.
DESIGN CHOICE (logs 95, 116). -/
def Chan.reset : Chan := { plan := none, slot := 0, lent := .remote, turn := [], ecc := [] }

/-- Where a launch stands (R129 to R131). -/
inductive LaunchPhase
  | queued
  | waiting
  | loading
  | running
  | aborting
  deriving DecidableEq, Repr

/-- A launch from its arrival to its completion (R129). -/
structure Launch where
  id : Nat
  partition : Nat
  tag : Nat
  image : Nat
  count : Nat
  width : Nat
  mask : Nat
  entries : List Nat
  digest : Nat
  args : List Word
  /-- Clusters named; once admitted, those that have not returned to Idle. -/
  clusters : List Nat
  streams : List Nat
  trees : List Nat
  phase : LaunchPhase
  /-- Cluster, strand and exception of the first fatal exception received (R131). -/
  fault : Option (Nat × Nat × Exc)
  /-- The CANCEL commands that wait for this launch, by tag and serial (R395). -/
  cancels : List (Nat × Nat)
  /-- The serial of its submission entry. -/
  serial : Nat := 0
  deriving DecidableEq, Repr

/-- One bank of setup state of a partition scope (R26, R215, R302, R365, R366, R388). -/
structure Bank where
  streams : Tbl (BitVec 512)
  trees : Tbl (BitVec 512)
  endpoints : Tbl (BitVec 512)
  exportTbl : Tbl (BitVec 512)
  /-- Host windows: base, length and flags ([0] read, [1] write). -/
  hostWindows : Tbl (Nat × Nat × Nat)
  deriving DecidableEq, Repr

/-- The setup scope of a partition: the live and shadow banks, the bank bit, and the commit that has not completed
(its SETUP_COMMIT, if the host issued it, and whether it refused a descriptor) (R26 to R29). -/
structure Scope where
  live : Bank
  shadow : Bank
  bank : Bool
  draining : Bool
  commit : Option (Entry × Bool)
  /-- A commit of the firmware waits for the running drain (R29, R435). -/
  again : Bool
  /-- Cycle at which the drain limit of the running drain expires (R28). -/
  drainEnds : Nat
  deriving DecidableEq, Repr

/-- An empty bank. DESIGN CHOICE (log 6). -/
def Bank.none : Bank := { streams := [], trees := [], endpoints := [], exportTbl := [], hostWindows := [] }

/-- A scope with nothing set up. DESIGN CHOICE (log 6). -/
def Scope.none : Scope :=
  { live := .none, shadow := .none, bank := false, draining := false, commit := Option.none, again := false,
    drainEnds := 0 }

/-! ### Host interface -/

/-- A submission or completion ring (Table "Ring registers", R389), its doorbell and phase. -/
structure Ring where
  base : Nat
  head : Nat
  sizeExp : Nat
  enable : Bool
  /-- SQ: the tail doorbell. CQ: the index after the last entry the host consumed. -/
  doorbell : Nat
  phase : Bool
  deriving DecidableEq, Repr

/-- A ring after reset (R389). -/
def Ring.reset : Ring := { base := 0, head := 0, sizeExp := 6, enable := false, doorbell := 0, phase := true }

/-- A completion entry (Table "Completion entry", R396): opcode, status, tag and the 192 detail bits. -/
structure Completion where
  opcode : Nat
  status : Nat
  tag : Nat
  detail : Nat
  deriving DecidableEq, Repr

/-- A VF's host interface (R387 to R393). -/
structure Vf where
  sq : Tbl Ring
  cq : Ring
  /-- Ring error bits (R390): bit n for SQ n. -/
  errors : Nat
  msixArmed : Bool
  /-- The SQ to be served next in round robin (R391). -/
  nextRing : Nat
  /-- Fetched entries not yet applied, in fetch order (R391). -/
  fetched : List Entry
  /-- Commands fetched and not completed, in fetch order (R391, R393); marked when a function-level reset came since, whose
  completions are discarded (R386). -/
  openCmds : List (Entry × Bool)
  /-- Completions and notifications waiting for room (R393). -/
  queue : List Completion
  /-- Notifications dropped and not yet reported by NOTIFY_LOST. -/
  lost : Nat
  /-- Completions written to the host's ring: index, phase and entry, in order. -/
  written : List (Nat × Bool × Completion)
  /-- COUNTER_SIGNAL and COUNTER_SET entries that wait for earlier entries of their ring (R395). -/
  ordered : List Entry
  /-- Entries fetched so far, the model's own: the next one's serial. -/
  nextSerial : Nat := 0
  deriving DecidableEq, Repr

/-- A VF after reset. -/
def Vf.reset : Vf :=
  { sq := [], cq := .reset, errors := 0, msixArmed := false, nextRing := 0, fetched := [], openCmds := [], queue := [],
    lost := 0, written := [], ordered := [] }

/-- The state of a sender's last message in a mailbox: send control [1:0] and [2] (R398, R400). -/
structure SendCtl where
  state : Nat
  ignored : Bool
  deriving DecidableEq, Repr

/-- A mailbox (R397 to R400): the message in its slot with its sender and stamp, the messages waiting in arrival order,
and the send control of each sender (0 PF, 1 VF, 2 firmware). -/
structure Mailbox where
  slot : Option (Party × W32 × BitVec 512)
  waiting : List (Party × W32 × BitVec 512)
  control : Tbl SendCtl
  deriving DecidableEq, Repr

/-- An empty mailbox. -/
def Mailbox.empty : Mailbox := { slot := none, waiting := [], control := [] }

/-! ### Generation, learning, Ductus and versions -/

/-- An admitted batch (R258, R350). -/
structure Batch where
  partition : Nat
  tag : Nat
  version : Nat
  seqs : List Nat
  deriving DecidableEq, Repr

/-- A folio move in progress (R261 to R263): the command's entry, the old tier, the destination and the bytes it copies. -/
structure FolioMove where
  entry : Entry
  folio : Nat
  seq : Nat
  home : Nat
  oldTier : Nat
  oldAddr : Nat
  newTier : Nat
  newAddr : Nat
  peerWindow : Nat
  ttl : Nat
  bytes : Nat
  deriving DecidableEq, Repr

/-- States of a version record (Table "Version states", R345). -/
inductive VersionState
  | free
  | loading
  | current
  | retiring
  deriving DecidableEq, Repr

/-- A version record (R345). -/
structure VersionRec where
  version : Nat
  state : VersionState
  areas : List (Nat × Nat)
  outstanding : Nat
  failed : Nat
  holds : Nat
  /-- VERSION_FREE commands that wait for the record's jobs to end (R352). -/
  freeing : List Entry
  deriving DecidableEq, Repr

/-- A free version record. -/
def VersionRec.free : VersionRec :=
  { version := 0, state := .free, areas := [], outstanding := 0, failed := 0, holds := 0, freeing := [] }

/-- A Ductus job (Table "Ductus job", R338) with the entry that submitted it and the bytes it has produced. -/
structure Job where
  entry : Entry
  partition : Nat
  desc : BitVec 512
  pos : Nat
  /-- The collective of a job with Multicast and of a RECEIVE (R341), and the status it failed with (R343). -/
  coll : Option Nat
  broken : Option Nat
  cancelled : Bool
  /-- Flags its conversions have raised (R87). -/
  flags : W32
  deriving DecidableEq, Repr

/-- The Ductus of a base die (R332): per partition one active job and its queue, the active folio move and the commands
that wait for it, and the client served in the running turn (0 to 15 a partition's job, 16 the folio move). -/
structure Ductus where
  active : Tbl Job
  queue : Tbl (List Job)
  move : Option FolioMove
  moves : List Entry
  client : Nat
  deriving DecidableEq, Repr

/-- A Ductus with no work. -/
def Ductus.idle : Ductus := { active := [], queue := [], move := none, moves := [], client := 0 }

/-- A plan read from a slice entry when its wave opened (R278), and the Rubric fields of the slice. -/
structure Slice where
  number : Nat
  state : Nat
  fallback : Nat
  writer : Nat
  layer : Nat
  link : Nat
  linkKind : Nat
  wave : Nat
  units : Nat
  home : Nat
  slot : Nat
  kind : Nat
  frozen : Bool
  onFallback : Bool
  deriving DecidableEq, Repr

/-- An open learning step of a partition (R277, R281). Its slices are those of the open wave in
any state (1 while its claim waits for step 5 of R281) and the Sealed ones of earlier waves. -/
structure StepRec where
  number : Nat
  waveCounter : Nat
  wave : Nat
  waves : Nat
  slices : List Slice
  /-- The wave has claimed its slots and its fallback areas are being written (R281 step 5). -/
  filling : Bool
  /-- Numbers of the slices whose wave has opened in the step: their plan fields have been read (R278). -/
  opened : List Nat := []
  deriving DecidableEq, Repr

/-- Who holds a Blotter slot (R308). -/
inductive Holder
  | free
  | slice (partition n : Nat)
  | collective (id : Nat)
  deriving DecidableEq, Repr

/-- A Blotter slot (R308): its holder and its FP32 area. What its KBX area of 1,024 blocks holds stands in the block records of the
collective that uses it (`Coll.blocks`), at most 1,024 of each tree at a time. -/
structure Slot where
  holder : Holder
  fp : Tbl W32
  deriving DecidableEq, Repr

/-- A KBX block (R88, R89): header fields and elements; `none` is the marker M (R90). -/
structure Kbx where
  x : Nat
  sat : Bool
  nf : Bool
  h : Nat
  k32 : Bool
  rho : Nat
  q : List (Option Int)
  deriving DecidableEq, Repr

/-- One block of a reduction on this member (R312 to R323). -/
structure BlockRec where
  attempt : Nat
  x : Nat
  eps : Nat
  /-- The block waits for its agreed exponent (R313). -/
  pre : Bool
  cmax : Nat
  /-- Ranks whose AGREE_UP has arrived. -/
  agreed : List Nat
  /-- KBX-48 sum of this member's block and those of its children in the same group tree; none until it is converted. -/
  low : Option Kbx
  /-- KBX-32 sum of this member's group and of its children among the group roots (R322). -/
  upper : Option Kbx
  /-- Ranks whose UP of the present attempt has arrived. -/
  got : List Nat
  satReissues : Nat
  resReissues : Nat
  /-- The DOWN message or a repair has come, or the root has delivered. -/
  down : Bool
  /-- The FP32 result, if this member receives it, is in adst. -/
  data : Bool
  saturated : Bool
  /-- Its AGREE_UP, or its UP of some attempt, has been sent, for Last (R327). -/
  agreeSent : Bool
  upSent : Bool
  /-- An add of this member's own contributions failed on the next adder too: an input is bad (R323). -/
  bad : Bool := false
  deriving DecidableEq, Repr

/-- Where a collective stands on this member. -/
inductive CollPhase
  | held
  | running
  deriving DecidableEq, Repr

/-- Who launched a collective: an operation of a cluster or a Ductus job. -/
inductive CollBy
  | op (cluster id strand : Nat) (epc : BitVec 16)
  | job (die partition : Nat)
  deriving DecidableEq, Repr

/-- A collective message this device sends: destination rank, type code and message (R327). -/
structure OutMsg where
  dest : Nat
  type : Nat
  msg : CollMsg
  deriving DecidableEq, Repr

/-- One block of an UP (type 0x01), a REISSUE (0x03) or one value of an AGREE_UP (0x04), taken by itself: its sender, its block, its
attempt and value (the new scale, or c), the KBX block, whether it comes from the groups above, and the faults of its add and of that of
a narrowed sum (level, adder). -/
structure BlockMsg where
  type : Nat
  source : Nat
  block : Nat
  attempt : Nat
  value : Nat
  kbx : Option Kbx
  above : Bool
  fault : Nat × Nat
  narrowed : Nat × Nat
  deriving DecidableEq, Repr

/-- A collective in flight on this member (R307 to R326). -/
structure Coll where
  id : Nat
  partition : Nat
  die : Nat
  tree : Nat
  seq : Nat
  /-- The tree's descriptor, its scale reissue limit and the flows of its members by rank, as at the launch. -/
  desc : BitVec 512
  limit : Nat
  peers : List FlowKey
  op : CollOp
  launcher : CollBy
  /-- Slice reference: the leader, and the slices of the seal that contribute blocks of their own (R285, R288). -/
  slice : Option Nat
  parts : List Nat
  /-- Every slice of the seal. -/
  sealed : List Nat
  slots : List Nat
  fallback : Bool
  phase : CollPhase
  /-- The ranks an ABORT of this member goes to (R326). -/
  partners : List Nat
  blocks : Tbl BlockRec
  /-- Byte kinds: the pieces received so far, as (offset, length). -/
  ranges : List (Nat × Nat)
  /-- Children cut from the multicast (R324). -/
  cuts : List Nat
  /-- The trees (true for B) whose parent has cut this member, which repairs them by PULL (R325). -/
  repairs : List Bool
  /-- Requests of repair clients that wait for their range: rank, tree, offset, bytes (R325). -/
  pulls : List (Nat × Bool × Nat × Nat)
  /-- Repair clients whose last PULL of a tree has come (R327). -/
  pullsEnd : List (Nat × Bool)
  /-- Messages sent, for a repeat after NOT_READY (R311). -/
  outbox : List OutMsg
  /-- The blocks of tree A begun (R308), or the piece of the own source to be multicast next (R324). -/
  next : Nat
  /-- Trees in which an element other than +0 has been seen (R315). -/
  nonzero : List Bool
  /-- Zero reports of the trees' roots (R315). -/
  reports : Tbl Bool
  /-- The blocks of tree B begun (R308). -/
  nextB : Nat := 0
  /-- What has come for blocks that have not begun here, in arrival order (R308, R313, R315). -/
  early : List BlockMsg := []
  /-- The cycle it started in (R324). -/
  since : Nat := 0
  /-- Send and receive entries of an unequal exchange, as read at the launch (R306). -/
  entries : List (Nat × Nat) := []
  /-- The rank a permutation sends to, as read at the launch (R306). -/
  permTo : Nat := 0
  /-- Bytes from offset 0 on that a sender's job with no Destination has multicast, for its repair clients (R325, R338). -/
  kept : List Byte := []
  deriving DecidableEq, Repr

/-- A message answered NOT_READY and due to be repeated (R311): its own number, its collective and the message. -/
structure Repeat where
  id : Nat
  coll : Nat
  message : OutMsg
  deriving DecidableEq, Repr

/-- A sampler instruction in a sampler unit's queue (R249). -/
structure SamplerItem where
  cluster : Nat
  op : Nat
  partition : Nat
  logits : Nat
  block : Nat
  draft : Option Nat
  deriving DecidableEq, Repr

/-- The instruction a sampler unit serves, with the result it has computed (none: rejected) (R266 to R275). -/
structure SamplerServe where
  item : SamplerItem
  result : Option (Nat × Nat)
  commit : List (Nat × Nat)
  committed : Bool
  deriving DecidableEq, Repr

/-- A sampler unit (R16, R249). -/
structure SamplerUnit where
  queue : List SamplerItem
  serving : Option SamplerServe
  deriving DecidableEq, Repr

/-! ### Network, membership, Noivos -/

/-- A DATA packet of a flow: its PSN once sent, its bytes, and the collective and child whose multicast it carries, with whether it
counts to the child's lag (R324, R325, R371). -/
structure FlowMsg where
  psn : Nat
  /-- 0 for a collective message, 1 for a membership message (R370). -/
  channel : Nat
  bytes : List Byte
  multicast : Option (Nat × Nat × Bool)
  deriving DecidableEq, Repr

/-- A Kolas flow's sender and receiver state (R371, R372). -/
structure Flow where
  key : FlowKey
  nextPsn : Nat
  ackPsn : Nat
  /-- Sent and not acknowledged, at most 512. -/
  unacked : List FlowMsg
  /-- Not yet sent. -/
  waiting : List FlowMsg
  /-- The PSN expected next, and the DATA packets not yet acknowledged. -/
  expect : Nat
  sinceAck : Nat
  /-- A CE-marked DATA packet arrived since the last ACK. -/
  ecn : Bool
  /-- Rate in sixteenths of the port rate. -/
  rate : Nat
  probing : Bool
  down : Bool
  /-- Cycle of the last NAK sent, none yet being none. -/
  lastNak : Option Nat
  /-- Traffic class of the peer's entry (R365). -/
  cls : Nat
  deriving DecidableEq, Repr

/-- A request that a queue pair has sent or is to send (R367): its engine, its PSN once sent, the offset in the endpoint's window,
the length, and the bytes of a WRITE. -/
structure RdmaOut where
  engine : Nat
  psn : Nat
  offset : Nat
  length : Nat
  write : Option (List Byte)
  /-- The endpoint's entry as read when the request was made (R27). -/
  entry : Nat := 0
  deriving DecidableEq, Repr

/-- A queue pair of an endpoint (R367): its next PSN, the retries of the request in flight, its rate in sixteenths, whether it
has failed, the requests not acknowledged, oldest first, and those that wait while 16 READs are outstanding. -/
structure Qp where
  partition : Nat
  entry : Nat
  psn : Nat
  retries : Nat
  rate : Nat
  failed : Bool
  sent : List RdmaOut
  waiting : List RdmaOut
  /-- The PSN of the peer's next request (R367). -/
  expect : Nat := 0
  deriving DecidableEq, Repr

/-- What surrounds a packet that leaves (R358, R359, R365, R369, R370): its engine, the port it leaves by (none where the port of its
flow is down or cannot protect it, and then nothing leaves), the next hop's MAC address, the UDP ports, the traffic class
and the association number of the SA that protects it (none with MACsec mode 0). -/
structure Dress where
  engine : Nat
  port : Option Nat
  nextHop : Nat
  udpSource : Nat
  udpDest : Nat
  cls : Nat
  an : Option Nat
  deriving DecidableEq, Repr

/-- PTP messages that the device sends (R368). -/
inductive PtpKind
  | announce
  | sync
  | followUp
  | delayRequest
  | delayResponse
  deriving DecidableEq, Repr

/-- Something the device has sent, in order. -/
inductive NetOut
  | kolas (dress : Dress) (flow : FlowKey) (type channel psn ack : Nat) (ecn resent : Bool) (payload : List Byte)
  /-- A packet forwarded in a chain or ring (R374): its port, the next hop, the SA that protects it. -/
  | forward (port nextHop : Nat) (an : Option Nat) (packet : Packet)
  /-- Answers for an own address (R359, R413): the port, 32 for the management port, the next hop, and the SA that protects it. -/
  | neighbourAdvert (port nextHop target : Nat) (an : Option Nat)
  | echoReply (port nextHop target dest : Nat) (an : Option Nat)
  /-- Answers to inbound RDMA requests: the peer, its queue pair and the PSN; a NAK of a request out of order, or of its access. -/
  | rdmaData (dress : Dress) (peer qp psn : Nat) (bytes : List Byte)
  | rdmaAck (dress : Dress) (peer qp psn : Nat)
  | rdmaNak (dress : Dress) (peer qp psn : Nat) (order : Bool)
  | cnp (dress : Dress) (peer qp : Nat)
  /-- Requests of a queue pair: its number, the peer's, the PSN; the partition, the endpoint and the offset in its window. -/
  | rdmaWrite (dress : Dress) (qp remote psn partition endpoint offset : Nat) (bytes : List Byte)
  | rdmaRead (dress : Dress) (qp remote psn partition endpoint offset length : Nat)
  /-- Host memory read and written by a stream or a folio move of a partition (R243, R261). -/
  | hostRead (partition address length : Nat)
  | hostWrite (partition address : Nat) (bytes : List Byte)
  | ptp (port domain : Nat) (kind : PtpKind)
  /-- An event record to a subscriber, with its tag (R413, R430). -/
  | rinay (dest port : Nat) (frame : Frame) (tag : Nat)
  /-- A response to a request's source address and port: what surrounds it in the network (none on the management port), and its tag
  on the management port (R373, R413, R414). -/
  | rinayReply (dress : Option Dress) (dest udpPort : Nat) (frame : Frame) (tag : Nat)
  /-- A request forwarded to a cascade member (R420). -/
  | rinayForward (member : Nat) (frame : Frame)
  /-- Setup state and firmware that a cascade's master sends to a member (R380, R486). -/
  | cascadeSetup (member partition table index : Nat) (descriptor : BitVec 512)
  | cascadeCommit (member partition : Nat)
  | cascadeImage (member digest : Nat)
  deriving DecidableEq, Repr

/-- A member of the group (Member record, R444): engine addresses, role (0 worker, 1 spare) and state (0 idle, 1 active,
2 lost), with the epoch of its last heartbeat and its time. -/
structure Member where
  addresses : List Nat
  role : Nat
  state : Nat
  reserved : Nat
  epoch : Nat
  heardAt : Nat
  deriving DecidableEq, Repr

/-- An epoch change the manager runs (R434): the member replaced, the spare, the new epoch and the address pairs, and whether
EPOCH has gone out. It stays until the standby has acknowledged it too. -/
structure EpochChange where
  member : Nat
  spare : Option Nat
  epoch : Nat
  pairs : List (Nat × Nat)
  published : Bool
  deriving DecidableEq, Repr

/-- A checkpoint in progress (R438, R439): the pages whose acknowledgement is due, those of them it has read, the targets (0
local, 1 remote) that failed, the pages of the whole checkpoint and its start time. -/
structure Checkpoint where
  number : Nat
  step : Nat
  copy : Nat
  pages : List Nat
  read : List Nat
  failed : List Nat
  total : Nat
  start : Nat
  deriving DecidableEq, Repr

/-- Noivos of one partition (R437 to R441). Areas are (base, length, target offset). Pages are numbered by address
shifted right by 16; `clean0` and `clean1` list the pages of the areas whose dirty bit d0 or d1 is clear. -/
structure Noivos where
  areas : List (Nat × Nat × Nat)
  clean0 : List Nat
  clean1 : List Nat
  /-- An entry of the area table lay outside the windows at the last start (R437). -/
  areaError : Bool
  /-- The last step closed, while no checkpoint of it has completed (R443). -/
  due : Option Nat
  nextNumber : Nat
  running : Option Checkpoint
  restoring : Option Nat
  deriving DecidableEq, Repr

/-- Noivos with no area and every dirty bit set (R468). -/
def Noivos.none : Noivos :=
  { areas := [], clean0 := [], clean1 := [], areaError := false, due := Option.none, nextNumber := 0, running := Option.none, restoring := Option.none }

/-! ### Events -/

/-- An event record (Table "Event record", R428). -/
structure EventRec where
  timestamp : Nat
  source : Nat
  code : Nat
  cls : Nat
  coalesced : Bool
  synchronised : Bool
  partition : Option Nat
  sequence : Nat
  count : Nat
  detailA : Nat
  detailB : Nat
  lastTimestamp : Nat
  deriving DecidableEq, Repr

/-- A path of events (R430 to R432): its queue, the traces and logs discarded since its last DROP record, the time of the
first such discard, its overflow record and the number of its DROP records. -/
structure EventPath where
  queue : List EventRec
  traces : Nat
  logs : Nat
  firstDrop : Nat
  overflow : Option EventRec
  drops : Nat
  /-- Its overflow records so far, and whether the next free place is the overflow record's: a DROP record was the last (R432). -/
  folds : Nat
  due : Bool
  /-- Frames the path has sent, for their Request ID (R430). -/
  frames : Nat
  deriving DecidableEq, Repr

/-- An empty path. -/
def EventPath.empty : EventPath :=
  { queue := [], traces := 0, logs := 0, firstDrop := 0, overflow := none, drops := 0, folds := 0, due := false, frames := 0 }

/-! ### Dictionary agent -/

/-- A response of the dictionary agent (R411). -/
structure Response where
  dest : Requester
  status : Nat
  index : Nat
  subindex : Nat
  device : Nat
  type : Nat
  offset : Nat
  last : Bool
  payload : List Byte
  sequence : Nat := 0
  deriving DecidableEq, Repr

/-- The dictionary agent (R412, R413, R416, R417). -/
structure Agent where
  /-- UDP frames arrived and not applied, at most 64. -/
  queue : List (Requester × Frame)
  /-- Snapshot of a requester: source, index, subindex and bytes. -/
  snapshots : List (Nat × Nat × Nat × List Byte)
  /-- Staged value of a requester: source, index, subindex and bytes so far. -/
  staged : List (Nat × Nat × Nat × List Byte)
  /-- Highest accepted Sequence of up to 16 source addresses, the last accepted first. -/
  replay : List (Nat × Nat)
  responses : List Response
  /-- Responses given to firmware inside the Rubric die and to the TAP, in order (R415, R493). -/
  given : List Response
  /-- Requests forwarded to cascade members so far, the model's own: the next one's answer is the free value of that number. -/
  forwards : Nat := 0
  deriving DecidableEq, Repr

/-- The agent with nothing waiting. -/
def Agent.idle : Agent := { queue := [], snapshots := [], staged := [], replay := [], responses := [], given := [] }

/-! ### Clocks, power and the whole device -/

/-- The clock sources of an island (R453 to R458): the live source is PLL B, each PLL's lock and ready, the safe state,
whether a lock was lost; it was moved to PLL B for want of PLL A's reference (R458); a switch of its own was refused and
waits (R457). -/
structure Island where
  liveB : Bool
  readyA : Bool
  readyB : Bool
  safe : Bool
  lostA : Bool
  lostB : Bool
  moved : Bool := false
  asks : Bool := false
  deriving DecidableEq, Repr

/-- An island on PLL A with both sources ready (R463 step 4, R454). -/
def Island.onA : Island :=
  { liveB := false, readyA := true, readyB := true, safe := false, lostA := false, lostB := false }

/-- Where the device stands between resets (R459, R463, R464). -/
inductive DevPhase
  | off
  | bootWait
  | bootLoading
  | warmHeld
  | running
  deriving DecidableEq, Repr

/-- The output pins the device drives (R362, R450, R499). -/
structure Pins where
  thermtripN : Bool
  mgPhyRstN : Bool
  laserEnA : Bool
  laserEnB : Bool
  /-- The two wires of the laser module's management bus, high while idle. -/
  laserScl : Bool
  laserSda : Bool
  deriving DecidableEq, Repr

/-- Inputs whose level the device remembers (R362, R499, R500). -/
structure InPins where
  rstN : Bool
  perstN : Bool
  laserPresent : Bool
  /-- LASER_FLT_N is high. -/
  laserFltN : Bool
  ppsSeen : Bool
  /-- The PCIe link is trained (R393, R500). -/
  linkUp : Bool
  /-- EWS_N is high (R443). -/
  ewsHigh : Bool
  deriving DecidableEq, Repr

/-- A retired LPDDR5X channel or one to be retired: slice, channel, retirement number (R210; 0 while the retirement is pending,
R211), dead or predictive. -/
structure Retirement where
  slice : Nat
  channel : Nat
  number : Nat
  dead : Bool
  deriving DecidableEq, Repr

/-- A MACsec security association (R481): the channel (partition, 16 for the operator), port, association number,
direction, SSCI, salt and SAK, and the lowest packet number it still accepts (replay protection, R364). -/
structure Sa where
  channel : Nat
  port : Nat
  an : Nat
  dir : Nat
  ssci : Nat
  salt : Nat
  sak : Nat
  lowest : Nat
  deriving DecidableEq, Repr

/-- A range of LPDDR5X that was filled with zeros under a key: its addresses, the channel of a slice that the fill was for (none: every
one), and the key's number (R212, R475). -/
structure Fill where
  base : Nat
  length : Nat
  channel : Option Nat
  key : Nat
  deriving DecidableEq, Repr

/-- The device but for its memory contents and its security block. -/
structure Fab where
  /-- Where the device stands between resets (R459, R463, R464). -/
  phase : DevPhase
  /-- Arithmetic cycles since reset (R8); the model's clock. -/
  cycle : Nat
  /-- Global timestamp in ns at cycle 0 (R426). -/
  timeBase : Nat
  /-- Dictionary entries written since they last had their default; the key is 256 index + subindex (R403). -/
  dict : Tbl Nat
  /-- Scale tags of Well rows: key 16384 cluster + row (R78, R190). -/
  tags : Tbl W32
  /-- Key number each written LPDDR5X line was encrypted under: key address shifted right by 6 (R202, R204). -/
  lineKey : Tbl Nat
  /-- Fills of LPDDR5X that hold where `lineKey` names no key, the newest first (R202, R212, R475). -/
  fills : List Fill
  /-- Inkwell and LPDDR5X lines whose code is uncorrectable: address shifted right by 6 (R205 to R208). -/
  badLines : List Nat
  /-- Inkwell and LPDDR5X lines that hold an error the code will correct at the next read (R196, R205). -/
  softLines : List Nat
  /-- Words of the Wells that hold an error, true for an uncorrectable one: key address shifted right by 3; row tags at key
  2 to the 60 plus the key of `tags` (R193). -/
  wellFaults : Tbl Bool
  /-- The 800 clusters by global number (R17). -/
  clusters : Tbl Cluster
  /-- Region counters: key 16 region + k; regions 0 to 95 Broad, 96 to 111 Fine pairs (R116). -/
  regionCtr : Tbl W32
  /-- Package counters: key 64 partition + k (R116). -/
  packageCtr : Tbl W32
  /-- Package transactions in flight, in the order of their injection (R33, R189). -/
  txns : List Txn
  /-- Accesses of LD and ST that wait for injection, in the order of their issue (R192, R235). -/
  waiting : List Waiting
  /-- LPDDR5X channels by global number (R231 to R236). -/
  chans : Tbl Chan
  /-- Number of the next transaction (Sequence, R33). -/
  nextTxn : Nat
  /-- Setup scope of each partition (R26). -/
  scopes : Tbl Scope
  /-- Values of the RWS entries in force since the last start of their partition; the key is that of `dict` (R406, R473). -/
  inForce : Tbl Nat
  /-- The package route scope: base links usable in the live routes, its bank bit, and whether a drain runs (R26, R32). -/
  routes : Nat
  /-- Bank bit of the package route scope (R26, R27). -/
  routeBank : Bool
  /-- The old route bank is still held, with its routes and the end of its drain (R28, R29). -/
  routeDraining : Bool
  /-- Base links usable in the old bank. -/
  oldRoutes : Nat
  /-- Cycle at which the drain limit of the route drain expires. -/
  routeDrainEnds : Nat
  /-- Launches from arrival to completion, in arrival order (R129). -/
  launches : List Launch
  /-- Launch identifiers given out since the partition reset (R106). -/
  nextLaunch : Tbl Nat
  /-- The virtual functions, VF p + 1 at key p (R384, R387). -/
  vfs : Tbl Vf
  /-- Mailboxes: key 64 partition + m (R397). -/
  mailboxes : Tbl Mailbox
  /-- Admitted batches (R258, R350). -/
  batches : List Batch
  /-- Highest version opened since the last reset of a partition (R347). -/
  versionTop : Tbl Nat
  /-- Version records: key 8 partition + r (R345). -/
  versions : Tbl VersionRec
  /-- The Ductus of each base die (R332). -/
  ductus : Tbl Ductus
  /-- The open learning step of a partition (R277); no entry while none is open. -/
  steps : Tbl StepRec
  /-- Blotter slots: key 256 b + slot (R308). -/
  slots : Tbl Slot
  /-- Collectives in flight on this member (R307). -/
  colls : List Coll
  /-- Number of the next collective on this member (R310). -/
  nextColl : Nat
  /-- Launches of each live tree: key 256 partition + tree (R310). -/
  treeSeq : Tbl Nat
  /-- Messages to be repeated after NOT_READY (R311). -/
  repeats : List Repeat
  /-- Number of the next such message. -/
  nextRepeat : Nat
  /-- Sampler unit of each base die (R16, R249). -/
  samplers : Tbl SamplerUnit
  /-- Kolas flows (R358, R371). -/
  flows : List Flow
  /-- RoCEv2 queue pairs (R367). -/
  qps : List Qp
  /-- Packets and frames sent, in order (R359, R366, R370, R433). -/
  netOut : List NetOut
  /-- MACsec security associations, in the order of their installation (R369, R481). -/
  sas : List Sa
  /-- Packets dropped for a bad header or a foreign group (R370). -/
  badPackets : Nat
  /-- Collective messages dropped for a reserved type, format or field (R327). -/
  badMessages : Nat
  /-- Blocks of UP messages discarded because their attempt is over (R317). -/
  lateBlocks : Nat
  /-- Consecutive bad error windows of a lane (R360). -/
  laneBad : Tbl Nat
  /-- Lanes of a port in use, as a bit map of its engine's lanes (R356, R361). -/
  portLanes : Tbl Nat
  /-- Laser banks that have failed at an engine: bit 0 A, bit 1 B (R363). -/
  laserBad : Tbl Nat
  /-- Cycles of a base link's CRC replays within the last 1 ms (R425). -/
  linkReplays : Tbl (List Nat)
  /-- The membership table by member index (R377, R433). -/
  members : Tbl Member
  /-- The epoch changes the standby has not acknowledged, the last of them the only one that may run (R434). -/
  epochChanges : List EpochChange
  /-- The EPOCH whose commits have not all been made: its epoch, its member and who sent it (R29, R435). -/
  epochDue : Option (Nat × Nat × Nat)
  /-- Losses the manager has still to handle (R434). -/
  lossQueue : List Nat
  /-- Sequence of the membership messages this device sends (Table "Membership message", R433). -/
  memberSeq : Nat
  /-- Membership messages given to their flows, in order: destination, type and message (R370, R433). -/
  memberOut : List (Nat × Nat × MemberMsg)
  /-- Owners of the granules of a cascade's members, as the master has written them: key 64 member + granule + 1 (R380, R381). -/
  memberOwners : Tbl Nat
  /-- Noivos of each partition (R437, R438). -/
  noivos : Tbl Noivos
  /-- Per-source event sequence, modulo 256 (R427). -/
  sourceSeq : Tbl Nat
  /-- The event log (R430). -/
  log : EventPath
  /-- Queues of the operator subscribers 0 to 7 (R430). -/
  subscribers : Tbl EventPath
  /-- Queues of the tenant paths 0 to 15 (R430). -/
  tenantPaths : Tbl EventPath
  /-- The dictionary agent (R412, R417). -/
  agent : Agent
  /-- The last ten power samples in mW, newest first (R447). -/
  powerWindow : List Nat
  /-- Sprint budget in nJ, the milliwatts of a sample over 1 µs (R447). -/
  budget : Nat
  /-- Thermal ceiling in W (R450). -/
  thermalCeiling : Nat
  /-- The thermal clamp is in force (R450). -/
  clamped : Bool
  /-- Sprint is blocked by temperature (R450). -/
  sprintHot : Bool
  /-- The junction limit holds D at 0 (R450). -/
  junctionStop : Bool
  /-- Clock islands by number (R453). -/
  islands : Tbl Island
  /-- Output pins (R362, R499). -/
  pins : Pins
  /-- Remembered input levels (R499, R500). -/
  inPins : InPins
  /-- Retired channels, oldest first (R209, R210). -/
  retirements : List Retirement
  /-- Successive access timeouts and training failures of a channel (R209). -/
  chanTimeouts : Tbl Nat
  /-- Failed retrainings of a channel (R209). -/
  chanTraining : Tbl Nat
  /-- Hourly correctable counts of a channel (R209). -/
  chanHour : Tbl Nat
  /-- Units being cleared for a partition, with the numbers of the Inkwell units, slots or granules concerned (R475). -/
  clearing : Tbl (List (ClearUnit × List Nat))
  /-- The cycle at which a management processor that restarts runs again (R425). -/
  restarts : Tbl Nat
  /-- Partitions whose reset waits for new homes to be filled (R212). -/
  resetWaits : List Nat
  /-- EWS sequence: the outcome of its flush and the step of the checkpoint it waits for (R443). -/
  ewsOutcome : Nat × Nat
  /-- The grace of an EWS_N sequence has ended (R443). -/
  ewsGraced : Bool
  /-- MSI-X vectors raised: function and vector, in order (R392, R399). -/
  interrupts : List (Nat × Nat)
  deriving DecidableEq, Repr

/-! ### Security block -/

/-- The fuse array's fields (Table "Fuse map", R491). Thermometer fields hold their number of blown bits. -/
structure Fuses where
  wear : Nat
  serial : Nat
  mac : Nat
  manufacturingLock : Bool
  debugDisable : Bool
  versionMin : Nat
  revoked : BitVec 4
  keyHashes : Tbl Nat
  deviceSecret : Nat
  deriving DecidableEq, Repr

/-- A partition's program log (R488). -/
structure ProgLog where
  digests : List Nat
  loadCount : Nat
  chain : Nat
  deriving DecidableEq, Repr

/-- An attestation request being signed (R489): nonce and report address. -/
structure Attest where
  nonce : Nat
  address : Nat
  deriving DecidableEq, Repr

/-- The security block and boot state (R470 to R494). -/
structure Sec where
  fuses : Fuses
  /-- XTS key number of a partition (0 none); a new key pair takes the next number (R480). -/
  keys : Tbl Nat
  nextKey : Nat
  managementKey : Option Nat
  bootStatus : Nat
  bootAddress : Nat
  bootLength : Nat
  /-- Build identifier and security version of the running image (its digest is 0xA000:02). -/
  build : Nat
  logs : Tbl ProgLog
  attest : Tbl Attest
  /-- Reports written: requester subindex and the report's bytes as a number (R490). -/
  reports : List (Nat × Nat × List Nat)
  /-- The JTAG TAP's reset state (R493, R499). -/
  tapReset : Bool
  deriving DecidableEq, Repr

/-- The state of the package (R14 to R19). -/
structure State where
  /-- The commands that are waiting, first in first out. -/
  pending : List Instr
  /-- Package memory: strictly rising addresses, no byte equal to `Memory.unlisted` (R187). -/
  mem : List Host.Cell
  fab : Fab
  sec : Sec
  deriving DecidableEq, Repr

/-- The device but for memory and security at the end of a cold reset: nothing assigned, every entry at its default but
Reference state (0x2110:01), which shows the two references and the backup oscillator running (R446, R463), and the width and
rate that the host link trains to (R384).
DESIGN CHOICE (logs 3, 5, 19). -/
def Fab.reset : Fab :=
  { phase := .running, cycle := 0, timeBase := 0, dict := [(0x211001, 0xB), (0xC00101, 8), (0xC00102, 64)], tags := [], lineKey := [], fills := [], badLines := [], softLines := [], wellFaults := [],
    clusters := [], regionCtr := [], packageCtr := [], txns := [], waiting := [], chans := [], nextTxn := 0, scopes := [], inForce := [],
    routes := 0x3FF, routeBank := false, routeDraining := false, oldRoutes := 0x3FF,
    routeDrainEnds := 0, launches := [], nextLaunch := [], vfs := [],
    mailboxes := [], batches := [], versionTop := [], versions := [], ductus := [], steps := [], slots := [],
    colls := [], nextColl := 0, treeSeq := [], repeats := [], nextRepeat := 0, samplers := [], flows := [], qps := [],
    netOut := [], sas := [], badPackets := 0, badMessages := 0, lateBlocks := 0, laneBad := [], portLanes := [], laserBad := [], linkReplays := [],
    members := [], epochChanges := [], epochDue := none, lossQueue := [], memberSeq := 0, memberOut := [], memberOwners := [],
    noivos := [], sourceSeq := [], log := .empty, subscribers := [], tenantPaths := [], agent := .idle,
    powerWindow := [], budget := 30000000000, thermalCeiling := 3600, clamped := false, sprintHot := false,
    junctionStop := false, islands := [], pins := ⟨true, true, false, false, true, true⟩,
    inPins := ⟨true, true, false, true, false, true, true⟩,
    retirements := [], chanTimeouts := [], chanTraining := [], chanHour := [], clearing := [], restarts := [], resetWaits := [],
    ewsOutcome := (0, 0), ewsGraced := false, interrupts := [] }

/-- The fuses of a shipped part that has blown none of its fields; manufacture's values are the model's choice.
DESIGN CHOICE (log 5). -/
def Fuses.shipped : Fuses :=
  { wear := 0, serial := 0, mac := 0, manufacturingLock := true, debugDisable := false, versionMin := 0, revoked := 0,
    keyHashes := [], deviceSecret := 0 }

/-- The security block with the firmware running and nothing installed. DESIGN CHOICE (logs 3, 5). -/
def Sec.reset : Sec :=
  { fuses := .shipped, keys := [], nextKey := 1, managementKey := none, bootStatus := 2, bootAddress := 0,
    bootLength := 0, build := 0, logs := [], attest := [], reports := [], tapReset := true }

/-- The machine right after a cold reset has run through (R463 step 6): power state P0, Last reset cause 0, every
partition unassigned (R476), no memory byte listed. DESIGN CHOICE (log 3). -/
def State.reset : State := { pending := [], mem := [], fab := .reset, sec := .reset }

end Sys2Proof.Machine
end

