-- ==== Sys2Proof/Machine/Flags.lean ====
section
/-! DEFINITION. Numbers: the element formats (R72 to R78), one rounding (R80), conversions and their flags (R82 to R87),
MX quantisation (R86), the exact sum of a nib (R79 to R81), the FP32 functions (R144, R174, R175). -/

namespace Sys2Proof.Machine

open Sys2Proof

/-- The format flags one operation raises: NV, OF, SO (R87). -/
structure Raise where
  nv : Bool
  ovf : Bool
  so : Bool
  deriving DecidableEq, Repr

/-- No flag. -/
def Raise.none : Raise := ⟨false, false, false⟩

/-- The flag NV alone. -/
def Raise.invalid : Raise := ⟨true, false, false⟩

/-- The flags of two raises together. -/
def Raise.or (a b : Raise) : Raise := ⟨a.nv || b.nv, a.ovf || b.ovf, a.so || b.so⟩

/-- The flags as bits [2:0] of FLAGS (Table "System registers"). -/
def Raise.bits (r : Raise) : W32 :=
  (if r.nv then 1 else 0) ||| (if r.ovf then 2 else 0) ||| (if r.so then 4 else 0)

/-- A number as every engine reads it: NaN, an infinity with its sign (true is minus), or `mag * 2 ^ exp` with its
sign. -/
inductive Num
  | nan
  | inf (neg : Bool)
  | fin (neg : Bool) (mag : Nat) (exp : Int)
  deriving DecidableEq, Repr

/-- Positive zero. -/
def Num.zero : Num := .fin false 0 0

/-- How a floating-point element format encodes its largest exponent field (Table "Floating-point element formats"). -/
inductive Specials
  | ieee
  | e4m3
  | never
  deriving DecidableEq, Repr

/-- A floating-point element format: exponent bits, mantissa bits, bias, special encodings (R72). -/
structure Elem where
  eb : Nat
  mb : Nat
  bias : Nat
  sp : Specials
  deriving DecidableEq, Repr

/-- FP32 (R72). -/
def Elem.fp32 : Elem := ⟨8, 23, 127, .ieee⟩


/-- The element format of a format code; INT8 has none (R72, R76). -/
def fmtElem : Fmt → Option Elem
  | .fp32 => some .fp32
  | .bf16 => some ⟨8, 7, 127, .ieee⟩
  | .fp16 => some ⟨5, 10, 15, .ieee⟩
  | .e4m3 | .mxE4m3 => some ⟨4, 3, 7, .e4m3⟩
  | .e5m2 | .mxE5m2 => some ⟨5, 2, 15, .ieee⟩
  | .int8 => none
  | .mxE3m2 => some ⟨3, 2, 3, .never⟩
  | .mxE2m3 => some ⟨2, 3, 1, .never⟩
  | .mxE2m1 => some ⟨2, 1, 1, .never⟩

/-- The formats with a shared block scale (R76). -/
def fmtMx : Fmt → Bool
  | .mxE4m3 | .mxE5m2 | .mxE3m2 | .mxE2m3 | .mxE2m1 => true
  | _ => false

/-- Code of a format (Table "Format codes", R139). -/
def fmtCode : Fmt → Nat
  | .fp32 => 0x00
  | .bf16 => 0x01
  | .fp16 => 0x02
  | .e4m3 => 0x03
  | .e5m2 => 0x04
  | .int8 => 0x05
  | .mxE4m3 => 0x08
  | .mxE5m2 => 0x09
  | .mxE3m2 => 0x0A
  | .mxE2m3 => 0x0B
  | .mxE2m1 => 0x0C

/-- The format of a code; none for a reserved one (R139). -/
def fmtOfCode : Nat → Option Fmt
  | 0x00 => some .fp32
  | 0x01 => some .bf16
  | 0x02 => some .fp16
  | 0x03 => some .e4m3
  | 0x04 => some .e5m2
  | 0x05 => some .int8
  | 0x08 => some .mxE4m3
  | 0x09 => some .mxE5m2
  | 0x0A => some .mxE3m2
  | 0x0B => some .mxE2m3
  | 0x0C => some .mxE2m1
  | _ => none

/-- Bits of one element as it lies in the Well (Tables "Element packing" and "Well element sizes"). -/
def fmtBits : Fmt → Nat
  | .fp32 => 32
  | .bf16 | .fp16 => 16
  | .mxE2m1 => 4
  | _ => 8

/-- The value an element encodes (R72, R73). -/
def Elem.decode (f : Elem) (bits : Nat) : Num :=
  let m := bits % 2 ^ f.mb
  let e := bits / 2 ^ f.mb % 2 ^ f.eb
  let neg := bits / 2 ^ (f.mb + f.eb) % 2 = 1
  if f.sp = .ieee ∧ e = 2 ^ f.eb - 1 then (if m = 0 then .inf neg else .nan)
  else if f.sp = .e4m3 ∧ e = 15 ∧ m = 7 then .nan
  else if e = 0 then .fin neg m (1 - (f.bias : Int) - f.mb)
  else .fin neg (2 ^ f.mb + m) ((e : Int) - f.bias - f.mb)

/-- The 8-bit two's complement integer a byte encodes (R74). -/
def int8Num (bits : Nat) : Num :=
  if bits % 256 < 128 then .fin false (bits % 256) 0 else .fin true (256 - bits % 256) 0

/-- The value of one element of a format, without any block scale. -/
def decodeElem (f : Fmt) (bits : Nat) : Num :=
  match fmtElem f with
  | some e => e.decode bits
  | none => int8Num bits

/-- `mag / 2 ^ sh` rounded to the nearest integer, ties to even. -/
def rneShift (mag sh : Nat) : Nat :=
  let q := mag >>> sh
  let r := mag - (q <<< sh)
  let half := 2 ^ sh / 2
  if sh = 0 then mag else if r > half ∨ (r = half ∧ q % 2 = 1) then q + 1 else q

/-- `mag * 2 ^ exp` rounded to nearest even at `mb + 1` significant bits over an unbounded exponent range above and with
no unit below `2 ^ emin`: the significand and the exponent of its unit (R80, R84). -/
def roundSig (mb : Nat) (emin : Int) (mag : Nat) (exp : Int) : Nat × Int :=
  if mag = 0 then (0, emin) else
  let q := max (exp + (Nat.log2 mag : Int) - mb) emin
  let m := if q ≤ exp then mag <<< (exp - q).toNat else rneShift mag (q - exp).toNat
  if m = 2 ^ (mb + 1) then (2 ^ mb, q + 1) else (m, q)

/-- The largest exponent field and mantissa that encode a finite value (R72). -/
def Elem.maxFinite (f : Elem) : Nat × Nat :=
  match f.sp with
  | .ieee => (2 ^ f.eb - 2, 2 ^ f.mb - 1)
  | .e4m3 => (15, 6)
  | .never => (2 ^ f.eb - 1, 2 ^ f.mb - 1)

/-- Exponent field and mantissa of a rounded value, or none when it lies above the largest finite value. -/
def Elem.fields (f : Elem) (mag : Nat) (exp : Int) : Option (Nat × Nat) :=
  let emin := 1 - (f.bias : Int) - f.mb
  let (m, q) := roundSig f.mb emin mag exp
  let em := if m < 2 ^ f.mb then (0, m) else ((q + f.mb + f.bias).toNat, m - 2 ^ f.mb)
  if em.1 > f.maxFinite.1 ∨ (em.1 = f.maxFinite.1 ∧ em.2 > f.maxFinite.2) then none else some em

/-- The bits of a sign, an exponent field and a mantissa. -/
def Elem.pack (f : Elem) (neg : Bool) (em : Nat × Nat) : Nat :=
  (if neg then 2 ^ (f.eb + f.mb) else 0) + em.1 * 2 ^ f.mb + em.2

/-- The canonical NaN of a format (R75). -/
def canonicalNaN : Fmt → Nat
  | .fp32 => 0x7FC00000
  | .bf16 => 0x7FC0
  | .fp16 => 0x7E00
  | .e5m2 | .mxE5m2 => 0x7E
  | .e4m3 | .mxE4m3 => 0x7F
  | _ => 0

/-- An integer nearest to `mag * 2 ^ exp`, ties to even. -/
def roundInt (neg : Bool) (mag : Nat) (exp : Int) : Int :=
  let m := if 0 ≤ exp then mag <<< exp.toNat else rneShift mag (-exp).toNat
  if neg then -(m : Int) else m

/-- Rounding to a format that overflows to infinity: FP32, BF16 and FP16 (R80, R82, R83). -/
def toWide (f : Elem) (nanBits : Nat) : Num → Nat × Raise
  | .nan => (nanBits, .invalid)
  | .inf neg => (f.pack neg (2 ^ f.eb - 1, 0), .none)
  | .fin neg mag exp =>
    match f.fields mag exp with
    | some em => (f.pack neg em, .none)
    | none => (f.pack neg (2 ^ f.eb - 1, 0), ⟨false, true, false⟩)

/-- Rounding to an FP8, FP6 or FP4 element that saturates (R84). -/
def toNarrow (f : Elem) (nanBits : Nat) : Num → Nat × Raise
  | .nan => (nanBits, .invalid)
  | .inf neg => if f.sp = .ieee then (f.pack neg (2 ^ f.eb - 1, 0), .none) else (nanBits, .invalid)
  | .fin neg mag exp =>
    match f.fields mag exp with
    | some em => (f.pack neg em, .none)
    | none => (f.pack neg f.maxFinite, ⟨false, false, true⟩)

/-- Conversion to INT8 (R85). -/
def toInt8 : Num → Nat × Raise
  | .nan => (0, .invalid)
  | .inf neg => (if neg then 0x80 else 0x7F, ⟨false, false, true⟩)
  | .fin neg mag exp =>
    let q := roundInt neg mag exp
    if q < -128 then (0x80, ⟨false, false, true⟩)
    else if q > 127 then (0x7F, ⟨false, false, true⟩)
    else ((q % 256).toNat, .none)

/-- Conversion of one value to one element of a format; for an MX format, of the value already divided by its block
scale (R82 to R86). -/
def convertElem (f : Fmt) (n : Num) : Nat × Raise :=
  match f with
  | .int8 => toInt8 n
  | .fp32 | .bf16 | .fp16 =>
    match fmtElem f with
    | some e => toWide e (canonicalNaN f) n
    | none => (0, .none)
  | _ =>
    match fmtElem f with
    | some e => toNarrow e (canonicalNaN f) n
    | none => (0, .none)

/-- FP32 bits of a number, with the flags of R80 and R82. -/
def toFp32 (n : Num) : W32 × Raise :=
  let r := toWide .fp32 0x7FC00000 n
  (BitVec.ofNat 32 r.1, r.2)

/-- The number an FP32 pattern encodes. -/
def fp32 (w : W32) : Num := Elem.fp32.decode w.toNat

/-- A number times `2 ^ k`, exactly. -/
def Num.scale (n : Num) (k : Int) : Num :=
  match n with
  | .fin neg mag exp => .fin neg mag (exp + k)
  | n => n

/-- The value of an element with its block scale byte T (R76); formats without scales ignore T (R78). -/
def scaledElem (f : Fmt) (bits t : Nat) : Num :=
  if fmtMx f then (if t = 0xFF then .nan else (decodeElem f bits).scale ((t : Int) - 127)) else decodeElem f bits

/-- Widening of an element with its scale to FP32, exact but for the overflow of R82. -/
def widen (f : Fmt) (bits t : Nat) : W32 × Raise := toFp32 (scaledElem f bits t)

/-- e_F: the largest-normal exponent of a format (R86, R292). -/
def fmtEMax : Fmt → Int
  | .e4m3 | .mxE4m3 => 8
  | .e5m2 | .mxE5m2 => 15
  | .mxE3m2 => 4
  | .mxE2m3 | .mxE2m1 => 2
  | .int8 => 6
  | .fp16 => 15
  | _ => 127

/-- The exponent of the power of two at or below a magnitude; none for zero. -/
def floorLog2 : Num → Option Int
  | .fin _ mag exp => if mag = 0 then none else some (exp + Nat.log2 mag)
  | _ => none

/-- MX quantisation of one block (R86): scale byte, element codes, flags. -/
def mxQuantise (f : Fmt) (v : List Num) : Nat × List Nat × Raise :=
  let special := v.any (fun n => match n with | .fin _ _ _ => false | _ => true)
  if special then (0xFF, v.map (fun _ => 0), .invalid) else
  match (v.filterMap floorLog2).max? with
  | none => (0, v.map (fun n => (convertElem f n).1), .none)
  | some l =>
    let x := min (max (l - fmtEMax f) (-127)) 127
    let r := v.map (fun n => convertElem f (n.scale (-x)))
    ((x + 127).toNat, r.map (·.1), r.foldl (fun a c => a.or c.2) .none)

/-! ### The exact sum (R42, R79 to R81) -/

/-- A finite number in units of `2 ^ -300`; every term of R79 is a whole number of them. -/
def fix300 : Num → Int
  | .fin neg mag exp =>
    let m : Nat := if 0 ≤ exp + 300 then mag <<< (exp + 300).toNat else mag >>> (-(exp + 300)).toNat
    if neg then -(m : Int) else m
  | _ => 0

/-- A sum in units of `2 ^ -300` as a number; an exact zero is +0 (R80). -/
def ofFix300 (s : Int) : Num := .fin (s < 0) s.natAbs (-300)

/-- A number is NaN, infinite, zero. -/
def Num.isNaN : Num → Bool
  | .nan => true
  | _ => false

/-- Infinite. -/
def Num.isInf : Num → Bool
  | .inf _ => true
  | _ => false

/-- Zero of either sign. -/
def Num.isZero : Num → Bool
  | .fin _ m _ => m = 0
  | _ => false

/-- The sign bit; NaN counts as positive. -/
def Num.neg : Num → Bool
  | .nan => false
  | .inf n => n
  | .fin n _ _ => n

/-- The product of two numbers, exactly; infinity times zero is NaN. -/
def Num.mul : Num → Num → Num
  | .nan, _ => .nan
  | _, .nan => .nan
  | .inf a, b => if b.isZero then .nan else .inf (a != b.neg)
  | a, .inf b => if a.isZero then .nan else .inf (a.neg != b)
  | .fin a m e, .fin b n g => .fin (a != b) (m * n) (e + g)

/-- An exact sum of terms under Table "Special operands in the nib" (R81), rounded once to FP32 (R80). -/
def exactSum (terms : List Num) : W32 × Raise :=
  if terms.any Num.isNaN then (0x7FC00000, .invalid)
  else if terms.any (· = .inf true) ∧ terms.any (· = .inf false) then (0x7FC00000, .invalid)
  else if terms.any (· = .inf true) then (0xFF800000, .none)
  else if terms.any (· = .inf false) then (0x7F800000, .none)
  else toFp32 (ofFix300 ((terms.map fix300).foldl (· + ·) 0))

/-- One accumulator entry of a tile multiply run (R42, R149): the elements of the row and of the column, the scale
operand e and the prior value (none in overwrite mode). -/
def nibRun (a w : List Num) (e : Int) (prior : Option W32) : W32 × Raise :=
  exactSum ((match prior with | some p => [fp32 p] | none => []) ++
    (List.zipWith (fun x y => (x.mul y).scale e) a w))

/-! ### FP32 functions -/

/-- Two finite magnitudes as signed integers in units of one common power of two. -/
def alignFin (na : Bool) (ma : Nat) (ea : Int) (nb : Bool) (mb : Nat) (eb : Int) : Int × Int × Int :=
  let e := min ea eb
  let x : Int := (ma <<< (ea - e).toNat : Nat)
  let y : Int := (mb <<< (eb - e).toNat : Nat)
  (if na then -x else x, if nb then -y else y, e)

/-- The exact sum of two numbers with the IEEE 754 sign of zero (R174); unlike infinities give NaN. -/
def Num.add : Num → Num → Num
  | .nan, _ => .nan
  | _, .nan => .nan
  | .inf a, .inf b => if a = b then .inf a else .nan
  | .inf a, _ => .inf a
  | _, .inf b => .inf b
  | .fin a m e, .fin b n g =>
    let r := alignFin a m e b n g
    let s := r.1 + r.2.1
    .fin (if s = 0 then (a && b) else s < 0) s.natAbs r.2.2

/-- The number with its sign changed. -/
def Num.negate : Num → Num
  | .nan => .nan
  | .inf a => .inf (!a)
  | .fin a m e => .fin (!a) m e

/-- Order of two numbers that are not NaN, with -0 below +0 (R144, R173, R176): true when the first is below. -/
def Num.below : Num → Num → Bool
  | .inf a, .inf b => a && !b
  | .inf a, _ => a
  | _, .inf b => !b
  | .fin a m e, .fin b n g =>
    let r := alignFin a m e b n g
    if r.1 = r.2.1 then (a && !b) else r.1 < r.2.1
  | _, _ => false

/-- Numeric order where -0 equals +0; false with NaN. -/
def Num.lt : Num → Num → Bool
  | .nan, _ => false
  | _, .nan => false
  | .inf a, .inf b => a && !b
  | .inf a, _ => a
  | _, .inf b => !b
  | .fin a m e, .fin b n g => let r := alignFin a m e b n g; r.1 < r.2.1

/-- Numeric equality where -0 equals +0; false with NaN. -/
def Num.eqv (a b : Num) : Bool := !a.isNaN && !b.isNaN && !a.lt b && !b.lt a

/-- An FP32 result of an exact operation on FP32 operands: NV for a NaN result (R144, R174). -/
def fpAdd (a b : W32) : W32 × Raise := toFp32 ((fp32 a).add (fp32 b))

/-- a - b (R144, R173). -/
def fpSub (a b : W32) : W32 × Raise := toFp32 ((fp32 a).add (fp32 b).negate)

/-- a × b (R144, R173). -/
def fpMul (a b : W32) : W32 × Raise := toFp32 ((fp32 a).mul (fp32 b))

/-- a × b + c with one rounding (R173, R174). -/
def fpFma (a b c : W32) : W32 × Raise := toFp32 (((fp32 a).mul (fp32 b)).add (fp32 c))

/-- The smaller operand, with -0 < +0; a NaN operand gives the canonical NaN and NV (R144, R173). -/
def fpMin (a b : W32) : W32 × Raise :=
  if (fp32 a).isNaN || (fp32 b).isNaN then (0x7FC00000, .invalid)
  else if (fp32 b).below (fp32 a) then (b, .none) else (a, .none)

/-- The larger operand, as `fpMin`. -/
def fpMax (a b : W32) : W32 × Raise :=
  if (fp32 a).isNaN || (fp32 b).isNaN then (0x7FC00000, .invalid)
  else if (fp32 a).below (fp32 b) then (b, .none) else (a, .none)

/-- fcvti (R144): FP32 to a signed 64-bit integer. -/
def fpToInt (a : W32) : Word × Raise :=
  match fp32 a with
  | .nan => (0, .invalid)
  | .inf neg => (if neg then 0x8000000000000000 else 0x7FFFFFFFFFFFFFFF, ⟨false, false, true⟩)
  | .fin neg mag exp =>
    let q := roundInt neg mag exp
    if q < -(2 ^ 63) then (0x8000000000000000, ⟨false, false, true⟩)
    else if q > 2 ^ 63 - 1 then (0x7FFFFFFFFFFFFFFF, ⟨false, false, true⟩)
    else (BitVec.ofInt 64 q, .none)

/-- icvtf (R144): a signed 64-bit integer to FP32. -/
def intToFp (a : Word) : W32 := (toFp32 (.fin (a.toInt < 0) a.toInt.natAbs 0)).1

/-- The FP32 value nearest `n / d * 2 ^ exp`, ties to even (d > 0). -/
def quotNum (neg : Bool) (n d : Nat) (exp : Int) : Num :=
  let k := Nat.log2 d + 64
  let q := (n <<< k) / d
  .fin neg (2 * q + (if (n <<< k) % d = 0 then 0 else 1)) (exp - k - 1)

/-- a / b of two FP32 numbers with b finite and non-zero, rounded to nearest even (R268). -/
def fpDiv (a b : W32) : W32 × Raise :=
  match fp32 a, fp32 b with
  | .nan, _ => (0x7FC00000, .invalid)
  | .inf x, .fin y _ _ => toFp32 (.inf (x != y))
  | .fin x m e, .fin y n g => if n = 0 then (0x7FC00000, .invalid) else toFp32 (quotNum (x != y) m n (e - g))
  | _, _ => (0x7FC00000, .invalid)

/-! ### Correctly rounded transcendental functions (R175)

Each function is enclosed between two numbers with 512 fractional bits; where both ends round to one FP32 value, that is
the correctly rounded result. -/

/-- Fractional bits of an enclosure. -/
def encBits : Nat := 512

/-- An enclosure of a positive real, both ends in units of `2 ^ -512`. -/
structure Enc where
  lo : Nat
  hi : Nat
  deriving DecidableEq, Repr

/-- The product of two enclosures. -/
def Enc.mul (a b : Enc) : Enc := ⟨(a.lo * b.lo) >>> encBits, ((a.hi * b.hi) >>> encBits) + 1⟩

/-- The quotient of two enclosures, the divisor's lower end not zero. -/
def Enc.div (a b : Enc) : Enc := ⟨(a.lo <<< encBits) / b.hi, (a.hi <<< encBits) / b.lo + 1⟩

/-- One in units of an enclosure. DESIGN CHOICE (log 8). -/
def encOne : Nat := 1 <<< encBits

/-- Terms `n` onwards of the series of e^r, given term `t`. -/
def expTerms (r : Nat) : Nat → Nat → Enc → Enc
  | 0, _, t => ⟨0, 2 * t.hi + 1⟩
  | f + 1, n, t =>
    let t' : Enc := ⟨((t.lo * r) >>> encBits) / (n + 1), (((t.hi * r) >>> encBits) + 1) / (n + 1) + 1⟩
    let rest := expTerms r f (n + 1) t'
    ⟨t.lo + rest.lo, t.hi + rest.hi⟩

/-- The square of an enclosure taken `k` times. -/
def Enc.squares : Nat → Enc → Enc
  | 0, a => a
  | k + 1, a => Enc.squares k (a.mul a)

/-- e^x for `x = mag * 2 ^ exp` below 256, with exp at least -200. DESIGN CHOICE (log 8). -/
def encExp (mag : Nat) (exp : Int) : Enc :=
  let r := mag <<< (exp + (encBits : Int) - 18).toNat
  Enc.squares 18 (expTerms r 48 0 ⟨encOne, encOne⟩)

/-- Terms of artanh z from `z ^ (2 i + 1)` on. -/
def artanhTerms (z2 : Enc) : Nat → Nat → Enc → Enc
  | 0, _, t => ⟨0, 2 * t.hi + 1⟩
  | f + 1, i, t =>
    let rest := artanhTerms z2 f (i + 1) (t.mul z2)
    ⟨t.lo / (2 * i + 1) + rest.lo, t.hi / (2 * i + 1) + 1 + rest.hi⟩

/-- 2 artanh(n / d), for 0 ≤ n / d ≤ 1 / 3. DESIGN CHOICE (log 8). -/
def encLogQuot (n d : Nat) : Enc :=
  let z : Enc := ⟨(n <<< encBits) / d, (n <<< encBits) / d + 1⟩
  let s := artanhTerms (z.mul z) 170 0 z
  ⟨2 * s.lo, 2 * s.hi⟩

/-- An FP32 value both ends of an enclosure round to, or the free value of Config. DESIGN CHOICE (log 8). -/
def decideEnc (fn : Nat) (a : W32) (neg : Bool) (e : Enc) : W32 × Raise :=
  let l := toFp32 (.fin neg e.lo (-(encBits : Int)))
  let h := toFp32 (.fin neg e.hi (-(encBits : Int)))
  if l = h then l else (Config.hardCase fn a, .none)

/-- The integer square root by `f` bits of bisection from `r`. -/
def isqrtBits (n : Nat) : Nat → Nat → Nat
  | 0, r => r
  | f + 1, r => isqrtBits n f (if (r + 2 ^ f) * (r + 2 ^ f) ≤ n then r + 2 ^ f else r)

/-- vexp (R175). -/
def fpExp (a : W32) : W32 × Raise :=
  match fp32 a with
  | .nan => (0x7FC00000, .invalid)
  | .inf neg => (if neg then 0 else 0x7F800000, .none)
  | .fin neg mag exp =>
    if mag = 0 then (0x3F800000, .none)
    else if (Num.fin false 104 0).lt (.fin false mag exp) then
      (if neg then (0, .none) else (0x7F800000, ⟨false, true, false⟩))
    else if neg then decideEnc 0x10 a false (Enc.div ⟨encOne, encOne⟩ (encExp mag exp))
    else decideEnc 0x10 a false (encExp mag exp)

/-- vlog (R175). -/
def fpLog (a : W32) : W32 × Raise :=
  match fp32 a with
  | .nan => (0x7FC00000, .invalid)
  | .inf neg => if neg then (0x7FC00000, .invalid) else (0x7F800000, .none)
  | .fin neg mag exp =>
    if mag = 0 then (0xFF800000, .none)
    else if neg then (0x7FC00000, .invalid)
    else
      let l := Nat.log2 mag
      let k := exp + (l : Int)
      let m := encLogQuot (mag - 2 ^ l) (mag + 2 ^ l)
      let two := encLogQuot 1 3
      if k = 0 ∧ mag = 2 ^ l then (0, .none)
      else if 0 ≤ k then decideEnc 0x11 a false ⟨k.toNat * two.lo + m.lo, k.toNat * two.hi + m.hi⟩
      else decideEnc 0x11 a true ⟨(-k).toNat * two.lo - m.hi, (-k).toNat * two.hi - m.lo⟩

/-- vrecip (R175). -/
def fpRecip (a : W32) : W32 × Raise :=
  match fp32 a with
  | .nan => (0x7FC00000, .invalid)
  | .inf neg => (if neg then 0x80000000 else 0, .none)
  | .fin neg mag exp =>
    if mag = 0 then (if neg then 0xFF800000 else 0x7F800000, .none) else toFp32 (quotNum neg 1 mag (-exp))

/-- vrsqrt (R175). -/
def fpRsqrt (a : W32) : W32 × Raise :=
  match fp32 a with
  | .nan => (0x7FC00000, .invalid)
  | .inf neg => if neg then (0x7FC00000, .invalid) else (0, .none)
  | .fin neg mag exp =>
    if mag = 0 then (if neg then 0xFF800000 else 0x7F800000, .none)
    else if neg then (0x7FC00000, .invalid)
    else
      -- 1 / sqrt(mag * 2 ^ exp) with an even exponent, to 96 bits and a sticky bit
      let odd := exp % 2 = 1
      let m := if odd then 2 * mag else mag
      let e := if odd then exp - 1 else exp
      let n := (1 <<< 220) / m
      let r := isqrtBits n 111 0
      let exact := r * r * m = 1 <<< 220
      toFp32 (.fin false (2 * r + (if exact then 0 else 1)) (-111 - e / 2))

/-- vtanh (R175). -/
def fpTanh (a : W32) : W32 × Raise :=
  match fp32 a with
  | .nan => (0x7FC00000, .invalid)
  | .inf neg => (if neg then 0xBF800000 else 0x3F800000, .none)
  | .fin neg mag exp =>
    if mag = 0 then (a, .none)
    else if (Num.fin false 16 0).lt (.fin false mag exp) then (if neg then 0xBF800000 else 0x3F800000, .none)
    else
      let x := encExp mag (exp + 1)
      decideEnc 0x14 a neg (Enc.div ⟨x.lo - encOne, x.hi - encOne⟩ ⟨x.lo + encOne, x.hi + encOne⟩)

/-- vsigm (R175). -/
def fpSigm (a : W32) : W32 × Raise :=
  match fp32 a with
  | .nan => (0x7FC00000, .invalid)
  | .inf neg => (if neg then 0 else 0x3F800000, .none)
  | .fin neg mag exp =>
    if mag = 0 then (0x3F000000, .none)
    else if neg then
      if (Num.fin false 104 0).lt (.fin false mag exp) then (0, .none)
      else
        let x := encExp mag exp
        decideEnc 0x15 a false (Enc.div ⟨encOne, encOne⟩ ⟨x.lo + encOne, x.hi + encOne⟩)
    else if (Num.fin false 64 0).lt (.fin false mag exp) then (0x3F800000, .none)
    else
      let x := encExp mag exp
      decideEnc 0x15 a false (Enc.div x ⟨x.lo + encOne, x.hi + encOne⟩)

/-! ### Bytes -/

/-- A little-endian value of a byte list (R9). -/
def leNat : List Byte → Nat
  | [] => 0
  | b :: r => b.toNat + 256 * leNat r

/-- The `n` little-endian bytes of a value. -/
def leBytes : Nat → Nat → List Byte
  | 0, _ => []
  | n + 1, v => BitVec.ofNat 8 v :: leBytes n (v / 256)

/-- A big-endian value of a byte list (the wire, R9). -/
def beNat (l : List Byte) : Nat := leNat l.reverse

/-- The `n` big-endian bytes of a value. -/
def beBytes (n v : Nat) : List Byte := (leBytes n v).reverse

/-- Bits [hi:lo] of a value (R9, R12). -/
def bitsOf (v hi lo : Nat) : Nat := v / 2 ^ lo % 2 ^ (hi + 1 - lo)

/-- The signed value of the low `w` bits. -/
def signedOf (w v : Nat) : Int := if v % 2 ^ w < 2 ^ (w - 1) then (v % 2 ^ w : Nat) else (v % 2 ^ w : Nat) - (2 ^ w : Nat)

/-- Element `i` of a byte row in a format, as its code (R77: lower index in lower bits). -/
def elemAt (f : Fmt) (row : List Byte) (i : Nat) : Nat :=
  let b := fmtBits f
  if b = 4 then ((row.getD (i / 2) 0).toNat >>> (4 * (i % 2))) % 16
  else
    let n := b / 8
    let v := leNat ((row.drop (n * i)).take n)
    match f with
    | .mxE3m2 | .mxE2m3 => v % 64
    | _ => v

/-- Byte `b` of a scale tag (R78). -/
def tagByte (t : W32) (b : Nat) : Nat := bitsOf t.toNat (8 * b + 7) (8 * b)

/-- The scaled elements 0 to k - 1 of a row (R76, R78). -/
def rowNums (f : Fmt) (row : List Byte) (tag : W32) (k : Nat) : List Num :=
  (List.range k).map (fun i => scaledElem f (elemAt f row i) (tagByte tag (i / 32)))

end Sys2Proof.Machine
end

