-- ==== Sys2Proof/Machine/Dict.lean ====
section
/-! DEFINITION. The object dictionary (R403 to R409): the entries of every chapter's table with type, access, right,
default, retention class and stated range, and the reading of an entry's value. -/

namespace Sys2Proof.Machine

open Sys2Proof

/-- The types of Table "Entry types" (R405). -/
inductive Ty
  | u8 | u16 | u32 | u64
  | i8 | i16 | i32 | i64
  | f32 | bool | enum8 | bits32
  | octets (n : Nat)
  | text (n : Nat)
  deriving DecidableEq, Repr

/-- The access kinds of R406. -/
inductive Access
  | const | ro | rw | rws | wo
  deriving DecidableEq, Repr

/-- The retention classes of R409. -/
inductive Retention
  | f | c | s | w | v
  deriving DecidableEq, Repr

/-- What a per-instance entry concerns, for the Tenant scope of R408 and the partition of an RWS entry (R406). -/
inductive Concerns
  | none
  | bySub
  | byIndex
  | broad
  | fine
  deriving DecidableEq, Repr

/-- One row of an entry table: first index and number of indices, first subindex and number of subindices, type, access,
right, default bits, retention, least and greatest value a write may carry, and what an instance concerns. -/
structure Desc where
  index : Nat
  indices : Nat
  sub : Nat
  subs : Nat
  ty : Ty
  access : Access
  right : Right
  dflt : Nat
  ret : Retention
  lo : Int
  hi : Int
  concerns : Concerns
  deriving DecidableEq, Repr

/-- Type code (Table "Entry types"). -/
def Ty.code : Ty → Nat
  | .u8 => 1 | .u16 => 2 | .u32 => 3 | .u64 => 4
  | .i8 => 5 | .i16 => 6 | .i32 => 7 | .i64 => 8
  | .f32 => 9 | .bool => 10 | .enum8 => 11 | .bits32 => 12
  | .octets _ => 13 | .text _ => 14

/-- Width in bytes (Table "Entry types"). -/
def Ty.width : Ty → Nat
  | .u8 | .i8 | .bool | .enum8 => 1
  | .u16 | .i16 => 2
  | .u32 | .i32 | .f32 | .bits32 => 4
  | .u64 | .i64 => 8
  | .octets n | .text n => n

/-- The type holds a signed integer. -/
def Ty.signed : Ty → Bool
  | .i8 | .i16 | .i32 | .i64 => true
  | _ => false

/-- Entries of the dictionary, part 1 (the entry tables of R38 to R494, R470). -/
def Dict.part1 : List Desc :=
  [ ⟨0x1000, 1, 0x1, 1, (.text 16), .const, .tenant, 0x4C797370657800000000000000000000, .f, 0, 0, .none⟩,
    ⟨0x1000, 1, 0x2, 1, (.text 16), .const, .tenant, 0x4C582D504E32352D4130000000000000, .f, 0, 0, .none⟩,
    ⟨0x1000, 1, 0x3, 1, (.text 16), .const, .tenant, 0x50656E6F6D0000000000000000000000, .f, 0, 0, .none⟩,
    ⟨0x1000, 1, 0x4, 1, .enum8, .const, .tenant, 0x0, .f, 0, 255, .none⟩,
    ⟨0x1010, 1, 0x1, 1, .bits32, .const, .operator, 0x1FFFFFF, .f, 0, 4294967295, .none⟩,
    ⟨0x1010, 1, 0x2, 1, .bits32, .ro, .operator, 0x3FF, .c, 0, 4294967295, .none⟩,
    ⟨0x1010, 1, 0x3, 1, .u32, .ro, .operator, 0x0, .c, 0, 4294967295, .none⟩,
    ⟨0x1010, 1, 0x4, 1, .u32, .ro, .operator, 0x0, .w, 0, 4294967295, .none⟩,
    ⟨0x1010, 1, 0x40, 1, .u32, .rw, .firmware, 0x4E20, .c, 1000, 100000, .none⟩,
    ⟨0x1100, 1, 0x1, 1, .u16, .const, .tenant, 0x1, .f, 0, 65535, .none⟩,
    ⟨0x1100, 1, 0x2, 1, .u8, .const, .tenant, 0x30, .f, 0, 255, .none⟩,
    ⟨0x1100, 1, 0x3, 1, (.octets 6), .const, .operator, 0x0, .f, 0, 0, .none⟩,
    ⟨0x1100, 1, 0x4, 1, (.octets 16), .rw, .operator, 0x0, .c, 0, 0, .none⟩,
    ⟨0x1100, 1, 0x5, 1, .enum8, .ro, .operator, 0x0, .c, 0, 255, .none⟩,
    ⟨0x1100, 1, 0x40, 1, .bool, .rw, .operator, 0x1, .c, 0, 1, .none⟩,
    ⟨0x1101, 1, 0x1, 1, .u64, .ro, .operator, 0x0, .w, 0, 18446744073709551615, .none⟩,
    ⟨0x1101, 1, 0x2, 1, .u32, .ro, .operator, 0x0, .w, 0, 4294967295, .none⟩,
    ⟨0x1101, 1, 0x3, 1, .u32, .ro, .operator, 0x0, .w, 0, 4294967295, .none⟩,
    ⟨0x1101, 1, 0x4, 1, .u32, .ro, .operator, 0x0, .w, 0, 4294967295, .none⟩,
    ⟨0x1101, 1, 0x5, 1, .u32, .ro, .operator, 0x0, .w, 0, 4294967295, .none⟩,
    ⟨0x2000, 1, 0x1, 1, .u16, .const, .tenant, 0xBB8, .f, 0, 65535, .none⟩,
    ⟨0x2000, 1, 0x2, 1, .u16, .const, .tenant, 0xE10, .f, 0, 65535, .none⟩,
    ⟨0x2000, 1, 0x3, 1, .u32, .const, .tenant, 0x7530, .f, 0, 4294967295, .none⟩,
    ⟨0x2000, 1, 0x4, 1, .u8, .const, .tenant, 0x69, .f, 0, 255, .none⟩,
    ⟨0x2010, 1, 0x1, 1, .u16, .ro, .operator, 0x0, .w, 0, 65535, .none⟩,
    ⟨0x2010, 1, 0x2, 1, .u32, .ro, .operator, 0x7530, .w, 0, 4294967295, .none⟩,
    ⟨0x2010, 1, 0x3, 1, .u8, .ro, .operator, 0x40, .w, 0, 255, .none⟩,
    ⟨0x2010, 1, 0x4, 1, .u16, .ro, .operator, 0xE10, .w, 0, 65535, .none⟩,
    ⟨0x2010, 1, 0x40, 1, .bool, .rw, .operator, 0x1, .c, 0, 1, .none⟩,
    ⟨0x2010, 1, 0x41, 1, .u16, .rw, .operator, 0x12C, .c, 30, 600, .none⟩ ]

/-- Entries of the dictionary, part 2 (the entry tables of R38 to R494, R470). -/
def Dict.part2 : List Desc :=
  [ ⟨0x2020, 1, 0x1, 1, .i16, .ro, .operator, 0x0, .w, -32768, 32767, .none⟩,
    ⟨0x2020, 1, 0x2, 1, .u32, .ro, .operator, 0x0, .w, 0, 4294967295, .none⟩,
    ⟨0x2020, 1, 0x40, 1, .u8, .rw, .operator, 0x64, .c, 95, 104, .none⟩,
    ⟨0x2020, 1, 0x41, 1, .u8, .rw, .operator, 0x67, .c, 96, 104, .none⟩,
    ⟨0x2030, 1, 0x1, 1, .u64, .ro, .operator, 0x0, .c, 0, 18446744073709551615, .none⟩,
    ⟨0x2030, 1, 0x2, 1, .u16, .ro, .operator, 0x0, .f, 0, 65535, .none⟩,
    ⟨0x2030, 1, 0x40, 1, .u32, .rw, .operator, 0x4E20, .c, 1, 100000, .none⟩,
    ⟨0x2040, 1, 0x1, 1, .enum8, .ro, .operator, 0x0, .c, 0, 2, .none⟩,
    ⟨0x2040, 1, 0x2, 1, .enum8, .wo, .operator, 0x0, .f, 0, 2, .none⟩,
    ⟨0x2040, 1, 0x40, 1, .bool, .rw, .operator, 0x1, .c, 0, 1, .none⟩,
    ⟨0x2040, 1, 0x41, 1, .u32, .rw, .operator, 0x64, .c, 10, 100000, .none⟩,
    ⟨0x2050, 1, 0x1, 1, .bool, .rw, .operator, 0x0, .c, 0, 1, .none⟩,
    ⟨0x2050, 1, 0x2, 1, .bool, .wo, .operator, 0x0, .f, 0, 1, .none⟩,
    ⟨0x2050, 1, 0x3, 1, .enum8, .ro, .operator, 0x0, .c, 0, 255, .none⟩,
    ⟨0x2051, 1, 0x1, 16, .bool, .wo, .tenant, 0x0, .f, 0, 1, .bySub⟩,
    ⟨0x2052, 1, 0x1, 1, .u16, .wo, .operator, 0x0, .f, 0, 799, .none⟩,
    ⟨0x2100, 1, 0x1, 1, .u16, .rw, .operator, 0x0, .c, 0, 945, .none⟩,
    ⟨0x2100, 1, 0x2, 1, .bits32, .ro, .operator, 0xC, .c, 0, 4294967295, .none⟩,
    ⟨0x2100, 1, 0x3, 1, .enum8, .wo, .firmware, 0x0, .f, 0, 1, .none⟩,
    ⟨0x2100, 1, 0x4, 1, .enum8, .ro, .operator, 0x0, .c, 0, 255, .none⟩,
    ⟨0x2100, 1, 0x40, 1, .bool, .rw, .firmware, 0x1, .c, 0, 1, .none⟩,
    ⟨0x2110, 1, 0x1, 1, .bits32, .ro, .operator, 0x0, .c, 0, 4294967295, .none⟩,
    ⟨0x3000, 1, 0x1, 1, .u32, .const, .tenant, 0x100000, .f, 0, 4294967295, .none⟩,
    ⟨0x3000, 1, 0x2, 1, .u32, .const, .tenant, 0x20000000, .f, 0, 4294967295, .none⟩,
    ⟨0x3000, 1, 0x3, 1, .u64, .const, .tenant, 0x7C00000000, .f, 0, 18446744073709551615, .none⟩,
    ⟨0x3000, 1, 0x4, 1, .u8, .ro, .tenant, 0x3E, .c, 0, 255, .none⟩,
    ⟨0x3010, 1, 0x1, 1, .u64, .ro, .operator, 0x0, .c, 0, 18446744073709551615, .none⟩,
    ⟨0x3011, 1, 0x1, 8, .u8, .ro, .operator, 0xFF, .c, 0, 255, .none⟩,
    ⟨0x3012, 1, 0x1, 8, .enum8, .ro, .operator, 0x0, .c, 0, 255, .none⟩,
    ⟨0x3013, 1, 0x1, 8, .u32, .ro, .operator, 0x0, .c, 0, 4294967295, .none⟩ ]

/-- Entries of the dictionary, part 3 (the entry tables of R38 to R494, R470). -/
def Dict.part3 : List Desc :=
  [ ⟨0x3020, 1, 0x1, 1, .u32, .ro, .operator, 0x0, .w, 0, 4294967295, .none⟩,
    ⟨0x3020, 1, 0x2, 1, .u32, .ro, .operator, 0x0, .w, 0, 4294967295, .none⟩,
    ⟨0x3020, 1, 0x3, 1, .u32, .ro, .operator, 0x0, .w, 0, 4294967295, .none⟩,
    ⟨0x3020, 1, 0x4, 1, .u64, .ro, .operator, 0x0, .w, 0, 18446744073709551615, .none⟩,
    ⟨0x3020, 1, 0x40, 1, .u16, .rw, .operator, 0x3E8, .c, 1, 65535, .none⟩,
    ⟨0x3020, 1, 0x41, 1, .u32, .rw, .firmware, 0x2710, .c, 1000, 100000, .none⟩,
    ⟨0x3020, 1, 0x42, 1, .u32, .rw, .operator, 0x15180, .c, 3600, 604800, .none⟩,
    ⟨0x3020, 1, 0x43, 1, .u8, .rw, .operator, 0x4, .c, 1, 8, .none⟩,
    ⟨0x3030, 1, 0x1, 16, .enum8, .ro, .tenant, 0x0, .v, 0, 255, .bySub⟩,
    ⟨0x3100, 8, 0x1, 32, .u32, .ro, .operator, 0x0, .w, 0, 4294967295, .none⟩,
    ⟨0x3C00, 1, 0x1, 1, .u16, .const, .tenant, 0x400, .f, 0, 65535, .none⟩,
    ⟨0x3C00, 1, 0x2, 1, .u16, .const, .tenant, 0x800, .f, 0, 65535, .none⟩,
    ⟨0x3C00, 1, 0x3, 1, .u16, .const, .tenant, 0x400, .f, 0, 65535, .none⟩,
    ⟨0x3C20, 1, 0x1, 1, .enum8, .rw, .operator, 0x0, .c, 0, 1, .none⟩,
    ⟨0x3C20, 1, 0x2, 1, .bool, .rw, .operator, 0x1, .c, 0, 1, .none⟩,
    ⟨0x3C20, 1, 0x40, 8, .bits32, .rw, .operator, 0x84440, .c, 0, 4294967295, .none⟩,
    ⟨0x3C30, 1, 0x1, 16, .u32, .ro, .tenant, 0x0, .v, 0, 4294967295, .bySub⟩,
    ⟨0x3C31, 1, 0x1, 16, .u64, .ro, .tenant, 0x0, .v, 0, 18446744073709551615, .bySub⟩,
    ⟨0x3C32, 1, 0x1, 1, .u32, .ro, .operator, 0x0, .w, 0, 4294967295, .none⟩,
    ⟨0x3C40, 8, 0x1, 5, .u64, .ro, .operator, 0x0, .w, 0, 18446744073709551615, .none⟩,
    ⟨0x4000, 1, 0x1, 1, .u8, .const, .tenant, 0x3, .f, 0, 255, .none⟩,
    ⟨0x4000, 1, 0x2, 1, .u8, .const, .tenant, 0x6, .f, 0, 255, .none⟩,
    ⟨0x4000, 1, 0x3, 1, .u16, .const, .tenant, 0x100, .f, 0, 65535, .none⟩,
    ⟨0x4000, 1, 0x4, 1, .u16, .const, .tenant, 0x258, .f, 0, 65535, .none⟩,
    ⟨0x4000, 1, 0x5, 1, .i16, .const, .tenant, 0xFED4, .f, -32768, 32767, .none⟩,
    ⟨0x4002, 1, 0x1, 16, .enum8, .rws, .tenant, 0x0, .v, 0, 2, .bySub⟩,
    ⟨0x4003, 1, 0x1, 1, .u32, .ro, .operator, 0x0, .w, 0, 4294967295, .none⟩,
    ⟨0x4003, 1, 0x40, 1, .bool, .rw, .operator, 0x1, .c, 0, 1, .none⟩,
    ⟨0x4003, 1, 0x41, 1, .u8, .rw, .operator, 0x4, .c, 1, 255, .none⟩,
    ⟨0x4004, 1, 0x1, 1, .u32, .rw, .operator, 0x0, .w, 0, 0, .none⟩ ]

/-- Entries of the dictionary, part 4 (the entry tables of R38 to R494, R470). -/
def Dict.part4 : List Desc :=
  [ ⟨0x4004, 1, 0x2, 1, .u32, .rw, .operator, 0x0, .w, 0, 0, .none⟩,
    ⟨0x4004, 1, 0x3, 1, .u32, .rw, .operator, 0x0, .w, 0, 0, .none⟩,
    ⟨0x4010, 1, 0x1, 1, .u32, .const, .tenant, 0x10000, .f, 0, 4294967295, .none⟩,
    ⟨0x4010, 1, 0x2, 1, .u8, .const, .tenant, 0x8, .f, 0, 255, .none⟩,
    ⟨0x4010, 1, 0x3, 1, .u8, .const, .tenant, 0x20, .f, 0, 255, .none⟩,
    ⟨0x4010, 1, 0x4, 1, .u8, .const, .tenant, 0x10, .f, 0, 255, .none⟩,
    ⟨0x4010, 1, 0x5, 1, .u8, .const, .tenant, 0x40, .f, 0, 255, .none⟩,
    ⟨0x4010, 1, 0x6, 1, .u32, .ro, .operator, 0x0, .w, 0, 4294967295, .none⟩,
    ⟨0x4011, 1, 0x1, 16, .u64, .rws, .tenant, 0x713FB300, .v, 0, 1099511627776, .bySub⟩,
    ⟨0x4020, 1, 0x1, 1, .u8, .const, .tenant, 0x40, .f, 0, 255, .none⟩,
    ⟨0x4020, 1, 0x2, 1, .u32, .const, .tenant, 0x10000, .f, 0, 4294967295, .none⟩,
    ⟨0x4020, 1, 0x3, 1, .u16, .const, .tenant, 0x1000, .f, 0, 65535, .none⟩,
    ⟨0x4020, 1, 0x4, 1, .u8, .const, .tenant, 0x4, .f, 0, 255, .none⟩,
    ⟨0x4100, 16, 0x1, 48, .u8, .ro, .tenant, 0x40, .c, 0, 255, .broad⟩,
    ⟨0x4110, 1, 0x1, 32, .u8, .ro, .tenant, 0x40, .c, 0, 255, .fine⟩,
    ⟨0x4120, 16, 0x1, 48, .u64, .ro, .operator, 0x0, .c, 0, 18446744073709551615, .none⟩,
    ⟨0x4130, 1, 0x1, 32, .u64, .ro, .operator, 0x0, .c, 0, 18446744073709551615, .none⟩,
    ⟨0x5000, 1, 0x1, 1, .u8, .const, .tenant, 0x8, .f, 0, 255, .none⟩,
    ⟨0x5000, 1, 0x2, 1, .u8, .const, .tenant, 0x8, .f, 0, 255, .none⟩,
    ⟨0x5000, 1, 0x3, 1, .u16, .const, .tenant, 0x2096, .f, 0, 65535, .none⟩,
    ⟨0x5001, 1, 0x1, 8, .enum8, .rw, .operator, 0x0, .c, 0, 2, .none⟩,
    ⟨0x5002, 1, 0x1, 8, .bits32, .ro, .operator, 0x0, .c, 0, 4294967295, .none⟩,
    ⟨0x5003, 1, 0x1, 32, .bool, .rw, .operator, 0x0, .c, 0, 1, .none⟩,
    ⟨0x5004, 1, 0x1, 8, (.octets 16), .rw, .operator, 0x0, .c, 0, 0, .none⟩,
    ⟨0x5005, 1, 0x1, 32, (.octets 6), .rw, .operator, 0x0, .c, 0, 0, .none⟩,
    ⟨0x5006, 1, 0x1, 32, (.octets 6), .rw, .operator, 0x0, .c, 0, 0, .none⟩,
    ⟨0x5007, 1, 0x1, 32, .enum8, .ro, .operator, 0x4, .c, 0, 255, .none⟩,
    ⟨0x5008, 1, 0x1, 32, .enum8, .rw, .operator, 0x1, .c, 0, 1, .none⟩,
    ⟨0x5010, 1, 0x40, 1, .bool, .rw, .operator, 0x1, .c, 0, 1, .none⟩,
    ⟨0x5010, 1, 0x41, 1, .u16, .rw, .operator, 0xF0, .c, 1, 1000, .none⟩ ]

/-- Entries of the dictionary, part 5 (the entry tables of R38 to R494, R470). -/
def Dict.part5 : List Desc :=
  [ ⟨0x5011, 1, 0x1, 8, .enum8, .ro, .operator, 0x0, .w, 0, 255, .none⟩,
    ⟨0x5011, 1, 0x40, 1, .i16, .rw, .operator, 0xFFE2, .c, -100, 0, .none⟩,
    ⟨0x5020, 1, 0x1, 1, .u16, .rw, .operator, 0xC22E, .c, 0, 65535, .none⟩,
    ⟨0x5020, 1, 0x2, 1, .u16, .rw, .operator, 0xC22F, .c, 0, 65535, .none⟩,
    ⟨0x5021, 1, 0x1, 1, .u64, .ro, .operator, 0x0, .w, 0, 18446744073709551615, .none⟩,
    ⟨0x5021, 1, 0x2, 1, .u64, .ro, .operator, 0x0, .w, 0, 18446744073709551615, .none⟩,
    ⟨0x5021, 1, 0x3, 1, .u32, .ro, .operator, 0x0, .w, 0, 4294967295, .none⟩,
    ⟨0x5021, 1, 0x4, 1, .u64, .ro, .operator, 0x0, .w, 0, 18446744073709551615, .none⟩,
    ⟨0x5022, 1, 0x1, 32, .u64, .ro, .operator, 0x0, .w, 0, 18446744073709551615, .none⟩,
    ⟨0x5023, 1, 0x1, 32, .u64, .ro, .operator, 0x0, .w, 0, 18446744073709551615, .none⟩,
    ⟨0x5030, 1, 0x1, 1, .u8, .rw, .operator, 0x0, .c, 0, 255, .none⟩,
    ⟨0x5030, 1, 0x2, 1, .enum8, .rw, .operator, 0x1, .c, 0, 2, .none⟩,
    ⟨0x5030, 1, 0x3, 1, .i32, .ro, .operator, 0x0, .v, -2147483648, 2147483647, .none⟩,
    ⟨0x5030, 1, 0x4, 1, .enum8, .ro, .operator, 0x0, .w, 0, 255, .none⟩,
    ⟨0x5040, 1, 0x1, 1, .enum8, .rw, .operator, 0x0, .c, 0, 3, .none⟩,
    ⟨0x5040, 1, 0x2, 1, .enum8, .rw, .operator, 0x0, .c, 0, 2, .none⟩,
    ⟨0x5040, 1, 0x3, 1, .u32, .rw, .operator, 0x0, .c, 0, 4294967295, .none⟩,
    ⟨0x5040, 1, 0x4, 1, (.octets 16), .rw, .operator, 0x0, .c, 0, 0, .none⟩,
    ⟨0x5040, 1, 0x5, 1, (.octets 16), .rw, .operator, 0x0, .c, 0, 0, .none⟩,
    ⟨0x5040, 1, 0x41, 1, .u32, .rw, .operator, 0x61A8, .c, 5000, 100000, .none⟩,
    ⟨0x5040, 1, 0x42, 1, .u32, .rw, .operator, 0x30D40, .c, 50000, 400000, .none⟩,
    ⟨0x5050, 1, 0x1, 1, .u8, .rw, .operator, 0x1, .c, 1, 4, .none⟩,
    ⟨0x5050, 1, 0x2, 1, .u8, .rw, .operator, 0x0, .c, 0, 3, .none⟩,
    ⟨0x5050, 1, 0x3, 1, .bits32, .ro, .operator, 0x0, .c, 0, 4294967295, .none⟩,
    ⟨0x6000, 1, 0x1, 1, .u16, .const, .tenant, 0x100, .f, 0, 65535, .none⟩,
    ⟨0x6000, 1, 0x2, 1, .u32, .const, .tenant, 0x10000, .f, 0, 4294967295, .none⟩,
    ⟨0x6000, 1, 0x3, 1, .u16, .const, .tenant, 0x400, .f, 0, 65535, .none⟩,
    ⟨0x6000, 1, 0x4, 1, .u8, .const, .tenant, 0x40, .f, 0, 255, .none⟩,
    ⟨0x6000, 1, 0x5, 1, .u16, .const, .tenant, 0x100, .f, 0, 65535, .none⟩,
    ⟨0x6000, 1, 0x6, 1, .u16, .const, .tenant, 0x1000, .f, 0, 65535, .none⟩ ]

/-- Entries of the dictionary, part 6 (the entry tables of R38 to R494, R470). -/
def Dict.part6 : List Desc :=
  [ ⟨0x6000, 1, 0x7, 1, .u16, .const, .tenant, 0x18A, .f, 0, 65535, .none⟩,
    ⟨0x6010, 1, 0x1, 1, .u32, .rw, .operator, 0x186A0, .c, 10000, 400000, .none⟩,
    ⟨0x6010, 1, 0x40, 1, .u8, .rw, .operator, 0x3, .c, 0, 3, .none⟩,
    ⟨0x6010, 1, 0x41, 1, .u32, .rw, .operator, 0x7D0, .c, 500, 50000, .none⟩,
    ⟨0x6020, 1, 0x1, 16, .u64, .ro, .tenant, 0x0, .v, 0, 18446744073709551615, .bySub⟩,
    ⟨0x6021, 1, 0x1, 16, .u32, .ro, .tenant, 0x0, .v, 0, 4294967295, .bySub⟩,
    ⟨0x6022, 1, 0x1, 16, .u64, .ro, .tenant, 0x0, .v, 0, 18446744073709551615, .bySub⟩,
    ⟨0x6023, 1, 0x1, 16, .u32, .ro, .tenant, 0x0, .v, 0, 4294967295, .bySub⟩,
    ⟨0x6024, 1, 0x1, 16, .u64, .ro, .tenant, 0x0, .v, 0, 18446744073709551615, .bySub⟩,
    ⟨0x6030, 1, 0x1, 1, .u32, .ro, .operator, 0x0, .w, 0, 4294967295, .none⟩,
    ⟨0x6030, 1, 0x2, 1, .u16, .ro, .operator, 0x0, .c, 0, 65535, .none⟩,
    ⟨0x6030, 1, 0x3, 1, .u64, .ro, .operator, 0x0, .w, 0, 18446744073709551615, .none⟩,
    ⟨0x6031, 1, 0x1, 8, .bits32, .ro, .operator, 0xFF, .c, 0, 4294967295, .none⟩,
    ⟨0x7000, 1, 0x1, 1, .u8, .const, .tenant, 0x40, .f, 0, 255, .none⟩,
    ⟨0x7000, 1, 0x2, 1, .u32, .const, .tenant, 0x100000, .f, 0, 4294967295, .none⟩,
    ⟨0x7000, 1, 0x3, 1, .u16, .const, .tenant, 0x400, .f, 0, 65535, .none⟩,
    ⟨0x7000, 1, 0x4, 1, .u8, .const, .tenant, 0x10, .f, 0, 255, .none⟩,
    ⟨0x7000, 1, 0x5, 1, .u8, .const, .tenant, 0x10, .f, 0, 255, .none⟩,
    ⟨0x7020, 1, 0x1, 16, .u64, .rws, .tenant, 0x0, .v, 0, 18446744073709551615, .bySub⟩,
    ⟨0x7021, 1, 0x1, 16, .u32, .rws, .tenant, 0x0, .v, 0, 65536, .bySub⟩,
    ⟨0x7022, 1, 0x1, 16, .u64, .rws, .tenant, 0x0, .v, 0, 18446744073709551615, .bySub⟩,
    ⟨0x7023, 1, 0x1, 16, .u32, .rws, .tenant, 0x0, .v, 0, 1048576, .bySub⟩,
    ⟨0x7030, 16, 0x1, 8, .u32, .rws, .tenant, 0x0, .v, 0, 65536, .byIndex⟩,
    ⟨0x7040, 1, 0x1, 16, .u32, .rw, .tenant, 0x258, .v, 1, 86400, .bySub⟩,
    ⟨0x7050, 1, 0x1, 16, .u64, .ro, .tenant, 0x0, .v, 0, 18446744073709551615, .bySub⟩,
    ⟨0x7051, 1, 0x1, 16, .u64, .ro, .tenant, 0x0, .v, 0, 18446744073709551615, .bySub⟩,
    ⟨0x7052, 1, 0x1, 16, .u32, .ro, .tenant, 0x0, .v, 0, 4294967295, .bySub⟩,
    ⟨0x7053, 1, 0x1, 16, .u32, .ro, .tenant, 0x0, .v, 0, 4294967295, .bySub⟩,
    ⟨0x7060, 1, 0x1, 1, .u8, .const, .tenant, 0x8, .f, 0, 255, .none⟩,
    ⟨0x7060, 1, 0x2, 1, .u8, .const, .tenant, 0x8, .f, 0, 255, .none⟩ ]

/-- Entries of the dictionary, part 7 (the entry tables of R38 to R494, R470). -/
def Dict.part7 : List Desc :=
  [ ⟨0x7060, 1, 0x3, 1, .u8, .const, .tenant, 0x10, .f, 0, 255, .none⟩,
    ⟨0x7060, 1, 0x4, 1, .u8, .const, .tenant, 0x40, .f, 0, 255, .none⟩,
    ⟨0x7061, 1, 0x1, 16, .u32, .ro, .tenant, 0x0, .v, 0, 4294967295, .bySub⟩,
    ⟨0x7062, 1, 0x1, 16, .u32, .ro, .tenant, 0x0, .v, 0, 4294967295, .bySub⟩,
    ⟨0x7063, 1, 0x1, 16, .u64, .ro, .tenant, 0x0, .v, 0, 18446744073709551615, .bySub⟩,
    ⟨0x7064, 1, 0x1, 8, .u64, .ro, .operator, 0x0, .w, 0, 18446744073709551615, .none⟩,
    ⟨0x7065, 1, 0x1, 8, .u32, .ro, .operator, 0x0, .w, 0, 4294967295, .none⟩,
    ⟨0x7070, 16, 0x1, 8, .u64, .ro, .tenant, 0x0, .v, 0, 18446744073709551615, .byIndex⟩,
    ⟨0x8000, 1, 0x1, 1, .u8, .const, .tenant, 0x10, .f, 0, 255, .none⟩,
    ⟨0x8000, 1, 0x2, 1, .u32, .const, .tenant, 0x10000, .f, 0, 4294967295, .none⟩,
    ⟨0x8000, 1, 0x3, 1, .u8, .const, .tenant, 0x2, .f, 0, 255, .none⟩,
    ⟨0x8000, 1, 0x4, 1, .u8, .const, .tenant, 0x3, .f, 0, 255, .none⟩,
    ⟨0x8010, 1, 0x1, 16, .u64, .rws, .tenant, 0x0, .v, 0, 18446744073709551615, .bySub⟩,
    ⟨0x8011, 1, 0x1, 16, .u32, .rws, .tenant, 0x0, .v, 0, 8388608, .bySub⟩,
    ⟨0x8012, 1, 0x1, 16, .u64, .rws, .tenant, 0x0, .v, 0, 18446744073709551615, .bySub⟩,
    ⟨0x8013, 1, 0x1, 16, .u32, .rws, .tenant, 0x0, .v, 0, 65536, .bySub⟩,
    ⟨0x8020, 1, 0x1, 16, .u8, .rw, .tenant, 0xC, .v, 0, 20, .bySub⟩,
    ⟨0x8021, 1, 0x1, 16, .u8, .rw, .tenant, 0x5, .v, 1, 23, .bySub⟩,
    ⟨0x8022, 1, 0x1, 16, .u16, .rw, .tenant, 0x40, .v, 1, 65535, .bySub⟩,
    ⟨0x8030, 1, 0x1, 16, .u32, .ro, .tenant, 0x0, .v, 0, 4294967295, .bySub⟩,
    ⟨0x8031, 1, 0x1, 16, .u64, .ro, .tenant, 0x0, .v, 0, 18446744073709551615, .bySub⟩,
    ⟨0x8032, 1, 0x1, 16, .u32, .ro, .tenant, 0x0, .v, 0, 4294967295, .bySub⟩,
    ⟨0x8033, 1, 0x1, 16, .u64, .ro, .tenant, 0x0, .v, 0, 18446744073709551615, .bySub⟩,
    ⟨0x8034, 1, 0x1, 16, .u64, .ro, .tenant, 0x0, .v, 0, 18446744073709551615, .bySub⟩,
    ⟨0x8035, 1, 0x1, 16, .u32, .ro, .tenant, 0x0, .v, 0, 4294967295, .bySub⟩,
    ⟨0x8036, 1, 0x1, 16, .u32, .ro, .tenant, 0x0, .v, 0, 4294967295, .bySub⟩,
    ⟨0x9000, 1, 0x1, 1, .u16, .const, .tenant, 0x1000, .f, 0, 65535, .none⟩,
    ⟨0x9001, 1, 0x1, 1, .u16, .ro, .operator, 0x0, .w, 0, 65535, .none⟩,
    ⟨0x9001, 1, 0x2, 1, .u16, .rw, .operator, 0x0, .w, 0, 4095, .none⟩,
    ⟨0x9001, 1, 0x3, 1, (.octets 48), .ro, .operator, 0x0, .w, 0, 0, .none⟩ ]

/-- Entries of the dictionary, part 8 (the entry tables of R38 to R494, R470). -/
def Dict.part8 : List Desc :=
  [ ⟨0x9001, 1, 0x4, 1, .bits32, .rw, .operator, 0x6, .c, 0, 7, .none⟩,
    ⟨0x9001, 1, 0x5, 1, .u16, .wo, .operator, 0x0, .f, 0, 65535, .none⟩,
    ⟨0x9010, 8, 0x1, 1, (.octets 16), .rw, .operator, 0x0, .c, 0, 0, .none⟩,
    ⟨0x9010, 8, 0x2, 1, .u16, .rw, .operator, 0x0, .c, 0, 65535, .none⟩,
    ⟨0x9010, 8, 0x3, 1, .bits32, .rw, .operator, 0x0, .c, 0, 7, .none⟩,
    ⟨0x9010, 8, 0x4, 1, .u16, .rw, .operator, 0x0, .c, 0, 65535, .none⟩,
    ⟨0x9010, 8, 0x5, 1, .u16, .rw, .operator, 0x0, .c, 0, 65535, .none⟩,
    ⟨0x9010, 8, 0x6, 1, .bool, .rw, .operator, 0x0, .c, 0, 1, .none⟩,
    ⟨0x9020, 1, 0x1, 16, .bits32, .rw, .tenant, 0x6, .v, 0, 7, .bySub⟩,
    ⟨0x9030, 1, 0x1, 1, .u64, .ro, .operator, 0x0, .w, 0, 18446744073709551615, .none⟩,
    ⟨0x9030, 1, 0x2, 1, .u64, .ro, .operator, 0x0, .w, 0, 18446744073709551615, .none⟩,
    ⟨0x9030, 1, 0x3, 1, .u64, .ro, .operator, 0x0, .w, 0, 18446744073709551615, .none⟩,
    ⟨0x9050, 1, 0x1, 1, .u32, .ro, .operator, 0x0, .c, 0, 4294967295, .none⟩,
    ⟨0x9050, 1, 0x40, 1, .u32, .rw, .firmware, 0x186A0, .c, 20000, 100000, .none⟩,
    ⟨0x9060, 1, 0x1, 1, .u32, .ro, .operator, 0x0, .c, 0, 4294967295, .none⟩,
    ⟨0x9060, 1, 0x2, 1, .u16, .rw, .operator, 0x0, .c, 0, 65535, .none⟩,
    ⟨0x9060, 1, 0x3, 1, .u32, .ro, .operator, 0x0, .w, 0, 4294967295, .none⟩,
    ⟨0x9060, 1, 0x40, 1, .u32, .rw, .operator, 0x186A0, .c, 50000, 300000, .none⟩,
    ⟨0x9061, 1, 0x1, 1, .u16, .rw, .operator, 0x0, .c, 0, 65535, .none⟩,
    ⟨0x9061, 1, 0x2, 1, (.octets 160), .rw, .operator, 0x0, .c, 0, 0, .none⟩,
    ⟨0x9100, 1, 0x1, 16, .u64, .rws, .tenant, 0x0, .v, 0, 18446744073709551615, .bySub⟩,
    ⟨0x9101, 1, 0x1, 16, .u16, .rws, .tenant, 0x0, .v, 0, 65535, .bySub⟩,
    ⟨0x9102, 1, 0x1, 16, .u16, .rws, .tenant, 0xFFFF, .v, 0, 65535, .bySub⟩,
    ⟨0x9103, 1, 0x1, 16, .u64, .rws, .tenant, 0x0, .v, 0, 18446744073709551615, .bySub⟩,
    ⟨0x9104, 1, 0x1, 16, .u8, .rw, .tenant, 0x32, .v, 1, 200, .bySub⟩,
    ⟨0x9105, 1, 0x1, 16, .u8, .wo, .tenant, 0x0, .f, 1, 4, .bySub⟩,
    ⟨0x9106, 1, 0x1, 16, .u16, .rws, .tenant, 0x0, .v, 0, 1024, .bySub⟩,
    ⟨0x9107, 1, 0x1, 16, .enum8, .ro, .tenant, 0x0, .v, 0, 255, .bySub⟩,
    ⟨0x9108, 1, 0x1, 16, .u32, .ro, .tenant, 0x0, .v, 0, 4294967295, .bySub⟩,
    ⟨0x9109, 1, 0x1, 16, .u32, .ro, .tenant, 0x0, .v, 0, 4294967295, .bySub⟩ ]

/-- Entries of the dictionary, part 9 (the entry tables of R38 to R494, R470). -/
def Dict.part9 : List Desc :=
  [ ⟨0x9200, 1, 0x1, 1, .u16, .rw, .operator, 0x5DC, .c, 0, 1980, .none⟩,
    ⟨0x9200, 1, 0x2, 1, .enum8, .ro, .operator, 0x0, .w, 0, 255, .none⟩,
    ⟨0x9200, 1, 0x3, 1, .bool, .wo, .operator, 0x0, .f, 0, 1, .none⟩,
    ⟨0x9201, 1, 0x1, 16, .enum8, .rw, .tenant, 0x0, .v, 0, 1, .bySub⟩,
    ⟨0xA000, 1, 0x1, 1, (.octets 64), .const, .tenant, 0x0, .f, 0, 0, .none⟩,
    ⟨0xA000, 1, 0x2, 1, (.octets 32), .ro, .tenant, 0x0, .c, 0, 0, .none⟩,
    ⟨0xA000, 1, 0x3, 1, .u32, .ro, .tenant, 0x0, .c, 0, 4294967295, .none⟩,
    ⟨0xA000, 1, 0x4, 1, .u8, .ro, .tenant, 0x0, .f, 0, 255, .none⟩,
    ⟨0xA000, 1, 0x5, 1, .enum8, .ro, .tenant, 0x0, .f, 0, 255, .none⟩,
    ⟨0xA001, 1, 0x1, 1, .u8, .wo, .operator, 0x0, .f, 1, 64, .none⟩,
    ⟨0xA001, 1, 0x2, 1, .u8, .wo, .operator, 0x0, .f, 0, 3, .none⟩,
    ⟨0xA001, 1, 0x3, 1, .bool, .wo, .operator, 0x0, .f, 1, 1, .none⟩,
    ⟨0xA010, 1, 0x1, 1, (.octets 32), .wo, .operator, 0x0, .f, 0, 0, .none⟩,
    ⟨0xA110, 1, 0x1, 16, (.octets 64), .wo, .tenant, 0x0, .f, 0, 0, .bySub⟩,
    ⟨0xA120, 1, 0x1, 1, (.octets 64), .wo, .operator, 0x0, .f, 0, 0, .none⟩,
    ⟨0xA200, 1, 0x1, 16, (.octets 48), .wo, .tenant, 0x0, .f, 0, 0, .bySub⟩,
    ⟨0xA201, 1, 0x1, 1, (.octets 48), .wo, .operator, 0x0, .f, 0, 0, .none⟩,
    ⟨0xA202, 1, 0x1, 17, .enum8, .ro, .tenant, 0x0, .v, 0, 255, .bySub⟩,
    ⟨0xB000, 1, 0x1, 1, .bool, .rw, .operator, 0x0, .c, 0, 1, .none⟩,
    ⟨0xB000, 1, 0x2, 1, .u8, .rw, .operator, 0x38, .c, 1, 64, .none⟩,
    ⟨0xB000, 1, 0x3, 1, .u32, .ro, .operator, 0x0, .w, 0, 4294967295, .none⟩,
    ⟨0xB001, 1, 0x1, 16, .enum8, .ro, .tenant, 0x0, .c, 0, 255, .bySub⟩,
    ⟨0xB002, 1, 0x1, 16, .bool, .wo, .tenant, 0x0, .f, 0, 1, .bySub⟩,
    ⟨0xB003, 1, 0x1, 16, .u8, .ro, .tenant, 0x0, .v, 0, 255, .bySub⟩,
    ⟨0xB010, 1, 0x1, 16, .u32, .ro, .tenant, 0x0, .v, 0, 4294967295, .bySub⟩,
    ⟨0xB100, 1, 0x1, 16, .u8, .rw, .operator, 0xFF, .c, 0, 255, .none⟩,
    ⟨0xB101, 1, 0x1, 16, .u8, .rw, .operator, 0xFF, .c, 0, 255, .none⟩,
    ⟨0xB102, 1, 0x1, 62, .u8, .rw, .operator, 0xFF, .c, 0, 255, .none⟩,
    ⟨0xB110, 8, 0x1, 16, .bits32, .rw, .operator, 0x0, .c, 0, 4294967295, .none⟩,
    ⟨0xB120, 8, 0x1, 16, .bits32, .rw, .operator, 0x0, .c, 0, 4294967295, .none⟩ ]

/-- Entries of the dictionary, part 10 (the entry tables of R38 to R494, R470). -/
def Dict.part10 : List Desc :=
  [ ⟨0xB130, 8, 0x1, 16, .bits32, .rw, .operator, 0x0, .c, 0, 4294967295, .none⟩,
    ⟨0xB140, 1, 0x1, 16, .bits32, .rw, .operator, 0x0, .c, 0, 4294967295, .none⟩,
    ⟨0xC000, 1, 0x1, 1, .u16, .const, .tenant, 0x1E5A, .f, 0, 65535, .none⟩,
    ⟨0xC000, 1, 0x2, 1, .u16, .const, .tenant, 0x25, .f, 0, 65535, .none⟩,
    ⟨0xC000, 1, 0x3, 1, .u16, .const, .tenant, 0x26, .f, 0, 65535, .none⟩,
    ⟨0xC000, 1, 0x4, 1, .u8, .const, .tenant, 0x8, .f, 0, 255, .none⟩,
    ⟨0xC000, 1, 0x5, 1, .u8, .const, .tenant, 0x40, .f, 0, 255, .none⟩,
    ⟨0xC001, 1, 0x1, 1, .u8, .ro, .operator, 0x0, .w, 0, 255, .none⟩,
    ⟨0xC001, 1, 0x2, 1, .u8, .ro, .operator, 0x0, .w, 0, 255, .none⟩,
    ⟨0xC010, 1, 0x1, 16, .u32, .ro, .tenant, 0x0, .v, 0, 4294967295, .bySub⟩,
    ⟨0xC011, 1, 0x1, 16, .u32, .ro, .tenant, 0x0, .v, 0, 4294967295, .bySub⟩,
    ⟨0xC100, 16, 0x1, 62, .enum8, .rws, .operator, 0x0, .v, 0, 2, .byIndex⟩ ]

/-- Every entry of the dictionary in index and subindex order (R421). -/
def Dict.table : List Desc :=
  Dict.part1 ++ Dict.part2 ++ Dict.part3 ++ Dict.part4 ++ Dict.part5 ++ Dict.part6 ++ Dict.part7 ++ Dict.part8 ++ Dict.part9 ++ Dict.part10

/-- An address lies in a row of a table. -/
def Desc.holds (d : Desc) (i s : Nat) : Bool :=
  Nat.ble d.index i && Nat.blt i (d.index + d.indices) && Nat.ble d.sub s && Nat.blt s (d.sub + d.subs)

/-- The row that holds an address, if one does. -/
def Dict.row (i s : Nat) : Option Desc := Dict.table.find? (fun d => d.holds i s)

/-- Subindex 0 of a function that is present: the highest subindex present in it (R403). -/
def Dict.highest (i : Nat) : Option Nat :=
  ((Dict.table.filter (fun d => Nat.ble d.index i && Nat.blt i (d.index + d.indices))).map
    (fun d => d.sub + d.subs - 1)).max?

/-- The row of an address with subindex 0 of a present function included as U8, CONST (R403). -/
def Dict.entry (i s : Nat) : Option Desc :=
  if s = 0 then (Dict.highest i).map (fun h => ⟨i, 1, 0, 1, .u8, .const, .tenant, h, .f, 0, 255, .none⟩)
  else if s = 0xFF then none else Dict.row i s

/-- Default of an entry (0 for an absent one). -/
def Dict.default (i s : Nat) : Nat := ((Dict.row i s).map (·.dflt)).getD 0

/-- Key of an entry in the state. -/
def dictKey (i s : Nat) : Nat := 256 * i + s

/-- The value of an entry whose home is the dictionary. -/
def Fab.dget (f : Fab) (i s : Nat) : Nat := (f.dict.find? (dictKey i s)).getD (Dict.default i s)

/-- The value of an RWS entry in force: that of the partition's last start (R406, R473). -/
def Fab.eff (f : Fab) (i s : Nat) : Nat := (f.inForce.find? (dictKey i s)).getD (Dict.default i s)

/-- The dictionary with an entry set. -/
def Fab.dset (f : Fab) (i s v : Nat) : Fab := { f with dict := f.dict.set (dictKey i s) v }

/-- Adds to a count that saturates at the greatest value of its width (a count of U32 or U64). DESIGN CHOICE (log 28). -/
def Fab.dadd (f : Fab) (i s n : Nat) : Fab :=
  f.dset i s (min (f.dget i s + n) (2 ^ (8 * (((Dict.row i s).map (fun d => d.ty.width)).getD 4)) - 1))

/-- Returns the entries of the retention classes that satisfy `p` and whose address satisfies `q` to their default
(R409). -/
def Fab.dclear (f : Fab) (p : Retention → Bool) (q : Nat → Nat → Bool) : Fab :=
  { f with dict := f.dict.filter (fun e =>
      match Dict.row (e.1 / 256) (e.1 % 256) with
      | some d => !(p d.ret && q (e.1 / 256) (e.1 % 256))
      | none => true) }

end Sys2Proof.Machine
end

