-- ==== Sys2Proof/Machine/Ops.lean ====
section
/-! DEFINITION. The named operations every meaning is made of: package memory (R187 to R208), the lifts from a change of
the device to an outcome, registers and clusters, events (R426 to R432), completions (R393 to R396), mailboxes (R398 to
R400), counters (R116 to R120), channels, codes, slots and the access of a block (R189, R194 to R213, R231 to R236), and
streams (R222 to R242). -/

namespace Sys2Proof.Machine

open Sys2Proof

/-! ### Memory -/

/-- What a byte that nothing has written reads as. DESIGN CHOICE (log 4). -/
def Memory.unlisted : Byte := 0

/-- The byte at an address. -/
def Memory.read : List Host.Cell → Nat → Byte
  | [], _ => Memory.unlisted
  | (b, v) :: r, a => if b = a then v else Memory.read r a

/-- A list with a cell put in at its place among rising addresses. -/
def Memory.insert (a : Nat) (v : Byte) : List Host.Cell → List Host.Cell
  | [] => [(a, v)]
  | (b, w) :: r => if a < b then (a, v) :: (b, w) :: r else (b, w) :: Memory.insert a v r

/-- The memory with one byte written: the old cell goes, and a cell comes unless the byte reads as an unlisted one. -/
def Memory.write (m : List Host.Cell) (a : Nat) (v : Byte) : List Host.Cell :=
  let r := m.filter (fun c => c.1 != a)
  if v = Memory.unlisted then r else Memory.insert a v r

/-- The memory with the bytes of [lo, lo + n) zero. -/
def Memory.zero (m : List Host.Cell) (lo n : Nat) : List Host.Cell :=
  m.filter (fun c => !(Nat.ble lo c.1 && Nat.blt c.1 (lo + n)))

/-- Canonical form: strictly rising addresses, no byte equal to an unlisted one. -/
def Memory.wf : List Host.Cell → Bool
  | [] => true
  | [(_, v)] => v != Memory.unlisted
  | (a, v) :: (b, w) :: r => v != Memory.unlisted && Nat.blt a b && Memory.wf ((b, w) :: r)

/-- One change of memory. -/
inductive MemOp
  | put (a : Nat) (v : Byte)
  | zero (lo n : Nat)
  deriving DecidableEq, Repr

/-- A change applied. -/
def MemOp.apply (m : List Host.Cell) : MemOp → List Host.Cell
  | .put a v => Memory.write m a v
  | .zero lo n => Memory.zero m lo n

/-- Changes listed newest first, applied oldest first. -/
def MemOp.applyAll (m : List Host.Cell) : List MemOp → List Host.Cell
  | [] => m
  | o :: r => o.apply (MemOp.applyAll m r)

/-- The byte at an address after changes listed newest first. -/
def MemOp.read (m : List Host.Cell) : List MemOp → Nat → Byte
  | [], a => Memory.read m a
  | .put b v :: r, a => if b = a then v else MemOp.read m r a
  | .zero lo n :: r, a => if lo ≤ a ∧ a < lo + n then Memory.unlisted else MemOp.read m r a

/-! ### Lifts

A meaning is a change of a `W`: the memory it found, the changes of memory it has made, the security block and the rest of
the device. The lifts let through what the command may change, so that a frame is seen from the lift alone. -/

/-- The state a meaning works on, with what its accesses came to: one that cannot be made now, so that the command waits and changes
nothing (R22, R25, R235, R236), the uncorrectable lines met on the way, whose contexts end once the command has had its
effect: partition and address (R206), and the adder faults that the command tells (R323). -/
structure W where
  mem : List Host.Cell
  out : List MemOp
  sec : Sec
  fab : Fab
  waits : Bool
  faults : List (Nat × Nat)
  struck : List Nat := []
  deriving DecidableEq, Repr

/-- The work on a state, before any change. -/
def W.of (s : State) : W := ⟨s.mem, [], s.sec, s.fab, false, [], []⟩

/-- A command that changes neither memory nor the security block. Without running firmware it finds no device to act on.
DESIGN CHOICE (log 18). -/
def onFab (s : State) (f : Fab → Fab) : Host.Outcome State Fault Refusal :=
  .next (if s.fab.phase = .running then { s with fab := f s.fab } else s)

/-- A host access to the device's functions: it needs the PCIe link (R386, R393, R500). DESIGN CHOICE (log 19). -/
def onHost (s : State) (f : Fab → Fab) : Host.Outcome State Fault Refusal :=
  onFab s (fun g => if g.inPins.linkUp then f g else g)

/-- A command that reads memory or the security block and changes neither. -/
def onRead (s : State) (f : W → Fab) : Host.Outcome State Fault Refusal :=
  .next (if s.fab.phase = .running then { s with fab := f (W.of s) } else s)

/-- A change of the device within the work. -/
def W.map (w : W) (g : Fab → Fab) : W := { w with fab := g w.fab }

/-- The stored byte at an address, as the work has it. -/
def W.byte (w : W) (a : Nat) : Byte := MemOp.read w.mem w.out a

/-- One byte stored. -/
def W.put (w : W) (a : Nat) (v : Byte) : W := { w with out := .put a v :: w.out }

/-- Bytes stored from an address on. -/
def W.puts (w : W) (a : Nat) : List Byte → W
  | [] => w
  | b :: r => (w.put a b).puts (a + 1) r

/-! ### Time and small lists -/

/-- The global timestamp in ns (R426): the model's clock at 1.9 GHz (R8). DESIGN CHOICE (logs 2, 68). -/
def Fab.now (f : Fab) : Nat := (f.timeBase + f.cycle * 10 / 19) % 2 ^ 64

/-- Nanoseconds as cycles, rounded up. -/
def nsCycles (ns : Nat) : Nat := (ns * 19 + 9) / 10

/-- The first element that satisfies `p` replaced. -/
def updateFirst {α : Type} (p : α → Bool) (g : α → α) : List α → List α
  | [] => []
  | a :: r => if p a then g a :: r else a :: updateFirst p g r

/-- The first element that satisfies `p` removed. -/
def removeFirst {α : Type} (p : α → Bool) : List α → List α
  | [] => []
  | a :: r => if p a then r else a :: removeFirst p r

/-- A bit of a number. -/
def bit (v i : Nat) : Bool := v / 2 ^ i % 2 = 1

/-- A number with a bit set or cleared. -/
def setBit (v i : Nat) (b : Bool) : Nat := if bit v i = b then v else if b then v + 2 ^ i else v - 2 ^ i

/-- The numbers below `n` whose bit is set. -/
def bitsSet (v n : Nat) : List Nat := (List.range n).filter (bit v)

/-! ### Places -/

/-- First package address of the Well of a cluster (R187). -/
def wellBase (c : Nat) : Nat := 0x10000000 + c * 0x100000

/-- First package address of the Inkwell of a base die (R187). -/
def inkwellBase (b : Nat) : Nat := 0x100000000 + b * 0x20000000

/-- First package address of LPDDR5X slice b (R187). -/
def lpddrBase (b : Nat) : Nat := 0x10000000000 + b * 0x8000000000

/-- Where a package address lies (Table "Package address map", R187). -/
inductive Place
  | well (cluster offset : Nat)
  | inkwell (die offset : Nat)
  | lpddr (slice offset : Nat)
  | outside
  deriving DecidableEq, Repr

/-- A granule is withdrawn (R210). -/
def Fab.granuleGone (f : Fab) (g : Nat) : Bool := bit (f.dget 0x3010 1) g

/-- A slice is offline (R210). -/
def Fab.sliceGone (f : Fab) (b : Nat) : Bool := f.dget 0x3012 (b + 1) = 5

/-- The place of a package address as seen from cluster `own` (R187, R198, R210). -/
def Fab.locate (f : Fab) (own : Option Nat) (a : Nat) : Place :=
  if a < 0x100000 then
    match own with
    | some c => .well c a
    | none => .outside
  else if 0x10000000 ≤ a ∧ a < 0x10000000 + 800 * 0x100000 then
    .well ((a - 0x10000000) / 0x100000) ((a - 0x10000000) % 0x100000)
  else if 0x100000000 ≤ a ∧ a < 0x200000000 then
    .inkwell ((a - 0x100000000) / 0x20000000) ((a - 0x100000000) % 0x20000000)
  else if 0x10000000000 ≤ a ∧ a < 0x10000000000 + 8 * 0x8000000000 then
    let b := (a - 0x10000000000) / 0x8000000000
    let o := (a - 0x10000000000) % 0x8000000000
    if 0x7C00000000 ≤ o ∨ f.granuleGone (o / 2 ^ 33) ∨ f.sliceGone b then .outside else .lpddr b o
  else .outside

/-- Base die of a cluster: the die its compute die rides on, or the die that holds it (R14, R17). -/
def baseDieOf (c : Nat) : Nat := if c < 768 then c / 96 else (c - 768) / 4

/-- Region of a cluster: 0 to 95 for a Broad cluster, 96 to 111 for a Fine pair (R17, R116). -/
def regionOf (c : Nat) : Nat := if c < 768 then c / 8 else 96 + (c - 768) / 2

/-- A Broad cluster (R17). -/
def isBroad (c : Nat) : Bool := Nat.blt c 768

/-- Die number and source unit of a cluster (Tables "Die numbers" and "Source units"). -/
def sourceOf (c : Nat) : Nat × Nat := if c < 768 then (c / 48, c % 48) else (16 + (c - 768) / 4, (c - 768) % 4)

/-- Owner byte of a cluster's unit in the partition map: 0 to 15, 0xFF for none (R470). -/
def Fab.clusterOwner (f : Fab) (c : Nat) : Nat :=
  if c < 768 then f.dget 0xB100 (c / 48 + 1) else f.dget 0xB101 ((c - 768) / 2 + 1)

/-- Partition p's range on base die b under a map index: first unit and count (R470). -/
def Fab.mapRange (f : Fab) (idx b p : Nat) : Nat × Nat :=
  let v := f.dget (idx + b) (p + 1)
  if idx = 0xB110 then (bitsOf v 8 0, bitsOf v 25 16)
  else if idx = 0xB120 then (bitsOf v 7 0, bitsOf v 24 16)
  else (bitsOf v 5 0, bitsOf v 22 16)

/-- The partitions. -/
def partitions : List Nat := List.range 16

/-- Owner of an Inkwell unit of base die b (R189). -/
def Fab.inkwellOwner (f : Fab) (b u : Nat) : Nat :=
  (partitions.find? (fun p => let r := f.mapRange 0xB110 b p; Nat.ble r.1 u && Nat.blt u (r.1 + r.2))).getD 0xFF

/-- Owner of a place: of the Inkwell unit, the granule or the cluster (R189, R470). DEDUCED (log 30). -/
def Fab.placeOwner (f : Fab) : Place → Nat
  | .well c _ => f.clusterOwner c
  | .inkwell b o => f.inkwellOwner b (o / 2 ^ 20)
  | .lpddr _ o => f.dget 0xB102 (o / 2 ^ 33 + 1)
  | .outside => 0xFF

/-- Canonical package address of a place. -/
def Place.addr : Place → Nat
  | .well c o => wellBase c + o
  | .inkwell b o => inkwellBase b + o
  | .lpddr b o => lpddrBase b + o
  | .outside => 0

/-- Base die that serves a place, as a die number (R14). -/
def Place.die : Place → Nat
  | .well c _ => if c < 768 then c / 48 else 16 + (c - 768) / 4
  | .inkwell b _ | .lpddr b _ => 16 + b
  | .outside => 0

/-- The addresses at which a range is checked: its start and every boundary of 1 MiB in it, the unit of Inkwell ownership
(R189). DEDUCED (log 30). -/
def checkpoints (a n : Nat) : List Nat :=
  if n = 0 then [] else (List.range ((a + n - 1) / 2 ^ 20 - a / 2 ^ 20 + 1)).map (fun k => if k = 0 then a else (a / 2 ^ 20 + k) * 2 ^ 20)

/-- Every byte of [a, a + n) lies in the Inkwell or LPDDR5X windows of partition p (R188, R219, R223): the range is tested
at its ends and at every boundary of 1 MiB between them, the unit of Inkwell ownership. DEDUCED (log 30). -/
def Fab.inWindows (f : Fab) (p a n : Nat) : Bool :=
  (checkpoints a n).all (fun x =>
    match f.locate none x with
    | .inkwell b o => f.placeOwner (.inkwell b o) = p
    | .lpddr b o => f.placeOwner (.lpddr b o) = p
    | _ => false)

/-- The AES block of 16 bytes that an address lies in, as stored. -/
def W.block (w : W) (a : Nat) : BitVec 128 :=
  BitVec.ofNat 128 (leNat ((List.range 16).map (fun i => w.byte (a / 16 * 16 + i))))

/-- Channel and data line of a slice offset before any retirement (`lpddr_locate`, R198). -/
def plainLine (o : Nat) : Nat × Nat :=
  let l := o / 64
  ((bitsOf l 6 2 ^^^ bitsOf l 11 7) ^^^ bitsOf l 16 12, l / 128 * 4 + bitsOf l 1 0)

/-- A fill covers a line: it lies in its range, and on its channel if it names one (R212, R475). -/
def Fill.covers (x : Fill) (l : Nat) : Bool :=
  Nat.ble x.base (64 * l) && Nat.blt (64 * l) (x.base + x.length) &&
  match x.channel with
  | some c => (plainLine (64 * l - lpddrBase 0)).1 == c
  | none => true

/-- Key number that a line is held under, none where it is held under none: of its last write, or of the last fill (R202, R475). -/
def Fab.keyOf (f : Fab) (l : Nat) : Option Nat :=
  match f.lineKey.find? l with
  | some k => some k
  | none => (f.fills.find? (fun x => x.covers l)).map (·.key)

/-- What a block of a line that was encrypted under one key decrypts to under another: the tweak is the address shifted right
by 6, and the line has four blocks (R202, R204). DESIGN CHOICE (log 12). -/
def crossKey (old new a : Nat) (x : BitVec 128) : BitVec 128 :=
  Config.xtsDecrypt (Config.keyPair new) (a / 64) (a % 64 / 16) (Config.xtsEncrypt (Config.keyPair old) (a / 64) (a % 64 / 16) x)

/-- A byte as a read under partition p delivers it: an LPDDR5X line decrypts under p's key (R202, R204).
DESIGN CHOICE (log 12). -/
def W.load (w : W) (p a : Nat) : Byte :=
  if a / 64 * 64 < 0x10000000000 then w.byte a else
  match w.fab.keyOf (a / 64) with
  | some k =>
    if k = w.sec.keys.get 0 p then w.byte a
    else BitVec.ofNat 8 ((crossKey k (w.sec.keys.get 0 p) a (w.block a)).toNat / 2 ^ (8 * (a % 16)))
  | none => w.byte a

/-- `n` bytes as a read under partition p delivers them. -/
def W.loads (w : W) (p a n : Nat) : List Byte := (List.range n).map (fun i => w.load p (a + i))

/-- A little-endian value of n bytes. -/
def W.loadNat (w : W) (p a n : Nat) : Nat := leNat (w.loads p a n)

/-- The lines of 64 bytes a range touches. -/
def linesOf (a n : Nat) : List Nat := if n = 0 then [] else (List.range ((a + n - 1) / 64 - a / 64 + 1)).map (· + a / 64)

/-- One line made ready for a write under partition p: an LPDDR5X line held under another key is decrypted under p's key,
as the merge of R200 reads it, and is then held under p's key. DESIGN CHOICE (log 12). -/
def W.rekey (w : W) (p l : Nat) : W :=
  if l * 64 < 0x10000000000 then w else
  let key := w.sec.keys.get 0 p
  let w' := match w.fab.keyOf l with
    | some k => if k = key then w else w.puts (l * 64) (w.loads p (l * 64) 64)
    | none => w
  w'.map (fun f => { f with lineKey := f.lineKey.set l key })

/-- Noivos of a partition. -/
def Fab.noivosOf (f : Fab) (p : Nat) : Noivos := f.noivos.get .none p

/-- The targets of Noivos that a partition has: 0 local, 1 remote, with their endpoint indexes (R437). -/
def Fab.noivosTargets (f : Fab) (p : Nat) : List (Nat × Nat) :=
  (0, f.eff 0x9101 (p + 1)) :: (if f.eff 0x9102 (p + 1) = 0xFFFF then [] else [(1, f.eff 0x9102 (p + 1))])

/-- Offset of a page of an area in a copy of its target (R437). -/
def Noivos.offset (v : Noivos) (page copy stride : Nat) : Nat :=
  match v.areas.find? (fun a => Nat.ble a.1 (page * 65536) && Nat.blt (page * 65536) (a.1 + a.2.1)) with
  | Option.some a => a.2.2 + copy * stride + (page * 65536 - a.1)
  | Option.none => 0

/-- A range filled with zeros, under key `key` in LPDDR5X (0: under none): what lay there goes, with its errors (R202, R208, R212,
R475). -/
def W.zero (w : W) (a n : Nat) (key : Nat := 0) : W :=
  let gone := fun (l : Nat) => Nat.ble a (l * 64) && Nat.blt (l * 64) (a + n)
  let under := fun (x : Fill) => Nat.ble a x.base && Nat.ble (x.base + x.length) (a + n)
  { w with
    out := .zero a n :: w.out,
    fab := { w.fab with
      lineKey := w.fab.lineKey.clear gone,
      fills := (if key = 0 then [] else [⟨a, n, none, key⟩]) ++ w.fab.fills.filter (fun x => !under x),
      badLines := w.fab.badLines.filter (fun l => !gone l),
      softLines := w.fab.softLines.filter (fun l => !gone l),
      wellFaults := w.fab.wellFaults.clear (fun k => Nat.ble a (8 * k) && Nat.blt (8 * k) (a + n)) } }

/-- A range filled with zeros for partition p, under its key (R202, R212, R475). -/
def W.zeroFor (w : W) (p a n : Nat) : W := w.zero a n (w.sec.keys.get 0 p)

/-! ### Wells -/

/-- A row of 64 bytes of a cluster's Well. -/
def W.wellBytes (w : W) (c off n : Nat) : List Byte := (List.range n).map (fun i => w.byte (wellBase c + off + i))

/-- The scale tag of a Well row (R78, R190). -/
def Fab.tag (f : Fab) (c row : Nat) : W32 := f.tags.get 0 (16384 * c + row)

/-- A tag with byte b replaced. -/
def tagWith (t : W32) (b v : Nat) : W32 :=
  BitVec.ofNat 32 (t.toNat - tagByte t b * 2 ^ (8 * b) + v % 256 * 2 ^ (8 * b))

/-! ### Clusters and strands -/

/-- A cluster. -/
def Fab.cluster (f : Fab) (c : Nat) : Cluster := f.clusters.get .idleReset c

/-- A cluster changed. -/
def Fab.onCluster (f : Fab) (c : Nat) (g : Cluster → Cluster) : Fab :=
  { f with clusters := f.clusters.set c (g (f.cluster c)) }

/-- A clock island (R453). -/
def Fab.island (f : Fab) (i : Nat) : Island := f.islands.get .onA i

/-- State S1 leaves an island without power: all but the Rubric management and PCIe islands (R459). -/
def Fab.unpowered (f : Fab) (i : Nat) : Bool := f.dget 0x2040 1 == 2 && Nat.blt i 944

/-- An island does nothing: it is in its safe state, or has no power (R25, R456, R459). DEDUCED (log 73). -/
def Fab.halts (f : Fab) (i : Nat) : Bool := (f.island i).safe || f.unpowered i

/-- Nothing holds back an access: every island is as after reset, no transaction is in flight and the device is not in S1. -/
def Fab.calm (f : Fab) : Bool := f.islands.isEmpty && f.txns.isEmpty && f.dget 0x2040 1 != 2

/-- A clock island changed. -/
def Fab.onIsland (f : Fab) (i : Nat) (g : Island → Island) : Fab := { f with islands := f.islands.set i (g (f.island i)) }

/-- A strand of a cluster. -/
def Cluster.strand (cl : Cluster) (k : Nat) : Strand := cl.strands.get .idleReset k

/-- A strand changed. -/
def Cluster.onStrand (cl : Cluster) (k : Nat) (g : Strand → Strand) : Cluster :=
  { cl with strands := cl.strands.set k (g (cl.strand k)) }

/-- A strand of the device. -/
def Fab.strand (f : Fab) (c k : Nat) : Strand := (f.cluster c).strand k

/-- A strand of the device changed. -/
def Fab.onStrand (f : Fab) (c k : Nat) (g : Strand → Strand) : Fab := f.onCluster c (fun cl => cl.onStrand k g)

/-- An s register. -/
def Strand.sreg (t : Strand) (r : Nat) : Word := t.s.get 0 r

/-- An a register. -/
def Strand.areg (t : Strand) (r : Nat) : Word := t.a.get 0 r

/-- A p register; p0 reads 1 (R101). -/
def Strand.preg (t : Strand) (r : Nat) : Bool := if r = 0 then true else t.p.get false r

/-- A t register. -/
def Strand.treg (t : Strand) (r : Nat) : Word := t.t.get 0 r

/-- The stored fields of a q register (R104). -/
def Strand.qreg (t : Strand) (r : Nat) : Word := t.q.get 0 r

/-- An s register written. -/
def Strand.setS (t : Strand) (r : Nat) (v : Word) : Strand := { t with s := t.s.set r v }

/-- An a register written. -/
def Strand.setA (t : Strand) (r : Nat) (v : Word) : Strand := { t with a := t.a.set r v }

/-- A p register written; a write to p0 is ignored (R101). -/
def Strand.setP (t : Strand) (r : Nat) (v : Bool) : Strand := if r = 0 then t else { t with p := t.p.set r v }

/-- A t register written. -/
def Strand.setT (t : Strand) (r : Nat) (v : Word) : Strand := { t with t := t.t.set r v }

/-- The stored fields of a q register written. -/
def Strand.setQ (t : Strand) (r : Nat) (v : Word) : Strand := { t with q := t.q.set r v }

/-- The program counter moved to the next instruction. -/
def Strand.advance (t : Strand) : Strand := { t with pc := t.pc + 1 }

/-- Partition of the launch on a cluster (R129). -/
def Fab.partitionOf (f : Fab) (c : Nat) : Nat := f.clusterOwner c

/-! ### Events -/

/-- Class of an event code (Table "Event codes", R429): 0 trace, 1 log, 2 alarm. -/
def eventClass (code : Nat) : Nat :=
  if [0x0201, 0x0307].contains code then 0
  else if [0x0101, 0x0103, 0x0206, 0x0207, 0x0302, 0x0401, 0x0403, 0x0404, 0x0501, 0x0502, 0x0602, 0x0606, 0x0607,
    0x0609, 0x06FE].contains code then 1
  else 2

/-- The 384 bits of an event record (Table "Event record", R428). -/
def EventRec.bits (r : EventRec) : Nat :=
  r.timestamp % 2 ^ 64 * 2 ^ 320 + r.source % 2 ^ 16 * 2 ^ 304 + r.code % 2 ^ 16 * 2 ^ 288 + r.cls % 4 * 2 ^ 286 +
  (if r.coalesced then 2 ^ 285 else 0) + (if r.synchronised then 2 ^ 284 else 0) +
  (match r.partition with | some p => 2 ^ 283 + p % 16 * 2 ^ 279 | none => 0) +
  r.sequence % 256 * 2 ^ 264 + r.count % 2 ^ 32 * 2 ^ 232 + r.detailA % 2 ^ 64 * 2 ^ 128 +
  r.detailB % 2 ^ 64 * 2 ^ 64 + r.lastTimestamp % 2 ^ 64

/-- `fold(q, r)` of R431. -/
def EventRec.fold (q r : EventRec) : EventRec :=
  { q with
    coalesced := true, count := min (q.count + r.count) 0xFFFFFFFF, lastTimestamp := r.lastTimestamp,
    detailA := r.detailA, detailB := r.detailB }

/-- An alarm folded into a path's overflow record: its Detail A names the last alarm folded (R431, R429). -/
def EventPath.foldOverflow (q : EventPath) (r : EventRec) : EventPath :=
  let base : EventRec := (q.overflow).getD
    { r with source := 0xFFFF, code := 0x06FF, cls := 2, coalesced := false, count := 0, partition := none, sequence := q.folds % 256 }
  { q with overflow := some { base.fold r with detailA := r.source * 65536 + r.code, detailB := 0 } }

/-- A discard counted by a path (R431). -/
def EventPath.discard (q : EventPath) (r : EventRec) (now : Nat) : EventPath :=
  let first := if q.traces + q.logs = 0 then now else q.firstDrop
  if r.cls = 0 then { q with traces := q.traces + 1, firstDrop := first }
  else { q with logs := q.logs + 1, firstDrop := first }

/-- The oldest record of a class taken out of a queue. -/
def dropOldest (cls : Nat) (q : List EventRec) : List EventRec := removeFirst (fun r => r.cls == cls) q

/-- The newest record that satisfies `p`, folded with `r`. -/
def foldNewest (p : EventRec → Bool) (r : EventRec) (q : List EventRec) : List EventRec :=
  (updateFirst p (·.fold r) q.reverse).reverse

/-- A record put into a queue: behind what is there, but before records of the same instant from higher source numbers (R427). -/
def insertRec (r : EventRec) : List EventRec → List EventRec
  | [] => [r]
  | x :: l => if x.timestamp = r.timestamp ∧ r.source < x.source then r :: x :: l else x :: insertRec r l

/-- `arrive(path, r)` of R431 on a path of `cap` places; the second result is what was discarded (traces, logs, folds). -/
def EventPath.arrive (q : EventPath) (cap now : Nat) (r : EventRec) : EventPath × (Nat × Nat × Nat) :=
  if q.queue.length < cap then ({ q with queue := insertRec r q.queue }, (0, 0, 0))
  else if q.queue.any (fun x => x.cls == 0) then
    ({ (q.discard { r with cls := 0 } now) with queue := insertRec r (dropOldest 0 q.queue) }, (1, 0, 0))
  else if r.cls = 0 then (q.discard r now, (1, 0, 0))
  else if q.queue.any (fun x => x.cls == 1) then
    ({ (q.discard { r with cls := 1 } now) with queue := insertRec r (dropOldest 1 q.queue) }, (0, 1, 0))
  else if r.cls = 1 then (q.discard r now, (0, 1, 0))
  else
    let same := fun (x : EventRec) => x.cls == 2 && x.source == r.source && x.code == r.code
    if q.queue.any same then ({ q with queue := foldNewest same r q.queue }, (0, 0, 1))
    else (q.foldOverflow r, (0, 0, 1))

/-- A free place taken by what waits for one (R432): the overflow record after a DROP record; else a DROP record where records have been
discarded; else the overflow record. `part` is the tenant path's partition. -/
def EventPath.place (cap now source : Nat) (part : Option Nat) (sync : Bool) (q : EventPath) : EventPath :=
  let drop : EventRec :=
    { timestamp := q.firstDrop, source := source, code := 0x06FE, cls := 1, coalesced := false,
      synchronised := sync, partition := part, sequence := q.drops % 256, count := 1, detailA := q.traces,
      detailB := q.logs, lastTimestamp := now }
  let full := q.overflow.filter (fun _ => q.due || q.traces + q.logs == 0)
  if cap ≤ q.queue.length then q
  else match full with
    | some r => { q with queue := q.queue ++ [r], overflow := none, folds := q.folds + 1, due := false }
    | none =>
      if 0 < q.traces + q.logs then
        { q with queue := q.queue ++ [drop], traces := 0, logs := 0, drops := q.drops + 1, due := q.overflow.isSome }
      else q

/-- The DROP and overflow records of a path placed, as far as there are places (R432). -/
def EventPath.settle (q : EventPath) (cap now source : Nat) (part : Option Nat) (sync : Bool) : EventPath :=
  let place := EventPath.place cap now source part sync
  place (place (place q))

/-- The device-wide counts of R431. -/
def Fab.countDrops (f : Fab) (d : Nat × Nat × Nat) : Fab :=
  let f1 := if d.1 = 0 then f else f.dadd 0x9030 1 d.1
  let f2 := if d.2.1 = 0 then f1 else f1.dadd 0x9030 2 d.2.1
  if d.2.2 = 0 then f2 else f2.dadd 0x9030 3 d.2.2

/-! ### Mailboxes and MSI-X -/

/-- A mailbox of a partition. -/
def Fab.mailbox (f : Fab) (p m : Nat) : Mailbox := f.mailboxes.get .empty (64 * p + m)

/-- A mailbox set. -/
def Fab.setMailbox (f : Fab) (p m : Nat) (b : Mailbox) : Fab := { f with mailboxes := f.mailboxes.set (64 * p + m) b }

/-- Receiver of a mailbox (R397). -/
def Fab.receiver (f : Fab) (p m : Nat) : Party :=
  if m = 0 then .firmware
  else if m = 1 then .vf
  else match f.eff (0xC100 + p) (m - 1) with
    | 0 => .vf
    | 1 => .pf
    | _ => .firmware

/-- Key of a party in a mailbox's send control. -/
def partyKey : Party → Nat
  | .pf => 0
  | .vf => 1
  | .firmware => 2

/-- MSI-X vector of a host party: function number and vector (R384, R392, R399). -/
def Fab.interrupt (f : Fab) (who : Party) (p vector : Nat) : Fab :=
  match who with
  | .pf => { f with interrupts := f.interrupts ++ [(0, vector)] }
  | .vf => { f with interrupts := f.interrupts ++ [(p + 1, vector)] }
  | .firmware => f

/-- Sender stamp (Table "Sender stamp", R398): the device index, the partition and the function. -/
def Fab.stamp (f : Fab) (who : Party) (p : Nat) : W32 :=
  let device := if f.eff 0x5050 1 > 1 then f.eff 0x5050 2 else 0
  let function := match who with | .pf => 0 | .vf => p + 1 | .firmware => 0xFE
  BitVec.ofNat 32 (device * 4096 + p * 256 + function)

/-- Lands the next waiting message in an empty slot and raises vector 2 of a host receiver (R398, R399). -/
def Fab.land (f : Fab) (p m : Nat) : Fab :=
  let b := f.mailbox p m
  match b.slot, b.waiting with
  | none, x :: r => (f.setMailbox p m { b with slot := some x, waiting := r }).interrupt (f.receiver p m) p 2
  | _, _ => f

/-- Send control of a sender of a mailbox. -/
def Mailbox.ctl (b : Mailbox) (who : Party) : SendCtl := b.control.get ⟨0, false⟩ (partyKey who)

/-- A send control set. -/
def Mailbox.setCtl (b : Mailbox) (who : Party) (c : SendCtl) : Mailbox := { b with control := b.control.set (partyKey who) c }

/-- The sender has a message in the slot or waiting. -/
def Mailbox.holds (b : Mailbox) (who : Party) : Bool :=
  (match b.slot with | some x => x.1 = who | none => false) || b.waiting.any (fun x => x.1 = who)

/-- A send (R398): a second message of a sender is ignored and sets [2]; another is stamped and queued. -/
def Fab.send (f : Fab) (who : Party) (p m : Nat) (msg : BitVec 512) : Fab :=
  let b := f.mailbox p m
  if b.holds who then f.setMailbox p m (b.setCtl who { b.ctl who with ignored := true })
  else
    (f.setMailbox p m { (b.setCtl who ⟨1, false⟩) with waiting := b.waiting ++ [(who, f.stamp who p, msg)] }).land p m

/-! ### Frames -/

/-- The 128 header bits of a Rinay frame (Table "Rinay header", R410). -/
def frameHeader (r : Frame) : Nat :=
  r.version % 16 * 2 ^ 124 + r.kind % 16 * 2 ^ 120 + r.status % 256 * 2 ^ 112 + r.requestId % 65536 * 2 ^ 96 +
  r.index % 65536 * 2 ^ 80 + r.subindex % 256 * 2 ^ 72 + r.device % 4 * 2 ^ 70 + r.reply % 64 * 2 ^ 64 +
  r.offset % 65536 * 2 ^ 48 + r.length % 128 * 2 ^ 41 + (if r.last then 2 ^ 40 else 0) + r.type % 256 * 2 ^ 32 +
  r.sequence % 2 ^ 32

/-- A frame as a mailbox message: its 64 bytes in network order, byte 0 at the lowest address (R9, R415). -/
def frameMessage (r : Frame) : BitVec 512 :=
  BitVec.ofNat 512 (leNat (beBytes 16 (frameHeader r) ++ r.payload ++ List.replicate (48 - r.payload.length) 0))

/-- A NOTIFY frame that carries an event record (R430). -/
def EventRec.notify (r : EventRec) (reply requestId : Nat) : Frame :=
  { version := 1, kind := 4, status := 0, requestId := requestId % 65536, index := 0x9000, subindex := 0, device := 0,
    reply := reply, offset := 0, length := 48, last := true, type := 0, sequence := 0, payload := beBytes 48 r.bits }

/-- The firmware's sending place of mailbox 1 is free. -/
def Fab.mailboxOneFree (f : Fab) (p : Nat) : Bool := !(f.mailbox p 1).holds .firmware

/-- The tenant path of partition p sends its oldest record as a NOTIFY to mailbox 1 when none of the firmware's messages
waits there (R430, R398). -/
def Fab.notifyTenant (f : Fab) (p : Nat) : Fab :=
  let q := f.tenantPaths.get .empty p
  match q.queue with
  | r :: rest =>
    if f.mailboxOneFree p then
      let q' := ({ q with queue := rest, frames := q.frames + 1 }).settle 64 f.now (0x0030 + p) (some p)
        (f.dget 0x5030 4 = 2)
      ({ f with tenantPaths := f.tenantPaths.set p q' }).send .firmware p 1 (frameMessage (r.notify 1 q.frames))
    else f
  | [] => f

/-- A record delivered to the event log if its classes select it (R430). -/
def Fab.toLog (f : Fab) (r : EventRec) : Fab :=
  if bit (f.dget 0x9001 4) r.cls then
    let x := f.log.arrive 4096 f.now r
    ({ f with log := x.1 }).countDrops x.2
  else f

/-- A record delivered to the queue of a subscriber that selects it (R430, R431). DESIGN CHOICE (log 16). -/
def Fab.toSubscriber (f : Fab) (r : EventRec) (s : Nat) : Fab :=
  let i := 0x9010 + s
  if f.dget i 6 = 1 ∧ bit (f.dget i 3) r.cls ∧ f.dget i 4 ≤ r.source ∧ r.source ≤ f.dget i 5 then
    let x := (f.subscribers.get .empty s).arrive 256 f.now r
    ({ f with subscribers := f.subscribers.set s x.1 }).countDrops x.2
  else f

/-- The tag of a frame under a key: over the source address, the header and the payload (R413). -/
def frameTag (key address : Nat) (fr : Frame) : Nat :=
  Config.kmac256 key (beBytes 16 address ++ beBytes 16 (frameHeader fr) ++ fr.payload)

/-- A subscriber is sent its oldest record as one NOTIFY frame, tagged under the management key from the device's address
(R413, R430, R432). DESIGN CHOICE (log 16). -/
def Fab.notifySubscriber (key address : Nat) (f : Fab) (s : Nat) : Fab :=
  let q := f.subscribers.get .empty s
  match q.queue with
  | r :: rest =>
    let fr := r.notify 0 q.frames
    { f with
      subscribers := f.subscribers.set s
        (({ q with queue := rest, frames := q.frames + 1 }).settle 256 f.now (0x0028 + s) none (f.dget 0x5030 4 = 2)),
      netOut := f.netOut ++ [.rinay (f.dget (0x9010 + s) 1) (f.dget (0x9010 + s) 2) fr (frameTag key address fr)] }
  | [] => f

/-- A record delivered to the tenant path of its partition if its classes select it (R430). -/
def Fab.toTenant (f : Fab) (r : EventRec) : Fab :=
  match r.partition with
  | some p =>
    if bit (f.dget 0x9020 (p + 1)) r.cls then
      let q := f.tenantPaths.get .empty p
      let x := q.arrive 64 f.now r
      (({ f with tenantPaths := f.tenantPaths.set p x.1 }).countDrops x.2).notifyTenant p
    else f
  | none => f

/-- An event raised by a source (R426 to R430). DESIGN CHOICE (log 16). -/
def Fab.raise (f : Fab) (source code : Nat) (partition : Option Nat) (a b : Nat) : Fab :=
  let r : EventRec :=
    { timestamp := f.now, source := source, code := code, cls := eventClass code, coalesced := false,
      synchronised := f.dget 0x5030 4 = 2, partition := partition, sequence := f.sourceSeq.get 0 source % 256, count := 1,
      detailA := a, detailB := b, lastTimestamp := f.now }
  let f1 := { f with sourceSeq := f.sourceSeq.set source ((f.sourceSeq.get 0 source + 1) % 256) }
  ((List.range 8).foldl (fun g s => g.toSubscriber r s) (f1.toLog r)).toTenant r

/-- Source number of a cluster. -/
def srcCluster (c : Nat) : Nat := 0x0100 + c

/-- Source number of a unit of a base die. -/
def srcBase (b u : Nat) : Nat := 0x0500 + 16 * b + u

/-- Source number of a partition's functions. -/
def srcPartition (p : Nat) : Nat := 0x0900 + p

/-! ### Completions -/

/-- A virtual function. -/
def Fab.vf (f : Fab) (p : Nat) : Vf := f.vfs.get .reset p

/-- A virtual function changed. -/
def Fab.onVf (f : Fab) (p : Nat) (g : Vf → Vf) : Fab := { f with vfs := f.vfs.set p (g (f.vf p)) }

/-- The newest notification of a queue taken out, if it holds one. DESIGN CHOICE (log 48). -/
def dropNotification (q : List Completion) : Option (List Completion) :=
  if q.any (fun c => c.opcode == 0xFF) then some (removeFirst (fun c => c.opcode == 0xFF) q.reverse).reverse else none

/-- A completion put into the queue of partition p's function (R393): into a full queue it displaces the newest
notification. DESIGN CHOICE (log 48). -/
def Fab.queueCompletion (f : Fab) (p : Nat) (c : Completion) : Fab :=
  let v := f.vf p
  if v.queue.length < 4096 then f.onVf p (fun v => { v with queue := v.queue ++ [c] })
  else match dropNotification v.queue with
    | some q => (f.onVf p (fun v => { v with queue := q ++ [c], lost := v.lost + 1 })).dadd 0xC010 (p + 1) 1
    | none => f.onVf p (fun v => { v with queue := v.queue ++ [c] })

/-- An open command is the one of an opcode, a tag and a serial. -/
def isOpen (opcode tag serial : Nat) (e : Entry × Bool) : Bool := e.1.opcode == opcode && e.1.tag == tag && e.1.serial == serial

/-- A command ends: it is no longer in flight, and its completion is queued unless a function-level reset came since its
fetch (R386, R395). -/
def Fab.close (f : Fab) (p opcode status tag detail serial : Nat) : Fab :=
  let same := isOpen opcode tag serial
  let f1 := f.onVf p (fun v => { v with openCmds := removeFirst same v.openCmds })
  match (f.vf p).openCmds.find? same with
  | some (_, true) => f1
  | _ => f1.queueCompletion p ⟨opcode, status, tag, detail⟩

/-- Operand word i of a submission entry. -/
def word (e : Entry) (i : Nat) : Nat := e.words.getD i 0

/-- A counter entry may take effect: no earlier entry of its ring is open (R395). -/
def Vf.first (v : Vf) (e : Entry) : Bool :=
  match v.openCmds.find? (fun x => x.1.ring == e.ring) with
  | some x => x.1 == e
  | none => true

/-- COUNTER_SIGNAL or COUNTER_SET takes effect on its package counter (R118, R120). -/
def Fab.counterEntry (f : Fab) (e : Entry) : Fab :=
  let i := bitsOf (word e 0) 5 0
  let k := 64 * e.partition + i
  let old := f.packageCtr.get 0 k
  let v := if e.opcode = 0x05 then old + BitVec.ofNat 32 (bitsOf (word e 1) 15 0) else BitVec.ofNat 32 (word e 1)
  { f with packageCtr := f.packageCtr.set k v }

/-- Counter entries that waited for earlier entries of their ring and wait no longer take effect and complete (R395). -/
def Fab.flushOrdered (p : Nat) : Nat → Fab → Fab
  | 0, f => f
  | n + 1, f =>
    match (f.vf p).ordered.find? (f.vf p).first with
    | some e =>
      Fab.flushOrdered p n (((f.onVf p (fun v => { v with ordered := removeFirst (· == e) v.ordered })).counterEntry e).close p
        e.opcode 0 e.tag 0 e.serial)
    | none => f

/-- A command's completion (R393, R395), with the counter entries it lets go. -/
def Fab.complete (f : Fab) (p opcode status tag detail serial : Nat) : Fab :=
  Fab.flushOrdered p (f.vf p).ordered.length (f.close p opcode status tag detail serial)

/-- A notification queued for partition p's function, or dropped and counted when the queue is full (R393). -/
def Fab.notify (f : Fab) (p status detail : Nat) : Fab :=
  if (f.vf p).queue.length < 4096 then f.onVf p (fun v => { v with queue := v.queue ++ [⟨0xFF, status, 0, detail⟩] })
  else (f.onVf p (fun v => { v with lost := v.lost + 1 })).dadd 0xC010 (p + 1) 1

/-- Host status codes (Table "Host status"). -/
inductive HostStatus
  | done | faulted | cancelled | badCommand | outOfMap | notOwned | clusterRetired | notSetUp | badImage | widthMismatch
  | contextLost | busy | badDescriptor | notFound | seqState | seqExpired | seqBusy | folioState | folioBusy | folioParked
  | folioExpired | peerLost | endpointDown | versionMismatch | noWeights | versionBusy | versionState | versionIncomplete
  | versionFreed | areaOverlap | stepState | stepBusy | notifyLost | memUncorrectable
  deriving DecidableEq, Repr

/-- The code of a host status. -/
def HostStatus.code : HostStatus → Nat
  | .done => 0x00 | .faulted => 0x01 | .cancelled => 0x02 | .badCommand => 0x03 | .outOfMap => 0x04 | .notOwned => 0x05
  | .clusterRetired => 0x06 | .notSetUp => 0x07 | .badImage => 0x08 | .widthMismatch => 0x09 | .contextLost => 0x0A
  | .busy => 0x0B | .badDescriptor => 0x0C | .notFound => 0x0D | .seqState => 0x10 | .seqExpired => 0x11
  | .seqBusy => 0x12 | .folioState => 0x13 | .folioBusy => 0x14 | .folioParked => 0x15 | .folioExpired => 0x16
  | .peerLost => 0x17 | .endpointDown => 0x18 | .versionMismatch => 0x19 | .noWeights => 0x1A | .versionBusy => 0x1B
  | .versionState => 0x1C | .versionIncomplete => 0x1D | .versionFreed => 0x1E | .areaOverlap => 0x1F
  | .stepState => 0x20 | .stepBusy => 0x21 | .notifyLost => 0x22 | .memUncorrectable => 0x23

/-- The completion of a submission entry; a BAD_COMMAND is counted (R402). -/
def Fab.completeEntry (f : Fab) (e : Entry) (st : HostStatus) (detail : Nat := 0) : Fab :=
  let f1 := if st = .badCommand then f.dadd 0xC011 (e.partition + 1) 1 else f
  f1.complete e.partition e.opcode st.code e.tag detail e.serial

/-- The management processor that serves a function (0 the PF, p + 1 the VF of partition p) runs: the Rubric island is not in its safe
state, and the processor is not restarting (R425, R456). Which processor a function is assigned to is a free value.
DESIGN CHOICE (log 113). -/
def Fab.served (f : Fab) (fn : Nat) : Bool := !f.halts 944 && Nat.ble (f.restarts.get 0 (Config.processorOf fn)) f.cycle

/-- The head of a function's fetched entries taken, or nothing where `e` is not the head (R391) or nobody serves the function. -/
def Fab.pop (f : Fab) (e : Entry) : Option Fab :=
  if !f.served (e.partition + 1) then none else
  match (f.vf e.partition).fetched with
  | x :: r => if x = e then some (f.onVf e.partition (fun v => { v with fetched := r })) else none
  | [] => none

/-- A ring command applied: `e`, with opcode `op`, is the next entry of its function in arrival order (R391). -/
def Fab.ring (f : Fab) (e : Entry) (op : Nat) (body : Fab → Fab) : Fab :=
  if e.opcode = op then (match f.pop e with | some g => body g | none => f) else f

/-- A ring command that reaches memory. -/
def W.ring (w : W) (e : Entry) (op : Nat) (body : W → W) : W :=
  if e.opcode = op then (match w.fab.pop e with | some g => body { w with fab := g } | none => w) else w

/-! ### Setup scopes and host windows -/

/-- The setup scope of a partition. -/
def Fab.scope (f : Fab) (p : Nat) : Scope := f.scopes.get .none p

/-- A setup scope set. -/
def Fab.setScope (f : Fab) (p : Nat) (s : Scope) : Fab := { f with scopes := f.scopes.set p s }

/-- [a, a + n) lies in a live host window of partition p with the access asked (R388). -/
def Fab.inHostWindow (f : Fab) (p a n : Nat) (write : Bool) : Bool :=
  (f.scope p).live.hostWindows.any (fun w =>
    Nat.ble w.2.1 a && Nat.ble (a + n) (w.2.1 + w.2.2.1) && bit w.2.2.2 (if write then 1 else 0))

/-! ### Ports and packets -/

/-- Port state (0x5007): 0 down, 1 forming, 2 up, 3 retired, 4 absent. -/
def Fab.portState (f : Fab) (port : Nat) : Nat := f.dget 0x5007 (port + 1)

/-- A port that carries packets: it is up, and its photonic interface runs (R456). -/
def Fab.portUp (f : Fab) (port : Nat) : Bool := Nat.blt port 32 && f.portState port == 2 && !f.halts (936 + port / 4)

/-- An engine with a port up. -/
def Fab.engineUp (f : Fab) (n : Nat) : Bool := Nat.blt n 8 && (List.range 4).any (fun k => f.portUp (4 * n + k))

/-- IPv6 address of an engine (R358). -/
def Fab.engineAddress (f : Fab) (n : Nat) : Nat := f.dget 0x5004 (n + 1)

/-- A cascade of two or more packages (R379). -/
def Fab.inCascade (f : Fab) : Bool := Nat.ble 2 (f.eff 0x5050 1)

/-- The engine that carries a cascade's links (R374, R379). -/
def Fab.cascadeEngine (f : Fab) (n : Nat) : Bool := f.inCascade && n == 7

/-- East of a position in a chain or ring: a higher one, or in a ring the shorter way and a tie (R374). DESIGN CHOICE (log 102). -/
def goesEast (shape own dest : Nat) : Bool :=
  if shape = 1 then Nat.blt own dest
  else Nat.ble (2 * ((dest + Config.ringSize - own) % Config.ringSize)) Config.ringSize

/-- THE PORT OF A FLOW (R358, R374, R379): of engine n to a peer's address, one of its up ports by the hash; the port to the member on
a cascade's engine; west or east in a chain or ring. DESIGN CHOICE (logs 23, 102). DESIGN CHOICE (log 108). -/
def Fab.place (f : Fab) (n hash peer : Nat) : Option Nat :=
  if f.cascadeEngine n then (let p := 28 + Config.cascadeMember peer % 4; if f.portUp p then some p else none)
  else if f.dget 0x5040 2 != 0 then
    let p := 4 * n + (if goesEast (f.dget 0x5040 2) (f.engineAddress n % 65536) (peer % 65536) then 2 else 0)
    if f.portUp p then some p else none
  else
    let up := ((List.range 4).map (· + 4 * n)).filter f.portUp
    up[hash % up.length]?

/-- The SA that protects what a port sends on a secure channel: the one installed last (R369). -/
def Fab.txSa (f : Fab) (port channel : Nat) : Option Nat :=
  ((f.sas.filter (fun s => s.channel == channel && s.port == port && s.dir != 1)).getLast?).map (·.an)

/-- A port can send on a secure channel: MACsec mode 0, or an SA to protect the frame (R369). -/
def Fab.protects (f : Fab) (port channel : Nat) : Bool := f.dget 0x5008 (port + 1) == 0 || (f.txSa port channel).isSome

/-- What surrounds a packet that leaves by a port. -/
def Fab.dressAt (f : Fab) (n : Nat) (port : Option Nat) (channel hash cls udp : Nat) : Dress :=
  let p := match port with | some p => if f.protects p channel then some p else none | none => none
  { engine := n, port := p, nextHop := match p with | some p => f.dget 0x5006 (p + 1) | none => 0,
    udpSource := 0xC000 + hash % 0x4000, udpDest := udp, cls := cls,
    an := match p with | some p => if f.dget 0x5008 (p + 1) = 0 then none else f.txSa p channel | none => none }

/-- What surrounds a packet of engine n to a peer. -/
def Fab.dress (f : Fab) (n peer channel hash cls udp : Nat) : Dress := f.dressAt n (f.place n hash peer) channel hash cls udp

/-! ### Queue pairs -/

/-- A queue pair before its first request. -/
def newQp (p i : Nat) : Qp :=
  { partition := p, entry := i, psn := 0, retries := 0, rate := 16, failed := false, sent := [], waiting := [] }

/-- The queue pair of an endpoint (R367). -/
def Fab.qp (f : Fab) (p i : Nat) : Qp := (f.qps.find? (fun q => q.partition == p && q.entry == i)).getD (newQp p i)

/-- The queue pair of an endpoint changed. -/
def Fab.onQp (f : Fab) (p i : Nat) (g : Qp → Qp) : Fab :=
  { f with qps := (f.qps.filter (fun q => !(q.partition == p && q.entry == i))) ++ [g (f.qp p i)] }

/-- Local number of a queue pair (R367). -/
def qpNumber (p i : Nat) : Nat := 4096 * p + i + 1

/-- The live entry of an endpoint as a number; 0 where there is none. -/
def Fab.endpointEntry (f : Fab) (p i : Nat) : Nat := (((f.scope p).live.endpoints.find? i).map (·.toNat)).getD 0

/-- Packets of `n` bytes at the path MTU (R367). PRESUMED (log 91). DESIGN CHOICE (log 64). -/
def rdmaPackets (n : Nat) : Nat := max 1 ((n + 4095) / 4096)

/-- What surrounds a RoCEv2 packet of partition p to the peer of an endpoint entry e (R365, R367). -/
def Fab.rdmaDress (f : Fab) (p e engine : Nat) : Dress :=
  let peer := bitsOf e 511 384
  f.dress engine peer p (Config.flowHash ⟨engine, peer, p, bitsOf e 215 212⟩) (bitsOf e 208 206) 4791

/-- A request of a queue pair on the wire (R367). -/
def Fab.rdmaPacket (f : Fab) (p i : Nat) (r : RdmaOut) : Fab :=
  let remote := bitsOf r.entry 239 216
  let d := f.rdmaDress p r.entry r.engine
  { f with netOut := f.netOut ++ [match r.write with
    | some l => .rdmaWrite d (qpNumber p i) remote r.psn p i r.offset l
    | none => .rdmaRead d (qpNumber p i) remote r.psn p i r.offset r.length] }

/-- Waiting requests of a queue pair sent in order, with at most 16 READs outstanding (R367). DESIGN CHOICE (log 64). -/
def Fab.qpPump (p i : Nat) : Nat → Fab → Fab
  | 0, f => f
  | n + 1, f =>
    let q := f.qp p i
    match q.waiting with
    | r :: rest =>
      if r.write.isNone && Nat.ble 16 (q.sent.filter (fun x => x.write.isNone)).length then f
      else
        let x := { r with psn := q.psn }
        Fab.qpPump p i n ((f.onQp p i (fun q =>
          { q with waiting := rest, sent := q.sent ++ [x], psn := (q.psn + rdmaPackets r.length) % 2 ^ 24 })).rdmaPacket p i x)
    | [] => f

/-- A request given to a queue pair. DESIGN CHOICE (log 64). -/
def Fab.rdmaSend (f : Fab) (p i : Nat) (r : RdmaOut) : Fab :=
  let g := f.onQp p i (fun q => { q with waiting := q.waiting ++ [r] })
  Fab.qpPump p i (g.qp p i).waiting.length g

/-- An RDMA WRITE by the engine of base die `engine` under an endpoint entry (R27, R367). DESIGN CHOICE (log 64). -/
def Fab.rdmaWrite (f : Fab) (engine p i entry offset : Nat) (bytes : List Byte) : Fab :=
  f.rdmaSend p i { engine := engine, psn := 0, offset := offset, length := bytes.length, write := some bytes, entry := entry }

/-- An RDMA READ by the engine of base die `engine` under an endpoint entry (R27, R367). DESIGN CHOICE (log 64). -/
def Fab.rdmaRead (f : Fab) (engine p i entry offset n : Nat) : Fab :=
  f.rdmaSend p i { engine := engine, psn := 0, offset := offset, length := n, write := none, entry := entry }

/-- A request of a queue pair was acknowledged: it is gone, its retries start again, and one that waited may go (R367).
DESIGN CHOICE (log 64). -/
def Fab.qpDone (f : Fab) (p i offset : Nat) (write : Bool) : Fab :=
  let g := f.onQp p i (fun q =>
    { q with retries := 0, sent := removeFirst (fun x => x.offset == offset && x.write.isSome == write) q.sent })
  Fab.qpPump p i (g.qp p i).waiting.length g

/-- A queue pair sends every request again that has not been acknowledged (R358, R367). DESIGN CHOICE (log 64). -/
def Fab.qpResend (f : Fab) (p i : Nat) : Fab := (f.qp p i).sent.foldl (fun g r => g.rdmaPacket p i r) f

/-! ### Counters -/

/-- Counters of a scope: cluster, region (a Fine pair counts as one), package (Table "Counter scopes"). -/
def counterCount : Nat → Nat
  | 0 => 32
  | 1 => 16
  | _ => 64

/-- The counter of a scope seen from cluster c (R116). -/
def Fab.counter (f : Fab) (c scope i : Nat) : W32 :=
  match scope with
  | 0 => (f.cluster c).counters.get 0 i
  | 1 => f.regionCtr.get 0 (16 * regionOf c + i)
  | _ => f.packageCtr.get 0 (64 * f.partitionOf c + i)

/-- A counter set, seen from cluster c. -/
def Fab.setCounter (f : Fab) (c scope i : Nat) (v : W32) : Fab :=
  match scope with
  | 0 => f.onCluster c (fun cl => { cl with counters := cl.counters.set i v })
  | 1 => { f with regionCtr := f.regionCtr.set (16 * regionOf c + i) v }
  | _ => { f with packageCtr := f.packageCtr.set (64 * f.partitionOf c + i) v }

/-- A package counter of partition p raised by n modulo 2^32 (R118). -/
def Fab.packageSignal (f : Fab) (p i : Nat) (n : W32) : Fab :=
  { f with packageCtr := f.packageCtr.set (64 * p + i) (f.packageCtr.get 0 (64 * p + i) + n) }

/-- WAIT's comparison: (c - t) mod 2^32 < 2^31 (R118). -/
def counterMet (c t : W32) : Bool := Nat.blt (c - t).toNat (2 ^ 31)

/-! ### Retired channels -/

/-- The retirement that a slice carries. -/
def Fab.retirement (f : Fab) (b : Nat) : Option Retirement := f.retirements.find? (fun r => r.slice == b)

/-- First data line of the granules that retirement n withdraws (R198, R210). -/
def firstSpare (n : Nat) : Nat := (62 - 2 * n) * 2 ^ 22

/-- The next retirement number (R210). -/
def Fab.nextRetirement (f : Fab) : Nat := (f.retirements.filter (fun r => r.number != 0)).length + 1

/-- The two highest granules not yet withdrawn, with retirement n (R198, R210). -/
def granulesOf (n : Nat) : List Nat := [62 - 2 * n, 63 - 2 * n]

/-- Granules withdrawn: the map, their count, their owners (R210, R212). -/
def Fab.withdraw (f : Fab) (n : Nat) : Fab :=
  let f1 := (granulesOf n).foldl (fun g x => (g.dset 0xB102 (x + 1) 0xFF).dset 0x3010 1 (setBit (g.dget 0x3010 1) x true)) f
  f1.dset 0x3000 4 (62 - 2 * n)

/-- A retirement of a slice recorded in place of a pending one. -/
def Fab.setRetirement (f : Fab) (r : Retirement) : Fab :=
  { f with retirements := f.retirements.filter (fun x => x.slice != r.slice) ++ [r] }

/-- Bit map of the owned granules among those that the next retirement would withdraw (R429). -/
def Fab.ownedNext (f : Fab) : Nat :=
  ((granulesOf f.nextRetirement).map (fun g => if f.dget 0xB102 (g + 1) < 16 then 2 ^ g else 0)).sum

/-- A pending predictive retirement starts to migrate where its granules are unowned (R211). DEDUCED (log 81). -/
def Fab.migrate (f : Fab) (b : Nat) : Fab :=
  match f.retirement b with
  | some r =>
    if r.number = 0 ∧ f.ownedNext = 0 ∧ !f.sliceGone b then
      let n := f.nextRetirement
      ((((f.withdraw n).setRetirement { r with number := n }).dset 0x3011 (b + 1) r.channel).dset 0x3012 (b + 1) 2).dset
        0x3013 (b + 1) 0
    else f
  | none => f

/-- A retirement's new homes are still being filled (R212). -/
def Fab.filling (f : Fab) : Bool := (List.range 8).any (fun b => f.dget 0x3012 (b + 1) == 3)

/-- The end of a partition reset: stopped, the memory context live (R465). -/
def Fab.resetEnds (f : Fab) (p : Nat) : Fab :=
  let f1 := { (f.dset 0x3030 (p + 1) 0) with resetWaits := f.resetWaits.filter (· != p) }
  if f1.dget 0xB001 (p + 1) = 2 then f1.dset 0xB001 (p + 1) 1 else f1

/-- Partition resets that waited for a fill complete once no slice is being filled (R212). -/
def Fab.finishWaits (f : Fab) : Fab := if f.filling then f else f.resetWaits.foldl (fun g p => g.resetEnds p) f

/-- A slice goes offline for a second channel to be retired (R210): the alarm of that channel rises (R423, R429), and a retirement
that still waited for its granules is gone. Such a channel takes no retirement number: the alarm's is 0. DESIGN CHOICE (log 112). -/
def Fab.offline (f : Fab) (ch : Nat) (dead : Bool) : Fab :=
  let b := ch / 32
  let f1 := { f with retirements := f.retirements.filter (fun r => r.slice != b || r.number != 0) }
  ((f1.dset 0x3012 (b + 1) 5).raise (0x0600 + ch) 0x0203 none 0 (if dead then 1 else 0)).finishWaits

/-- A channel reaches its correctable limit (R209 to R211): its slice goes offline where another channel of it is retired or to be
retired; else the retirement waits for its granules, with its alarm, or starts. DEDUCED (log 81). -/
def Fab.predict (f : Fab) (ch : Nat) : Fab :=
  let b := ch / 32
  if f.sliceGone b then f else
  match f.retirement b with
  | some r => if r.channel = ch % 32 then f else f.offline ch false
  | none =>
    let f1 := (f.setRetirement ⟨b, ch % 32, 0, false⟩).dset 0x3012 (b + 1) 1
    if f1.ownedNext = 0 then f1.migrate b else f1.raise (0x0600 + ch) 0x0204 none b f1.ownedNext

/-- Pending retirements whose granules came free start to migrate (R211). DEDUCED (log 82). -/
def Fab.retryMigrations (f : Fab) : Fab := (List.range 8).foldl (fun g b => g.migrate b) f

/-! ### Memory accesses: channels, codes, slots -/

/-- Channel in the slice and data line in the channel of a slice offset, with the retirement map; while the slice migrates, a
line at or above its pointer is still on the old channel (R198, R211). -/
def Fab.lineOf (f : Fab) (b o : Nat) : Nat × Nat :=
  let x := plainLine o
  let r := f.dget 0x3011 (b + 1)
  if r ≠ 0xFF ∧ x.1 = r ∧ (f.dget 0x3012 (b + 1) ≠ 2 ∨ x.2 < f.dget 0x3013 (b + 1)) then
    let i := x.2 % 31
    (if i < r then i else i + 1, firstSpare (((f.retirement b).map (·.number)).getD 0) + x.2 / 31)
  else x

/-- Global channel of an LPDDR5X place (R198). -/
def Fab.channelOf (f : Fab) (b o : Nat) : Nat := 32 * b + (f.lineOf b o).1

/-- Physical line p of a data line, and its ECC line e (`lpddr_locate`, R198, R199). -/
def physicalLine (j : Nat) : Nat × Nat := (j / 31 * 32 + j % 31, j / 31 * 32 + 31)

/-- Bank of an Inkwell offset and index within the bank (R194). -/
def inkwellBank (o : Nat) : Nat × Nat :=
  let l := o / 64
  (bitsOf l 9 0 ^^^ bitsOf l 19 10, bitsOf l 22 10)

/-- The detail B of a memory event: global channel, Inkwell bank or cluster (R194, R206, R429). -/
def Fab.memDetail (f : Fab) : Place → Nat
  | .well c _ => c
  | .inkwell _ o => (inkwellBank o).1
  | .lpddr b o => f.channelOf b o
  | .outside => 0

/-- The event source of a memory (Table "Event sources"). -/
def Fab.memSource (f : Fab) : Place → Nat
  | .well c _ => srcCluster c
  | .inkwell b _ => srcBase b 1
  | .lpddr b o => 0x0600 + f.channelOf b o
  | .outside => 0

/-- A channel's correctable count of the hour rises; one that reaches the limit retires predictively (R209). -/
def Fab.hourCount (f : Fab) (ch : Nat) : Fab :=
  let n := f.chanHour.get 0 ch + 1
  let g := { f with chanHour := f.chanHour.set ch n }
  if n = f.eff 0x3020 0x40 then g.predict ch else g

/-- A corrected error counted and traced (R205, R209, R213). -/
def Fab.memCorrected (f : Fab) (pl : Place) (part : Option Nat) : Fab :=
  let g := match pl with
    | .lpddr b o =>
      let ch := f.channelOf b o
      (f.dadd (0x3100 + ch / 32) (ch % 32 + 1) 1).hourCount ch
    | _ => f.dadd 0x3020 3 1
  g.raise (f.memSource pl) 0x0201 part pl.addr 0

/-- An uncorrectable error recorded and counted (R206 step 4, R207, R213). -/
def Fab.memRecorded (f : Fab) (pl : Place) (part : Option Nat) : Fab :=
  let g := match pl with
    | .lpddr _ _ => f.dadd 0x3020 1 1
    | _ => f.dadd 0x3020 2 1
  (g.dset 0x3020 4 pl.addr).raise (f.memSource pl) 0x0202 part pl.addr (f.memDetail pl)

/-- An uncorrectable error of a line recorded; the line is bad (R206, R207). -/
def Fab.memUncorrectable (f : Fab) (pl : Place) (part : Option Nat) : Fab :=
  let l := pl.addr / 64
  ({ f with badLines := if f.badLines.contains l then f.badLines else f.badLines ++ [l] }).memRecorded pl part

/-- An error that a line has taken, as its code will find it (R196, R199, R205): one the code corrects, or one it does not. A line
that is bad stays so until a whole-line write. DESIGN CHOICE (logs 13, 94). -/
def Fab.upset (f : Fab) (l : Nat) (ecc : Ecc) : Fab :=
  match ecc with
  | .clean => f
  | .corrected => if f.badLines.contains l || f.softLines.contains l then f else { f with softLines := f.softLines ++ [l] }
  | .uncorrectable =>
    { f with
      softLines := f.softLines.filter (· != l),
      badLines := if f.badLines.contains l then f.badLines else f.badLines ++ [l] }

/-- The corrected value of a line written back (R205). -/
def Fab.repaired (f : Fab) (l : Nat) : Fab := { f with softLines := f.softLines.filter (· != l) }

/-- Lines of a range that hold a correctable error are corrected, counted and written back (R205). -/
def Fab.corrects (f : Fab) (part : Option Nat) (a n : Nat) : Fab :=
  if f.softLines.isEmpty then f
  else (linesOf a n).foldl (fun g l =>
    if g.softLines.contains l then (g.memCorrected (g.locate none (64 * l)) part).repaired l else g) f

/-- The first uncorrectable line of a range, as an address (R206). DESIGN CHOICE (log 13). -/
def Fab.badIn (f : Fab) (a n : Nat) : Option Nat := ((linesOf a n).find? f.badLines.contains).map (64 * ·)

/-- A read of ranges (address, length) for a consumer in partition p meets the codes of their lines (R205, R206); `ecc` is the
outcome at the line of address a, an operand of the command that reads. The first uncorrectable line is answered.
DESIGN CHOICE (log 13). -/
def Fab.readCode (f : Fab) (p a : Nat) (ecc : Ecc) (ranges : List (Nat × Nat)) : Fab × Option Nat :=
  let g := f.upset (a / 64) ecc
  match ranges.findSome? (fun r => g.badIn r.1 r.2) with
  | some x => (g, some x)
  | none => (ranges.foldl (fun h r => h.corrects (some p) r.1 r.2) g, none)

/-- A read whose data reaches no consumer (R207): its errors are corrected or recorded, and end no context. -/
def Fab.readQuietly (f : Fab) (part : Option Nat) (l : Nat) (ecc : Ecc) : Fab :=
  let g := f.upset l ecc
  if g.badLines.contains l then g.memRecorded (g.locate none (64 * l)) part else g.corrects part (64 * l) 64

/-- An access completes at its channel: an access timeout before it and one after it are not successive (R209).
DEDUCED (log 82). -/
def Fab.accessDone (f : Fab) (a : Nat) : Fab :=
  match f.locate none a with
  | .lpddr b o =>
    if f.chanTimeouts.isEmpty then f else { f with chanTimeouts := f.chanTimeouts.clear (· == f.channelOf b o) }
  | _ => f

/-! ### Tags and the firewall -/

/-- Transaction tag as 32 bits (Table "Package transaction tag"). -/
def tagBits (t : Tag) : Nat :=
  t.partition * 2 ^ 28 + (if t.bank then 2 ^ 27 else 0) + t.cls % 8 * 2 ^ 24 + t.sourceDie * 2 ^ 19 +
  t.sourceUnit * 2 ^ 13 + t.destDie * 2 ^ 8 + t.seq % 256

/-- Class of a read or write by a cluster or a base-die unit (R35): Feed to its own base die, remote elsewhere. -/
def rwClass (own dest : Nat) (write : Bool) : Nat :=
  if dest = own then (if write then 1 else 0) else (if write then 3 else 2)

/-- Sub-share that a transaction draws on at base die b (Table "Sub-shares", R232). -/
def shareOf (t : Tag) (b : Nat) (write : Bool) : SubShare :=
  match t.cls with
  | 0 => if t.sourceDie < 16 ∧ t.sourceDie / 2 = b then .bondRead else if t.sourceDie = 16 + b then .baseRead else .remote
  | 1 => .write
  | 4 => if write then .write else .baseRead
  | 6 => .baseRead
  | _ => .remote

/-- The tag of an access by a unit of base die b under partition p (R33 to R35). -/
def Fab.unitTag (f : Fab) (p b unit dest : Nat) (write : Bool) : Tag :=
  { partition := p, bank := (f.scope p).bank, cls := rwClass (16 + b) dest write, sourceDie := 16 + b, sourceUnit := unit,
    destDie := dest, seq := 0 }

/-- The tag of an access by the Rubric die under partition p: class control (R34, R35). -/
def Fab.rubricTag (f : Fab) (p unit dest : Nat) : Tag :=
  { partition := p, bank := (f.scope p).bank, cls := 5, sourceDie := 24, sourceUnit := unit, destDie := dest, seq := 0 }

/-- Base die of a die number: the one a compute die rides on, or itself; the Rubric die reaches every base die (R16). -/
def dieBase (d : Nat) : Option Nat := if d < 16 then some (d / 2) else if d < 24 then some (d - 16) else none

/-! ### Routes and crossings -/

/-- The base links by number (R15). -/
def linkEnds : List (Nat × Nat) := [(0, 1), (1, 2), (2, 3), (4, 5), (5, 6), (6, 7), (0, 4), (1, 5), (2, 6), (3, 7)]

/-- The base link between two base dies is usable. -/
def linked (routes x y : Nat) : Bool :=
  match linkEnds.findIdx? (fun e => e == (min x y, max x y)) with
  | some i => bit routes i
  | none => false

/-- Every hop of a path runs over a usable link. -/
def pathOk (routes : Nat) : List Nat → Bool
  | x :: y :: r => linked routes x y && pathOk routes (y :: r)
  | _ => true

/-- Columns from one to another, both included. -/
def columns (a b : Nat) : List Nat :=
  if a ≤ b then (List.range (b - a + 1)).map (· + a) else (List.range (a - b + 1)).map (fun i => a - i)

/-- The dimension-ordered path: along the row, then between the rows (R32). -/
def dimPath (a b : Nat) : List Nat :=
  (columns (a % 4) (b % 4)).map (fun c => 4 * (a / 4) + c) ++ (if a / 4 = b / 4 then [] else [b])

/-- A shortest path over the usable links, breadth first: `paths` are the shortest paths found, last die first, `seen` their dies.
Of equal paths the one through the greater die numbers is taken, as in R32's example. DESIGN CHOICE (log 97). -/
def shortest (routes b : Nat) : Nat → List (List Nat) → List Nat → Option (List Nat)
  | 0, _, _ => none
  | n + 1, paths, seen =>
    match paths.find? (fun p => p.head? == some b) with
    | some p => some p.reverse
    | none =>
      let next := paths.foldl (fun acc p =>
        let x := p.headD 0
        let ys := (List.range 8).reverse.filter (fun y => linked routes x y && !acc.2.contains y)
        (acc.1 ++ ys.map (fun y => y :: p), acc.2 ++ ys)) (([] : List (List Nat)), seen)
      shortest routes b n next.1 next.2

/-- The route entry between two base dies: dimension-ordered, or a shortest path around retired links (R32). -/
def routePath (routes a b : Nat) : Option (List Nat) :=
  if pathOk routes (dimPath a b) then some (dimPath a b) else shortest routes b 8 [[a]] [a]

/-- The islands between a unit and the memory of an address (R16, R18, R21): `up`, those on the unit's side of its base die's core;
the cores from `own` on, which is none for the Rubric die with its link to every base die; the controller group, or the region
switch and the cluster of a Well. None where no route or window matches (R30). -/
def Fab.wayTo (f : Fab) (up : List Nat) (own : Option Nat) (a : Nat) : Option (List Nat) :=
  let cores := fun (b : Nat) => match own with
    | some o => (routePath f.routes o b).map (fun p => up ++ p.map (896 + ·))
    | none => some (up ++ [896 + b])
  match f.locate none a with
  | .inkwell b _ => cores b
  | .lpddr b o => (cores b).map (fun r => r ++ [904 + 4 * b + f.channelOf b o % 32 / 8])
  | .well c _ => (cores (baseDieOf c)).map (fun r => r ++ (if isBroad c then [800 + c / 8] else []) ++ [c])
  | .outside => none

/-- The islands of the unit that a tag names, up to its base die's core, and that base die (Table "Source units"). -/
def Tag.source (t : Tag) : List Nat × Option Nat :=
  let u := t.sourceUnit
  if t.sourceDie < 16 then
    let c := 48 * t.sourceDie + u
    ([c, 800 + c / 8], some (t.sourceDie / 2))
  else if t.sourceDie < 24 then
    let b := t.sourceDie - 16
    (if u < 4 then [768 + 4 * b + u] else if u = 6 then [936 + b] else if 8 ≤ u ∧ u < 12 then [904 + 4 * b + (u - 8)] else [], some b)
  else (if u = 1 then [945, 944] else [944], none)

/-- The ranges that a transaction reads or writes, as (address, length). -/
def Txn.ranges (t : Txn) : List (Nat × Nat) := (t.addr, t.len) :: t.more

/-- The crossing that a transaction stands in: the islands it joins (R22). -/
def Txn.crossing (t : Txn) : Option (Nat × Nat) := t.ahead.head?.map (fun x => (t.behind, x))

/-- A crossing holds its 8 entries (R22). -/
def Fab.crossingFull (f : Fab) (a b : Nat) : Bool := Nat.ble 8 (f.txns.filter (fun t => t.crossing == some (a, b))).length

/-- Every island of a way can give and take: none is in its safe state, and no crossing on it, there or back, is full
(R22, R25). DESIGN CHOICE (log 93). -/
def Fab.wayClear (f : Fab) (way : List Nat) : Bool :=
  way.all (fun i => !f.halts i) &&
  (way.zip way.tail).all (fun e => !f.crossingFull e.1 e.2 && !f.crossingFull e.2 e.1)

/-- No crossing that a response meets on its way back is full (R22). -/
def Fab.wayBack (f : Fab) (t : Txn) (source : Nat) : Bool :=
  let way := source :: t.route
  (way.zip way.tail).all (fun e => !f.crossingFull e.2 e.1)

/-- The cluster that a transaction belongs to. -/
def TxnFor.cluster : TxnFor → Nat
  | .op c _ | .batch c _ | .units c _ _ _ | .out c _ _ _ | .scale c _ _ | .void c => c

/-! ### The queues of a channel -/

/-- The LPDDR5X channel and sub-share whose queue a transaction to an address takes an entry of (R232, R235). -/
def Fab.queueOf (f : Fab) (t : Tag) (far : Far) (a : Nat) (write : Bool) : Option (Nat × SubShare) :=
  match far, f.locate none a with
  | .package, .lpddr b o => some (f.channelOf b o, shareOf t b write)
  | _, _ => none

/-- The queue of a transaction in flight. -/
def Fab.txnQueue (f : Fab) (t : Txn) : Option (Nat × SubShare) := f.queueOf t.tag t.far t.addr t.write.isSome

/-- The 16 entries of a queue are taken, each from injection on (R235). -/
def Fab.queueFull (f : Fab) (q : Nat × SubShare) : Bool := Nat.ble 16 (f.txns.filter (fun t => f.txnQueue t == some q)).length

/-- A request to a peer that its queue pair has not sent yet: more than 16 READs would be outstanding (R367). -/
def Fab.unsent (f : Fab) (t : Txn) : Bool :=
  match t.far with
  | .peer i => t.ranges.any (fun r => (f.qp t.tag.partition i).waiting.any (fun x => x.offset == r.1 && x.write.isSome == t.write.isSome))
  | _ => false

/-- An island of a transaction's route, or its requester, is in its safe state: the request and its response are held (R25); so is a
response in front of a full crossing (R22), and what a queue pair holds back (R367). -/
def Fab.stalled (f : Fab) (t : Txn) : Bool :=
  f.unsent t || !f.wayBack t t.origin.cluster ||
  t.route.any f.halts || f.halts t.origin.cluster

/-- Requests that stand in the queues of a channel and may be served: not held, and none older on the same line (R200). -/
def Fab.queued (f : Fab) (ch : Nat) : List (SubShare × Txn) :=
  let here := f.txns.filterMap (fun t =>
    if t.ahead.isEmpty && !t.heldPage && !f.stalled t then
      match f.txnQueue t with
      | some (k, s) => if k = ch then some (s, t) else none
      | none => none
    else none)
  here.filter (fun x => match here.find? (fun y => y.2.addr / 64 == x.2.addr / 64) with
    | some y => y.2.id == x.2.id
    | none => true)

/-! ### The slots of a channel -/

/-- The owner of each slot of a frame: `frame_owner` of R233, from slot s on with its running sums and the read slots seen. -/
def frameOwners (p : Plan) : Nat → Int × Int × Int → Nat → List SubShare
  | 0, _, _ => []
  | n + 1, acc, i =>
    let a := acc.1 + p.r
    let b := acc.2.1 + p.w
    let c := acc.2.2 + p.m
    if b ≤ a ∧ c ≤ a then
      (if i * p.rb / p.r < (i + 1) * p.rb / p.r then .bondRead else .baseRead) :: frameOwners p n (a - 16, b, c) (i + 1)
    else if c ≤ b then .write :: frameOwners p n (a, b - 16, c) i
    else .remote :: frameOwners p n (a, b, c - 16) i

/-- The owners of the 16 slots of a frame under a plan (R233). -/
def Plan.owners (p : Plan) : List SubShare := frameOwners p 16 (0, 0, 0) 0

/-- The plan that a base die's split selects (R233, R234). -/
def Fab.plan (f : Fab) (b : Nat) : Plan :=
  if f.dget 0x3C20 1 = 0 then ⟨8, 4, 4, 4⟩
  else
    let v := f.dget 0x3C20 (0x40 + b)
    ⟨bitsOf v 19 16, bitsOf v 15 12, bitsOf v 11 8, bitsOf v 7 4⟩

/-- Place of a sub-share in Table "Feed entries" and in the lending rotation (R236, R245). -/
def SubShare.index : SubShare → Nat
  | .bondRead => 0
  | .baseRead => 1
  | .write => 2
  | .remote => 3

/-- The sub-shares in the rotation of R236, after one of them. -/
def SubShare.after (s : SubShare) : List SubShare :=
  let all := [SubShare.bondRead, .baseRead, .write, .remote]
  (all.drop (s.index + 1)) ++ (all.take (s.index + 1))

/-- A channel. -/
def Fab.chan (f : Fab) (ch : Nat) : Chan := f.chans.get .reset ch

/-- The plan of a channel's running frame: latched at the frame's first slot (R234). -/
def Fab.planOf (f : Fab) (ch : Nat) : Plan := ((f.chan ch).plan).getD (f.plan (ch / 32))

/-- The owner of a slot of the running frame. -/
def Fab.slotOwner (f : Fab) (ch slot : Nat) : SubShare := (f.planOf ch).owners.getD slot .baseRead

/-- One slot of a channel passes: at the end of the frame the next one takes the plan then in force (R234). -/
def Chan.pass (c : Chan) (p : Plan) : Chan :=
  if c.slot = 15 then { c with plan := none, slot := 0 } else { c with plan := some p, slot := c.slot + 1 }

/-- One slot drawn by a sub-share (R231, R236): its own, or one lent to it while the slot's owner has no request waiting and no
sub-share before it in the rotation has; a slot that another takes passes, as does, with lending off, one of another owner.
DESIGN CHOICE (log 95). -/
def Fab.drawSlot (ch : Nat) (s : SubShare) : Nat → Fab → Fab
  | 0, f => f
  | n + 1, f =>
    let c := f.chan ch
    let p := f.planOf ch
    let owner := f.slotOwner ch c.slot
    let has := fun (x : SubShare) => (f.queued ch).any (fun y => y.1 == x)
    let g := { f with chans := f.chans.set ch (c.pass p) }
    if owner = s then g.dadd (0x3C40 + ch / 32) (s.index + 1) 1
    else if f.dget 0x3C20 2 = 1 ∧ !has owner ∧ c.lent.after.find? (fun x => x == s || has x) = some s then
      (({ g with chans := g.chans.set ch { (g.chan ch) with lent := s } }).dadd (0x3C40 + ch / 32) (s.index + 1) 1).dadd
        (0x3C40 + ch / 32) 5 1
    else Fab.drawSlot ch s n g

/-- n slots drawn by one sub-share of a channel that nothing else uses: whole frames, and the rest slot by slot (R231, R236, R508).
DESIGN CHOICE (log 95). -/
def Fab.drawMany (f : Fab) (ch : Nat) (s : SubShare) (n : Nat) : Fab :=
  let lending := f.dget 0x3C20 2 = 1
  let own := ((f.plan (ch / 32)).owners.filter (· == s)).length
  let per := if lending then 16 else own
  let frames := if per = 0 then 0 else n / per
  let g := if frames = 0 then f else f.dadd (0x3C40 + ch / 32) (s.index + 1) (frames * per)
  let h := if frames = 0 || !lending then g
    else ({ g with chans := g.chans.set ch { (g.chan ch) with lent := s } } : Fab).dadd (0x3C40 + ch / 32) 5 (frames * (16 - own))
  (List.range (n - frames * per)).foldl (fun x _ => Fab.drawSlot ch s 16 x) h

/-- An ECC line used in a channel's cache of 64: whether it was cached, and whether its place cost the write-back of a dirty line
(R200). DESIGN CHOICE (log 95). -/
def Chan.useEcc (c : Chan) (e : Nat) (dirty : Bool) : Chan × Bool × Bool :=
  match c.ecc.find? (fun x => x.1 == e) with
  | some x => ({ c with ecc := (e, x.2 || dirty) :: c.ecc.filter (fun y => y.1 != e) }, true, false)
  | none =>
    let out := (c.ecc.drop 63).any (·.2)
    ({ c with ecc := (e, dirty) :: c.ecc.take 63 }, false, out)

/-- The bursts of one access to a line (R200, R231): a read, a whole-line write or a part-line write. -/
def burstsOf (write part cached evicts : Bool) : Nat :=
  (if part then 2 else 1) + (if cached || (write && !part) then 0 else 1) + (if evicts then 1 else 0)

/-- One access of partition p to a line of package memory completes: the slots it draws at its LPDDR5X channel (R231, R232) and the
turn it had there (R236); none in the Inkwell (R195). -/
def Fab.lineDone (f : Fab) (s : SubShare) (p l : Nat) (write part : Bool) : Fab :=
  match f.locate none (64 * l) with
  | .lpddr b o =>
    let x := f.lineOf b o
    let ch := 32 * b + x.1
    let e := (f.chan ch).useEcc (physicalLine x.2).2 write
    let g := { f with chans := f.chans.set ch { e.1 with turn := e.1.turn.set s.index p } }
    (List.range (burstsOf write part e.2.1 e.2.2)).foldl (fun g _ => Fab.drawSlot ch s 16 g) (g.accessDone (64 * l))
  | _ => f

/-- An access to a range of package memory completes, line by line. -/
def Fab.rangeDone (f : Fab) (s : SubShare) (p a n : Nat) (write : Bool) : Fab :=
  (linesOf a n).foldl (fun g l =>
    g.lineDone s p l write (write && !(Nat.ble a (64 * l) && Nat.ble (64 * l + 64) (a + n)))) f

/-- A long range of a slice is written whole (R475, R508): its blocks of 128 lines put 4 lines on each channel, with one ECC line to
31 of them (R198, R200), and what is left of it goes line by line. DESIGN CHOICE (log 95). -/
def Fab.fillDone (f : Fab) (s : SubShare) (p a n : Nat) : Fab :=
  let b0 := (a + 8191) / 8192
  let b1 := (a + n) / 8192
  if b1 ≤ b0 then f.rangeDone s p a n true
  else match f.locate none (b0 * 8192) with
    | .lpddr b _ =>
      let k := 4 * (b1 - b0)
      let g := (List.range 32).foldl (fun (g : Fab) c => g.drawMany (32 * b + c) s (k + k / 31)) (f.rangeDone s p a (b0 * 8192 - a) true)
      g.rangeDone s p (b1 * 8192) (a + n - b1 * 8192) true
    | _ => f

/-! ### The access of a block -/

/-- What an access of a range by a block came to (R189, R206): done, refused by the firewall at an address, outside the map or without
a route, an uncorrectable line, or not to be made now. -/
inductive Reach
  | ok
  | firewall (a : Nat)
  | outside (a : Nat)
  | bad (a : Nat)
  | wait
  deriving DecidableEq, Repr

/-- The first place of a range that its tag's partition does not own, as an access refused (R189). -/
def Fab.guarded (f : Fab) (p a n : Nat) : Reach :=
  match (checkpoints a n).find? (fun x => f.placeOwner (f.locate none x) != p) with
  | some x => if f.locate none x = .outside then .outside x else .firewall x
  | none => .ok

/-- The FIREWALL event of a transaction (R189). -/
def Fab.firewallEvent (f : Fab) (t : Tag) (a : Nat) : Fab :=
  f.raise (srcBase ((dieBase t.destDie).getD 0) 0) 0x0206 (some t.partition) (tagBits t) a

/-- The NO_ROUTE event of a transaction (R30). -/
def Fab.noRouteEvent (f : Fab) (t : Tag) : Fab :=
  f.raise (srcBase ((dieBase t.sourceDie).getD 0) 0) 0x0207 (some t.partition) 0 (tagBits t)

/-- The order in which the partitions of a sub-share are served at a channel (R236). -/
def Chan.order (c : Chan) (s : SubShare) : List Nat := (List.range 16).map (fun i => (c.turn.get 15 s.index + 1 + i) % 16)

/-- A request of partition p that came to a channel now would be the next of its sub-share: a queue entry is free (R235), and in the
round robin no request that waits goes before it (R236). -/
def Fab.nextAt (f : Fab) (ch : Nat) (s : SubShare) (p : Nat) : Bool :=
  let q := (f.queued ch).filter (fun x => x.1 == s)
  !f.queueFull (ch, s) && !q.any (fun x => x.2.tag.partition == p) &&
  ((f.chan ch).order s).find? (fun k => k == p || q.any (fun x => x.2.tag.partition == k)) == some p

/-- An access of a block can be made now: the islands and crossings on the way to each of its lines take it (R22, R25), and so does
the queue of each channel (R235, R236). DESIGN CHOICE (log 93). -/
def Fab.mayAccess (f : Fab) (t : Tag) (a n : Nat) (write : Bool) : Bool :=
  f.calm ||
  (linesOf a n).all (fun l =>
    ((f.wayTo t.source.1 t.source.2 (64 * l)).any f.wayClear) &&
    match f.locate none (64 * l) with
    | .lpddr b o => f.nextAt (f.channelOf b o) (shareOf t b write) t.partition
    | _ => true)

/-- AN ACCESS OF A RANGE BY A BLOCK (R22, R25, R30, R33 to R35, R189, R205, R206, R231, R235, R236): `tag` gives the tag for a
destination die. Outside the map, or with no route, it ends with its event; the firewall drops it at the first line of another
owner, with its event; one that cannot be made now has the command wait; otherwise its lines draw their slots, a read is
corrected, and an uncorrectable line of a read is answered. DESIGN CHOICE (log 93). -/
def W.access (w : W) (tag : Nat → Tag) (a n : Nat) (write : Bool) : W × Reach :=
  if n = 0 then (w, .ok) else
  let f := w.fab
  let at_ := fun (x : Nat) => tag (f.locate none x).die
  let t := at_ a
  match f.guarded t.partition a n with
  | .ok =>
    if (f.wayTo t.source.1 t.source.2 a).isNone then ({ w with fab := f.noRouteEvent t }, .outside a)
    else if !f.mayAccess t a n write then ({ w with waits := true }, .wait)
    else
      let done := f.rangeDone (shareOf t ((f.locate none a).die - 16) write) t.partition a n write
      if write then ({ w with fab := done }, .ok)
      else match f.badIn a n with
        | some x => ({ w with fab := done }, .bad x)
        | none => ({ w with fab := done.corrects (some t.partition) a n }, .ok)
  | .firewall x => ({ w with fab := f.firewallEvent (at_ x) x }, .firewall x)
  | .outside x => ({ w with fab := f.noRouteEvent (at_ x) }, .outside x)
  | x => (w, x)

/-! ### Stores -/

/-- Noivos of a partition set. -/
def Fab.setNoivos (f : Fab) (p : Nat) (v : Noivos) : Fab := { f with noivos := f.noivos.set p v }

/-- Noivos state while nothing runs: area error, off, or idle (Table "Event entries"). -/
def Fab.noivosRest (f : Fab) (p : Nat) : Nat :=
  if (f.noivosOf p).areaError then 4 else if f.eff 0x9106 (p + 1) = 0 then 0 else 1

/-- Targets of a checkpoint that have not failed. -/
def Fab.liveTargets (f : Fab) (p : Nat) (c : Checkpoint) : List (Nat × Nat) :=
  (f.noivosTargets p).filter (fun e => !c.failed.contains e.1)

/-- A checkpoint ends: its number is used up, and nothing runs. -/
def Fab.endCheckpoint (f : Fab) (p : Nat) : Fab :=
  let v := f.noivosOf p
  let f1 := f.setNoivos p { v with running := none, nextNumber := v.nextNumber + 1 }
  f1.dset 0x9107 (p + 1) (f1.noivosRest p)

/-- A running checkpoint fails at a target (R440): CHECKPOINT_FAILED; it ends where every target has failed. -/
def Fab.failTarget (f : Fab) (p target status : Nat) : Fab :=
  match (f.noivosOf p).running with
  | some c =>
    if (f.liveTargets p c).any (fun e => e.1 == target) then
      let c1 := { c with failed := c.failed ++ [target] }
      let f1 := (f.setNoivos p { f.noivosOf p with running := some c1 }).raise 0x000F 0x0608 (some p) c.step
        (status % 256 * 256 + target)
      if (f1.liveTargets p c1).isEmpty then f1.endCheckpoint p else f1
    else f
  | none => f

/-- An uncorrectable page fails a checkpoint at every target (R440). DESIGN CHOICE (log 25). -/
def Fab.failCheckpoint (f : Fab) (p : Nat) : Fab :=
  (f.noivosTargets p).foldl (fun g e => g.failTarget p e.1 (Config.checkpointStatus 0)) f

/-- A checkpoint reads a page and sends it to its targets that have not failed (R438, R439). Its reads carry the photonic
interface's source unit. An uncorrectable line ends the context, and it fails the checkpoint at every target (R440), as a read does
that the firewall or the map refuses. DESIGN CHOICE (logs 65, 93). -/
def W.readPage (w : W) (p page : Nat) : W :=
  let v := w.fab.noivosOf p
  match v.running with
  | some c =>
    if !c.pages.contains page || c.read.contains page then w else
    let r := w.access (fun d => w.fab.unitTag p (d - 16) 6 d false) (page * 65536) 65536 false
    let note := fun (x : Checkpoint) (f : Fab) => { f with noivos := f.noivos.set p { v with running := some x } }
    match r.2 with
    | .ok =>
      let bytes := w.loads p (page * 65536) 65536
      let off := v.offset page c.copy (w.fab.eff 0x9103 (p + 1))
      let targets := (w.fab.noivosTargets p).filter (fun e => !c.failed.contains e.1)
      r.1.map (fun f => targets.foldl (fun g e =>
        g.rdmaWrite ((w.fab.locate none (page * 65536)).die - 16) p e.2 (f.endpointEntry p e.2) off bytes)
          (note { c with read := c.read ++ [page] } f))
    | .bad x => { r.1 with faults := r.1.faults ++ [(p, x)] }.map (fun f => f.failCheckpoint p)
    | .wait => r.1
    | _ => r.1.map (fun f => f.failCheckpoint p)
  | none => w

/-- A write to pages of an area sets both dirty bits (R438). -/
def Fab.dirty (f : Fab) (p a n : Nat) : Fab :=
  let v := f.noivosOf p
  let keep := fun (g : Nat) => !(Nat.ble (a / 65536) g && Nat.ble g ((a + n - 1) / 65536))
  if v.clean0.isEmpty && v.clean1.isEmpty then f
  else { f with noivos := f.noivos.set p { v with clean0 := v.clean0.filter keep, clean1 := v.clean1.filter keep } }

/-- The pages of a range that is about to be written: those that a running checkpoint has still to read are read first (R439).
DESIGN CHOICE (log 65). -/
def W.readPages (w : W) (p a n : Nat) : W :=
  if (w.fab.noivosOf p).running.isNone || n == 0 then w
  else (List.range ((a + n - 1) / 65536 - a / 65536 + 1)).foldl (fun x i => x.readPage p (a / 65536 + i)) w

/-- Bytes written under partition p at a canonical package address: pages that a running checkpoint has still to read are
read first (R439), then keys (R202), dirty bits (R438), and lines made good by a whole-line write (R208). A part-line write reads
the line first: a correctable error is corrected, and on a bad line the write is dropped and recorded (R200, R205, R207). -/
def W.store (w : W) (p a : Nat) (bytes : List Byte) : W :=
  let n := bytes.length
  let w0 := w.readPages p a n
  let ls := linesOf a n
  let bad := ls.filter (fun l => w.fab.badLines.contains l && !(Nat.ble a (l * 64) && Nat.ble (l * 64 + 64) (a + n)))
  let whole := ls.filter (fun l => Nat.ble a (l * 64) && Nat.ble (l * 64 + 64) (a + n))
  let w1 := (ls.filter (fun l => !bad.contains l)).foldl (fun x l => x.rekey p l) w0
  let w2 := if bad.isEmpty then w1.puts a bytes
    else (List.range n).foldl (fun x i => if bad.contains ((a + i) / 64) then x else x.put (a + i) (bytes.getD i 0)) w1
  w2.map (fun f =>
    let f1 := if f.softLines.isEmpty then f else
      ls.foldl (fun g l => if whole.contains l then g.repaired l else g.corrects (some p) (64 * l) 64) f
    let f2 := bad.foldl (fun g l => g.memRecorded (g.locate none (64 * l)) (some p)) f1
    ({ f2 with badLines := f2.badLines.filter (fun l => !whole.contains l) }).dirty p a n)

/-- Bytes that unit `u` of the destination's own base die writes under partition p, and what the write came to; one refused changes
nothing (R189). -/
def W.unitStore (w : W) (p u a : Nat) (bytes : List Byte) : W × Reach :=
  match w.access (fun d => w.fab.unitTag p (d - 16) u d true) a bytes.length true with
  | (w1, .ok) => (w1.store p a bytes, .ok)
  | r => r

/-- A little-endian value of n bytes written. -/
def W.storeNat (w : W) (p a n v : Nat) : W := w.store p a (leBytes n v)

/-! ### The Well's code -/

/-- Key of a Well word, and of a row's tag, in `wellFaults` (R193). -/
def wordKey (c off : Nat) : Nat := (wellBase c + off) / 8
/-- Key of the tag of a Well row. -/
def tagKey (c row : Nat) : Nat := 2 ^ 60 + 16384 * c + row

/-- Keys of the words that a Well range touches. -/
def wordKeys (c off n : Nat) : List Nat :=
  if n = 0 then [] else (List.range ((off + n - 1) / 8 - off / 8 + 1)).map (fun i => wordKey c (off / 8 * 8 + 8 * i))

/-- A scale tag written: it is good again (R78, R193). -/
def Fab.setTag (f : Fab) (c row : Nat) (t : W32) : Fab :=
  { f with
    tags := f.tags.set (16384 * c + row) t,
    wellFaults := if f.wellFaults.isEmpty then f.wellFaults else f.wellFaults.clear (· == tagKey c row) }

/-- The tags of the rows of some clusters cleared: they are good again (R193, R468). -/
def Fab.clearTags (f : Fab) (q : Nat → Bool) : Fab :=
  { f with
    tags := f.tags.clear (fun k => q (k / 16384)),
    wellFaults := f.wellFaults.clear (fun k => Nat.ble (2 ^ 60) k && q ((k - 2 ^ 60) / 16384)) }

/-- The Well address that an event names for a key. -/
def wellPlace (c k : Nat) : Place :=
  if 2 ^ 60 ≤ k then .well c ((k - 2 ^ 60 - 16384 * c) * 64) else .well c (8 * k - wellBase c)

/-- Words read from the Well of cluster c meet its code (R193, R205): the corrected ones are counted and written back, and the
first uncorrectable one is answered as a place. -/
def Fab.wellCode (f : Fab) (c : Nat) (keys : List Nat) : Fab × Option Place :=
  if f.wellFaults.isEmpty then (f, none) else
  match keys.find? (fun k => f.wellFaults.find? k == some true) with
  | some k => (f, some (wellPlace c k))
  | none => (keys.foldl (fun g k =>
      if g.wellFaults.find? k = some false then
        ({ g with wellFaults := g.wellFaults.clear (· == k) }).memCorrected (wellPlace c k) (some (f.clusterOwner c))
      else g) f, none)

/-- Rows of 64 bytes with their tags read from the Well of cluster c. -/
def rowKeys (c : Nat) (rows : List Nat) : List Nat :=
  rows.flatMap (fun a => wordKeys c a 64 ++ [tagKey c (a / 64)])

/-- Bytes written into a cluster's Well: whole words are good again; a write of part of a word corrects it first, and is dropped
and recorded where the word is bad. DESIGN CHOICE (log 94). -/
def W.wellPut (w : W) (c off : Nat) (bytes : List Byte) : W :=
  if w.fab.wellFaults.isEmpty then w.puts (wellBase c + off) bytes else
  let n := bytes.length
  let keys := wordKeys c off n
  let whole := fun (k : Nat) => Nat.ble (wellBase c + off) (8 * k) && Nat.ble (8 * k + 8) (wellBase c + off + n)
  let bad := keys.filter (fun k => !whole k && w.fab.wellFaults.find? k == some true)
  let w1 := (List.range n).foldl (fun x i =>
    if bad.contains ((wellBase c + off + i) / 8) then x else x.put (wellBase c + off + i) (bytes.getD i 0)) w
  w1.map (fun f =>
    let f1 := { f with wellFaults := f.wellFaults.clear (fun k => keys.contains k && whole k) }
    let f2 := (f1.wellCode c (keys.filter (fun k => !bad.contains k))).1
    bad.foldl (fun g k => g.memRecorded (wellPlace c k) (some (f.clusterOwner c))) f2)

/-! ### Streams -/

/-- Stream fields of a descriptor (Table "Stream descriptor"). -/
def descField (d : BitVec 512) (hi lo : Nat) : Nat := bitsOf d.toNat hi lo

/-- Window of a stream in units. -/
def Stream.window (s : Stream) : Nat := descField s.desc 31 16

/-- The stream runs out of the Well. -/
def Stream.out (s : Stream) : Bool := descField s.desc 63 63 = 1

/-- Units of one segment: Rows × Row units (R218, R220). -/
def segUnits (g : BitVec 256) : Nat := bitsOf g.toNat 175 160 * bitsOf g.toNat 159 144

/-- Units of one pass. -/
def Stream.passUnits (s : Stream) : Nat := ((s.segs.getD []).map segUnits).sum

/-- One past the last unit of the running pass. -/
def Stream.curEnd (s : Stream) : Nat :=
  match s.cur with
  | some p => p.start + s.passUnits
  | none => s.head

/-- One past the last unit of the running and the pending pass (R224, R225). -/
def Stream.limit (s : Stream) : Nat := s.curEnd + (if s.pendingArm.isSome ∧ s.cur.isSome then s.passUnits else 0)

/-- Consecutive landed units from `n` on, at most `fuel`. -/
def landedRun (t : Tbl StreamUnit) (n : Nat) : Nat → Nat
  | 0 => 0
  | k + 1 => if (t.find? n).isSome then landedRun t (n + 1) k + 1 else 0

/-- Credits of a stream (R225): landed units at the head, or free places within the armed and pending passes. -/
def Stream.credits (s : Stream) : Nat :=
  match s.state with
  | .armed => if s.out then min (s.window - (s.head - s.asked)) (s.limit - s.head) else landedRun s.units s.head s.window
  | _ => if s.out then 0 else if s.state = .spent then landedRun s.units s.head s.window else 0

/-- The bound stream of a handle. -/
def Cluster.stream? (cl : Cluster) (k q : Nat) : Option Stream :=
  cl.streams.find? (fun s => s.strand == k && s.handle == q)

/-- The bound stream of a handle changed. -/
def Cluster.onStream (cl : Cluster) (k q : Nat) (g : Stream → Stream) : Cluster :=
  { cl with streams := updateFirst (fun s => s.strand == k && s.handle == q) g cl.streams }

/-- Credits of a handle (R104, R225). -/
def Cluster.credits (cl : Cluster) (k q : Nat) : Nat := ((cl.stream? k q).map Stream.credits).getD 0

/-- A cancel has something to end: a pass runs, or units of an out-stream are not acknowledged (R240). -/
def Stream.active (s : Stream) : Bool := s.state == .armed || (s.state == .spent && s.out && Nat.blt s.written s.head)

/-- Segments of a stream that have not retired: of the running pass, those of an out-stream accepted and not acknowledged, and
those of the pending pass; before the batch is fetched, as many as the descriptor names (R227, R240). -/
def Stream.unretired (s : Stream) : Nat :=
  let n := match s.segs with | some l => l.length | none => descField s.desc 39 32
  (if s.out && s.active then (s.units.filter (fun u => u.2.ends)).length else 0) +
  (if s.state = .armed then (n - s.retired) + (if s.pendingArm.isSome then n else 0) else 0)

/-- Units a cancel discards: landed ones, or accepted ones not yet injected (R240). -/
def Stream.discarded (s : Stream) : Nat :=
  if s.out then (if s.active then s.head - s.asked else 0) else if s.state = .armed then s.units.length else 0

/-- The cancel of a stream (R240): no further request or injection, landed units and units not injected discarded, the pending
arm kept; injected writes complete, and their segments give no signal. -/
def Stream.cancel (s : Stream) : Stream :=
  if s.active then
    if s.out then
      { s with state := .cancelling, head := s.asked, cur := none,
               units := (s.units.filter (fun u => Nat.blt u.1 s.asked)).map (fun u => (u.1, { u.2 with ends := false, signal := false })),
               retired := 0, gather := [], lines := [], fetching := false }
    else { s with state := .cancelling, units := [], asked := s.head, cur := none, retired := 0, fetching := false }
  else s

/-- The requests of a stream that a cancel makes void (R240, R242). -/
def Txn.voided (c uid : Nat) (t : Txn) : Txn :=
  match t.origin with
  | .units d u _ _ | .batch d u => if d = c ∧ u = uid then { t with origin := .void c } else t
  | _ => t

/-- A cancel with its counts (R240, R242, R245); `met` segments retire with another status (R230). -/
def Fab.cancelStream (f : Fab) (c k q : Nat) (met : Nat := 0) : Fab :=
  match (f.cluster c).stream? k q with
  | some s =>
    let p := f.partitionOf c
    let f1 := if s.unretired - met = 0 then f else f.dadd 0x3C30 (p + 1) (s.unretired - met)
    let f2 := if s.discarded = 0 then f1 else f1.dadd 0x3C31 (p + 1) s.discarded
    let f3 := if s.active then { f2 with txns := f2.txns.map (Txn.voided c s.uid) } else f2
    f3.onCluster c (fun cl => cl.onStream k q Stream.cancel)
  | none => f

/-- Every stream of a cluster cancelled (R126). -/
def Fab.cancelAll (f : Fab) (c : Nat) : Fab :=
  (f.cluster c).streams.foldl (fun g s => g.cancelStream c s.strand s.handle) f

end Sys2Proof.Machine
end

