-- ==== Sys2Proof/Machine/Operands.lean ====
section
/-! DEFINITION. Operands of Scribe instructions: fields of the word (R133, R138, R509), reserved encodings (R135, R136),
handles (R103, R104), Well and accumulator ranges of operations in flight with the interlocks and holds of R48, R52, R53 and
R114, the delayed counter signals of R119, and the precise checks of the instructions that start an operation (R148 to R160). -/

namespace Sys2Proof.Machine

open Sys2Proof

/-! ### Fields -/

/-- Bits [hi:lo] of an instruction word. -/
def fld (w : Word) (hi lo : Nat) : Nat := bitsOf w.toNat hi lo

/-- Opcode (Table "Common fields"). -/
def opcodeOf (w : Word) : Nat := fld w 63 56

/-- Format R fields rd, ra, rb. -/
def fRd (w : Word) : Nat := fld w 51 47
/-- Format R field ra. -/
def fRa (w : Word) : Nat := fld w 46 42
/-- Format R field rb. -/
def fRb (w : Word) : Nat := fld w 41 37
/-- Format R field I. -/
def fI (w : Word) : Bool := fld w 36 36 = 1
/-- Format R field fn. -/
def fFn (w : Word) : Nat := fld w 35 32
/-- Format R field imm as a 32-bit pattern. -/
def fImm (w : Word) : Nat := fld w 31 0

/-- The immediate sign-extended to 64 bits (R137). -/
def immWord (w : Word) : Word := (BitVec.ofNat 32 (fImm w)).signExtend 64

/-- The second operand b: rb, or the immediate when I = 1 (R138, R143). -/
def operandB (w : Word) (t : Strand) : Word := if fI w then immWord w else t.sreg (fRb w)

/-- The predicate's verdict: p[pr] xor pn (R134). -/
def predicate (w : Word) (t : Strand) : Bool := t.preg (fld w 55 53) != (fld w 52 52 = 1)

/-! ### Reserved encodings -/

/-- An opcode of Table "Opcode map" (R140). -/
def knownOpcode (o : Nat) : Bool :=
  Nat.ble o 0x07 || (Nat.ble 0x10 o && Nat.ble o 0x24) || (Nat.ble 0x30 o && Nat.ble o 0x34) ||
  (Nat.ble 0x40 o && Nat.ble o 0x43) || (Nat.ble 0x50 o && Nat.ble o 0x54) || o == 0x60 ||
  (Nat.ble 0x70 o && Nat.ble o 0x79) || o == 0x80 || o == 0x90 || o == 0x91

/-- Fields ra, rb, I, fn and imm of an instruction whose second operand is b: rb is 0 when I = 1, imm is 0 when I = 0
(R138). -/
def bOk (w : Word) : Bool := if fI w then fRb w == 0 else fImm w == 0

/-- A VOP function code of Table "Vector function codes" (R154). -/
def vopKnown (fn : Nat) : Bool := Nat.ble fn 6 || (Nat.ble 0x10 fn && Nat.ble fn 0x15) || (Nat.ble 0x20 fn && Nat.ble fn 0x23)

/-- The function uses src2. -/
def vopUses2 (fn : Nat) : Bool := Nat.ble 1 fn && Nat.ble fn 6

/-- The function uses src3. -/
def vopUses3 (fn : Nat) : Bool := fn == 4

/-- The function is a reduction. -/
def vopReduces (fn : Nat) : Bool := Nat.ble 0x20 fn

/-- An operand specifier names a tile handle or a stream handle (R138). -/
def specOk (s : Nat) : Bool := Nat.blt s 24

/-- An operand specifier names a tile handle. -/
def specTile (s : Nat) : Bool := Nat.blt s 16

/-- The encoding rules of VOP (R138, R154, R178). -/
def vopEncOk (w : Word) : Bool :=
  let fn := fld w 51 46
  let dst := fld w 45 41
  let s1 := fld w 40 36
  let s2 := fld w 35 31
  let s3 := fld w 30 26
  let bc := fld w 25 24
  vopKnown fn && specOk dst && specOk s1 && fld w 13 0 == 0 &&
  (if vopUses2 fn then specOk s2 || (s2 == 31 && bc == 3) else s2 == 0 && bc == 0) &&
  (if vopUses3 fn then specOk s3 else s3 == 0) &&
  !((bc == 1 || bc == 2) && !(specTile s1 || specTile dst)) &&
  !(vopReduces fn && !specTile s1) &&
  (fld w 18 14 == 0 || s2 == 31)

/-- The word has no reserved encoding apart from those a register value or the cluster decides (R135, R136, R138).
PLOG 0x4 uses imm[0] and its imm[31:1] is not tested (R142). DESIGN CHOICE (log 105). -/
def encOk (w : Word) : Bool :=
  let z := fun hi lo => fld w hi lo == 0
  match opcodeOf w with
  | 0x00 | 0x01 | 0x02 | 0x06 => z 51 0
  | 0x03 => z 51 32 && z 31 16
  | 0x04 => z 46 32 && z 31 8 && Nat.ble (fImm w) 0x0E
  | 0x05 => z 51 47 && z 41 32 && z 31 8 && [0x07, 0x08, 0x09, 0x0D].contains (fImm w)
  | 0x07 => Nat.blt (fRd w) 8 &&
      (if fFn w == 4 then fI w && z 46 37 else Nat.blt (fFn w) 4 && Nat.blt (fRa w) 8 && Nat.blt (fRb w) 8 && z 36 36 && z 31 0)
  | 0x10 | 0x11 | 0x12 | 0x13 | 0x14 | 0x15 | 0x16 | 0x17 | 0x18 | 0x19 | 0x1A => bOk w && z 35 32
  | 0x1B | 0x1C => fI w && z 46 37 && z 35 32
  | 0x1D => Nat.blt (fRd w) 8 && bOk w && Nat.ble (fFn w) 5
  | 0x1E => if fFn w == 5 || fFn w == 6 then z 41 36 && z 31 0 else bOk w && Nat.ble (fFn w) 4
  | 0x1F => Nat.blt (fRd w) 8 && bOk w && Nat.ble (fFn w) 3
  | 0x20 => Nat.blt (fRd w) 16 && Nat.blt (fRa w) 16 && bOk w && z 35 32
  | 0x21 => Nat.blt (fRd w) 16 && z 41 0
  | 0x22 => Nat.blt (fRa w) 16 && z 41 0
  | 0x23 => Nat.blt (fRd w) 16 && z 41 0
  | 0x24 => Nat.blt (fRa w) 16 && z 41 0
  | 0x30 => z 51 16
  | 0x31 => z 41 36 && Nat.ble (fFn w) 5 && z 31 16
  | 0x32 | 0x33 => z 46 16
  | 0x34 => z 46 0
  | 0x40 => z 51 47 && !(fld w 46 45 == 3) && z 44 38 && z 31 16 && !z 15 0
  | 0x41 | 0x42 | 0x43 => !(fld w 46 45 == 3) && z 44 38 && z 31 0
  | 0x50 => z 47 31 && z 23 0
  | 0x51 => z 7 0
  | 0x52 => z 23 16 && z 10 9 && z 6 0
  | 0x53 => z 51 48 && z 30 0
  | 0x54 => z 51 48 && z 23 16 && z 10 0
  | 0x60 => vopEncOk w
  | 0x70 => Nat.blt (fRd w) 8 && z 41 0
  | 0x71 | 0x76 => z 51 47 && Nat.blt (fRa w) 8 && z 41 0
  | 0x72 | 0x73 => Nat.blt (fRd w) 16 && Nat.blt (fRa w) 8 && z 36 0
  | 0x74 => z 51 47 && Nat.blt (fRa w) 8 && z 36 0
  | 0x75 => z 51 47 && Nat.blt (fRa w) 8 && Nat.blt (fRb w) 16 && z 36 0
  | 0x77 => Nat.blt (fRa w) 8 && z 41 0
  | 0x78 => Nat.blt (fRa w) 16 && z 41 36 && Nat.ble (fFn w) 6
  | 0x79 => z 51 47 && Nat.blt (fRa w) 16 && z 36 36 && Nat.ble (fFn w) 3
  | 0x80 => Nat.blt (fRa w) 16 && Nat.blt (fRb w) 16 && Nat.ble (fld w 26 23) 8 && !(fld w 22 21 == 3) && z 12 0 &&
      !(fld w 20 19 == 3 && !z 18 13)
  | 0x90 => Nat.blt (fRa w) 16 && Nat.blt (fRb w) 16 && z 36 0
  | 0x91 => Nat.blt (fRa w) 16 && Nat.blt (fRb w) 16 && z 36 32 && z 31 5 && !z 4 0 && Nat.ble (fImm w) 16
  | _ => false

/-! ### Handles -/

/-- A tile handle (Table "Tile handle", R103). -/
structure Tile where
  fmt : Fmt
  rows : Nat
  stride : Nat
  base : Nat
  deriving DecidableEq, Repr

/-- The tile of a handle, none when its use raises BAD_HANDLE (R103, R139). -/
def tileOf (h : Word) : Option Tile :=
  let v := h.toNat
  match fmtOfCode (bitsOf v 63 58) with
  | some m =>
    let rows := bitsOf v 48 40
    let stride := bitsOf v 39 24
    let base := bitsOf v 19 0
    if bitsOf v 57 49 = 0 ∧ bitsOf v 23 20 = 0 ∧ 1 ≤ rows ∧ rows ≤ 256 ∧ 1 ≤ stride ∧ stride ≤ 1024 ∧ base % 64 = 0
    then some ⟨m, rows, stride, base⟩ else none
  | none => none

/-- Distance between rows in bytes. -/
def Tile.pitch (t : Tile) : Nat := 64 * t.stride

/-- The Well's size. -/
def wellSize : Nat := 0x100000

/-- BAD_HANDLE of tile handle r (R124). -/
def badTile (pc : BitVec 16) (r : Nat) : Exc := ⟨.badHandle, pc, BitVec.ofNat 64 r⟩

/-- BAD_HANDLE of stream handle r (R124). -/
def badStream (pc : BitVec 16) (r : Nat) : Exc := ⟨.badHandle, pc, BitVec.ofNat 64 (16 + r)⟩

/-- WELL_RANGE with a value in EINFO (R124). -/
def wellRange (pc : BitVec 16) (v : Nat) : Exc := ⟨.wellRange, pc, BitVec.ofNat 64 v⟩

/-- ACC_RANGE (R124). -/
def accRange (pc : BitVec 16) (base m : Nat) : Exc := ⟨.accRange, pc, BitVec.ofNat 64 (base * 65536 + m)⟩

/-- TILE_WIDTH (R124). -/
def tileWidth (pc : BitVec 16) (w : Nat) : Exc := ⟨.tileWidth, pc, BitVec.ofNat 64 w⟩

/-- ILLEGAL with the instruction word (R136). -/
def illegalExc (pc : BitVec 16) (w : Word) : Exc := ⟨.illegal, pc, w⟩

/-- ADDR_RANGE (R124). -/
def addrRange (pc : BitVec 16) (a : Word) : Exc := ⟨.addrRange, pc, a⟩

/-- A q register holds a bound handle. -/
def handleValid (h : Word) : Bool := bitsOf h.toNat 63 63 = 1

/-- A q register's direction: true out of the Well. -/
def handleOut (h : Word) : Bool := bitsOf h.toNat 62 62 = 1

/-- A q register's stream number. -/
def handleNumber (h : Word) : Nat := bitsOf h.toNat 15 0

/-- The q register value of a bound handle (Table "Stream handle"; Credits is computed). -/
def boundHandle (out : Bool) (n : Nat) : Word := BitVec.ofNat 64 (2 ^ 63 + (if out then 2 ^ 62 else 0) + n % 65536)

/-! ### The shape of a VOP (R170 to R177) -/

/-- Units that `n` elements of a format take in a stream (R171, R180). -/
def unitsFor (m : Fmt) (n : Nat) : Nat := (n * fmtBits m + 511) / 512

/-- Row length n_r of a tile in elements (R170). -/
def rowLength (m : Fmt) (stride : Nat) : Nat := 512 / fmtBits m * stride

/-- n_r of the shape operand of a VOP (R177); 1 where there is none. -/
def VopOp.shape (o : VopOp) : Nat :=
  match o.src1, o.dst with
  | .tile _ _ st m, _ => rowLength m st
  | _, .tile _ _ st m => rowLength m st
  | _, _ => 1

/-- Elements that src2 needs (R177). -/
def VopOp.need2 (o : VopOp) : Nat :=
  match o.bc with
  | 0 => o.count
  | 1 => o.shape
  | 2 => (o.count + o.shape - 1) / o.shape
  | _ => 1

/-- Elements that dst receives (R173). -/
def VopOp.results (o : VopOp) : Nat :=
  if o.fn = 0x20 ∨ o.fn = 0x21 then (o.count + o.shape - 1) / o.shape
  else if o.fn = 0x22 ∨ o.fn = 0x23 then min o.count o.shape
  else o.count

/-! ### Ranges and interlocks -/

/-- A range of the Well (space 0, bytes) or of the accumulator file (space 1, rows). -/
structure Range where
  space : Nat
  lo : Nat
  n : Nat
  deriving DecidableEq, Repr

/-- Two ranges share a byte or a row. -/
def Range.meets (a b : Range) : Bool := a.space == b.space && Nat.blt a.lo (b.lo + b.n) && Nat.blt b.lo (a.lo + a.n)

/-- Bytes of a Well operand of a VOP that spans its tile (R170). -/
def VSrc.ranges : VSrc → List Range
  | .tile a rows stride _ => [⟨0, a, rows * stride * 64⟩]
  | _ => []

/-- Well bytes of tile rows of 64 bytes. -/
def rowRanges (a pitch n len : Nat) : List Range := (List.range n).map (fun i => ⟨0, a + i * pitch, len⟩)

/-- Bytes of one drained row (R151). -/
def drainRowBytes (m : Fmt) (w : Nat) : Nat := (if fmtMx m then (w + 31) / 32 * 32 else w) * fmtBits m / 8

/-- Well and accumulator ranges an operation reads. -/
def OpKind.reads : OpKind → List Range
  | .tmul o => rowRanges o.act o.stride o.m 64 ++ (if o.accumulate then [⟨1, o.base, o.m⟩] else [])
  | .wload a s _ w => rowRanges a s w 64
  | .drain o => [⟨1, o.base, o.m⟩]
  | .drainb _ _ b m _ _ => [⟨1, b, m⟩]
  | .vop o => o.src1.ranges ++ o.src2.ranges ++ o.src3.ranges
  | .sout _ a s n _ => rowRanges a s n 64
  | _ => []

/-- Well and accumulator ranges an operation writes. -/
def OpKind.writes : OpKind → List Range
  | .tmul o => [⟨1, o.base, o.m⟩]
  | .drain o => rowRanges o.addr o.stride o.m (drainRowBytes o.fmt o.w) ++ (if o.z then [⟨1, o.base, o.m⟩] else [])
  | .aclr b m => [⟨1, b, m⟩]
  | .vop o => o.dst.ranges
  | .sin _ a s n _ => rowRanges a s n 64
  | .store a n _ => if a < wellSize then [⟨0, a, n⟩] else []
  | _ => []

/-- Some range of one list meets some range of another. -/
def meetAny (a b : List Range) : Bool := a.any (fun x => b.any (fun y => x.meets y))

/-- A strand's instruction waits for an earlier operation of the strand that writes what it reads or writes (R114). -/
def Cluster.interlocked (cl : Cluster) (k : Nat) (kind : OpKind) : Bool :=
  cl.ops.any (fun o => o.strand == k && meetAny o.kind.writes (kind.reads ++ kind.writes))

/-- Well ranges locked by tile multiplies in flight (R48), other than operation `self`. -/
def Cluster.locked (cl : Cluster) (self : Nat) (r : List Range) : Bool :=
  cl.ops.any (fun o => o.id != self && match o.kind with
    | .tmul t => meetAny (rowRanges t.act t.stride t.m 64) (r.filter (fun x => x.space == 0))
    | .wload a s _ w => meetAny (rowRanges a s w 64) (r.filter (fun x => x.space == 0))
    | _ => false)

/-- A drain of some kind: it reads or clears accumulator rows (R53, R152). -/
def OpKind.drains : OpKind → Option (Nat × Nat)
  | .drain o => some (o.base, o.m)
  | .drainb _ _ b m _ _ => some (b, m)
  | .aclr b m => some (b, m)
  | _ => none

/-- The operation is a tile multiply. -/
def OpKind.isTmul : OpKind → Bool
  | .tmul _ => true
  | _ => false

/-- A drain of some kind before operation `id` whose rows meet some rows and which satisfies a condition. -/
def Cluster.drainBefore (cl : Cluster) (id b m : Nat) (q : Op → Bool) : Bool :=
  cl.ops.any (fun p => Nat.blt p.id id && q p && match p.kind.drains with
    | some r => (Range.mk 1 r.1 r.2).meets ⟨1, b, m⟩
    | none => false)

/-- An operation has still to clear its rows, at its completion (R151). DEDUCED (log 32). -/
def Op.clearsLater (p : Op) : Bool :=
  match p.kind with
  | .drain d => d.later
  | _ => false

/-- A tile multiply that has started still reads buffers that a swap has made the shadow ones: its last row has not passed nib
input, which is 6 cycles before its completion (R52, R57). DEDUCED (log 32). -/
def Op.readsShadow (p : Op) (now : Nat) : Bool :=
  match p.kind with
  | .tmul t => !p.held && t.swapped && Nat.blt (now + 6) p.due
  | _ => false

/-- An operation waits, after its issue, for an earlier one of its cluster: a tile multiply for drains that have still to
read or clear its rows (R53, R151), a swap for weight loads (R52), a tile multiply for a swap before it that is held (R51); a weight
load for another load, for a swap still held, and for a tile multiply that still reads the shadow buffers (R52); a drain for tile
multiplies that write its rows (R53) and for held drains of them; a store for a lock (R48, R158). DEDUCED (log 32). -/
def Cluster.mustHold (cl : Cluster) (now id : Nat) (kind : OpKind) : Bool :=
  let earlier := cl.ops.filter (fun o => Nat.blt o.id id)
  let drainHeld := fun (b m : Nat) => cl.drainBefore id b m Op.held || earlier.any (fun p => match p.kind with
    | .tmul t => (Range.mk 1 t.base t.m).meets ⟨1, b, m⟩ | _ => false)
  match kind with
  | .tmul o =>
    cl.drainBefore id o.base o.m (fun p => p.held || p.clearsLater) ||
    (o.swap && earlier.any (fun p => match p.kind with | .wload _ _ _ _ => true | _ => false)) ||
    earlier.any (fun p => p.held && match p.kind with | .tmul t => t.swap | _ => false)
  | .wload _ _ _ _ =>
    earlier.any (fun p => p.readsShadow now || match p.kind with
      | .wload _ _ _ _ => true | .tmul o => o.swap && p.held | _ => false)
  | .drain o => drainHeld o.base o.m
  | .aclr b m | .drainb _ _ b m _ _ => drainHeld b m
  | .store a n _ => Nat.blt a wellSize && cl.locked id [⟨0, a, n⟩]
  | _ => false

/-- The operation of a cluster with a number. -/
def Cluster.op? (cl : Cluster) (id : Nat) : Option Op := cl.ops.find? (fun o => o.id == id)

/-- Completion cycles of an operation from its issue, the greatest the spec names (Tables "Array latencies", "Vector
completion", "Stream instructions"; recorded, not enforced). DESIGN CHOICE (log 11). -/
def OpKind.latency (broad : Bool) : OpKind → Nat
  | .tmul o => 13 + o.m
  | .wload _ _ _ w => 1 + (w + 7) / 8
  | .drain o => 6 + o.m
  | .aclr _ m => 2 + m
  | .drainb _ _ _ m _ _ => (if broad then 32 else 8) + m
  | .vop o =>
    if o.fn ≤ 6 then 8 + (o.count + 63) / 64
    else if o.fn = 0x12 ∨ o.fn = 0x13 then 12 + (o.count + 63) / 64
    else if o.fn < 0x20 then 14 + (o.count + 31) / 32
    else 10 + (o.count + 63) / 64 + (if o.fn < 0x22 then 0 else (min o.count o.shape + 63) / 64)
  | .sin _ _ _ n _ => n + 1
  | .sout _ _ _ n _ => n
  | .bind _ _ | .coll _ => if broad then 120 else 102
  | _ => 0

/-- A swap passes a tile multiply that has started: its buffers change sides (R52). -/
def Op.flipped (o : Op) : Op :=
  match o.held, o.kind with
  | false, .tmul t => { o with kind := .tmul { t with swapped := !t.swapped } }
  | _, _ => o

/-- Shadow buffers become live and live ones shadow (R51). DEDUCED (log 32). -/
def Cluster.swapBuffers (cl : Cluster) : Cluster := { cl with live := cl.shadow, shadow := cl.live, ops := cl.ops.map Op.flipped }

/-- What the start of an operation takes from the issue credit (R448): the rows of a tile multiply, the lane groups of a VOP. -/
def OpKind.charge : OpKind → Option Nat
  | .tmul o => some o.m
  | .vop o => some ((o.count + 63) / 64)
  | _ => none

/-- Issue credit of a cluster now, times 64 (R448): it rises by D/64 a cycle up to 256, and stays there with D = 64.
DEDUCED (log 72). -/
def Fab.creditNow (f : Fab) (cl : Cluster) : Int :=
  if f.dget 0x2010 3 = 64 then 16384 else min 16384 (cl.credit + f.dget 0x2010 3 * (f.cycle - cl.creditAt : Nat))

/-- A tile multiply or VOP may not start while the credit is negative, or while D is 0 at the junction limit (R448, R450). -/
def Fab.throttled (f : Fab) (cl : Cluster) (kind : OpKind) : Bool :=
  kind.charge.isSome && (f.junctionStop || f.creditNow cl < 0)

/-- Accumulator rows cleared (R151, R152). -/
def Cluster.clearAcc (cl : Cluster) (base m : Nat) : Cluster :=
  { cl with acc := cl.acc.clear (fun k => Nat.ble (64 * base) k && Nat.blt k (64 * (base + m))) }

/-- Accumulator rows as they are now. -/
def Cluster.accRows (cl : Cluster) (base m : Nat) : Tbl W32 :=
  cl.acc.filter (fun e => Nat.ble (64 * base) e.1 && Nat.blt e.1 (64 * (base + m)))

/-! ### The drain (R82 to R86, R122, R123, R151) -/

/-- Bytes of converted elements packed in a format (R77). -/
def packElems (m : Fmt) (v : List Nat) : List Byte :=
  if fmtBits m = 4 then
    (List.range ((v.length + 1) / 2)).map (fun i => BitVec.ofNat 8 (v.getD (2 * i) 0 % 16 + 16 * (v.getD (2 * i + 1) 0 % 16)))
  else v.flatMap (fun x => leBytes (fmtBits m / 8) x)

/-- Values split into blocks of 32, the last padded with zeros (R151, R180). -/
def blocks32 (v : List Num) : List (List Num) :=
  (List.range ((v.length + 31) / 32)).map (fun b => (List.range 32).map (fun i => v.getD (32 * b + i) Num.zero))

/-- A row of results in a format: its bytes, the tag byte of each MX block, and its flags (R82 to R86, R151, R180). -/
def convertRow (m : Fmt) (v : List Num) : List Byte × List Nat × Raise :=
  if fmtMx m then
    let q := (blocks32 v).map (mxQuantise m)
    (packElems m (q.flatMap (·.2.1)), q.map (·.1), q.foldl (fun r b => r.or b.2.2) .none)
  else
    let q := v.map (convertElem m)
    (packElems m (q.map (·.1)), [], q.foldl (fun r b => r.or b.2) .none)

/-- One run of a drain with exponent e: per row its bytes, tags and flags (R151). -/
def drainRun (d : DrainOp) (e : Int) : List (List Byte × List Nat × Raise) :=
  (List.range d.m).map (fun j => convertRow d.fmt ((List.range d.w).map (fun n =>
    (fp32 ((d.got.getD []).get 0 (64 * (d.base + j) + n))).scale e)))

/-- The flags of a drain's rows. -/
def drainFlags (rows : List (List Byte × List Nat × Raise)) : Raise := rows.foldl (fun r x => r.or x.2.2) .none

/-- Exponent of the run in which a drain from e ends with `left` replays to come, the replays made, and whether that run still
overflows with no replay allowed (R122, R123, R295). -/
def drainEnd (running : Bool) (d : DrainOp) : Nat → Int → Nat → Int × Nat × Bool
  | left, e, n =>
    let r := drainFlags (drainRun d e)
    if d.rp && (r.ovf || r.so) && running then
      match left with
      | 0 => (e, n, true)
      | l + 1 => if e - 1 < -127 then (e, n, true) else drainEnd running d l (e - 1) (n + 1)
    else (e, n, false)

/-- An operation that starts, at the end of its hold: the credit pays (R448), a swap takes effect and the tile multiply has its weights
(R51), the matrix unit counts its interval (R57, R112), and a drain reads or clears its rows (R53, R151 to R153); one that is
replayed clears them at its completion. DEDUCED (log 32). -/
def Cluster.begin (cl : Cluster) (f : Fab) (kind : OpKind) : Cluster × OpKind :=
  let cl1 := match kind.charge with
    | some n => { cl with credit := max (-4194304) (f.creditNow cl - 64 * n), creditAt := f.cycle }
    | none => cl
  match kind with
  | .tmul o =>
    let cl2 := if o.swap then cl1.swapBuffers else cl1
    ({ cl2 with matrixFrom := f.cycle + o.m }, .tmul { o with weights := cl2.live })
  | .drain o =>
    let d := { o with got := some (cl.accRows o.base o.m) }
    let later := o.z && Nat.blt 0 (drainEnd (cl.phase == .running) d 3 d.e 0).2.1
    (if o.z && !later then cl1.clearAcc o.base o.m else cl1, .drain { d with later := later })
  | .aclr b m => (cl1.clearAcc b m, kind)
  | .drainb slot off b m w _ => (cl1, .drainb slot off b m w (some (cl.accRows b m)))
  | _ => (cl1, kind)

/-- An operation enters flight (R113, R137): it takes the cluster's next number, with its hold; it starts if not held. -/
def Cluster.start (cl : Cluster) (k : Nat) (epc : BitVec 16) (kind : OpKind) (f : Fab) (broad : Bool) : Cluster :=
  let held := cl.mustHold f.cycle cl.nextOp kind || f.throttled cl kind
  let b := if held then (cl, kind) else cl.begin f kind
  { b.1 with
    ops := b.1.ops ++ [⟨cl.nextOp, k, epc, b.2, held, f.cycle, f.cycle + kind.latency broad, false⟩], nextOp := cl.nextOp + 1 }

/-! ### Release of signals -/

/-- An operation writes memory or drains, so that a later SIGNAL or SET of its strand waits for it (R119, R157). -/
def OpKind.isWrite : OpKind → Bool
  | .drain _ | .drainb _ _ _ _ _ _ | .vop _ | .vout _ _ _ | .sin _ _ _ _ _ | .sout _ _ _ _ _ | .store _ _ _ => true
  | _ => false

/-- A strand has a write pending that was issued before operation `id`: an operation in flight, or units that one
gave to an out-stream, not yet accepted at their destination (R119). -/
def Cluster.writesPending (cl : Cluster) (k id : Nat) : Bool :=
  cl.ops.any (fun o => o.strand == k && Nat.blt o.id id && o.kind.isWrite) ||
  cl.streams.any (fun s => s.strand % 8 == k && s.out && s.units.any (fun e => Nat.blt e.2.op id))

/-- SIGNAL (n given) or SET applied to a counter seen from cluster c (R118). -/
def Fab.applySignal (f : Fab) (c scope i : Nat) (n : Option W32) (v : W32) : Fab :=
  f.setCounter c scope i (match n with | some d => f.counter c scope i + d | none => v)

/-- Signals of a cluster that waited for earlier writes and wait no longer change their counters, in issue order. -/
def Fab.settleFuel (c : Nat) : Nat → Fab → Fab
  | 0, f => f
  | n + 1, f =>
    let cl := f.cluster c
    match cl.ops.find? (fun o => match o.kind with
      | .signal _ _ _ _ => !cl.writesPending o.strand o.id &&
          !cl.ops.any (fun p => p.strand == o.strand && Nat.blt p.id o.id && match p.kind with | .signal _ _ _ _ => true | _ => false)
      | _ => false) with
    | some o =>
      match o.kind with
      | .signal sc i d v =>
        Fab.settleFuel c n ((f.onCluster c (fun cl => { cl with ops := cl.ops.filter (fun p => p.id != o.id) })).applySignal
          c sc i d v)
      | _ => f
    | none => f

/-- Every waiting signal of a cluster that may go, goes (R119). -/
def Fab.settle (f : Fab) (c : Nat) : Fab := Fab.settleFuel c (f.cluster c).ops.length f

/-- An operation leaves flight, and the signals that waited for it go. -/
def Fab.finish (f : Fab) (c id : Nat) : Fab :=
  (f.onCluster c (fun cl => { cl with ops := cl.ops.filter (fun o => o.id != id) })).settle c

/-- A pending register of a strand is no longer pending. -/
def Strand.unbusy (t : Strand) (d : Dest) : Strand := { t with busy := removeFirst (· == d) t.busy }

/-! ### Registers named by an instruction that another may have pending (R111) -/

/-- s and q registers that the word reads or writes. -/
def touches (w : Word) : List Dest :=
  let b := if fI w then [] else [Dest.s (fRb w)]
  let qs := fun (l : List Nat) => (l.filter (fun x => x / 8 == 2)).map (fun x => Dest.q (x % 8))
  let fn := fld w 51 46
  match opcodeOf w with
  | 0x04 => [.s (fRd w)]
  | 0x05 => [.s (fRa w)]
  | 0x10 | 0x11 | 0x12 | 0x13 | 0x14 | 0x15 | 0x16 | 0x17 | 0x18 | 0x19 | 0x1A => [.s (fRd w), .s (fRa w)] ++ b
  | 0x1E => [.s (fRd w), .s (fRa w)] ++ (if fFn w == 5 || fFn w == 6 then [] else b)
  | 0x1B | 0x1C => [.s (fRd w)]
  | 0x1D | 0x1F => .s (fRa w) :: b
  | 0x20 => b
  | 0x21 => [.s (fRa w)]
  | 0x22 | 0x24 => [.s (fRd w)]
  | 0x23 => [.s (fRa w)]
  | 0x31 => [.s (fRd w), .s (fRa w)]
  | 0x32 | 0x33 | 0x34 => [.s (fRd w)]
  | 0x41 | 0x42 | 0x43 => [.s (fld w 51 47)]
  | 0x51 | 0x52 | 0x54 => [.s (fld w 15 11)]
  | 0x60 => .s (fld w 23 19) :: (if vopUses2 fn && fld w 35 31 == 31 then [.s (fld w 18 14)] else []) ++
      qs ([fld w 45 41, fld w 40 36] ++ (if vopUses2 fn then [fld w 35 31] else []) ++ (if vopUses3 fn then [fld w 30 26] else []))
  | 0x70 => [.q (fRd w), .s (fRa w)]
  | 0x71 | 0x76 | 0x75 => [.q (fRa w)]
  | 0x72 | 0x73 | 0x74 => [.q (fRa w), .s (fRb w)]
  | 0x77 => [.s (fRd w), .q (fRa w)]
  | 0x78 => [.s (fRd w)]
  | 0x79 => [.s (fRb w)]
  | 0x80 => [.s (fRd w), .s (fld w 36 32), .s (fld w 31 27)]
  | 0x90 | 0x91 => [.s (fRd w)]
  | _ => []

/-! ### Streams and units an instruction uses -/

/-- Fields of a segment descriptor (Table "Segment descriptor"). -/
def segField (g : BitVec 256) (hi lo : Nat) : Nat := bitsOf g.toNat hi lo

/-- The format of a stream. -/
def Stream.fmt (s : Stream) : Fmt := (fmtOfCode (descField s.desc 59 54)).getD .int8

/-- A q handle of an operand. -/
def VSrc.handle? : VSrc → Option Nat
  | .stream h _ => some h
  | _ => none

/-- Stream handles an operation uses, and whether it gives (true) or takes. -/
def OpKind.handles : OpKind → List Nat
  | .sin h _ _ _ _ | .sout h _ _ _ _ | .vout h _ _ => [h]
  | .vop o => [o.dst, o.src1, o.src2, o.src3].filterMap VSrc.handle?
  | _ => []

/-- The operation that a stream serves now: the oldest in flight that names its handle (R171). -/
def Cluster.server (cl : Cluster) (k q : Nat) : Option Op :=
  cl.ops.find? (fun o => o.strand == k && o.kind.handles.contains q)

/-- The operation is a VOP that holds the slice: no older one is in flight (R182). -/
def Cluster.sliceHead (cl : Cluster) (id : Nat) : Bool :=
  !cl.ops.any (fun o => Nat.blt o.id id && match o.kind with | .vop _ | .vout _ _ _ => true | _ => false)


/-! ### Checks of matrix instructions (R41, R49, R50, R148 to R153) -/

/-- Dot length L of a pair of Table "Nib operand pairs"; none for any other pair (R41). -/
def dotLength (a w : Fmt) : Option Nat :=
  match a, w with
  | .e4m3, .e4m3 | .e4m3, .e5m2 | .e4m3, .mxE4m3 | .e4m3, .mxE5m2
  | .e5m2, .e4m3 | .e5m2, .e5m2 | .e5m2, .mxE4m3 | .e5m2, .mxE5m2
  | .mxE4m3, .e4m3 | .mxE4m3, .e5m2 | .mxE4m3, .mxE4m3 | .mxE4m3, .mxE5m2
  | .mxE5m2, .e4m3 | .mxE5m2, .e5m2 | .mxE5m2, .mxE4m3 | .mxE5m2, .mxE5m2 => some 64
  | .mxE3m2, .mxE3m2 | .mxE3m2, .mxE2m3 | .mxE3m2, .mxE4m3 | .mxE3m2, .mxE5m2
  | .mxE2m3, .mxE3m2 | .mxE2m3, .mxE2m3 | .mxE2m3, .mxE4m3 | .mxE2m3, .mxE5m2 => some 64
  | .mxE4m3, .mxE2m1 | .mxE5m2, .mxE2m1 => some 64
  | .mxE2m1, .mxE2m1 => some 128
  | .int8, .int8 => some 64
  | .bf16, .bf16 | .fp16, .fp16 => some 32
  | _, _ => none

/-- Dot length of an activation format against unformatted buffers (R40). -/
def dotLengthOf (a : Fmt) : Option Nat :=
  match a with
  | .fp32 => none
  | .mxE2m1 => some 128
  | .bf16 | .fp16 => some 32
  | _ => some 64

/-- Formats that the buffers hold once the loads in flight and the swaps still held have taken effect: live, shadow. -/
def effFmts : List Op → Option Fmt × Option Fmt → Option Fmt × Option Fmt
  | [], p => p
  | o :: r, p => effFmts r (match o.kind with
      | .wload _ _ m _ => (p.1, some m)
      | .tmul t => if t.swap && o.held then (p.2, p.1) else p
      | _ => p)

/-- Weight format a tile multiply issued now would meet (R149). -/
def Cluster.weightFmt (cl : Cluster) (swap : Bool) : Option Fmt :=
  let p := effFmts cl.ops (cl.live.fmt, cl.shadow.fmt)
  if swap then p.2 else p.1

/-- th. -/
def mTh (w : Word) : Nat := fld w 51 48
/-- base. -/
def mBase (w : Word) : Nat := fld w 47 40
/-- m. -/
def mM (w : Word) : Nat := fld w 39 31
/-- w. -/
def mW (w : Word) : Nat := fld w 30 24
/-- k. -/
def mK (w : Word) : Nat := fld w 23 16
/-- The s register sx. -/
def mSx (w : Word) (t : Strand) : Word := t.sreg (fld w 15 11)
/-- The scale operand sx[7:0] as I8 (R150). -/
def mScale (w : Word) (t : Strand) : Int := signedOf 8 (mSx w t).toNat

/-- A precise check: passes, or raises its exception. DEDUCED (log 20). -/
def check (b : Bool) (x : Exc) : Except Exc Unit := if b then .ok () else .error x

/-- The tile of handle th, or BAD_HANDLE. -/
def needTile (t : Strand) (r : Nat) : Except Exc Tile :=
  match tileOf (t.treg r) with
  | some h => .ok h
  | none => .error (badTile t.pc r)

/-- WLOAD's checks and operation (R148). DEDUCED (log 20). DESIGN CHOICE (log 114). -/
def wloadKind (w : Word) (cl : Cluster) (t : Strand) : Except Exc OpKind := do
  let h ← needTile t (mTh w)
  check (Nat.ble 1 (mW w) && Nat.ble (mW w) cl.pwidth) (tileWidth t.pc (mW w))
  let last := h.base + (mW w - 1) * h.pitch
  check (Nat.ble (last + 64) wellSize) (wellRange t.pc last)
  pure (.wload h.base h.pitch h.fmt (mW w))

/-- ACC_RANGE's condition (R50). -/
def accOk (base m : Nat) : Bool := Nat.ble 1 m && Nat.ble m 256 && Nat.ble (base + m) 256

/-- TMUL's checks in the order of R149, and its operation. DEDUCED (log 20). EINFO of WELL_RANGE is the first byte of the last row or
column, also where only M is past the tile's Rows. DESIGN CHOICE (log 114). -/
def tmulKind (w : Word) (cl : Cluster) (t : Strand) : Except Exc OpKind := do
  check (decide (-14 ≤ mScale w t) && decide (mScale w t ≤ 7)) (illegalExc t.pc w)
  let h ← needTile t (mTh w)
  let m := mM w
  let last := h.base + (m - 1) * h.pitch
  check (Nat.ble m h.rows && Nat.ble (last + 64) wellSize) (wellRange t.pc last)
  check (accOk (mBase w) m) (accRange t.pc (mBase w) m)
  check (Nat.ble 1 (mW w) && Nat.ble (mW w) cl.pwidth) (tileWidth t.pc (mW w))
  let swap := fld w 9 9 = 1
  let wf := cl.weightFmt swap
  let len := match wf with | some g => dotLength h.fmt g | none => dotLengthOf h.fmt
  let code := match wf with | some g => fmtCode g | none => 0
  check len.isSome ⟨.formatPair, t.pc, BitVec.ofNat 64 (fmtCode h.fmt * 256 + code)⟩
  check (Nat.ble 1 (mK w) && Nat.ble (mK w) (len.getD 0)) ⟨.klenRange, t.pc, BitVec.ofNat 64 (mK w)⟩
  pure (.tmul { act := h.base, stride := h.pitch, fmt := h.fmt, base := mBase w, m := m, w := mW w, k := mK w,
                e := mScale w t, accumulate := fld w 10 10 = 1, swap := swap, rp := fld w 8 8 = 1 })

/-- The drain makes this format (R97): every code but MXFP6. DEDUCED (log 90). -/
def drainFmt (m : Fmt) : Bool :=
  match m with
  | .mxE3m2 | .mxE2m3 => false
  | _ => true

/-- DRAIN's checks in the order of R151, and its operation. DEDUCED (logs 20, 90). DESIGN CHOICE (log 114). -/
def drainKind (w : Word) (cl : Cluster) (t : Strand) : Except Exc OpKind := do
  check (decide (mScale w t ≠ -128)) (illegalExc t.pc w)
  let h ← needTile t (mTh w)
  check (drainFmt h.fmt) (badTile t.pc (mTh w))
  let m := mM w
  let n := drainRowBytes h.fmt (mW w)
  let last := h.base + (m - 1) * h.pitch
  check (Nat.ble m h.rows && Nat.ble n h.pitch && Nat.ble (last + n) wellSize) (wellRange t.pc last)
  check (accOk (mBase w) m) (accRange t.pc (mBase w) m)
  check (Nat.ble 1 (mW w) && Nat.ble (mW w) cl.pwidth) (tileWidth t.pc (mW w))
  pure (.drain { addr := h.base, stride := h.pitch, fmt := h.fmt, base := mBase w, m := m, w := mW w,
                 e := mScale w t, rp := fld w 8 8 = 1, z := fld w 7 7 = 1, got := none })

/-- DRAINB's checks in the order of R153, and its operation. -/
def drainbKind (w : Word) (cl : Cluster) (t : Strand) : Except Exc OpKind := do
  check (bitsOf (mSx w t).toNat 63 32 == 0) (illegalExc t.pc w)
  check (accOk (mBase w) (mM w)) (accRange t.pc (mBase w) (mM w))
  check (Nat.ble 1 (mW w) && Nat.ble (mW w) cl.pwidth) (tileWidth t.pc (mW w))
  pure (.drainb (bitsOf (mSx w t).toNat 7 0) (bitsOf (mSx w t).toNat 31 8) (mBase w) (mM w) (mW w) none)

/-- ACLR's check and operation (R152). -/
def aclrKind (w : Word) (t : Strand) : Except Exc OpKind := do
  check (accOk (mBase w) (mM w)) (accRange t.pc (mBase w) (mM w))
  pure (.aclr (mBase w) (mM w))

/-! ### Checks of VOP (R154, R155, R170 to R179) -/

/-- The operand of a specifier: a tile handle, or a bound stream of the right direction that no earlier field of the VOP
names (R138, R171). DEDUCED (log 21). -/
def vopOperand (cl : Cluster) (k : Nat) (t : Strand) (dst : Bool) (used : List Nat) (spec : Nat) : Except Exc VSrc :=
  if specTile spec then
    match tileOf (t.treg spec) with
    | some h => .ok (.tile h.base h.rows h.stride h.fmt)
    | none => .error (badTile t.pc spec)
  else
    let q := spec - 16
    match cl.stream? k q with
    | some s =>
      if handleValid (t.qreg q) && handleOut (t.qreg q) == dst && !used.contains spec then .ok (.stream q s.fmt)
      else .error (badStream t.pc q)
    | none => .error (badStream t.pc q)

/-- Capacity C of a Well operand in elements (R170). -/
def VSrc.holds : VSrc → Nat → Bool
  | .tile _ rows stride m, n => Nat.ble n (rows * rowLength m stride)
  | _, _ => true

/-- A Well operand ends within the Well. -/
def VSrc.fits : VSrc → Bool
  | .tile a rows stride _ => Nat.ble (a + rows * stride * 64) wellSize
  | _ => true

/-- A destination tile overlaps a source tile without sharing its base (R179). -/
def VSrc.clashes (d s : VSrc) : Bool :=
  match d, s with
  | .tile a _ _ _, .tile b _ _ _ => a != b && meetAny d.ranges s.ranges
  | _, _ => false

/-- The checks of R179, in its order, on the operands a VOP uses. -/
def VopOp.rangeCheck (o : VopOp) (pc : BitVec 16) (count : Nat) : Except Exc Unit := do
  check (Nat.ble 1 count && Nat.ble count 65536) (wellRange pc count)
  check (o.src1.holds count && o.src2.holds o.need2 && o.src3.holds count && o.dst.holds o.results) (wellRange pc count)
  check (o.src1.fits && o.src2.fits && o.src3.fits && o.dst.fits) (wellRange pc count)
  check (!(o.bc == 1 || o.fn == 0x22 || o.fn == 0x23) || Nat.ble o.shape 4096) (wellRange pc o.shape)
  check (!(o.dst.clashes o.src1 || o.dst.clashes o.src2 || o.dst.clashes o.src3))
    (wellRange pc (match o.dst with | .tile a _ _ _ => a | _ => 0))

/-- VOP's checks, BAD_HANDLE for dst, src1, src2, src3 and then R179, and its operation (R155).
DEDUCED (logs 20, 21). -/
def vopKind (k : Nat) (w : Word) (cl : Cluster) (t : Strand) : Except Exc OpKind := do
  let fn := fld w 51 46
  let dSpec := fld w 45 41
  let s1 := fld w 40 36
  let s2 := fld w 35 31
  let s3 := fld w 30 26
  let dst ← vopOperand cl k t true [] dSpec
  let src1 ← vopOperand cl k t false [dSpec] s1
  let src2 ← if !vopUses2 fn then pure VSrc.unused
    else if s2 = 31 then pure (VSrc.scalar ((t.sreg (fld w 18 14)).setWidth 32))
    else vopOperand cl k t false [dSpec, s1] s2
  let src3 ← if !vopUses3 fn then pure VSrc.unused else vopOperand cl k t false [dSpec, s1, s2] s3
  let n := (t.sreg (fld w 23 19)).toNat
  let o : VopOp := { fn := fn, dst := dst, src1 := src1, src2 := src2, src3 := src3, bc := fld w 25 24, count := n,
                     got1 := [], got2 := [], got3 := [] }
  o.rangeCheck t.pc n
  pure (.vop o)

/-- The slice's input queue has room: one VOP runs and at most 4 wait (R112, R182). DESIGN CHOICE (log 34). -/
def Cluster.sliceRoom (cl : Cluster) : Bool :=
  Nat.blt (cl.ops.filter (fun o => match o.kind with | .vop _ | .vout _ _ _ => true | _ => false)).length 5

/-- Every stream operand of a VOP has delivered what it needs. -/
def VopOp.ready (o : VopOp) : Bool :=
  let full := fun (x : VSrc) (got n : Nat) => match x with | .stream _ m => Nat.ble (unitsFor m n) got | _ => true
  full o.src1 o.got1.length o.count && full o.src2 o.got2.length o.need2 && full o.src3 o.got3.length o.count

/-! ### Checks of stream and memory instructions (R104, R156, R188) -/

/-- The stream of handle ra, or BAD_HANDLE (R104). -/
def needStream (cl : Cluster) (k : Nat) (t : Strand) (q : Nat) : Except Exc Stream :=
  match handleValid (t.qreg q), cl.stream? k q with
  | true, some s => .ok s
  | _, _ => .error (badStream t.pc q)

/-- BIND's check and operation: NOT_SET_UP for a stream not live (R104, R215). -/
def bindKind (live : Tbl (BitVec 512)) (w : Word) (t : Strand) : Except Exc OpKind := do
  let n := bitsOf (t.sreg (fRa w)).toNat 15 0
  check (Nat.blt n 1024 && (live.find? n).isSome) ⟨.notSetUp, t.pc, BitVec.ofNat 64 n⟩
  pure (.bind (fRd w) n)

/-- The checks of SIN and SOUT: an unbound handle or one of the wrong direction, the tile, the count (R156, R509).
A bad count is named in EINFO (R124). DESIGN CHOICE (log 104). -/
def moveCheck (out : Bool) (k : Nat) (w : Word) (cl : Cluster) (t : Strand) : Except Exc (Nat × Tile × Nat) := do
  let q := fRa w
  let s ← needStream cl k t q
  check (s.out == out) (badStream t.pc q)
  let h ← needTile t (fRd w)
  let n := (t.sreg (fRb w)).toNat
  check (Nat.ble 1 n && Nat.ble n h.rows) (wellRange t.pc n)
  check (Nat.ble (h.base + (n - 1) * h.pitch + 64) wellSize) (wellRange t.pc (h.base + (n - 1) * h.pitch))
  pure (q, h, n)

/-- SIN's operation (R156). -/
def sinKind (k : Nat) (w : Word) (cl : Cluster) (t : Strand) : Except Exc OpKind := do
  let r ← moveCheck false k w cl t
  pure (.sin r.1 r.2.1.base r.2.1.pitch r.2.2 0)

/-- SOUT's operation (R156). -/
def soutKind (k : Nat) (w : Word) (cl : Cluster) (t : Strand) : Except Exc OpKind := do
  let r ← moveCheck true k w cl t
  pure (.sout r.1 r.2.1.base r.2.1.pitch r.2.2 0)

/-- Access size in bytes of LD and ST, and whether LD extends the sign (Table "Stream instructions"). -/
def accessSize (fn : Nat) : Nat × Bool :=
  match fn with
  | 0 => (1, false)
  | 1 => (2, false)
  | 2 => (4, false)
  | 3 => (8, false)
  | 4 => (1, true)
  | 5 => (2, true)
  | _ => (4, true)

/-- An LD or ST of cluster c may reach a place (R187, R188). DEDUCED (log 31). -/
def Fab.reaches (f : Fab) (c : Nat) (write : Bool) : Place → Bool
  | .well d _ => d == c || (!write && Nat.blt d 800 && regionOf d == regionOf c && isBroad d == isBroad c)
  | .outside => false
  | pl => f.placeOwner pl == f.partitionOf c

/-- Address of an LD or ST: aa + imm modulo 2^64. -/
def accessAddr (w : Word) (t : Strand) : Word := t.areg (fRa w) + immWord w

/-! ### Checks of COLL and the counters; the sampler (R120, R147, R159, R249) -/

/-- COLL's operands and its precise checks: NOT_SET_UP for a tree not live, COUNTER_RANGE (R120, R159). -/
def collKind (live : Tbl (BitVec 512)) (w : Word) (t : Strand) : Except Exc OpKind := do
  let n := bitsOf (t.sreg (fld w 31 27)).toNat 15 0
  let o : CollOp :=
    { rd := fRd w, src := (t.areg (fRa w)).toNat, dst := (t.areg (fRb w)).toNat, size := (t.sreg (fld w 36 32)).toNat,
      tree := n, kind := fld w 26 23, fmt := fld w 22 21, scope := fld w 20 19, ctr := fld w 18 13 }
  check (Nat.blt n 256 && (live.find? n).isSome) ⟨.notSetUp, t.pc, BitVec.ofNat 64 (65536 + n)⟩
  check (o.scope == 3 || Nat.blt o.ctr (counterCount o.scope)) ⟨.counterRange, t.pc, BitVec.ofNat 64 (o.scope * 256 + o.ctr)⟩
  pure (.coll o)

/-- Format C fields scope and ctr. -/
def fScope (w : Word) : Nat := fld w 46 45
/-- Format C field ctr. -/
def fCtr (w : Word) : Nat := fld w 37 32
/-- Format C field rv, also the first register of formats B and R. -/
def fRv (w : Word) : Nat := fld w 51 47

/-- A memory operation that FENCE waits for (R115). The spec gives no list: COLL and SAMPLE are not among them.
DESIGN CHOICE (log 103). -/
def OpKind.isMemory : OpKind → Bool
  | .load _ _ _ _ => true
  | o => o.isWrite

/-- A sampler unit. -/
def Fab.sampler (f : Fab) (b : Nat) : SamplerUnit := f.samplers.get ⟨[], none⟩ b

end Sys2Proof.Machine
end

