-- ==== Sys2Proof/Machine/Issue.lean ====
section
/-! DEFINITION. The issue of an instruction (R102, R109 to R113, R134, R136), the taking of an exception (R124 to R127, R165)
and what ends a launch (R127, R131). -/

namespace Sys2Proof.Machine

open Sys2Proof

/-! ### Launches and clusters -/

/-- The launch on a cluster, if one names it. -/
def Fab.launchOn (f : Fab) (c : Nat) : Option Launch :=
  f.launches.find? (fun l => l.clusters.contains c && l.partition == f.partitionOf c &&
    (match l.phase with | .loading | .running | .aborting => true | _ => false))

/-- A launch changed, named by its tag (R394). -/
def Fab.onLaunch (f : Fab) (p tag : Nat) (g : Launch → Launch) : Fab :=
  { f with launches := updateFirst (fun l => l.partition == p && l.tag == tag) g f.launches }

/-- A strand that issues nothing more. -/
def Strand.over (t : Strand) : Bool :=
  match t.st with
  | .idle | .ended | .faulted => true
  | _ => false

/-- The cluster whose stream a transaction serves; one that a cancel made void serves none (R242). -/
def TxnFor.owner : TxnFor → Option Nat
  | .batch c _ | .units c _ _ _ | .out c _ _ _ | .scale c _ _ => some c
  | .op _ _ | .void _ => none

/-- Everything a cluster's launch began is done (R100): its operations, the passes of its streams with the writes of its
out-streams, and the transactions of its streams. DEDUCED (log 57). -/
def Fab.quiet (f : Fab) (c : Nat) : Bool :=
  (f.cluster c).ops.isEmpty && (f.cluster c).streams.all (fun s => s.state == .spent && (!s.out || s.units.isEmpty)) &&
  !f.txns.any (fun t => t.origin.owner == some c)

/-- A launch on the cluster has ended (R100). -/
def Fab.finished (f : Fab) (c : Nat) : Bool :=
  (f.cluster c).phase == .running && (f.cluster c).strands.all (fun e => e.2.over) && f.quiet c

/-- A cluster returned to Idle: bindings gone, strands Idle (R99, R100). DEDUCED (log 57). -/
def Cluster.toIdle (cl : Cluster) (phase : ClusterPhase) : Cluster :=
  { cl with
    phase := phase, streams := [], ops := [], fatal := none, strands := cl.strands.map (fun e => (e.1, { e.2 with st := .idle })) }

/-- A cluster leaves its launch and returns to Idle. DEDUCED (log 57). -/
def Fab.leave (f : Fab) (c : Nat) (phase : ClusterPhase) : Fab :=
  let f1 := (f.cancelAll c).onCluster c (fun cl => cl.toIdle phase)
  let f2 := { f1 with waiting := f1.waiting.filter (fun x => x.cluster != c) }
  match f.launchOn c with
  | some l => f2.onLaunch l.partition l.tag (fun l => { l with clusters := l.clusters.filter (· != c) })
  | none => f2

/-- A cluster whose launch has ended returns to Idle (R100). DEDUCED (log 57). -/
def Fab.ends (f : Fab) (c : Nat) : Fab := if f.finished c then f.leave c .idle else f

/-- Something that a cluster's own units do: nothing while its island is in its safe state (R25, R456); a launch that it ends
leaves the cluster (R100). -/
def Fab.atCluster (f : Fab) (c : Nat) (body : Fab → Fab) : Fab := if f.halts c then f else (body f).ends c

/-- The same for what reaches memory. -/
def W.atCluster (w : W) (c : Nat) (body : W → W) : W :=
  if w.fab.halts c then w else (body w).map (fun f => f.ends c)

/-! ### Exceptions -/

/-- Cause code (Table "Exception causes", R124). -/
def Cause.code : Cause → Nat
  | .illegal => 0x01 | .badHandle => 0x02 | .wellRange => 0x03 | .accRange => 0x04 | .tileWidth => 0x05
  | .klenRange => 0x06 | .formatPair => 0x07 | .addrRange => 0x08 | .notSetUp => 0x09 | .counterRange => 0x0A
  | .imemRange => 0x0B | .brk => 0x0C | .waitTimeout => 0x10 | .scaleLimit => 0x11 | .flagTrap => 0x12
  | .streamError => 0x13 | .collectiveError => 0x14 | .noRoute => 0x15 | .staleRoute => 0x16 | .nibFault => 0x20
  | .memUncorrectable => 0x21 | .aborted => 0x22

/-- The cause may enter a handler (Table "Exception causes"). -/
def Cause.trappable : Cause → Bool
  | .notSetUp | .brk | .waitTimeout | .scaleLimit | .flagTrap | .streamError | .collectiveError | .staleRoute => true
  | _ => false

/-- A strand records an exception (R125, R126). -/
def Strand.record (t : Strand) (x : Exc) : Strand :=
  { t with epc := x.epc, cause := BitVec.ofNat 8 x.cause.code, einfo := x.einfo }

/-- A strand that had started and not ended becomes Faulted with cause ABORTED (R126). DEDUCED (log 90). -/
def Strand.abort (t : Strand) (origin : Nat) : Strand :=
  match t.st with
  | .running | .blocked | .trapped =>
    { t.record ⟨.aborted, t.pc, BitVec.ofNat 64 origin⟩ with st := .faulted, waiting := none, busy := [], async := [] }
  | _ => t

/-- An operation goes on after a fatal exception: runs of the array, the loader, the drain and the vector engine finish, and
accepted writes complete; a VOP that lacks units of a cancelled stream, transfers, binds, loads, collectives, samplers and waiting
signals end (R126, R166, R185). DEDUCED (log 90). -/
def OpKind.survives : OpKind → Bool
  | .tmul _ | .wload _ _ _ _ | .drain _ | .aclr _ _ | .drainb _ _ _ _ _ _ | .store _ _ _ => true
  | .vop o => o.ready
  | .vout _ _ _ => true
  | _ => false

/-- A cluster terminates: strands Faulted, the exception of strand k recorded, transfers and bindings ended (R105, R126). -/
def Cluster.terminate (cl : Cluster) (origin : Nat) (first : Option (Nat × Exc)) : Cluster :=
  let ks := cl.strands.map (fun e => (e.1, e.2.abort origin))
  let cl1 := { cl with
    phase := .terminating, strands := ks, ops := cl.ops.filter (fun o => o.kind.survives),
    streams := cl.streams.map (fun s => { s with pendingArm := none }),
    fatal := match cl.fatal with | some x => some x | none => first }
  match first with
  | some (k, x) => cl1.onStrand k (fun _ =>
      { (cl.strand k).record x with st := .faulted, waiting := none, busy := [], async := [] })
  | none => cl1

/-- The streams of a cluster cancelled and its loads not yet injected gone (R126). -/
def Fab.quell (f : Fab) (c : Nat) : Fab :=
  let g := f.cancelAll c
  { g with waiting := g.waiting.filter (fun x => x.cluster != c || x.write.isSome) }

/-- A fatal exception of strand k of cluster c (R125, R126). DESIGN CHOICE (log 89). -/
def Fab.fatal (f : Fab) (c k : Nat) (x : Exc) : Fab :=
  (f.quell c).onCluster c (fun cl => cl.terminate c (some (k, x)))

/-- A cluster of a launch aborted from outside, with the origin of R127; one whose launch has ended is Idle (R100). -/
def Fab.abortCluster (f : Fab) (c origin : Nat) : Fab :=
  match (f.ends c |>.cluster c).phase with
  | .idle => f.ends c
  | .running =>
    let cl := f.cluster c
    let k := (((List.range 8).find? (fun k => match (cl.strand k).st with
      | .running | .blocked | .trapped => true | _ => false))).getD 0
    (f.quell c).onCluster c (fun cl =>
      cl.terminate origin (some (k, ⟨.aborted, (cl.strand k).pc, BitVec.ofNat 64 origin⟩)))
  | .loading => f.onCluster c (fun cl =>
      { cl with phase := .terminating, fatal := some (0, ⟨.aborted, 0, BitVec.ofNat 64 origin⟩) })
  | _ => f

/-- TAKING AN EXCEPTION (R125): a trappable one with a handler while Running (or Blocked, for the end of its wait) enters
the handler as a taken branch to TVEC; any other is fatal to the launch. -/
def Fab.take (f : Fab) (c k : Nat) (x : Exc) : Fab :=
  let t := f.strand c k
  if x.cause.trappable && t.tvec != 0 && (t.st == .running || t.st == .blocked) then
    f.onStrand c k (fun t => { t.record x with
      st := .trapped, pc := t.tvec, waiting := none, readyAt := f.cycle + 3 })
  else f.fatal c k x

/-- ERET (R125, R142): Running at EPC + 1, or at EPC if p7 is set. -/
def Strand.eret (t : Strand) (cycle : Nat) : Strand :=
  { t with st := .running, pc := if t.preg 7 then t.epc else t.epc + 1, readyAt := cycle + 3 }

/-! ### The end of launches -/

/-- Every cluster of an admitted launch aborted; the launch aborts (R127). -/
def Fab.abortLaunch (f : Fab) (l : Launch) (origin : Nat) : Fab :=
  match l.phase with
  | .loading | .running =>
    (l.clusters.foldl (fun g c => g.abortCluster c origin) f).onLaunch l.partition l.tag (fun l =>
      { l with phase := .aborting })
  | _ => f

/-- After the grace of an EWS_N sequence EWS state reads 2 once no launch runs (R443). DEDUCED (log 83). -/
def Fab.ewsDrained (f : Fab) : Fab :=
  if f.ewsGraced ∧ f.dget 0x9200 2 = 1 ∧ f.launches.all (fun l => l.phase == .queued || l.phase == .waiting) then f.dset 0x9200 2 2 else f

/-- LAUNCH completes with a status; FAULTED carries the first fatal exception (Table "Completion entry", R131). -/
def Fab.completeLaunch (f : Fab) (l : Launch) (st : HostStatus) : Fab :=
  let detail := l.id * 2 ^ 160 + (match st, l.fault with
    | .faulted, some (c, k, x) => c % 65536 * 2 ^ 144 + k * 2 ^ 136 + x.cause.code * 2 ^ 128 + x.epc.toNat * 2 ^ 112 +
        x.einfo.toNat
    | _, _ => 0)
  let f1 := { f with launches := removeFirst (fun m => m.partition == l.partition && m.tag == l.tag) f.launches }.ewsDrained
  l.cancels.foldl (fun g e => g.complete l.partition 0x02 0 e.1 0 e.2) (f1.complete l.partition 0x01 st.code l.tag detail l.serial)

/-- Every launch of a partition ended as an abort (R127, R386, R395): admitted ones abort, the others complete with a
status. -/
def Fab.abortPartition (f : Fab) (p origin : Nat) (waiting : HostStatus := .cancelled) : Fab :=
  (f.launches.filter (fun l => l.partition == p)).foldl (fun g l =>
    match l.phase with
    | .queued | .waiting => g.completeLaunch l waiting
    | _ => g.abortLaunch l (if l.clusters.contains origin then origin else if origin < 800 then 0xFFFE else origin)) f

/-- A partition is stopped for RWS writes (R406): state stopped, and no launch, batch or step. -/
def Fab.stopped (f : Fab) (p : Nat) : Bool :=
  f.dget 0xB001 (p + 1) = 1 && !f.launches.any (fun l => l.partition == p) &&
  !f.batches.any (fun b => b.partition == p) && (f.steps.find? p).isNone

/-! ### The issue rule -/

/-- What the next instruction of a strand does if it issues: it cannot issue yet, raises a precise exception, is a no-op, or
executes. -/
inductive Go
  | skip
  | fault (x : Exc)
  | nop
  | run
  deriving DecidableEq, Repr

/-- ILLEGAL that depends on the word and the strand's state alone (R135, R136). -/
def Fab.illegal (f : Fab) (c k : Nat) (w : Word) : Bool :=
  !knownOpcode (opcodeOf w) || !encOk w || (opcodeOf w == 0x02 && (f.strand c k).st != .trapped) ||
  ((opcodeOf w == 0x90 || opcodeOf w == 0x91) && isBroad c)

/-- The operation that an instruction starts, or its precise exception; none for an instruction that starts none in this way
(R141, R148 to R160). -/
def Fab.kindAt (f : Fab) (c k : Nat) (w : Word) : Option (Except Exc OpKind) :=
  let cl := f.cluster c
  let t := cl.strand k
  match opcodeOf w with
  | 0x50 => some (wloadKind w cl t)
  | 0x51 => some (tmulKind w cl t)
  | 0x52 => some (drainKind w cl t)
  | 0x53 => some (aclrKind w t)
  | 0x54 => some (drainbKind w cl t)
  | 0x60 => some (vopKind k w cl t)
  | 0x70 => some (bindKind (f.scope (f.partitionOf c)).live.streams w t)
  | 0x72 => some (sinKind k w cl t)
  | 0x73 => some (soutKind k w cl t)
  | 0x80 => some (collKind (f.scope (f.partitionOf c)).live.trees w t)
  | _ => none

/-- The precise exception of an instruction that executes, if it raises one (R124, R141). DEDUCED (log 20). -/
def Fab.precise (f : Fab) (c k : Nat) (w : Word) : Option Exc :=
  let cl := f.cluster c
  let t := cl.strand k
  match opcodeOf w with
  | 0x03 => some ⟨.brk, t.pc, BitVec.ofNat 64 (fld w 15 0)⟩
  | 0x40 | 0x41 | 0x42 | 0x43 =>
    if counterCount (fScope w) ≤ fCtr w then some ⟨.counterRange, t.pc, BitVec.ofNat 64 (fScope w * 256 + fCtr w)⟩ else none
  | 0x71 | 0x74 | 0x75 | 0x76 | 0x77 =>
    match needStream cl k t (fRa w) with
    | .error e => some e
    | .ok _ => none
  | 0x78 | 0x79 =>
    let a := accessAddr w t
    if a.toNat % (accessSize (fFn w)).1 ≠ 0 ∨ !f.reaches c (opcodeOf w == 0x79) (f.locate (some c) a.toNat) then
      some (addrRange t.pc a) else none
  | 0x90 | 0x91 =>
    if f.locate (some c) (t.areg (fRa w)).toNat = .outside then some (addrRange t.pc (t.areg (fRa w)))
    else if f.locate (some c) (t.areg (fRb w)).toNat = .outside then some (addrRange t.pc (t.areg (fRb w)))
    else none
  | _ => match f.kindAt c k w with
    | some (.error e) => some e
    | _ => none

/-- What waits at the Feed port of a cluster: accesses not injected, and transfers that their stream does not serve yet (R112). -/
def Fab.feedQueue (f : Fab) (c : Nat) : Nat :=
  let cl := f.cluster c
  (f.waiting.filter (fun x => x.cluster == c)).length + (cl.ops.filter (fun o => match o.kind with
    | .sin h _ _ _ _ | .sout h _ _ _ _ => (cl.server o.strand h).any (fun p => p.id != o.id)
    | _ => false)).length

/-- COLLs of a cluster whose claim nothing has resolved (R112). -/
def Fab.collQueue (f : Fab) (c : Nat) : Nat :=
  ((f.cluster c).ops.filter (fun o => (match o.kind with | .coll _ => true | _ => false) &&
    !f.colls.any (fun x => match x.launcher with | .op d id _ _ => d == c && id == o.id | _ => false))).length

/-- The unit that an instruction targets cannot take one more (R111, R112, R113, R156, R182, R249): the matrix unit's input holds a
held tile multiply, four VOPs wait behind the running one, four wait at the Feed port, which every stream instruction and every
access outside a Well passes, four claims at the collective unit, sixteen items at the sampler. DESIGN CHOICE (log 34). -/
def Fab.unitBusy (f : Fab) (c k : Nat) (w : Word) : Bool :=
  match opcodeOf w with
  | 0x51 => (f.cluster c).ops.any (fun o => o.held && o.kind.isTmul)
  | 0x60 => !(f.cluster c).sliceRoom
  | 0x70 | 0x71 | 0x72 | 0x73 | 0x74 | 0x75 | 0x76 | 0x77 => Nat.ble 4 (f.feedQueue c)
  | 0x78 | 0x79 => match f.locate (some c) (accessAddr w (f.strand c k)).toNat with
    | .well _ _ => false
    | _ => Nat.ble 4 (f.feedQueue c)
  | 0x80 => Nat.ble 4 (f.collQueue c)
  | 0x90 | 0x91 => Nat.ble 16 (f.sampler (baseDieOf c)).queue.length
  | _ => false

/-- An instruction that would execute is not ready (R25, R114, R115, R156): it waits for an earlier operation of its strand, or a
peer's Well lies behind a safe island. DESIGN CHOICE (log 34). -/
def Fab.holdsBack (f : Fab) (c k : Nat) (w : Word) : Bool :=
  let cl := f.cluster c
  let t := cl.strand k
  match opcodeOf w with
  | 0x06 => cl.ops.any (fun o => o.strand == k && o.kind.isMemory) || cl.writesPending k cl.nextOp
  | 0x71 => cl.ops.any (fun o => o.strand == k && match o.kind with
      | .sin h _ _ _ _ | .sout h _ _ _ _ => h == fRa w
      | _ => false)
  | 0x78 => match f.locate (some c) (accessAddr w t).toNat with
    | .well d off =>
      if d = c then cl.ops.any (fun o => o.strand == k && meetAny o.kind.writes [⟨0, off, (accessSize (fFn w)).1⟩])
      else f.halts d || (isBroad c && f.halts (800 + c / 8))
    | _ => false
  | 0x79 => match f.locate (some c) (accessAddr w t).toNat with
    | .well _ off => cl.interlocked k (.store off (accessSize (fFn w)).1 0)
    | _ => false
  | _ => match f.kindAt c k w with
    | some (.ok o) => cl.interlocked k o
    | _ => false

/-- What the next instruction of a strand does if it issues (R102, R109, R111, R134, R136, R137): IMEM_RANGE past the image;
ILLEGAL; a no-op for a false predicate; not ready while a register it names is pending or its unit is full; a precise exception;
not ready while it is held back. DESIGN CHOICE (log 34). DEDUCED (log 20). -/
def Fab.verdict (f : Fab) (c k : Nat) : Go :=
  let cl := f.cluster c
  let t := cl.strand k
  match cl.imem[t.pc.toNat]? with
  | none => .fault ⟨.imemRange, t.pc, BitVec.ofNat 64 t.pc.toNat⟩
  | some w =>
    if f.illegal c k w then .fault (illegalExc t.pc w)
    else if !predicate w t then .nop
    else if (touches w).any t.busy.contains then .skip
    else if f.unitBusy c k w then .skip
    else match f.precise c k w with
      | some e => .fault e
      | none => if f.holdsBack c k w then .skip else .run

/-- The next instruction of a strand is a tile multiply that would execute: the matrix unit's interval is its own (R112). -/
def Fab.atTmul (f : Fab) (c k : Nat) : Bool :=
  match (f.cluster c).imem[(f.strand c k).pc.toNat]? with
  | some w => opcodeOf w == 0x51 && !f.illegal c k w && predicate w (f.strand c k)
  | none => false

/-- The first cycle in which a strand is ready, none while it is not (R99, R110, R111, R112): it is Running or Trapped, waits for
nothing, and has no asynchronous exception to take before its next instruction, unless that raises a precise one (R165). -/
def Fab.readyTime (f : Fab) (c k : Nat) : Option Nat :=
  let cl := f.cluster c
  let t := cl.strand k
  let t0 := max f.cycle (max cl.issueFrom t.readyAt)
  let t1 := if f.atTmul c k then max t0 cl.matrixFrom else t0
  if (t.st == .running || t.st == .trapped) && t.waiting.isNone then
    match f.verdict c k with
    | .skip => none
    | .fault _ => some t1
    | .nop => if t.async.isEmpty then some t0 else none
    | .run => if t.async.isEmpty then some t1 else none
  else none

/-- Place of a strand in the order l + 1, l + 2, …, l + 8 (R111). -/
def Cluster.rank (cl : Cluster) (k : Nat) : Nat := (k + 15 - cl.lastIssued) % 8

/-- THE ISSUE RULE (R111): the cycle in which strand k of a cluster issues next, none where another strand goes first or nothing
can issue. The cluster runs, outside its safe state (R456). DEDUCED (logs 17, 73). DESIGN CHOICE (log 11). -/
def Fab.chosen (f : Fab) (c k : Nat) : Option Nat :=
  if Nat.blt c 800 && Nat.blt k 8 && (f.cluster c).phase == .running && !f.halts c then
    match f.readyTime c k with
    | some t =>
      if (List.range 8).all (fun j => j == k || match f.readyTime c j with
          | some u => Nat.blt t u || (t == u && Nat.blt ((f.cluster c).rank k) ((f.cluster c).rank j))
          | none => true)
      then some t else none
    | none => none
  else none

/-- The strand whose turn it is raises a precise exception in this very cycle (R165). DESIGN CHOICE (log 89). -/
def Fab.preciseNow (f : Fab) (c k : Nat) : Bool :=
  f.chosen c k == some f.cycle && match f.verdict c k with | .fault _ => true | _ => false

/-- The strand's next word is the one of the command, and the command's row is that word's. -/
def Fab.presented (f : Fab) (x : Issue) (op : Nat) : Bool :=
  match (f.cluster x.cluster).imem[(f.strand x.cluster x.strand).pc.toNat]? with
  | none => true
  | some w => w == x.word && (!knownOpcode (opcodeOf w) || opcodeOf w == op)

/-- What an issue command with opcode `op` does (R102, R109, R111, R134, R136). DESIGN CHOICE (log 10). -/
def Fab.goes (f : Fab) (x : Issue) (op : Nat) : Go :=
  if (f.chosen x.cluster x.strand).isSome && f.presented x op then f.verdict x.cluster x.strand else .skip

/-- The issue recorded (R111): the clock stands at its cycle, and the next one comes a cycle later. DESIGN CHOICE (log 2). -/
def Fab.issued (f : Fab) (x : Issue) : Fab :=
  let t := (f.chosen x.cluster x.strand).getD f.cycle
  { (f.onCluster x.cluster (fun cl => { cl with lastIssued := x.strand, issueFrom := t + 1 })) with cycle := t }

/-- An instruction issued, `body` being its effect when it executes. DEDUCED (log 20). -/
def Fab.issue (f : Fab) (x : Issue) (op : Nat) (body : Fab → Fab) : Fab :=
  match f.goes x op with
  | .skip => f
  | .fault e => (f.issued x).take x.cluster x.strand e
  | .nop => (f.issued x).onStrand x.cluster x.strand Strand.advance
  | .run => body (f.issued x)

/-- An instruction that reaches memory issued. -/
def W.issue (w : W) (x : Issue) (op : Nat) (body : W → W) : W :=
  match w.fab.goes x op with
  | .skip => w
  | .fault e => w.map (fun f => (f.issued x).take x.cluster x.strand e)
  | .nop => w.map (fun f => (f.issued x).onStrand x.cluster x.strand Strand.advance)
  | .run => body (w.map (·.issued x))

/-- An instruction that executes in the Scribe: it changes its strand and moves to the next instruction (R112). -/
def Fab.issueScalar (f : Fab) (x : Issue) (op : Nat) (g : Strand → Strand) : Fab :=
  f.issue x op (fun f => f.onStrand x.cluster x.strand (fun t => (g t).advance))

/-- An instruction that starts an operation, with the registers that the operation will write (R111, R113, R137). -/
def Fab.issueOp (f : Fab) (x : Issue) (op : Nat) (busy : List Dest) : Fab :=
  f.issue x op (fun g =>
    match g.kindAt x.cluster x.strand x.word with
    | some (.ok o) => g.onCluster x.cluster (fun cl =>
        (cl.start x.strand (cl.strand x.strand).pc o g (isBroad x.cluster)).onStrand x.strand (fun t =>
          { t.advance with busy := t.busy ++ busy }))
    | _ => g)

/-- A taken branch (R110, R146). -/
def Strand.branch (t : Strand) (target : Nat) (cycle : Nat) : Strand :=
  { t with pc := BitVec.ofNat 16 target, readyAt := cycle + 3 }

/-- Table "Conditions" (R143, R146). -/
def condition (c : Nat) (a b : Word) : Bool :=
  match c with
  | 0 => a == b
  | 1 => a != b
  | 2 => a.slt b
  | 3 => !a.slt b
  | 4 => a.ult b
  | _ => !a.ult b

/-! ### Asynchronous exceptions and flags -/

/-- An asynchronous exception (R124, R165): a Blocked strand takes a trappable one when it next becomes ready, and one that
falls in the cycle of a precise exception of the strand stays pending behind it. A strand that has ended in a fault takes
none. DEDUCED (log 29). DESIGN CHOICE (log 89). -/
def Fab.raiseAsync (f : Fab) (c k : Nat) (x : Exc) : Fab :=
  match (f.strand c k).st with
  | .idle | .faulted => f
  | .blocked => if x.cause.trappable then f.onStrand c k (fun t => { t with async := t.async ++ [x] }) else f.take c k x
  | _ => if f.preciseNow c k then f.onStrand c k (fun t => { t with async := t.async ++ [x] }) else f.take c k x

/-- Flags that an operation of the Blotter, of Ductus or of a collective raises are counted (R87). DEDUCED (log 45). -/
def Fab.countFlags (f : Fab) (r : Raise) : Fab :=
  let f1 := if r.nv then f.dadd 0x4004 1 1 else f
  let f2 := if r.ovf then f1.dadd 0x4004 2 1 else f1
  if r.so then f2.dadd 0x4004 3 1 else f2

/-- Flags that an operation raises at its completion (R87, R108): the counts, FLAGS, and FLAG_TRAP where a raised flag has
its trap enabled. DEDUCED (log 29). -/
def Fab.raiseFlags (f : Fab) (c k : Nat) (epc : BitVec 16) (r : Raise) : Fab :=
  if r = .none then f else
  let f4 := (f.countFlags r).onStrand c k (fun t => { t with flags := t.flags ||| r.bits })
  let t := f4.strand c k
  if t.flagTrap &&& r.bits = 0 then f4
  else f4.raiseAsync c k ⟨.flagTrap, epc, t.flags.setWidth 64⟩

/-- STREAM_ERROR with a Feed status (R229). -/
def Fab.streamError (f : Fab) (c k : Nat) (epc : BitVec 16) (number status : Nat) : Fab :=
  f.raiseAsync c k ⟨.streamError, epc, BitVec.ofNat 64 (status * 65536 + number)⟩

end Sys2Proof.Machine
end

