-- ==== Sys2Proof/Machine/Kbx.lean ====
section
/-! DEFINITION. KBX blocks (R88 to R96): conversion of FP32 contributions, the adder with its residue check, narrowing, the
conversion back, and the forms of a block in memory and on the wire (R88, R89, R309, R327). -/

namespace Sys2Proof.Machine

open Sys2Proof

/-- Bits of one element. -/
def Kbx.bits (b : Kbx) : Nat := if b.k32 then 32 else 48

/-- Largest magnitude of an element of w bits (R90). -/
def kbxMax (w : Nat) : Int := 2 ^ (w - 1) - 1

/-- Residue of a payload (R93). -/
def residue (q : List (Option Int)) : Nat := ((q.map (fun e => e.getD 0)).sum % 255).toNat

/-- A value clamped to ±m, and whether it was clamped. -/
def clampTo (m v : Int) : Int × Bool := if m < v then (m, true) else if v < -m then (-m, true) else (v, false)

/-- One FP32 contribution on scale X and headroom h: the element and whether it set SAT (R91). -/
def kbxElem (x h : Nat) (v : W32) : Option Int × Bool :=
  match fp32 v with
  | .fin neg mag exp =>
    let r := clampTo (2 ^ (47 - h) - 1) (roundInt neg mag (exp + 143 - x))
    (some r.1, r.2)
  | _ => (none, false)

/-- A KBX-48 block of FP32 contributions (R91). -/
def kbxOf (x h : Nat) (v : List W32) : Kbx :=
  let e := v.map (kbxElem x h)
  let q := e.map (·.1)
  { x := x, sat := e.any (·.2), nf := q.any (·.isNone), h := h, k32 := false, rho := residue q, q := q }

/-- One element of a sum, unclamped (R92). -/
def kbxSum : Option Int → Option Int → Option Int
  | some a, some b => some (a + b)
  | _, _ => none

/-- What an adder answers: refused (SCALE_MISMATCH), or the sum and whether the residue check failed. -/
inductive AddResult
  | mismatch
  | sum (out : Kbx) (bad : Bool)
  deriving DecidableEq, Repr

/-- The KBX adder with its residue check (R92, R93). -/
def kbxAdd (a b : Kbx) : AddResult :=
  if a.x ≠ b.x ∨ a.h ≠ b.h ∨ a.k32 ≠ b.k32 then .mismatch else
  let s := a.q.zipWith kbxSum b.q
  let c := s.map (fun e => e.map (clampTo (kbxMax a.bits)))
  let q := c.map (fun e => e.map (·.1))
  let clamped := c.any (fun e => match e with | some r => r.2 | none => false)
  let skip := a.nf || b.nf
  .sum
    { x := a.x, sat := clamped || a.sat || b.sat, nf := a.nf || b.nf, h := a.h, k32 := a.k32,
      rho := if skip then 0 else residue q, q := q }
    (!skip && residue s != (a.rho + b.rho) % 255)

/-- Narrowing to KBX-32 (R94). -/
def kbxNarrow (a : Kbx) : Kbx :=
  let c := a.q.map (fun e => e.map (fun v => clampTo (kbxMax 32) (roundInt (v < 0) v.natAbs (-16))))
  let q := c.map (fun e => e.map (·.1))
  { a with
    k32 := true, sat := a.sat || c.any (fun e => match e with | some r => r.2 | none => false), rho := residue q, q := q }

/-- A block converted back to FP32, with flags (R95). -/
def kbxFp32 (a : Kbx) : List (W32 × Raise) :=
  a.q.map (fun e => match e with
    | none => (0x7FC00000, .invalid)
    | some v => toFp32 (.fin (v < 0) v.natAbs ((a.x : Int) - (if a.k32 then 127 else 143))))

/-- The 64 header bits of a block (Table "KBX block header"). -/
def Kbx.header (a : Kbx) : Nat :=
  a.x % 256 * 2 ^ 56 + (if a.sat then 2 ^ 55 else 0) + (if a.nf then 2 ^ 54 else 0) + a.h % 64 * 2 ^ 48 +
  (if a.k32 then 2 ^ 46 else 0) + a.rho % 256 * 2 ^ 32

/-- The pattern of an element; none is the marker M (R90). -/
def elemPattern (w : Nat) (e : Option Int) : Nat :=
  match e with
  | some v => (v % (2 ^ w : Nat)).toNat
  | none => 2 ^ (w - 1)

/-- A block in memory: the header, then the elements, little-endian (R88). -/
def Kbx.memory (a : Kbx) : List Byte :=
  leBytes 8 a.header ++ a.q.flatMap (fun e => leBytes (a.bits / 8) (elemPattern a.bits e))

/-- A block on the wire: most significant byte first (R327). -/
def Kbx.wire (a : Kbx) : List Byte :=
  beBytes 8 a.header ++ a.q.flatMap (fun e => beBytes (a.bits / 8) (elemPattern a.bits e))

/-- Bytes of a block (R88). -/
def kbxBytes (k32 : Bool) : Nat := if k32 then 264 else 392

/-- The element of a pattern. -/
def patternElem (w v : Nat) : Option Int := if v = 2 ^ (w - 1) then none else some (signedOf w v)

/-- A block read from the wire; none for a reserved field or code (R89, R327). -/
def kbxRead (k32 : Bool) (l : List Byte) : Option Kbx :=
  let v := beNat (l.take 8)
  let w := if k32 then 32 else 48
  let n := w / 8
  let q := (List.range 64).map (fun i => patternElem w (beNat ((l.drop (8 + n * i)).take n)))
  if l.length = kbxBytes k32 ∧ bitsOf v 63 56 ≠ 0xFF ∧ bitsOf v 53 48 ≤ 30 ∧ bitsOf v 47 46 = (if k32 then 1 else 0) ∧
      bitsOf v 45 40 = 0 ∧ bitsOf v 39 32 ≠ 0xFF ∧ bitsOf v 31 0 = 0 then
    some { x := bitsOf v 63 56, sat := bit v 55, nf := bit v 54, h := bitsOf v 53 48, k32 := k32, rho := bitsOf v 39 32, q := q }
  else none

/-- Biased FP32 exponent of the largest finite magnitude, 0 where there is none (R313, R314). -/
def topExponent (v : List W32) : Nat :=
  v.foldl (fun m x => let e := bitsOf x.toNat 30 23; if e = 0xFF then m else max m e) 0

/-- The scale of an estimate (R312). -/
def scaleOf (eps h : Nat) : Nat := min (eps + h - 30) 254

/-- The new estimate of a completed block (R314): scale used, headroom, non-finite, saturated, result. -/
def newEstimate (x h : Nat) (nf saturated : Bool) (v : List W32) : Nat :=
  let e : Int := (x : Int) - h + 30
  let r : Int :=
    if saturated then min (e + 4) 254
    else if nf then e
    else max (topExponent v) (e - 1)
  (min (max r 0) 0xFE).toNat

end Sys2Proof.Machine
end

