-- ==== Sys2Proof/Machine/Wire.lean ====
section
/-! DEFINITION. What a collective shares with the rest of the device: Kolas flows (R370, R371), collective messages and the
multicast (R324, R327), the trees (R304, R322), the slice and scale tables (R278, R289, R292), the failure of a collective
(R326) and the end of a memory context (R206). -/

namespace Sys2Proof.Machine

open Sys2Proof

/-! ### Flows -/

/-- A flow that has carried nothing (R371). DESIGN CHOICE (log 5). -/
def newFlow (k : FlowKey) : Flow :=
  { key := k, nextPsn := 0, ackPsn := 0, unacked := [], waiting := [], expect := 0, sinceAck := 0, ecn := false, rate := 16,
    probing := false, down := false, lastNak := none, cls := 0 }

/-- A flow. -/
def Fab.flow (f : Fab) (k : FlowKey) : Flow := (f.flows.find? (fun x => x.key == k)).getD (newFlow k)

/-- A flow changed. -/
def Fab.onFlow (f : Fab) (k : FlowKey) (g : Flow → Flow) : Fab :=
  if f.flows.any (fun x => x.key == k) then { f with flows := updateFirst (fun x => x.key == k) g f.flows }
  else { f with flows := f.flows ++ [g (newFlow k)] }

/-- What surrounds a packet of a flow: a collective message goes out on the secure channel of its partition, a membership message on
the operator's (R358, R369, R370). -/
def Fab.flowDress (f : Fab) (k : FlowKey) (channel : Nat) : Dress :=
  f.dress k.engine k.peer (if channel = 1 then 16 else k.localPartition) (Config.flowHash k) (f.flow k).cls (f.eff 0x5020 1)

/-- Something leaves the device. -/
def Fab.emit (f : Fab) (o : NetOut) : Fab := { f with netOut := f.netOut ++ [o] }

/-- Waiting messages of a flow sent while fewer than 512 are unacknowledged (R371). -/
def Fab.pumpFlow (k : FlowKey) : Nat → Fab → Fab
  | 0, f => f
  | n + 1, f =>
    let x := f.flow k
    match x.waiting with
    | m :: r =>
      if x.unacked.length < 512 then
        Fab.pumpFlow k n ((f.onFlow k (fun x => { x with
          waiting := r, unacked := x.unacked ++ [{ m with psn := x.nextPsn }], nextPsn := (x.nextPsn + 1) % 2 ^ 32 })).emit
            (.kolas (f.flowDress k m.channel) k 1 m.channel x.nextPsn x.expect false false m.bytes))
      else f
    | [] => f

/-- A DATA payload given to a flow on a channel. -/
def Fab.flowSend (f : Fab) (k : FlowKey) (channel : Nat) (bytes : List Byte) (multicast : Option (Nat × Nat × Bool) := none) : Fab :=
  let f1 := f.onFlow k (fun x => { x with waiting := x.waiting ++ [⟨0, channel, bytes, multicast⟩] })
  Fab.pumpFlow k (f1.flow k).waiting.length f1

/-! ### Membership messages sent -/

/-- The engine this device sends its membership messages from: its lowest with a port up. DESIGN CHOICE (log 107). -/
def Fab.ownEngine (f : Fab) : Nat := ((List.range 8).find? f.engineUp).getD 0

/-- Its address. -/
def Fab.ownAddress (f : Fab) : Nat := f.engineAddress f.ownEngine

/-- A membership message of this device (Table "Membership message"); `sender` is the address it goes out from. -/
def Fab.memberMsg (f : Fab) (epoch member : Nat) (pairs : List (Nat × Nat)) : MemberMsg :=
  { operator := true, group := f.dget 0x5040 3, epoch := epoch, member := member, sequence := f.memberSeq, timestamp := f.now,
    sender := f.ownAddress, pairs := pairs }

/-- Code of a membership message type. -/
def msgHeartbeat : Nat := 1
/-- LOSS. -/
def msgLoss : Nat := 2
/-- EPOCH. -/
def msgEpoch : Nat := 3
/-- EPOCH_ACK. -/
def msgEpochAck : Nat := 4
/-- ASSIGN. -/
def msgAssign : Nat := 5
/-- STATE. -/
def msgState : Nat := 6

/-- The bytes of a membership message of a type (Table "Membership message"), in network byte order (R9). -/
def memberBytes (type : Nat) (m : MemberMsg) : List Byte :=
  beBytes 32 (type * 2 ^ 248 + m.group % 2 ^ 32 * 2 ^ 208 + m.epoch % 2 ^ 32 * 2 ^ 176 + m.member % 65536 * 2 ^ 160 +
    m.pairs.length % 65536 * 2 ^ 144 + m.sequence % 2 ^ 32 * 2 ^ 112 + m.timestamp % 2 ^ 64 * 2 ^ 48) ++
  m.pairs.flatMap (fun q => beBytes 16 q.1 ++ beBytes 16 q.2)

/-- A membership message sent to an address: a Channel 1 DATA packet of the flow between the two devices' partitions 0 (R358, R370,
R377); the sender's Sequence rises by 1. The spec gives the flow no partitions. DESIGN CHOICE (log 107). -/
def Fab.sendMember (f : Fab) (dest type epoch member : Nat) (pairs : List (Nat × Nat)) : Fab :=
  let m := f.memberMsg epoch member pairs
  { (f.flowSend ⟨f.ownEngine, dest, 0, 0⟩ 1 (memberBytes type m)) with
    memberSeq := (f.memberSeq + 1) % 2 ^ 32, memberOut := f.memberOut ++ [(dest, type, m)] }

/-- Manager and standby addresses (R377): those that are set. -/
def Fab.managers (f : Fab) : List Nat := [f.dget 0x5040 4, f.dget 0x5040 5].filter (· != 0)

/-- The epoch of the device set, with EPOCH_CHANGED. -/
def Fab.newEpoch (f : Fab) (epoch member : Nat) : Fab := (f.dset 0x9060 1 (epoch % 2 ^ 32)).raise 0x000E 0x0602 none epoch member

/-- Steps 3 and 4 of R435 are done once every changed scope has committed: the epoch rises, and the worker answers the EPOCH.
DEDUCED (log 70). -/
def Fab.epochStep (f : Fab) : Fab :=
  match f.epochDue with
  | some (epoch, member, sender) =>
    if f.scopes.any (fun s => s.2.again) then f
    else ({ f with epochDue := none }.newEpoch epoch member).sendMember sender msgEpochAck epoch member []
  | none => f

/-! ### Tree descriptors and trees -/

/-- Members N of a tree (Table "Tree descriptor"). -/
def treeN (d : BitVec 512) : Nat := descField d 223 208 + 1
/-- Rank of this member. -/
def treeRank (d : BitVec 512) : Nat := descField d 207 192
/-- Repair rank. -/
def treeRepair (d : BitVec 512) : Nat := descField d 191 176
/-- Group exponent g. -/
def treeG (d : BitVec 512) : Nat := descField d 159 156
/-- Headroom h. -/
def treeH (d : BitVec 512) : Nat := descField d 155 150
/-- Agreement. -/
def treeAgree (d : BitVec 512) : Bool := descField d 149 149 = 1
/-- Base die. -/
def treeDie (d : BitVec 512) : Nat := descField d 148 146
/-- Epoch. -/
def treeEpoch (d : BitVec 512) : Nat := descField d 255 224

/-- Trailing zero bits of x, at most `fuel`. -/
def trailingZeros : Nat → Nat → Nat
  | 0, _ => 0
  | k + 1, x => if x % 2 = 1 then 0 else trailingZeros k (x / 2) + 1

/-- The climb of `parent` in R304. -/
def climb (n : Nat) : Nat → Nat → Nat → Option Nat
  | 0, _, _ => none
  | k + 1, x, h =>
    let p := if bit x (h + 1) then x - 2 ^ h else x + 2 ^ h
    if p ≤ n then some p else climb n k p (h + 1)

/-- The parent of a position (R304). -/
def posParent (x n : Nat) : Option Nat := if x = 2 ^ Nat.log2 n then none else climb n 18 x (trailingZeros 18 x)

/-- Position of a rank in tree A (false) or tree B (true) (R304). -/
def treePos (n : Nat) (b : Bool) (r : Nat) : Nat := if !b then r + 1 else if n % 2 = 0 then n - r else (r + 1) % n + 1

/-- Rank at a position. -/
def rankAt (n : Nat) (b : Bool) (x : Nat) : Nat := if !b then x - 1 else if n % 2 = 0 then n - x else (x + n - 2) % n

/-- Ranks of one lower group: all of them with g = 0 (R322). -/
def groupSize (d : BitVec 512) : Nat := if treeG d = 0 then treeN d else 2 ^ treeG d

/-- The rank at the root of its group's tree. -/
def groupRoot (d : BitVec 512) (b : Bool) (k : Nat) : Nat :=
  k * groupSize d + rankAt (groupSize d) b (2 ^ Nat.log2 (groupSize d))

/-- The parent of a rank, in its group's tree or, for a group's root, in the upper tree (R304, R322). -/
def treeUp (d : BitVec 512) (b : Bool) (r : Nat) : Option Nat :=
  let n := groupSize d
  match posParent (treePos n b (r % n)) n with
  | some x => some (r / n * n + rankAt n b x)
  | none =>
    let k := treeN d / n
    (posParent (treePos k b (r / n)) k).map (fun y => groupRoot d b (rankAt k b y))

/-- The children of a rank. -/
def treeDown (d : BitVec 512) (b : Bool) (r : Nat) : List Nat :=
  (List.range (treeN d)).filter (fun c => treeUp d b c == some r)

/-- Two ranks lie in one lower group. -/
def sameGroup (d : BitVec 512) (r c : Nat) : Bool := r / groupSize d == c / groupSize d

/-- A member narrows its group's sum: it is the root of its group's tree, and there are groups (R322). -/
def narrows (d : BitVec 512) (b : Bool) (r : Nat) : Bool :=
  treeG d != 0 && groupRoot d b (r / groupSize d) == r

/-- Rank `target` is `r` or lies below it (at most `fuel` hops). -/
def treeBelow (d : BitVec 512) (b : Bool) (r : Nat) : Nat → Nat → Bool
  | 0, target => target == r
  | k + 1, target => target == r || match treeUp d b target with
    | some u => treeBelow d b r k u
    | none => false

/-! ### Collective messages -/

/-- The 256 header bits of a collective message (Table "Collective message header"). -/
def collHeader (type : Nat) (m : CollMsg) : Nat :=
  type * 2 ^ 248 + (if m.treeB then 2 ^ 247 else 0) + (if m.last then 2 ^ 246 else 0) + m.attempt % 16 * 2 ^ 240 +
  m.kind % 16 * 2 ^ 236 + m.format % 4 * 2 ^ 234 + m.fmt % 4 * 2 ^ 232 + m.tree % 65536 * 2 ^ 208 +
  m.source % 65536 * 2 ^ 192 + m.epoch % 2 ^ 32 * 2 ^ 160 + m.sequence % 2 ^ 32 * 2 ^ 128 + m.offset % 2 ^ 64 * 2 ^ 64 +
  m.count % 65536 * 2 ^ 48 + m.size % 2 ^ 40 * 2 ^ 8 + m.newScale % 256

/-- A collective message as bytes (R327). -/
def collBytes (type : Nat) (m : CollMsg) : List Byte := beBytes 32 (collHeader type m) ++ m.payload

/-- A message of a collective with the header fields every message carries (R310, R327). DESIGN CHOICE (log 38). -/
def Coll.msg (c : Coll) (treeB : Bool) (attempt offset count format : Nat) (payload : List Byte) : CollMsg :=
  { via := ⟨c.die, 0, c.partition, c.partition⟩, partition := c.partition, treeB := treeB, last := false, attempt := attempt, kind := c.op.kind, format := format,
    fmt := c.op.fmt, tree := c.tree, source := treeRank c.desc, epoch := treeEpoch c.desc, sequence := c.seq,
    offset := offset, count := count, size := c.op.size / 64, newScale := 0, reserved := 0, payload := payload }

/-- The flow to a rank. -/
def Coll.flow (c : Coll) (r : Nat) : FlowKey := c.peers.getD r ⟨c.die, 0, c.partition, c.partition⟩

/-- The collective of a number. -/
def Fab.coll? (f : Fab) (id : Nat) : Option Coll := f.colls.find? (fun c => c.id == id)

/-- A collective changed. -/
def Fab.onColl (f : Fab) (id : Nat) (g : Coll → Coll) : Fab := { f with colls := updateFirst (fun c => c.id == id) g f.colls }

/-- A message sent to another rank; `cast` marks one that a multicast waits for, and whether it counts to the lag (R316, R324). -/
def Fab.collSend (f : Fab) (c : Coll) (dest type : Nat) (m : CollMsg) (cast : Option Bool := none) : Fab :=
  let m' := { m with via := c.flow dest }
  (f.onColl c.id (fun c => { c with outbox := c.outbox ++ [⟨dest, type, m'⟩] })).flowSend (c.flow dest) 0 (collBytes type m')
    (cast.map (fun b => (c.id, dest, b)))

/-- Bytes of a collective's multicast sent to a rank and not acknowledged that satisfy a condition. -/
def Fab.unackedCast (f : Fab) (c : Coll) (dest : Nat) (p : Bool → Bool) : Nat :=
  let x := f.flow (c.flow dest)
  (((x.unacked ++ x.waiting).filter (fun m => match m.multicast with
    | some (i, k, b) => i == c.id && k == dest && p b
    | none => false)).map (fun m => m.bytes.length)).sum

/-- The lag of a child (R324): bytes sent to it in this collective and not acknowledged, but for what is forwarded from this
member's own repair (R325). -/
def Fab.lagOf (f : Fab) (c : Coll) (child : Nat) : Nat := f.unackedCast c child id

/-- The Lag window in bytes. -/
def Coll.lagWindow (c : Coll) : Nat := descField c.desc 145 136 * 2 ^ 20

/-- The children of this member in a tree that it has not cut (R304, R324): a cut child is sent nothing more. -/
def Coll.children (c : Coll) (t : Bool) : List Nat := (treeDown c.desc t (treeRank c.desc)).filter (fun k => !c.cuts.contains k)

/-- A message of the multicast sent to a child that has not been cut; the child is cut when its lag exceeds the window
(R324). What a member forwards of its own repair cuts nobody (R325), and a reduce has no multicast. -/
def Fab.collCast (f : Fab) (id dest type : Nat) (m : CollMsg) (repair : Bool := false) : Fab :=
  match f.coll? id with
  | some c =>
    if c.cuts.contains dest then f else
    let f1 := f.collSend c dest type m (some (!repair && c.op.kind != 0))
    if f1.lagOf c dest ≤ c.lagWindow then f1
    else
      ((((f1.onColl id (fun c => { c with cuts := c.cuts ++ [dest] })).collSend c dest 0x07
        (c.msg m.treeB 0 0 0 3 [])).dadd 0x6023 (c.partition + 1) 1).raise (srcBase c.die 4) 0x0403 (some c.partition)
        c.tree dest)
  | none => f

/-! ### Slice and scale tables -/

/-- A number with bits [hi:lo] replaced. -/
def setBits (v hi lo x : Nat) : Nat := v - bitsOf v hi lo * 2 ^ lo + x % 2 ^ (hi + 1 - lo) * 2 ^ lo

/-- Reads (false) and writes (true) of ranges under a tag, up to the first that is not done: how far they came (R189). -/
def W.reach (tag : Nat → Bool → Tag) : List (Nat × Nat × Bool) → W → W × Reach
  | [], w => (w, .ok)
  | (a, n, write) :: r, w =>
    let x := w.access (fun d => tag d write) a n write
    if x.2 = .ok then W.reach tag r x.1 else x

/-- The Rubric die, as the management processors (unit 0), reads or writes ranges of a partition's tables and descriptors (R34, R35,
R189). DESIGN CHOICE (log 93). -/
def W.rubricReach (p : Nat) (l : List (Nat × Nat × Bool)) (w : W) : W × Reach := W.reach (fun d _ => w.fab.rubricTag p 0 d) l w

/-- A 64-byte entry of a partition's table written by the Rubric die, little-endian; a write refused changes nothing. -/
def W.putEntry (w : W) (p a v : Nat) : W :=
  match W.rubricReach p [(a, 64, true)] w with
  | (w1, .ok) => w1.storeNat p a 64 v
  | (w1, _) => w1

/-- Bits of a little-endian 64-byte entry in memory replaced, under partition p: the entry is read, and written whole. An
uncorrectable line leaves it as it is and ends the context (R205, R206). -/
def W.setField (w : W) (p a hi lo x : Nat) : W :=
  match W.rubricReach p [(a, 64, false)] w with
  | (w1, .ok) => w1.putEntry p a (setBits (w1.loadNat p a 64) hi lo x)
  | (w1, .bad b) => { w1 with faults := w1.faults ++ [(p, b)] }
  | (w1, _) => w1

/-- Address of slice n (R278). -/
def Fab.sliceAddr (f : Fab) (p n : Nat) : Nat := f.eff 0x8010 (p + 1) + 64 * n

/-- Address of scale entry i (R292). -/
def Fab.scaleAddr (f : Fab) (p i : Nat) : Nat := f.eff 0x8012 (p + 1) + 64 * i

/-- State of a slice written to its entry. -/
def W.setSliceState (w : W) (p n v : Nat) : W := w.setField p (w.fab.sliceAddr p n) 341 338 v

/-- A flag of a Layer entry set, if the table holds the entry. -/
def W.markLayer (w : W) (p layer b : Nat) : W :=
  if layer < w.fab.eff 0x8013 (p + 1) then w.setField p (w.fab.scaleAddr p layer) b b 1 else w

/-- Slice n among those of the waves that a partition's open step has to do with. -/
def Fab.slice? (f : Fab) (p n : Nat) : Option Slice := (f.steps.find? p).bind (fun r => r.slices.find? (fun s => s.number == n))

/-- The slices of a partition's open step changed. -/
def Fab.onSlices (f : Fab) (p : Nat) (g : List Slice → List Slice) : Fab :=
  match f.steps.find? p with
  | some r => { f with steps := f.steps.set p { r with slices := g r.slices } }
  | none => f

/-- A Blotter slot. -/
def Fab.slot (f : Fab) (b i : Nat) : Slot := f.slots.get ⟨.free, []⟩ (256 * b + i)

/-- A Blotter slot set. -/
def Fab.setSlot (f : Fab) (b i : Nat) (s : Slot) : Fab := { f with slots := f.slots.set (256 * b + i) s }

/-- A slice leaves its slot, if it holds one. -/
def Fab.releaseSlice (f : Fab) (p : Nat) (s : Slice) : Fab :=
  if (f.slot s.home s.slot).holder = .slice p s.number then f.setSlot s.home s.slot ⟨.free, []⟩ else f

/-- A slice with its state changed, in its entry and in the record of the step. -/
def W.moveSlice (w : W) (p : Nat) (s : Slice) (st : Nat) : W :=
  (w.setSliceState p s.number st).map (fun f =>
    f.onSlices p (fun l => l.map (fun (x : Slice) => if x.number = s.number then { x with state := st } else x)))

/-- A slice is finished for this step with a state. -/
def W.finishSlice (w : W) (p : Nat) (s : Slice) (st : Nat) : W := (w.moveSlice p s st).map (fun f => f.releaseSlice p s)

/-- A slice becomes Abandoned (R289, R299): its slot is released, the count rises, its Layer entry is marked. -/
def W.abandonSlice (w : W) (p : Nat) (s : Slice) : W :=
  ((w.finishSlice p s 5).markLayer p s.layer 369).map (fun f => f.dadd 0x8034 (p + 1) 1)

/-- A slice is still on its way: claimed, Accumulating or Sealed. -/
def Slice.live (s : Slice) : Bool := Nat.ble 1 s.state && Nat.ble s.state 3

/-- A live slice of the open step abandoned by its number. -/
def W.abandon (w : W) (p n : Nat) : W :=
  match w.fab.slice? p n with
  | some s => if s.live then w.abandonSlice p s else w
  | none => w

/-! ### Failure -/

/-- Kolas status codes used by name (Table "Kolas status"). -/
def kolasMismatch : Nat := 0x0B
/-- SCALE_MISMATCH. -/
def kolasScaleMismatch : Nat := 0x0C
/-- SATURATED. -/
def kolasSaturated : Nat := 0x0D
/-- OUT_OF_MAP. -/
def kolasOutOfMap : Nat := 0x08
/-- FIREWALL. -/
def kolasFirewall : Nat := 0x11
/-- RESIDUE. -/
def kolasResidue : Nat := 0x0E
/-- ABORTED_PEER. -/
def kolasAborted : Nat := 0x0F
/-- MEMBER_LOST. -/
def kolasMemberLost : Nat := 0x10

/-- EINFO of COLLECTIVE_ERROR (R330). -/
def kolasInfo (status tree block : Nat) : Word := BitVec.ofNat 64 (block % 2 ^ 32 * 65536 + tree % 256 * 256 + status)

/-- The launcher of a collective learns its end: the operation completes, with COLLECTIVE_ERROR for a status other than DONE
(R160, R330); a job notes the status (R343). -/
def Fab.collLauncher (f : Fab) (c : Coll) (status block : Nat) : Fab :=
  match c.launcher with
  | .op cl id k epc =>
    match (f.cluster cl).op? id with
    | some _ =>
      let f1 := f.finish cl id
      if status = 0 then f1 else f1.raiseAsync cl k ⟨.collectiveError, epc, kolasInfo status c.tree block⟩
    | none => f
  | .job b p =>
    match (f.ductus.get .idle b).active.find? p with
    | some j =>
      let d := f.ductus.get .idle b
      let j' := { j with coll := none, broken := if status = 0 ∨ status = kolasSaturated then j.broken else some status }
      { f with ductus := f.ductus.set b { d with active := d.active.set p j' } }
    | none => f

/-- Slots that a collective claimed for itself released (R308), and the collective gone. -/
def Fab.dropColl (f : Fab) (c : Coll) : Fab :=
  let f1 := c.slots.foldl (fun g i => g.setSlot c.die i ⟨.free, []⟩) f
  { f1 with colls := f1.colls.filter (fun x => x.id != c.id) }

/-- A collective fails on this member (R289, R326): ABORT to its partners, slots and context released, its slices Abandoned,
the launcher told. -/
def W.failColl (w : W) (id status block : Nat) (but : Option Nat := none) : W :=
  match w.fab.coll? id with
  | some c =>
    let w1 := w.map (fun f =>
      ((c.partners.filter (fun r => some r != but)).foldl (fun g r =>
        g.flowSend (c.flow r) 0 (collBytes 0x0B (c.msg false 0 0 8 3 (beBytes 8 status)))) f).dropColl c)
    (c.sealed.foldl (fun x n => x.abandon c.partition n) w1).map (fun f => f.collLauncher c status block)
  | none => w

/-- Every collective that satisfies a condition fails. DESIGN CHOICE (log 47). -/
def W.failColls (w : W) (q : Coll → Bool) (status : Nat) : W :=
  (w.fab.colls.filter q).foldl (fun x c => x.failColl c.id status 0) w

/-- The memory context of a partition ends (R206, R212): the state reads lost, CONTEXT_LOST rises, every launch aborts
(`met`: the cluster whose strand met the line; the others carry 0xFFFE, R127), launches not admitted are refused, and its
collectives fail. DEDUCED (log 88). -/
def W.endContext (w : W) (p : Nat) (met : Option Nat) (a : Nat) : W :=
  if w.fab.dget 0x3030 (p + 1) = 1 then w else
  (w.map (fun f => ((f.dset 0x3030 (p + 1) 1).raise (srcPartition p) 0x0205 (some p) 0x21 a).abortPartition p
    (met.getD 0xFFFE) .contextLost)).failColls (fun c => c.partition == p) kolasAborted

/-- An uncorrectable error delivered to a strand or to what it issued (R206): the line, or the Well word, is recorded, the strand
takes MEM_UNCORRECTABLE, the context ends. DEDUCED (log 88). -/
def W.memFault (w : W) (c k : Nat) (epc : BitVec 16) (a : Nat) (pl : Place) : W :=
  let p := w.fab.partitionOf c
  (w.map (fun f => (match pl with
    | .well _ _ => f.memRecorded pl (some p)
    | _ => f.memUncorrectable pl (some p)).raiseAsync c k ⟨.memUncorrectable, epc, BitVec.ofNat 64 a⟩)).endContext p (some c) a

/-- An uncorrectable error of a read that no strand made (R206): the context of partition p ends. DEDUCED (log 88). -/
def W.contextFault (w : W) (p a : Nat) : W :=
  (w.map (fun f => f.memUncorrectable (f.locate none a) (some p))).endContext p none a

/-- A Kolas read meets an uncorrectable line (R206, R330): the strand takes MEM_UNCORRECTABLE and the context ends. -/
def W.collMemFault (w : W) (c : Coll) (a : Nat) : W :=
  match c.launcher with
  | .op cl _ k epc => w.memFault cl k epc a (w.fab.locate none a)
  | .job _ _ => w.contextFault c.partition a

/-- The collective engine of a tree's base die reads (false) or writes (true) ranges of package memory (R189, R206, R326, R330):
all of them, and then `body`; or the first status fails the collective. The engine has no source unit of its own in Table
"Source units": it takes the Blotter's. DESIGN CHOICE (log 93). -/
def W.collDo (id : Nat) (body : W → W) : List (Nat × Nat × Bool) → W → W
  | [], w => body w
  | (a, n, write) :: r, w =>
    match w.fab.coll? id with
    | some c =>
      let x := w.access (fun d => w.fab.unitTag c.partition c.die 4 d write) a n write
      let w1 := x.1
      match x.2 with
      | .wait => w1
      | .ok => W.collDo id body r w1
      | .bad b => w1.collMemFault c b
      | .firewall _ => w1.failColl id kolasFirewall 0
      | .outside _ => w1.failColl id kolasOutOfMap 0
    | none => w

/-- The Rubric die's reads and writes (`W.rubricReach`), with the status they give: an uncorrectable line ends the context (R206). -/
def W.rubric (p : Nat) (l : List (Nat × Nat × Bool)) (w : W) : W × Option HostStatus :=
  match W.rubricReach p l w with
  | (w1, .ok) => (w1, none)
  | (w1, .bad b) => (w1.contextFault p b, some .memUncorrectable)
  | (w1, _) => (w1, some .outOfMap)

/-- An operation of strand k of cluster c reads Well words: it goes on with the corrected ones, or meets an uncorrectable one and
ends with none of its effect (R193, R205, R206). -/
def W.wellRead (w : W) (c k : Nat) (epc : BitVec 16) (op : Nat) (keys : List Nat) (body : W → W) : W :=
  let r := w.fab.wellCode c keys
  match r.2 with
  | some pl => ({ w with fab := r.1.finish c op }).memFault c k epc pl.addr pl
  | none => body { w with fab := r.1 }

/-! ### Lifts of what reaches memory -/

/-- The contexts of the uncorrectable lines that a command met on its way end (R206). -/
def W.settled (w : W) : W := w.faults.foldl (fun x e => x.contextFault e.1 e.2) w

/-- A command that changes memory and not the security block; one that must wait changes nothing. DESIGN CHOICE (logs 18, 93). -/
def onMem (s : State) (f : W → W) : Host.Outcome State Fault Refusal :=
  let w := (f (W.of s)).settled
  .next (if s.fab.phase = .running ∧ w.waits = false then { s with mem := MemOp.applyAll s.mem w.out, fab := w.fab } else s)

/-- A command that may change everything but the queue; one that must wait changes nothing. DESIGN CHOICE (logs 18, 93). -/
def onAll (s : State) (f : W → W) : Host.Outcome State Fault Refusal :=
  let w := (f (W.of s)).settled
  .next (if s.fab.phase = .running ∧ w.waits = false then
    { s with mem := MemOp.applyAll s.mem w.out, fab := w.fab, sec := w.sec } else s)

/-- A reset, a boot action or a pin: it may come in any phase, and its own meaning tells them apart. It waits for nothing.
DESIGN CHOICE (log 18). -/
def onAny (s : State) (f : W → W) : Host.Outcome State Fault Refusal :=
  let w := (f (W.of s)).settled
  .next { s with mem := MemOp.applyAll s.mem w.out, fab := w.fab, sec := w.sec }

end Sys2Proof.Machine
end

