-- ==== Sys2Proof/Machine/Matrix.lean ====
section
/-! DEFINITION. Matrix instructions and their completions: WLOAD, TMUL, DRAIN, ACLR, DRAINB (R148 to R153), holds (R48,
R52, R53), the tile multiply with its residue check and scale replay (R40 to R68, R79 to R81, R122, R123, R149, R295), the
drain (R82 to R87, R151). -/

namespace Sys2Proof.Machine

open Sys2Proof

/-! ### Array entries -/

/-- Dictionary address of a cluster's presented width (R70). -/
def widthEntry (c : Nat) : Nat × Nat := if c < 768 then (0x4100 + c / 48, c % 48 + 1) else (0x4110, c - 767)

/-- Dictionary address of a cluster's bad-nib map (R70). -/
def badEntry (c : Nat) : Nat × Nat := if c < 768 then (0x4120 + c / 48, c % 48 + 1) else (0x4130, c - 767)

/-- Presented width of a cluster: 64, 56, 48, or 0 retired. -/
def Fab.width (f : Fab) (c : Nat) : Nat := f.dget (widthEntry c).1 (widthEntry c).2

/-- Bad-nib map of a cluster. -/
def Fab.badNibs (f : Fab) (c : Nat) : Nat := f.dget (badEntry c).1 (badEntry c).2

/-- Table "Presented width" (R61). -/
def widthOf (bad : Nat) (narrow48 : Bool) : Nat :=
  let b := (bitsSet bad 64).length
  if b = 0 then 64 else if b ≤ 8 then 56 else if b ≤ 16 ∧ narrow48 then 48 else 0

/-- p(n): the physical nib of presented column n, the n-th nib not marked bad, if there is one (R60). -/
def nibOf (bad n : Nat) : Option Nat := ((List.range 64).filter (fun i => !bit bad i))[n]?

/-! ### Issue -/

/-- WLOAD (R49, R148). -/
def execWload (x : Issue) (s : State) : Host.Outcome State Fault Refusal := onFab s (fun f => f.issueOp x 0x50 [])

/-- TMUL (R50, R149): it issues when the matrix unit accepts it (R112, R113). -/
def execTmul (x : Issue) (s : State) : Host.Outcome State Fault Refusal := onFab s (fun f => f.issueOp x 0x51 [])

/-- DRAIN (R151). -/
def execDrain (x : Issue) (s : State) : Host.Outcome State Fault Refusal := onFab s (fun f => f.issueOp x 0x52 [])

/-- ACLR (R152). -/
def execAclr (x : Issue) (s : State) : Host.Outcome State Fault Refusal := onFab s (fun f => f.issueOp x 0x53 [])

/-! ### Holds and weight loads -/

/-- A held operation whose hold has ended starts, and its latency runs from there (R48, R52, R53, R113, R448); a held store to the
own Well is written (R158). DEDUCED (log 32). -/
def holdRelease (o : OpRef) (w : W) : W :=
  let cl := w.fab.cluster o.cluster
  match cl.op? o.op with
  | some p =>
    if p.held && !cl.mustHold w.fab.cycle p.id p.kind && !w.fab.throttled cl p.kind then
      match p.kind with
      | .store a n v => (w.wellPut o.cluster a (leBytes n v)).map (fun f => f.finish o.cluster o.op)
      | k => w.map (fun f => f.onCluster o.cluster (fun cl =>
          let b := cl.begin f k
          { b.1 with ops := updateFirst (fun q => q.id == o.op) (fun q =>
              { q with held := false, kind := b.2, due := f.cycle + k.latency (isBroad o.cluster) }) b.1.ops }))
    else w
  | none => w

/-- Well rows of an operation. -/
def tileRows (a pitch n : Nat) : List Nat := (List.range n).map (fun i => a + i * pitch)

/-- WEIGHT_LOAD_COMPLETE: columns below the count loaded with their tags, the others zero (R49, R148); its Well words meet their
code (R193). -/
def weightLoad (o : OpRef) (w : W) : W :=
  match (w.fab.cluster o.cluster).op? o.op with
  | some p =>
    match p.held, p.kind with
    | false, .wload a pitch m n =>
      w.wellRead o.cluster p.strand p.epc o.op (rowKeys o.cluster (tileRows a pitch n)) (fun w =>
        let col := fun i => (i, Column.mk (w.wellBytes o.cluster (a + i * pitch) 64) (w.fab.tag o.cluster ((a + i * pitch) / 64)))
        w.map (fun f =>
          (f.onCluster o.cluster (fun cl => { cl with shadow := ⟨some m, (List.range n).map col⟩ })).finish o.cluster o.op))
    | _, _ => w
  | none => w

/-- WEIGHT_LOAD_COMPLETE. -/
def execWeightLoadComplete (o : OpRef) (s : State) : Host.Outcome State Fault Refusal :=
  onMem s (fun w => w.atCluster o.cluster (weightLoad o))

/-! ### The tile multiply -/

/-- Weights of presented column n as numbers, elements 0 to k - 1; an absent column or unformatted buffers supply zeros
(R40, R49). -/
def WBuf.nums (b : WBuf) (n k : Nat) : List Num :=
  match b.fmt, b.cols.find? n with
  | some m, some c => rowNums m c.bytes c.tag k
  | _, _ => List.replicate k Num.zero

/-- One run of a tile multiply with scale exponent e (R51, R149): the entries it writes, and its flags. -/
def tmulRun (w : W) (c : Nat) (t : TmulOp) (e : Int) : List (Nat × W32) × Raise :=
  let cl := w.fab.cluster c
  let cols := (List.range t.w).map (fun n => t.weights.nums n t.k)
  (List.range t.m).foldl (fun acc m =>
    let a := t.act + m * t.stride
    let row := rowNums t.fmt (w.wellBytes c a 64) (w.fab.tag c (a / 64)) t.k
    (List.range t.w).foldl (fun acc n =>
      let key := 64 * (t.base + m) + n
      let r := nibRun row (cols.getD n []) e (if t.accumulate then some (cl.acc.get 0 key) else none)
      (acc.1 ++ [(key, r.1)], acc.2.or r.2)) acc) ([], .none)

/-- Accumulator entries written. -/
def Cluster.setAcc (cl : Cluster) (l : List (Nat × W32)) : Cluster :=
  { cl with acc := l.foldl (fun a e => a.set e.1 e.2) cl.acc }

/-- A residue mismatch of a physical nib counted and reported (R67, R68). -/
def Fab.nibMiss (f : Fab) (c n : Nat) : Fab :=
  let f1 := (f.onCluster c (fun cl => { cl with nibMiss := cl.nibMiss.set n (cl.nibMiss.get 0 n + 1) })).dadd 0x4003 1 1
  f1.raise (srcCluster c) 0x0101 (some (f.partitionOf c)) n ((f1.cluster c).nibMiss.get 0 n)

/-- The runs of one operation under the residue check (R67, R68): each list names the nibs that mismatch in one run, and a
missing list is a clean run. The result holds the nibs that become permanent-bad: those that mismatch again in the replay,
and those whose count reaches the limit; and the lists left. A replay in which only other nibs mismatch is a first mismatch of
theirs, and the multiply is replayed again: the spec does not speak of it. DESIGN CHOICE (log 96). -/
def Fab.residueRuns (f : Fab) (c : Nat) : List (List Nat) → List Nat → Fab × List Nat × List (List Nat)
  | [], _ => (f, [], [])
  | b :: r, prev =>
    if b.isEmpty then (f, [], r)
    else
      let f1 := b.foldl (fun g n => g.nibMiss c n) f
      let bad := b.filter (fun n => prev.contains n || Nat.ble (f1.cluster c).nibLimit ((f1.cluster c).nibMiss.get 0 n))
      if bad.isEmpty then f1.residueRuns c r b else (f1, bad, r)

/-- A nib becomes permanent-bad (R68): the map, the event, and NIB_FAULT in the strand. -/
def Fab.nibFault (f : Fab) (c k : Nat) (epc : BitVec 16) (n : Nat) : Fab :=
  let m := setBit (f.badNibs c) n true
  let f1 := (f.dset (badEntry c).1 (badEntry c).2 m).onCluster c (fun cl => { cl with nibBad := true })
  (f1.raise (srcCluster c) 0x0102 (some (f.partitionOf c)) n (widthOf m (f.dget 0x4003 0x40 = 1))).raiseAsync c k
    ⟨.nibFault, epc, BitVec.ofNat 64 n⟩

/-- EINFO of SCALE_LIMIT (R123, R150). -/
def scaleLimit (epc : BitVec 16) (base : Nat) (e : Int) : Exc :=
  ⟨.scaleLimit, epc, BitVec.ofNat 64 (base * 65536 + (e % 256).toNat)⟩

/-- A scale replay counted (R122). -/
def Fab.replayed (f : Fab) (c k : Nat) : Fab := f.onStrand c k (fun t => { t with replays := t.replays + 1 })

/-- Runs of a tile multiply from exponent e on with at most `left` replays to come (R122, R123, R295): each replay halves
the scale; a residue fault ends the operation with its rows untouched. -/
def W.tmulRuns (w : W) (c : Nat) (p : Op) (t : TmulOp) : Nat → Int → List (List Nat) → Fab
  | left, e, bad =>
    let q := w.fab.residueRuns c bad []
    if !q.2.1.isEmpty then q.2.1.foldl (fun g n => g.nibFault c p.strand p.epc n) (q.1.finish c p.id)
    else
      let r := tmulRun w c t e
      let again := t.rp && r.2.ovf && (w.fab.cluster c).phase == .running
      let fin := fun (f : Fab) => ((f.onCluster c (fun cl => cl.setAcc r.1)).finish c p.id).raiseFlags c p.strand p.epc r.2
      if again then
        match left with
        | 0 => (fin q.1).raiseAsync c p.strand (scaleLimit p.epc t.base e)
        | l + 1 =>
          if e - 1 < -14 then (fin q.1).raiseAsync c p.strand (scaleLimit p.epc t.base e)
          else W.tmulRuns { w with fab := q.1.replayed c p.strand } c p t l (e - 1) q.2.2
      else fin q.1

/-- TILE_MULTIPLY_COMPLETE: the oldest tile multiply of the cluster, not held, completes (R47, R57). `bad` names, run by run, the
presented columns below W whose nibs mismatch (R60, R67): the outcome of the residue checks is the event's operand. A column that
a nib fault since its start has left without a nib names none. Its
activation rows meet the Well's code (R193). DEDUCED (log 29). DESIGN CHOICE (log 96). -/
def tmulComplete (o : OpRef) (bad : List (List Nat)) (w : W) : W :=
  let cl := w.fab.cluster o.cluster
  match cl.op? o.op with
  | some p =>
    match p.kind with
    | .tmul t =>
      if p.held || cl.ops.any (fun q => Nat.blt q.id p.id && q.kind.isTmul) then w
      else
        let nibs := bad.map (fun l => ((l.filter (fun n => Nat.blt n t.w)).filterMap (nibOf (w.fab.badNibs o.cluster))).eraseDups)
        w.wellRead o.cluster p.strand p.epc o.op (rowKeys o.cluster (tileRows t.act t.stride t.m)) (fun w =>
          { w with fab := w.tmulRuns o.cluster p t 3 t.e nibs })
    | _ => w
  | none => w

/-- TILE_MULTIPLY_COMPLETE. -/
def execTileMultiplyComplete (o : OpRef) (bad : List (List Nat)) (s : State) : Host.Outcome State Fault Refusal :=
  onMem s (fun w => w.atCluster o.cluster (tmulComplete o bad))

/-! ### The drain -/

/-- MX blocks in one Well row of a format: four of MXFP4, two of the others (R78). -/
def blocksPerRow (m : Fmt) : Nat := if fmtBits m = 4 then 4 else 2

/-- Tag bytes written for the blocks that start at Well byte offset `off` (R78, R151, R180). -/
def Fab.putTags (f : Fab) (c off : Nat) (m : Fmt) (tags : List Nat) : Fab :=
  (List.range tags.length).foldl (fun g b =>
    let n := blocksPerRow m
    let start := off % 64 / (64 / n)
    let row := off / 64 + (start + b) / n
    g.setTag c row (tagWith (g.tag c row) ((start + b) % n) (tags.getD b 0))) f

/-- A drain's rows written into its tile. -/
def W.putRows (w : W) (c : Nat) (d : DrainOp) (rows : List (List Byte × List Nat × Raise)) : W :=
  (List.range rows.length).foldl (fun w j =>
    let r := rows.getD j ([], [], .none)
    (w.wellPut c (d.addr + j * d.stride) r.1).map (fun f => f.putTags c (d.addr + j * d.stride) d.fmt r.2.1)) w

/-- DRAIN_COMPLETE of a drain or an ACLR that is not held and whose tile no tile multiply locks (R48, R53, R151, R152): the
accumulator rows were read at the end of its hold, and cleared then or, where it is replayed, now. -/
def drainComplete (o : OpRef) (w : W) : W :=
  let c := o.cluster
  let cl := w.fab.cluster c
  match cl.op? o.op with
  | some p =>
    if p.held then w else
    match p.kind with
    | .aclr _ _ => w.map (fun f => f.finish c o.op)
    | .drain d =>
      if cl.locked p.id p.kind.writes then w else
      let r := drainEnd (cl.phase == .running) d 3 d.e 0
      let rows := drainRun d r.1
      (w.putRows c d rows).map (fun f =>
        let f1 := f.onStrand c p.strand (fun t => { t with replays := t.replays + BitVec.ofNat 32 r.2.1 })
        let f1 := if d.later then f1.onCluster c (fun cl => cl.clearAcc d.base d.m) else f1
        let f2 := (f1.finish c o.op).raiseFlags c p.strand p.epc (drainFlags rows)
        if r.2.2 then f2.raiseAsync c p.strand (scaleLimit p.epc d.base r.1) else f2)
    | _ => w
  | none => w

/-- DRAIN_COMPLETE. -/
def execDrainComplete (o : OpRef) (s : State) : Host.Outcome State Fault Refusal :=
  onMem s (fun w => w.atCluster o.cluster (drainComplete o))

end Sys2Proof.Machine
end

