-- ==== Sys2Proof/Machine/Feed.lean ====
section
/-! DEFINITION. The Feed port's machinery (R214 to R245): routes and crossings (R18, R22, R25, R27, R32), the check of a package
access (R30, R33, R189), the place of a unit (R220), checks of segments and arms (R218, R219, R223), the injection of
requests (R214, R225, R228, R235), the turn of a request at its memory (R195, R236), consumption and acceptance in issue order
(R171, R225 to R227), the end of a pass (R222, R224) and the fault of a stream (R229, R230). -/

namespace Sys2Proof.Machine

open Sys2Proof

/-! ### Routes and crossings -/

/-- The islands that a transaction of cluster c enters on its way (R16, R18, R21): its region switch, the base-die cores of its
route, and the controller group, or the Rubric die and its PCIe controller, or the photonic interface. None where no route
or window matches (R30). -/
def Fab.routeOf (f : Fab) (c : Nat) (far : Far) (a : Nat) : Option (List Nat) :=
  let own := baseDieOf c
  let up := if isBroad c then [800 + c / 8] else []
  match far with
  | .host => some (up ++ [896 + own, 944, 945])
  | .peer _ => some (up ++ [896 + own, 936 + own])
  | .slot _ => some (up ++ [896 + own])
  | .package => match f.locate none a with
    | .well _ _ => none
    | _ => f.wayTo up (some own) a

/-- The first transaction that its next island can read from the head of its crossing: the island is not in its safe state, and
the crossing after it has room (R22, R25). `seen` are the crossings whose head has been tried. -/
def Fab.mover (f : Fab) : List Txn → List (Nat × Nat) → Option Txn
  | [], _ => none
  | t :: r, seen =>
    match t.ahead with
    | [] => f.mover r seen
    | x :: rest =>
      if seen.contains (t.behind, x) || f.halts x ||
          (match rest with | y :: _ => f.crossingFull x y | [] => false) then f.mover r ((t.behind, x) :: seen)
      else some t

/-- What a request for the host or a peer sends out once it has left the package (R243, R244): to a peer under the entry read at its
injection (R27). DESIGN CHOICE (logs 9, 33). -/
def Fab.sendFar (f : Fab) (t : Txn) : Fab :=
  match t.far, t.write with
  | .package, _ | .slot _, _ => f
  | .host, none => { f with netOut := f.netOut ++ t.ranges.map (fun r => .hostRead t.tag.partition r.1 r.2) }
  | .host, some l => { f with netOut := f.netOut ++ [.hostWrite t.tag.partition t.addr l] }
  | .peer i, none =>
    t.ranges.foldl (fun g r => g.rdmaRead (baseDieOf t.origin.cluster) t.tag.partition i t.window r.1 r.2) f
  | .peer i, some l => f.rdmaWrite (baseDieOf t.origin.cluster) t.tag.partition i t.window t.addr l

/-- Transactions move on while one can, at most `fuel` crossings: each enters the next island and stands last there (R22, R23). -/
def Fab.hopsFuel : Nat → Fab → Fab
  | 0, f => f
  | n + 1, f =>
    match f.mover f.txns [] with
    | some t =>
      let g := { f with txns := f.txns.filter (fun u => u.id != t.id) ++ [{ t with behind := t.ahead.headD 0, ahead := t.ahead.tail }] }
      Fab.hopsFuel n (if t.ahead.tail.isEmpty then g.sendFar t else g)
    | none => f

/-- Every transaction goes as far as the crossings let it. DESIGN CHOICE (log 97). -/
def Fab.hops (f : Fab) : Fab := Fab.hopsFuel ((f.txns.map (fun t => t.ahead.length)).sum) f

/-! ### Package accesses -/

/-- What the package answers to an access of one partition. -/
inductive Answer
  | ok
  | badTag
  | noRoute
  | firewall (a : Nat)
  deriving DecidableEq, Repr

/-- The tag of a read or write by a cluster (R33 to R35): Feed class to its own base die, remote class elsewhere. Its Bank bit is
that of the partition's scope, whose windows it reads; the bank of the package route scope is `Txn.routeBank`, since R27 gives
the tag one bit. DESIGN CHOICE (log 97). -/
def Fab.clusterTag (f : Fab) (c : Nat) (dest : Nat) (write : Bool) : Tag :=
  let p := f.partitionOf c
  { partition := p, bank := (f.scope p).bank, cls := rwClass (16 + baseDieOf c) dest write,
    sourceDie := (sourceOf c).1, sourceUnit := (sourceOf c).2, destDie := dest, seq := 0 }

/-- The checks a transaction meets at its ranges (address, length): reserved class or bad die (R33), a window (R30), the firewall
(R189). -/
def Fab.answer (f : Fab) (t : Tag) (ranges : List (Nat × Nat)) : Answer :=
  if t.cls = 7 ∨ 24 < t.sourceDie ∨ 24 < t.destDie then .badTag
  else match ranges.findSome? (fun r => match f.guarded t.partition r.1 r.2 with
      | .ok | .bad _ | .wait => none
      | .outside _ => some Answer.noRoute
      | .firewall a => some (.firewall a)) with
    | some x => x
    | none => .ok

/-- A transaction refused: NO_ROUTE and FIREWALL raise their events (R30, R189); each returns its status. -/
def Fab.refusedEvent (f : Fab) (x : Answer) (t : Tag) : Fab :=
  match x with
  | .noRoute => f.noRouteEvent t
  | .firewall a => f.firewallEvent t a
  | _ => f

/-- The operation of a cluster that waits for a transaction. -/
def Fab.txnOp (f : Fab) (x : TxnFor) : Option (Nat × Op) :=
  match x with
  | .op c id => ((f.cluster c).op? id).map (fun o => (c, o))
  | _ => none

/-- The operation of a transaction ends without its result: a load's register is released unwritten.
DESIGN CHOICE (log 22). -/
def Fab.dropOp (f : Fab) (c : Nat) (o : Op) : Fab :=
  let f1 := match o.kind with
    | .load rd _ _ _ => f.onStrand c o.strand (fun t => t.unbusy (.s rd))
    | _ => f
  f1.finish c o.id

/-- The stream of a cluster with a binding number. -/
def Cluster.uid? (cl : Cluster) (uid : Nat) : Option Stream := cl.streams.find? (fun s => s.uid == uid)

/-- The stream with a binding number changed. -/
def Fab.onUid (f : Fab) (c uid : Nat) (g : Stream → Stream) : Fab :=
  f.onCluster c (fun cl => { cl with streams := updateFirst (fun s => s.uid == uid) g cl.streams })

/-! ### Segments and passes -/

/-- MXFP6: packed in memory, 48 bytes to a unit (R77, R220). -/
def fmtFp6 (m : Fmt) : Bool :=
  match m with
  | .mxE3m2 | .mxE2m3 => true
  | _ => false

/-- Element bytes of one unit in memory (R220). -/
def unitBytes (m : Fmt) : Nat := if fmtFp6 m then 48 else 64

/-- Scale bytes of one unit: t_F (R220). -/
def unitScales (m : Fmt) : Nat := if fmtMx m then (if fmtBits m = 4 then 4 else 2) else 0

/-- A segment is good (R218). -/
def segOk (m : Fmt) (out : Bool) (g : BitVec 256) : Bool :=
  Nat.ble (segUnits g) (2 ^ 24) && Nat.ble 1 (segField g 175 160) && Nat.ble 1 (segField g 159 144) &&
  !(out && segField g 143 112 == 0) && segField g 255 216 % 64 == 0 && segField g 143 112 % 64 == 0 &&
  (fmtMx m || (segField g 215 176 == 0 && segField g 111 88 == 0)) &&
  (!fmtFp6 m || segField g 175 160 % 4 == 0) && segField g 86 0 == 0

/-- The segment of a pass that holds a unit, and the unit's place in it. -/
def segAt : List (BitVec 256) → Nat → Option (BitVec 256 × Nat)
  | [], _ => none
  | g :: r, i => if i < segUnits g then some (g, i) else segAt r (i - segUnits g)

/-- Element and scale addresses of unit i of a segment on base A (R220). -/
def unitAddr (m : Fmt) (base : Nat) (g : BitVec 256) (i : Nat) : Nat × Nat :=
  let ru := segField g 175 160
  (base + segField g 255 216 + i / ru * segField g 143 112 + i % ru * unitBytes m,
   base + segField g 215 176 + i / ru * segField g 111 88 + i % ru * unitScales m)

/-- Base of the pass that a unit number belongs to, and the unit's place in the pass (R224, R225). -/
def Stream.passOf (s : Stream) (u : Nat) : Option (Nat × Nat) :=
  match s.cur with
  | some p =>
    if p.start ≤ u ∧ u < p.start + s.passUnits then some (p.base, u - p.start)
    else match s.pendingArm with
      | some (b, _) => if p.start + s.passUnits ≤ u ∧ u < p.start + 2 * s.passUnits then
          some (b, u - p.start - s.passUnits) else none
      | none => none
  | none => none

/-- A unit of a stream with its place filled in, given its bytes and tag. -/
def Stream.placed (s : Stream) (u : Nat) (bytes : List Byte) (tag : W32) : Option StreamUnit :=
  match s.passOf u with
  | some (b, i) =>
    match segAt (s.segs.getD []) i with
    | some (g, j) =>
      let a := unitAddr s.fmt b g j
      some ⟨bytes, tag, a.1, a.2, j + 1 = segUnits g, (j + 1 = segUnits g) && segField g 87 87 == 1,
        (j + 1) % segField g 175 160 == 0, 0⟩
    | none => none
  | none => none

/-- Fields of an endpoint entry (Table "Endpoint entry"). -/
def endpointWindow (e : BitVec 512) (n : Nat) (write : Bool) : Bool :=
  (bitsOf e.toNat 211 209 == 2 || bitsOf e.toNat 211 209 == 3) && Nat.ble n (bitsOf e.toNat 319 280) &&
  bit (bitsOf e.toNat 205 204) (if write then 1 else 0)

/-- A byte range that a stream may reach at its endpoint (R223, R243, R244). -/
def Fab.streamReach (f : Fab) (p : Nat) (s : Stream) (a n : Nat) : Bool :=
  match descField s.desc 61 60 with
  | 0 => f.inWindows p a n
  | 1 => f.inHostWindow p a n s.out
  | _ => match (f.scope p).live.endpoints.find? (descField s.desc 319 304) with
    | some e => endpointWindow e (a + n) s.out
    | none => false

/-- Every element and scale byte of a pass on a base lies where the stream may reach (R223): tested row by row. -/
def Fab.armOk (f : Fab) (p : Nat) (s : Stream) (base : Nat) : Bool :=
  (s.segs.getD []).all (fun g =>
    let rows := segField g 159 144
    let ru := segField g 175 160
    (List.range rows).all (fun r =>
      let a := unitAddr s.fmt base g (r * ru)
      f.streamReach p s a.1 (ru * unitBytes s.fmt) &&
      (unitScales s.fmt == 0 || f.streamReach p s a.2 (ru * unitScales s.fmt))))

/-! ### FP6 packing -/

/-- FP6 elements packed from 64 Well bytes to 48 memory bytes (R77, R221). -/
def packFp6 (l : List Byte) : List Byte :=
  (List.range 16).flatMap (fun g => leBytes 3 (((List.range 4).map (fun j => (l.getD (4 * g + j) 0).toNat % 64 * 2 ^ (6 * j))).sum))

/-- Memory bytes of a unit from its Well bytes (R221). -/
def toMemory (m : Fmt) (l : List Byte) : List Byte := if fmtFp6 m then packFp6 l else l

/-! ### Injection -/

/-- The lowest sequence number that no transaction of a source holds, one of 256 (R33, R214, R242). DESIGN CHOICE (log 97). -/
def Fab.freeSeq (f : Fab) (die unit : Nat) : Option Nat :=
  (List.range 256).find? (fun n => !f.txns.any (fun t => t.tag.sourceDie == die && t.tag.sourceUnit == unit && t.tag.seq == n))

/-- A cluster injects a request (R27, R33, R214, R235): none while it must wait for a sequence number, a queue entry or room in its
crossing, or its island is in its safe state; an error where no route or window matches, with the NO_ROUTE event (R30). A DRAINB into
a slot is a Blotter accumulate (R35). -/
def Fab.tryInject (f : Fab) (c : Nat) (far : Far) (a len : Nat) (write : Option (List Byte)) (origin : TxnFor)
    (more : List (Nat × Nat) := []) : Option (Except (Fab × Tag) Fab) :=
  let dest := match far with
    | .package => (f.locate none a).die
    | .host => 24
    | .peer _ | .slot _ => 16 + baseDieOf c
  match f.freeSeq (sourceOf c).1 (sourceOf c).2 with
  | none => none
  | some n =>
    let t0 := { f.clusterTag c dest write.isSome with seq := n }
    let t := match far with | .slot _ => { t0 with cls := 4 } | _ => t0
    match f.routeOf c far a with
    | none => some (.error (f.refusedEvent .noRoute t, t))
    | some r =>
      if f.halts c || f.crossingFull c (r.headD 0) ||
          (match f.queueOf t far a write.isSome with | some q => f.queueFull q | none => false) then none
      else
        let x : Txn :=
          { id := f.nextTxn, tag := t, addr := a, len := len, more := more, write := write, origin := origin, far := far, heldPage := false,
            routeBank := f.routeBank, window := match far with | .peer i => f.endpointEntry t.partition i | _ => 0,
            route := r, behind := c, ahead := r }
        some (.ok { f with txns := f.txns ++ [x], nextTxn := f.nextTxn + 1 })

/-- NO_ROUTE in a strand (R124). -/
def noRouteExc (epc : BitVec 16) (t : Tag) : Exc := ⟨.noRoute, epc, BitVec.ofNat 64 (tagBits t)⟩

/-- An LD or ST that waits at its port is injected, if it can be (R192, R235). -/
def Fab.injectAccess (f : Fab) (x : Waiting) : Option Fab :=
  let rest := fun (g : Fab) => { g with waiting := removeFirst (· == x) g.waiting }
  match f.tryInject x.cluster .package x.addr x.len x.write (.op x.cluster x.op) with
  | none => none
  | some (.ok g) => some (rest g)
  | some (.error (g, t)) =>
    match g.txnOp (.op x.cluster x.op) with
    | some (c, o) => some (((rest g).dropOp c o).raiseAsync c o.strand (noRouteExc o.epc t))
    | none => some (rest g)

/-- A DRAINB that has started is injected, if it can be (R19, R27, R35, R153). -/
def Fab.injectDrain (f : Fab) (c : Nat) (o : Op) : Option Fab :=
  match o.held, o.kind with
  | false, .drainb slot _ _ m _ (some _) =>
    if f.txns.any (fun t => t.origin == .op c o.id) then none
    else match f.tryInject c (.slot slot) slot (256 * m) (some []) (.op c o.id) with
      | some (.ok g) => some g
      | _ => none
  | _, _ => none

/-- Where the endpoint of a stream lies (R228, R243, R244). -/
def Stream.far (s : Stream) : Far :=
  match descField s.desc 61 60 with
  | 0 => .package
  | 1 => .host
  | _ => .peer (descField s.desc 319 304)

/-- Unit u of a stream: an accepted one, or the place of one to be requested. -/
def Stream.unitAt (s : Stream) (u : Nat) : Option StreamUnit := if s.out then s.units.find? u else s.placed u [] 0

/-- Consecutive units of one row from unit u on, at most `left` (R228). -/
def Stream.rowRun (s : Stream) (u : Nat) : Nat → Nat
  | 0 => 0
  | n + 1 =>
    match s.unitAt u with
    | some x => if x.rowEnd then 1 else s.rowRun (u + 1) n + 1
    | none => 0

/-- Units that may be injected now: those accepted (out), or those of the armed passes within the window (in) (R225). -/
def Stream.sendable (s : Stream) : Nat :=
  if s.out then (if s.state = .cancelling then 0 else s.head - s.asked)
  else if s.state = .armed then min s.limit (s.head + s.window) - s.asked else 0

/-- Units of the next transaction: one to package memory, up to 16 of one row to a host or a peer (R228). -/
def Stream.nextRun (s : Stream) : Nat := s.rowRun s.asked (min s.sendable (if s.far = .package then 1 else 16))

/-- Runs of gathered bytes of line l: address and bytes, ascending. -/
def lineRuns (l : Nat) (t : Tbl Byte) : List (Nat × List Byte) :=
  ((List.range 64).foldl (fun acc i =>
    match t.find? i with
    | some b => match acc with
      | (a, bs) :: r => if a + bs.length = 64 * l + i then (a, bs ++ [b]) :: r else (64 * l + i, [b]) :: acc
      | [] => [(64 * l + i, [b])]
    | none => acc) []).reverse

/-- The scale bytes of an injected unit gathered into lines: a line is ready when it is full, and every line when the segment
ends (R221). -/
def Stream.gatherUnit (s : Stream) (u : Nat) (x : StreamUnit) : Stream :=
  let g := (List.range (unitScales s.fmt)).foldl (fun (g : Tbl (Tbl Byte)) i =>
    let a := x.scale + i
    g.set (a / 64) ((g.get [] (a / 64)).set (a % 64) (BitVec.ofNat 8 (tagByte x.tag i)))) s.gather
  let done := g.filter (fun e => x.ends || e.2.length == 64)
  { s with
    gather := g.filter (fun e => !(x.ends || e.2.length == 64)),
    lines := s.lines ++ done.flatMap (fun e => (lineRuns e.1 e.2).map (fun r => (u, r.1, r.2))) }

/-- Units of a stream noted as injected. -/
def Stream.sent (s : Stream) (n : Nat) : Stream :=
  let g := if s.out then (List.range n).foldl (fun (t : Stream) i => match s.units.find? (s.asked + i) with
      | some x => t.gatherUnit (s.asked + i) x
      | none => t) s
    else s
  { g with asked := s.asked + n }

/-- The next request of a stream of cluster c injected, if one is due and can be: the segment batch (R219), a scale line, a run of
units (R221, R225, R226). -/
def Fab.injectStream (f : Fab) (c : Nat) (s : Stream) : Option Fab :=
  let send := fun (far : Far) (a len : Nat) (more : List (Nat × Nat)) (write : Option (List Byte)) (origin : TxnFor)
      (note : Stream → Stream) =>
    match f.tryInject c far a len write origin more with
    | none => none
    | some (.ok g) => some (g.onUid c s.uid note)
    | some (.error (g, t)) => some ((g.onUid c s.uid note).raiseAsync c (s.strand % 8) (noRouteExc s.epc t))
  if s.segs.isNone then
    if s.state = .armed ∧ s.fetching = false then
      send .package (descField s.desc 255 192) (32 * descField s.desc 39 32) [] none (.batch c s.uid) (fun s => { s with fetching := true })
    else none
  else
    match s.lines with
    | (u, a, l) :: r => send s.far a l.length [] (some l) (.scale c s.uid u) (fun s => { s with lines := r })
    | [] =>
      let n := s.nextRun
      match s.unitAt s.asked with
      | some x =>
        if n = 0 then none
        else if s.out then
          send s.far x.addr (n * unitBytes s.fmt) []
            (some ((List.range n).flatMap (fun i => match s.units.find? (s.asked + i) with
              | some y => toMemory s.fmt y.bytes
              | none => [])))
            (.out c s.uid s.asked n) (fun s => s.sent n)
        else
          let k := n * unitScales s.fmt
          send s.far x.addr (n * unitBytes s.fmt) (if k = 0 then [] else [(x.scale, k)]) none (.units c s.uid s.asked n)
            (fun s => s.sent n)
      | none => none

/-- The next injection of any port, and with it the next sequence number: a waiting access first, then the DRAINBs and the streams of
each cluster, these in binding order. DESIGN CHOICE (logs 97, 116). -/
def Fab.injectNext (f : Fab) : Option Fab :=
  match f.waiting.findSome? f.injectAccess with
  | some g => some g
  | none => f.clusters.findSome? (fun e => match e.2.ops.findSome? (f.injectDrain e.1) with
      | some g => some g
      | none => e.2.streams.findSome? (f.injectStream e.1))

/-- Injections and hops while any is possible, at most `fuel`. -/
def Fab.pumpFuel : Nat → Fab → Fab
  | 0, f => f
  | n + 1, f =>
    match f.injectNext with
    | some g => Fab.pumpFuel n g.hops
    | none => f

/-- THE PORTS AND CROSSINGS RUN: every request that can be injected is, and goes as far as it can (R22, R225, R226, R235).
DESIGN CHOICE (log 97). -/
def Fab.pump (f : Fab) : Fab := Fab.pumpFuel 4096 f.hops

/-! ### The turn of a request -/

/-- THE REQUEST THAT A CHANNEL SERVES NEXT (R236): of the sub-share that owns the slot; of the one it is lent to; with lending off,
of the owner of the next slot whose sub-share has a request. In it the partitions go round, each with its oldest request. -/
def Fab.serves (f : Fab) (ch : Nat) : Option Txn :=
  let q := f.queued ch
  let has := fun (s : SubShare) => q.any (fun x => x.1 == s)
  let c := f.chan ch
  let own := f.slotOwner ch c.slot
  let pick := if has own then some own
    else if f.dget 0x3C20 2 = 1 then c.lent.after.find? has
    else ((f.planOf ch).owners.drop c.slot ++ (f.plan (ch / 32)).owners).find? has
  match pick with
  | some s =>
    ((c.order s).findSome? (fun p => q.find? (fun x => x.1 == s && x.2.tag.partition == p))).map (·.2)
  | none => none

/-- A request stands at its memory and it is its turn: at an Inkwell bank in arrival order (R195), at a channel by R236, at the
host link in order (R227). -/
def Fab.atTurn (f : Fab) (t : Txn) : Bool :=
  t.ahead.isEmpty && !f.stalled t &&
  match t.far with
  | .package =>
    match f.locate none t.addr with
    | .inkwell b o =>
      match f.txns.find? (fun u => u.ahead.isEmpty && !u.heldPage && u.far == .package && !f.stalled u &&
          (match f.locate none u.addr with
            | .inkwell d x => d == b && (inkwellBank x).1 == (inkwellBank o).1
            | _ => false)) with
      | some u => u.id == t.id
      | none => true
    | .lpddr b o => match f.serves (f.channelOf b o) with
      | some u => u.id == t.id
      | none => false
    | _ => true
  | .host => match f.txns.find? (fun u => u.ahead.isEmpty && u.far == .host && u.write.isSome == t.write.isSome) with
    | some u => u.id == t.id
    | none => true
  | .peer _ | .slot _ => true

/-- A transaction is over. -/
def Fab.drop (f : Fab) (t : Txn) : Fab := { f with txns := f.txns.filter (fun u => u.id != t.id) }

/-- A request leaves its queue: its lines draw their slots (R231) and its partition has had its turn (R236), or its queue pair goes
on (R367). -/
def Fab.leaves (f : Fab) (t : Txn) : Fab :=
  let g := f.drop t
  match t.far with
  | .package => t.ranges.foldl (fun x r =>
      x.rangeDone (shareOf t.tag ((f.locate none r.1).die - 16) t.write.isSome) t.tag.partition r.1 r.2 t.write.isSome) g
  | .host | .slot _ => g
  | .peer i => t.ranges.foldl (fun x r => x.qpDone t.tag.partition i r.1 t.write.isSome) g

/-! ### Consumption and acceptance -/

/-- A VOP still needs a unit from the stream of one source. -/
def VSrc.wants (x : VSrc) (q : Nat) (got n : Nat) : Bool :=
  match x with
  | .stream h m => h == q && Nat.blt got (unitsFor m n)
  | _ => false

/-- A VOP takes one unit from handle q. -/
def VopOp.accept (o : VopOp) (q : Nat) (u : StreamUnit) : Option VopOp :=
  if o.src1.wants q o.got1.length o.count then some { o with got1 := o.got1 ++ [u] }
  else if o.src2.wants q o.got2.length o.need2 then some { o with got2 := o.got2 ++ [u] }
  else if o.src3.wants q o.got3.length o.count then some { o with got3 := o.got3 ++ [u] }
  else none

/-- An operation of a cluster with its kind changed. -/
def Cluster.setKind (cl : Cluster) (id : Nat) (kd : OpKind) : Cluster :=
  { cl with ops := updateFirst (fun o => o.id == id) (fun o => { o with kind := kd }) cl.ops }

/-- The running pass ends when its last unit is consumed or accepted: the pending arm takes over, or the stream is Spent
(R222, R224). -/
def Stream.endPass (s : Stream) : Stream :=
  if s.state = .armed ∧ s.cur.isSome ∧ s.curEnd ≤ s.head then
    match s.pendingArm with
    | some (b, e) => { s with cur := some ⟨b, s.head⟩, pendingArm := none, epc := e, retired := 0 }
    | none => { s with cur := none, state := .spent, retired := 0 }
  else s

/-- A segment retires: its counter is signalled if it asks for it (R227, R120). -/
def Fab.segmentSignal (f : Fab) (c : Nat) (s : Stream) (u : StreamUnit) : Fab :=
  if u.ends && u.signal && descField s.desc 53 52 != 3 then
    f.applySignal c (descField s.desc 53 52) (descField s.desc 51 46) (some 1) 0
  else f

/-- The head unit of an in-stream consumed, with the retirement of its segment. -/
def Fab.consume (f : Fab) (c k q : Nat) (s : Stream) (u : StreamUnit) : Fab :=
  (f.onCluster c (fun cl => cl.onStream k q (fun s =>
    ({ s with units := s.units.clear (· == s.head), head := s.head + 1,
              retired := if u.ends then s.retired + 1 else s.retired }).endPass))).segmentSignal c s u

/-- A unit that operation `id` gave accepted by an out-stream (R226). DESIGN CHOICE (log 33). -/
def Fab.acceptUnit (f : Fab) (c k q id : Nat) (u : StreamUnit) : Fab :=
  f.onCluster c (fun cl => cl.onStream k q (fun s =>
    ({ s with units := s.units.set s.head { u with op := id }, head := s.head + 1,
              retired := if u.ends then s.retired + 1 else s.retired }).endPass))

/-- The flags of a word as a raise. -/
def Raise.ofWord (fl : W32) : Raise := ⟨fl.getLsbD 0, fl.getLsbD 1, fl.getLsbD 2⟩

/-- One unit moved between a stream and the operation it serves, if one can move now (R171, R225, R226). -/
def W.moveOne (w : W) (c k q : Nat) : Option W :=
  let cl := w.fab.cluster c
  match cl.stream? k q, cl.server k q with
  | some s, some o =>
    match o.kind with
    | .sin h a st n m =>
      match s.units.find? s.head with
      | some u =>
        let row := a + m * st
        if cl.locked o.id [⟨0, row, 64⟩] then none else
        let w1 := (w.wellPut c row u.bytes).map (fun f => (f.setTag c (row / 64) u.tag).consume c k q s u)
        some (w1.map (fun f => if m + 1 = n then f.finish c o.id
          else f.onCluster c (fun cl => cl.setKind o.id (.sin h a st n (m + 1)))))
      | none => none
    | .vop v =>
      if !cl.sliceHead o.id then none else
      match s.units.find? s.head with
      | some u =>
        match v.accept q u with
        | some v' => some (w.map (fun f => (f.consume c k q s u).onCluster c (fun cl => cl.setKind o.id (.vop v'))))
        | none => none
      | none => none
    | .sout h a st n m =>
      if s.credits = 0 then none else
      let row := a + m * st
      let r := w.fab.wellCode c (rowKeys c [row])
      match r.2, s.placed s.head (w.wellBytes c row 64) (w.fab.tag c (row / 64)) with
      | some pl, _ => some (({ w with fab := r.1.finish c o.id }).memFault c k o.epc pl.addr pl)
      | none, some u => some (({ w with fab := r.1 }).map (fun f =>
          let f1 := f.acceptUnit c k q o.id u
          if m + 1 = n then f1.finish c o.id else f1.onCluster c (fun cl => cl.setKind o.id (.sout h a st n (m + 1)))))
      | none, none => none
    | .vout h us fl =>
      if s.credits = 0 then none else
      match us with
      | x :: r =>
        match s.placed s.head x.bytes x.tag with
        | some u => some (w.map (fun f =>
            let f1 := f.acceptUnit c k q o.id u
            if r.isEmpty then (f1.finish c o.id).raiseFlags c k o.epc (Raise.ofWord fl)
            else f1.onCluster c (fun cl => cl.setKind o.id (.vout h r fl))))
        | none => none
      | [] => none
    | _ => none
  | _, _ => none

/-- Units moved while any can move, at most `fuel`. -/
def W.moves (c k q : Nat) : Nat → W → W
  | 0, w => w
  | n + 1, w =>
    match w.moveOne c k q with
    | some w' => W.moves c k q n (w'.map Fab.pump)
    | none => w

/-- A strand blocked on credits of a handle goes on when they suffice (R156). -/
def Fab.wakeCredits (f : Fab) (c k : Nat) : Fab :=
  match (f.strand c k).waiting with
  | some (.credits q n, _) =>
    if n ≤ (f.cluster c).credits k q then
      f.onStrand c k (fun t => { t.advance with st := if t.st == .blocked then .running else t.st, waiting := none })
    else f
  | _ => f

/-- Everything a handle's stream can move now moves, its port injects what it then can, and a strand blocked on its credits may
wake. -/
def W.progress (w : W) (c k q : Nat) : W := (W.moves c k q 2048 (w.map Fab.pump)).map (fun f => f.wakeCredits c k)

/-- SIN and SOUT operations of a handle end (R163), and a strand blocked on it is released; a VOP of the handle stays in flight.
DESIGN CHOICE (log 115). -/
def Fab.endTransfers (f : Fab) (c k q : Nat) : Fab :=
  let ends := fun (o : Op) => o.strand == k && match o.kind with
    | .sin h _ _ _ _ | .sout h _ _ _ _ => h == q
    | _ => false
  let f1 := (f.onCluster c (fun cl => { cl with ops := cl.ops.filter (fun o => !ends o) })).settle c
  match (f1.strand c k).waiting with
  | some (.credits h _, _) =>
    if h = q then f1.onStrand c k (fun t =>
      { t.advance with st := if t.st == .blocked then .running else t.st, waiting := none })
    else f1
  | _ => f1

/-- A stream meets a fault (R229, R230): STREAM_ERROR with the Feed status, and the cancel. -/
def Fab.streamFault (f : Fab) (c k q : Nat) (status : Nat) : Fab :=
  match (f.cluster c).stream? k q with
  | some s => ((f.cancelStream c k q 1).endTransfers c k q).streamError c k s.epc s.number status
  | none => f

/-- A stream left Spent with no pass armed (R219). -/
def Stream.spend (s : Stream) : Stream := { s with state := .spent, cur := none, retired := 0, fetching := false }

/-- Feed status codes (Table "Feed status"). -/
def feedBadDescriptor : Nat := 0x03
/-- OUT_OF_MAP. -/
def feedOutOfMap : Nat := 0x04
/-- FIREWALL. -/
def feedFirewall : Nat := 0x05
/-- NO_BUFFER. -/
def feedNoBuffer : Nat := 0x06
/-- ALREADY_BOUND. -/
def feedAlreadyBound : Nat := 0x07
/-- NOT_PERSISTENT. -/
def feedNotPersistent : Nat := 0x08
/-- ARM_FULL. -/
def feedArmFull : Nat := 0x09
/-- ENDPOINT_DOWN. -/
def feedEndpointDown : Nat := 0x0A

end Sys2Proof.Machine
end

