-- ==== Sys2Proof/Machine/Vector.lean ====
section
/-! DEFINITION. The vector engine (R154, R155, R169 to R185): the issue of VOP with its checks, of DRAINB (R153), and VOP_COMPLETE with the
functions, the broadcasts and the writing of the result. -/

namespace Sys2Proof.Machine

open Sys2Proof

/-! ### Issue -/

/-- Everything that the operations of a cluster can take from or give to their streams moves, oldest operation first, and strands
blocked on credits that suffice go on. -/
def W.stir (w : W) (c : Nat) : W :=
  let w1 := (w.fab.cluster c).ops.foldl (fun w o => o.kind.handles.foldl (fun w q => w.progress c o.strand q) w) w
  w1.map (fun f => (f.cluster c).strands.foldl (fun g e => g.wakeCredits c e.1) f)

/-- The ports of the package run after something made room: requests are injected, units move, strands wake (R22, R225, R226,
R235). DESIGN CHOICE (log 97). -/
def W.flow (w : W) : W :=
  let w1 := w.map Fab.pump
  w1.fab.clusters.foldl (fun x e => x.stir e.1) w1

/-- An instruction that starts an operation and may move stream units at once. DEDUCED (log 20). -/
def W.issueOp (w : W) (x : Issue) (op : Nat) (busy : List Dest) : W :=
  let g := w.fab.issueOp x op busy
  let w1 := { w with fab := g }
  if (g.cluster x.cluster).nextOp = (w.fab.cluster x.cluster).nextOp then w1 else w1.stir x.cluster

/-- VOP (R154, R178, R182): it issues when the slice's queue has room. -/
def execVop (x : Issue) (s : State) : Host.Outcome State Fault Refusal := onMem s (fun w => w.issueOp x 0x60 [])

/-! ### DRAINB -/

/-- DRAINB (R153): once it has started, its transaction to the Blotter goes out. -/
def execDrainb (x : Issue) (s : State) : Host.Outcome State Fault Refusal := onFab s (fun f => (f.issueOp x 0x54 []).pump)

/-! ### Completion -/

/-- The first n elements of an operand, widened to FP32, with their flags (R82, R170, R171, R174). -/
def vopElements (w : W) (c : Nat) (x : VSrc) (got : List StreamUnit) (n : Nat) : List (W32 × Raise) :=
  match x with
  | .tile a _ _ m =>
    (((List.range (unitsFor m n)).flatMap (fun i =>
      rowNums m (w.wellBytes c (a + 64 * i) 64) (w.fab.tag c (a / 64 + i)) (512 / fmtBits m))).take n).map toFp32
  | .stream _ m => ((got.flatMap (fun u => rowNums m u.bytes u.tag (512 / fmtBits m))).take n).map toFp32
  | .scalar b => [(b, .none)]
  | .unused => []

/-- Elementwise functions of Table "Vector functions" (R173 to R175). -/
def vopFn (fn : Nat) (a b c : W32) : W32 × Raise :=
  match fn with
  | 0x00 => (a, .none)
  | 0x01 => fpAdd a b
  | 0x02 => fpSub a b
  | 0x03 => fpMul a b
  | 0x04 => fpFma a b c
  | 0x05 => fpMax a b
  | 0x06 => fpMin a b
  | 0x10 => fpExp a
  | 0x11 => fpLog a
  | 0x12 => fpRecip a
  | 0x13 => fpRsqrt a
  | 0x14 => fpTanh a
  | _ => fpSigm a

/-- Maximum of a list with its flags (R173, R176). -/
def fpMaxAll : List W32 → W32 × Raise
  | [] => (0, .none)
  | a :: r => r.foldl (fun acc x => let y := fpMax acc.1 x; (y.1, acc.2.or y.2)) (a, .none)

/-- Rows r of a reduction: groups of n_r elements (R173). -/
def rowGroups (n : Nat) (l : List W32) : List (List W32) :=
  (List.range ((l.length + n - 1) / n)).map (fun r => (l.drop (r * n)).take n)

/-- Columns j of a reduction: the elements i with i mod n_r = j (R173). -/
def colGroups (n : Nat) (l : List W32) : List (List W32) :=
  let rows := rowGroups n l
  (List.range (min l.length n)).map (fun j => rows.filterMap (fun r => r[j]?))

/-- Index of the src2 element that element i takes (R177). -/
def bcIndex (bc shape i : Nat) : Nat :=
  match bc with
  | 0 => i
  | 1 => i % shape
  | 2 => i / shape
  | _ => 0

/-- The FP32 results of a VOP and the flags of its widening and its functions (R87, R173 to R177). -/
def VopOp.compute (o : VopOp) (w : W) (c : Nat) : List W32 × Raise :=
  let a := vopElements w c o.src1 o.got1 o.count
  let b := vopElements w c o.src2 o.got2 o.need2
  let d := vopElements w c o.src3 o.got3 o.count
  let seen := (a ++ b ++ d).foldl (fun r e => r.or e.2) .none
  let res :=
    if o.fn = 0x20 then (rowGroups o.shape (a.map (·.1))).map (fun g => exactSum (g.map fp32))
    else if o.fn = 0x21 then (rowGroups o.shape (a.map (·.1))).map fpMaxAll
    else if o.fn = 0x22 then (colGroups o.shape (a.map (·.1))).map (fun g => exactSum (g.map fp32))
    else if o.fn = 0x23 then (colGroups o.shape (a.map (·.1))).map fpMaxAll
    else (List.range o.count).map (fun i =>
      vopFn o.fn (a.getD i (0, .none)).1 (b.getD (bcIndex o.bc o.shape i) (0, .none)).1 (d.getD i (0, .none)).1)
  (res.map (·.1), res.foldl (fun r e => r.or e.2) seen)

/-- Format of an operand. -/
def VSrc.fmt : VSrc → Fmt
  | .tile _ _ _ m | .stream _ m => m
  | _ => .fp32

/-- Units of a destination stream: whole 64-byte units with the tags of their blocks, zero past the last element (R180). -/
def resultUnits (m : Fmt) (bytes : List Byte) (tags : List Nat) : List StreamUnit :=
  (List.range ((bytes.length + 63) / 64)).map (fun u =>
    let row := (bytes.drop (64 * u)).take 64
    let n := blocksPerRow m
    ⟨row ++ List.replicate (64 - row.length) 0, BitVec.ofNat 32 (leNat (((tags.drop (n * u)).take n).map (BitVec.ofNat 8))),
      0, 0, false, false, false, 0⟩)

/-- The flags of a raise as one word. -/
def Raise.word (r : Raise) : W32 := r.bits

/-- Well words that a VOP reads from its tiles. -/
def VopOp.wellKeys (o : VopOp) (c : Nat) : List Nat :=
  let keys := fun (x : VSrc) (n : Nat) => match x with
    | .tile a _ _ m => rowKeys c (tileRows a 64 (unitsFor m n))
    | _ => []
  keys o.src1 o.count ++ keys o.src2 o.need2 ++ keys o.src3 o.count

/-- VOP_COMPLETE (R108, R173, R180 to R182): the VOP that holds the slice, all its units in and its destination not locked,
writes its result and raises its flags; a destination stream takes the units as it has credits. Its tiles meet the Well's
code (R193). While the cluster terminates its streams are cancelled: it finishes, and the units it still gives are discarded (R126,
R185, R240). DEDUCED (log 90). -/
def vopComplete (o : OpRef) (w : W) : W :=
  let c := o.cluster
  let cl := w.fab.cluster c
  match cl.op? o.op with
  | some p =>
    match p.kind with
    | .vop v =>
      if p.held || !cl.sliceHead p.id || !v.ready || cl.locked p.id v.dst.ranges then w else
      w.wellRead c p.strand p.epc o.op (v.wellKeys c) (fun w =>
      let r := v.compute w c
      let row := convertRow v.dst.fmt (r.1.map fp32)
      let fl := r.2.or row.2.2
      match v.dst with
      | .tile a _ _ m =>
        ((w.wellPut c a row.1).map (fun f =>
          ((f.putTags c a m row.2.1).finish c o.op).raiseFlags c p.strand p.epc fl)).stir c
      | .stream h m =>
        if cl.phase != .running then w.map (fun f => (f.finish c o.op).raiseFlags c p.strand p.epc fl) else
        (w.map (fun f => f.onCluster c (fun cl => cl.setKind o.op (.vout h (resultUnits m row.1 row.2.1) fl.word)))).stir c
      | _ => w)
    | .vout _ _ fl =>
      if cl.phase = .running then w else w.map (fun f => (f.finish c o.op).raiseFlags c p.strand p.epc (Raise.ofWord fl))
    | _ => w
  | none => w

/-- VOP_COMPLETE. -/
def execVopComplete (o : OpRef) (s : State) : Host.Outcome State Fault Refusal := 
  onMem s (fun w => w.atCluster o.cluster (vopComplete o))

end Sys2Proof.Machine
end

