-- ==== Sys2Proof/Machine/Streams.lean ====
section
/-! DEFINITION. Stream and memory instructions (R104, R105, R156 to R158, R163, R192, R509) and the events of the Feed port
and of package memory (R30, R33, R187 to R189, R205 to R208, R216 to R230, R240 to R244, R439), with the ends of waits
(R119, R121, R157, R165). -/

namespace Sys2Proof.Machine

open Sys2Proof

/-! ### Handles of stream instructions -/

/-- A stream instruction that works at once: its effect on its stream, with the strand moved on. -/
def W.issueStream (w : W) (x : Issue) (op : Nat) (body : Stream → Nat → W → W) : W :=
  w.issue x op (fun w =>
    match (w.fab.cluster x.cluster).stream? x.strand (fRa x.word) with
    | some s => body s (fRa x.word) (w.map (fun f => f.onStrand x.cluster x.strand Strand.advance))
    | none => w)

/-- A handle of an operand moved out of reach. -/
def VSrc.shift (n q : Nat) : VSrc → VSrc
  | .stream h m => .stream (if h = q then h + n else h) m
  | x => x

/-- An operation issued on a handle keeps its stream when the handle is bound anew or unbound (R162). -/
def OpKind.shift (n q : Nat) : OpKind → OpKind
  | .sin h a s u m => .sin (if h = q then h + n else h) a s u m
  | .sout h a s u m => .sout (if h = q then h + n else h) a s u m
  | .vout h us fl => .vout (if h = q then h + n else h) us fl
  | .vop o => .vop { o with dst := o.dst.shift n q, src1 := o.src1.shift n q, src2 := o.src2.shift n q, src3 := o.src3.shift n q }
  | k => k

/-- Operations of a strand on a handle moved out of reach. -/
def Cluster.shiftOps (cl : Cluster) (k n q : Nat) : Cluster :=
  { cl with ops := cl.ops.map (fun o => if o.strand = k then { o with kind := o.kind.shift n q } else o) }

/-! ### BIND, UNBIND -/

/-- BIND: the handle is pending until BIND_RESOLVED (R104, R156). -/
def execBind (x : Issue) (s : State) : Host.Outcome State Fault Refusal :=
  onFab s (fun f => f.issueOp x 0x70 [.q (fRd x.word)])

/-- Stream n of partition p is bound somewhere in the package (R105). -/
def Fab.streamBound (f : Fab) (p n : Nat) : Bool :=
  f.clusters.any (fun e => f.partitionOf e.1 == p && e.2.streams.any (fun s => Nat.blt s.strand 8 && s.number == n))

/-- Window units and segments of a port in use (R214, R216). -/
def Cluster.portUse (cl : Cluster) : Nat × Nat :=
  (((cl.streams.filter (fun s => Nat.blt s.strand 8 || s.state == .cancelling)).map Stream.window).sum,
   ((cl.streams.filter (fun s => Nat.blt s.strand 8)).map (fun s => descField s.desc 39 32)).sum)

/-- The segment table of a stream lies in the partition's windows (R219). -/
def Fab.tableOk (f : Fab) (p : Nat) (d : BitVec 512) : Bool :=
  f.inWindows p (descField d 255 192) (32 * descField d 39 32)

/-- A stream as BIND leaves it: Armed on the descriptor's base (R222), with a binding number. -/
def Stream.bound (uid k q n : Nat) (epc : BitVec 16) (d : BitVec 512) : Stream :=
  { uid := uid, strand := k, handle := q, number := n, epc := epc, desc := d, segs := none, state := .armed,
    cur := some ⟨descField d 191 128, 0⟩, pendingArm := none, units := [], head := 0, asked := 0, fetching := false, written := 0,
    acked := [], gather := [], lines := [], retired := 0 }

/-- Bindings of a handle moved to the next eight handle numbers: a later BIND of the handle displaces them, and they stay bound
until the launch ends. The spec does not say what becomes of a handle's binding at another BIND. DESIGN CHOICE (log 35). -/
def Cluster.displace (cl : Cluster) (k q : Nat) : Cluster :=
  { cl.shiftOps k 8 q with
    streams := cl.streams.map (fun (t : Stream) =>
      if t.strand = k ∧ t.handle % 8 = q then { t with handle := t.handle + 8 } else t) }

/-- A BIND that fails leaves its handle unbound (R216): STREAM_ERROR with the status. -/
def Fab.bindFails (f : Fab) (c k q n : Nat) (epc : BitVec 16) (status : Nat) : Fab :=
  (f.onCluster c (fun cl => (cl.displace k q).onStrand k (fun t => t.setQ q 0))).streamError c k epc n status

/-- BIND_RESOLVED (R105, R216, R219): ALREADY_BOUND, NO_BUFFER, or the handle is bound; a segment table outside the windows
leaves the stream Spent with OUT_OF_MAP. DESIGN CHOICE (log 35). -/
def bindResolved (o : OpRef) (f : Fab) : Fab :=
  let c := o.cluster
  let cl := f.cluster c
  let p := f.partitionOf c
  match cl.op? o.op with
  | some b =>
    match b.kind with
    | .bind q n =>
      let f0 := (f.onStrand c b.strand (fun t => t.unbusy (.q q))).finish c o.op
      match (f.scope p).live.streams.find? n with
      | none => (f0.onCluster c (fun cl => (cl.displace b.strand q).onStrand b.strand (fun t => t.setQ q 0))).raiseAsync c b.strand
          ⟨.notSetUp, b.epc, BitVec.ofNat 64 n⟩
      | some d =>
        let u := cl.portUse
        if f.streamBound p n then f0.bindFails c b.strand q n b.epc feedAlreadyBound
        else if 1024 < u.1 + descField d 31 16 ∨ 2048 < u.2 + descField d 39 32 then
          f0.bindFails c b.strand q n b.epc feedNoBuffer
        else
          let s := Stream.bound cl.nextStream b.strand q n b.epc d
          let f1 := f0.onCluster c (fun cl =>
            let cl1 := cl.displace b.strand q
            { cl1 with
              streams := cl1.streams ++ [if f.tableOk p d then s else s.spend],
              nextStream := cl.nextStream + 1 }.onStrand b.strand (fun t => t.setQ q (boundHandle s.out n)))
          if f.tableOk p d then f1.pump else f1.streamError c b.strand b.epc n feedOutOfMap
    | _ => f
  | none => f

/-- BIND_RESOLVED. -/
def execBindResolved (o : OpRef) (s : State) : Host.Outcome State Fault Refusal :=
  onFab s (fun f => f.atCluster o.cluster (bindResolved o))

/-- A stream that a cancel leaves nothing to wait for. -/
def Stream.quiet (s : Stream) : Bool := s.state == .spent && (!s.out || Nat.ble s.head s.written)

/-- The binding of a stream ends (R105, R222, R240): what is left of a cancelled stream keeps its window until it returns,
under strand number 8 + k, with no binding and no pending arm. DESIGN CHOICE (log 35). -/
def Fab.endBinding (f : Fab) (c k q : Nat) : Fab :=
  let f1 := f.cancelStream c k q
  f1.onCluster c (fun cl => { (cl.shiftOps k 64 q) with
    streams := (cl.streams.map (fun s => if s.strand = k ∧ s.handle = q then
      { s with strand := 8 + k, pendingArm := none } else s)).filter (fun s => Nat.blt s.strand 8 || !s.quiet) })

/-- UNBIND: not ready until every SIN and SOUT on the handle has completed (R156, R222). DESIGN CHOICE (log 35). -/
def execUnbind (x : Issue) (s : State) : Host.Outcome State Fault Refusal :=
  onMem s (fun w => w.issueStream x 0x71 (fun _ q w => w.map (fun f =>
    (f.endBinding x.cluster x.strand q).onStrand x.cluster x.strand (fun t => t.setQ q 0))))

/-! ### SIN, SOUT, SWAIT, SARM, SCANCEL, SCRED -/

/-- SIN: moves units of an in-stream into rows of a tile (R156, R226). -/
def execSin (x : Issue) (s : State) : Host.Outcome State Fault Refusal := onMem s (fun w => w.issueOp x 0x72 [])

/-- SOUT: moves rows of a tile into an out-stream (R156, R226). -/
def execSout (x : Issue) (s : State) : Host.Outcome State Fault Refusal := onMem s (fun w => w.issueOp x 0x73 [])

/-- SWAIT: Blocked until the credits reach sb[15:0] (R156). -/
def swait (x : Issue) (f : Fab) : Fab :=
  f.issue x 0x74 (fun f =>
    let cl := f.cluster x.cluster
    let n := bitsOf ((cl.strand x.strand).sreg (fRb x.word)).toNat 15 0
    f.onStrand x.cluster x.strand (fun t =>
      if n ≤ cl.credits x.strand (fRa x.word) then t.advance
      else { t with st := if t.st == .running then .blocked else t.st, waiting := some (.credits (fRa x.word) n, f.cycle) }))

/-- SWAIT. -/
def execSwait (x : Issue) (s : State) : Host.Outcome State Fault Refusal := onFab s (swait x)

/-- A pass of a stream may run on a base, as far as the fetched batch tells (R219, R223). -/
def Fab.passOk (f : Fab) (p : Nat) (s : Stream) (base : Nat) : Bool :=
  if s.segs.isSome then f.armOk p s base else f.tableOk p s.desc

/-- SARM on a bound stream (R223, R224). -/
def Fab.arm (f : Fab) (c k q : Nat) (s : Stream) (base : Nat) (epc : BitVec 16) : Fab :=
  let p := f.partitionOf c
  if descField s.desc 62 62 = 0 then f.streamError c k epc s.number feedNotPersistent
  else if s.pendingArm.isSome then f.streamError c k epc s.number feedArmFull
  else if !f.passOk p s base then f.streamError c k epc s.number feedOutOfMap
  else f.onCluster c (fun cl => cl.onStream k q (fun s =>
    match s.state with
    | .spent => { s with state := .armed, cur := some ⟨base, s.head⟩, epc := epc, retired := 0 }
    | _ => { s with pendingArm := some (base, epc) }))

/-- SARM. -/
def execSarm (x : Issue) (s : State) : Host.Outcome State Fault Refusal :=
  onMem s (fun w => w.issueStream x 0x75 (fun s q w =>
    let t := w.fab.strand x.cluster x.strand
    (w.map (fun f => f.arm x.cluster x.strand q s (t.areg (fRb x.word)).toNat (t.pc - 1))).progress x.cluster x.strand q))

/-- SCANCEL (R163, R240). -/
def execScancel (x : Issue) (s : State) : Host.Outcome State Fault Refusal :=
  onMem s (fun w => w.issueStream x 0x76 (fun _ q w =>
    w.map (fun f => (f.cancelStream x.cluster x.strand q).endTransfers x.cluster x.strand q)))

/-- SCRED: sd := credits (R104, R225). -/
def execScred (x : Issue) (s : State) : Host.Outcome State Fault Refusal :=
  onMem s (fun w => w.issueStream x 0x77 (fun s _ w =>
    w.map (fun f => f.onStrand x.cluster x.strand (fun t => t.setS (fRd x.word) (BitVec.ofNat 64 s.credits)))))

/-! ### LD and ST -/

/-- A loaded value as the destination register holds it. -/
def extendLoad (v size : Nat) (signed : Bool) : Word :=
  if signed then BitVec.ofInt 64 (signedOf (8 * size) v) else BitVec.ofNat 64 v

/-- An LD or ST given to its port, which injects it as soon as it can (R33, R192, R235). DESIGN CHOICE (logs 22, 97). -/
def Fab.toPort (f : Fab) (x : Issue) (kind : OpKind) (a len : Nat) (write : Option (List Byte)) (busy : List Dest) : Fab :=
  let c := x.cluster
  let id := (f.cluster c).nextOp
  let g := f.onCluster c (fun cl => (cl.start x.strand (cl.strand x.strand).pc kind f (isBroad c)).onStrand x.strand (fun t =>
    { t.advance with busy := t.busy ++ busy }))
  ({ g with waiting := g.waiting ++ [⟨c, id, a, len, write⟩] } : Fab).pump

/-- LD (R156, R158, R188, R193): from a Well at once, elsewhere by a transaction. DEDUCED (log 31). -/
def load (x : Issue) (w : W) : W :=
  w.issue x 0x78 (fun w =>
    let c := x.cluster
    let t := w.fab.strand c x.strand
    let z := accessSize (fFn x.word)
    match w.fab.locate (some c) (accessAddr x.word t).toNat with
    | .well d off =>
      let r := w.fab.wellCode d (wordKeys d off z.1)
      match r.2 with
      | some pl => ({ w with fab := r.1.onStrand c x.strand Strand.advance }).memFault c x.strand t.pc pl.addr pl
      | none => { w with fab := r.1.onStrand c x.strand (fun t =>
          (t.setS (fRd x.word) (extendLoad (leNat (w.wellBytes d off z.1)) z.1 z.2)).advance) }
    | pl => w.map (fun f => f.toPort x (.load (fRd x.word) pl.addr z.1 z.2) pl.addr z.1 none [.s (fRd x.word)]))

/-- LD. -/
def execLd (x : Issue) (s : State) : Host.Outcome State Fault Refusal := onMem s (load x)

/-- ST (R48, R156, R158, R188): the own Well is written at once, or when a lock ends; other places by a transaction.
DEDUCED (log 31). -/
def store (x : Issue) (w : W) : W :=
  w.issue x 0x79 (fun w =>
    let c := x.cluster
    let cl := w.fab.cluster c
    let t := cl.strand x.strand
    let n := (accessSize (fFn x.word)).1
    let v := (t.sreg (fRb x.word)).toNat % 2 ^ (8 * n)
    match w.fab.locate (some c) (accessAddr x.word t).toNat with
    | .well _ off =>
      if cl.locked cl.nextOp [⟨0, off, n⟩] then
        w.map (fun f => f.onCluster c (fun cl =>
          (cl.start x.strand t.pc (.store off n v) f (isBroad c)).onStrand x.strand Strand.advance))
      else (w.wellPut c off (leBytes n v)).map (fun f => f.onStrand c x.strand Strand.advance)
    | pl => w.map (fun f => f.toPort x (.store pl.addr n v) pl.addr n (some (leBytes n v)) []))

/-- ST. -/
def execSt (x : Issue) (s : State) : Host.Outcome State Fault Refusal := onMem s (store x)

/-! ### Statuses of transactions -/

/-- A transaction in flight. -/
def Fab.txn? (f : Fab) (id : Nat) : Option Txn := f.txns.find? (fun t => t.id == id)

/-- An LD or ST learns a status in place of its data (R30, R33, R189). DESIGN CHOICE (log 22). -/
def Fab.accessRefused (f : Fab) (t : Txn) (x : Answer) : Fab :=
  match f.txnOp t.origin with
  | some (c, o) =>
    let g := f.dropOp c o
    match x with
    | .noRoute => g.raiseAsync c o.strand (noRouteExc o.epc t.tag)
    | .firewall _ => g.streamError c o.strand o.epc 0 feedFirewall
    | .badTag => g.streamError c o.strand o.epc 0 Config.badTagStatus
    | .ok => g
  | none => f

/-- A stream's fault, unless a cancel has already ended its pass (R229, R230). -/
def Fab.uidFault (f : Fab) (c uid status : Nat) : Fab :=
  match (f.cluster c).uid? uid with
  | some s => if s.state == .cancelling || Nat.ble 8 s.strand then f else f.streamFault c s.strand s.handle status
  | none => f

/-- A stream whose segment batch cannot be used is left Spent with no pass armed (R219). -/
def Fab.batchFails (f : Fab) (c uid status : Nat) : Fab :=
  match (f.cluster c).uid? uid with
  | some s => (f.onUid c uid (fun s => { s.spend with pendingArm := none })).streamError c (s.strand % 8) s.epc s.number status
  | none => f

/-- An exception of the strand that a stream's transaction belongs to. -/
def Fab.uidRaise (f : Fab) (c uid : Nat) (cause : Cause) (t : Tag) : Fab :=
  match (f.cluster c).uid? uid with
  | some s => f.raiseAsync c (s.strand % 8) ⟨cause, s.epc, BitVec.ofNat 64 (tagBits t)⟩
  | none => f

/-- A stream's transaction learns a status in place of its data: NO_ROUTE raises its exception, FIREWALL cancels the stream, or
leaves it Spent where it met the batch (R189, R219, R229, R230). DESIGN CHOICE (log 22). -/
def Fab.streamRefused (f : Fab) (t : Txn) (x : Answer) : Fab :=
  match t.origin, x with
  | .batch c u, .firewall _ => f.batchFails c u feedFirewall
  | .batch c u, .badTag => f.batchFails c u Config.badTagStatus
  | .units c u _ _, .firewall _ | .out c u _ _, .firewall _ | .scale c u _, .firewall _ => f.uidFault c u feedFirewall
  | .units c u _ _, .badTag | .out c u _ _, .badTag | .scale c u _, .badTag => f.uidFault c u Config.badTagStatus
  | .batch c u, .noRoute | .units c u _ _, .noRoute | .out c u _ _, .noRoute | .scale c u _, .noRoute => f.uidRaise c u .noRoute t.tag
  | _, _ => f

/-- A transaction refused at its memory: it is gone, with its event, and its source learns the status (R30, R33, R189). -/
def Fab.refuse (f : Fab) (t : Txn) (x : Answer) : Fab :=
  let g := (f.refusedEvent x t.tag).drop t
  match t.origin with
  | .op _ _ => g.accessRefused t x
  | .void _ => g.dadd 0x3C32 1 1
  | _ => g.streamRefused t x

/-- A transaction is over, and so is its request at a queue pair. -/
def Fab.gone (f : Fab) (t : Txn) : Fab :=
  match t.far with
  | .peer i => t.ranges.foldl (fun g r => g.qpDone t.tag.partition i r.1 t.write.isSome) (f.drop t)
  | _ => f.drop t

/-- A transaction that the host link or a peer reports as failed (R229, R230, R242, R244): a void one is gone; another faults its
stream with ENDPOINT_DOWN. -/
def Fab.fails (f : Fab) (t : Txn) : Fab :=
  match t.origin with
  | .units c u _ _ | .out c u _ _ | .scale c u _ => (f.gone t).uidFault c u feedEndpointDown
  | .op _ _ | .batch _ _ => f
  | .void _ => f.gone t

/-! ### Package transactions of LD and ST -/

/-- A running checkpoint has not yet read the page of an address (R439). -/
def Fab.pageHeld (f : Fab) (p a : Nat) : Bool :=
  match (f.noivosOf p).running with
  | some c => c.pages.contains (a / 65536) && !c.read.contains (a / 65536)
  | none => false

/-- A read that nobody waits for any more: its errors end no context (R207). -/
def Fab.readLost (f : Fab) (t : Txn) (ecc : Ecc) : Fab :=
  if t.far = .package then
    (t.ranges.flatMap (fun r => linesOf r.1 r.2)).foldl (fun g l =>
      g.readQuietly (some t.tag.partition) l (if l = t.addr / 64 then ecc else .clean)) f
  else f

/-- A load's data arrives (R205, R206, R207): its register is written, or the error ends the context; an answer nobody waits
for is dropped. -/
def accessRead (t : Txn) (ecc : Ecc) (w : W) : W :=
  match w.fab.txnOp t.origin with
  | some (c, o) =>
    let r := w.fab.readCode t.tag.partition t.addr ecc t.ranges
    match r.2, o.kind with
    | some a, _ => ({ w with fab := r.1.dropOp c o }).memFault c o.strand o.epc a (r.1.locate none a)
    | none, .load rd _ size sg =>
      let v := extendLoad (w.loadNat t.tag.partition t.addr size) size sg
      { w with fab := (r.1.onStrand c o.strand (fun s => (s.setS rd v).unbusy (.s rd))).finish c o.id }
    | none, _ => { w with fab := r.1 }
  | none => w.map (fun f => f.readLost t ecc)

/-- Bytes of a transaction written (R200, R205, R207, R208): a part-line write reads its line first. -/
def W.written (w : W) (t : Txn) (bytes : List Byte) (ecc : Ecc) : W :=
  let part := bytes.length % 64 ≠ 0 ∨ t.addr % 64 ≠ 0
  (if part then w.map (fun f => f.upset (t.addr / 64) ecc) else w).store t.tag.partition t.addr bytes

/-- A transaction of an LD or ST checked and served (R30, R33, R187, R189). -/
def serve (t : Txn) (ecc : Ecc) (w : W) : W :=
  match w.fab.answer t.tag t.ranges with
  | .ok =>
    let w1 := w.map (fun f => f.leaves t)
    match t.write with
    | some bytes => (w1.written t bytes ecc).map (fun f => match f.txnOp t.origin with
        | some (c, o) => f.dropOp c o
        | none => f)
    | none => accessRead t ecc w1
  | x => w.map (fun f => f.refuse t x)

/-- A write to a page that a running checkpoint has still to read is held (R439); another transaction whose turn it is, is served,
and the ports go on. -/
def W.turn (w : W) (t : Txn) (body : W → W) : W :=
  if t.heldPage || !w.fab.atTurn t then w
  else if t.write.isSome && t.far == .package && w.fab.pageHeld t.tag.partition t.addr then
    (w.map (fun f => { f with txns := updateFirst (fun u => u.id == t.id) (fun u => { u with heldPage := true }) f.txns })).flow
  else ((body w).flow).map (fun f => f.ends t.origin.cluster)

/-- MEMORY_TRANSACTION (R189, R195, R236): an LD or ST at its turn. A DRAINB's goes to its slot (R153). -/
def memoryTransaction (id : Nat) (ecc : Ecc) (w : W) : W :=
  match w.fab.txn? id with
  | some t => match t.origin, t.far with
    | .op _ _, .slot _ => w
    | .op _ _, _ => w.turn t (serve t ecc)
    | _, _ => w
  | none => w

/-- MEMORY_TRANSACTION. -/
def execMemoryTransaction (id : Nat) (ecc : Ecc) (s : State) : Host.Outcome State Fault Refusal :=
  onMem s (memoryTransaction id ecc)

/-! ### Events of a stream -/

/-- The pass on a base was refused: the next pending arm is taken, or the stream is Spent (R223). -/
def Stream.refusePass (s : Stream) : Stream :=
  match s.pendingArm with
  | some (b, e) => { s with cur := some ⟨b, s.head⟩, pendingArm := none, epc := e, retired := 0 }
  | none => s.spend

/-- The pending pass of a stream checked once its batch is known: a bad one is dropped (R223). -/
def Fab.checkPending (f : Fab) (c k q : Nat) (s : Stream) : Fab :=
  match s.pendingArm with
  | some (b, e) =>
    if f.armOk (f.partitionOf c) s b then f
    else (f.onCluster c (fun cl => cl.onStream k q (fun s => { s with pendingArm := none }))).streamError c k e s.number feedOutOfMap
  | none => f

/-- Passes of a stream checked once its batch is known, the running one and then the pending one (R223). -/
def Fab.checkPasses (f : Fab) (c k q : Nat) : Nat → Fab
  | 0 => f
  | n + 1 =>
    match (f.cluster c).stream? k q with
    | some s =>
      match s.cur with
      | some b =>
        if f.armOk (f.partitionOf c) s b.base then f.checkPending c k q s
        else Fab.checkPasses ((f.onCluster c (fun cl => cl.onStream k q Stream.refusePass)).streamError c k s.epc s.number
          feedOutOfMap) c k q n
      | none => f
    | none => f

/-- The transaction of a stream that satisfies a condition. -/
def Fab.streamTxn (f : Fab) (r : StreamRef) (q : Nat → TxnFor → Bool) : Option (Stream × Txn) :=
  match (f.cluster r.cluster).stream? r.strand r.handle with
  | some s => (f.txns.find? (fun t => t.origin.cluster == r.cluster && q s.uid t.origin)).map (fun t => (s, t))
  | none => none

/-- The batch of segment descriptors arrives (R206, R218, R219, R223). -/
def takeBatch (c : Nat) (s : Stream) (t : Txn) (ecc : Ecc) (w : W) : W :=
  match w.fab.answer t.tag t.ranges with
  | .ok =>
    let p := t.tag.partition
    let r := (w.fab.leaves t).readCode p t.addr ecc t.ranges
    let w1 := { w with fab := r.1 }
    match r.2 with
    | some a => w1.memFault c (s.strand % 8) s.epc a (r.1.locate none a)
    | none =>
      let segs := (List.range (t.len / 32)).map (fun i => BitVec.ofNat 256 (w.loadNat p (t.addr + 32 * i) 32))
      if segs.all (segOk s.fmt s.out) then
        w1.map (fun f => (f.onUid c s.uid (fun s => { s with segs := some segs, fetching := false })).checkPasses c s.strand s.handle 2)
      else w1.map (fun f => f.batchFails c s.uid feedBadDescriptor)
  | x => w.map (fun f => f.refuse t x)

/-- SEGMENT_BATCH_FETCHED. -/
def segmentBatch (r : StreamRef) (ecc : Ecc) (w : W) : W :=
  match w.fab.streamTxn r (fun u x => match x with | .batch _ v => v == u | _ => false) with
  | some (s, t) => w.turn t (takeBatch r.cluster s t ecc)
  | none => w

/-- SEGMENT_BATCH_FETCHED. -/
def execSegmentBatchFetched (r : StreamRef) (ecc : Ecc) (s : State) : Host.Outcome State Fault Refusal :=
  onMem s (segmentBatch r ecc)

/-- FP6 elements unpacked from 48 memory bytes to 64 Well bytes (R77, R221). -/
def unpackFp6 (l : List Byte) : List Byte :=
  (List.range 64).map (fun i => BitVec.ofNat 8 (leNat ((l.drop (i / 4 * 3)).take 3) / 2 ^ (6 * (i % 4)) % 64))

/-- Well bytes of a unit from its memory bytes (R221). -/
def fromMemory (m : Fmt) (l : List Byte) : List Byte := if fmtFp6 m then unpackFp6 l else l

/-- A unit put into the stream buffer (R225): its element bytes in memory's form, and its scale bytes. -/
def Fab.landUnit (f : Fab) (c uid u : Nat) (bytes scales : List Byte) : Fab :=
  f.onUid c uid (fun s => match s.placed u (fromMemory s.fmt bytes) (BitVec.ofNat 32 (leNat scales)) with
    | some x => { s with units := s.units.set u x }
    | none => s)

/-- The units of a host's or a peer's response: for each its element bytes and then its scale bytes (R228). -/
def Fab.landRemote (f : Fab) (c : Nat) (s : Stream) (first n : Nat) (remote : List Byte) : Fab :=
  let b := unitBytes s.fmt
  let k := unitScales s.fmt
  (List.range n).foldl (fun g i =>
    let l := (remote.drop (i * (b + k))).take (b + k)
    let l := l ++ List.replicate (b + k - l.length) 0
    g.landUnit c s.uid (first + i) (l.take b) (l.drop b)) f

/-- The units of a response reach the stream buffer (R189, R205, R206, R220, R221, R225, R228): `remote` is what a host or a peer
sends. -/
def takeUnits (c : Nat) (s : Stream) (t : Txn) (first n : Nat) (remote : List Byte) (ecc : Ecc) (w : W) : W :=
  if t.far = .package then
    match w.fab.answer t.tag t.ranges with
    | .ok =>
      let p := t.tag.partition
      let r := (w.fab.leaves t).readCode p t.addr ecc t.ranges
      match r.2 with
      | some a => ({ w with fab := r.1 }).memFault c (s.strand % 8) s.epc a (r.1.locate none a)
      | none => { w with fab := r.1.landUnit c s.uid first (w.loads p t.addr t.len) (t.more.flatMap (fun m => w.loads p m.1 m.2)) }
    | x => w.map (fun f => f.refuse t x)
  else w.map (fun f => (f.leaves t).landRemote c s first n remote)

/-- STREAM_UNIT_LANDS: the response to the request that begins with a unit. -/
def unitLands (r : StreamRef) (u : Nat) (remote : List Byte) (ecc : Ecc) (w : W) : W :=
  match w.fab.streamTxn r (fun v x => match x with | .units _ uid first _ => uid == v && first == u | _ => false) with
  | some (s, t) => match t.origin with
    | .units c _ first n => w.turn t (takeUnits c s t first n remote ecc)
    | _ => w
  | none => w

/-- STREAM_UNIT_LANDS. -/
def execStreamUnitLands (r : StreamRef) (unit : Nat) (remote : List Byte) (ecc : Ecc) (s : State) :
    Host.Outcome State Fault Refusal := onMem s (unitLands r unit remote ecc)

/-- Scale bytes that a unit completed are still on their way. -/
def Fab.scalesOut (f : Fab) (c : Nat) (s : Stream) : Bool :=
  s.lines.any (fun l => l.1 == s.written) ||
  f.txns.any (fun t => match t.origin with | .scale d u n => d == c && u == s.uid && n == s.written | _ => false)

/-- Units of an out-stream whose element and scale writes are all accepted leave, in order, and a segment that one ends retires
(R227); a cancelled stream's segments give no signal (R240). At most `fuel` units. -/
def Fab.retireOut (c uid : Nat) : Nat → Fab → Fab
  | 0, f => f
  | n + 1, f =>
    match (f.cluster c).uid? uid with
    | some s =>
      if s.acked.contains s.written && !f.scalesOut c s then
        let g := f.onUid c uid (fun s =>
          { s with units := s.units.clear (· == s.written), acked := s.acked.filter (· != s.written), written := s.written + 1 })
        match s.units.find? s.written with
        | some u => Fab.retireOut c uid n (if s.state = .cancelling then g else g.segmentSignal c s u)
        | none => g
      else f
    | none => f

/-- What was left of an ended binding is gone once its window has returned and its writes are done (R240). -/
def Fab.dropQuiet (f : Fab) (c : Nat) : Fab :=
  f.onCluster c (fun cl => { cl with streams := cl.streams.filter (fun s => Nat.blt s.strand 8 || !s.quiet) })

/-- A write of an out-stream has been accepted at its destination (R227). -/
def Fab.outAccepted (f : Fab) (t : Txn) : Fab :=
  match t.origin with
  | .out c u first n =>
    let g := f.onUid c u (fun s => { s with acked := s.acked ++ (List.range n).map (· + first) })
    ((Fab.retireOut c u 1024 g).dropQuiet c).settle c
  | .scale c u _ => ((Fab.retireOut c u 1024 f).dropQuiet c).settle c
  | _ => f

/-- STALE_ROUTE: a transaction that the drain limit ends is counted, and its source takes the exception (R28, R229). An
out-stream's write is over, and a segment that ends with it gives no signal. DESIGN CHOICE (log 54). -/
def Fab.stale (f : Fab) (t : Txn) : Fab :=
  let g := ((f.drop t).dadd 0x1010 4 1).raise (srcBase ((dieBase t.tag.sourceDie).getD 0) 0) 0x0207 (some t.tag.partition) 1
    (tagBits t.tag)
  match t.origin with
  | .op _ _ => match g.txnOp t.origin with
    | some (c, o) => (g.dropOp c o).raiseAsync c o.strand ⟨.staleRoute, o.epc, BitVec.ofNat 64 (tagBits t.tag)⟩
    | none => g
  | .batch c u | .units c u _ _ => g.uidRaise c u .staleRoute t.tag
  | .out c u first n => ((g.onUid c u (fun s => { s with
      units := s.units.map (fun e => if first ≤ e.1 ∧ e.1 < first + n then (e.1, { e.2 with signal := false }) else e) })).outAccepted
        t).uidRaise c u .staleRoute t.tag
  | .scale c u _ => (g.outAccepted t).uidRaise c u .staleRoute t.tag
  | .void _ => g

/-- A write of an out-stream reaches its destination (R189, R207, R221, R227); to a host or a peer this is its acknowledgement. -/
def takeOut (t : Txn) (ecc : Ecc) (w : W) : W :=
  match t.far, w.fab.answer t.tag t.ranges with
  | .package, .ok => (match t.write with
      | some bytes => (w.map (fun f => f.leaves t)).written t bytes ecc
      | none => w).map (fun f => f.outAccepted t)
  | .package, x => w.map (fun f => f.refuse t x)
  | _, _ => w.map (fun f => (f.leaves t).outAccepted t)

/-- The write of an out-stream with a number. -/
def Fab.outTxn (f : Fab) (r : StreamRef) (id : Nat) : Option Txn :=
  match f.txn? id, (f.cluster r.cluster).stream? r.strand r.handle with
  | some t, some s => match t.origin with
    | .out c u _ _ | .scale c u _ => if c = r.cluster ∧ u = s.uid then some t else none
    | _ => none
  | _, _ => none

/-- OUT_WRITE_ACCEPTED. DESIGN CHOICE (log 33). -/
def outWritten (r : StreamRef) (id : Nat) (ecc : Ecc) (w : W) : W :=
  match w.fab.outTxn r id with
  | some t => w.turn t (takeOut t ecc)
  | none => w

/-- OUT_WRITE_ACCEPTED. -/
def execOutWriteAccepted (r : OutWrite) (s : State) : Host.Outcome State Fault Refusal :=
  onMem s (outWritten r.stream r.id r.ecc)

/-- HELD_PAGE_WRITE_RELEASE: the page is read into the buffer and the held write proceeds (R439). -/
def heldRelease (id : Nat) (w : W) : W :=
  match w.fab.txn? id with
  | some t =>
    if t.heldPage then
      let w1 := w.readPage t.tag.partition (t.addr / 65536)
      ((match t.origin with
        | .op _ _ => serve t .clean w1
        | _ => takeOut t .clean w1).flow).map (fun f => f.ends t.origin.cluster)
    else w
  | none => w

/-- HELD_PAGE_WRITE_RELEASE. -/
def execHeldPageWriteRelease (id : Nat) (s : State) : Host.Outcome State Fault Refusal := onMem s (heldRelease id)

/-- STREAM_WINDOW_RETURN (R240): a cancelled stream becomes Spent, or Armed on its pending arm, and its window is free; writes that it
had injected go on to their destinations. What was left of an ended binding is gone with the last of them. -/
def windowReturn (r : StreamRef) (f : Fab) : Fab :=
  let c := r.cluster
  match (f.cluster c).stream? r.strand r.handle with
  | some s =>
    if s.state != .cancelling then f
    else (f.onUid c s.uid (fun s => match s.pendingArm with
      | some (b, e) => { s with state := .armed, cur := some ⟨b, s.head⟩, pendingArm := none, epc := e, retired := 0 }
      | none => s.spend)).dropQuiet c
  | none => f

/-- STREAM_WINDOW_RETURN. -/
def execStreamWindowReturn (r : StreamRef) (s : State) : Host.Outcome State Fault Refusal :=
  onMem s (fun w => w.atCluster r.cluster (fun w => (w.map (windowReturn r)).progress r.cluster r.strand r.handle))

/-- VOID_RESPONSE_DROP (R207, R242): the response is counted in Late responses dropped, and its number is free. -/
def voidResponse (c id : Nat) (ecc : Ecc) (w : W) : W :=
  match w.fab.txn? id with
  | some t =>
    if t.origin = .void c then
      w.turn t (fun w => match w.fab.answer t.tag t.ranges, t.far with
        | .ok, _ | _, .host | _, .peer _ => w.map (fun f => ((f.leaves t).readLost t ecc).dadd 0x3C32 1 1)
        | x, _ => w.map (fun f => f.refuse t x))
    else w
  | none => w

/-- VOID_RESPONSE_DROP. -/
def execVoidResponseDrop (c : VoidResponse) (s : State) : Host.Outcome State Fault Refusal :=
  onMem s (voidResponse c.cluster c.id c.ecc)

/-- ENDPOINT_DOWN (R229, R230, R242): a host or a peer reports a failed request of a cluster's port. -/
def endpointDown (r : StreamRef) (id : Nat) (w : W) : W :=
  match w.fab.txn? id with
  | some t =>
    if t.far ≠ .package ∧ t.origin.cluster = r.cluster ∧ t.ahead.isEmpty ∧ !w.fab.stalled t then
      ((w.map (fun f => f.fails t)).flow).map (fun f => f.ends r.cluster)
    else w
  | none => w

/-- ENDPOINT_DOWN. -/
def execEndpointDown (r : StreamTxn) (s : State) : Host.Outcome State Fault Refusal := onMem s (endpointDown r.stream r.id)

/-! ### Holds and waits -/

/-- OPERATION_HOLD_RELEASE: a held operation starts, or a transfer whose Well row was locked goes on (R48, R52, R53, R113,
R185). -/
def execOperationHoldRelease (o : OpRef) (s : State) : Host.Outcome State Fault Refusal :=
  onMem s (fun w => w.atCluster o.cluster (fun w => ((holdRelease o w).map Fab.pump).stir o.cluster))

/-- COUNTER_WAKE: a counter meets the target of a blocked WAIT (R118, R119). DESIGN CHOICE (log 11). -/
def counterWake (c k : Nat) (f : Fab) : Fab :=
  match (f.strand c k).waiting with
  | some (.counter sc i t, _) =>
    if counterMet (f.counter c sc i) t then
      f.onStrand c k (fun s => { s.advance with st := if s.st == .blocked then .running else s.st, waiting := none })
    else f
  | _ => f

/-- COUNTER_WAKE. -/
def execCounterWake (c k : Nat) (s : State) : Host.Outcome State Fault Refusal := onFab s (fun f => f.atCluster c (counterWake c k))

/-- EINFO of WAIT_TIMEOUT (R124). -/
def timeoutInfo : WaitFor → Nat
  | .counter sc i t => t.toNat * 2 ^ 32 + sc * 256 + i
  | .credits q n => n * 2 ^ 32 + 2 ^ 15 + q

/-- WAIT_TIMEOUT: a strand blocked for WAITLIMIT cycles takes it; 0 means no limit (R121). DESIGN CHOICE (log 11). -/
def waitTimeout (c k : Nat) (f : Fab) : Fab :=
  let t := f.strand c k
  match t.waiting with
  | some (wt, _) =>
    if t.waitLimit = 0 then f
    else (f.onStrand c k (fun t => { t with waiting := none })).take c k ⟨.waitTimeout, t.pc, BitVec.ofNat 64 (timeoutInfo wt)⟩
  | none => f

/-- WAIT_TIMEOUT. -/
def execWaitTimeout (c k : Nat) (s : State) : Host.Outcome State Fault Refusal := onFab s (fun f => f.atCluster c (waitTimeout c k))

/-- TRANSFER_WAIT_TIMEOUT: a SIN, SOUT or VOP past WAITLIMIT raises WAIT_TIMEOUT once and continues (R157, R183). EINFO[2:0] has room
for one handle: of a VOP with several stream operands it names the first, in the order destination, src1, src2, src3, and of one with
none it is 0. DESIGN CHOICE (logs 98, 115). -/
def transferTimeout (o : OpRef) (f : Fab) : Fab :=
  let c := o.cluster
  match (f.cluster c).op? o.op with
  | some p =>
    let moves := match p.kind with
      | .sin _ _ _ _ _ | .sout _ _ _ _ _ | .vop _ | .vout _ _ _ => true
      | _ => false
    if !moves || p.late || (f.strand c p.strand).waitLimit = 0 then f
    else
      let h := match p.kind.handles with
        | q :: _ => 2 ^ 15 + q % 8
        | [] => 0
      (f.onCluster c (fun cl => { cl with ops := updateFirst (fun q => q.id == p.id) (fun q => { q with late := true }) cl.ops })).raiseAsync
        c p.strand ⟨.waitTimeout, p.epc, BitVec.ofNat 64 h⟩
  | none => f

/-- TRANSFER_WAIT_TIMEOUT. -/
def execTransferWaitTimeout (o : OpRef) (s : State) : Host.Outcome State Fault Refusal := onFab s (fun f => f.atCluster o.cluster (transferTimeout o))

/-- ASYNC_EXCEPTION_TAKEN: the oldest pending asynchronous exception of a strand that is ready again (R165). -/
def asyncTaken (c k : Nat) (f : Fab) : Fab :=
  let t := f.strand c k
  match t.st, t.async with
  | .running, x :: r | .trapped, x :: r | .ended, x :: r =>
    (f.onStrand c k (fun t => { t with async := r })).take c k x
  | _, _ => f

/-- ASYNC_EXCEPTION_TAKEN. -/
def execAsyncExceptionTaken (c k : Nat) (s : State) : Host.Outcome State Fault Refusal := onFab s (fun f => f.atCluster c (asyncTaken c k))

end Sys2Proof.Machine
end

