-- ==== Sys2Proof/Machine/Kolas.lean ====
section
/-! DEFINITION. Kolas collectives: COLL and its claim (R159, R160, R285, R307 to R310), the reduction of blocks (R311 to R323),
bytes of gathers, broadcasts and exchanges (R306, R324), cut and repair (R325), failure and completion (R316, R326). -/

namespace Sys2Proof.Machine

open Sys2Proof

/-! ### COLL and its claim -/

/-- COLL: rd is pending until CLAIM_RESOLVED (R159, R160). DEDUCED (log 44). -/
def execColl (x : Issue) (s : State) : Host.Outcome State Fault Refusal :=
  onFab s (fun f => f.issueOp x 0x80 [.s (fRd x.word)])

/-- A reduction. -/
def reduces (kind : Nat) : Bool := Nat.ble kind 2

/-- Bytes of one source block (R305). -/
def blockBytes (fmt : Nat) : Nat := if fmt = 1 then 128 else 256

/-- Blocks of a reduction. -/
def CollOp.blocks (o : CollOp) : Nat := o.size / blockBytes o.fmt

/-- First block that rank r receives of a reduce-scatter of u blocks (R306). -/
def shareStart (u n r : Nat) : Nat := r * u / n

/-- Rank r receives block b of a reduction (R306). -/
def CollOp.wants (o : CollOp) (n r b : Nat) : Bool :=
  match o.kind with
  | 0 => r == 0
  | 1 => true
  | _ => Nat.ble (shareStart o.blocks n r) b && Nat.blt b (shareStart o.blocks n (r + 1))

/-- Bytes that rank r receives at adst (R306); the unequal exchange names its own destinations. -/
def CollOp.resultBytes (o : CollOp) (n r : Nat) : Nat :=
  match o.kind with
  | 0 => if r = 0 then 256 * o.blocks else 0
  | 1 => 256 * o.blocks
  | 2 => 256 * (shareStart o.blocks n (r + 1) - shareStart o.blocks n r)
  | 3 => n * o.size
  | 6 => 0
  | _ => o.size

/-- The size and format rules of Table "Collective kinds and sizes" (R306); adst of kind 0x6 is not looked at.
DESIGN CHOICE (log 120). -/
def CollOp.sizeOk (o : CollOp) (n : Nat) (slice : Bool) : Bool :=
  Nat.ble 1 o.size && Nat.ble o.size (2 ^ 36) &&
  match o.kind with
  | 0 | 1 => o.fmt != 2 && o.size % blockBytes o.fmt == 0
  | 2 => o.fmt != 2 && o.size % (if slice then 256 else blockBytes o.fmt * n) == 0
  | 5 => o.size % (64 * n) == 0
  | 6 => o.size == 32 * n
  | _ => o.size % 64 == 0

/-- Entry i of an unequal exchange: address and length (R306). DEDUCED (log 44). -/
def W.exchange (w : W) (p src i : Nat) : Nat × Nat := (w.loadNat p (src + 16 * i) 8, w.loadNat p (src + 16 * i + 8) 8)

/-- Estimate bytes of a reduction: address and count; none with Agreement (R312, R314). -/
def estimates (d : BitVec 512) (o : CollOp) (slice : Option Nat) : Option (Nat × Nat) :=
  if !reduces o.kind || treeAgree d then none
  else some (descField d 447 384 + (match slice with | some n => 1024 * n | none => 0), o.blocks)

/-- The slice number of a slice reference (R285). -/
def sliceRef (a : Nat) : Option Nat := if a / 2 ^ 60 = 0xF then some (a % 2 ^ 60) else none

/-- The slices linked to a leader: ties and group members of it, and ties of its group members (R288), an abandoned one among them.
DESIGN CHOICE (log 119). -/
def linkedTo (l : List Slice) (n : Nat) : List Slice :=
  l.filter (fun s => s.linkKind != 0 && (s.link == n ||
    (s.linkKind == 1 && l.any (fun g => g.number == s.link && g.linkKind == 2 && g.link == n))))

/-- The slice checks of R285: a status, or the leader and the slices linked to it. -/
def Fab.sealCheck (f : Fab) (p n : Nat) (o : CollOp) : Except Nat (Slice × List Slice) :=
  let l := match f.steps.find? p with | some r => r.slices | none => []
  match l.find? (fun s => s.number == n) with
  | some s =>
    let links := linkedTo l n
    if f.eff 0x8011 (p + 1) ≤ n ∨ s.state ≠ 2 ∨ s.kind ≠ 0 ∨ links.any (fun x => x.state != 2) then .error 0x02
    else if s.linkKind ≠ 0 then .error 0x03
    else if !(Nat.ble o.kind 2 && o.fmt == 0 && o.size == 256 * s.units) then .error 0x04
    else .ok (s, links)
  | none => .error 0x02

/-- Free slots of a partition on a base die, in ascending number (R308). -/
def Fab.freeSlots (f : Fab) (b p : Nat) : List Nat :=
  let r := f.mapRange 0xB120 b p
  ((List.range r.2).map (· + r.1)).filter (fun i => (f.slot b i).holder == .free)

/-- The flow of a rank, from the tree's member table (R302, R358, R365). -/
def W.memberFlow (w : W) (p : Nat) (d : BitVec 512) (r : Nat) : FlowKey :=
  let e := w.loadNat p (descField d 511 448 + 64 * r) 64
  ⟨treeDie d, bitsOf e 511 384, p, bitsOf e 215 212⟩

/-- Traffic class of a rank's packets, from the tree's member table (R302, R365). -/
def W.memberClass (w : W) (p : Nat) (d : BitVec 512) (r : Nat) : Nat :=
  bitsOf (w.loadNat p (descField d 511 448 + 64 * r) 64) 208 206

/-- The flows to the other members of a tree take the traffic class of their entries (R365). -/
def W.classFlows (w : W) (p : Nat) (d : BitVec 512) (f : Fab) : Fab :=
  ((List.range (treeN d)).filter (· != treeRank d)).foldl (fun g r =>
    g.onFlow (w.memberFlow p d r) (fun x => { x with cls := w.memberClass p d r })) f

/-- Destination rank of the permutation for rank r (R306); a table address of 0 is read like any other. DESIGN CHOICE (log 120). -/
def W.permuted (w : W) (p : Nat) (d : BitVec 512) (r : Nat) : Nat := w.loadNat p (descField d 319 256 + 2 * r) 2

/-- Ranks an ABORT goes to: the neighbours in both trees, or the exchange partners (R326). -/
def W.partnersOf (w : W) (p : Nat) (d : BitVec 512) (kind : Nat) : List Nat :=
  let n := treeN d
  let r := treeRank d
  let l :=
    if kind ≤ 4 then (treeUp d false r).toList ++ (treeUp d true r).toList ++ treeDown d false r ++ treeDown d true r
    else if kind ≤ 6 then List.range n
    else if kind = 7 then [(r + descField d 175 160) % n, (r + n - descField d 175 160 % n) % n]
    else w.permuted p d r :: (List.range n).filter (fun x => w.permuted p d x == r)
  (l.eraseDups).filter (· != r)

/-- The entries of an unequal exchange: N send entries, then N receive entries (R306). DESIGN CHOICE (log 43). -/
def W.exchanges (w : W) (p : Nat) (d : BitVec 512) (o : CollOp) : List (Nat × Nat) :=
  if o.kind = 6 then (List.range (2 * treeN d)).map (w.exchange p o.src) else []

/-- What a launch reads of package memory: the tree's member table, the permutation of a permutation, and the entries of an unequal
exchange that lie in the partition's windows (R302, R306). -/
def Fab.collReads (f : Fab) (p : Nat) (d : BitVec 512) (o : CollOp) : List (Nat × Nat × Bool) :=
  (descField d 511 448, 64 * treeN d, false) :: ((if o.kind = 8 then [(descField d 319 256, 2 * treeN d, false)] else []) ++
    (if o.kind = 6 ∧ f.inWindows p o.src o.size then [(o.src, o.size, false)] else []))

/-- The checks of R307 in order, after the slice's (R285): a status, or the slots claimed and whether the fallback path is
taken. `die` is the base die the launcher rides on; a job's addresses were checked at its arrival (R340).
DEDUCED (log 44). -/
def W.collCheck (w : W) (p die : Nat) (d : BitVec 512) (o : CollOp) (leader : Option Slice) (job : Bool) :
    Except Nat (List Nat × Bool) :=
  let f := w.fab
  let n := treeN d
  let r := treeRank d
  let homeOk := match leader with | some s => s.home == treeDie d | none => true
  let inside := fun a k => f.inWindows p a k
  let entries := w.exchanges p d o
  if die ≠ treeDie d ∨ !homeOk then .error 0x05
  else if !o.sizeOk n leader.isSome then .error 0x06
  else if (o.kind = 5 ∨ o.kind = 6) ∧ 4096 < n then .error 0x07
  else if (!job && ((leader.isNone && !inside o.src o.size) || !inside o.dst (o.resultBytes n r))) ||
      (match estimates d o (leader.map (·.number)) with | some e => !inside e.1 e.2 | none => false) ||
      (o.kind == 6 && entries.any (fun e => e.1 % 64 != 0 || e.2 % 64 != 0 || !inside e.1 e.2)) then .error 0x08
  else if (f.mapRange 0xB130 (treeDie d) p).2 ≤ (f.colls.filter (fun c => c.die == treeDie d && c.partition == p)).length then
    .error 0x09
  else if !reduces o.kind then .ok ([], false)
  else
    let free := f.freeSlots (treeDie d) p
    let slots := match leader with | some _ => [] | none => if 2 ≤ free.length then free.take 2 else []
    let fall := match leader with | some s => s.onFallback | none => slots.isEmpty
    if fall && descField d 383 320 == 0 then .error 0x0A else .ok (slots, fall)

/-- Sequence number the next launch on a live tree takes (R310). -/
def Fab.nextSeq (f : Fab) (p tree : Nat) : Nat := f.treeSeq.get 0 (256 * p + tree)

/-- Estimate ranges of two collectives share a byte (R310). -/
def estimatesMeet (a b : Option (Nat × Nat)) : Bool :=
  match a, b with
  | some x, some y => Nat.blt x.1 (y.1 + y.2) && Nat.blt y.1 (x.1 + x.2)
  | _, _ => false

/-- A launch waits (R310): the one four before it on its tree has not completed, an earlier one of its tree waits, or it reads
estimate bytes that an earlier one writes. DEDUCED (log 37). -/
def Fab.collWaits (f : Fab) (c : Coll) : Bool :=
  let before := f.colls.filter (fun x => Nat.blt x.id c.id && x.partition == c.partition && x.tree == c.tree)
  before.any (fun x => Nat.ble (x.seq + 4) c.seq) || before.any (fun x => x.phase == .held) ||
  before.any (fun x => estimatesMeet (estimates x.desc x.op x.slice) (estimates c.desc c.op c.slice))

/-! ### Blocks -/

/-- FP32 element i of a slice (R282, R284, R309). -/
def W.sliceElem (w : W) (p : Nat) (s : Slice) (i : Nat) : W32 :=
  if s.onFallback then BitVec.ofNat 32 (w.loadNat p (s.fallback + 4 * i) 4) else (w.fab.slot s.home s.slot).fp.get 0 i

/-- FP32 elements of block b of each contribution of this member, widened, with their flags: its source, or each slice of the seal
that contributes on its own (R82, R288, R305, R306). -/
def W.contributions (w : W) (c : Coll) (b : Nat) : List (List (W32 × Raise)) :=
  match c.slice with
  | some _ => (c.parts.filterMap (fun n => w.fab.slice? c.partition n)).map (fun s =>
      (List.range 64).map (fun j => (w.sliceElem c.partition s (64 * b + j), .none)))
  | none =>
    let a := c.op.src + blockBytes c.op.fmt * b
    [(List.range 64).map (fun j =>
      if c.op.fmt = 1 then toFp32 (decodeElem .bf16 (w.loadNat c.partition (a + 2 * j) 2))
      else (BitVec.ofNat 32 (w.loadNat c.partition (a + 4 * j) 4), .none))]

/-- Package memory that block b of this member's source is read from. -/
def W.sourceRanges (w : W) (c : Coll) (b : Nat) : List (Nat × Nat × Bool) :=
  match c.slice with
  | some _ => (c.parts.filterMap (fun n => w.fab.slice? c.partition n)).filterMap (fun s =>
      if s.onFallback then some (s.fallback + 256 * b, 256, false) else none)
  | none => [(c.op.src + blockBytes c.op.fmt * b, blockBytes c.op.fmt, false)]

/-- Flags of the widening of this member's block (R82). -/
def W.ownFlags (w : W) (c : Coll) (b : Nat) : Raise :=
  (w.contributions c b).foldl (fun r v => v.foldl (fun r e => r.or e.2) r) .none

/-- A block of a collective. -/
def Coll.block? (c : Coll) (b : Nat) : Option BlockRec := c.blocks.find? b

/-- A block of a collective set. -/
def Fab.setBlock (f : Fab) (id b : Nat) (r : BlockRec) : Fab := f.onColl id (fun c => { c with blocks := c.blocks.set b r })

/-- Place of a block's sum in the tree's fallback area (R309): the A or the B half of its MiB, 512 bytes a block.
DESIGN CHOICE (log 43). -/
def Coll.fallbackAt (c : Coll) (b : Nat) : Nat :=
  descField c.desc 383 320 + c.seq % 4 * 2 ^ 20 + b % 2 * 2 ^ 19 + b / 2 % 1024 * 512

/-- On the fallback path a fresh block is written to the fallback area, and each add reads and writes its 8 lines there (R309).
DESIGN CHOICE (log 43). -/
def W.keepFallback (w : W) (c : Coll) (b : Nat) (k : Kbx) (fresh : Bool) (adds : Nat) (body : W → W) : W :=
  if c.fallback && (fresh || adds != 0) then
    let a := c.fallbackAt b
    W.collDo c.id (fun w => body (w.store c.partition a (k.memory ++ List.replicate (512 - k.memory.length) 0)))
      ((if fresh then [(a, 512, true)] else []) ++ (List.replicate adds [(a, 512, false), (a, 512, true)]).flatten) w
  else body w

/-- Children in this member's own group tree, and those among the group roots (R322). -/
def Coll.kids (c : Coll) (t : Bool) : List Nat × List Nat :=
  (treeDown c.desc t (treeRank c.desc)).partition (sameGroup c.desc (treeRank c.desc))

/-- The event source of an adder: the Blotter, or the controller group of a fallback adder. -/
def adderSource (die adder : Nat) : Nat := srcBase die (if adder < 4 then 2 else 8 + (adder - 4))

/-- A residue mismatch counted and reported (R323). DESIGN CHOICE (log 39). -/
def Fab.adderMismatch (f : Fab) (c : Coll) (adder b : Nat) : Fab :=
  (f.dadd 0x6030 1 1).raise (adderSource c.die adder) 0x0401 (some c.partition) adder (c.tree * 2 ^ 32 + b)

/-- The next live adder of the same kind after an adder, or that one where no other is live (R323). -/
def Fab.nextAdder (f : Fab) (die a : Nat) : Nat :=
  (((List.range 4).map (fun i => a / 4 * 4 + (a + 1 + i) % 4)).find? (fun x => bit (f.dget 0x6031 (die + 1)) x)).getD a

/-- An add that failed its residue check (R323): once (1), twice, which retires the adder (2), and on the next live adder too (3).
Adders 0 to 3 are the Blotter's pipes, 4 to 7 the fallback adders; an add goes to a live one. -/
def Fab.addFault (f : Fab) (c : Coll) (b level adder : Nat) : Fab :=
  let a0 := if c.fallback then 4 + adder % 4 else adder % 4
  let a := if bit (f.dget 0x6031 (c.die + 1)) a0 then a0 else f.nextAdder c.die a0
  if level = 0 then f else
  let f1 := f.adderMismatch c a b
  if level = 1 then f1 else
  let f2 := f1.adderMismatch c a b
  let live := setBit (f2.dget 0x6031 (c.die + 1)) a false
  let f3 := if bit (f2.dget 0x6031 (c.die + 1)) a then
      ((f2.dset 0x6031 (c.die + 1) live).dadd 0x6030 2 1).raise (adderSource c.die a) 0x0402 (some c.partition) a live
    else f2
  if level = 2 then f3 else f3.adderMismatch c (f3.nextAdder c.die a) b

/-- Two blocks added by an adder whose faults (level, adder) the command tells (R92, R93, R323): none for SCALE_MISMATCH, else the
sum and whether an input is bad. DESIGN CHOICE (log 39). -/
def combine (f : Fab) (c : Coll) (b : Nat) (fault : Nat × Nat) (x y : Kbx) : Option (Fab × Kbx × Bool) :=
  match kbxAdd x y with
  | .mismatch => none
  | .sum s bad =>
    let l := if s.nf then 0 else if bad then 3 else fault.1
    some (f.addFault c b l fault.2, s, l == 3)

/-- The faults that a command tells of its adds: entries 16 × block + 4 × level + adder, and 256 more for the add of a narrowed sum
that a block of an UP lets go. DESIGN CHOICE (log 39). -/
def faultOf (pipe : List Nat) (i : Nat) : Nat × Nat :=
  match pipe.find? (fun e => e / 16 == i) with
  | some e => (e / 4 % 4, e % 4)
  | none => (0, 0)

/-- This member's block: its contributions converted on X and added exactly by an adder whose faults the command tells (R288, R315
step 1, R323), and whether an input is bad. DESIGN CHOICE (log 39). -/
def W.ownBlock (w : W) (c : Coll) (b x : Nat) : Fab × Kbx × Bool :=
  match (w.contributions c b).map (fun v => kbxOf x (treeH c.desc) (v.map (·.1))) with
  | k :: r => ((r.zipIdx).foldl (fun a e =>
      match combine a.1 c b (if e.2 = 0 then faultOf w.struck b else (0, 0)) a.2.1 e.1 with
      | some y => (y.1, y.2.1, a.2.2 || y.2.2)
      | none => a) (w.fab, k, false))
  | [] => (w.fab, kbxOf x (treeH c.desc) (List.replicate 64 0), false)

/-! ### The root and DOWN -/

/-- Where block b goes in this member's adst. -/
def Coll.blockAddr (c : Coll) (b : Nat) : Nat :=
  c.op.dst + 256 * (if c.op.kind = 2 then b - shareStart c.op.blocks (treeN c.desc) (treeRank c.desc) else b)

/-- FP32 elements as memory bytes. -/
def fpMemory (v : List W32) : List Byte := v.flatMap (fun x => leBytes 4 x.toNat)

/-- FP32 elements as sent: most significant byte first (R327). -/
def fpWire (v : List W32) : List Byte := v.flatMap (fun x => beBytes 4 x.toNat)

/-- Bytes padded to a multiple of 8. -/
def pad8 (l : List Byte) : List Byte := l ++ List.replicate ((8 - l.length % 8) % 8) 0

/-- Child k gets the FP32 result with its DOWN (R315): it or a rank below it receives the block; of a reduce, only rank 0
itself, from the root. -/
def Coll.sendsData (c : Coll) (t : Bool) (b k : Nat) (root : Bool) : Bool :=
  let n := treeN c.desc
  match c.op.kind with
  | 0 => root && k == 0
  | 1 => true
  | _ => (List.range n).any (fun r => c.op.wants n r b && treeBelow c.desc t k 40 r)

/-- A DOWN message of one block (Table "Collective message types"). DESIGN CHOICE (log 38). -/
def Coll.downMsg (c : Coll) (t : Bool) (attempt b : Nat) (data : Option (List W32)) (est : Nat) (report : Option Bool) : CollMsg :=
  let z := match c.slice, report with
    | some _, some v => beBytes 8 (if v then 1 else 0)
    | _, _ => []
  { (c.msg t attempt b 1 2 ((match data with | some v => fpWire v | none => []) ++ pad8 [BitVec.ofNat 8 est] ++ z)) with
    last := report.isSome }

/-- Every block of tree t of a collective is down on this member. -/
def Coll.treeDone (c : Coll) (t : Bool) : Bool :=
  (List.range c.op.blocks).all (fun b => (b % 2 == 1) != t || match c.block? b with | some r => r.down | none => false)

/-- Whether every element of tree t is +0: the root's report, or what this member has seen of all of it (R286, R315, R325). -/
def Coll.zero (c : Coll) (t : Bool) : Bool := (c.reports.find? (if t then 1 else 0)).getD (!c.nonzero.contains t)

/-- The Zero report that goes out with a tree's last DOWN. -/
def Coll.report (c : Coll) (t : Bool) : Option Bool := if c.treeDone t then some (c.zero t) else none

/-- The elements of a block are noted for Zero. -/
def Coll.sees (c : Coll) (t : Bool) (v : List W32) : Coll :=
  if v.all (· == 0) || c.nonzero.contains t then c else { c with nonzero := c.nonzero ++ [t] }

/-- A completed block on this member (R314, R315, R318): the result written if it wants it, the estimate written, then counts; its
place in the KBX area is free (R308). -/
def W.blockDone (w : W) (id b est : Nat) (data : Option (List W32)) (saturated : Bool) : W :=
  match w.fab.coll? id with
  | some c =>
    match c.block? b with
    | some r =>
      let takes := c.op.wants (treeN c.desc) (treeRank c.desc) b && data.isSome
      let guess := estimates c.desc c.op c.slice
      W.collDo id (fun w =>
        let w1 := match takes, data with
          | true, some v => w.store c.partition (c.blockAddr b) (fpMemory v)
          | _, _ => w
        let w2 := match guess with
          | some e => w1.store c.partition (e.1 + b) [BitVec.ofNat 8 est]
          | none => w1
        w2.map (fun f =>
          let f1 := (f.setBlock id b { r with
              down := true, data := r.data || takes, saturated := saturated, low := none, upper := none }).onColl id (fun c =>
            match data with | some v => c.sees (b % 2 == 1) v | none => c)
          if saturated then
            (f1.dadd 0x6021 (c.partition + 1) 1).raise (srcBase c.die 4) 0x0404 (some c.partition) c.tree b
          else f1))
        ((if takes then [(c.blockAddr b, 256, true)] else []) ++
          (match guess with | some e => [(e.1 + b, 1, true)] | none => [])) w
    | none => w
  | none => w

/-- A completed block goes on to the children of its tree (R315 steps 4 and 5, R324, R325). -/
def Fab.sendDown (f : Fab) (id b est : Nat) (data : Option (List W32)) (root repair : Bool) : Fab :=
  match f.coll? id with
  | some c =>
    let t := b % 2 == 1
    let attempt := ((c.block? b).map (·.attempt)).getD 0
    (c.children t).foldl (fun g k =>
      g.collCast id k 0x02 (c.downMsg t attempt b (if c.sendsData t b k root then data else none) est (c.report t)) repair) f
  | none => f

/-- The root delivers a block (R314, R315 step 4, R318). One operation, for the flags of the conversion, is the conversion of one
block (R87). DEDUCED (log 41). DESIGN CHOICE (log 99). -/
def W.deliver (w : W) (id b : Nat) (total : Kbx) : W :=
  match w.fab.coll? id with
  | some c =>
    let out := kbxFp32 total
    let v := out.map (·.1)
    let est := newEstimate total.x (treeH c.desc) total.nf total.sat v
    let w1 := (w.map (fun f => f.countFlags (out.foldl (fun r e => r.or e.2) Raise.none))).blockDone id b est (some v) total.sat
    w1.map (fun f => match f.coll? id with
      | some c =>
        let t := b % 2 == 1
        let f1 := f.sendDown id b est (some v) true false
        if c.op.kind = 0 ∧ treeRank c.desc ≠ 0 ∧ !(treeDown c.desc t (treeRank c.desc)).contains 0 then
          f1.collSend c 0 0x02 (c.downMsg t (((c.block? b).map (·.attempt)).getD 0) b (some v) est none)
        else f1
      | none => f)
  | none => w

/-- The REISSUE of a block sent down its tree (R317, R323). -/
def Fab.sendReissue (f : Fab) (c : Coll) (b attempt x : Nat) : Fab :=
  (c.children (b % 2 == 1)).foldl (fun g k =>
    g.collSend c k 0x03 { (c.msg (b % 2 == 1) attempt b 1 0 []) with newScale := x }) f

/-- A block converted on a scale for an attempt: its sums begin anew (R315 step 1, R317). One operation, for the flags of the
widening, is one block's conversion (R82, R87). DESIGN CHOICE (log 99). -/
def W.convert (w : W) (id b attempt x : Nat) : W :=
  match w.fab.coll? id with
  | some c =>
    match c.block? b with
    | some r =>
      W.collDo id (fun w =>
        let y := w.ownBlock c b x
        ({ w with fab := y.1.countFlags (w.ownFlags c b), struck := w.struck.filter (fun e => e / 16 != b) }).keepFallback c b y.2.1 true
          ((w.contributions c b).length - 1) (fun w => w.map (fun f => f.setBlock id b
            { r with attempt := attempt, x := x, pre := false, low := some y.2.1, upper := none, got := [], bad := y.2.2 })))
        (w.sourceRanges c b) w
    | none => w
  | none => w

/-- The scale reissue counted (R318, R331). DESIGN CHOICE (log 40). -/
def Fab.countReissue (f : Fab) (id b : Nat) (res : Bool) : Fab :=
  match f.coll? id with
  | some c =>
    match c.block? b with
    | some r =>
      if res then f.setBlock id b { r with resReissues := r.resReissues + 1 }
      else (f.setBlock id b { r with satReissues := r.satReissues + 1 }).dadd 0x6020 (c.partition + 1) 1
    | none => f
  | none => f

/-- The sums of a block as far as they have come: narrowed if this member narrows and its group is complete; the total once
nothing more is due (R315 step 3, R322); none where an adder meets blocks that do not match, and whether an input of the add of
the narrowed sum is bad. -/
def totalOf (f : Fab) (c : Coll) (b : Nat) (fault : Nat × Nat) (r : BlockRec) : Option (Fab × BlockRec × Option Kbx × Bool) :=
  let t := b % 2 == 1
  let me := treeRank c.desc
  let k := c.kids t
  match r.low with
  | some lo =>
    if !k.1.all r.got.contains then some (f, r, none, false)
    else if !narrows c.desc t me then some (f, r, some lo, false)
    else
      let step :=
        if r.got.contains me then some (f, r, false)
        else match r.upper with
          | none => some (f, { r with upper := some (kbxNarrow lo), got := r.got ++ [me] }, false)
          | some u => (combine f c b fault u (kbxNarrow lo)).map (fun x =>
              (x.1, { r with upper := some x.2.1, got := r.got ++ [me] }, x.2.2))
      step.map (fun x => (x.1, x.2.1, if k.2.all x.2.1.got.contains then x.2.1.upper else none, x.2.2))
  | none => some (f, r, none, false)

/-- Every block of tree t has begun, and every one but b satisfies a condition: a message for b is the phase's last (R327). -/
def Coll.lastOf (c : Coll) (t : Bool) (b : Nat) (p : BlockRec → Bool) : Bool :=
  (List.range c.op.blocks).all (fun i => (i % 2 == 1) != t || i == b || match c.block? i with | some r => p r | none => false)

/-- A block's sum sent to the parent (R315). -/
def Fab.sendUp (f : Fab) (id b u : Nat) (r : BlockRec) (total : Kbx) : Fab :=
  match f.coll? id with
  | some c =>
    let t := b % 2 == 1
    (f.setBlock id b { r with upSent := true }).collSend c u 0x01
      { (c.msg t r.attempt b 1 (if total.k32 then 1 else 0) total.wire) with last := c.lastOf t b (·.upSent) }
  | none => f

/-- Where a block's record shows that the narrowed sum of its group has entered that of the groups above, it is kept in the fallback
area, after an add unless it is the first there (R309, R322). -/
def W.keepNarrowed (w : W) (c : Coll) (b : Nat) (r r1 : BlockRec) (body : W → W) : W :=
  match r1.upper with
  | some u =>
    if r.got.contains (treeRank c.desc) then body w
    else w.keepFallback c b u r.upper.isNone (if r.upper.isSome then 1 else 0) body
  | none => body w

/-- What a member does when the sum of a block may be complete: it sends UP, or the root reissues or delivers (R315 to R318,
R323). `bad` tells that an input of an add is bad: the root reissues the block with the same X, and another member, since the spec
does not say how the root learns of it, asks for that with a REISSUE sent up the tree. `fuel` bounds reissues of a tree of one
member. DESIGN CHOICE (log 39). -/
def W.advance (id b : Nat) (fault : Nat × Nat) : Nat → Bool → W → W
  | 0, _, w => w
  | n + 1, bad, w =>
    match w.fab.coll? id with
    | some c =>
      match c.block? b with
      | some r =>
        if r.down then w else
        if bad || r.bad then
          match treeUp c.desc (b % 2 == 1) (treeRank c.desc) with
          | some u => w.map (fun f => (f.setBlock id b { r with low := none, upper := none, bad := false }).collSend c u 0x03
              { (c.msg (b % 2 == 1) (r.attempt + 1) b 1 0 []) with newScale := r.x })
          | none =>
            if 2 ≤ r.resReissues then w.failColl id kolasResidue b
            else W.advance id b (0, 0) n false
              ((w.map (fun f => (f.countReissue id b true).sendReissue c b (r.attempt + 1) r.x)).convert id b (r.attempt + 1) r.x)
        else match totalOf w.fab c b fault r with
          | none => w.failColl id kolasScaleMismatch b
          | some (f, _, _, true) => W.advance id b (0, 0) n true { w with fab := f }
          | some (f, r1, none, false) => W.keepNarrowed { w with fab := f.setBlock id b r1 } c b r r1 (fun w1 => w1)
          | some (f, r1, some total, false) =>
            W.keepNarrowed { w with fab := f.setBlock id b r1 } c b r r1 (fun w1 =>
              match treeUp c.desc (b % 2 == 1) (treeRank c.desc) with
              | some u => w1.map (fun f => f.sendUp id b u r1 total)
              | none =>
                if total.sat && Nat.blt r.x 254 && Nat.blt r.satReissues c.limit then
                  let x := min (r.x + 4) 254
                  W.advance id b (0, 0) n false
                    ((w1.map (fun f => (f.countReissue id b false).sendReissue c b (r.attempt + 1) x)).convert id b (r.attempt + 1) x)
                else w1.deliver id b total)
      | none => w
    | none => w

/-- A block agreed on its estimate: converted and started upwards (R312, R313). -/
def W.agreed (w : W) (id b eps : Nat) : W :=
  match w.fab.coll? id with
  | some c =>
    match c.block? b with
    | some r =>
      W.advance id b (0, 0) 8 false ((w.map (fun f => f.setBlock id b { r with eps := eps, pre := false })).convert id b 0
        (scaleOf eps (treeH c.desc)))
    | none => w
  | none => w

/-- An agreed exponent sent down to the children (R313). -/
def Fab.sendAgreed (f : Fab) (c : Coll) (b v : Nat) : Fab :=
  let t := b % 2 == 1
  (c.children t).foldl (fun g k =>
    g.collSend c k 0x05 { (c.msg t 0 b 1 3 (pad8 [BitVec.ofNat 8 v])) with last := c.lastOf t b (fun r => !r.pre) }) f

/-- The agreed exponent sent on: up to the parent, or, at the root, down and used (R313). -/
def W.agree (w : W) (id b : Nat) : W :=
  match w.fab.coll? id with
  | some c =>
    match c.block? b with
    | some r =>
      let t := b % 2 == 1
      let me := treeRank c.desc
      if !(treeDown c.desc t me).all r.agreed.contains then w
      else match treeUp c.desc t me with
        | some u => w.map (fun f => (f.setBlock id b { r with agreeSent := true }).collSend c u 0x04
            { (c.msg t 0 b 1 3 (pad8 [BitVec.ofNat 8 r.cmax])) with last := c.lastOf t b (fun r => !r.pre || r.agreeSent) })
        | none => (w.map (fun f => f.sendAgreed c b r.cmax)).agreed id b r.cmax
    | none => w
  | none => w

/-- The record of a block that begins. -/
def BlockRec.begun (eps cmax : Nat) : BlockRec :=
  { attempt := 0, x := 0, eps := eps, pre := eps == 0xFF, cmax := cmax, agreed := [], low := none, upper := none, got := [],
    satReissues := 0, resReissues := 0, down := false, data := false, saturated := false, agreeSent := false, upSent := false }

/-- A block begins (R312, R313): on its estimate byte, or with the pre-round, which reads the source. -/
def W.beginBlock (w : W) (id b : Nat) : W :=
  match w.fab.coll? id with
  | some c =>
    let e := estimates c.desc c.op c.slice
    W.collDo id (fun w =>
      let eps := match e with | some e => (w.load c.partition (e.1 + b)).toNat | none => 0xFF
      if eps = 0xFF then
        W.collDo id (fun w =>
          let own := (w.contributions c b).foldl (fun m v => max m (topExponent (v.map (·.1)))) 0
          (w.map (fun f => f.setBlock id b (.begun eps own))).agree id b) (w.sourceRanges c b) w
      else (w.map (fun f => f.setBlock id b (.begun eps 0))).agreed id b eps)
      (match e with | some e => [(e.1 + b, 1, false)] | none => []) w
  | none => w

/-- The block of a tree that begins next (R305). -/
def Coll.nextBlock (c : Coll) (t : Bool) : Nat := if t then 2 * c.nextB + 1 else 2 * c.next

/-- The next block of a tree may begin: its place in the tree's KBX ring of 1,024 blocks is free (R308, R309). -/
def Coll.ringFree (c : Coll) (t : Bool) : Bool :=
  let b := c.nextBlock t
  Nat.blt b c.op.blocks && (Nat.blt b 2048 || match c.block? (b - 2048) with | some r => r.down | none => true)

/-- The tree whose next block begins first: neither tree waits for the other (R308, R317). -/
def Coll.beginsNext (c : Coll) : Option Bool :=
  if c.ringFree false && (Nat.blt (c.nextBlock false) (c.nextBlock true) || !c.ringFree true) then some false
  else if c.ringFree true then some true else none

/-- Blocks begin while the rings have room, at most `fuel`. -/
def W.beginBlocks (id : Nat) : Nat → W → W
  | 0, w => w
  | n + 1, w =>
    match w.fab.coll? id with
    | some c =>
      match (if c.phase == .running && reduces c.op.kind then c.beginsNext else none) with
      | some t => W.beginBlocks id n ((w.map (fun f => f.onColl id (fun c =>
          if t then { c with nextB := c.nextB + 1 } else { c with next := c.next + 1 }))).beginBlock id (c.nextBlock t))
      | none => w
    | none => w

/-! ### Bytes -/

/-- Pieces of n bytes, each of at most k: offset and length. DESIGN CHOICE (log 38). -/
def pieces (n k : Nat) : List (Nat × Nat) := (List.range ((n + k - 1) / k)).map (fun i => (k * i, min k (n - k * i)))

/-- The rank at the root of a whole tree (R304, R322). -/
def treeTop (d : BitVec 512) (t : Bool) : Nat :=
  let k := treeN d / groupSize d
  groupRoot d t (rankAt k t (2 ^ Nat.log2 k))

/-- A DATA message. DESIGN CHOICE (log 38). -/
def Coll.dataMsg (c : Coll) (t : Bool) (offset : Nat) (bytes : List Byte) : CollMsg := c.msg t 0 offset bytes.length 3 bytes

/-- Received pieces cover [off, end), `fuel` bounding their number. -/
def covered (l : List (Nat × Nat)) (stop : Nat) : Nat → Nat → Bool
  | 0, off => Nat.ble stop off
  | n + 1, off => Nat.ble stop off || match l.find? (fun r => Nat.ble r.1 off && Nat.blt off (r.1 + r.2)) with
    | some r => covered l stop n (r.1 + r.2)
    | none => false

/-- A range has been received, in whatever pieces (R316, R325). DESIGN CHOICE (log 43). -/
def Coll.has (c : Coll) (off len : Nat) : Bool := covered c.ranges (off + len) c.ranges.length off

/-- The member writes its result: a sender's job with no Destination does not (R338). -/
def Coll.writes (c : Coll) : Bool :=
  match c.launcher with
  | .job _ _ => c.op.dst != 0
  | .op _ _ _ _ => true

/-- Address in adst of a received piece; for an unequal exchange that of receive entry `offset / 2^40` (R306). -/
def Coll.pieceAddr (c : Coll) (off len : Nat) : Option Nat :=
  if c.op.kind = 6 then
    let e := c.entries.getD (treeN c.desc + off / 2 ^ 40) (0, 0)
    if off / 2 ^ 40 < treeN c.desc ∧ off % 2 ^ 40 + len ≤ e.2 then some (e.1 + off % 2 ^ 40) else none
  else if off + len ≤ c.op.resultBytes (treeN c.desc) (treeRank c.desc) then some (c.op.dst + off)
  else none

/-- A piece written once and noted; a sender's job with no Destination keeps its bytes for its repair clients, and hands them out in
order (R325, R338). DESIGN CHOICE (logs 43, 111). -/
def W.piece (w : W) (id off : Nat) (bytes : List Byte) : W :=
  match w.fab.coll? id with
  | some c =>
    if c.has off bytes.length then w else
    match c.pieceAddr off bytes.length with
    | some a =>
      W.collDo id (fun w => (if c.writes then w.store c.partition a bytes else w).map (fun f =>
        f.onColl id (fun c => { c with
          ranges := c.ranges ++ [(off, bytes.length)], kept := if c.writes then c.kept else c.kept ++ bytes })))
        (if c.writes then [(a, bytes.length, true)] else []) w
    | none => w
  | none => w

/-- Where a block of a gather or broadcast on tree t goes from the member that holds it (R324): the children of the tree's root,
or the root. -/
def Coll.castDests (c : Coll) (t : Bool) : List Nat :=
  if treeTop c.desc t = treeRank c.desc then c.children t else [treeTop c.desc t]

/-- Bytes of a gather or broadcast that enter the multicast (R324, R342): block i on tree A or B. The tree's root, too, is cut when it
falls behind. DESIGN CHOICE (log 42). -/
def Fab.castBlock (f : Fab) (id i off : Nat) (bytes : List Byte) (last : Bool := false) : Fab :=
  match f.coll? id with
  | some c =>
    let t := i % 2 == 1
    let m := { c.dataMsg t off bytes with last := last }
    (c.castDests t).foldl (fun g k => g.collCast id k 0x06 m) f
  | none => f

/-- This member's own source enters a multicast: an all-gather's part, or the broadcast of rank 0 (R306, R324). -/
def Coll.casts (c : Coll) : Bool :=
  c.op.kind == 3 || (c.op.kind == 4 && treeRank c.desc == 0 && match c.launcher with | .op _ _ _ _ => true | .job _ _ => false)

/-- The next piece of the own source goes out: at once while one of its destinations has room in the Lag window, and otherwise at the
pace of one piece for each cycle since the collective started. The member never waits for a destination. DESIGN CHOICE (log 42). -/
def Fab.castRoom (f : Fab) (c : Coll) (t : Bool) : Bool :=
  let l := c.castDests t
  l.isEmpty || l.any (fun k => Nat.ble (f.unackedCast c k (fun _ => true) + 288) c.lagWindow) || Nat.blt c.next (f.cycle - c.since)

/-- Pieces of the own source multicast in order while there is room, at most `fuel` (R324). -/
def W.castSource (id : Nat) : Nat → W → W
  | 0, w => w
  | n + 1, w =>
    match w.fab.coll? id with
    | some c =>
      let off := 256 * c.next
      let len := min 256 (c.op.size - off)
      let base := if c.op.kind = 3 then treeRank c.desc * c.op.size else 0
      if c.phase == .running && c.casts && Nat.blt off c.op.size && w.fab.castRoom c (c.next % 2 == 1) then
        W.castSource id n (W.collDo id (fun w =>
          let bytes := w.loads c.partition (c.op.src + off) len
          ((w.map (fun f => f.onColl id (fun c => { c with next := c.next + 1 }))).piece id (base + off) bytes).map (fun f =>
            f.castBlock id c.next (base + off) bytes (Nat.ble c.op.size (off + 512))))
          [(c.op.src + off, len, false)] w)
      else w
    | none => w

/-- The blocks that a range of a reduction's result touches. -/
def blocksIn (off len : Nat) : List Nat := (List.range ((off % 256 + len + 255) / 256)).map (· + off / 256)

/-- The range that a PULL asks for is complete in adst (R325): rank, tree, offset, bytes. -/
def Coll.holds (c : Coll) (q : Nat × Bool × Nat × Nat) : Bool :=
  if reduces c.op.kind then
    (blocksIn q.2.2.1 q.2.2.2).all (fun b => c.op.wants (treeN c.desc) (treeRank c.desc) b && match c.block? b with
      | some r => r.down
      | none => false)
  else c.has q.2.2.1 q.2.2.2

/-- One PULL answered from adst (R325), or from what a sender with no Destination has kept; the answer is the last once the client's
last PULL of the tree has come and no other of its waits (R327). DESIGN CHOICE (log 111). -/
def W.servePull (w : W) (id : Nat) (q : Nat × Bool × Nat × Nat) : W :=
  match w.fab.coll? id with
  | some c =>
    let rest := removeFirst (· == q) c.pulls
    let last := c.pullsEnd.contains (q.1, q.2.1) && !rest.any (fun x => x.1 == q.1 && x.2.1 == q.2.1)
    let a := if reduces c.op.kind then some (c.blockAddr (q.2.2.1 / 256) + q.2.2.1 % 256) else c.pieceAddr q.2.2.1 q.2.2.2
    let w1 := w.map (fun f => f.onColl id (fun c => { c with pulls := rest }))
    let answer := fun (bytes : List Byte) (f : Fab) =>
      f.collSend c q.1 0x09 { (c.msg q.2.1 0 q.2.2.1 q.2.2.2 3 bytes) with last := last }
    match a with
    | some a =>
      if c.writes then W.collDo id (fun x => x.map (answer (x.loads c.partition a q.2.2.2))) [(a, q.2.2.2, false)] w1
      else w1.map (answer ((c.kept.drop q.2.2.1).take q.2.2.2))
    | none => w1
  | none => w

/-- PULL requests that can be answered are answered (R325). -/
def W.servePulls (w : W) (id : Nat) : W :=
  match w.fab.coll? id with
  | some c => (c.pulls.filter c.holds).foldl (fun x q => x.servePull id q) w
  | none => w

/-- Every multicast of a source goes on as far as it can (R324), and the PULLs that wait for its bytes are answered. -/
def W.castAll (w : W) : W :=
  (w.fab.colls.filter Coll.casts).foldl (fun x c => (W.castSource c.id (c.op.size / 256 + 1) x).servePulls c.id) w

/-- A part of this member's source sent to one rank in pieces, or kept (exchanges, R306). -/
def W.sendPart (w : W) (c : Coll) (dest src off n : Nat) : W :=
  (pieces n 8192).foldl (fun x q =>
    W.collDo c.id (fun x =>
      let bytes := x.loads c.partition (src + q.1) q.2
      if dest = treeRank c.desc then x.piece c.id (off + q.1) bytes
      else x.map (fun f => f.collSend c dest 0x06 { c.dataMsg false (off + q.1) bytes with last := Nat.ble n (q.1 + q.2) }))
      [(src + q.1, q.2, false)] x) w

/-- A collective of bytes begins (R306, R324). -/
def W.beginBytes (w : W) (c : Coll) : W :=
  let n := treeN c.desc
  let me := treeRank c.desc
  let z := c.op.size
  match c.op.kind with
  | 3 | 4 => W.castSource c.id (z / 256 + 1) w
  | 5 => (List.range n).foldl (fun x j => x.sendPart c j (c.op.src + j * (z / n)) (me * (z / n)) (z / n)) w
  | 6 => (List.range n).foldl (fun x j =>
      let e := c.entries.getD j (0, 0)
      x.sendPart c j e.1 (me * 2 ^ 40) e.2) w
  | 7 => w.sendPart c ((me + descField c.desc 175 160) % n) c.op.src 0 z
  | _ => w.sendPart c c.permTo c.op.src 0 z

/-- A launch starts (R315, R324). -/
def W.startColl (w : W) (id : Nat) : W :=
  match w.fab.coll? id with
  | some c =>
    let w1 := w.map (fun f => f.onColl id (fun c => { c with phase := .running, since := f.cycle }))
    if reduces c.op.kind then W.beginBlocks id c.op.blocks w1 else w1.beginBytes { c with phase := .running, since := w.fab.cycle }
  | none => w

/-- One tie of a seal added into its target, in FP32 (R288), with the flags of the whole add as one operation (R87). -/
def W.addTie (w : W) (p : Nat) (s g : Slice) : W :=
  let sums := (List.range (64 * g.units)).map (fun i => fpAdd (w.sliceElem p g i) (w.sliceElem p s i))
  let w1 := if g.onFallback then w.store p g.fallback (fpMemory (sums.map (·.1)))
    else w.map (fun f =>
      let q := f.slot g.home g.slot
      f.setSlot g.home g.slot { q with fp := (sums.zipIdx).foldl (fun t e => t.set e.2 e.1.1) q.fp })
  w1.map (fun f => f.countFlags (sums.foldl (fun r e => r.or e.2) .none))

/-- Ties of a seal added into their targets, in FP32 and in ascending member number (R288). -/
def W.addTies (w : W) (id : Nat) (l : List Slice) : W :=
  (l.filter (fun s => s.linkKind == 1)).foldl (fun x s =>
    match x.fab.coll? id with
    | some c =>
      match x.fab.slice? c.partition s.link with
      | some g =>
        let n := 256 * g.units
        W.collDo id (fun y => y.addTie c.partition s g)
          ((if s.onFallback then [(s.fallback, n, false)] else []) ++
            (if g.onFallback then [(g.fallback, n, false), (g.fallback, n, true)] else [])) x
      | none => x
    | none => x) w

/-- A launch whose claim succeeded enters flight (R285, R288, R307 to R310). DEDUCED (log 37). -/
def W.enterColl (w : W) (p : Nat) (d : BitVec 512) (o : CollOp) (by' : CollBy) (leader : Option (Slice × List Slice))
    (slots : List Nat) (fall : Bool) : W :=
  let f := w.fab
  let links := match leader with | some x => x.2 | none => []
  let lead := leader.map (fun x => x.1.number)
  let c : Coll :=
    { id := f.nextColl, partition := p, die := treeDie d, tree := o.tree, seq := f.nextSeq p o.tree, desc := d,
      limit := f.dget 0x6010 0x40, peers := (List.range (treeN d)).map (w.memberFlow p d), op := o, launcher := by', slice := lead,
      parts := lead.toList ++ (links.filter (fun s => s.linkKind == 2)).map (·.number),
      sealed := lead.toList ++ links.map (·.number), slots := slots, fallback := fall, phase := .running,
      partners := w.partnersOf p d o.kind, blocks := [], ranges := [], cuts := [], repairs := [], pulls := [], pullsEnd := [],
      outbox := [], next := 0, nonzero := [], reports := [], entries := w.exchanges p d o,
      permTo := if o.kind = 8 then w.permuted p d (treeRank d) else 0 }
  let held := f.collWaits c
  let w1 := w.map (fun f =>
    let f1 := slots.foldl (fun g i => g.setSlot c.die i ⟨.collective c.id, []⟩) f
    let f2 := w.classFlows p d (if fall && reduces o.kind then f1.dadd 0x6022 (p + 1) 1 else f1)
    { f2 with
      nextColl := f2.nextColl + 1, treeSeq := f2.treeSeq.set (256 * p + o.tree) (c.seq + 1),
      colls := f2.colls ++ [{ c with phase := if held then .held else .running }] })
  let w2 := match leader with
    | some (s, l) => ((s :: l).foldl (fun x y => x.moveSlice p y 3) w1).addTies c.id l
    | none => w1
  if held then w2 else w2.startColl c.id

/-- The claim of a launch: the statuses of R285 and R307, or flight. -/
def W.launchColl (w : W) (p die : Nat) (d : BitVec 512) (o : CollOp) (by' : CollBy) : Except Nat (W × Bool) := do
  let job := match by' with | .job _ _ => true | .op _ _ _ _ => false
  let leader ← match (if job then none else sliceRef o.src) with
    | some n => (w.fab.sealCheck p n o).map some
    | none => .ok none
  let r ← w.collCheck p die d o (leader.map (·.1)) job
  pure (w.enterColl p d o by' leader r.1 r.2, r.2)

/-- The claim of a launch and the tables it reads, by the collective engine of base die `die` (R189, R206, R307, R330): a status before
OUT_OF_MAP is met first; then what the reads came to; then the other checks. A launch that enters flight is answered first.
DEDUCED (log 37). DESIGN CHOICE (log 93). -/
def W.claim (w : W) (p die : Nat) (d : BitVec 512) (o : CollOp) (by' : CollBy) (answer : W → W) :
    W × Except Reach (Except Nat (W × Bool)) :=
  match w.launchColl p die d o by' with
  | .error st =>
    if st < kolasOutOfMap then (w, .ok (.error st))
    else match W.reach (fun a write => w.fab.unitTag p die 4 a write) (w.fab.collReads p d o) w with
      | (w1, .ok) => (w1, .ok (.error st))
      | (w1, r) => (w1, .error r)
  | .ok _ => match W.reach (fun a write => w.fab.unitTag p die 4 a write) (w.fab.collReads p d o) w with
    | (w1, .ok) => (w1, .ok ((answer w1).launchColl p die d o by'))
    | (w1, r) => (w1, .error r)

/-- CLAIM_RESOLVED (R160, R307): claims of a cluster resolve in issue order. DEDUCED (log 37). -/
def claimResolved (r : OpRef) (w : W) : W :=
  let c := r.cluster
  let cl := w.fab.cluster c
  let resolved := fun (o : Op) => w.fab.colls.any (fun x => match x.launcher with
    | .op a b _ _ => a == c && b == o.id
    | .job _ _ => false)
  let open' := fun (o : Op) => (match o.kind with | .coll _ => true | _ => false) && !resolved o
  match cl.op? r.op with
  | some o =>
    match o.kind with
    | .coll k =>
      if resolved o || cl.ops.any (fun q => Nat.blt q.id o.id && open' q) then w else
      let p := w.fab.partitionOf c
      let answer := fun (v : Nat) (x : W) => x.map (fun f => f.onStrand c o.strand (fun t =>
        (t.setS k.rd (BitVec.ofNat 64 v)).unbusy (.s k.rd)))
      let refuse := fun (st : Nat) (x : W) => (answer 2 x).map (fun f =>
        (f.finish c o.id).raiseAsync c o.strand ⟨.collectiveError, o.epc, kolasInfo st k.tree 0⟩)
      match (w.fab.scope p).live.trees.find? k.tree with
      | some d =>
        match w.claim p (baseDieOf c) d k (.op c o.id o.strand o.epc) (answer 0) with
        | (_, .ok (.ok (w1, fall))) => if fall then answer' c o.strand k.rd w1 else w1
        | (x, .ok (.error st)) => refuse st x
        | (x, .error (.bad a)) => (x.map (fun f => f.finish c o.id)).memFault c o.strand o.epc a (w.fab.locate none a)
        | (x, .error (.firewall _)) => refuse kolasFirewall x
        | (x, .error _) => refuse kolasOutOfMap x
      | none => refuse kolasMismatch w
    | _ => w
  | none => w
where
  /-- rd of a launch on the fallback path. -/
  answer' (c k rd : Nat) (w : W) : W := w.map (fun f => f.onStrand c k (fun t => t.setS rd 1))

/-- CLAIM_RESOLVED. DESIGN CHOICE (log 39). -/
def execClaimResolved (o : ClaimRef) (s : State) : Host.Outcome State Fault Refusal :=
  onMem s (fun w => claimResolved o.op { w with struck := o.faults })

/-- COLLECTIVE_HOLD_RELEASE (R310). -/
def collHoldRelease (id : Nat) (w : W) : W :=
  match w.fab.coll? id with
  | some c => if c.phase == .held && !w.fab.collWaits c then w.startColl id else w
  | none => w

/-- COLLECTIVE_HOLD_RELEASE. DESIGN CHOICE (log 39). -/
def execCollectiveHoldRelease (o : HeldRef) (s : State) : Host.Outcome State Fault Refusal :=
  onMem s (fun w => collHoldRelease o.id { w with struck := o.faults })

/-! ### Messages -/

/-- What a member makes of a collective message before its own meaning (R310, R311, R327). -/
inductive Found
  | drop
  | stale
  | notReady
  | mismatch (c : Coll)
  | ok (c : Coll)
  deriving DecidableEq, Repr

/-- The collective a message is for; one with a reserved field, kind, format, tree number, attempt or scale is dropped (R327).
DESIGN CHOICE (log 36). DEDUCED (log 37). -/
def Fab.collFor (f : Fab) (m : CollMsg) (heldToo : Bool := false) (reissue : Bool := false) : Found :=
  if m.reserved ≠ 0 ∨ 8 < m.kind ∨ m.fmt = 3 ∨ 255 < m.tree ∨ 5 < m.attempt ∨ (!reissue ∧ m.newScale ≠ 0) then .drop else
  match (f.scope m.partition).live.trees.find? m.tree with
  | none => .notReady
  | some d =>
    if m.epoch ≠ treeEpoch d then .stale
    else if treeN d ≤ m.source then .drop
    else if f.nextSeq m.partition m.tree ≤ m.sequence then .notReady
    else match f.colls.find? (fun c => c.partition == m.partition && c.tree == m.tree && c.seq == m.sequence) with
      | none => .stale
      | some c =>
        if c.phase == .held && !heldToo then .notReady
        else if c.op.kind ≠ m.kind ∨ c.op.fmt ≠ m.fmt ∨ c.op.size / 64 ≠ m.size then .mismatch c
        else .ok c

/-- NOT_READY: the header of the message it answers, with this member's rank, back on the flow it came by (R311, R327). A member
without the tree has no rank to name: it sends 0. DESIGN CHOICE (log 36). -/
def Fab.answerNotReady (f : Fab) (m : CollMsg) : Fab :=
  let rank := (((f.scope m.partition).live.trees.find? m.tree).map treeRank).getD 0
  f.flowSend m.via 0 (collBytes 0x0A { m with source := rank, payload := [], last := false, newScale := 0 })

/-- A collective message dropped for a reserved type, format or field, and counted; the spec names no entry for the count (R327).
DESIGN CHOICE (log 36). -/
def Fab.dropMessage (f : Fab) : Fab := { f with badMessages := f.badMessages + 1 }

/-- Block i of a message's payload, and its number. -/
def payloadBlock (m : CollMsg) (size i : Nat) : List Byte := (m.payload.drop (size * i)).take size

/-- One block of an UP added (R315 step 3, R317, R320): into the sum of the own group, or into that of the groups above. A block of an
attempt that is over is discarded and counted; the spec names no entry for the count (R317). DESIGN CHOICE (log 36). -/
def W.addUp (w : W) (id src b attempt : Nat) (k : Kbx) (above : Bool) (fault narrowed : Nat × Nat) : W :=
  match w.fab.coll? id with
  | some c =>
    match c.block? b with
    | some r =>
      if attempt < r.attempt then w.map (fun f => { f with lateBlocks := f.lateBlocks + 1 }) else
      if r.attempt ≠ attempt ∨ r.got.contains src ∨ r.down ∨ r.low.isNone then w else
      let done := fun (f : Fab) (r1 : BlockRec) (s : Kbx) (add : Bool) =>
        W.keepFallback { w with fab := f.setBlock id b { r1 with got := r1.got ++ [src] } } c b s (!add) (if add then 1 else 0)
          (W.advance id b narrowed 8 false)
      match (if above then r.upper else r.low) with
      | none => done w.fab { r with upper := some k } k false
      | some u =>
        match combine w.fab c b fault u k with
        | none => w.failColl id kolasScaleMismatch b
        | some (f, _, true) => W.advance id b (0, 0) 8 true { w with fab := f }
        | some (f, s, false) => done f (if above then { r with upper := some s } else { r with low := some s }) s true
    | none => w
  | none => w

/-- One block of a REISSUE (R317, R323): from the parent, the block is converted again on the new scale, and the message goes on to the
children; from a child, it tells that an input of the block is bad. DESIGN CHOICE (log 39). -/
def W.reissueBlock (w : W) (id src b attempt scale : Nat) : W :=
  match w.fab.coll? id with
  | some c =>
    let t := b % 2 == 1
    match c.block? b with
    | some r =>
      if r.down then w
      else if treeUp c.desc t (treeRank c.desc) == some src then
        if attempt ≤ r.attempt || scale = 0xFF then w
        else
          W.advance id b (0, 0) 8 false ((w.map (fun f =>
            (f.countReissue id b (scale == r.x)).sendReissue c b attempt scale)).convert id b attempt scale)
      else if (treeDown c.desc t (treeRank c.desc)).contains src && attempt == r.attempt + 1 && scale == r.x && r.low.isSome then
        W.advance id b (0, 0) 8 true w
      else w
    | none => w
  | none => w

/-- One value of an AGREE_UP (R313): the maximum takes it in. -/
def W.agreeBlock (w : W) (id src b v : Nat) : W :=
  match w.fab.coll? id with
  | some c =>
    match c.block? b with
    | some r =>
      if !r.pre || r.agreed.contains src then w
      else (w.map (fun f => f.setBlock id b { r with agreed := r.agreed ++ [src], cmax := max r.cmax v })).agree id b
    | none => w
  | none => w

/-- One block's share of a message from below or of a REISSUE. One whose block has not begun here waits for it: a member may run ahead
of its parent (R308, R315, R325). DESIGN CHOICE (log 111). -/
def W.meet (w : W) (id : Nat) (e : BlockMsg) : W :=
  match w.fab.coll? id with
  | some c =>
    if (c.block? e.block).isNone then
      if e.block < c.op.blocks then w.map (fun f => f.onColl id (fun c => { c with early := c.early ++ [e] })) else w
    else match e.type, e.kbx with
      | 1, some k => w.addUp id e.source e.block e.attempt k e.above e.fault e.narrowed
      | 3, _ => w.reissueBlock id e.source e.block e.attempt e.value
      | 4, _ => w.agreeBlock id e.source e.block e.value
      | _, _ => w
  | none => w

/-- Blocks begin while there is room, and what has come for them early is met, as long as that goes on.
DESIGN CHOICE (log 111). -/
def W.pump (id : Nat) : Nat → W → W
  | 0, w => w
  | n + 1, w =>
    match w.fab.coll? id with
    | some c =>
      let w1 := W.beginBlocks id c.op.blocks w
      match w1.fab.coll? id with
      | some d =>
        match d.early.find? (fun e => (d.block? e.block).isSome) with
        | some e => W.pump id n ((w1.map (fun f => f.onColl id (fun c => { c with early := removeFirst (· == e) c.early }))).meet id e)
        | none => w1
      | none => w1
    | none => w

/-- A message met by its collective: dropped, answered NOT_READY, a mismatch, or `body`; then the blocks that room came for begin, and
the PULLs that can be are answered. -/
def W.onMessage (w : W) (m : CollMsg) (body : Coll → W → W) (heldToo : Bool := false) (reissue : Bool := false) : W :=
  match w.fab.collFor m heldToo reissue with
  | .drop => w.map Fab.dropMessage
  | .stale => w.map (fun f => f.dadd 0x6030 3 1)
  | .notReady => w.map (fun f => f.answerNotReady m)
  | .mismatch c => w.failColl c.id kolasMismatch 0
  | .ok c => (W.pump c.id (c.early.length + 1) (body c { w with struck := m.faults })).servePulls c.id

/-- UP (R315, R322, R327): from a child of the block's tree, in its own group or above. -/
def up (m : CollMsg) (pipe : List Nat) (w : W) : W :=
  w.onMessage m (fun c w =>
    let k32 := m.format == 1
    let kids := c.kids m.treeB
    let n := kbxBytes k32
    if !reduces c.op.kind || m.format ≥ 2 || m.payload.length != n * m.count || m.count = 0 || 16 < m.count then w.map Fab.dropMessage
    else if !(kids.1.contains m.source || kids.2.contains m.source) then w
    else
      (List.range m.count).foldl (fun x i =>
        match kbxRead k32 (payloadBlock m n i) with
        | some k => if (m.offset + i) % 2 == (if m.treeB then 1 else 0) then
            x.meet c.id ⟨1, m.source, m.offset + i, m.attempt, 0, some k, kids.2.contains m.source, faultOf pipe i,
              faultOf pipe (i + 16)⟩ else x
        | none => x.map Fab.dropMessage) w)

/-- UP. DESIGN CHOICE (logs 14, 39). -/
def execUpMsg (m : CollMsg) (pipe : List Nat) (s : State) : Host.Outcome State Fault Refusal := onMem s (up m pipe)

/-- One block of a DOWN (R315 step 5). -/
def W.takeDown (w : W) (id : Nat) (m : CollMsg) (b est : Nat) (data : Option (List W32)) (report : Option Bool) (saturated : Bool) :
    W :=
  match w.fab.coll? id with
  | some c =>
    match c.block? b with
    | some r =>
      let t := m.treeB
      if treeUp c.desc t (treeRank c.desc) == some m.source then
        if r.down then w else
        let w1 := (w.blockDone id b est data saturated).map (fun f => match report with
          | some z => f.onColl id (fun c => { c with reports := c.reports.set (if t then 1 else 0) z })
          | none => f)
        w1.map (fun f => f.sendDown id b est data false false)
      else match data with
        | some v =>
          if c.op.kind = 0 ∧ treeRank c.desc = 0 ∧ m.source = treeTop c.desc t then
            W.collDo id (fun w => (w.store c.partition (c.blockAddr b) (fpMemory v)).map (fun f => match f.coll? id with
              | some c => match c.block? b with
                | some r => f.setBlock id b { r with data := true }
                | none => f
              | none => f)) [(c.blockAddr b, 256, true)] w
          else w
        | none => w
    | none => w
  | none => w

/-- FP32 elements from the wire. -/
def fpRead (l : List Byte) : List W32 := (List.range 64).map (fun i => BitVec.ofNat 32 (beNat ((l.drop (4 * i)).take 4)))

/-- DOWN (R315, R327): Count FP32 blocks or none, then Count estimate bytes padded, then the Zero report of a slice's last
message. DEDUCED (log 41). -/
def down (m : CollMsg) (saturated : List Nat) (w : W) : W :=
  w.onMessage m (fun c w =>
    let z := if m.last && c.slice.isSome then 8 else 0
    let e := (m.count + 7) / 8 * 8
    let full := m.payload.length == 256 * m.count + e + z
    if !reduces c.op.kind || m.format != 2 || m.count = 0 || !(full || m.payload.length == e + z) then w.map Fab.dropMessage else
    let off := if full then 256 * m.count else 0
    let report := if z = 0 then none else some (bit (beNat (m.payload.drop (off + e))) 0)
    (List.range m.count).foldl (fun x i =>
      x.takeDown c.id m (m.offset + i) (m.payload.getD (off + i) 0).toNat
        (if full then some (fpRead (payloadBlock m 256 i)) else none) (if i + 1 = m.count then report else none)
        (saturated.contains (m.offset + i))) w)

/-- DOWN. `saturated` names the blocks that completed SATURATED: the message has no field for it, and a member must raise and count it
(R318). DESIGN CHOICE (logs 14, 40). -/
def execDownMsg (m : DownMsg) (s : State) : Host.Outcome State Fault Refusal := onMem s (down m.msg m.saturated)

/-- REISSUE (R317, R323). -/
def reissueMsg (m : CollMsg) (w : W) : W :=
  w.onMessage m (fun c w =>
    if !reduces c.op.kind || (m.offset % 2 == 1) != m.treeB then w.map Fab.dropMessage
    else w.meet c.id ⟨3, m.source, m.offset, m.attempt, m.newScale, none, false, (0, 0), (0, 0)⟩) false true

/-- REISSUE. -/
def execReissue (m : CollMsg) (s : State) : Host.Outcome State Fault Refusal := onMem s (reissueMsg m)

/-- AGREE_UP (R313): the maximum of a child's exponent. -/
def agreeUpMsg (m : CollMsg) (w : W) : W :=
  w.onMessage m (fun c w =>
    if !reduces c.op.kind || m.payload.length != (m.count + 7) / 8 * 8 then w.map Fab.dropMessage
    else if !(treeDown c.desc m.treeB (treeRank c.desc)).contains m.source then w
    else (List.range m.count).foldl (fun x i =>
      x.meet c.id ⟨4, m.source, m.offset + i, 0, (m.payload.getD i 0).toNat, none, false, (0, 0), (0, 0)⟩) w)

/-- AGREE_UP. -/
def execAgreeUp (m : CollMsg) (s : State) : Host.Outcome State Fault Refusal := onMem s (agreeUpMsg m)

/-- AGREE_DOWN (R313): the agreed exponent, used and sent on. -/
def agreeDownMsg (m : CollMsg) (w : W) : W :=
  w.onMessage m (fun c w =>
    if !reduces c.op.kind || m.payload.length != (m.count + 7) / 8 * 8 then w.map Fab.dropMessage
    else if treeUp c.desc m.treeB (treeRank c.desc) != some m.source then w
    else
    (List.range m.count).foldl (fun x i =>
      match x.fab.coll? c.id with
      | some d =>
        match d.block? (m.offset + i) with
        | some r =>
          if !r.pre then x else
          let v := (m.payload.getD i 0).toNat
          (x.map (fun f => f.sendAgreed d (m.offset + i) v)).agreed c.id (m.offset + i) v
        | none => x
      | none => x) w)

/-- AGREE_DOWN. -/
def execAgreeDown (m : CollMsg) (s : State) : Host.Outcome State Fault Refusal := onMem s (agreeDownMsg m)

/-- DATA (R306, R324): written, and, of a gather or broadcast, sent on to the children. -/
def dataMessage (m : CollMsg) (w : W) : W :=
  w.onMessage m (fun c w =>
    if reduces c.op.kind || m.format != 3 || m.payload.length != m.count then w.map Fab.dropMessage else
    let me := treeRank c.desc
    let w1 := w.piece c.id m.offset m.payload
      if c.op.kind ≤ 4 ∧ (treeUp c.desc m.treeB me = some m.source ∨ treeTop c.desc m.treeB = me) then
        w1.map (fun f => match f.coll? c.id with
          | some c => (c.children m.treeB).foldl (fun g k =>
              g.collCast c.id k 0x06 { c.dataMsg m.treeB m.offset m.payload with last := m.last }) f
          | none => f)
      else w1)

/-- DATA. DESIGN CHOICE (log 14). -/
def execDataMsg (m : CollMsg) (s : State) : Host.Outcome State Fault Refusal := onMem s (dataMessage m)

/-- The tree that carries an offset of a gather or broadcast (R324). -/
def Coll.treeOf (c : Coll) (off : Nat) : Bool := (if c.op.kind = 3 then off % c.op.size else off) / 256 % 2 == 1

/-- Ranges of the result on tree t that this member lacks, in pieces of at most 256 bytes (R325). -/
def Coll.lacks (c : Coll) (t : Bool) : List (Nat × Nat) :=
  let n := treeN c.desc
  if reduces c.op.kind then
    ((List.range c.op.blocks).filter (fun b => (b % 2 == 1) == t && c.op.wants n (treeRank c.desc) b &&
      match c.block? b with | some r => !r.down | none => true)).map (fun b => (256 * b, 256))
  else (((List.range (if c.op.kind = 3 then n else 1)).flatMap (fun r =>
    (pieces c.op.size 256).map (fun q => (r * c.op.size + q.1, q.2)))).filter (fun q => c.treeOf q.1 == t && !c.has q.1 q.2))

/-- The PULLs of ranges sent to the Repair rank, the last of them marked. -/
def Fab.sendPulls (f : Fab) (c : Coll) (t : Bool) : List (Nat × Nat) → Fab
  | [] => f
  | q :: r => (f.collSend c (treeRepair c.desc) 0x08 { (c.msg t 0 q.1 q.2 3 []) with last := r.isEmpty }).sendPulls c t r

/-- CUT (R325): the member pulls every range of the tree that it lacks from its Repair rank. The root of a tree of a gather or
broadcast may be cut by the rank whose source it multicasts (R342). DESIGN CHOICE (log 42). -/
def cutMsg (m : CollMsg) (w : W) : W :=
  w.onMessage m (fun c w =>
    let from_ := treeUp c.desc m.treeB (treeRank c.desc) == some m.source ||
      (!reduces c.op.kind && treeTop c.desc m.treeB == treeRank c.desc)
    if !from_ || c.repairs.contains m.treeB then w else
    w.map (fun f => (f.onColl c.id (fun c => { c with repairs := c.repairs ++ [m.treeB] })).sendPulls c m.treeB (c.lacks m.treeB)))

/-- CUT. -/
def execCut (m : CollMsg) (s : State) : Host.Outcome State Fault Refusal := onMem s (cutMsg m)

/-- PULL (R325): answered when the range is complete here. DESIGN CHOICE (log 42). -/
def pullMsg (m : CollMsg) (w : W) : W :=
  w.onMessage m (fun c w =>
    w.map (fun f => f.onColl c.id (fun c => { c with
      pulls := c.pulls ++ [(m.source, m.treeB, m.offset, m.count)],
      pullsEnd := if m.last then c.pullsEnd ++ [(m.source, m.treeB)] else c.pullsEnd })))

/-- PULL. -/
def execPull (m : CollMsg) (s : State) : Host.Outcome State Fault Refusal := onMem s (pullMsg m)

/-- A block that a repair brought: written and sent on to the children. Its estimate follows R314 from the result, whose canonical NaNs
are its non-finite elements (R95). DESIGN CHOICE (log 42). -/
def W.repaired (w : W) (id b : Nat) (bytes : List Byte) (saturated : Bool) : W :=
  match w.fab.coll? id with
  | some c =>
    match c.block? b with
    | some r =>
      if r.down then w else
      let v := (List.range 64).map (fun i => BitVec.ofNat 32 (leNat ((bytes.drop (4 * i)).take 4)))
      let est := newEstimate r.x (treeH c.desc) (v.any (· == 0x7FC00000)) saturated v
      (w.blockDone id b est (some v) saturated).map (fun f => f.sendDown id b est (some v) false true)
    | none => w
  | none => w

/-- PULL_DATA (R325): a range of this member's repair, in whole blocks of its tree for a reduction. DESIGN CHOICE (log 42). -/
def pullDataMsg (m : CollMsg) (saturated : Bool) (w : W) : W :=
  w.onMessage m (fun c w =>
    if m.payload.length != m.count then w.map Fab.dropMessage
    else if !c.repairs.contains m.treeB || m.source != treeRepair c.desc then w
    else if reduces c.op.kind then
      if m.offset % 256 != 0 || m.count % 256 != 0 then w else
      ((blocksIn m.offset m.count).filter (fun b => (b % 2 == 1) == m.treeB)).foldl (fun x b =>
        x.repaired c.id b ((m.payload.drop (256 * b - m.offset)).take 256) saturated) w
    else if c.has m.offset m.count then w
    else
      let t := c.treeOf m.offset
      (w.piece c.id m.offset m.payload).map (fun f => match f.coll? c.id with
        | some c => (c.children t).foldl (fun g k => g.collCast c.id k 0x06 (c.dataMsg t m.offset m.payload) true) f
        | none => f))

/-- PULL_DATA, with whether its block completed SATURATED (R318). DESIGN CHOICE (log 40). -/
def execPullData (m : PulledMsg) (s : State) : Host.Outcome State Fault Refusal :=
  onMem s (pullDataMsg m.msg m.saturated)

/-- NOT_READY (R311): the message it answers is repeated after the interval. One of another epoch, or for a collective that is over, is
dropped as any other message is. -/
def notReadyMsg (m : CollMsg) (f : Fab) : Fab :=
  match f.collFor m true with
  | .drop => f.dropMessage
  | .stale => f.dadd 0x6030 3 1
  | .notReady | .mismatch _ => f
  | .ok c =>
    match c.outbox.reverse.find? (fun o => o.dest == m.source && o.msg.treeB == m.treeB && o.msg.attempt == m.attempt &&
        o.msg.offset == m.offset && o.msg.count == m.count) with
    | some o => { f with repeats := f.repeats ++ [⟨f.nextRepeat, c.id, o⟩], nextRepeat := f.nextRepeat + 1 }
    | none => f

/-- NOT_READY. -/
def execNotReady (m : CollMsg) (s : State) : Host.Outcome State Fault Refusal := onFab s (notReadyMsg m)

/-- NOT_READY_REPEAT (R311): the message is sent again and counted; one of a collective that is no more is forgotten. -/
def notReadyRepeat (id : Nat) (f : Fab) : Fab :=
  match f.repeats.find? (fun r => r.id == id) with
  | some r =>
    let f1 := { f with repeats := f.repeats.filter (fun x => x.id != id) }
    match f1.coll? r.coll with
    | some c =>
      let toChild := [0x02, 0x03, 0x05, 0x06].contains r.message.type && Nat.ble c.op.kind 4
      if toChild && c.cuts.contains r.message.dest then f1 else
      let cast := r.message.type == 0x02 || (r.message.type == 0x06 && Nat.ble c.op.kind 4)
      (f1.flowSend (c.flow r.message.dest) 0 (collBytes r.message.type r.message.msg)
        (if cast then some (c.id, r.message.dest, true) else none)).dadd 0x6024 (c.partition + 1) 1
    | none => f1
  | none => f

/-- NOT_READY_REPEAT. -/
def execNotReadyRepeat (id : Nat) (s : State) : Host.Outcome State Fault Refusal := onFab s (notReadyRepeat id)

/-- ABORT (R326): the collective fails with ABORTED_PEER, and the ABORT goes on. -/
def abortMessage (m : CollMsg) (w : W) : W :=
  w.onMessage m (fun c w => w.failColl c.id kolasAborted 0 (some m.source)) true

/-- ABORT. -/
def execAbortMsg (m : CollMsg) (s : State) : Host.Outcome State Fault Refusal := onMem s (abortMessage m)

/-! ### Completion -/

/-- Bytes a member receives of a collective of bytes. DESIGN CHOICE (log 42). -/
def Coll.dueBytes (c : Coll) : Nat :=
  if c.op.kind = 6 then ((c.entries.drop (treeN c.desc)).map (·.2)).sum
  else c.op.resultBytes (treeN c.desc) (treeRank c.desc)

/-- The three conditions of R316 hold. -/
def W.collFinished (w : W) (c : Coll) : Bool :=
  c.phase == .running &&
  (if reduces c.op.kind then
    (List.range c.op.blocks).all (fun b => match c.block? b with
      | some r => r.down && (r.data || !c.op.wants (treeN c.desc) (treeRank c.desc) b)
      | none => false)
  else (c.ranges.map (·.2)).sum == c.dueBytes && (!c.casts || Nat.ble c.op.size (256 * c.next))) &&
  (c.partners ++ [treeTop c.desc false, treeTop c.desc true]).all (fun k =>
    c.cuts.contains k || w.fab.unackedCast c k (fun _ => true) == 0) &&
  !w.fab.repeats.any (fun r => r.coll == c.id)

/-- The slices of a seal become Reduced (R286): the slots are released, Zero is set, the Layer entries are marked (R299).
DEDUCED (log 41). -/
def W.reduceSlices (w : W) (c : Coll) : W :=
  let zero := c.zero false && c.zero true
  c.sealed.foldl (fun x n =>
    match x.fab.slice? c.partition n with
    | some s =>
      let x1 := (x.finishSlice c.partition s 4).setField c.partition (x.fab.sliceAddr c.partition n) 336 336 (if zero then 1 else 0)
      let x2 := x1.markLayer c.partition s.layer 370
      if zero then x2 else x2.markLayer c.partition s.layer 371
    | none => x) w

/-- COLLECTIVE_COMPLETE (R160, R286, R316, R318), once what this member's source still has to send has gone out (R324). -/
def collComplete (id : Nat) (w0 : W) : W :=
  let w := w0.castAll
  match w.fab.coll? id with
  | some c =>
    if !w.collFinished c then w else
    let sat := (List.range c.op.blocks).find? (fun b => match c.block? b with | some r => r.saturated | none => false)
    (w.reduceSlices c).map (fun f =>
      let f1 := f.dropColl c
      let f2 := match c.launcher with
        | .op cl _ _ _ => if c.op.scope = 3 then f1 else f1.applySignal cl c.op.scope c.op.ctr (some 1) 0
        | .job _ _ => f1
      match sat with
      | some b => f2.collLauncher c (if reduces c.op.kind then kolasSaturated else 0) b
      | none => f2.collLauncher c 0 0)
  | none => w

/-- COLLECTIVE_COMPLETE. -/
def execCollectiveComplete (id : Nat) (s : State) : Host.Outcome State Fault Refusal := onMem s (collComplete id)

end Sys2Proof.Machine
end

