-- ==== Sys2Proof/Machine/Host.lean ====
section
/-! DEFINITION. The host interface: doorbells, rings and the fetch of entries (R389 to R394), completions (R392, R393), host
windows (R388), mailboxes (R397 to R400), and the ring commands decided in the host chapter (R395). -/

namespace Sys2Proof.Machine

open Sys2Proof

/-! ### Rings -/

/-- Entries of a ring (R389). -/
def Ring.size (r : Ring) : Nat := 2 ^ r.sizeExp

/-- Submission ring n. -/
def Vf.ring (v : Vf) (n : Nat) : Ring := v.sq.get .reset n

/-- SQ_TAIL_DOORBELL (R390): an index past the ring disables it and sets its error bit; a disabled ring ignores it.
DESIGN CHOICE (log 49). -/
def sqTail (p ring value : Nat) (f : Fab) : Fab :=
  let r := (f.vf p).ring ring
  if 16 ≤ p ∨ 8 ≤ ring ∨ !r.enable then f
  else if r.size ≤ value % 65536 then
    f.onVf p (fun v => { v with sq := v.sq.set ring { r with enable := false }, errors := setBit v.errors ring true })
  else f.onVf p (fun v => { v with sq := v.sq.set ring { r with doorbell := value % 65536 } })

/-- SQ_TAIL_DOORBELL. -/
def execSqTailDoorbell (p ring value : Nat) (s : State) : Host.Outcome State Fault Refusal := onHost s (sqTail p ring value)

/-- The completion ring has room (R393). -/
def Vf.room (v : Vf) : Bool := (v.cq.head + 1) % v.cq.size != v.cq.doorbell

/-- A submission ring has an entry to fetch. -/
def Ring.waiting (r : Ring) : Bool := r.enable && r.head != r.doorbell

/-- The ring served next, in round robin (R391). -/
def Vf.next (v : Vf) : Option Nat :=
  ((List.range 8).map (fun i => (v.nextRing + i) % 8)).find? (fun n => (v.ring n).waiting)

/-- The device fetches entries for a function (R393, R425, R443, R465): it is served, its partition is not in a reset, its completion
ring has room, fewer than 4,096 commands are in flight, and there is no EWS_N sequence or hold. -/
def Fab.fetches (f : Fab) (p : Nat) : Bool :=
  Nat.blt p 16 && f.phase == .running && f.served (p + 1) && !f.resetWaits.contains p && (f.vf p).room && Nat.blt (f.vf p).openCmds.length 4096 && f.dget 0x9200 2 == 0

/-- The fields of a submission entry (Table "Submission entry"). -/
def entryOf (p ring serial : Nat) (b : BitVec 512) : Entry :=
  let v := b.toNat
  { partition := p, ring := ring, opcode := bitsOf v 511 504, reserved := bitsOf v 503 480, tag := bitsOf v 479 448,
    words := (List.range 7).map (fun i => bitsOf v (447 - 64 * i) (384 - 64 * i)), serial := serial }

/-- Bits that each operand word of a command uses (Table "Ring commands"); none for a reserved opcode. DEDUCED (log 50). -/
def operandMask (op : Nat) : Option (List Nat) :=
  let all := 2 ^ 64 - 1
  let w32 := 2 ^ 32 - 1
  match op with
  | 0x00 | 0x09 | 0x21 => some []
  | 0x01 => some [all, all, all, all]
  | 0x02 | 0x04 | 0x32 => some [w32]
  | 0x03 => some [all, all, 0x1FFF]
  | 0x05 => some [0x3F, 0xFFFF]
  | 0x06 => some [0x3F, w32]
  | 0x07 => some [0x3F]
  | 0x08 => some [0xFFFF0007, all]
  | 0x10 => some [0xFFFF, all]
  | 0x11 => some [0xFFFF]
  | 0x12 | 0x13 | 0x14 | 0x15 | 0x16 => some [w32, 2 ^ 58 - 1, all, 0x1FFFF]
  | 0x20 => some [w32, 0x3F]
  | 0x30 => some [w32, all]
  | 0x31 => some [w32, 1]
  | 0x33 => some [all]
  | _ => none

/-- A LAUNCH or BATCH_ADMIT with the tag of a LAUNCH or batch still outstanding (R394). -/
def Fab.tagTaken (f : Fab) (e : Entry) : Bool :=
  (e.opcode == 0x01 || e.opcode == 0x03) &&
  ((f.vf e.partition).openCmds.any (fun x => (x.1.opcode == 0x01 || x.1.opcode == 0x03) && x.1.tag == e.tag) ||
    f.batches.any (fun b => b.partition == e.partition && b.tag == e.tag))

/-- BAD_COMMAND at the fetch (R394). -/
def Fab.badEntry (f : Fab) (e : Entry) : Bool :=
  match operandMask e.opcode with
  | some m => e.reserved != 0 || f.tagTaken e || (e.opcode == 0x08 && Nat.blt 3 (bitsOf (word e 0) 2 0)) ||
      (List.range 7).any (fun i => (word e i) &&& (m.getD i 0) != word e i)
  | none => true

/-- SUBMISSION_FETCH (R390, R391, R393, R394): `entry` is what the device reads at the head of the ring it serves. -/
def submissionFetch (p : Nat) (entry : BitVec 512) (f : Fab) : Fab :=
  match f.fetches p, (f.vf p).next with
  | true, some n =>
    let r := (f.vf p).ring n
    let e := entryOf p n (f.vf p).nextSerial entry
    let f1 := f.onVf p (fun v => { v with
      sq := v.sq.set n { r with head := (r.head + 1) % r.size }, nextRing := (n + 1) % 8,
      openCmds := v.openCmds ++ [(e, false)], nextSerial := v.nextSerial + 1 })
    if f.badEntry e then f1.completeEntry e .badCommand
    else f1.onVf p (fun v => { v with fetched := v.fetched ++ [e] })
  | _, _ => f

/-- SUBMISSION_FETCH. -/
def execSubmissionFetch (p : Nat) (entry : BitVec 512) (s : State) : Host.Outcome State Fault Refusal :=
  onHost s (submissionFetch p entry)

/-- CQ_HEAD_DOORBELL (R392): bits [15:0] return entries, an index past the ring being ignored; bit [31] arms vector 0.
DESIGN CHOICE (log 49). -/
def cqHead (p : Nat) (value : W32) (f : Fab) : Fab :=
  if 16 ≤ p then f else
  f.onVf p (fun v =>
    let n := value.toNat % 65536
    { v with
      cq := if n < v.cq.size then { v.cq with doorbell := n } else v.cq, msixArmed := v.msixArmed || value.getLsbD 31 })

/-- CQ_HEAD_DOORBELL. -/
def execCqHeadDoorbell (p : Nat) (value : W32) (s : State) : Host.Outcome State Fault Refusal := onHost s (cqHead p value)

/-- One entry written into the completion ring (R392). -/
def Fab.writeCompletion (f : Fab) (p : Nat) (c : Completion) : Fab :=
  let v := f.vf p
  let h := (v.cq.head + 1) % v.cq.size
  let f1 := f.onVf p (fun v => { v with
    written := v.written ++ [(v.cq.head, v.cq.phase, c)],
    cq := { v.cq with head := h, phase := if h = 0 then !v.cq.phase else v.cq.phase }, msixArmed := false })
  if v.msixArmed then f1.interrupt .vf p 0 else f1

/-- COMPLETION_WRITE (R393): NOTIFY_LOST before anything newer than the drops it counts, then the queue in order. -/
def completionWrite (p : Nat) (f : Fab) : Fab :=
  let v := f.vf p
  if 16 ≤ p ∨ !v.cq.enable ∨ !v.room then f
  else if 0 < v.lost then
    (f.onVf p (fun v => { v with lost := 0 })).writeCompletion p ⟨0xFF, HostStatus.notifyLost.code, 0, v.lost⟩
  else match v.queue with
    | c :: r => (f.onVf p (fun v => { v with queue := r })).writeCompletion p c
    | [] => f

/-- COMPLETION_WRITE. -/
def execCompletionWrite (p : Nat) (s : State) : Host.Outcome State Fault Refusal := onHost s (completionWrite p)

/-- A register of a ring written (R389, R392): Base and Size exponent only while it is disabled, an exponent outside 6 to 16
being ignored; enabling sets the head and the doorbell to 0 and, for the completion ring, the phase to 1.
DESIGN CHOICE (log 49). -/
def Ring.write (r : Ring) (field : RingField) (value : Nat) : Ring :=
  match field with
  | .base => if r.enable then r else { r with base := value % 2 ^ 64 / 4096 * 4096 }
  | .sizeExponent => if r.enable ∨ value < 6 ∨ 16 < value then r else { r with sizeExp := value }
  | .enable =>
    if value % 2 = 0 then { r with enable := false }
    else if r.enable then r else { r with enable := true, head := 0, doorbell := 0, phase := true }

/-- RING_REGISTER_WRITE: rings 0 to 7 are the submission rings, 8 the completion ring. DESIGN CHOICE (log 49). -/
def ringRegister (p ring : Nat) (field : RingField) (value : Nat) (f : Fab) : Fab :=
  if 16 ≤ p ∨ 8 < ring then f
  else if ring = 8 then f.onVf p (fun v => { v with cq := v.cq.write field value })
  else f.onVf p (fun v =>
    let r := (v.ring ring).write field value
    { v with
      sq := v.sq.set ring r, errors := if r.enable && !(v.ring ring).enable then setBit v.errors ring false else v.errors })

/-- RING_REGISTER_WRITE. -/
def execRingRegisterWrite (p ring : Nat) (field : RingField) (value : Nat) (s : State) : Host.Outcome State Fault Refusal :=
  onHost s (ringRegister p ring field value)

/-- HOST_WINDOW_TABLE_WRITE (R388): an entry of the shadow table, whose length is a multiple of 4 KiB: it counts whole ones; the reserved
bytes are not kept. DESIGN CHOICE (log 49). -/
def hostWindow (p i base length flags : Nat) (f : Fab) : Fab :=
  if 16 ≤ p ∨ 16 ≤ i then f else
  let s := f.scope p
  let n := length / 4096 * 4096
  f.setScope p { s with shadow := { s.shadow with
    hostWindows := if n = 0 then s.shadow.hostWindows.clear (· == i)
      else s.shadow.hostWindows.set i (base, n, flags % 4) } }

/-- HOST_WINDOW_TABLE_WRITE. -/
def execHostWindowTableWrite (p i base length flags _reserved : Nat) (s : State) : Host.Outcome State Fault Refusal :=
  onHost s (hostWindow p i base length flags)

/-! ### Mailboxes -/

/-- A party may send to mailboxes of partition p: a function's number is fixed, so only the parties of the partition and the
PF and firmware exist. -/
def mailboxOk (p m : Nat) : Bool := Nat.blt p 16 && Nat.blt m 64

/-- A party reaches the mailboxes: a host function needs the PCIe link. -/
def Fab.partyReaches (f : Fab) (who : Party) : Bool := who == .firmware || f.inPins.linkUp

/-- The mailboxes work while the firmware runs, and for the host during a warm reset too (R400, R464, R467). -/
def Fab.mailboxesFor (f : Fab) (who : Party) : Bool := f.phase == .running || (f.phase == .warmHeld && who != .firmware)

/-- MAILBOX_SEND (R398). -/
def execMailboxSend (who : Party) (p m : Nat) (message : BitVec 512) (s : State) : Host.Outcome State Fault Refusal :=
  onAny s (fun w => w.map (fun f =>
    if f.mailboxesFor who && mailboxOk p m && f.partyReaches who then f.send who p m message else f))

/-- MAILBOX_RETRACT (R400): the sender's message, waiting or in the slot and not taken, goes; the next one lands. The firmware retracts
nothing: what it sends are the agent's responses and event records (R416). -/
def mailboxRetract (who : Party) (p m : Nat) (f : Fab) : Fab :=
  let b := f.mailbox p m
  if who = .firmware || !mailboxOk p m || !f.partyReaches who || !b.holds who then f else
  let slot := match b.slot with | some x => if x.1 = who then none else some x | none => none
  (f.setMailbox p m { (b.setCtl who { b.ctl who with state := 3 }) with
    slot := slot, waiting := b.waiting.filter (fun x => x.1 != who) }).land p m

/-- MAILBOX_RETRACT. -/
def execMailboxRetract (who : Party) (p m : Nat) (s : State) : Host.Outcome State Fault Refusal :=
  onAny s (fun w => w.map (fun f => if f.mailboxesFor who then mailboxRetract who p m f else f))

/-- The Rinay frame of a mailbox message, in network order (R410, R415); payload past Length stays with it as part of the
payload so that its reserved bytes can be checked. -/
def messageFrame (m : BitVec 512) : Frame :=
  let l := leBytes 64 m.toNat
  let h := beNat (l.take 16)
  { version := bitsOf h 127 124, kind := bitsOf h 123 120, status := bitsOf h 119 112, requestId := bitsOf h 111 96,
    index := bitsOf h 95 80, subindex := bitsOf h 79 72, device := bitsOf h 71 70, reply := bitsOf h 69 64,
    offset := bitsOf h 63 48, length := bitsOf h 47 41, last := bit h 40, type := bitsOf h 39 32, sequence := bitsOf h 31 0,
    payload := l.drop 16 }

/-- Function number of a stamp. -/
def stampFunction (st : W32) : Nat := st.toNat % 256

/-- The agent's held responses for a reply mailbox: the oldest is sent when the mailbox is free for it (R416). -/
def Fab.sendResponse (f : Fab) (p m : Nat) : Fab :=
  if (f.mailbox p m).holds .firmware then f else
  let here := fun (r : Response) => match r.dest.transport with
    | .mailbox q fn => q == p && fn != 0xFE && r.dest.reply == m
    | _ => false
  match f.agent.responses.find? here with
  | some r =>
    let fr : Frame :=
      { version := 1, kind := 3, status := r.status, requestId := r.dest.requestId, index := r.index, subindex := r.subindex,
        device := r.device, reply := m, offset := r.offset, length := r.payload.length, last := r.last, type := r.type, sequence := r.sequence,
        payload := r.payload }
    ({ f with agent := { f.agent with responses := removeFirst (· == r) f.agent.responses } }).send .firmware p m (frameMessage fr)
  | none => f

/-- A place of the firmware in a mailbox came free: the agent's next response goes, or, in mailbox 1, the next event record
(R416, R430). -/
def Fab.firmwareNext (f : Fab) (p m : Nat) : Fab :=
  let f1 := f.sendResponse p m
  if m = 1 then f1.notifyTenant p else f1

/-- MAILBOX_TAKE (R399): only by the receiver. The slot empties, the sender sees taken and its vector 1, the next message
lands. A frame taken by the dictionary agent from mailbox 0 has arrived (R417). -/
def mailboxTake (who : Party) (p m : Nat) (f : Fab) : Fab :=
  let b := f.mailbox p m
  match b.slot with
  | some (sender, stamp, msg) =>
    if !mailboxOk p m || !f.partyReaches who || f.receiver p m != who then f else
    let f1 := ((f.setMailbox p m { (b.setCtl sender { b.ctl sender with state := 2 }) with slot := none }).interrupt sender p 1).land p m
    let f2 := if sender = .firmware then f1.firmwareNext p m else f1
    if m = 0 then
      let fr := messageFrame msg
      let rq : Requester := ⟨.mailbox p (stampFunction stamp), stamp.toNat, fr.requestId, fr.reply, .none⟩
      { f2 with agent := { f2.agent with queue := f2.agent.queue ++ [(rq, fr)] } }
    else f2
  | none => f

/-- MAILBOX_TAKE. -/
def execMailboxTake (who : Party) (p m : Nat) (s : State) : Host.Outcome State Fault Refusal :=
  onAny s (fun w => w.map (fun f => if f.mailboxesFor who then mailboxTake who p m f else f))

/-! ### The configuration space and BAR0 -/

/-- What a BAR0 offset is (Table "Function BAR0"). A slot, a control and a send buffer name their partition and mailbox. -/
inductive BarPlace where
  | identity
  | ringRegisters (ring : Nat)
  | tailDoorbell (ring : Nat)
  | headDoorbell
  | receiveSlot (p m : Nat)
  | receiveControl (p m : Nat)
  | sendBuffer (p m : Nat)
  | sendControl (p m : Nat)
  | hostWindow (i : Nat)
  deriving DecidableEq, Repr

/-- Vendor ID, device ID and class code of function n, 0 being the PF (R384). -/
def pciIdentity (fn : Nat) : Nat × Nat × Nat := (0x1E5A, if fn = 0 then 0x0025 else 0x0026, 0x120000)

/-- Bytes of a function's BAR0 (R387). -/
def barSize (fn : Nat) : Nat := if fn = 0 then 0x100000 else 0x10000

/-- BAR0 of VF p + 1; `none` is an unlisted offset, which reads 0 and ignores writes (R387). -/
def vfBar (p offset : Nat) : Option BarPlace :=
  if offset < 0x100 then some .identity
  else if offset < 0x180 then some (.ringRegisters ((offset - 0x100) / 16))
  else if offset < 0x190 then some (.ringRegisters 8)
  else if offset < 0x1000 then none
  else if offset < 0x1020 then some (.tailDoorbell ((offset - 0x1000) / 4))
  else if offset < 0x1024 then some .headDoorbell
  else if offset < 0x2000 then none
  else if offset < 0x3000 then some (.receiveSlot p ((offset - 0x2000) / 64))
  else if offset < 0x3200 then some (.receiveControl p ((offset - 0x3000) / 8))
  else if offset < 0x4000 then none
  else if offset < 0x5000 then some (.sendBuffer p ((offset - 0x4000) / 64))
  else if offset < 0x5200 then some (.sendControl p ((offset - 0x5000) / 8))
  else if offset < 0x6000 then none
  else if offset < 0x6200 then some (.hostWindow ((offset - 0x6000) / 32))
  else none

/-- BAR0 of the PF (R387), the send buffers of partitions 4 to 15 where the note puts them. -/
def pfBar (offset : Nat) : Option BarPlace :=
  if offset < 0x100 then some .identity
  else if offset < 0x4000 then none
  else if offset < 0x6000 then some (.sendControl ((offset - 0x4000) / 0x200) (offset % 0x200 / 8))
  else if offset < 0x8000 then none
  else if offset < 0xA000 then some (.receiveControl ((offset - 0x8000) / 0x200) (offset % 0x200 / 8))
  else if offset < 0xC000 then none
  else if offset < 0x10000 then some (.sendBuffer ((offset - 0xC000) / 0x1000) (offset % 0x1000 / 64))
  else if offset < 0x20000 then some (.receiveSlot ((offset - 0x10000) / 0x1000) (offset % 0x1000 / 64))
  else if 0x24000 ≤ offset ∧ offset < 0x30000 then some (.sendBuffer ((offset - 0x20000) / 0x1000) (offset % 0x1000 / 64))
  else none

/-- What a read or write of a function's BAR0 reaches (R387): the commands name the places by themselves. -/
def barPlace (fn offset : Nat) : Option BarPlace := if fn = 0 then pfBar offset else vfBar (fn - 1) offset

/-- Function identity (R387): the function number and its partition, 0x10 for the PF. -/
def functionIdentity (fn : Nat) : Nat := fn % 256 + 256 * (if fn = 0 then 0x10 else fn - 1)

/-! ### Commands of the host chapter -/

/-- NOP_COMMAND completes DONE. -/
def execNopCommand (e : Entry) (s : State) : Host.Outcome State Fault Refusal :=
  onFab s (fun f => f.ring e 0x00 (fun f => f.completeEntry e .done))

/-- A counter entry arrives: it waits for every earlier entry of its ring (R395). -/
def Fab.orderCounter (f : Fab) (e : Entry) : Fab :=
  let f1 := f.onVf e.partition (fun v => { v with ordered := v.ordered ++ [e] })
  Fab.flushOrdered e.partition (f1.vf e.partition).ordered.length f1

/-- COUNTER_SIGNAL (R120, R395): n outside 1 to 65,535 is BAD_COMMAND. DEDUCED (log 50). -/
def execCounterSignal (e : Entry) (s : State) : Host.Outcome State Fault Refusal :=
  onFab s (fun f => f.ring e 0x05 (fun f => if word e 1 = 0 then f.completeEntry e .badCommand else f.orderCounter e))

/-- COUNTER_SET (R120, R395). -/
def execCounterSet (e : Entry) (s : State) : Host.Outcome State Fault Refusal :=
  onFab s (fun f => f.ring e 0x06 (fun f => f.orderCounter e))

/-- COUNTER_READ: Detail [31:0] is the package counter's value (R395, R396). -/
def execCounterRead (e : Entry) (s : State) : Host.Outcome State Fault Refusal :=
  onFab s (fun f => f.ring e 0x07 (fun f =>
    f.completeEntry e .done (f.packageCtr.get 0 (64 * e.partition + word e 0 % 64)).toNat))

end Sys2Proof.Machine
end

