-- ==== Sys2Proof/Machine/Setup.lean ====
section
/-! DEFINITION. Setup state: writes into the shadow bank and their checks (R215, R303, R365, R366), commits and their drains
(R26 to R29, R310, R371). -/

namespace Sys2Proof.Machine

open Sys2Proof

/-! ### SETUP_WRITE -/

/-- The kinds of setup entry (Table "Ring commands"). -/
inductive SetupKind
  | stream
  | tree
  | endpoint
  | exportEntry
  deriving DecidableEq, Repr

/-- Code of a kind in W0[2:0]. -/
def SetupKind.code : SetupKind → Nat
  | .stream => 0
  | .tree => 1
  | .endpoint => 2
  | .exportEntry => 3

/-- Entries of a kind (R215, R302, R365, R366). -/
def SetupKind.entries : SetupKind → Nat
  | .stream => 1024
  | .tree => 256
  | .endpoint => 4096
  | .exportEntry => 256

/-- A stream descriptor passes Table "Stream descriptor" (R215). DESIGN CHOICE (log 52). -/
def Fab.streamOk (f : Fab) (p : Nat) (d : BitVec 512) : Bool :=
  let x := descField d
  let scope := x 53 52
  x 511 320 == 0 && x 303 256 == 0 && x 127 64 == 0 && x 45 40 == 0 && x 15 0 == 0 && x 61 60 != 3 &&
  (x 61 60 == 2 || x 319 304 == 0) && x 255 192 % 64 == 0 && f.inWindows p (x 255 192) 64 && (fmtOfCode (x 59 54)).isSome &&
  (scope == 3 || Nat.blt (x 51 46) (counterCount scope)) && Nat.ble 1 (x 39 32) && Nat.ble (x 39 32) 64 &&
  Nat.ble 16 (x 31 16) && Nat.ble (x 31 16) 1024

/-- A bank with an entry of a kind written. -/
def Bank.write (b : Bank) (k : SetupKind) (i : Nat) (d : BitVec 512) : Bank :=
  match k with
  | .stream => { b with streams := b.streams.set i d }
  | .tree => { b with trees := b.trees.set i d }
  | .endpoint => { b with endpoints := b.endpoints.set i d }
  | .exportEntry => { b with exportTbl := b.exportTbl.set i d }

/-- The master of a cascade sends something to every member whose link is up (R380). DEDUCED (log 71). -/
def Fab.toMembers (f : Fab) (o : Nat → NetOut) : Fab :=
  if f.inCascade && f.eff 0x5050 2 == 0 then
    (([1, 2, 3].filter (fun k => Nat.blt k (f.eff 0x5050 1) && bit (f.dget 0x5050 3) k))).foldl (fun g k => g.emit (o k)) f
  else f

/-- SETUP_WRITE of one kind: BAD_COMMAND for an index past the table, OUT_OF_MAP for a source outside the host windows, and
BAD_DESCRIPTOR for a bad stream descriptor (R215, R388, R394). -/
def setupWrite (e : Entry) (source : BitVec 512) (k : SetupKind) (f : Fab) : Fab :=
  if bitsOf (word e 0) 2 0 ≠ k.code then f else
  f.ring e 0x08 (fun f =>
    let i := bitsOf (word e 0) 31 16
    if k.entries ≤ i then f.completeEntry e .badCommand
    else if !f.inHostWindow e.partition (word e 1) 64 false then f.completeEntry e .outOfMap
    else if k = .stream ∧ !f.streamOk e.partition source then f.completeEntry e .badDescriptor
    else
      let s := f.scope e.partition
      ((f.setScope e.partition { s with shadow := s.shadow.write k i source }).toMembers (fun m =>
        .cascadeSetup m e.partition k.code i source)).completeEntry e .done)

/-- SETUP_WRITE_STREAM. -/
def execSetupWriteStream (e : Entry) (source : BitVec 512) (s : State) : Host.Outcome State Fault Refusal :=
  onFab s (setupWrite e source .stream)

/-- SETUP_WRITE_TREE. -/
def execSetupWriteTree (e : Entry) (source : BitVec 512) (s : State) : Host.Outcome State Fault Refusal :=
  onFab s (setupWrite e source .tree)

/-- SETUP_WRITE_ENDPOINT. -/
def execSetupWriteEndpoint (e : Entry) (source : BitVec 512) (s : State) : Host.Outcome State Fault Refusal :=
  onFab s (setupWrite e source .endpoint)

/-- SETUP_WRITE_EXPORT. -/
def execSetupWriteExport (e : Entry) (source : BitVec 512) (s : State) : Host.Outcome State Fault Refusal :=
  onFab s (setupWrite e source .exportEntry)

/-! ### SETUP_COMMIT -/

/-- The permutation table at an address is a bijection on 0 to n - 1 (R303). -/
def W.bijection (w : W) (p a n : Nat) : Bool :=
  let l := (List.range n).map (fun i => w.loadNat p (a + 2 * i) 2)
  (List.range n).all l.contains

/-- An entry of a member table is that of a Kolas peer with no reserved field set (R302, R365). -/
def memberOk (e : Nat) : Bool := bitsOf e 279 272 == 0 && bitsOf e 203 0 == 0 && bitsOf e 211 209 == 1

/-- The fields of a tree descriptor pass (R303, Table "Tree descriptor"). The estimate table has no length of its own: its bytes are
tested at each launch (R307). DESIGN CHOICE (log 52). -/
def Fab.treeOk (f : Fab) (p : Nat) (d : BitVec 512) : Bool :=
  let x := descField d
  let n := treeN d
  let inside := fun a k => f.inWindows p a k
  let group := 2 ^ treeG d
  Nat.blt (treeRank d) n && (n == 1 || (Nat.blt (treeRepair d) n && treeRepair d != treeRank d)) &&
  Nat.ble (treeH d) 30 && Nat.ble n (2 ^ treeH d) && Nat.ble (treeG d) 12 && (treeG d == 0 || n % group == 0) &&
  (n == 1 || (Nat.ble 1 (x 175 160) && Nat.blt (x 175 160) n)) && Nat.ble 1 (f.mapRange 0xB120 (treeDie d) p).2 &&
  inside (x 511 448) (64 * n) && (x 447 384 != 0 || treeAgree d) &&
  (x 447 384 == 0 || (x 447 384 % 64 == 0 && inside (x 447 384) 1)) &&
  (x 383 320 == 0 || (x 383 320 % 64 == 0 && inside (x 383 320) (4 * 2 ^ 20) &&
    (match f.locate none (x 383 320) with | .lpddr b _ => b == treeDie d | _ => false))) &&
  (x 319 256 == 0 || inside (x 319 256) (2 * n)) && Nat.ble 1 (x 145 136) && x 135 0 == 0

/-- The tables of a tree, read at its commit: the member table, and the permutation table if it has one (R302, R303). -/
def treeTables (d : BitVec 512) : List (Nat × Nat × Bool) :=
  let x := descField d
  (x 511 448, 64 * treeN d, false) :: (if x 319 256 = 0 then [] else [(x 319 256, 2 * treeN d, false)])

/-- A tree descriptor may become live: its fields pass, and so do its tables (R303, R365). DESIGN CHOICE (log 52). -/
def W.treeOk (w : W) (p : Nat) (d : BitVec 512) : Bool :=
  let x := descField d
  w.fab.treeOk p d && (List.range (treeN d)).all (fun r => memberOk (w.loadNat p (x 511 448 + 64 * r) 64)) &&
  (x 319 256 == 0 || w.bijection p (x 319 256) (treeN d))

/-- An endpoint entry may become live beside the stream descriptors of its bank (R365): one that a stream names as its peer window is
an RDMA window. DESIGN CHOICE (log 52). -/
def endpointOk (streams : Tbl (BitVec 512)) (i : Nat) (d : BitVec 512) : Bool :=
  let x := descField d
  (x 211 209 == 2 || !streams.any (fun s => descField s.2 61 60 == 2 && descField s.2 319 304 == i)) &&
  x 279 272 == 0 && x 203 0 == 0 && Nat.ble (x 211 209) 3 && (x 211 209 != 2 || x 205 204 != 0)

/-- An export entry may become live among the others (R366). -/
def Fab.exportOk (f : Fab) (p : Nat) (all : Tbl (BitVec 512)) (i : Nat) (d : BitVec 512) : Bool :=
  let x := descField d
  let n := x 447 408
  x 407 392 == 0 && x 357 256 == 0 && x 127 0 == 0 && n % 64 == 0 && Nat.ble n (2 ^ 36) && x 511 448 % 64 == 0 &&
  (n == 0) == (x 359 358 == 0) && (n == 0 || f.inWindows p (x 511 448) n) &&
  (n == 0 || !all.any (fun o => o.1 != i && descField o.2 447 408 != 0 && descField o.2 391 360 == x 391 360))

/-- The shadow bank less the entries that a commit refuses. DEDUCED (log 51). -/
def W.accepted (w : W) (p : Nat) (b : Bank) : Bank :=
  { b with
    trees := b.trees.filter (fun e => w.treeOk p e.2), endpoints := b.endpoints.filter (fun e => endpointOk b.streams e.1 e.2),
    exportTbl := b.exportTbl.filter (fun e => w.fab.exportOk p b.exportTbl e.1 e.2) }

/-- The Rubric die reads the tables of the trees whose fields pass, with the status that an uncorrectable line or a refused read gives
(R34, R189, R205, R206). -/
def W.readMembers (w : W) (p : Nat) : W × Option HostStatus :=
  W.rubric p (((w.fab.scope p).shadow.trees.filter (fun t => w.fab.treeOk p t.2)).flatMap (fun t => treeTables t.2)) w

/-- What a commit accepted of a bank leaves out nothing of it, and every peer window of its streams names an entry that it holds: one
never written has Kind unused (R365). -/
def Bank.whole (a b : Bank) : Bool :=
  a.trees.length == b.trees.length && a.endpoints.length == b.endpoints.length && a.exportTbl.length == b.exportTbl.length &&
  a.streams.all (fun s => descField s.2 61 60 != 2 || (a.endpoints.find? (descField s.2 319 304)).isSome)

/-- A tree's launches are numbered anew, and its collectives in flight fail, where its descriptor changed (R310). -/
def W.treeChanged (w : W) (p t : Nat) (old : BitVec 512) (new : Option (BitVec 512)) : W :=
  let st := match new with
    | some d => if treeEpoch d ≠ treeEpoch old then kolasMemberLost else kolasMismatch
    | none => kolasMismatch
  (w.failColls (fun c => c.partition == p && c.tree == t) st).map (fun f =>
    { f with treeSeq := f.treeSeq.clear (· == 256 * p + t) })

/-- The flows that a live bank uses: those of its trees' members, and those to its Kolas endpoints (R358, R365, R371).
DEDUCED (log 53). -/
def W.flowUsed (w : W) (p : Nat) (b : Bank) (k : FlowKey) : Bool :=
  b.trees.any (fun t => (List.range (treeN t.2)).any (fun r => w.memberFlow p t.2 r == k)) ||
  b.endpoints.any (fun e => descField e.2 211 209 == 1 && descField e.2 511 384 == k.peer && descField e.2 215 212 == k.peerPartition)

/-- A flow that may carry the group's membership messages: between partitions 0, on a device with a role (R370, R377).
DESIGN CHOICE (log 107). -/
def Fab.controlFlow (f : Fab) (k : FlowKey) : Bool := k.localPartition == 0 && k.peerPartition == 0 && f.dget 0x5040 1 != 0

/-- The entries of partition p's shadow bank that pass become live at once, the bank bit turns, and the old bank drains (R26 to R28).
DEDUCED (logs 51, 53). -/
def W.goLive (w : W) (p : Nat) (by_ : Option Entry) : W :=
  let s := w.fab.scope p
  let b := w.accepted p s.shadow
  let bad := !b.whole s.shadow
  let changed := s.live.trees.filter (fun t => b.trees.find? t.1 != some t.2)
  let w1 := changed.foldl (fun x t => x.treeChanged p t.1 t.2 (b.trees.find? t.1)) w
  w1.map (fun f => { f with
    scopes := f.scopes.set p { s with
      live := b, shadow := b, bank := !s.bank, draining := true, commit := by_.map (fun e => (e, bad)), again := false,
      drainEnds := f.cycle + nsCycles (f.dget 0x1010 0x40) },
    flows := f.flows.filter (fun x => x.key.localPartition != p || w.flowUsed p b x.key || f.controlFlow x.key),
    qps := f.qps.filter (fun q => q.partition != p || b.endpoints.find? q.entry == s.live.endpoints.find? q.entry) }.toMembers
      (fun m => .cascadeCommit m p))

/-- A commit of partition p's scope (R26 to R29). One whose tables cannot be read makes nothing live: its SETUP_COMMIT, if the host
issued it, completes with the status (R206). DEDUCED (logs 51, 53). -/
def W.commit (w : W) (p : Nat) (by_ : Option Entry) : W :=
  match w.readMembers p with
  | (w1, none) => w1.goLive p by_
  | (w1, some st) => match by_ with
    | some e => w1.map (fun f => f.completeEntry e st)
    | none => w1

/-- SETUP_COMMIT: refused BUSY while the old bank is held (R29). -/
def setupCommit (e : Entry) (w : W) : W :=
  w.ring e 0x09 (fun w =>
    if (w.fab.scope e.partition).draining then w.map (fun f => f.completeEntry e .busy) else w.commit e.partition (some e))

/-- SETUP_COMMIT. -/
def execSetupCommit (e : Entry) (s : State) : Host.Outcome State Fault Refusal := onMem s (setupCommit e)

/-! ### Drains -/

/-- Transactions that hold the old bank of a scope: of partition p below 16, of the package route scope at 16 (R27, R28).
DESIGN CHOICE (log 54). -/
def Fab.oldBank (f : Fab) (scope : Nat) : List Txn :=
  if scope = 16 then f.txns.filter (fun t => t.routeBank != f.routeBank)
  else f.txns.filter (fun t => t.tag.partition == scope && t.tag.bank != (f.scope scope).bank)

/-- A drain of a scope runs. DESIGN CHOICE (log 54). -/
def Fab.drains (f : Fab) (scope : Nat) : Bool := if scope = 16 then f.routeDraining else (f.scope scope).draining

/-- A route commit (R26, R32): the surviving links become the live routes. -/
def Fab.commitRoutes (f : Fab) : Fab :=
  { f with
    routes := f.dget 0x1010 2, oldRoutes := f.routes, routeBank := !f.routeBank, routeDraining := true,
    routeDrainEnds := f.cycle + nsCycles (f.dget 0x1010 0x40) }

/-- The package scope's commit completes; the firmware commits again if a link changed meanwhile (R26, R29). -/
def Fab.routesFreed (f : Fab) : Fab :=
  let f1 := ({ f with routeDraining := false }).dset 0x1010 3 ((f.dget 0x1010 3 + 1) % 2 ^ 32)
  if f1.routes = f1.dget 0x1010 2 then f1 else f1.commitRoutes

/-- The commit of a partition's scope completes (R26): the generation rises, the host's command completes.
DESIGN CHOICE (log 54). -/
def W.scopeFreed (w : W) (p : Nat) : W :=
  let s := w.fab.scope p
  let g := (w.fab.dget 0xB010 (p + 1) + 1) % 2 ^ 32
  let w1 := w.map (fun f =>
    let f1 := (f.setScope p { s with draining := false, commit := none, again := false }).dset 0xB010 (p + 1) g
    match s.commit with
    | some (e, bad) => f1.completeEntry e (if bad then .badDescriptor else .done) g
    | none => f1)
  if s.again then (w1.commit p none).map Fab.epochStep else w1

/-- The old bank of a scope is freed. -/
def W.freed (w : W) (scope : Nat) : W := if scope = 16 then w.map Fab.routesFreed else w.scopeFreed scope

/-- COMMIT_BANK_FREED (R28): no transaction tagged with the old bank remains. -/
def bankFreed (scope : Nat) (w : W) : W :=
  if scope ≤ 16 ∧ w.fab.drains scope ∧ w.fab.oldBank scope = [] then w.freed scope else w

/-- COMMIT_BANK_FREED. -/
def execCommitBankFreed (scope : Nat) (s : State) : Host.Outcome State Fault Refusal := onMem s (bankFreed scope)

/-- DRAIN_LIMIT_EXPIRY (R28). -/
def drainLimit (scope : Nat) (w : W) : W :=
  if scope ≤ 16 ∧ w.fab.drains scope ∧ w.fab.oldBank scope ≠ [] then
    ((w.map (fun f => (f.oldBank scope).foldl Fab.stale f)).freed scope).flow
  else w

/-- DRAIN_LIMIT_EXPIRY. -/
def execDrainLimitExpiry (scope : Nat) (s : State) : Host.Outcome State Fault Refusal := onMem s (drainLimit scope)

end Sys2Proof.Machine
end

