-- ==== Sys2Proof/Machine/Launch.lean ====
section
/-! DEFINITION. Launches: LAUNCH and its checks (R129), admission and the program log (R130, R488), the start of a cluster
(R100, R101), termination (R126, R127), the end of a launch (R131) and CANCEL (R395). -/

namespace Sys2Proof.Machine

open Sys2Proof

/-! ### Checks -/

/-- Presented width of a cluster of partition p, after its cap (R63, R107): the launch checks and the loaded cluster see it, the
entries 0x4100 + d and 0x4110 show the width before the cap. DESIGN CHOICE (log 100). -/
def Fab.cappedWidth (f : Fab) (p c : Nat) : Nat :=
  min (f.width c) (match f.eff 0x4002 (p + 1) with | 1 => 56 | 2 => 48 | _ => 64)

/-- A retired cluster (R61, R64). -/
def Fab.retired (f : Fab) (c : Nat) : Bool := f.width c == 0

/-- The image header's fields pass (R128): magic, version, width code, reserved fields, count, mask and entry points.
DEDUCED (log 55). -/
def imageOk (h : Nat) : Bool :=
  let n := bitsOf h 79 64
  let mask := bitsOf h 63 56
  bitsOf h 31 0 == 0x53435249 && bitsOf h 47 32 == 1 && [0, 48, 56, 64].contains (bitsOf h 55 48) && bitsOf h 511 224 == 0 &&
  bitsOf h 95 80 == 0 && Nat.ble 1 n && Nat.ble n 8192 && mask != 0 &&
  (List.range 8).all (fun k => Nat.blt (bitsOf h (111 + 16 * k) (96 + 16 * k)) n)

/-- A launch with the header's fields filled in. -/
def Launch.withHeader (l : Launch) (h : Nat) : Launch :=
  { l with
    count := bitsOf h 79 64, width := bitsOf h 55 48, mask := bitsOf h 63 56,
    entries := (List.range 8).map (fun k => bitsOf h (111 + 16 * k) (96 + 16 * k)) }

/-- The checks repeated at admission (R129). -/
def Fab.recheck (f : Fab) (l : Launch) : Option HostStatus :=
  if l.clusters.any f.retired then some .clusterRetired
  else if l.clusters.any (fun c => Nat.blt (f.cappedWidth l.partition c) l.width) then some .widthMismatch
  else none

/-- The checks of R129 in order: a status, or the launch with its header, which the Rubric die reads (R34, R35). The place of the
image is checked before its content. DEDUCED (log 55). -/
def W.checkLaunch (w : W) (l : Launch) : W × Except HostStatus Launch :=
  let f := w.fab
  let live := (f.scope l.partition).live
  if l.clusters.any (fun c => Nat.ble 800 c || f.clusterOwner c != l.partition) then (w, .error .notOwned)
  else if l.clusters.any f.retired then (w, .error .clusterRetired)
  else if l.streams.any (fun n => (live.streams.find? n).isNone) || l.trees.any (fun n => (live.trees.find? n).isNone) then
    (w, .error .notSetUp)
  else if !f.inWindows l.partition l.image 64 then (w, .error .outOfMap)
  else match W.rubricReach l.partition [(l.image, 64, false)] w with
    | (w1, .bad _) => (w1, .error .memUncorrectable)
    | (w1, .firewall _) | (w1, .outside _) | (w1, .wait) => (w1, .error .outOfMap)
    | (w1, .ok) =>
      let h := w.loadNat l.partition l.image 64
      let l1 := l.withHeader h
      if l.image % 64 ≠ 0 ∨ !imageOk h then (w1, .error .badImage)
      else if !f.inWindows l.partition l.image (64 + 8 * l1.count) then (w1, .error .outOfMap)
      else match f.recheck l1 with
        | some st => (w1, .error st)
        | none => (w1, .ok l1)

/-- The launch of partition p that is first in its order and not admitted. -/
def Fab.headLaunch (f : Fab) (p : Nat) : Option Launch :=
  f.launches.find? (fun l => l.partition == p && (match l.phase with | .queued | .waiting => true | _ => false))

/-- A launch refused with a status; one whose image has an uncorrectable line ends the context (R206). -/
def W.refuseLaunch (w : W) (l : Launch) (st : HostStatus) : W :=
  let w1 := w.map (fun f => f.completeLaunch l st)
  if st = .memUncorrectable then w1.contextFault l.partition ((w.fab.badIn l.image (64 + 8 * l.count)).getD l.image) else w1

/-- The head of partition p's launch order is checked at once, and the next one where it is refused (R129). -/
def W.checkHead (p : Nat) : Nat → W → W
  | 0, w => w
  | n + 1, w =>
    match w.fab.headLaunch p with
    | some l =>
      if l.phase = .queued then
        match w.checkLaunch l with
        | (w1, .ok l1) => w1.map (fun f => f.onLaunch p l.tag (fun _ => { l1 with phase := .waiting }))
        | (w1, .error st) => W.checkHead p n (w1.refuseLaunch l st)
      else w
    | none => w

/-- The head checked, with enough fuel for every launch. -/
def W.nextLaunch (w : W) (p : Nat) : W := W.checkHead p (w.fab.launches.length + 1) w

/-! ### LAUNCH and CANCEL -/

/-- The members of a bitmap of n bits, ascending. -/
def members (l : List Nat) (n : Nat) : List Nat := (List.range n).filter l.contains

/-- A launch enters the partition's order. -/
def Entry.launch (e : Entry) (args : List Word) (clusters streams trees : List Nat) : Launch :=
  { id := 0, partition := e.partition, tag := e.tag, image := word e 0, count := 0, width := 0, mask := 0, entries := [],
    digest := 0, args := args, clusters := members clusters 1024, streams := members streams 1024, trees := members trees 256,
    phase := .queued, fault := none, cancels := [], serial := e.serial }

/-- LAUNCH (R129, R388, R474): refused CONTEXT_LOST, BUSY, OUT_OF_MAP for a side block, BAD_COMMAND with no cluster; else it
enters the order, and is checked once it is the head. DEDUCED (log 55). -/
def launch (e : Entry) (args : List Word) (clusters streams trees : List Nat) (w : W) : W :=
  w.ring e 0x01 (fun w =>
    let p := e.partition
    let f := w.fab
    let side := [(word e 1, 128), (word e 2, 128)] ++ (if word e 3 = 0 then [] else [(word e 3, 160)])
    if f.dget 0x3030 (p + 1) = 1 then w.map (fun f => f.completeEntry e .contextLost)
    else if f.dget 0xB001 (p + 1) ≠ 2 then w.map (fun f => f.completeEntry e .busy)
    else if side.any (fun s => !f.inHostWindow p s.1 s.2 false) then w.map (fun f => f.completeEntry e .outOfMap)
    else
      let l := Entry.launch e args clusters (if word e 3 = 0 then [] else streams) (if word e 3 = 0 then [] else trees)
      if l.clusters = [] then w.map (fun f => f.completeEntry e .badCommand)
      else (w.map (fun f => { f with launches := f.launches ++ [l] })).nextLaunch p)

/-- LAUNCH. -/
def execLaunch (e : Entry) (args : List Word) (clusters : List Nat) (streams trees : List Nat) (s : State) :
    Host.Outcome State Fault Refusal := onMem s (launch e args clusters streams trees)

/-- CANCEL (R395): a launch not admitted is removed; an admitted one aborts, and CANCEL completes with it. -/
def cancel (e : Entry) (w : W) : W :=
  w.ring e 0x02 (fun w =>
    match w.fab.launches.find? (fun l => l.partition == e.partition && l.tag == word e 0) with
    | some l =>
      match l.phase with
      | .queued | .waiting =>
        (w.map (fun f => (f.completeLaunch l .cancelled).completeEntry e .done)).nextLaunch e.partition
      | _ => w.map (fun f =>
        (f.abortLaunch l 0xFFFF).onLaunch l.partition l.tag (fun l => { l with cancels := l.cancels ++ [(e.tag, e.serial)] }))
    | none => w.map (fun f => f.completeEntry e .notFound))

/-- CANCEL. -/
def execCancel (e : Entry) (s : State) : Host.Outcome State Fault Refusal := onMem s (cancel e)

/-! ### The end of a cluster's work -/

/-- The clusters of a list whose launch has ended return to Idle. DEDUCED (log 57). -/
def Fab.leaveFinished (f : Fab) (l : List Nat) : Fab :=
  l.foldl (fun g c => g.ends c) f

/-- The Rubric die receives the termination of cluster c (R127, R131): the first of a launch is recorded, counted and reported,
and the launch's other clusters abort. -/
def Fab.report (f : Fab) (c : Nat) : Fab :=
  match f.launchOn c, (f.cluster c).fatal with
  | some l, some (k, x) =>
    if l.fault.isSome then f else
    let f1 := ((f.onLaunch l.partition l.tag (fun l => { l with fault := some (c, k, x) })).dadd 0x4010 6 1).raise
      (srcCluster c) 0x0103 (some l.partition)
      (l.id * 2 ^ 32 + x.epc.toNat * 65536 + k * 256 + x.cause.code) x.einfo.toNat
    f1.abortLaunch l c
  | _, _ => f

/-- TERMINATION_REPORT (R127): of a cluster that a fatal exception or an abort has ended.
DEDUCED (log 57). DESIGN CHOICE (log 89). -/
def terminationReport (c : Nat) (f : Fab) : Fab :=
  if c < 800 ∧ (f.cluster c).phase = .terminating then f.report c else f

/-- TERMINATION_REPORT. -/
def execTerminationReport (c : Nat) (s : State) : Host.Outcome State Fault Refusal := onFab s (terminationReport c)

/-- CLUSTER_TERMINATION_DONE (R126, R326): the runs in flight have finished; collectives of the launch are released, the
cluster reports and returns to Idle, or waits for its reset after NIB_FAULT. DESIGN CHOICE (log 47). -/
def terminationDone (c : Nat) (w : W) : W :=
  let cl := w.fab.cluster c
  if c < 800 ∧ cl.phase = .terminating ∧ w.fab.quiet c ∧ !w.fab.halts c then
    let mine := fun (x : Coll) => match x.launcher with
      | .op d _ _ _ => d == c
      | .job _ _ => false
    (w.failColls mine kolasAborted).map (fun f => (f.report c).leave c (if cl.nibBad then .awaitReset else .idle))
  else w

/-- CLUSTER_TERMINATION_DONE. -/
def execClusterTerminationDone (c : Nat) (s : State) : Host.Outcome State Fault Refusal := onMem s (terminationDone c)

/-! ### Admission and start -/

/-- A digest entered in a partition's program log (R488). -/
def ProgLog.enter (g : ProgLog) (digest : Nat) : ProgLog :=
  if g.digests.contains digest then g
  else
    { loadCount := g.loadCount + 1, chain := Config.shake256 (beBytes 32 g.chain ++ beBytes 32 digest),
      digests := if g.digests.length < 1024 then g.digests ++ [digest] else g.digests }

/-- The program log of a partition. -/
def Sec.log (s : Sec) (p : Nat) : ProgLog := s.logs.get ⟨[], 0, 0⟩ p

/-- A launch admitted (R106, R130): it takes its identifier, its digest enters the log, its clusters load.
DESIGN CHOICE (log 56). -/
def W.admitLaunch (w : W) (l : Launch) : W :=
  let p := l.partition
  let id := w.fab.nextLaunch.get 0 p + 1
  let digest := Config.shake256 (w.loads p l.image (64 + 8 * l.count))
  let f1 := { w.fab with nextLaunch := w.fab.nextLaunch.set p id }
  let f2 := f1.onLaunch p l.tag (fun l => { l with id := id, digest := digest, phase := .loading })
  { w with
    sec := { w.sec with logs := w.sec.logs.set p ((w.sec.log p).enter digest) },
    fab := l.clusters.foldl (fun g c => g.onCluster c (fun cl => { cl with phase := .loading, launch := id })) f2 }

/-- LAUNCH_ADMIT (R129): every named cluster is Idle (or retired meanwhile, which refuses). None is admitted once the EWS_N
sequence has ended its launches (R443). -/
def launchAdmit (p : Nat) (w : W) : W :=
  match w.fab.headLaunch p with
  | some l =>
    let w1 := w.map (fun f => f.leaveFinished l.clusters)
    if l.phase = .waiting ∧ w.fab.served (p + 1) ∧ !w.fab.ewsGraced ∧ l.clusters.all (fun c => (w1.fab.cluster c).phase == .idle || w1.fab.retired c) then
      match w1.fab.recheck l with
      | some st => (w1.refuseLaunch l st).nextLaunch p
      | none =>
        match W.rubricReach p [(l.image, 64 + 8 * l.count, false)] w1 with
        | (w2, .ok) => (w2.admitLaunch l).nextLaunch p
        | (w2, .bad _) => (w2.refuseLaunch l .memUncorrectable).nextLaunch p
        | (w2, _) => (w2.refuseLaunch l .outOfMap).nextLaunch p
    else w
  | none => w

/-- LAUNCH_ADMIT. -/
def execLaunchAdmit (p : Nat) (s : State) : Host.Outcome State Fault Refusal := onAll s (launchAdmit p)

/-- A strand as the start of a launch leaves it (R101, R106). -/
def startStrand (args : List Word) (entry : Nat) (runs : Bool) (limit : Word) : Strand :=
  { Strand.idleReset with
    st := if runs then .running else .idle, pc := BitVec.ofNat 16 entry,
    s := (List.range 16).map (fun i => (16 + i, args.getD i 0)), waitLimit := limit }

/-- A cluster starts its launch: registers, counters and strands (R101, R116, R130). -/
def Cluster.startLaunch (cl : Cluster) (l : Launch) (imem : List Word) (width cycle : Nat) (limit : Word) : Cluster :=
  { cl with
    phase := .running, launch := l.id, pwidth := width, startCycle := cycle,
    strands := (List.range 8).map (fun k => (k, startStrand l.args (l.entries.getD k 0) (bit l.mask k) limit)),
    lastIssued := 7, issueFrom := 0, matrixFrom := 0, imem := imem, imemImage := some (l.digest, l.partition), counters := [], ops := [],
    streams := [], fatal := none }

/-- IMAGE_LOAD_COMPLETE (R130): the copy by the cluster's Feed ends, or was skipped, and the strands of the start mask start in
one cycle. -/
def imageLoad (c : Nat) (w : W) : W :=
  match w.fab.launchOn c with
  | some l =>
    if c < 800 ∧ (w.fab.cluster c).phase = .loading ∧ !w.fab.halts c then
      let cl := w.fab.cluster c
      let p := l.partition
      let held := cl.imemImage == some (l.digest, p)
      let r := if held then (w, Reach.ok) else w.access (fun d => w.fab.clusterTag c d false) l.image (64 + 8 * l.count) false
      let w := r.1
      match r.2 with
      | .bad a => w.contextFault p a
      | .firewall _ | .outside _ | .wait => w
      | .ok =>
        let imem := if held then cl.imem
          else (List.range l.count).map (fun i => BitVec.ofNat 64 (w.loadNat p (l.image + 64 + 8 * i) 8))
        w.map (fun f =>
          (f.onCluster c (fun cl =>
            cl.startLaunch l imem (f.cappedWidth p c) f.cycle (BitVec.ofNat 64 (f.eff 0x4011 (p + 1))))).onLaunch p l.tag
              (fun l => { l with phase := if l.phase = .loading then .running else l.phase }))
    else w
  | none => w

/-- IMAGE_LOAD_COMPLETE. -/
def execImageLoadComplete (c : Nat) (s : State) : Host.Outcome State Fault Refusal := onMem s (imageLoad c)

/-- LAUNCH_END (R131): every cluster has ended; DONE, or FAULTED with the first fatal exception. DEDUCED (log 57). -/
def launchEnd (p id : Nat) (f : Fab) : Fab :=
  let admitted := fun (l : Launch) => l.partition == p && l.id == id &&
    (match l.phase with | .queued | .waiting => false | _ => true)
  match f.launches.find? admitted with
  | some l =>
    let f1 := f.leaveFinished l.clusters
    match f1.launches.find? admitted with
    | some m => if m.clusters = [] then f1.completeLaunch m (if m.fault.isSome then .faulted else .done) else f
    | none => f
  | none => f

/-- LAUNCH_END. -/
def execLaunchEnd (p launch : Nat) (s : State) : Host.Outcome State Fault Refusal := onFab s (launchEnd p launch)

end Sys2Proof.Machine
end

