-- ==== Sys2Proof/Machine/Noivos.lean ====
section
/-! DEFINITION. Noivos: the area table (R437), checkpoints (R438 to R440) and restores (R441). -/

namespace Sys2Proof.Machine

open Sys2Proof

/-- Every page of the areas. -/
def Noivos.pages (v : Noivos) : List Nat :=
  v.areas.flatMap (fun a => (List.range (a.2.1 / 65536)).map (· + a.1 / 65536))

/-- Pages whose dirty bit of a copy is clear. -/
def Noivos.clean (v : Noivos) (copy : Nat) : List Nat := if copy = 0 then v.clean0 else v.clean1

/-- The area table as read at a partition's start: used entries inside its LPDDR5X windows, and whether another was used
(R437). An entry that breaks the multiples of 64 KiB counts as outside, and the 8 reserved bytes of an entry are not looked at.
DESIGN CHOICE (log 101). -/
def W.areaTable (w : W) (p : Nat) : List (Nat × Nat × Nat) × Bool :=
  let base := w.fab.eff 0x9100 (p + 1)
  let at_ := fun i => base + 32 * i
  let rows := (List.range 16).map (fun i => (w.loadNat p (at_ i) 8, w.loadNat p (at_ i + 8) 8, w.loadNat p (at_ i + 16) 8))
  let used := rows.filter (fun r => r.2.1 != 0)
  let ok := fun (r : Nat × Nat × Nat) =>
    r.1 % 65536 == 0 && r.2.1 % 65536 == 0 && Nat.ble 0x10000000000 r.1 && w.fab.inWindows p r.1 r.2.1
  (used.filter ok, !used.all ok)

/-- Noivos at the start of a partition (R437): its areas, every dirty bit of a page it did not hold set. With Noivos area table 0
no table is read. -/
def W.startNoivos (w : W) (p : Nat) : W :=
  let base := w.fab.eff 0x9100 (p + 1)
  let r := if base = 0 then (w, none) else W.rubric p [(base, 512, false)] w
  let x := if base = 0 then ([], false) else if r.2.isNone then w.areaTable p else ([], true)
  r.1.map (fun f =>
    let v := { f.noivosOf p with areas := x.1, areaError := x.2 }
    let inside := fun g => v.pages.contains g
    let f1 := f.setNoivos p { v with clean0 := v.clean0.filter inside, clean1 := v.clean1.filter inside }
    f1.dset 0x9107 (p + 1) (f1.noivosRest p))

/-! ### Checkpoints -/

/-- A Checkpoint record (Table "Checkpoint record"), little-endian. DESIGN CHOICE (log 65). -/
def Fab.checkpointRecord (f : Fab) (p : Nat) (c : Checkpoint) (status finish : Nat) : List Byte :=
  leBytes 64 (0x4E4F4956 * 2 ^ 480 + 1 * 2 ^ 464 + c.copy * 2 ^ 456 + status * 2 ^ 448 + p * 2 ^ 440 +
    c.step % 2 ^ 32 * 2 ^ 384 + f.dget 0x9060 1 * 2 ^ 352 + c.number % 2 ^ 32 * 2 ^ 320 + c.total % 2 ^ 32 * 2 ^ 288 +
    f.dget 0x9060 2 * 2 ^ 272 + c.start % 2 ^ 64 * 2 ^ 192 + finish % 2 ^ 64 * 2 ^ 128)

/-- The engine that sends a checkpoint's records: that of the base die that holds the partition's first area.
DESIGN CHOICE (log 65). -/
def Fab.noivosEngine (f : Fab) (p : Nat) : Nat :=
  match (f.noivosOf p).areas with
  | a :: _ => (f.locate none a.1).die - 16
  | [] => 0

/-- The record of a checkpoint sent to its targets that have not failed. -/
def Fab.sendRecord (f : Fab) (p : Nat) (c : Checkpoint) (status finish : Nat) : Fab :=
  (f.liveTargets p c).foldl (fun g e => g.rdmaWrite (f.noivosEngine p) p e.2 (f.endpointEntry p e.2) (64 * c.copy) (f.checkpointRecord p c status finish)) f

/-- Step 3 of R438 once no page is due: the record with Status complete, and CHECKPOINT_DONE at each target. -/
def Fab.finishCheckpoint (f : Fab) (p : Nat) (c : Checkpoint) : Fab :=
  let f1 := f.sendRecord p c 2 f.now
  let f2 := (f.liveTargets p c).foldl (fun g e => g.raise 0x000F 0x0607 (some p) c.step (c.copy * 256 + e.1)) f1
  let v := f2.noivosOf p
  ((f2.setNoivos p { v with due := if v.due = some c.step then none else v.due }).endCheckpoint p).dset 0x9108 (p + 1) c.step

/-- A checkpoint of a step starts (R438 steps 1 and 2). -/
def Fab.beginCheckpoint (f : Fab) (p step : Nat) : Fab :=
  let v := f.noivosOf p
  let copy := v.nextNumber % 2
  let pages := v.pages.filter (fun g => !(v.clean copy).contains g)
  let c : Checkpoint :=
    { number := v.nextNumber, step := step, copy := copy, pages := pages, read := [], failed := [], total := pages.length,
      start := f.now }
  let f1 := ((f.setNoivos p { v with running := some c }).dset 0x9107 (p + 1) 2).sendRecord p c 1 0
  if pages.isEmpty then f1.finishCheckpoint p c else f1

/-- STEP_CLOSE of step s at Noivos (R438): a checkpoint at every K-th step, skipped while one runs.
DESIGN CHOICE (log 65). -/
def Fab.stepClosed (f : Fab) (p step : Nat) : Fab :=
  let v := f.noivosOf p
  let f1 := f.setNoivos p { v with due := some step }
  if f.eff 0x9106 (p + 1) = 0 ∨ step % f.eff 0x9106 (p + 1) ≠ 0 then f1
  else if v.running.isSome then f1.dadd 0x9109 (p + 1) 1
  else f1.beginCheckpoint p step

/-- CHECKPOINT_PAGE_ACK (R438, R440): every target that has not failed has acknowledged the page, which the checkpoint has read by
then. Its dirty bit is cleared where no target has failed. DESIGN CHOICE (log 65). -/
def checkpointPageAck (p page : Nat) (w : W) : W :=
  match (w.fab.noivosOf p).running with
  | some c =>
    if !c.pages.contains page then w else
    (w.readPage p page).map (fun f =>
      let v := f.noivosOf p
      match v.running with
      | some d =>
        if !d.read.contains page then f else
        let d1 := { d with pages := d.pages.filter (· != page) }
        let v1 := { v with running := some d1 }
        let v2 := if !d.failed.isEmpty then v1
          else if d.copy = 0 then { v1 with clean0 := v1.clean0 ++ [page] } else { v1 with clean1 := v1.clean1 ++ [page] }
        let f1 := (f.liveTargets p d).foldl (fun g e => g.qpDone p e.2 (v.offset page d.copy (f.eff 0x9103 (p + 1))) true)
          (f.setNoivos p v2)
        if d1.pages.isEmpty then f1.finishCheckpoint p d1 else f1
      | none => f)
  | none => w

/-- CHECKPOINT_PAGE_ACK. -/
def execCheckpointPageAck (p page : Nat) (s : State) : Host.Outcome State Fault Refusal := onMem s (checkpointPageAck p page)

/-- CHECKPOINT_FAILED (R440): target 0 or 1 has failed an RDMA WRITE with ENDPOINT_DOWN. -/
def execCheckpointFailed (p target : Nat) (s : State) : Host.Outcome State Fault Refusal :=
  onFab s (fun f => f.failTarget p target feedEndpointDown)

/-! ### Restores -/

/-- The endpoint that a restore value names: the local or the remote target (R441). -/
def Fab.restoreTarget (f : Fab) (p mode : Nat) : Nat := f.eff (if mode ≤ 2 then 0x9101 else 0x9102) (p + 1)

/-- The Noivos restore command with values 1 to 4 (R441), on a stopped partition with no restore running: an RDMA READ of both records
goes to the target. -/
def Fab.beginRestore (f : Fab) (p mode : Nat) : Fab :=
  let i := f.restoreTarget p mode
  ((f.setNoivos p { f.noivosOf p with restoring := some mode }).dset 0x9107 (p + 1) 3).rdmaRead (f.noivosEngine p) p i
    (f.endpointEntry p i) 0 128

/-- Record of copy j, among the 128 bytes read from a target, where it is complete: its checkpoint number and its step
(Table "Checkpoint record", R440). -/
def completeRecord (records : List Byte) (j : Nat) : Option (Nat × Nat) :=
  let r := leNat ((records.drop (64 * j)).take 64)
  if bitsOf r 511 480 = 0x4E4F4956 ∧ bitsOf r 479 464 = 1 ∧ bitsOf r 463 456 = j ∧ bitsOf r 455 448 = 2 then
    some (bitsOf r 351 320, bitsOf r 415 384)
  else none

/-- The newest copy whose record is complete: the copy and its step (R441). -/
def newestCopy (records : List Byte) : Option (Nat × Nat) :=
  match completeRecord records 0, completeRecord records 1 with
  | some a, some b => if a.1 < b.1 then some (1, b.2) else some (0, a.2)
  | some a, none => some (0, a.2)
  | none, some b => some (1, b.2)
  | none, none => none

/-- The pages of a copy read from a target by RDMA READs, each answered (R441). -/
def Fab.readCopy (f : Fab) (p i copy : Nat) (pages : List Nat) : Fab :=
  pages.foldl (fun g x =>
    let at_ := (g.noivosOf p).offset x copy (g.eff 0x9103 (p + 1))
    (g.rdmaRead ((g.locate none (x * 65536)).die - 16) p i (g.endpointEntry p i) at_ 65536).qpDone p i at_ false) f

/-- A restore that ends without its copy (R441). DESIGN CHOICE (log 25). -/
def Fab.restoreFailed (f : Fab) (p mode step : Nat) : Fab :=
  let f1 := f.setNoivos p { f.noivosOf p with restoring := none }
  (f1.dset 0x9107 (p + 1) (f1.noivosRest p)).raise 0x000F 0x0608 (some p) step
    (Config.checkpointStatus 1 % 256 * 256 + (mode - 1) / 2)

/-- The pages a restore of a copy writes: every page, or those whose d_j is 1 (R441). -/
def Noivos.restored (v : Noivos) (mode copy : Nat) : List Nat :=
  if mode % 2 = 1 then v.pages else v.pages.filter (fun g => !(v.clean copy).contains g)

/-- A page's bytes as the copy holds them, 64 KiB. DESIGN CHOICE (log 65). -/
def pageBytes (pages : List (Nat × List Byte)) (g : Nat) : List Byte :=
  let b := (Tbl.find? pages g).getD []
  (List.range 65536).map (fun i => b.getD i 0)

/-- RESTORED (R441): the restore ends, with the records and the pages that its RDMA READs brought, or with a read that failed: the pages
of the newest complete copy are written, and its dirty bits are clear, the other copy's set. -/
def restored (p : Nat) (records : List Byte) (pages : List (Nat × List Byte)) (failed : Bool) (w : W) : W :=
  match (w.fab.noivosOf p).restoring with
  | some mode =>
    let i := w.fab.restoreTarget p mode
    let w0 := w.map (fun f => f.qpDone p i 0 false)
    match newestCopy records, failed with
    | some (j, step), false =>
      let gs := (w.fab.noivosOf p).restored mode j
      let w1 := gs.foldl (fun x g => (x.unitStore p 6 (g * 65536) (pageBytes pages g)).1) (w0.map (fun f => f.readCopy p i j gs))
      w1.map (fun f =>
        let v := { f.noivosOf p with restoring := none }
        let f1 := f.setNoivos p (if j = 0 then { v with clean0 := v.pages, clean1 := [] } else { v with clean1 := v.pages, clean0 := [] })
        (f1.dset 0x9107 (p + 1) (f1.noivosRest p)).raise 0x000F 0x0609 (some p) step gs.length)
    | copy, _ => w0.map (fun f => f.restoreFailed p mode ((copy.map (·.2)).getD 0))
  | none => w

/-- RESTORED. -/
def execRestored (p : Nat) (records : List Byte) (pages : List (Nat × List Byte)) (failed : Bool) (s : State) :
    Host.Outcome State Fault Refusal := onMem s (restored p records pages failed)

end Sys2Proof.Machine
end

