-- ==== Sys2Proof/Machine/Learning.lean ====
section
/-! DEFINITION. Learning steps: DRAINB at the Blotter (R153, R282, R284), steps and waves (R277 to R281), the checks of slices
and links (R279, R288), check slices (R297), and the close of a step with its scale entries (R290, R294, R299). -/

namespace Sys2Proof.Machine

open Sys2Proof

/-! ### DRAINB -/

/-- The Accumulating slice that holds slot i of base die b for partition p and takes DRAINBs of cluster c (R282). -/
def Fab.drainbSlice (f : Fab) (p b i c : Nat) : Option Slice :=
  (f.steps.find? p).bind (fun r => r.slices.find? (fun s => s.state == 2 && s.home == b && s.slot == i && s.writer == c))

/-- Row j of a DRAINB added to 64 elements from element `at_` on (R153, R283): new elements and flags. -/
def drainbRow (got : Tbl W32) (base w j : Nat) (old : List W32) : List W32 × Raise :=
  let r := (List.range w).map (fun n => fpAdd (old.getD n 0) (got.get 0 (64 * (base + j) + n)))
  (r.map (·.1), r.foldl (fun x e => x.or e.2) .none)

/-- One row of a DRAINB applied to its slot or its fallback area, its flags gathered (R153, R284). -/
def applyRow (p : Nat) (s : Slice) (got : Tbl W32) (base width offset : Nat) (a : W × Raise) (j : Nat) : W × Raise :=
  let at_ := 64 * (offset + j)
  let x := drainbRow got base width j ((List.range width).map (fun n => a.1.sliceElem p s (at_ + n)))
  (if s.onFallback then a.1.store p (s.fallback + 4 * at_) (fpMemory x.1)
   else a.1.map (fun f =>
     let q := f.slot s.home s.slot
     f.setSlot s.home s.slot
       { q with fp := ((List.range width).zip x.1).foldl (fun t e => t.set (at_ + e.1) e.2) q.fp }), a.2.or x.2)

/-- The Blotter of base die b reads and writes a range of a fallback area for an accumulate (R35, R189, R284). -/
def W.accumulateArea (w : W) (p b a n : Nat) : W × Reach :=
  let tag := fun (write : Bool) (d : Nat) => { w.fab.unitTag p b 4 d write with cls := 4 }
  match w.access (tag false) a n false with
  | (g, .ok) => g.access (tag true) a n true
  | x => x

/-- DRAINB_APPLIED: its transaction stands at the Blotter, in issue order of a strand and slot (R19, R25, R33); refused with SLOT_RANGE where no Accumulating slice of this Writer holds
the slot or the rows pass its end (R153, R282). Its flags count once (R87). DESIGN CHOICE (log 93). -/
def drainbApplied (o : OpRef) (w : W) : W :=
  let c := o.cluster
  let cl := w.fab.cluster c
  match cl.op? o.op with
  | some q =>
    match q.kind with
    | .drainb slot offset base m width got =>
      let earlier := cl.ops.any (fun x => Nat.blt x.id q.id && x.strand == q.strand &&
        (match x.kind with | .drainb i _ _ _ _ _ => i == slot | _ => false))
      match w.fab.txns.find? (fun t => t.origin == .op c q.id) with
      | none => w
      | some t =>
      if earlier || !t.ahead.isEmpty || w.fab.stalled t then w else
      let p := t.tag.partition
      let w1 := w.map (fun f => ((f.leaves t).finish c q.id).pump)
      let refused := fun (x : W) (status : Nat) =>
        x.map (fun f => f.raiseAsync c q.strand ⟨.collectiveError, q.epc, kolasInfo status 0 0⟩)
      match w.fab.drainbSlice p (baseDieOf c) slot c with
      | some s =>
        if s.units < offset + m then refused w1 0x01
        else
          let r := if s.onFallback then w1.accumulateArea p s.home (s.fallback + 256 * offset) (256 * m) else (w1, .ok)
          let w2 := r.1
          match r.2 with
          | .wait => w2
          | .bad a => w2.memFault c q.strand q.epc a (w.fab.locate none a)
          | .firewall _ => refused w2 kolasFirewall
          | .outside _ => refused w2 kolasOutOfMap
          | .ok =>
            let x := (List.range m).foldl (applyRow p s (got.getD []) base width offset) (w2, .none)
            x.1.map (fun f => f.countFlags x.2)
      | none => refused w1 0x01
    | _ => w
  | none => w

/-- DRAINB_APPLIED. -/
def execDrainbApplied (o : OpRef) (s : State) : Host.Outcome State Fault Refusal := 
  onMem s (fun w => w.atCluster o.cluster (drainbApplied o))

/-! ### Slices -/

/-- The plan and Rubric fields of a slice entry (Table "Slice entry"). -/
def sliceOf (n v : Nat) : Slice :=
  { number := n, state := bitsOf v 341 338, fallback := bitsOf v 511 448, writer := bitsOf v 447 432, layer := bitsOf v 431 416,
    link := bitsOf v 415 393, linkKind := bitsOf v 392 391, wave := bitsOf v 390 368, units := bitsOf v 367 356,
    home := bitsOf v 355 353, slot := bitsOf v 352 345, kind := bitsOf v 344 343, frozen := bit v 342, onFallback := bit v 337 }

/-- Slice entry n as a number. -/
def W.sliceEntry (w : W) (p n : Nat) : Nat := w.loadNat p (w.fab.sliceAddr p n) 64

/-- Slice n of a partition's table. -/
def W.sliceAt (w : W) (p n : Nat) : Slice := sliceOf n (w.sliceEntry p n)

/-- Entries of a partition's slice table. -/
def Fab.sliceCount (f : Fab) (p : Nat) : Nat := f.eff 0x8011 (p + 1)

/-- Entries of a partition's scale table. -/
def Fab.scaleCount (f : Fab) (p : Nat) : Nat := f.eff 0x8013 (p + 1)

/-- The Rubric die reads a partition's slice and scale tables (R277). -/
def W.readTables (w : W) (p : Nat) : W × Option HostStatus :=
  W.rubric p [(w.fab.sliceAddr p 0, 64 * w.fab.sliceCount p, false), (w.fab.scaleAddr p 0, 64 * w.fab.scaleCount p, false)] w

/-- The link of a slice is allowed (R288). -/
def W.linkOk (w : W) (p : Nat) (s : Slice) : Bool :=
  if s.linkKind = 0 then true
  else
    let t := w.sliceAt p s.link
    Nat.blt s.link s.number && t.wave == s.wave && t.home == s.home && t.units == s.units && t.kind == 0 && !t.frozen &&
    (if s.linkKind = 1 then t.linkKind == 0 || t.linkKind == 2 else t.linkKind == 0)

/-- The first failed check of R279, by its place in the list; `taken` holds the places of the lower slices that passed.
DEDUCED (log 58). -/
def W.sliceCheck (w : W) (p : Nat) (s : Slice) (taken : List (Nat × Nat)) : Option Nat :=
  let f := w.fab
  if bitsOf (w.sliceEntry p s.number) 270 0 ≠ 0 ∨ 2 ≤ s.kind ∨ s.linkKind = 3 ∨ s.units = 0 ∨ 1024 < s.units then some 1
  else if 800 ≤ s.writer ∨ f.clusterOwner s.writer ≠ p ∨ s.home ≠ baseDieOf s.writer ∨ f.retired s.writer then some 2
  else if f.scaleCount p ≤ s.layer then some 3
  else if !w.linkOk p s then some 4
  else if s.kind = 1 ∧ s.units % 2 = 1 then some 5
  else if taken.contains (s.home, s.slot) then some 6
  else none

/-- The fallback area of a slice may be used (R279). -/
def Fab.fallbackOk (f : Fab) (p : Nat) (s : Slice) : Bool :=
  s.fallback % 64 == 0 && f.inWindows p s.fallback (256 * s.units) &&
  (match f.locate none s.fallback, f.locate none (s.fallback + 256 * s.units - 1) with
    | .lpddr b _, .lpddr d _ => b == s.home && d == s.home
    | _, _ => false)

/-- A slice abandoned by a failed check, with its event (R279, R281). -/
def W.badSlice (w : W) (p : Nat) (s : Slice) (place : Nat) : W :=
  (w.abandonSlice p s).map (fun f => f.raise (srcPartition p) 0x0501 (some p) s.number place)

/-! ### Check slices -/

/-- Magnitude. -/
def Num.abs : Num → Num
  | .nan => .nan
  | .inf _ => .inf false
  | .fin _ m e => .fin false m e

/-- The larger of two values; a NaN stands. -/
def Num.larger (a b : Num) : Num := if a.isNaN then a else if b.isNaN then b else if a.lt b then b else a

/-- The comparison of R297: d, m and Exceeded for a threshold exponent, with the flags of a NaN and of the two roundings (R87).
DEDUCED (log 58). -/
def compareHalves (a b : List W32) (t : Nat) : W32 × W32 × Bool × Raise :=
  let x := a.map fp32
  let y := b.map fp32
  let d := ((x.zip y).map (fun e => (e.1.add e.2.negate).abs)).foldl Num.larger .zero
  let m := (y.map Num.abs).foldl Num.larger .zero
  let nan := x.any Num.isNaN || y.any Num.isNaN
  ((toFp32 d).1, (toFp32 m).1, (m.scale (-(t : Int))).lt d || nan,
    ((toFp32 d).2.or (toFp32 m).2).or (if nan || d.isNaN then .invalid else .none))

/-- One check slice compared (R297). Detail A of CHECK_EXCEEDED holds the whole slice number in [31:0], where R429 gives 22 bits to the
23 of R278; a slice whose fallback area has an uncorrectable line stays as it is, and its context ends. DESIGN CHOICE (log 118). -/
def W.compare (w : W) (p : Nat) (s : Slice) : W :=
  let r := if s.onFallback then w.access (fun d => w.fab.unitTag p s.home 4 d false) s.fallback (256 * s.units) false else (w, .ok)
  let w := r.1
  match r.2 with
  | .bad a => w.contextFault p a
  | .firewall _ | .outside _ | .wait => w
  | .ok =>
    let h := 32 * s.units
    let r := compareHalves ((List.range h).map (w.sliceElem p s)) ((List.range h).map (fun i => w.sliceElem p s (h + i)))
      (w.fab.dget 0x8021 (p + 1))
    let v := setBits (setBits (setBits (w.sliceEntry p s.number) 335 304 r.1.toNat) 303 272 r.2.1.toNat) 271 271
      (if r.2.2.1 then 1 else 0)
    ((w.putEntry p (w.fab.sliceAddr p s.number) v).finishSlice p s 6).map (fun g =>
      let f := (g.dadd 0x8031 (p + 1) 1).countFlags r.2.2.2
      if r.2.2.1 then (f.dadd 0x8032 (p + 1) 1).raise (srcPartition p) 0x0503 (some p) (s.layer * 2 ^ 32 + s.number)
        (r.1.toNat * 2 ^ 32 + r.2.1.toNat)
      else f)

/-- Every check slice that is Accumulating compared (R281 step 1, R290 step 2). -/
def W.compareAll (w : W) (p : Nat) : W :=
  match w.fab.steps.find? p with
  | some r => (r.slices.filter (fun s => s.kind == 1 && s.state == 2)).foldl (fun x s => x.compare p s) w
  | none => w

/-! ### Waves -/

/-- The slices of a wave checked in ascending number (R281 step 2): those that pass. -/
def W.checkSlices (p : Nat) : List Slice → List Slice → W → W × List Slice
  | [], ok, w => (w, ok)
  | s :: r, ok, w =>
    match w.sliceCheck p s (ok.map (fun x => (x.home, x.slot))) with
    | some k => W.checkSlices p r ok (w.badSlice p s k)
    | none => W.checkSlices p r (ok ++ [s]) w

/-- Claims in ascending number (R281 steps 3 and 4): a free slot of the partition, else the fallback path, else Abandoned.
DEDUCED (log 58). -/
def W.claimSlices (p : Nat) : List Slice → List Slice → W → W × List Slice
  | [], ok, w => (w, ok)
  | s :: r, ok, w =>
    let m := w.fab.mapRange 0xB120 s.home p
    let path := fun (v : W) (b : Nat) => v.setField p (v.fab.sliceAddr p s.number) 337 337 b
    if m.1 ≤ s.slot ∧ s.slot < m.1 + m.2 ∧ (w.fab.slot s.home s.slot).holder = .free then
      W.claimSlices p r (ok ++ [{ s with state := 1, onFallback := false }])
        (path (w.map (fun f => f.setSlot s.home s.slot ⟨.slice p s.number, []⟩)) 0)
    else if w.fab.fallbackOk p s then
      W.claimSlices p r (ok ++ [{ s with state := 1, onFallback := true }]) (path (w.map (fun f => f.dadd 0x8033 (p + 1) 1)) 1)
    else W.claimSlices p r ok (w.badSlice p s 7)

/-- A wave opens as far as the writing of its fallback areas (R281 steps 1 to 4), for the slices of its number that wait and that no
wave of the step has read before (R278, R280). The record keeps the wave's other slices too, which a seal must see (R285), the Sealed
ones, and a check slice that could not be compared (R290). -/
def W.openWave (w : W) (p wave : Nat) : W :=
  let w1 := w.compareAll p
  let opened := ((w1.fab.steps.find? p).map (·.opened)).getD []
  let all := ((List.range (w1.fab.sliceCount p)).map (w1.sliceAt p)).filter (fun s => s.wave == wave && !opened.contains s.number)
  let x := W.checkSlices p (all.filter (fun s => !s.frozen && s.state == 1)) [] w1
  let y := W.claimSlices p x.2 [] x.1
  y.1.map (fun f => match f.steps.find? p with
    | some r =>
      let kept := r.slices.filter (fun s => s.state == 3 || (s.state == 2 && s.kind == 1))
      let others := (all.filter (fun s => !y.2.any (fun z => z.number == s.number))).map (fun (s : Slice) =>
        { s with state := if s.frozen || s.state == 0 then 0 else 5 })
      { f with steps := f.steps.set p { r with
          slices := kept ++ y.2 ++ others, wave := wave, filling := true, opened := opened ++ all.map (·.number) } }
    | none => f)

/-- STEP_OPEN (R277, R278, R281, R474). DEDUCED (log 58). -/
def stepOpen (e : Entry) (w : W) : W :=
  w.ring e 0x20 (fun w =>
    let p := e.partition
    let f := w.fab
    let done := fun (w : W) (st : HostStatus) => w.map (fun f => f.completeEntry e st)
    if f.dget 0xB001 (p + 1) ≠ 2 then done w .busy
    else if (f.steps.find? p).isSome then done w .stepState
    else if f.sliceCount p = 0 ∨ f.scaleCount p = 0 then done w .badCommand
    else match w.readTables p with
      | (w, some st) => done w st
      | (w, none) =>
        let all := List.range (f.sliceCount p)
        let waves := (all.map (fun n => (w.sliceAt p n).wave)).foldl max 0 + 1
        let w1 := all.foldl (fun x n => x.setSliceState p n (if (x.sliceAt p n).frozen then 0 else 1)) w
        let n := bitsOf (word e 0) 31 0
        let r : StepRec := ⟨n, bitsOf (word e 1) 5 0, 0, waves, [], false, []⟩
        let w2 := w1.map (fun f => ({ f with steps := f.steps.set p r }).dset 0x8030 (p + 1) n)
        done (w2.openWave p 0) .done)

/-- STEP_OPEN. -/
def execStepOpen (e : Entry) (s : State) : Host.Outcome State Fault Refusal := onMem s (stepOpen e)

/-- WAVE_OPEN (R281): every gradient slice of the wave has left Accumulating, and a wave remains. -/
def waveOpen (p : Nat) (w : W) : W :=
  match w.fab.steps.find? p with
  | some r =>
    if r.filling || Nat.ble r.waves (r.wave + 1) || r.slices.any (fun s => s.wave == r.wave && s.kind == 0 && s.state == 2) then w
    else match w.readTables p with
      | (w1, some _) => w1
      | (w1, none) => w1.openWave p (r.wave + 1)
  | none => w

/-- WAVE_OPEN. -/
def execWaveOpen (p : Nat) (s : State) : Host.Outcome State Fault Refusal := onMem s (waveOpen p)

/-- A fallback area written with +0 by the Blotter of its home die (R281); pages that a running checkpoint has still to read are read
first (R439). -/
def W.clearArea (w : W) (p : Nat) (s : Slice) : W :=
  match (w.readPages p s.fallback (256 * s.units)).access (fun d => w.fab.unitTag p s.home 4 d true) s.fallback (256 * s.units) true with
  | (w1, .ok) => (w1.zeroFor p s.fallback (256 * s.units)).map (fun f => f.dirty p s.fallback (256 * s.units))
  | (w1, _) => w1

/-- FALLBACK_AREAS_WRITTEN (R281 steps 5 and 6): areas +0, slices Accumulating, the wave counter signalled. -/
def fallbackWritten (p : Nat) (w : W) : W :=
  match w.fab.steps.find? p with
  | some r =>
    if !r.filling then w else
    let mine := r.slices.filter (fun s => s.wave == r.wave && s.state == 1)
    let w1 := mine.foldl (fun x s =>
      (if s.onFallback then x.clearArea p s else x).moveSlice p s 2) w
    w1.map (fun f => match f.steps.find? p with
      | some q => ({ f with steps := f.steps.set p { q with filling := false } }).packageSignal p r.waveCounter 1
      | none => f)
  | none => w

/-- FALLBACK_AREAS_WRITTEN. -/
def execFallbackAreasWritten (p : Nat) (s : State) : Host.Outcome State Fault Refusal := onMem s (fallbackWritten p)

/-! ### Closing a step -/

/-- Slices of the open step that are still Waiting or Accumulating, and Sealed ones if `andSealed`: abandoned, ascending (R290,
R465). -/
def W.abandonRest (w : W) (p : Nat) (andSealed : Bool) : W :=
  match w.fab.steps.find? p with
  | some r =>
    let known := r.slices.filter (fun s => s.state == 1 || s.state == 2 || (andSealed && s.state == 3))
    let rest := ((List.range (w.fab.sliceCount p)).map (w.sliceAt p)).filter (fun s =>
      s.state == 1 && !r.opened.contains s.number)
    (known ++ rest).foldl (fun x s => x.abandonSlice p s) w
  | none => w

/-- Largest ring entry that is an observation of a normal number (R294). -/
def ringMax (ring : Nat) : Option Nat :=
  let l := ((List.range 16).map (fun i => bitsOf ring (8 * i + 7) (8 * i))).filter (fun b => b != 0 && b != 0xFF)
  if l.isEmpty then none else some (l.foldl max 0)

/-- A scale entry is skipped by the close (R294). -/
def scaleBad (v : Nat) : Bool :=
  let fm := bitsOf v 359 354
  !((Nat.ble 2 fm && Nat.ble fm 5) || (Nat.ble 8 fm && Nat.ble fm 12)) || Nat.blt 1 (bitsOf v 353 352) ||
  bitsOf v 341 336 != 0 || bitsOf v 303 0 != 0

/-- The observation part of close_entry (R294): the new entry, and the unclamped e of a Clamped close. -/
def closeScale (v : Nat) : Nat × Option Int :=
  let seen := bitsOf v 383 376
  if seen = 0xFF then (setBits v 319 304 (min (bitsOf v 319 304 + 1) 65535), none)
  else
    let ring := bitsOf v 511 384
    let replays := bitsOf v 375 372
    let b := match ringMax ring with
      | some r => if 0 < replays then max seen (r + replays) else seen
      | none => seen
    let next := bitsOf v 351 348
    let ring1 := setBits ring (8 * next + 7) (8 * next) (min b 0xFE)
    let v1 := setBits (setBits (setBits v 511 384 ring1) 351 348 ((next + 1) % 16)) 347 343 (min (bitsOf v 347 343 + 1) 16)
    match ringMax ring1 with
    | some r =>
      let e := fmtEMax ((fmtOfCode (bitsOf v 359 354)).getD .int8) - ((r : Int) - 127) - 3
      let clamped := e < -127 ∨ 127 < e
      (setBits (setBits v1 342 342 (if clamped then 1 else 0)) 367 360 (BitVec.ofInt 8 (min (max e (-127)) 127)).toNat,
        if clamped then some e else none)
    | none => (v1, none)

/-- The zero-update monitor at the close of a gradient entry with Frozen = 0 (R299): the entry, and the count to report. -/
def closeZero (v limit : Nat) : Nat × Option Nat :=
  if bitsOf v 353 352 ≠ 1 ∨ bit v 368 then (v, none)
  else
    let c := bitsOf v 335 320
    let quiet := bit v 369 || !bit v 370
    let c1 := if quiet then c else if bit v 371 then 0 else min (c + 1) 65535
    (setBits (setBits v 371 369 0) 335 320 c1,
      if !quiet && !bit v 371 && c1 % limit == 0 && c1 != c then some c1 else none)

/-- One scale entry closed (R294, R299). -/
def W.closeEntry (w : W) (p i : Nat) : W :=
  let v := w.loadNat p (w.fab.scaleAddr p i) 64
  if scaleBad v then w.map (fun f => f.dadd 0x8036 (p + 1) 1)
  else
    let a := closeScale v
    let z := closeZero a.1 (w.fab.dget 0x8022 (p + 1))
    let w1 := w.putEntry p (w.fab.scaleAddr p i) (setBits (setBits z.1 383 376 0xFF) 375 372 0)
    w1.map (fun f =>
      let f1 := match a.2 with
        | some e => (f.dadd 0x8035 (p + 1) 1).raise (srcPartition p) 0x0502 (some p) i (BitVec.ofInt 64 e).toNat
        | none => f
      match z.2 with
      | some n => f1.raise (srcPartition p) 0x0504 (some p) i n
      | none => f1)

/-- STEP_CLOSE (R290). DEDUCED (log 58). -/
def stepClose (e : Entry) (w : W) : W :=
  w.ring e 0x21 (fun w =>
    let p := e.partition
    let done := fun (w : W) (st : HostStatus) => w.map (fun f => f.completeEntry e st)
    match w.fab.steps.find? p with
    | none => done w .stepState
    | some r =>
      if r.slices.any (fun s => s.state == 3) then done w .stepBusy
      else match w.readTables p with
        | (w, some st) => done w st
        | (w, none) =>
          let w1 := (w.compareAll p).abandonRest p false
          let w2 := (List.range (w1.fab.scaleCount p)).foldl (fun x i => x.closeEntry p i) w1
          done (w2.map (fun f => ({ f with steps := f.steps.clear (· == p) }).stepClosed p r.number)) .done)

/-- STEP_CLOSE. -/
def execStepClose (e : Entry) (s : State) : Host.Outcome State Fault Refusal := onMem s (stepClose e)

end Sys2Proof.Machine
end

