-- ==== Sys2Proof/Machine/Folio.lean ====
section
/-! DEFINITION. Sequences and folios: records and entries (R252 to R255), the folio commands (R259, R260), moves (R261 to R263)
and expiry (R264, R265). -/

namespace Sys2Proof.Machine

open Sys2Proof

/-! ### Records -/

/-- Sequence table base and size in force (R251, R276). -/
def Fab.seqTable (f : Fab) (p : Nat) : Nat × Nat := (f.eff 0x7020 (p + 1), f.eff 0x7021 (p + 1))

/-- Folio table base and size in force. -/
def Fab.folioTable (f : Fab) (p : Nat) : Nat × Nat := (f.eff 0x7022 (p + 1), f.eff 0x7023 (p + 1))

/-- Address of sequence record i. -/
def Fab.seqAddr (f : Fab) (p i : Nat) : Nat := (f.seqTable p).1 + 64 * i

/-- Address of folio entry i. -/
def Fab.folioAddr (f : Fab) (p i : Nat) : Nat := (f.folioTable p).1 + 64 * i

/-- A sequence record as a number. -/
def W.seq (w : W) (p i : Nat) : Nat := w.loadNat p (w.fab.seqAddr p i) 64

/-- A folio entry as a number. -/
def W.folio (w : W) (p i : Nat) : Nat := w.loadNat p (w.fab.folioAddr p i) 64

/-- A sequence record written. -/
def W.putSeq (w : W) (p i v : Nat) : W := w.putEntry p (w.fab.seqAddr p i) v

/-- A folio entry written. -/
def W.putFolio (w : W) (p i v : Nat) : W := w.putEntry p (w.fab.folioAddr p i) v

/-- Committed length L of a record (Table "Sequence record"). -/
def seqL (v : Nat) : Nat := bitsOf v 447 416
/-- Weight version. -/
def seqVersion (v : Nat) : Nat := bitsOf v 415 384
/-- Attach count. -/
def seqAttach (v : Nat) : Nat := bitsOf v 383 368
/-- Parked folios. -/
def seqParked (v : Nat) : Nat := bitsOf v 367 347
/-- Moving folios. -/
def seqMoving (v : Nat) : Nat := bitsOf v 346 343
/-- State: 0 free, 1 open, 2 expired. -/
def seqState (v : Nat) : Nat := bitsOf v 342 341
/-- Folio count. -/
def seqFolios (v : Nat) : Nat := bitsOf v 340 320

/-- A record with L set. -/
def setL (v x : Nat) : Nat := setBits v 447 416 x
/-- A record with its Attach count set. -/
def setAttach (v x : Nat) : Nat := setBits v 383 368 x
/-- A record with Parked folios set. -/
def setParked (v x : Nat) : Nat := setBits v 367 347 x
/-- A record with Moving folios set. -/
def setMoving (v x : Nat) : Nat := setBits v 346 343 x
/-- A record with its State set. -/
def setSeqState (v x : Nat) : Nat := setBits v 342 341 x
/-- A record with Folio count set. -/
def setFolios (v x : Nat) : Nat := setBits v 340 320 x

/-- Address of a folio entry (Table "Folio entry"). -/
def folioPlace (v : Nat) : Nat := bitsOf v 511 448
/-- Expiry. -/
def folioExpiry (v : Nat) : Nat := bitsOf v 447 384
/-- Owning sequence. -/
def folioSeq (v : Nat) : Nat := bitsOf v 383 368
/-- Index s. -/
def folioIndex (v : Nat) : Nat := bitsOf v 367 352
/-- Peer window. -/
def folioWindow (v : Nat) : Nat := bitsOf v 351 336
/-- Home base die. -/
def folioHome (v : Nat) : Nat := bitsOf v 335 333
/-- Class. -/
def folioClass (v : Nat) : Nat := bitsOf v 332 330
/-- Tier: 0 free, 1 hot, 2 warm, 3 parked host, 4 parked peer, 5 moving, 6 expired. -/
def folioTier (v : Nat) : Nat := bitsOf v 329 327

/-- An entry with tier, address, peer window and expiry set. -/
def setPlace (v tier addr window expiry : Nat) : Nat :=
  setBits (setBits (setBits (setBits v 329 327 tier) 511 448 addr) 351 336 window) 447 384 expiry

/-- An entry with its tier set. -/
def setTier (v tier : Nat) : Nat := setBits v 329 327 tier

/-- A parked tier. -/
def parked (tier : Nat) : Bool := tier == 3 || tier == 4

/-- A hot or warm tier. -/
def resident (tier : Nat) : Bool := tier == 1 || tier == 2

/-- Entry size E_c of a class of partition p in force (R254). -/
def Fab.entrySize (f : Fab) (p c : Nat) : Nat := f.eff (0x7030 + p) (c + 1)

/-- Commit pointer of a folio (R255). -/
def commitPointer (l index : Nat) : Nat := min (l - 64 * index) 64

/-- The part of the operands of Table "Ring commands" that a folio command uses. -/
def entryFolio (e : Entry) : Nat := bitsOf (word e 0) 31 0
/-- W1 [40:38], the tier. -/
def entryTier (e : Entry) : Nat := bitsOf (word e 1) 40 38
/-- W1 [41], the endpoint: 1 peer. -/
def entryPeer (e : Entry) : Bool := bit (word e 1) 41
/-- W1 [57:42], the peer window. -/
def entryWindow (e : Entry) : Nat := bitsOf (word e 1) 57 42

/-- [a, a + n) lies in the windows of p, in the Inkwell (hot) or the LPDDR5X slice (warm) of base die b (R253, R260). -/
def Fab.folioRange (f : Fab) (p b tier a n : Nat) : Bool :=
  f.inWindows p a (max n 1) &&
  (match f.locate none a, f.locate none (a + max n 1 - 1) with
    | .inkwell x _, .inkwell y _ => tier == 1 && x == b && y == b
    | .lpddr x _, .lpddr y _ => tier == 2 && x == b && y == b
    | _, _ => false)

/-- [a, a + n) of host memory, or [a, a + n) of a peer window, can be reached by partition p (R243, R244, R388). -/
def Fab.parkRange (f : Fab) (p : Nat) (peer : Bool) (window a n : Nat) (write : Bool) : Bool :=
  if peer then
    match (f.scope p).live.endpoints.find? window with
    | some d => endpointWindow d (a + n) write
    | none => false
  else f.inHostWindow p a n write

/-! ### Commands that need no move -/

/-- A command that ends with a status. -/
def W.ends (w : W) (e : Entry) (st : HostStatus) (detail : Nat := 0) : W := w.map (fun f => f.completeEntry e st detail)

/-- The Rubric die reads a record or entry, its address checked against the windows: an uncorrectable line ends the context
(R34, R206, R251). -/
def W.readEntry (w : W) (p a : Nat) : W × Option HostStatus :=
  if w.fab.inWindows p a 64 then W.rubric p [(a, 64, false)] w else (w, some .outOfMap)

/-- `body` on sequence record i for a command, which otherwise ends with the status of the read (R251). -/
def W.withSeq (w : W) (e : Entry) (i : Nat) (body : Nat → W → W) : W :=
  match w.readEntry e.partition (w.fab.seqAddr e.partition i) with
  | (w1, some st) => w1.ends e st
  | (w1, none) => body (w1.seq e.partition i) w1

/-- `body` on folio entry i for a command, as `W.withSeq`. -/
def W.withFolio (w : W) (e : Entry) (i : Nat) (body : Nat → W → W) : W :=
  match w.readEntry e.partition (w.fab.folioAddr e.partition i) with
  | (w1, some st) => w1.ends e st
  | (w1, none) => body (w1.folio e.partition i) w1

/-- `body` on sequence record i for the Rubric die's own work, which a read that fails leaves undone (R251). -/
def W.onSeq (w : W) (p i : Nat) (body : Nat → W → W) : W :=
  match w.readEntry p (w.fab.seqAddr p i) with
  | (w1, some _) => w1
  | (w1, none) => body (w1.seq p i) w1

/-- `body` on folio entry i for the Rubric die's own work, as `W.onSeq`. -/
def W.onFolio (w : W) (p i : Nat) (body : Nat → W → W) : W :=
  match w.readEntry p (w.fab.folioAddr p i) with
  | (w1, some _) => w1
  | (w1, none) => body (w1.folio p i) w1

/-- SEQ_OPEN (R259): a free sequence, or an expired one with no folio left. -/
def seqOpen (e : Entry) (w : W) : W :=
  w.ring e 0x10 (fun w =>
    let p := e.partition
    let i := bitsOf (word e 0) 15 0
    if (w.fab.seqTable p).2 ≤ i then w.ends e .badCommand
    else w.withSeq e i (fun v w =>
      if seqState v = 0 ∨ (seqState v = 2 ∧ seqFolios v = 0) then
        (w.putSeq p i (word e 1 % 2 ^ 64 * 2 ^ 448 + 2 ^ 341)).ends e .done
      else w.ends e .seqState))

/-- SEQ_OPEN. -/
def execSeqOpen (e : Entry) (s : State) : Host.Outcome State Fault Refusal := onMem s (seqOpen e)

/-- SEQ_CLOSE (R259, R260). -/
def seqClose (e : Entry) (w : W) : W :=
  w.ring e 0x11 (fun w =>
    let p := e.partition
    let i := bitsOf (word e 0) 15 0
    if (w.fab.seqTable p).2 ≤ i then w.ends e .badCommand
    else w.withSeq e i (fun v w =>
      if !(seqState v == 1 || seqState v == 2) || seqFolios v != 0 then w.ends e .seqState
      else if seqAttach v ≠ 0 then w.ends e .folioBusy
      else (w.putSeq p i (setSeqState v 0)).ends e .done))

/-- SEQ_CLOSE. -/
def execSeqClose (e : Entry) (s : State) : Host.Outcome State Fault Refusal := onMem s (seqClose e)

/-- FOLIO_ALLOC (R259, R260): the entry is written and Folio count rises; no data moves. -/
def folioAlloc (e : Entry) (w : W) : W :=
  w.ring e 0x12 (fun w =>
    let p := e.partition
    let i := (entryFolio e)
    let q := bitsOf (word e 1) 15 0
    let home := bitsOf (word e 1) 34 32
    let cls := bitsOf (word e 1) 37 35
    let size := w.fab.entrySize p cls
    if (w.fab.folioTable p).2 ≤ i ∨ (w.fab.seqTable p).2 ≤ q ∨ !resident (entryTier e) ∨ size = 0 ∨ word e 2 % 64 ≠ 0 then
      w.ends e .badCommand
    else w.withFolio e i (fun v w => w.withSeq e q (fun s w =>
      if seqState s ≠ 1 then w.ends e .seqState
      else if folioTier v = 5 then w.ends e .folioBusy
      else if folioTier v ≠ 0 then w.ends e .folioState
      else if !w.fab.folioRange p home (entryTier e) (word e 2) (64 * size) then w.ends e .outOfMap
      else
        let entry := word e 2 * 2 ^ 448 + q * 2 ^ 368 + bitsOf (word e 1) 31 16 * 2 ^ 352 + home * 2 ^ 333 + cls * 2 ^ 330 +
          (entryTier e) * 2 ^ 327
        ((w.putFolio p i entry).putSeq p q (setFolios s (seqFolios s + 1))).ends e .done)))

/-- FOLIO_ALLOC. -/
def execFolioAlloc (e : Entry) (s : State) : Host.Outcome State Fault Refusal := onMem s (folioAlloc e)

/-- FOLIO_FREE (R259, R260). -/
def folioFree (e : Entry) (w : W) : W :=
  w.ring e 0x16 (fun w =>
    let p := e.partition
    if (w.fab.folioTable p).2 ≤ (entryFolio e) then w.ends e .badCommand
    else w.withFolio e (entryFolio e) (fun v w =>
      let t := folioTier v
      if t = 0 ∨ t = 7 then w.ends e .folioState
      else w.withSeq e (folioSeq v) (fun s w =>
        if t = 5 ∨ seqAttach s ≠ 0 then w.ends e .folioBusy
        else
          let s1 := setFolios s (seqFolios s - 1)
          let s2 := if parked t then setParked s1 (seqParked s1 - 1) else s1
          ((w.putFolio p (entryFolio e) (setPlace v 0 (folioPlace v) (folioWindow v) 0)).putSeq p (folioSeq v) s2).ends e .done)))

/-- FOLIO_FREE. -/
def execFolioFree (e : Entry) (s : State) : Host.Outcome State Fault Refusal := onMem s (folioFree e)

/-! ### Moves -/

/-- BAD_COMMAND of a FOLIO_MOVE, FOLIO_PARK or FOLIO_UNPARK (R260, R263). -/
def badMove (e : Entry) (f : Fab) : Bool :=
  Nat.ble (f.folioTable e.partition).2 (entryFolio e) || word e 2 % 64 != 0 ||
  (if e.opcode = 0x14 then Nat.blt 86400 (bitsOf (word e 3) 16 0) else !resident (entryTier e))

/-- The first status of R260 for a move on folio entry `v` of sequence record `s`, after BAD_COMMAND; none if it may start. A
source outside the windows is OUT_OF_MAP too (R251, R388). DEDUCED (log 59). -/
def Fab.moveCheck (f : Fab) (e : Entry) (v s : Nat) : Option HostStatus :=
  let p := e.partition
  let t := folioTier v
  let n := 64 * f.entrySize p (folioClass v)
  let unpark := e.opcode == 0x15
  let target := if e.opcode = 0x14 then f.parkRange p (entryPeer e) (entryWindow e) (word e 2) n true
    else f.folioRange p (folioHome v) (entryTier e) (word e 2) n
  let source := if unpark then f.parkRange p (t == 4) (folioWindow v) (folioPlace v) n false
    else f.folioRange p (folioHome v) t (folioPlace v) n
  if t = 6 ∨ (unpark ∧ parked t ∧ folioExpiry v ≤ f.now) then some .folioExpired
  else if t = 5 then some .folioBusy
  else if !(if unpark then parked t else resident t) then some .folioState
  else if !unpark ∧ seqAttach s ≠ 0 then some .folioBusy
  else if !target || !source then some .outOfMap
  else none

/-- The Ductus of a base die. -/
def Fab.ductusOf (f : Fab) (b : Nat) : Ductus := f.ductus.get .idle b

/-- The Ductus of a base die changed. -/
def Fab.onDuctus (f : Fab) (b : Nat) (g : Ductus → Ductus) : Fab := { f with ductus := f.ductus.set b (g (f.ductusOf b)) }

/-- The move that a command starts on folio entry v of sequence record s (R255, R261). -/
def Fab.moveOf (f : Fab) (e : Entry) (v s : Nat) : FolioMove :=
  let size := f.entrySize e.partition (folioClass v)
  let ttl := bitsOf (word e 3) 16 0
  { entry := e, folio := (entryFolio e), seq := folioSeq v, home := folioHome v, oldTier := folioTier v, oldAddr := folioPlace v,
    newTier := if e.opcode = 0x14 then (if (entryPeer e) then 4 else 3) else (entryTier e), newAddr := word e 2,
    peerWindow := if e.opcode = 0x14 ∧ (entryPeer e) then (entryWindow e) else folioWindow v,
    ttl := if ttl = 0 then f.dget 0x7040 (e.partition + 1) else ttl,
    bytes := (commitPointer (seqL s) (folioIndex v) * size + 63) / 64 * 64 }

/-- A move starts (R261): tier moving, Moving folios up, L read once; a folio leaving a parked tier leaves Parked folios.
DEDUCED (log 59). -/
def W.startMove (w : W) (e : Entry) (v s : Nat) : W :=
  let p := e.partition
  let m := w.fab.moveOf e v s
  let s1 := setMoving s (seqMoving s + 1)
  let s2 := if parked m.oldTier then setParked s1 (seqParked s1 - 1) else s1
  (((w.putFolio p m.folio (setTier v 5)).putSeq p m.seq s2).map (fun f => f.onDuctus m.home (fun d => { d with move := some m }))).map
    (fun f =>
      if m.oldTier = 4 then f.rdmaRead m.home p m.peerWindow (f.endpointEntry p m.peerWindow) m.oldAddr m.bytes
      else if m.oldTier = 3 then { f with netOut := f.netOut ++ [.hostRead p m.oldAddr m.bytes] }
      else f)

/-- A checked move starts, or waits for the Ductus of its home (R261, R332). -/
def folioMove (e : Entry) (op : Nat) (w : W) : W :=
  w.ring e op (fun w =>
    if badMove e w.fab then w.ends e .badCommand
    else w.withFolio e (entryFolio e) (fun v w =>
      let wait := fun (w : W) => w.map (fun f => f.onDuctus (folioHome v) (fun d => { d with moves := d.moves ++ [e] }))
      if folioTier v = 0 ∨ folioTier v = 7 then w.ends e .folioState
      else w.withSeq e (folioSeq v) (fun s w =>
        match w.fab.moveCheck e v s with
        | some st => w.ends e st
        | none => if (w.fab.ductusOf (folioHome v)).move.isSome then wait w else w.startMove e v s)))

/-- FOLIO_MOVE. -/
def execFolioMove (e : Entry) (s : State) : Host.Outcome State Fault Refusal := onMem s (folioMove e 0x13)

/-- FOLIO_PARK. -/
def execFolioPark (e : Entry) (s : State) : Host.Outcome State Fault Refusal := onMem s (folioMove e 0x14)

/-- FOLIO_UNPARK. -/
def execFolioUnpark (e : Entry) (s : State) : Host.Outcome State Fault Refusal := onMem s (folioMove e 0x15)

/-- The next waiting move of base die b starts; its conditions are checked again at its start (R256, R261).
DEDUCED (log 59). -/
def W.nextMove (b : Nat) : Nat → W → W
  | 0, w => w
  | n + 1, w =>
    let d := w.fab.ductusOf b
    match d.move, d.moves with
    | none, e :: r =>
      let w1 := w.map (fun f => f.onDuctus b (fun d => { d with moves := r }))
      W.nextMove b n (w1.withFolio e (entryFolio e) (fun v w => w.withSeq e (folioSeq v) (fun s w =>
        match w.fab.moveCheck e v s with
        | some st => w.ends e st
        | none => w.startMove e v s)))
    | _, _ => w

/-- The active move of base die b ends: with `st` DONE in its new place, else in its old tier (R261 to R263). -/
def W.endMove (w : W) (b : Nat) (st : HostStatus) : W :=
  match (w.fab.ductusOf b).move with
  | some m =>
    let p := m.entry.partition
    let w1 := w.map (fun f => f.onDuctus b (fun d => { d with move := none }))
    let done := st == .done
    let expiry := (w.fab.now + m.ttl * 10 ^ 9) % 2 ^ 64
    let w2 := w1.withFolio m.entry m.folio (fun v w => w.withSeq m.entry m.seq (fun s w =>
      let v1 :=
        if !done then setTier v m.oldTier
        else if parked m.newTier then setPlace v m.newTier m.newAddr (if m.newTier = 4 then m.peerWindow else 0) expiry
        else setPlace v m.newTier m.newAddr 0 0
      let s1 := setMoving s (seqMoving s - 1)
      let s2 := if parked (if done then m.newTier else m.oldTier) then setParked s1 (seqParked s1 + 1) else s1
      ((w.putFolio p m.folio v1).putSeq p m.seq s2).ends m.entry st))
    W.nextMove b (w2.fab.ductusOf b).moves.length w2
  | none => w

/-- The bytes a move copies (R261): from package memory, or what the host or the peer sent. -/
def W.moveBytes (w : W) (m : FolioMove) (remote : List Byte) : List Byte :=
  if parked m.oldTier then (remote ++ List.replicate (m.bytes - remote.length) 0).take m.bytes
  else w.loads m.entry.partition m.oldAddr m.bytes

/-- The copy of a move arrives at its new place. -/
def W.moveCopy (w : W) (m : FolioMove) (remote : List Byte) : W :=
  let bytes := w.moveBytes m remote
  if m.newTier = 4 then w.map (fun f => f.rdmaWrite m.home m.entry.partition m.peerWindow
    (f.endpointEntry m.entry.partition m.peerWindow) m.newAddr bytes)
  else if m.newTier = 3 then w.map (fun f => { f with netOut := f.netOut ++ [.hostWrite m.entry.partition m.newAddr bytes] })
  else w.store m.entry.partition m.newAddr bytes

/-- The Ductus of a move's home reads its source and writes its destination in package memory (R35, R189, R261).
DESIGN CHOICE (log 93). -/
def W.moveReach (w : W) (m : FolioMove) : W × Reach :=
  let at_ := fun (g : W) (a : Nat) (write : Bool) =>
    g.access (fun d => w.fab.unitTag m.entry.partition m.home 5 d write) a m.bytes write
  match (if parked m.oldTier then (w, .ok) else at_ w m.oldAddr false) with
  | (g, .ok) => if parked m.newTier then (g, .ok) else at_ g m.newAddr true
  | x => x

/-- FOLIO_MOVE_COMPLETE (R261, R262). -/
def folioMoveComplete (p i : Nat) (remote : List Byte) (outcome : Transfer) (w : W) : W :=
  let mine := fun (b : Nat) => match (w.fab.ductusOf b).move with
    | some m => m.entry.partition == p && m.folio == i
    | none => false
  match (List.range 8).find? mine with
  | some b =>
    match (w.fab.ductusOf b).move with
    | some m =>
      match outcome with
      | .uncorrectable a => (w.endMove b .memUncorrectable).contextFault p a
      | .endpointDown => w.endMove b .endpointDown
      | _ =>
        let r := w.moveReach m
        let w1 := r.1
        match r.2 with
        | .wait => w1
        | .bad a => (w1.endMove b .memUncorrectable).contextFault p a
        | .firewall _ | .outside _ => w1.endMove b .outOfMap
        | .ok => ((w1.moveCopy m remote).map (fun f =>
            if m.oldTier = 4 then f.qpDone p m.peerWindow m.oldAddr false
            else if m.newTier = 4 then f.qpDone p m.peerWindow m.newAddr true
            else f)).endMove b .done
    | none => w
  | none => w

/-- FOLIO_MOVE_COMPLETE. -/
def execFolioMoveComplete (p folio : Nat) (remote : List Byte) (outcome : Transfer) (s : State) :
    Host.Outcome State Fault Refusal := onMem s (folioMoveComplete p folio remote outcome)

/-! ### Expiry -/

/-- A parked folio with entry v expires, with its sequence (R264, R265). The entry's Sequence names a record that must lie in the
partition's windows (R251). DEDUCED (log 59). -/
def W.expire (w : W) (p i v : Nat) (st : HostStatus) : W :=
  let q := folioSeq v
  w.onSeq p q (fun s w =>
    ((w.putFolio p i (setPlace v 6 (folioPlace v) (folioWindow v) 0)).putSeq p q
      (setSeqState (setParked s (seqParked s - 1)) 2)).map (fun f =>
        (f.notify p st.code (q * 2 ^ 176 + i * 2 ^ 128 + folioExpiry v)).dadd 0x7052 (p + 1) 1))

/-- FOLIO_EXPIRY (R264): a parked folio at or past its Expiry. -/
def folioExpiry' (p i : Nat) (w : W) : W :=
  if 16 ≤ p ∨ (w.fab.folioTable p).2 ≤ i then w else
  w.onFolio p i (fun v w => if parked (folioTier v) ∧ folioExpiry v ≤ w.fab.now then w.expire p i v .folioExpired else w)

/-- FOLIO_EXPIRY. -/
def execFolioExpiry (p folio : Nat) (s : State) : Host.Outcome State Fault Refusal := onMem s (folioExpiry' p folio)

/-- Every folio parked on a peer whose engine addresses are listed expires at once (R265). -/
def W.peerParked (w : W) (addresses : List Nat) : W :=
  partitions.foldl (fun x p =>
    (List.range (x.fab.folioTable p).2).foldl (fun y i => y.onFolio p i (fun v y =>
      let gone := match (y.fab.scope p).live.endpoints.find? (folioWindow v) with
        | some d => addresses.contains (descField d 511 384)
        | none => false
      if folioTier v == 4 && gone then y.expire p i v .peerLost else y)) x) w

/-- A table of a partition written with zeros by the Rubric die: whole lines, under the partition's key, that draw their slots
(R202, R231, R251). -/
def W.clearTable (w : W) (p a n : Nat) : W :=
  (w.zeroFor p a n).map (fun f => (f.fillDone (shareOf (f.rubricTag p 0 (f.locate none a).die) ((f.locate none a).die - 16) true) p a n).dirty p a n)

/-- Both tables of a partition cleared at its start (R251, R473). -/
def W.clearTables (w : W) (p : Nat) : W :=
  let s := w.fab.seqTable p
  let f := w.fab.folioTable p
  (w.clearTable p s.1 (64 * s.2)).clearTable p f.1 (64 * f.2)

end Sys2Proof.Machine
end

