-- ==== Sys2Proof/Machine/Version.lean ====
section
/-! DEFINITION. Weight versions (R345 to R352) and batches (R258, R350, R351). -/

namespace Sys2Proof.Machine

open Sys2Proof

/-! ### Version records -/

/-- Version record r of a partition. -/
def Fab.version (f : Fab) (p r : Nat) : VersionRec := f.versions.get .free (8 * p + r)

/-- Code of a version state (Table "Ductus entries"). -/
def VersionState.code : VersionState → Nat
  | .free => 0
  | .loading => 1
  | .current => 2
  | .retiring => 3

/-- A version record set, with its dictionary entries (Table "Ductus entries"). -/
def Fab.setVersion (f : Fab) (p r : Nat) (v : VersionRec) : Fab :=
  let f1 := ({ f with versions := f.versions.set (8 * p + r) v }).dset (0x7070 + p) (r + 1)
    (v.version * 2 ^ 32 + v.state.code * 2 ^ 28 + v.outstanding % 256 * 2 ^ 20 + v.failed % 16 * 2 ^ 16 + v.holds % 65536)
  f1.dset 0x7061 (p + 1) ((((List.range 8).map (f1.version p)).find? (fun x => x.state == .current)).map (·.version) |>.getD 0)

/-- The record of partition p that holds version v. -/
def Fab.versionNo (f : Fab) (p v : Nat) : Option Nat :=
  (List.range 8).find? (fun r => (f.version p r).state != .free && (f.version p r).version == v)

/-- The Current record of partition p. -/
def Fab.currentNo (f : Fab) (p : Nat) : Option Nat := (List.range 8).find? (fun r => (f.version p r).state == .current)

/-- A Current or Retiring record becomes Free, with its notification (R351). -/
def Fab.freeVersion (f : Fab) (p r : Nat) : Fab :=
  (f.setVersion p r .free).notify p HostStatus.versionFreed.code (f.version p r).version

/-- Two ranges share a byte. -/
def rangesMeet (a b : Nat × Nat) : Bool := Nat.blt a.1 (b.1 + b.2) && Nat.blt b.1 (a.1 + a.2)

/-- No two of a list of ranges share a byte. -/
def disjoint : List (Nat × Nat) → Bool
  | [] => true
  | a :: r => !r.any (rangesMeet a) && disjoint r

/-- The used areas of a list. -/
def usedAreas (l : List (Nat × Nat)) : List (Nat × Nat) := l.filter (fun a => a.2 != 0)

/-- VERSION_OPEN (R347), its areas as the area table gives them. -/
def versionOpen (e : Entry) (areas : List (Nat × Nat)) (f : Fab) : Fab :=
  f.ring e 0x30 (fun f =>
    let p := e.partition
    let v := bitsOf (word e 0) 31 0
    let all := (areas ++ List.replicate 8 (0, 0)).take 8
    let used := usedAreas all
    let others := (List.range 8).flatMap (fun r => if (f.version p r).state = .free then [] else usedAreas (f.version p r).areas)
    if !f.inHostWindow p (word e 1) 128 false then f.completeEntry e .outOfMap
    else if v = 0 ∨ v ≤ f.versionTop.get 0 p ∨ used = [] ∨ used.any (fun a => a.1 % 64 != 0 || a.2 % 64 != 0) then
      f.completeEntry e .badDescriptor
    else if used.any (fun a => !f.inWindows p a.1 a.2) then f.completeEntry e .outOfMap
    else if used.any (fun a => others.any (rangesMeet a)) || !disjoint used then f.completeEntry e .areaOverlap
    else match (List.range 8).find? (fun r => (f.version p r).state == .free) with
      | none => f.completeEntry e .versionState
      | some r =>
        ({ f with versionTop := f.versionTop.set p v }.setVersion p r
          { VersionRec.free with version := v, state := .loading, areas := all }).completeEntry e .done)

/-- VERSION_OPEN. -/
def execVersionOpen (e : Entry) (areas : List (Nat × Nat)) (s : State) : Host.Outcome State Fault Refusal :=
  onFab s (versionOpen e areas)

/-- The previous Current record retires, or is freed where nothing holds it (R349). -/
def Fab.retire (f : Fab) (p r : Nat) : Fab :=
  let v := f.version p r
  if v.holds = 0 then f.freeVersion p r else f.setVersion p r { v with state := .retiring }

/-- VERSION_SWITCH (R349). -/
def versionSwitch (e : Entry) (f : Fab) : Fab :=
  f.ring e 0x31 (fun f =>
    let p := e.partition
    let v := bitsOf (word e 0) 31 0
    let old := fun (g : Fab) => match f.currentNo p with | some c => g.retire p c | none => g
    if v = 0 then (old f).completeEntry e .done
    else match f.versionNo p v with
      | none => f.completeEntry e .versionState
      | some r =>
        let x := f.version p r
        if x.state = .current then f.completeEntry e .done
        else if x.state = .loading ∧ (0 < x.outstanding ∨ (0 < x.failed ∧ word e 1 % 2 = 0)) then
          f.completeEntry e .versionIncomplete
        else ((old f).setVersion p r { x with state := .current }).completeEntry e .done)

/-- VERSION_SWITCH. -/
def execVersionSwitch (e : Entry) (s : State) : Host.Outcome State Fault Refusal := onFab s (versionSwitch e)

/-! ### Batches -/

/-- The first failed check of Table "Admission checks" for a sequence record (R258). DEDUCED (log 60). -/
def admissionCheck (v version : Nat) : Option HostStatus :=
  if seqState v = 0 ∨ seqState v = 3 then some .seqState
  else if seqState v = 2 then some .seqExpired
  else if 0 < seqMoving v then some .folioBusy
  else if 0 < seqParked v then some .folioParked
  else if seqVersion v ≠ 0 ∧ seqVersion v ≠ version then some .versionMismatch
  else if seqAttach v = 65535 then some .seqBusy
  else none

/-- The sequences of a batch read and checked one at a time, in the order of its list (R251, R258): the first failure with its
place and number. -/
def W.admissionList (p version : Nat) : Nat → List Nat → W → W × Option (HostStatus × Nat × Nat)
  | _, [], w => (w, none)
  | k, i :: r, w =>
    if (w.fab.seqTable p).2 ≤ i then (w, some (.badCommand, k, i))
    else match w.readEntry p (w.fab.seqAddr p i) with
      | (w1, some st) => (w1, some (st, k, i))
      | (w1, none) =>
        match admissionCheck (w1.seq p i) version with
        | some st => (w1, some (st, k, i))
        | none => W.admissionList p version (k + 1) r w1

/-- The Rubric die reads the records of a list of sequences (R251). -/
def W.readSeqs (w : W) (p : Nat) (l : List Nat) : W × Option HostStatus :=
  W.rubric p ((l.filter (fun i => Nat.blt i (w.fab.seqTable p).2)).map (fun i => (w.fab.seqAddr p i, 64, false))) w

/-- The 128-byte version block (R350). -/
def versionBlock (v : VersionRec) : List Byte :=
  leBytes 4 v.version ++ leBytes 1 (usedAreas v.areas).length ++ List.replicate 59 0 ++
  (List.range 8).flatMap (fun i => let a := v.areas.getD i (0, 0); leBytes 8 (if a.2 = 0 then 0 else a.1))

/-- A sequence joins an admitted batch (R258). -/
def W.attach (w : W) (p version i : Nat) : W :=
  let v := w.seq p i
  let v1 := setAttach v (seqAttach v + 1)
  w.putSeq p i (if seqVersion v = 0 then setBits v1 415 384 version else v1)

/-- Detail of a refused BATCH_ADMIT (R258, R396): place and number of the sequence for a status of Table "Admission checks"; 0 where its
record could not be read. -/
def admissionDetail (st : HostStatus) (k i : Nat) : Nat := if st = .outOfMap ∨ st = .memUncorrectable then 0 else k * 2 ^ 32 + i

/-- BATCH_ADMIT (R258, R350, R474). DEDUCED (log 60). -/
def batchAdmit (e : Entry) (seqs : List Nat) (w : W) : W :=
  w.ring e 0x03 (fun w =>
    let p := e.partition
    let f := w.fab
    let n := bitsOf (word e 2) 12 0
    let l := ((seqs ++ List.replicate n 0).take n).map (· % 65536)
    if f.dget 0xB001 (p + 1) ≠ 2 then w.ends e .busy
    else if n = 0 ∨ 4096 < n then w.ends e .badCommand
    else match f.currentNo p with
      | none => w.ends e .noWeights
      | some r =>
        let v := f.version p r
        if v.holds = 65535 then w.ends e .versionBusy
        else if !f.inHostWindow p (word e 1) (2 * n) false then w.ends e .outOfMap
        else match W.admissionList p v.version 0 l w with
          | (w1, some (st, k, i)) => w1.ends e st (admissionDetail st k i)
          | (w1, none) =>
            match (if f.inWindows p (word e 0) 128 then W.rubric p [(word e 0, 128, true)] w1 else (w1, some .outOfMap)) with
            | (w2, some st) => w2.ends e st
            | (w2, none) =>
              let w3 := l.foldl (fun x i => x.attach p v.version i) (w2.store p (word e 0) (versionBlock v))
              (w3.map (fun f =>
                { f.setVersion p r { v with holds := v.holds + 1 } with
                  batches := f.batches ++ [⟨p, e.tag, v.version, l⟩] })).ends e .done v.version)

/-- BATCH_ADMIT. -/
def execBatchAdmit (e : Entry) (seqs : List Nat) (s : State) : Host.Outcome State Fault Refusal := onMem s (batchAdmit e seqs)

/-- The hold count of a version falls by 1; a Retiring record that nothing holds becomes Free (R351). -/
def Fab.unhold (f : Fab) (p v : Nat) : Fab :=
  match f.versionNo p v with
  | some r =>
    let x := f.version p r
    let y := { x with holds := x.holds - 1 }
    if x.state = .retiring ∧ y.holds = 0 then f.freeVersion p r else f.setVersion p r y
  | none => f

/-- A batch completes or is aborted (R258, R351); a record with an uncorrectable line ends the context and stays (R251). -/
def W.endBatch (w : W) (b : Batch) : W :=
  let w1 := b.seqs.foldl (fun x i => x.onSeq b.partition i (fun v x =>
    x.putSeq b.partition i (setAttach v (seqAttach v - 1)))) w
  w1.map (fun f => { f with batches := removeFirst (· == b) f.batches }.unhold b.partition b.version)

/-- BATCH_END (R351, R395). -/
def batchEnd (e : Entry) (w : W) : W :=
  w.ring e 0x04 (fun w =>
    match w.fab.batches.find? (fun b => b.partition == e.partition && b.tag == bitsOf (word e 0) 31 0) with
    | none => w.ends e .notFound
    | some b =>
      match w.readSeqs e.partition b.seqs with
      | (w1, some st) => w1.ends e st
      | (w1, none) => (w1.endBatch b).ends e .done)

/-- BATCH_END. -/
def execBatchEnd (e : Entry) (s : State) : Host.Outcome State Fault Refusal := onMem s (batchEnd e)

end Sys2Proof.Machine
end

