-- ==== Sys2Proof/Machine/Sampler.lean ====
section
/-! DEFINITION. The sampler units: SAMPLE and SACCEPT (R161, R249), the parameter block and its checks (R266, R267), candidate
weights, draws and uniforms (R268 to R270), speculative acceptance (R273), commits (R256, R274) and completion (R275). -/

namespace Sys2Proof.Machine

open Sys2Proof

/-! ### Issue -/

/-- A sampler unit changed. -/
def Fab.onSampler (f : Fab) (b : Nat) (g : SamplerUnit → SamplerUnit) : Fab :=
  { f with samplers := f.samplers.set b (g (f.sampler b)) }

/-- SAMPLE or SACCEPT with d drafts enters the queue of its unit (R161, R249). DEDUCED (log 61). -/
def sampleIssue (x : Issue) (op : Nat) (draft : Option Nat) (f : Fab) : Fab :=
  f.issue x op (fun g =>
    let c := x.cluster
    let cl := g.cluster c
    let t := cl.strand x.strand
    let aa := (t.areg (fRa x.word)).toNat
    let ab := (t.areg (fRb x.word)).toNat
    let item : SamplerItem :=
      { cluster := c, op := cl.nextOp, partition := g.partitionOf c, logits := aa, block := ab, draft := draft }
    (g.onCluster c (fun cl =>
      (cl.start x.strand t.pc (.sample (fRd x.word) aa ab draft) g false).onStrand x.strand (fun t =>
        { t.advance with busy := t.busy ++ [.s (fRd x.word)] }))).onSampler (baseDieOf c) (fun u =>
          { u with queue := u.queue ++ [item] }))

/-- SAMPLE. -/
def execSample (x : Issue) (s : State) : Host.Outcome State Fault Refusal := onFab s (sampleIssue x 0x90 none)

/-- SACCEPT. -/
def execSaccept (x : Issue) (s : State) : Host.Outcome State Fault Refusal :=
  onFab s (sampleIssue x 0x91 (some (fld x.word 4 0)))

/-! ### Parameter block -/

/-- An FP32 field of a parameter block (Table "Sampler parameter block"). -/
def pbF (pb hi : Nat) : W32 := BitVec.ofNat 32 (bitsOf pb hi (hi - 31))
/-- Temperature. -/
def pbTemperature (pb : Nat) : W32 := pbF pb 319
/-- Top-p. -/
def pbTopP (pb : Nat) : W32 := pbF pb 287
/-- Min-p. -/
def pbMinP (pb : Nat) : W32 := pbF pb 255
/-- Repetition. -/
def pbRepetition (pb : Nat) : W32 := pbF pb 223
/-- Presence. -/
def pbPresence (pb : Nat) : W32 := pbF pb 191
/-- Frequency. -/
def pbFrequency (pb : Nat) : W32 := pbF pb 159
/-- Position P. -/
def pbPosition (pb : Nat) : Nat := bitsOf pb 127 96
/-- Vocabulary V. -/
def pbVocabulary (pb : Nat) : Nat := bitsOf pb 95 72
/-- Top-k. -/
def pbTopK (pb : Nat) : Nat := bitsOf pb 71 60
/-- History length. -/
def pbHistory (pb : Nat) : Nat := bitsOf pb 59 47
/-- Sequence. -/
def pbSequence (pb : Nat) : Nat := bitsOf pb 46 31
/-- Logit format: 0 FP32, 1 BF16. -/
def pbFormat (pb : Nat) : Nat := bitsOf pb 30 25
/-- Commit. -/
def pbCommit (pb : Nat) : Bool := bit pb 24
/-- Draft. -/
def pbDraft (pb : Nat) : Bool := bit pb 23
/-- Draft sequence. -/
def pbDraftSequence (pb : Nat) : Nat := bitsOf pb 22 7
/-- Draft logits address. -/
def pbDraftLogits (pb : Nat) : Nat := bitsOf pb 511 448
/-- Draft tokens address. -/
def pbDraftTokens (pb : Nat) : Nat := bitsOf pb 447 384
/-- History address. -/
def pbHistoryAddress (pb : Nat) : Nat := bitsOf pb 383 320

/-- A finite FP32 value that is not below `lo`; strictly above it where `strict`. -/
def finiteFrom (w : W32) (lo : Num) (strict : Bool) : Bool :=
  let n := fp32 w
  !n.isNaN && !n.isInf && (if strict then lo.lt n else !n.lt lo)

/-- The number one. -/
def numOne : Num := .fin false 1 0

/-- Every field lies in its stated range (R267); `d` drafts for SACCEPT. -/
def blockOk (pb : Nat) (draft : Option Nat) : Bool :=
  bitsOf pb 6 0 == 0 &&
  finiteFrom (pbTemperature pb) .zero false &&
  finiteFrom (pbTopP pb) .zero true && !numOne.lt (fp32 (pbTopP pb)) &&
  finiteFrom (pbMinP pb) .zero false && (fp32 (pbMinP pb)).lt numOne &&
  finiteFrom (pbRepetition pb) numOne false &&
  !(fp32 (pbPresence pb)).isNaN && !(fp32 (pbPresence pb)).isInf &&
  !(fp32 (pbFrequency pb)).isNaN && !(fp32 (pbFrequency pb)).isInf &&
  Nat.ble 1 (pbPosition pb) && Nat.ble (pbPosition pb + draft.getD 0) 4194303 &&
  Nat.ble 1 (pbVocabulary pb) && Nat.ble (pbVocabulary pb) 1048576 && Nat.ble (pbTopK pb) 1024 &&
  Nat.ble (pbHistory pb) 4096 && Nat.ble (pbFormat pb) 1 &&
  (draft.isSome || pbDraftLogits pb == 0 && pbDraftTokens pb == 0)

/-- Bytes of one logit. -/
def logitBytes (pb : Nat) : Nat := if pbFormat pb = 0 then 4 else 2

/-- Distance of two rows of an operand (R266). -/
def rowPitch (pb : Nat) : Nat := (pbVocabulary pb * logitBytes pb + 63) / 64 * 64

/-- Operands that the block names, as ranges: the logits, the draft logits and tokens, the history (R267). -/
def samplerOperands (pb logits : Nat) (draft : Option Nat) : List (Nat × Nat) :=
  let row := pbVocabulary pb * logitBytes pb
  (logits, draft.getD 0 * rowPitch pb + row) ::
    (match draft with
      | some d => [(pbDraftLogits pb, (d - 1) * rowPitch pb + row), (pbDraftTokens pb, 4 * d)]
      | none => []) ++
    (if pbHistory pb = 0 then [] else [(pbHistoryAddress pb, 4 * pbHistory pb)])

/-- [a, a + n) lies wholly in the Inkwell or LPDDR5X of base die b and in the windows of p (R267). -/
def Fab.onDie (f : Fab) (p b a n : Nat) : Bool := f.folioRange p b 1 a n || f.folioRange p b 2 a n

/-- Logit row j of an operand at a, as FP32 values. -/
def W.logitRow (w : W) (p pb a j : Nat) : List W32 :=
  (List.range (pbVocabulary pb)).map (fun y =>
    let n := logitBytes pb
    BitVec.ofNat 32 (w.loadNat p (a + j * rowPitch pb + n * y) n * (if n = 2 then 65536 else 1)))

/-- A logit that R267 rejects. -/
def badLogit (z : W32) : Bool := (fp32 z).isNaN || fp32 z == .inf false

/-- `n` token IDs at an address. -/
def W.tokens (w : W) (p a n : Nat) : List Nat := (List.range n).map (fun i => w.loadNat p (a + 4 * i) 4)

/-! ### Candidate weights -/

/-- The penalties on a logit whose token was counted c times (R268). -/
def penalised (pb c : Nat) (z : W32) : W32 :=
  if c = 0 then z else
  let y := if Num.zero.lt (fp32 z) then (fpDiv z (pbRepetition pb)).1 else (fpMul z (pbRepetition pb)).1
  let q := (fpMul (intToFp (BitVec.ofNat 64 c)) (pbFrequency pb)).1
  (fpSub y (fpAdd (pbPresence pb) q).1).1

/-- z of R268: penalties, then the temperature. -/
def logitValues (row : List W32) (pb : Nat) (history : List Nat) : List W32 :=
  let t := fp32 (pbTemperature pb)
  row.mapIdx (fun y z =>
    let v := penalised pb (history.count y) z
    if Num.zero.lt t then (fpDiv v (pbTemperature pb)).1 else v)

/-- The greater of two values, the first where they are equal. -/
def laterMax (a b : Num) : Num := if a.lt b then b else a

/-- A pair put before the first one that is not greater: with a list built from its end, equal values keep their order. -/
def insertDown (x : Nat × W32) : List (Nat × W32) → List (Nat × W32)
  | [] => [x]
  | y :: r => if (fp32 x.2).lt (fp32 y.2) then y :: insertDown x r else x :: y :: r

/-- Pairs of token and value in falling order of value, ties to the lower token. -/
def sortDown (l : List (Nat × W32)) : List (Nat × W32) := l.foldr insertDown []

/-- A finite non-negative FP32 value in units of 2^-149. -/
def units149 (w : W32) : Nat :=
  match fp32 w with
  | .fin false m e => m <<< (e + 149).toNat
  | _ => 0

/-- The shortest prefix whose sum in units of 2^-149, times 2^149, reaches `target` (R268, Top-p). -/
def topPrefix (target : Nat) : Nat → List (Nat × W32) → List Nat
  | _, [] => []
  | acc, x :: r => if target ≤ acc * 2 ^ 149 then [] else x.1 :: topPrefix target (acc + units149 x.2) r

/-- candidate_weights of R268 in units of 2^-149; none where R267 rejects. -/
def candidateWeights (row : List W32) (pb : Nat) (history : List Nat) (full : Bool) : Option (List Nat) :=
  let z := logitValues row pb history
  let top := z.foldl (fun m v => laterMax m (fp32 v)) (.inf true)
  if z.any (fun v => (fp32 v).isNaN) || z.all (fun v => fp32 v == .inf true) then none
  else if (fp32 (pbTemperature pb)).isZero || top == .inf false then
    let g := (z.findIdx? (fun v => !(fp32 v).lt top)).getD 0
    some ((List.range z.length).map (fun y => if y = g then 2 ^ 149 else 0))
  else
    let live := (z.mapIdx (fun y v => (y, v))).filter (fun x => fp32 x.2 != .inf true)
    let best := ((sortDown live).take (if pbTopK pb = 0 then 1024 else pbTopK pb)).map (·.1)
    let cand := if full then live else live.filter (fun x => best.contains x.1)
    let m := (live.find? (fun x => !(fp32 x.2).lt top)).map (·.2) |>.getD 0
    let e0 := cand.map (fun x => (x.1, (fpExp (fpSub x.2 m).1).1))
    let e := e0.filter (fun x => Nat.ble (units149 (pbMinP pb)) (units149 x.2))
    let kept :=
      if (fp32 (pbTopP pb)).lt numOne then
        topPrefix (units149 (pbTopP pb) * (e.map (fun x => units149 x.2)).sum) 0 (sortDown e)
      else e.map (·.1)
    some ((List.range z.length).map (fun y => if kept.contains y then ((e.find? (fun x => x.1 == y)).map (fun x => units149 x.2)).getD 0 else 0))

/-! ### Uniforms and draws -/

/-- Ten rounds of Philox-4x32 (R270): counter words and key words. -/
def philox : Nat → Nat × Nat × Nat × Nat → Nat × Nat → Nat × Nat × Nat × Nat
  | 0, c, _ => c
  | n + 1, (c0, c1, c2, c3), (k0, k1) =>
    let a := 0xD2511F53 * c0
    let b := 0xCD9E8D57 * c2
    philox n (Nat.xor (Nat.xor (b / 2 ^ 32) c1) k0, b % 2 ^ 32, Nat.xor (Nat.xor (a / 2 ^ 32) c3) k1, a % 2 ^ 32)
      ((k0 + 0x9E3779B9) % 2 ^ 32, (k1 + 0xBB67AE85) % 2 ^ 32)

/-- 2^25 times the uniform of a seed, a position and a purpose (R270): an odd number below 2^25. -/
def uniform25 (seed q r : Nat) : Nat :=
  2 * ((philox 10 (q, r, 0, 0) (seed % 2 ^ 32, seed / 2 ^ 32 % 2 ^ 32)).1 / 256) + 1

/-- draw of R269 with u = k / 2^25. -/
def drawFrom (k total : Nat) : Nat → Nat → List Nat → Nat
  | y, _, [] => y
  | y, acc, w :: r => if k * total < (acc + w) * 2 ^ 25 then y else drawFrom k total (y + 1) (acc + w) r

/-- draw of R269. -/
def draw (w : List Nat) (k : Nat) : Nat := drawFrom k w.sum 0 0 w

/-- One test of SACCEPT and those after it (R273): the drafts still to be tested with their rows, and how many were
accepted. The rows after a rejected draft are not looked at. DESIGN CHOICE (log 117). -/
def acceptFrom (pb seed : Nat) (history : List Nat) (verify : Nat → List W32) (drafts : Nat → List W32) :
    Nat → List Nat → List Nat → Option (Nat × Nat)
  | i, before, [] => (candidateWeights (verify i) pb (history ++ before) false).map (fun ep =>
      (i, draw ep (uniform25 seed (pbPosition pb + i) 0)))
  | i, before, x :: r =>
    match candidateWeights (verify i) pb (history ++ before) false, candidateWeights (drafts i) pb (history ++ before) false with
    | some ep, some eq =>
      let tp := ep.sum
      let tq := eq.sum
      let pos := pbPosition pb + i
      if eq.getD x 0 = 0 ∨ ep.getD x 0 * tq * 2 ^ 25 < uniform25 seed pos 2 * eq.getD x 0 * tp then
        let rest := List.zipWith (fun a b => a * tq - b * tp) ep eq
        some (i, draw (if rest.sum = 0 then ep else rest) (uniform25 seed pos 3))
      else acceptFrom pb seed history verify drafts (i + 1) (before ++ [x]) r
    | _, _ => none

/-! ### The unit -/

/-- What a unit makes of an instruction: an uncorrectable line, a rejection, or a result with its commits. -/
inductive Sampled
  | fault (address : Nat)
  | reject
  | result (token accepted : Nat) (commits : List (Nat × Nat))
  deriving DecidableEq, Repr

/-- Sequences the block names: its own, and the draft one of a committing SACCEPT (R267, R274). -/
def blockSequences (pb : Nat) (draft : Option Nat) : List Nat :=
  pbSequence pb ::
    (if draft.isSome && pbCommit pb && pbDraftSequence pb != pbSequence pb then [pbDraftSequence pb] else [])

/-- A sequence is below its table's size and open. -/
def W.seqOpenNow (w : W) (p i : Nat) : Bool := Nat.blt i (w.fab.seqTable p).2 && seqState (w.seq p i) == 1

/-- The commits of a result: P + a, and P + min(a, d - 1) for the draft sequence (R269, R274). -/
def commitsOf (pb accepted : Nat) (draft : Option Nat) : List (Nat × Nat) :=
  if !pbCommit pb then [] else
  match draft, blockSequences pb draft with
  | some d, [s, t] => [(s, pbPosition pb + accepted), (t, pbPosition pb + min accepted (d - 1))]
  | _, s :: _ => [(s, pbPosition pb + accepted)]
  | _, [] => []

/-- The computation of a sampler instruction whose block is readable and good (R267 to R273). -/
def W.sampled (w : W) (x : SamplerItem) (pb : Nat) : Sampled :=
  let p := x.partition
  let seed := bitsOf (w.seq p (pbSequence pb)) 511 448
  let verify := w.logitRow p pb x.logits
  let drafts := w.logitRow p pb (pbDraftLogits pb)
  let history := (w.tokens p (pbHistoryAddress pb) (pbHistory pb)).filter (fun y => Nat.blt y (pbVocabulary pb))
  match x.draft with
  | none =>
    let full := !pbDraft pb && pbTopK pb == 0 && !(fp32 (pbTopP pb)).lt numOne && (fp32 (pbMinP pb)).isZero
    if (verify 0).any badLogit then .reject
    else match candidateWeights (verify 0) pb history full with
      | some ws => .result (draw ws (uniform25 seed (pbPosition pb) (if pbDraft pb then 1 else 0))) 0 (commitsOf pb 0 none)
      | none => .reject
  | some d =>
    let tokens := w.tokens p (pbDraftTokens pb) d
    if (List.range (d + 1)).any (fun i => (verify i).any badLogit) || (List.range d).any (fun i => (drafts i).any badLogit) ||
        tokens.any (fun t => Nat.ble (pbVocabulary pb) t) then .reject
    else match acceptFrom pb seed history verify drafts 0 [] tokens with
      | some (a, t) => .result t a (commitsOf pb a x.draft)
      | none => .reject

/-- The tag of a transfer of sampler unit b (Table "Source units", R35). -/
def Fab.samplerTag (f : Fab) (p b dest : Nat) : Tag := { f.rubricTag p (2 + b) dest with cls := 6 }

/-- Sampler unit b reads ranges of its base die in order (R35, R189, R206). DESIGN CHOICE (log 93). DEDUCED (log 61). -/
def W.samplerReads (p b : Nat) : List (Nat × Nat) → W → W × Reach
  | [], w => (w, .ok)
  | r :: l, w =>
    match w.access (w.fab.samplerTag p b) r.1 r.2 false with
    | (g, .ok) => W.samplerReads p b l g
    | x => x

/-- The Rubric die reads the records of the sequences that a block names, those that its table holds. DEDUCED (log 61). -/
def W.recordReads (w : W) (p : Nat) (seqs : List Nat) : W × Reach :=
  W.rubricReach p ((seqs.filter (fun i => Nat.blt i (w.fab.seqTable p).2)).map (fun i => (w.fab.seqAddr p i, 64, false))) w

/-- A sampler instruction run (R267): the block, its fields, its operands and its sequences checked in this order.
DEDUCED (log 61). -/
def W.runSampler (w : W) (b : Nat) (x : SamplerItem) : W × Sampled :=
  let p := x.partition
  if !w.fab.onDie p b x.block 64 then (w, .reject)
  else match W.samplerReads p b [(x.block, 64)] w with
    | (w1, .bad a) => (w1, .fault a)
    | (w1, .firewall _) | (w1, .outside _) | (w1, .wait) => (w1, .reject)
    | (w1, .ok) =>
      let f := w1.fab
      let pb := w.loadNat p x.block 64
      let ops := samplerOperands pb x.logits x.draft
      let seqs := blockSequences pb x.draft
      if !blockOk pb x.draft || ops.any (fun r => !f.onDie p b r.1 r.2) then (w1, .reject)
      else match W.samplerReads p b ops w1 with
        | (g, .bad a) => (g, .fault a)
        | (g, .firewall _) | (g, .outside _) | (g, .wait) => (g, .reject)
        | (g, .ok) =>
          match g.recordReads p seqs with
          | (w2, .bad a) => (w2, .fault a)
          | (w2, .firewall _) | (w2, .outside _) | (w2, .wait) => (w2, .reject)
          | (w2, .ok) => (w2, if seqs.all (w2.seqOpenNow p) then w2.sampled x pb else .reject)

/-- The operation a sampler instruction belongs to, while it is in flight. -/
def Fab.samplerOp (f : Fab) (x : SamplerItem) : Option Op := (f.cluster x.cluster).op? x.op

/-- SAMPLER_START (R249): an idle unit takes the next queued instruction whose strand still waits for it; it stays idle in the safe
state of its island (R456). DEDUCED (log 61). -/
def samplerStart (b : Nat) (w : W) : W :=
  let u := w.fab.sampler b
  if u.serving.isSome || w.fab.halts 944 then w else
  match u.queue.dropWhile (fun x => (w.fab.samplerOp x).isNone) with
  | [] => if u.queue.isEmpty then w else w.map (fun f => f.onSampler b (fun u => { u with queue := [] }))
  | x :: r =>
    let y := (w.map (fun f => f.onSampler b (fun u => { u with queue := r }))).runSampler b x
    let w1 := y.1
    match y.2, w.fab.samplerOp x with
    | .fault a, some o =>
      (w1.map (fun f => (f.onStrand x.cluster o.strand (fun t => match o.kind with
        | .sample rd _ _ _ => t.unbusy (.s rd)
        | _ => t)).finish x.cluster x.op)).memFault x.cluster o.strand o.epc a (w.fab.locate none a)
    | .result t a cs, _ => w1.map (fun f => f.onSampler b (fun u => { u with serving := some ⟨x, some (t, a), cs, cs.isEmpty⟩ }))
    | _, _ => w1.map (fun f => f.onSampler b (fun u => { u with serving := some ⟨x, none, [], true⟩ }))

/-- SAMPLER_START. -/
def execSamplerStart (b : Nat) (s : State) : Host.Outcome State Fault Refusal := onMem s (samplerStart b)

/-- A commit applied: L := max(L, L_new) (R256). -/
def W.commitL (w : W) (p : Nat) (x : Nat × Nat) : W :=
  let v := w.seq p x.1
  w.putSeq p x.1 (setL v (max (seqL v) x.2))

/-- SAMPLER_COMMIT (R256, R267, R274): both commits apply, or the instruction is rejected. DEDUCED (log 61). -/
def samplerCommit (b : Nat) (w : W) : W :=
  match (w.fab.sampler b).serving with
  | some v =>
    let p := v.item.partition
    let seqs := v.commit.map (·.1)
    if v.committed || (w.fab.samplerOp v.item).isNone || w.fab.halts 944 then w
    else
      let r := w.recordReads p seqs
      let w := r.1
      match r.2, w.fab.samplerOp v.item with
      | .bad a, some o =>
        (w.map (fun f => ((f.onStrand v.item.cluster o.strand (fun t => match o.kind with
          | .sample rd _ _ _ => t.unbusy (.s rd)
          | _ => t)).finish v.item.cluster v.item.op).onSampler b (fun u => { u with serving := none }))).memFault
            v.item.cluster o.strand o.epc a (w.fab.locate none a)
      | _, _ =>
        if r.2 == .ok && seqs.all (fun i => w.seqOpenNow p i && seqMoving (w.seq p i) == 0 && seqParked (w.seq p i) == 0) then
          (v.commit.foldl (fun x c => x.commitL p c) w).map (fun f =>
            f.onSampler b (fun u => { u with serving := some { v with committed := true } }))
        else w.map (fun f => f.onSampler b (fun u => { u with serving := some { v with result := none, commit := [], committed := true } }))
  | none => w

/-- SAMPLER_COMMIT. -/
def execSamplerCommit (b : Nat) (s : State) : Host.Outcome State Fault Refusal := onMem s (samplerCommit b)

/-- The value that sd receives (R161). -/
def samplerValue (draft : Option Nat) : Option (Nat × Nat) → Word
  | none => BitVec.allOnes 64
  | some (t, a) => BitVec.ofNat 64 (if draft.isSome then a + t * 2 ^ 32 else t)

/-- SAMPLER_COMPLETE (R161, R267, R275): sd is written and the unit is free; an instruction that no strand waits for writes
nothing. DEDUCED (log 61). -/
def samplerComplete (b : Nat) (f : Fab) : Fab :=
  match (f.sampler b).serving with
  | some v =>
    let g := f.onSampler b (fun u => { u with serving := none })
    let p := v.item.partition
    match f.samplerOp v.item with
    | none => g
    | some o =>
      if !v.committed then f else
      let g1 := match v.result, v.item.draft with
        | none, _ => g.dadd 0x7053 (p + 1) 1
        | some (_, a), some d => (g.dadd 0x7050 (p + 1) d).dadd 0x7051 (p + 1) a
        | _, _ => g
      let g2 := g1.onStrand v.item.cluster o.strand (fun t => match o.kind with
        | .sample rd _ _ _ => (t.setS rd (samplerValue v.item.draft v.result)).unbusy (.s rd)
        | _ => t)
      (g2.finish v.item.cluster v.item.op).raiseFlags v.item.cluster o.strand o.epc
        (if v.result.isNone then .invalid else .none)
  | none => f

/-- SAMPLER_COMPLETE. -/
def execSamplerComplete (b : Nat) (s : State) : Host.Outcome State Fault Refusal :=
  onFab s (fun f => match (f.sampler b).serving with
    | some v => f.atCluster v.item.cluster (samplerComplete b)
    | none => f)

end Sys2Proof.Machine
end

