-- ==== Sys2Proof/Machine/Ductus.lean ====
section
/-! DEFINITION. The Ductus (R332 to R344): generation tiles, the job descriptor and its checks, the turns and the ends of jobs;
and VERSION_FREE (R352). -/

namespace Sys2Proof.Machine

open Sys2Proof

/-! ### The job descriptor -/

/-- Source of a job (Table "Ductus job"). -/
def jobSource (d : BitVec 512) : Nat := descField d 511 448
/-- Destination. -/
def jobDest (d : BitVec 512) : Nat := descField d 447 384
/-- Version. -/
def jobVersion (d : BitVec 512) : Nat := descField d 383 352
/-- K. -/
def jobK (d : BitVec 512) : Nat := descField d 351 328
/-- N. -/
def jobN (d : BitVec 512) : Nat := descField d 327 304
/-- Leading dimension. -/
def jobLd (d : BitVec 512) : Nat := descField d 303 280
/-- Length. -/
def jobLength (d : BitVec 512) : Nat := descField d 279 240
/-- Rate. -/
def jobRate (d : BitVec 512) : Nat := descField d 239 228
/-- Tree. -/
def jobTree (d : BitVec 512) : Nat := descField d 227 220
/-- Multicast. -/
def jobCasts (d : BitVec 512) : Bool := descField d 219 219 = 1
/-- Kind: 0 COPY, 1 QUANTISE, 2 LOAD, 3 RECEIVE. -/
def jobKind (d : BitVec 512) : Nat := descField d 218 216
/-- Base die. -/
def jobDie (d : BitVec 512) : Nat := descField d 215 213
/-- Source format: 0 FP32, 1 BF16. -/
def jobFrom (d : BitVec 512) : Nat := descField d 212 207
/-- Target format. -/
def jobFmt (d : BitVec 512) : Fmt := (fmtOfCode (descField d 206 201)).getD .fp32
/-- Padded. -/
def jobPadded (d : BitVec 512) : Bool := descField d 200 200 = 1
/-- Endpoint. -/
def jobEndpoint (d : BitVec 512) : Nat := descField d 199 184

/-- Column length C (Table "Generation tile parameters"); 0 for a format that the table does not list. -/
def columnLength (m : Fmt) (padded : Bool) : Nat :=
  match m with
  | .e4m3 | .e5m2 | .mxE4m3 | .mxE5m2 | .mxE3m2 | .mxE2m3 => if padded then 0 else 64
  | .mxE2m1 => if padded then 64 else 128
  | .bf16 => if padded then 0 else 32
  | _ => 0

/-- Element bytes of a column. -/
def columnBytes (m : Fmt) : Nat := unitBytes m

/-- Scale bytes of a column t_F. -/
def columnScales (m : Fmt) : Nat := unitScales m

/-- Tiles of a job along K (R335). -/
def jobKT (d : BitVec 512) : Nat := (jobK d + columnLength (jobFmt d) (jobPadded d) - 1) / columnLength (jobFmt d) (jobPadded d)

/-- Columns of a job: 64 of each tile. -/
def jobColumns (d : BitVec 512) : Nat := jobKT d * ((jobN d + 63) / 64) * 64

/-- Bytes a job produces: Length or S_q (R337). -/
def jobBytes (d : BitVec 512) : Nat :=
  if jobKind d = 1 then jobColumns d * (columnBytes (jobFmt d) + columnScales (jobFmt d)) else jobLength d

/-- Bytes of a source element. -/
def jobElemBytes (d : BitVec 512) : Nat := if jobFrom d = 0 then 4 else 2

/-- Bytes from the first source element to the last one of a QUANTISE job, or Length. -/
def jobSourceBytes (d : BitVec 512) : Nat :=
  if jobKind d = 1 then jobElemBytes d * ((jobK d - 1) * jobLd d + jobN d) else jobLength d

/-- BAD_DESCRIPTOR of R340 does not apply. -/
def jobOk (d : BitVec 512) : Bool :=
  let k := jobKind d
  descField d 183 0 == 0 && Nat.ble k 3 && jobDest d % 64 == 0 && Nat.ble (jobRate d) 200 &&
  (jobDest d != 0 || (jobCasts d && Nat.ble k 1 && jobVersion d == 0)) &&
  (if k = 1 then
    Nat.ble 1 (jobK d) && Nat.ble 1 (jobN d) && Nat.ble (jobN d) (jobLd d) && jobLength d == 0 && Nat.ble (jobFrom d) 1 &&
    (fmtOfCode (descField d 206 201)).isSome && columnLength (jobFmt d) (jobPadded d) != 0
  else
    jobK d == 0 && jobN d == 0 && jobLd d == 0 && jobLength d % 64 == 0 && Nat.ble 64 (jobLength d) &&
    Nat.ble (jobLength d) (2 ^ 36) && jobFrom d == 0 && descField d 206 201 == 0 && !jobPadded d) &&
  (k == 2 || jobEndpoint d == 0) && (k != 3 || jobSource d == 0)

/-- A range begins and ends in the Inkwell, or begins and ends in the slice, of base die b. -/
def Fab.sameDie (f : Fab) (b a n : Nat) : Bool :=
  match f.locate none a, f.locate none (a + n - 1) with
  | .inkwell x _, .inkwell y _ => x == b && y == b
  | .lpddr x _, .lpddr y _ => x == b && y == b
  | _, _ => false

/-- WRONG_DIE of R340. -/
def Fab.wrongDie (f : Fab) (p : Nat) (d : BitVec 512) : Bool :=
  let k := jobKind d
  let tree := (f.scope p).live.trees.find? (jobTree d)
  (Nat.ble k 1 && !f.sameDie (jobDie d) (jobSource d) (jobSourceBytes d)) ||
  (jobDest d != 0 && !f.sameDie (jobDie d) (jobDest d) (jobBytes d)) ||
  ((jobCasts d || k == 3) && match tree with
    | some t => treeDie t != jobDie d || (jobCasts d && treeRank t != 0) || (k == 3 && treeRank t == 0)
    | none => true)

/-- The read of a LOAD lies in a storage endpoint (R340, R365). DEDUCED (log 62). -/
def Fab.storageOk (f : Fab) (p : Nat) (d : BitVec 512) : Bool :=
  match (f.scope p).live.endpoints.find? (jobEndpoint d) with
  | some x => descField x 211 209 == 3 && endpointWindow x (jobSource d + jobLength d) false
  | none => false

/-- The endpoint of a LOAD is a storage endpoint (R338, R365). -/
def Fab.isStorage (f : Fab) (p : Nat) (d : BitVec 512) : Bool :=
  match (f.scope p).live.endpoints.find? (jobEndpoint d) with
  | some x => descField x 211 209 == 3
  | none => false

/-- The first status of Table "Ductus status" that applies to an arriving job, in the order the table lists them (R340).
DEDUCED (log 62). -/
def Fab.jobCheck (f : Fab) (p : Nat) (d : BitVec 512) : Option Nat :=
  let k := jobKind d
  let rec_ := f.versionNo p (jobVersion d)
  let areas := match rec_ with | some r => usedAreas (f.version p r).areas | none => []
  if !jobOk d || (k == 2 && !f.isStorage p d) then some 0x03
  else if f.wrongDie p d then some 0x05
  else if (Nat.ble k 1 && !f.inWindows p (jobSource d) (jobSourceBytes d)) || (k == 2 && !f.storageOk p d) ||
      (jobDest d != 0 && !f.inWindows p (jobDest d) (jobBytes d)) then some 0x04
  else if jobDest d != 0 && !(match rec_ with | some r => (f.version p r).state == .loading | none => false) then some 0x06
  else if jobDest d != 0 && !areas.any (fun a => Nat.ble a.1 (jobDest d) && Nat.ble (jobDest d + jobBytes d) (a.1 + a.2)) then
    some 0x08
  else if 16 ≤ ((f.ductusOf (jobDie d)).queue.get [] p).length then some 0x07
  else none

/-! ### Counts and ends -/

/-- The record of a job's version changed. -/
def Fab.onJobVersion (f : Fab) (p : Nat) (d : BitVec 512) (g : VersionRec → VersionRec) : Fab :=
  if jobDest d = 0 then f else
  match f.versionNo p (jobVersion d) with
  | some r => f.setVersion p r (g (f.version p r))
  | none => f

/-- A Loading record that VERSION_FREE waits for becomes Free when its last job has ended (R352). -/
def Fab.freeLoaded (f : Fab) (p v : Nat) : Fab :=
  match f.versionNo p v with
  | some r =>
    let x := f.version p r
    if x.freeing.isEmpty || x.outstanding != 0 then f
    else x.freeing.foldl (fun g e => g.completeEntry e .done) (f.setVersion p r .free)
  | none => f

/-- A queued or running job ends with a status (R340, R352): its version's counts, the counts of its Ductus, its completion.
DEDUCED (log 45). DESIGN CHOICE (log 63). -/
def Fab.endJob (f : Fab) (b : Nat) (j : Job) (status : Nat) (detail : Nat := 0) : Fab :=
  let p := j.partition
  let f1 := f.onJobVersion p j.desc (fun x =>
    { x with outstanding := x.outstanding - 1, failed := if status = 0 then x.failed else min 15 (x.failed + 1) })
  let f2 := f1.dadd (if status = 0 then 0x7064 else 0x7065) (b + 1) 1
  (f2.complete p 0x33 status j.entry.tag detail j.entry.serial).freeLoaded p (jobVersion j.desc)

/-- The active job of a partition leaves its Ductus; the flags of its conversions are counted (R87), and what is left of a LOAD's
read is dropped. DESIGN CHOICE (log 64). -/
def Fab.endActive (f : Fab) (b : Nat) (j : Job) (status : Nat) (detail : Nat := 0) : Fab :=
  let r : Raise := ⟨j.flags.getLsbD 0, j.flags.getLsbD 1, j.flags.getLsbD 2⟩
  let f1 := f.onDuctus b (fun d => { d with active := d.active.clear (· == j.partition) })
  let f2 := if jobKind j.desc = 2 then f1.qpDone j.partition (jobEndpoint j.desc) (jobSource j.desc) false else f1
  (f2.countFlags r).endJob b j status detail

/-! ### Commands -/

/-- DUCTUS_JOB (R338, R340). -/
def ductusJob (e : Entry) (w : W) : W :=
  w.ring e 0x33 (fun w =>
    let p := e.partition
    let a := word e 0
    let refuse := fun (st : Nat) (w : W) => w.map (fun f => f.complete p 0x33 st e.tag 0 e.serial)
    if a % 64 ≠ 0 then refuse 0x03 w
    else if !w.fab.inWindows p a 64 then refuse 0x04 w
    else match W.rubricReach p [(a, 64, false)] w with
      | (w, .bad x) => (refuse 0x0C w).contextFault p x
      | (w, .firewall _) | (w, .outside _) | (w, .wait) => refuse 0x04 w
      | (w, .ok) =>
        let d := BitVec.ofNat 512 (w.loadNat p a 64)
        match w.fab.jobCheck p d with
        | some st => refuse st w
        | none => w.map (fun f =>
          let j : Job :=
            { entry := e, partition := p, desc := d, pos := 0, coll := none, broken := none, cancelled := false, flags := 0 }
          (f.onJobVersion p d (fun x => { x with outstanding := x.outstanding + 1 })).onDuctus (jobDie d) (fun u =>
            { u with queue := u.queue.set p (u.queue.get [] p ++ [j]) })))

/-- DUCTUS_JOB. -/
def execDuctusJob (e : Entry) (s : State) : Host.Outcome State Fault Refusal := onMem s (ductusJob e)

/-- An active job of base die b changed. -/
def Fab.setJob (f : Fab) (b : Nat) (j : Job) : Fab := f.onDuctus b (fun d => { d with active := d.active.set j.partition j })

/-- DUCTUS_JOB_START (R332, R341): the head of the partition's queue becomes active; an output above 2^36 bytes is SIZE; a job
with Multicast and a RECEIVE launch their broadcast. None starts once the EWS_N sequence has ended the running ones (R443).
DEDUCED (log 62). -/
def ductusJobStart (b p : Nat) (w : W) : W :=
  if w.fab.ewsGraced then w else
  let u := w.fab.ductusOf b
  match u.active.find? p, u.queue.get [] p with
  | none, j :: r =>
    let w1 := w.map (fun f => (f.onDuctus b (fun d => { d with queue := d.queue.set p r })).setJob b j)
    let d := j.desc
    let endWith := fun (st detail : Nat) (x : W) => x.map (fun f => f.endActive b j st detail)
    if 2 ^ 36 < jobBytes d then endWith 0x0E 0 w1
    else if jobCasts d || jobKind d == 3 then
      let op : CollOp :=
        { rd := 0, src := 0, dst := jobDest d, size := jobBytes d, tree := jobTree d, kind := 4, fmt := 2, scope := 3, ctr := 0 }
      match (w.fab.scope p).live.trees.find? (jobTree d) with
      | none => endWith 0x0B kolasMismatch w1
      | some t =>
        match w1.claim p b t op (.job b p) (fun x => x.map (fun f => f.setJob b { j with coll := some f.nextColl })) with
        | (_, .ok (.ok (w2, _))) => loads d w2
        | (x, .ok (.error st)) => endWith 0x0B st x
        | (x, .error (.bad a)) => (endWith 0x0C 0 x).contextFault p a
        | (x, .error (.firewall _)) => endWith 0x0B kolasFirewall x
        | (x, .error _) => endWith 0x0B kolasOutOfMap x
    else loads d w1
  | _, _ => w
where
  /-- The read request of a LOAD goes out through the engine of the job's base die (R333, R339). -/
  loads (d : BitVec 512) (w : W) : W :=
    if jobKind d = 2 then w.map (fun f => f.rdmaRead b p (jobEndpoint d) (f.endpointEntry p (jobEndpoint d)) (jobSource d) (jobLength d)) else w

/-- DUCTUS_JOB_START. -/
def execDuctusJobStart (b p : Nat) (s : State) : Host.Outcome State Fault Refusal := onMem s (ductusJobStart b p)

/-! ### Production -/

/-- Address of source element (k, n) (R335). -/
def jobElemAddr (d : BitVec 512) (k n : Nat) : Nat := jobSource d + jobElemBytes d * (k * jobLd d + n)

/-- The places of column q: its k values and its n (R335). -/
def jobColumn (d : BitVec 512) (q : Nat) : List Nat × Nat :=
  let c := columnLength (jobFmt d) (jobPadded d)
  let tile := q / 64
  ((List.range c).map (fun i => c * (tile % jobKT d) + i), 64 * (tile / jobKT d) + q % 64)

/-- Column q quantised or converted (R336): element bytes, scale bytes, flags, blocks with NV and blocks with SO. -/
def W.column (w : W) (p : Nat) (d : BitVec 512) (q : Nat) : List Byte × List Byte × Raise × Nat × Nat :=
  let m := jobFmt d
  let x := jobColumn d q
  let v := x.1.map (fun k =>
    if k < jobK d ∧ x.2 < jobN d then
      fp32 (BitVec.ofNat 32 (w.loadNat p (jobElemAddr d k x.2) (jobElemBytes d) * (if jobFrom d = 0 then 1 else 65536)))
    else Num.zero)
  let bytes := fun (l : List Byte) => (l ++ List.replicate (columnBytes m - l.length) 0).take (columnBytes m)
  if fmtMx m then
    let blocks := (blocks32 v).map (mxQuantise m)
    let elems := blocks.flatMap (·.2.1)
    let packed := if fmtFp6 m then packFp6 (packElems m elems) else packElems m elems
    let scales := blocks.map (fun b => (BitVec.ofNat 8 b.1 : Byte))
    (bytes packed, (scales ++ List.replicate (columnScales m - scales.length) 0),
      blocks.foldl (fun r b => r.or b.2.2) Raise.none,
      (blocks.filter (fun b => b.2.2.nv)).length, (blocks.filter (fun b => b.2.2.so)).length)
  else
    let r := convertRow m v
    (bytes r.1, [], r.2.2, 0, 0)

/-- Columns whose first byte lies in [off, off + n) of an array of `size` bytes a column. -/
def columnsFrom (size off n : Nat) : List Nat :=
  (List.range ((off + n + size - 1) / size - (off + size - 1) / size)).map (· + (off + size - 1) / size)

/-- Bytes [off, off + n) of an array of `size` bytes a column. -/
def columnSlice (size : Nat) (col : Nat → List Byte) (off n : Nat) : List Byte :=
  if n = 0 then [] else
  (((List.range ((off + n - 1) / size - off / size + 1)).flatMap (fun i => col (off / size + i))).drop (off % size)).take n

/-- Bytes [off, off + n) of the output of a job (R334 to R337, R339): elements, then scales. DEDUCED (log 62). -/
def W.produce (w : W) (j : Job) (n : Nat) (remote : List Byte) : List Byte :=
  let d := j.desc
  let p := j.partition
  if jobKind d = 1 then
    let cb := columnBytes (jobFmt d)
    let sb := columnScales (jobFmt d)
    let elems := jobColumns d * cb
    columnSlice cb (fun q => (w.column p d q).1) j.pos (min n (elems - j.pos)) ++
      (if sb = 0 then [] else
        columnSlice sb (fun q => (w.column p d q).2.1) (j.pos - elems) (j.pos + n - elems - (j.pos - elems)))
  else if jobKind d = 2 then (remote ++ List.replicate (n - remote.length) 0).take n
  else w.loads p (jobSource d + j.pos) n

/-- The source ranges that the next n bytes of a job are made of (R335, R339): the rows of the tiles of a QUANTISE job. -/
def jobReads (j : Job) (n : Nat) : List (Nat × Nat) :=
  let d := j.desc
  if n = 0 then [] else
  if jobKind d = 0 then [(jobSource d + j.pos, n)]
  else if jobKind d = 1 then
    let cb := columnBytes (jobFmt d)
    let sb := columnScales (jobFmt d)
    let c := columnLength (jobFmt d) (jobPadded d)
    let elems := jobColumns d * cb
    let last := j.pos + n - 1
    let tiles := fun (x y : Nat) => (List.range (y / 64 - x / 64 + 1)).map (· + x / 64)
    let l := (if j.pos < elems then tiles (j.pos / cb) (min last (elems - 1) / cb) else []) ++
      (if last < elems then [] else tiles ((j.pos - elems) / sb) ((last - elems) / sb))
    l.eraseDups.flatMap (fun t =>
      let n0 := 64 * (t / jobKT d)
      ((List.range c).map (· + c * (t % jobKT d))).filterMap (fun k =>
        if k < jobK d then some (jobElemAddr d k n0, jobElemBytes d * (min (n0 + 64) (jobN d) - n0)) else none))
  else []

/-- The first uncorrectable source line that the next n bytes of a job need (R340). -/
def Fab.jobFault (f : Fab) (j : Job) (n : Nat) : Option Nat := (jobReads j n).findSome? (fun r => f.badIn r.1 r.2)

/-- A job has a turn to use: it still produces, and its broadcast runs; it never waits for a receiver (R341, R342). -/
def Fab.jobWorks (f : Fab) (j : Job) : Bool :=
  let held := match j.coll with
    | some id => (match f.coll? id with
      | some c => c.phase == .held
      | none => false)
    | none => false
  !j.cancelled && j.broken.isNone && jobKind j.desc != 3 && Nat.blt j.pos (jobBytes j.desc) && !held

/-- Bytes of a turn of 64 cycles (R344). DESIGN CHOICE (log 63). -/
def turnBytes : Nat := 4096

/-- A job ends before its broadcast does: the broadcast fails (R343, R352). -/
def W.breakJob (w : W) (j : Job) : W :=
  match j.coll with
  | some id => w.failColl id kolasAborted 0
  | none => w

/-- The reads of a turn, by source unit 5, up to the first that is not done (R33, R189). -/
def W.jobAccess (w : W) (b : Nat) (j : Job) (n : Nat) : W × Reach :=
  (jobReads j n).foldl (fun x r => match x.2 with
    | .ok => x.1.access (fun d => w.fab.unitTag j.partition b 5 d false) r.1 r.2 false
    | _ => x) (w, .ok)

/-- The bytes of a turn multicast, and kept where the job has a Destination, or written there; what the write came to. -/
def W.jobDeliver (w : W) (j : Job) (n : Nat) (bytes : List Byte) : W × Reach :=
  let d := j.desc
  match j.coll with
  | some id => (((pieces n 256).foldl (fun (x : W) (q : Nat × Nat) =>
      let part := (bytes.drop q.1).take q.2
      (x.piece id (j.pos + q.1) part).map (fun f =>
        f.castBlock id ((j.pos + q.1) / 256) (j.pos + q.1) part (Nat.ble (jobBytes d) (j.pos + q.1 + 512)))) w).servePulls id, .ok)
  | none => w.unitStore j.partition 5 (jobDest d + j.pos) bytes

/-- What a turn whose access was refused does: the job ends OUT_OF_MAP, the status of a range outside the partition's windows, since
the table has none for the firewall (R189, R340). DESIGN CHOICE (log 110). -/
def W.jobRefused (w : W) (b : Nat) (j : Job) : Reach → W
  | .ok | .wait => w
  | .bad a => { w with faults := w.faults ++ [(j.partition, a)] }
  | .firewall _ | .outside _ => (w.breakJob j).map (fun f => f.endActive b j 0x04)

/-- One turn of a job: the next bytes in address order, read, written, multicast or both (R33, R334, R339, R341).
DEDUCED (log 45). DESIGN CHOICE (log 63). -/
def W.jobTurn (w : W) (b : Nat) (j : Job) (remote : List Byte) : W :=
  let d := j.desc
  let p := j.partition
  let n := min turnBytes (jobBytes d - j.pos)
  if (w.fab.jobFault j n).isSome then w else
  let r := w.jobAccess b j n
  match r.2 with
  | .ok =>
    let bytes := r.1.produce j n remote
    let cols := if jobKind d = 1 then
        (columnsFrom (columnBytes (jobFmt d)) j.pos n).filter (fun q => Nat.blt q (jobColumns d)) else []
    let made := cols.map (r.1.column p d)
    let raised := made.foldl (fun r x => r.or x.2.2.1) Raise.none
    let nv := (made.map (fun x => x.2.2.2.1)).sum
    let so := (made.map (fun x => x.2.2.2.2)).sum
    let x := r.1.jobDeliver j n bytes
    match x.2 with
    | .ok => x.1.map (fun f =>
        let f1 := f.setJob b { j with pos := j.pos + n, flags := j.flags ||| raised.bits }
        let f2 := if nv = 0 then f1 else f1.dadd 0x7062 (p + 1) nv
        if so = 0 then f2 else f2.dadd 0x7063 (p + 1) so)
    | y => x.1.jobRefused b j y
  | y => r.1.jobRefused b j y

/-- Clients of a Ductus in turn order from `n` on: 0 to 15 the jobs, 16 the folio move. DESIGN CHOICE (log 63). -/
def turnOrder (n : Nat) : List Nat := (List.range 17).map (fun i => (n + i) % 17)

/-- The turn of one client, if it has work it can do now; a folio move copies at its end (R261). DESIGN CHOICE (log 63). -/
def W.turnOf (w : W) (b c : Nat) (remote : List Byte) : Option W :=
  let u := w.fab.ductusOf b
  if c = 16 then (if u.move.isSome then some w else none)
  else match u.active.find? c with
    | some j =>
      let x := w.jobTurn b j remote
      if w.fab.jobWorks j && !x.waits then some x else none
    | none => none

/-- Partition p owns a unit that the Ductus of base die b serves (R332, R479). DESIGN CHOICE (log 63). -/
def Fab.servedBy (f : Fab) (b p : Nat) : Bool :=
  [f.dget 0xB100 (2 * b + 1), f.dget 0xB100 (2 * b + 2), f.dget 0xB101 (2 * b + 1), f.dget 0xB101 (2 * b + 2)].contains p ||
  [0xB110, 0xB120, 0xB130].any (fun i => (f.mapRange i b p).2 != 0)

/-- The turn of a partition in the fixed rotation (R479): its job, or an idle turn; a folio move copies at its end (R261).
DESIGN CHOICE (log 63). -/
def W.rotationTurn (w : W) (b p : Nat) (remote : List Byte) : W :=
  ((w.turnOf b p remote).getD w).map (fun f => f.onDuctus b (fun d => { d with client := p + 1 }))

/-- DUCTUS_TURN (R332, R479): the next client with work has its turn; one whose access must wait is passed. Under strict isolation
the turn is the next partition's that owns a unit here, work or none. DESIGN CHOICE (log 63). -/
def ductusTurn (b : Nat) (remote : List Byte) (w : W) : W :=
  let u := w.fab.ductusOf b
  let owners := partitions.filter (w.fab.servedBy b)
  if w.fab.dget 0xB000 1 = 1 then
    match (owners.find? (fun p => Nat.ble u.client p)).or owners.head? with
    | some p => w.rotationTurn b p remote
    | none => w
  else match (turnOrder u.client).findSome? (fun c => (w.turnOf b c remote).map (fun x => (c, x))) with
  | some (c, x) => x.map (fun f => f.onDuctus b (fun d => { d with client := (c + 1) % 17 }))
  | none => w

/-- DUCTUS_TURN. -/
def execDuctusTurn (b : Nat) (remote : List Byte) (s : State) : Host.Outcome State Fault Refusal := onMem s (ductusTurn b remote)

/-- DUCTUS_JOB_COMPLETE (R340, R343, R344): the status of a job that has nothing left to do. -/
def ductusJobComplete (b p : Nat) (outcome : Transfer) (w : W) : W :=
  match (w.fab.ductusOf b).active.find? p with
  | none => w
  | some j =>
    let d := j.desc
    let finish := fun (st detail : Nat) => (w.breakJob j).map (fun f => f.endActive b j st detail)
    let fault := fun (a : Nat) => (finish 0x0C 0).contextFault p a
    let met := if w.fab.jobWorks j then w.fab.jobFault j (min turnBytes (jobBytes d - j.pos)) else none
    if j.cancelled then finish 0x01 0
    else match j.broken, met, outcome with
      | some st, _, _ => finish 0x0B st
      | none, some a, _ => fault a
      | none, none, .uncorrectable a => if jobKind d ≤ 1 then fault a else w
      | none, none, .endpointDown => if jobKind d = 2 then finish 0x0A 0 else w
      | none, none, .collective st => if j.coll.isSome then finish 0x0B st else w
      | none, none, .done =>
        if j.coll.isNone && (jobKind d == 3 || j.pos == jobBytes d) then finish 0x00 0 else w

/-- DUCTUS_JOB_COMPLETE. -/
def execDuctusJobComplete (b p : Nat) (outcome : Transfer) (s : State) : Host.Outcome State Fault Refusal :=
  onMem s (ductusJobComplete b p outcome)

/-! ### Cancelling -/

/-- Jobs of partition p on base die b that satisfy `q` are cancelled (R352, R353): queued ones complete CANCELLED, a running
one is marked and its broadcast fails. -/
def W.cancelJobs (w : W) (p b : Nat) (q : Job → Bool) : W :=
  let u := w.fab.ductusOf b
  let l := u.queue.get [] p
  let w1 := w.map (fun f => (l.filter q).foldl (fun g j => g.endJob b j 0x01)
    (f.onDuctus b (fun d => { d with queue := d.queue.set p (l.filter (fun j => !q j)) })))
  match u.active.find? p with
  | some j =>
    if q j then (w1.breakJob j).map (fun f => f.setJob b { j with coll := none, cancelled := true }) else w1
  | none => w1

/-- The running job of partition p on base die b ends CANCELLED (R353, R443). -/
def W.endRunningJob (w : W) (b p : Nat) : W :=
  match (w.fab.ductusOf b).active.find? p with
  | some j => (w.breakJob j).map (fun f => f.endActive b j 0x01)
  | none => w

/-- VERSION_FREE (R352). -/
def versionFree (e : Entry) (w : W) : W :=
  w.ring e 0x32 (fun w =>
    let p := e.partition
    let v := bitsOf (word e 0) 31 0
    match w.fab.versionNo p v with
    | none => w.ends e .versionState
    | some r =>
      let x := w.fab.version p r
      if x.state ≠ .loading then w.ends e .versionState
      else
        let w1 := w.map (fun f => f.setVersion p r { x with freeing := x.freeing ++ [e] })
        ((List.range 8).foldl (fun y b =>
          y.cancelJobs p b (fun j => jobDest j.desc != 0 && jobVersion j.desc == v)) w1).map (fun f => f.freeLoaded p v))

/-- VERSION_FREE. -/
def execVersionFree (e : Entry) (s : State) : Host.Outcome State Fault Refusal := onMem s (versionFree e)

end Sys2Proof.Machine
end

