-- ==== Sys2Proof/Machine/Network.lean ====
section
/-! DEFINITION. The Kolas transport (R369 to R374), RoCEv2 as responder and requester (R366, R367), neighbours (R359) and PTP
(R368). -/

namespace Sys2Proof.Machine

open Sys2Proof

/-! ### MACsec and packets -/

/-- An SA receives a frame of its port (R369). -/
def Sa.takes (a : Sa) (port : Nat) (x : Secured) : Bool :=
  a.channel == x.channel && a.port == port && a.an == x.an && a.dir != 0

/-- A received frame passes its port (R364, R369): with MACsec mode 1 under an SA installed there, its packet number not below the
lowest still accepted; with mode 0 unprotected. PRESUMED (log 106). -/
def Fab.secureIn (f : Fab) (port : Nat) (s : Option Secured) : Bool :=
  match s with
  | none => f.dget 0x5008 (port + 1) == 0
  | some x => f.dget 0x5008 (port + 1) != 0 && f.sas.any (fun a => a.takes port x && Nat.ble a.lowest x.pn)

/-- The packet number of an accepted frame is not accepted again (R364). PRESUMED (log 106). -/
def Fab.received (f : Fab) (port : Nat) (s : Option Secured) : Fab :=
  match s with
  | none => f
  | some x => { f with sas := f.sas.map (fun a => if a.takes port x then { a with lowest := max a.lowest (x.pn + 1) } else a) }

/-- What becomes of a Kolas packet that arrives. -/
inductive Arrival
  | drop
  | macsec
  | bad
  | forward
  | mine
  deriving DecidableEq, Repr

/-- The header is one the device knows (R370). -/
def packetOk (k : Packet) : Bool :=
  k.version == 1 && Nat.ble 1 k.type && Nat.ble k.type 5 && k.reserved == 0 && Nat.ble k.channel (if k.type = 1 then 1 else 0) &&
  k.length == k.payload.length && Nat.ble k.length 8224 && Nat.blt k.destPartition 16 && Nat.blt k.sourcePartition 16

/-- The secure channel of the packet is one that may carry it (R369, R374). With MACsec mode 0 the partition field selects.
DEDUCED (log 66). -/
def channelOk (k : Packet) : Bool :=
  match k.secured with
  | none => true
  | some x => if x.channel = 16 then k.channel == 1 || k.type != 1 else x.channel == k.destPartition && k.channel == 0

/-- A chain or ring forwards a packet for another address by the opposite port, except on the engine of a cascade's links (R374). -/
def Fab.forwards (f : Fab) (port : Nat) : Bool :=
  f.dget 0x5040 2 != 0 && (port % 4 == 0 || port % 4 == 2) && !f.cascadeEngine (port / 4)

/-- The opposite port of a chain or ring. -/
def opposite (port : Nat) : Nat := port / 4 * 4 + (2 - port % 4)

/-- The secure channel that a packet goes on under (R374). -/
def secureChannel (k : Packet) : Nat :=
  match k.secured with
  | some x => x.channel
  | none => if k.channel = 1 then 16 else k.destPartition

/-- What becomes of a packet. DESIGN CHOICE (log 36). DEDUCED (log 66). -/
def Fab.arrival (f : Fab) (k : Packet) : Arrival :=
  if !f.portUp k.port || !k.intact || k.udpPort != f.eff 0x5020 1 then .drop
  else if !f.secureIn k.port k.secured then .macsec
  else if !packetOk k then .bad
  else if !channelOk k then .macsec
  else if k.destAddr = f.engineAddress (k.port / 4) then .mine
  else if f.forwards k.port && f.portUp (opposite k.port) && f.protects (opposite k.port) (secureChannel k) then .forward
  else .drop

/-- A packet's flow as this device names it (R358). -/
def packetFlow (k : Packet) : FlowKey := ⟨k.port / 4, k.sourceAddr, k.destPartition, k.sourcePartition⟩

/-- A packet forwarded by the opposite port, protected again (R374). -/
def Fab.passOn (f : Fab) (k : Packet) : Fab :=
  let p := opposite k.port
  (f.dadd 0x5021 4 1).emit (.forward p (f.dget 0x5006 (p + 1))
    (if f.dget 0x5008 (p + 1) = 0 then none else f.txSa p (secureChannel k)) k)

/-- A packet of type `type` handled: dropped, counted (R369, R370), forwarded (R374), or given to `body`. -/
def Fab.packet (f : Fab) (k : Packet) (type : Nat) (body : Fab → Fab) : Fab :=
  if k.type ≠ type ∧ 1 ≤ k.type ∧ k.type ≤ 5 then f else
  match f.arrival k with
  | .drop => f
  | .macsec => f.dadd 0x5021 2 1
  | .bad => { f.received k.port k.secured with badPackets := f.badPackets + 1 }
  | .forward => (f.received k.port k.secured).passOn k
  | .mine => body (f.received k.port k.secured)

/-- What surrounds a header without payload: it goes out on the secure channel of the flow's partition, or on the operator's where
the port has no SA of the partition. DESIGN CHOICE (log 107). -/
def Fab.replyDress (f : Fab) (k : FlowKey) : Dress :=
  let h := Config.flowHash k
  let c := match f.place k.engine h k.peer with
    | some p => if f.protects p k.localPartition then k.localPartition else 16
    | none => 16
  f.dress k.engine k.peer c h (f.flow k).cls (f.eff 0x5020 1)

/-- A header without payload sent on a flow: ACK, NAK, PROBE or PROBE_ACK with the PSN expected. -/
def Fab.flowReply (f : Fab) (k : FlowKey) (type : Nat) (ecn : Bool) : Fab :=
  f.emit (.kolas (f.replyDress k) k type 0 0 (f.flow k).expect ecn false [])

/-- ACK sent (R371). -/
def Fab.flowAck (f : Fab) (k : FlowKey) : Fab :=
  (f.flowReply k 2 (f.flow k).ecn).onFlow k (fun x => { x with sinceAck := 0, ecn := false })

/-- A DATA packet arrived and was not ahead of its place: it counts toward the next ACK, sent after 8 (R371).
DEDUCED (log 46). -/
def Fab.flowArrived (f : Fab) (k : FlowKey) : Fab :=
  let f1 := f.onFlow k (fun x => { x with sinceAck := x.sinceAck + 1 })
  if 8 ≤ (f1.flow k).sinceAck then f1.flowAck k else f1

/-- A gap: NAK, at most once in 2 µs (R371). -/
def Fab.flowGap (f : Fab) (k : FlowKey) : Fab :=
  let due := match (f.flow k).lastNak with
    | some c => Nat.ble (c + nsCycles 2000) f.cycle
    | none => true
  if due then (f.flowReply k 3 false).onFlow k (fun x => { x with lastNak := some f.cycle }) else f

/-- A DATA packet of the collective channel carries a message of no known type (R327). -/
def strayMessage (k : Packet) : Bool :=
  k.channel == 0 && !(Nat.ble 1 (k.payload.getD 0 0).toNat && Nat.ble (k.payload.getD 0 0).toNat 0x0B)

/-- DATA at its receiver (R371): in PSN order only, duplicates dropped, a gap answered with NAK. What a packet carries reaches
the device as the command of its message; a collective message of a reserved type is dropped and counted here (R327).
DESIGN CHOICE (log 14). -/
def kolasData (k : Packet) (f : Fab) : Fab :=
  f.packet k 1 (fun f =>
    let key := packetFlow k
    let f1 := if k.ce then f.onFlow key (fun x => { x with ecn := true }) else f
    let ahead := (k.psn + 2 ^ 32 - (f1.flow key).expect) % 2 ^ 32
    if ahead = 0 then
      let f2 := (f1.onFlow key (fun x => { x with expect := (x.expect + 1) % 2 ^ 32 })).flowArrived key
      if strayMessage k then f2.dropMessage else f2
    else if 2 ^ 31 ≤ ahead then f1.flowArrived key
    else f1.flowGap key)

/-- KOLAS_DATA. -/
def execKolasData (k : Packet) (s : State) : Host.Outcome State Fault Refusal := onFab s (kolasData k)

/-- An Ack PSN within the sent window covers the packets below it (R371). DEDUCED (log 46). -/
def Fab.flowAcked (f : Fab) (k : FlowKey) (ack : Nat) : Fab :=
  let x := f.flow k
  let n := (ack + 2 ^ 32 - x.ackPsn) % 2 ^ 32
  if n = 0 ∨ x.unacked.length < n then f
  else
    let f1 := f.onFlow k (fun x => { x with ackPsn := ack % 2 ^ 32, unacked := x.unacked.drop n, down := false })
    Fab.pumpFlow k (f1.flow k).waiting.length f1

/-- A rate in sixteenths halved. DESIGN CHOICE (log 64). -/
def halved (rate : Nat) : Nat := max 1 (rate / 2)

/-- A rate in sixteenths on its way back to the port rate. DESIGN CHOICE (log 64). -/
def recovered (rate : Nat) : Nat := min 16 (rate + 1)

/-- ACK (R371): one with ECN echo halves the flow's rate, any other lets it recover. -/
def kolasAck (k : Packet) (f : Fab) : Fab :=
  f.packet k 2 (fun f =>
    (f.flowAcked (packetFlow k) k.ackPsn).onFlow (packetFlow k) (fun x =>
      { x with rate := if k.ecnEcho then halved x.rate else recovered x.rate }))

/-- KOLAS_ACK: what it acknowledges makes room in the Lag windows (R324). -/
def execKolasAck (k : Packet) (s : State) : Host.Outcome State Fault Refusal :=
  onMem s (fun w => (w.map (kolasAck k)).castAll)

/-- A flow resends from its oldest unacknowledged packet; each packet is counted, and KOLAS_RESEND is raised (R371, R383).
DESIGN CHOICE (log 23). -/
def Fab.flowResend (f : Fab) (k : FlowKey) : Fab :=
  let x := f.flow k
  match x.unacked with
  | m :: _ =>
    let f1 := x.unacked.foldl (fun g (u : FlowMsg) =>
      g.emit (.kolas (f.flowDress k u.channel) k 1 u.channel u.psn x.expect false true u.bytes)) f
    (f1.dadd 0x5021 1 x.unacked.length).raise (srcBase k.engine 5) 0x0307 (some k.localPartition) (Config.flowHash k) m.psn
  | [] => f

/-- KOLAS_NAK (R371): its Ack PSN is the PSN expected, so every packet below it has arrived. -/
def execKolasNak (k : Packet) (s : State) : Host.Outcome State Fault Refusal :=
  onMem s (fun w => (w.map (fun f =>
    f.packet k 3 (fun f => (f.flowAcked (packetFlow k) k.ackPsn).flowResend (packetFlow k)))).castAll)

/-- PROBE (R372): answered with PROBE_ACK. -/
def execProbe (k : Packet) (s : State) : Host.Outcome State Fault Refusal :=
  onFab s (fun f => f.packet k 4 (fun f => f.flowReply (packetFlow k) 5 false))

/-- PROBE_ACK (R372). DEDUCED (log 46). -/
def execProbeAck (k : Packet) (s : State) : Host.Outcome State Fault Refusal :=
  onFab s (fun f => f.packet k 5 (fun f => f.onFlow (packetFlow k) (fun x => { x with probing := false, down := false })))

/-- KOLAS_RESEND (R371): 16 µs without a rise of Ack PSN; the sources of multicasts go on meanwhile (R324). -/
def execKolasResend (f : FlowKey) (s : State) : Host.Outcome State Fault Refusal :=
  onMem s (fun w => (w.map (fun g => g.flowResend f)).castAll)

/-- ACK_TIMER (R371): a flow with DATA not yet acknowledged. -/
def execAckTimer (f : FlowKey) (s : State) : Host.Outcome State Fault Refusal :=
  onFab s (fun g => if (g.flow f).sinceAck = 0 then g else g.flowAck f)

/-- A flow carries a live tree (R372). -/
def W.carriesTree (w : W) (k : FlowKey) : Bool :=
  (w.fab.scope k.localPartition).live.trees.any (fun t =>
    (List.range (treeN t.2)).any (fun r => r != treeRank t.2 && w.memberFlow k.localPartition t.2 r == k))

/-- PROBE_TIMER (R372). -/
def execProbeTimer (f : FlowKey) (s : State) : Host.Outcome State Fault Refusal :=
  onRead s (fun w => if w.carriesTree f then (w.fab.flowReply f 4 false).onFlow f (fun x => { x with probing := true }) else w.fab)

/-! ### Failed endpoints -/

/-- Requests and bound streams of the clusters of partition p that use endpoint i fail (R229, R230, R242, R244): those in flight,
the void ones too, and every stream of the endpoint with something to end. -/
def Fab.failStreams (f : Fab) (p i : Nat) : Fab :=
  let f1 := (f.txns.filter (fun t => t.far == .peer i && t.tag.partition == p)).foldl Fab.fails f
  (f1.clusters.filter (fun e => f1.partitionOf e.1 == p)).foldl (fun g e =>
    (((g.cluster e.1).streams.filter (fun s =>
      s.active && descField s.desc 61 60 == 2 && descField s.desc 319 304 == i)).foldl
        (fun h s => h.uidFault e.1 s.uid feedEndpointDown) g).ends e.1) f1

/-- The requests of endpoint i of partition p fail with ENDPOINT_DOWN (R367, R372): streams, folio moves, LOADs and
checkpoints. -/
def W.endpointFails (w : W) (p i : Nat) : W :=
  let w1 := (w.map (fun f =>
    (f.onQp p i (fun q => { q with failed := true, retries := 0, sent := [], waiting := [] })).failStreams p i)).flow
  let w2 := (List.range 8).foldl (fun (x : W) b =>
    match (x.fab.ductusOf b).move with
    | some m => if m.entry.partition = p ∧ (m.oldTier = 4 ∨ m.newTier = 4) ∧ m.peerWindow = i then x.endMove b .endpointDown else x
    | none => x) w1
  let w3 := (List.range 8).foldl (fun (x : W) b =>
    match (x.fab.ductusOf b).active.find? p with
    | some j => if jobKind j.desc = 2 ∧ jobEndpoint j.desc = i then (x.breakJob j).map (fun f => f.endActive b j 0x0A) else x
    | none => x) w2
  w3.map (fun f => (f.noivosTargets p).foldl (fun g e => if e.2 = i then g.failTarget p e.1 feedEndpointDown else g) f)

/-- The member that a LOSS names (R433): the one whose engine has the address. DESIGN CHOICE (log 24). -/
def Fab.memberAt (f : Fab) (address : Nat) : Nat :=
  match List.find? (fun (e : Nat × Member) => e.2.addresses.contains address) f.members with
  | some e => e.1
  | none => Config.memberOf address

/-- A worker reports a peer to the manager and the standby (R433). -/
def Fab.reportLoss (f : Fab) (peer : Nat) : Fab :=
  if f.dget 0x5040 1 = 1 then
    f.managers.foldl (fun g a => g.sendMember a msgLoss (f.dget 0x9060 1) (f.memberAt peer) []) f
  else f

/-- A flow to an address is down. -/
def Fab.flowDown (f : Fab) (address : Nat) : Bool := f.flows.any (fun x => x.key.peer == address && x.down)

/-- THE MANAGER AND THE STANDBY ARE BOTH LOST to this worker (R378): the alarm is raised while this holds. DEDUCED (log 70). -/
def Fab.managersLost (f : Fab) : Bool := f.dget 0x5040 1 == 1 && !f.managers.isEmpty && f.managers.all f.flowDown

/-- PEER_DOWN (R265, R326, R372, R378, R433): a flow without progress, or without an answer to its PROBE; the folios parked on the peer
expire. DEDUCED (log 46). -/
def peerDown (k : FlowKey) (w : W) : W :=
  let x := w.fab.flow k
  if x.unacked = [] ∧ !x.probing then w else
  let w1 := w.map (fun f =>
    let f1 := f.onFlow k (fun x => { x with down := true, probing := false, unacked := [], waiting := [], ackPsn := x.nextPsn })
    if x.down then f1
    else
      let f2 := (f1.raise (srcBase k.engine 5) 0x0306 (some k.localPartition) (k.peer / 2 ^ 64) (k.peer % 2 ^ 64)).reportLoss k.peer
      if f2.managersLost && !f.managersLost then f2.raise 0x000E 0x0604 none 1 (f2.dget 0x9060 1) else f2)
  let w2 := w1.failColls (fun c => c.partition == k.localPartition && c.peers.contains k) kolasMemberLost
  let ends := (w2.fab.scope k.localPartition).live.endpoints.filter (fun e =>
    Nat.ble 2 (descField e.2 211 209) && descField e.2 511 384 == k.peer)
  (ends.foldl (fun (x : W) e => x.endpointFails k.localPartition e.1) w2).peerParked [k.peer]

/-- PEER_DOWN. -/
def execPeerDown (f : FlowKey) (s : State) : Host.Outcome State Fault Refusal := onMem s (peerDown f)

/-! ### RoCEv2 -/

/-- The partition and the endpoint entry of the queue pair that a request names (R367). -/
def rdmaPartition (r : RdmaReq) : Nat := (r.qp - 1) / 4096

/-- The endpoint entry. -/
def rdmaEntry (r : RdmaReq) : Nat := (r.qp - 1) % 4096

/-- The engine that a request came to. -/
def rdmaEngine (r : RdmaReq) : Nat := r.port / 4

/-- The export entry that a request's key selects grants it (R366). -/
def Fab.exports (f : Fab) (r : RdmaReq) (write : Bool) : Bool :=
  (f.scope (rdmaPartition r)).live.exportTbl.any (fun e =>
    let x := descField e.2
    x 447 408 != 0 && x 391 360 == r.key && bit (x 359 358) (if write then 1 else 0) && Nat.ble (x 511 448) r.address &&
    Nat.ble (r.address + r.length) (x 511 448 + x 447 408) && (x 255 128 == 0 || x 255 128 == r.peer))

/-- The tag of an inbound access: the exporting partition, from the photonic interface of the engine's base die, in a remote class
(R33, R35, R366). -/
def Fab.rdmaTag (f : Fab) (r : RdmaReq) (write : Bool) (dest : Nat) : Tag :=
  { partition := (rdmaPartition r), bank := (f.scope (rdmaPartition r)).bank, cls := if write then 3 else 2, sourceDie := 16 + (rdmaEngine r),
    sourceUnit := 6, destDie := dest, seq := 0 }

/-- Endpoint i of partition p has a queue pair (R367). -/
def Fab.hasQp (f : Fab) (p i : Nat) : Bool :=
  match (f.scope p).live.endpoints.find? i with
  | some d => Nat.ble 2 (descField d 211 209)
  | none => false

/-- A request comes to a queue pair of this device, from its peer. -/
def Fab.atQp (f : Fab) (r : RdmaReq) : Bool :=
  Nat.ble 1 r.qp && Nat.blt (rdmaPartition r) 16 && f.hasQp (rdmaPartition r) (rdmaEntry r) &&
  bitsOf (f.endpointEntry (rdmaPartition r) (rdmaEntry r)) 511 384 == r.peer

/-- What surrounds an answer to a request, and the peer's queue pair. -/
def Fab.answerTo (f : Fab) (r : RdmaReq) : Dress × Nat :=
  (f.rdmaDress (rdmaPartition r) (f.endpointEntry (rdmaPartition r) (rdmaEntry r)) (rdmaEngine r), bitsOf (f.endpointEntry (rdmaPartition r) (rdmaEntry r)) 239 216)

/-- The place of a request among those of its peer (R367): the one expected, one met before, or one ahead of its place.
PRESUMED (log 91). -/
def Fab.rdmaOrder (f : Fab) (r : RdmaReq) : Ordering :=
  let ahead := (r.psn + 2 ^ 24 - (f.qp (rdmaPartition r) (rdmaEntry r)).expect) % 2 ^ 24
  if ahead = 0 then .eq else if 2 ^ 23 ≤ ahead then .lt else .gt

/-- The request expected has come: the next follows its packets (R367). PRESUMED (log 91). -/
def Fab.rdmaMet (f : Fab) (r : RdmaReq) : Fab :=
  if f.rdmaOrder r = .eq then
    f.onQp (rdmaPartition r) (rdmaEntry r) (fun q => { q with expect := (q.expect + rdmaPackets r.length) % 2 ^ 24 })
  else f

/-- An inbound RDMA request (R366, R367, R369): dropped, refused with a NAK, or given to `body`; a CE mark returns a CNP. One ahead of
its place is answered with a NAK; a WRITE met before is acknowledged and not made again.
DESIGN CHOICE (log 36). DEDUCED (logs 66, 67). PRESUMED (log 91). -/
def W.rdma (w : W) (r : RdmaReq) (write : Bool) (body : Dress → Nat → W → W) : W :=
  let f := w.fab
  if !f.portUp r.port || !r.intact then w
  else if !f.secureIn r.port r.secured then w.map (fun f => f.dadd 0x5021 2 1)
  else if !f.atQp r then w.map (fun f => f.received r.port r.secured)
  else if (match r.secured with | some x => x.channel != (rdmaPartition r) | none => false) then
    w.map (fun f => (f.received r.port r.secured).dadd 0x5021 2 1)
  else
    let a := f.answerTo r
    let f0 := if r.ce then (f.received r.port r.secured).emit (.cnp a.1 r.peer a.2) else f.received r.port r.secured
    let f1 := f0.rdmaMet r
    let nak := NetOut.rdmaNak a.1 r.peer a.2 r.psn false
    if f.rdmaOrder r = .gt then { w with fab := f0.emit (.rdmaNak a.1 r.peer a.2 (f.qp (rdmaPartition r) (rdmaEntry r)).expect true) }
    else if write && f.rdmaOrder r = .lt then { w with fab := f0.emit (.rdmaAck a.1 r.peer a.2 r.psn) }
    else if !f.exports r write then { w with fab := (f1.dadd 0x5021 3 1).emit nak }
    else match ({ w with fab := f1 } : W).access (fun d => f1.rdmaTag r write d) r.address r.length write with
      | (g, .ok) => body a.1 a.2 g
      | (g, .bad x) => (g.contextFault (rdmaPartition r) x).map (fun f => f.emit nak)
      | (g, _) => g.map (fun f => f.emit nak)

/-- ROCE_READ_REQUEST (R366). -/
def execRoceReadRequest (r : RdmaReq) (s : State) : Host.Outcome State Fault Refusal :=
  onMem s (fun w => w.rdma r false (fun d q w =>
    w.map (fun f => f.emit (.rdmaData d r.peer q r.psn (w.loads (rdmaPartition r) r.address r.length)))))

/-- ROCE_WRITE_REQUEST (R366): the bytes are those of the request's length. -/
def execRoceWriteRequest (r : RdmaReq) (bytes : List Byte) (s : State) : Host.Outcome State Fault Refusal :=
  onMem s (fun w => w.rdma r true (fun d q w =>
    (w.store (rdmaPartition r) r.address ((List.range r.length).map (fun i => bytes.getD i 0))).map (fun f =>
      f.emit (.rdmaAck d r.peer q r.psn))))

/-- ROCE_ACK_TIMEOUT (R367): the outstanding requests of the queue pair go out again; after the seventh retry, or at once on a
queue pair that has failed, they fail with ENDPOINT_DOWN. -/
def roceTimeout (p i : Nat) (w : W) : W :=
  let q := w.fab.qp p i
  if !w.fab.hasQp p i || q.sent.isEmpty then w
  else if q.retries < 7 ∧ !q.failed then
    w.map (fun f => (f.onQp p i (fun q => { q with retries := q.retries + 1 })).qpResend p i)
  else w.endpointFails p i

/-- ROCE_ACK_TIMEOUT. -/
def execRoceAckTimeout (p i : Nat) (s : State) : Host.Outcome State Fault Refusal := onMem s (roceTimeout p i)

/-- A frame that arrives on a port outside a flow's or a queue pair's own checks (R359, R369): dropped and counted unless the port
accepts it and its channel is one that may carry it. -/
def Fab.framed (f : Fab) (port : Nat) (secured : Option Secured) (channel : Nat) (body : Fab → Fab) : Fab :=
  if !f.portUp port then f
  else if !f.secureIn port secured || (match secured with | some x => x.channel != channel | none => false) then f.dadd 0x5021 2 1
  else body (f.received port secured)

/-- CNP (R367): on the secure channel of the queue pair's partition (R369), it lowers the rate. -/
def execCnp (at_ : CnpAt) (i : Nat) (s : State) : Host.Outcome State Fault Refusal :=
  onFab s (fun f => f.framed at_.port at_.secured at_.partition (fun f =>
    if f.hasQp at_.partition i then f.onQp at_.partition i (fun q => { q with rate := halved q.rate }) else f))

/-! ### Neighbours and PTP -/

/-- The device's address on the management port (0x1100:04): all zeros selects the link-local address formed from the MAC.
PRESUMED (log 86). -/
def W.managementAddress (w : W) : Nat :=
  let a := w.fab.dget 0x1100 4
  let m := w.sec.fuses.mac
  if a ≠ 0 then a
  else 0xFE80 * 2 ^ 112 + (bitsOf m 47 24 ^^^ 0x020000) * 2 ^ 40 + 0xFFFE * 2 ^ 24 + bitsOf m 23 0

/-- A frame that asks for an own address (R359, R413): on a port, under the operator's channel, for its engine's address; on the
management port (32), which has no protection and no fixed next hop, for that port's. The answer is given the next hop and its SA; none
leaves a port that cannot protect it. -/
def Fab.asked (f : Fab) (own : Nat) (at_ : FrameAt) (target : Nat) (answer : Nat → Option Nat → NetOut) : Fab :=
  if at_.port = 32 then (if target = own then f.emit (answer 0 none) else f)
  else f.framed at_.port at_.secured 16 (fun f =>
    if target = f.engineAddress (at_.port / 4) ∧ f.protects at_.port 16 then
      f.emit (answer (f.dget 0x5006 (at_.port + 1)) (if f.dget 0x5008 (at_.port + 1) = 0 then none else f.txSa at_.port 16))
    else f)

/-- NEIGHBOUR_SOLICITATION (R359, R413). -/
def execNeighbourSolicitation (at_ : FrameAt) (target : Nat) (s : State) : Host.Outcome State Fault Refusal :=
  onRead s (fun w => w.fab.asked w.managementAddress at_ target (fun hop an => .neighbourAdvert at_.port hop target an))

/-- ECHO_REQUEST (R359, R413). -/
def execEchoRequest (at_ : FrameAt) (target source : Nat) (s : State) : Host.Outcome State Fault Refusal :=
  onRead s (fun w => w.fab.asked w.managementAddress at_ target (fun hop an => .echoReply at_.port hop target source an))

/-- The PTP port of an engine: its lowest-numbered up port (R368). -/
def Fab.ptpPort (f : Fab) (n : Nat) : Option Nat := ((List.range 4).map (· + 4 * n)).find? f.portUp

/-- The time of this device is announced on the PTP port of an engine: two-step messages (R368). -/
def Fab.ptpAnnounce (f : Fab) (n : Nat) : Fab :=
  match f.ptpPort n with
  | some p => [PtpKind.announce, .sync, .followUp].foldl (fun g k => g.emit (.ptp p (g.dget 0x5030 1) k)) f
  | none => f

/-- The time base moved by a number of nanoseconds. DESIGN CHOICE (log 68). -/
def Fab.stepTime (f : Fab) (ns : Int) : Fab := { f with timeBase := (((f.timeBase : Int) + ns) % 2 ^ 64).toNat }

/-- PTP_MESSAGE (R368), on the PTP port of an engine, in the domain set. A delay request of another clock is answered by a boundary
clock and by a grandmaster. In the role of a boundary clock, an exchange with the master gives the offset measured and the state it
leaves: the time base takes the offset back, the next delay request goes out, and the time is announced on the other engines.
DESIGN CHOICE (log 68). -/
def ptpMessage (port domain : Nat) (request : Bool) (offset : Int) (locked : Bool) (f : Fab) : Fab :=
  if f.ptpPort (port / 4) ≠ some port ∨ domain ≠ f.dget 0x5030 1 then f
  else if request then (if f.dget 0x5030 2 = 0 then f else f.emit (.ptp port domain .delayResponse))
  else if f.dget 0x5030 2 = 1 then
    let f1 := ((f.dset 0x5030 3 (BitVec.ofInt 32 offset).toNat).dset 0x5030 4 (if locked then 2 else 1)).stepTime (-offset)
    ((List.range 8).filter (· != port / 4)).foldl Fab.ptpAnnounce (f1.emit (.ptp port domain .delayRequest))
  else f

/-- PTP_MESSAGE. -/
def execPtpMessage (at_ : PtpAt) (offset : Int) (locked : Bool) (s : State) : Host.Outcome State Fault Refusal :=
  onFab s (ptpMessage at_.port at_.domain at_.request offset locked)

end Sys2Proof.Machine
end

