-- ==== Sys2Proof/Machine/Ports.lean ====
section
/-! DEFINITION. Optical ports: modes and lanes (R356, R357, R379), lane retirement and fallback (R360, R361), the laser banks
(R362, R363), and base links (R32, R425). -/

namespace Sys2Proof.Machine

open Sys2Proof

/-! ### Modes and lanes -/

/-- Ports k of an engine in a mode and their lanes as a bit map (Table "Port modes"). -/
def modePorts (mode : Nat) : List (Nat × Nat) :=
  if mode = 0 then [(0, 0xFF)] else if mode = 1 then [(0, 0x0F), (2, 0xF0)]
  else [(0, 0x03), (1, 0x0C), (2, 0x30), (3, 0xC0)]

/-- Mode of an engine in force: 400GbE on the engine of a cascade's links (R357, R379). -/
def Fab.modeOf (f : Fab) (n : Nat) : Nat := if n = 7 ∧ f.inCascade then 2 else f.eff 0x5001 (n + 1)

/-- Retired lanes of an engine. -/
def Fab.retiredLanes (f : Fab) (n : Nat) : Nat := bitsOf (f.dget 0x5002 (n + 1)) 15 8

/-- A set of lanes is within another. -/
def lanesIn (a b : Nat) : Bool := (List.range 8).all (fun i => !bit a i || bit b i)

/-- Two sets of lanes meet. -/
def lanesMeet (a b : Nat) : Bool := (List.range 8).any (fun i => bit a i && bit b i)

/-- The ports that a port's remaining lanes form (R361): clean 4-aligned groups first, then clean pairs not already used. -/
def fallbackPorts (lanes retired : Nat) : List (Nat × Nat) :=
  let groups := if lanes = 0xFF then [(0, 0x0F), (2, 0xF0)].filter (fun (g : Nat × Nat) => !lanesMeet g.2 retired) else []
  let pairs := if [0x03, 0x0C, 0x30, 0xC0].contains lanes then [] else
    [(0, 0x03), (1, 0x0C), (2, 0x30), (3, 0xC0)].filter (fun (g : Nat × Nat) =>
      lanesIn g.2 lanes && !lanesMeet g.2 retired && !groups.any (fun q => lanesMeet q.2 g.2))
  groups ++ pairs

/-- Lanes of a port in use. -/
def Fab.lanesOf (f : Fab) (port : Nat) : Nat := f.portLanes.get 0 port

/-- State of a cascade link shown in 0x5050:03 (R379): port 28 + k links to member k. DEDUCED (log 71). -/
def Fab.showCascade (f : Fab) (port : Nat) (up : Bool) : Fab :=
  if f.inCascade && Nat.ble 28 port then f.dset 0x5050 3 (setBit (f.dget 0x5050 3) (port - 28) up) else f

/-- A port's state and lanes set. -/
def Fab.setPort (f : Fab) (port state lanes : Nat) : Fab :=
  { (f.dset 0x5007 (port + 1) state).showCascade port (state == 2) with portLanes := f.portLanes.set port lanes }

/-- Lanes of an engine shown up or not. -/
def Fab.showLanes (f : Fab) (n lanes : Nat) (up : Bool) : Fab :=
  f.dset 0x5002 (n + 1) ((List.range 8).foldl (fun v i => if bit lanes i then setBit v i up else v) (f.dget 0x5002 (n + 1)))

/-- A port carries nothing more: its state, with its lanes not up. -/
def Fab.dropPort (f : Fab) (port state lanes : Nat) : Fab :=
  (f.showLanes (port / 4) (f.lanesOf port) false).setPort port state lanes

/-- A port whose lanes include a retired one: re-formed (R361), retired where nothing can form, down without fallback.
DEDUCED (log 69). -/
def Fab.reform (f : Fab) (port lanes : Nat) : Fab :=
  let n := port / 4
  if f.dget 0x5010 0x40 = 0 then f.dropPort port 0 lanes
  else
    (fallbackPorts lanes (f.retiredLanes n)).foldl (fun g (q : Nat × Nat) => g.setPort (4 * n + q.1) 1 q.2) (f.dropPort port 3 0)

/-- Some port of an engine is enabled. -/
def Fab.engineEnabled (f : Fab) (n : Nat) : Bool := (List.range 4).any (fun k => f.dget 0x5003 (4 * n + k + 1) == 1)

/-- The mode of an engine taken, with every port of it down or absent (R356, R357). -/
def Fab.takeMode (f : Fab) (n : Nat) : Fab :=
  let f1 := { f with inForce := f.inForce.set (dictKey 0x5001 (n + 1)) (f.dget 0x5001 (n + 1)) }
  (List.range 4).foldl (fun g k =>
    g.dropPort (4 * n + k) (if (modePorts (g.modeOf n)).any (fun q => q.1 == k) then 0 else 4) 0) f1

/-- A port gets the lanes that its engine's mode gives it, ready for a link, or re-formed around retired ones (R357, R361). -/
def Fab.layPort (f : Fab) (port : Nat) : Fab :=
  match (modePorts (f.modeOf (port / 4))).find? (fun q => q.1 == port % 4) with
  | some q => if lanesMeet q.2 (f.retiredLanes (port / 4)) then f.reform port q.2 else f.setPort port 0 q.2
  | none => f

/-- A port enabled (R357): the engine's mode where it is the first, and its lanes. DEDUCED (log 69). -/
def Fab.enablePort (f : Fab) (port : Nat) : Fab :=
  ((if f.engineEnabled (port / 4) then f else f.takeMode (port / 4)).dset 0x5003 (port + 1) 1).layPort port

/-- An engine divided anew in the mode now in force, its enabled ports with it (R357, R379). -/
def Fab.divide (f : Fab) (n : Nat) : Fab :=
  ((List.range 4).map (· + 4 * n)).foldl (fun g x => if g.dget 0x5003 (x + 1) = 1 then g.layPort x else g) (f.takeMode n)

/-- A port disabled: it and what it re-formed into are down or absent. DEDUCED (log 69). -/
def Fab.disablePort (f : Fab) (port : Nat) : Fab :=
  let n := port / 4
  let f1 := f.dset 0x5003 (port + 1) 0
  match (modePorts (f1.modeOf n)).find? (fun q => q.1 == port % 4) with
  | some q => (List.range 4).foldl (fun g k =>
      let x := 4 * n + k
      if x = port ∨ (g.lanesOf x ≠ 0 ∧ lanesIn (g.lanesOf x) q.2) then
        g.dropPort x (if (modePorts (g.modeOf n)).any (fun r => r.1 == k) then 0 else 4) 0
      else g) f1
  | none => f1

/-- A cascade leaves the port of a member's own index unused (R379). -/
def Fab.ownLink (f : Fab) (port : Nat) : Bool := f.cascadeEngine (port / 4) && port % 4 == f.eff 0x5050 2

/-- Over a cascade link that has come up the master sends its member the firmware image (R380, R486). DEDUCED (log 71). -/
def Fab.sendImage (f : Fab) (port : Nat) : Fab :=
  if f.cascadeEngine (port / 4) && f.eff 0x5050 2 == 0 && Nat.blt 28 port && Nat.blt (port - 28) (f.eff 0x5050 1) && f.portUp port then
    f.emit (.cascadeImage (port - 28) (f.dget 0xA000 2))
  else f

/-- PORT_LINK_UP: a down port with its lanes assigned and none of them retired comes up, while its photonic interface runs (R456). -/
def portLinkUp (port : Nat) (f : Fab) : Fab :=
  if port < 32 ∧ f.portState port = 0 ∧ f.lanesOf port ≠ 0 ∧ !lanesMeet (f.lanesOf port) (f.retiredLanes (port / 4)) ∧
      !f.ownLink port ∧ !f.halts (936 + port / 4) then
    ((f.setPort port 2 (f.lanesOf port)).showLanes (port / 4) (f.lanesOf port) true).sendImage port
  else f

/-- PORT_LINK_UP. -/
def execPortLinkUp (port : Nat) (s : State) : Host.Outcome State Fault Refusal := onFab s (portLinkUp port)

/-- What a port carried goes on over the other up ports of its engine once it is no longer up: every flow and queue pair that was
placed on it sends again what has not been acknowledged (R358). -/
def Fab.moveFlows (before : Fab) (port : Nat) (f : Fab) : Fab :=
  if !before.portUp port || f.portUp port || !f.engineUp (port / 4) then f else
  let n := port / 4
  let f1 := (f.flows.filter (fun x => x.key.engine == n && before.place n (Config.flowHash x.key) x.key.peer == some port)).foldl
    (fun g x => g.flowResend x.key) f
  (f1.qps.filter (fun q => q.sent.any (fun r => r.engine == n && (before.rdmaDress q.partition r.entry n).port == some port))).foldl
    (fun g q => g.qpResend q.partition q.entry) f1

/-- PORT_LINK_DOWN (R358): an up port goes down; its flows go on over the other up ports. -/
def execPortLinkDown (port : Nat) (s : State) : Host.Outcome State Fault Refusal :=
  onFab s (fun f => if Nat.blt port 32 && f.portState port == 2 then f.moveFlows port (f.dropPort port 0 (f.lanesOf port)) else f)

/-- A lane retired (R360, R361): LANE_RETIRED, and its port re-forms. -/
def Fab.retireLane (f : Fab) (lane reason : Nat) : Fab :=
  let n := lane / 8
  let i := lane % 8
  if 64 ≤ lane ∨ bit (f.retiredLanes n) i then f else
  let f1 := (f.dset 0x5002 (n + 1) (setBit (setBit (f.dget 0x5002 (n + 1)) i false) (8 + i) true)).raise (0x0840 + lane) 0x0301 none
    lane reason
  match (List.range 4).find? (fun k => bit (f1.lanesOf (4 * n + k)) i) with
  | some k => f.moveFlows (4 * n + k) (f1.reform (4 * n + k) (f1.lanesOf (4 * n + k)))
  | none => f1

/-- LANE_SIGNAL_LOSS (R360): loss of signal or alignment lasted 10 µs on a lane in use. -/
def execLaneSignalLoss (lane : Nat) (s : State) : Host.Outcome State Fault Refusal := onFab s (fun f => f.retireLane lane 0)

/-- The codewords that a port's FEC has corrected, and those it could not, counted (R364, R383). -/
def Fab.fecCounts (f : Fab) (lane corrected uncorrected : Nat) : Fab :=
  match (List.range 4).find? (fun k => bit (f.lanesOf (4 * (lane / 8) + k)) (lane % 8)) with
  | some k =>
    let i := 4 * (lane / 8) + k + 1
    let f1 := if corrected = 0 then f else f.dadd 0x5022 i corrected
    if uncorrected = 0 then f1 else f1.dadd 0x5023 i uncorrected
  | none => f

/-- LANE_ERROR_WINDOW (R360): the third window in a row above the threshold retires the lane. The codewords that its port's FEC saw
in the window come with it. DEDUCED (log 69). -/
def laneWindow (lane errors corrected uncorrected : Nat) (f0 : Fab) : Fab :=
  if 64 ≤ lane ∨ bit (f0.retiredLanes (lane / 8)) (lane % 8) then f0 else
  let f := f0.fecCounts lane corrected uncorrected
  if errors ≤ f.dget 0x5010 0x41 then { f with laneBad := f.laneBad.set lane 0 }
  else if f.laneBad.get 0 lane < 2 then { f with laneBad := f.laneBad.set lane (f.laneBad.get 0 lane + 1) }
  else { f with laneBad := f.laneBad.set lane 0 }.retireLane lane 1

/-- LANE_ERROR_WINDOW. -/
def execLaneErrorWindow (lane : Nat) (errors : LaneErrors) (s : State) : Host.Outcome State Fault Refusal :=
  onFab s (laneWindow lane errors.errors errors.corrected errors.uncorrected)

/-- PORT_FORMED (R361): a forming port is up. -/
def portFormed (port : Nat) (f : Fab) : Fab :=
  if port < 32 ∧ f.portState port = 1 ∧ !f.halts (936 + port / 4) then
    (((f.setPort port 2 (f.lanesOf port)).showLanes (port / 4) (f.lanesOf port) true).raise (0x0800 + port) 0x0302 none port
      (f.lanesOf port)).sendImage port
  else f

/-- PORT_FORMED. -/
def execPortFormed (port : Nat) (s : State) : Host.Outcome State Fault Refusal := onFab s (portFormed port)

/-- PORT_FORM_FAILED (R361): a port still forming after 2 ms stays down. -/
def portFormFailed (port : Nat) (f : Fab) : Fab :=
  if port < 32 ∧ f.portState port = 1 then (f.dropPort port 0 0).raise (0x0800 + port) 0x0303 none port 0 else f

/-- PORT_FORM_FAILED. -/
def execPortFormFailed (port : Nat) (s : State) : Host.Outcome State Fault Refusal := onFab s (portFormFailed port)

/-! ### The laser module -/

/-- An engine's bank has failed (R363): the other bank where it lives, else none and the engine's ports go down. -/
def Fab.laserSwitch (f : Fab) (n : Nat) : Fab :=
  let bank := f.dget 0x5011 (n + 1)
  if 8 ≤ n ∨ 2 ≤ bank then f else
  let bad := setBit (f.laserBad.get 0 n) bank true
  let f1 := { f with laserBad := f.laserBad.set n bad }
  let next := if bit bad (1 - bank) then 2 else 1 - bank
  let f2 := (f1.dset 0x5011 (n + 1) next).raise (srcBase n 6) 0x0304 none n next
  if next = 2 then (List.range 4).foldl (fun g k =>
      if g.portState (4 * n + k) = 1 ∨ g.portState (4 * n + k) = 2 then g.dropPort (4 * n + k) 0 (g.lanesOf (4 * n + k)) else g) f2
  else f2

/-- LASER_LOW_LIGHT (R363). -/
def execLaserLowLight (engine : Nat) (s : State) : Host.Outcome State Fault Refusal := onFab s (fun f => f.laserSwitch engine)

/-- LASER_FAULT (R362, R363): LASER_FLT_N is low, and firmware reads the bank over the bus: it switches every engine that uses the bank;
the bank has failed for the others too. -/
def laserFault (bank : Nat) (f0 : Fab) : Fab :=
  let f := { f0 with inPins := { f0.inPins with laserFltN := false } }
  if 2 ≤ bank then f else
  (List.range 8).foldl (fun g n =>
    if g.dget 0x5011 (n + 1) = bank then g.laserSwitch n
    else { g with laserBad := g.laserBad.set n (setBit (g.laserBad.get 0 n) bank true) }) f

/-- LASER_FAULT. -/
def execLaserFault (bank : Nat) (s : State) : Host.Outcome State Fault Refusal := onFab s (laserFault bank)

/-- LASER_PRESENT (R362, R363): the module is there; both banks are enabled once its identity was read, and a module newly
enabled lights both banks. DEDUCED (log 69). -/
def laserPresent (identity : Bool) (f : Fab) : Fab :=
  let f1 := { f with inPins := { f.inPins with laserPresent := true, laserFltN := true } }
  if !identity || f1.pins.laserEnA then f1
  else
    let f2 := { f1 with pins := { f1.pins with laserEnA := true, laserEnB := true }, laserBad := [] }
    (List.range 8).foldl (fun g n => if g.dget 0x5011 (n + 1) = 2 then g.dset 0x5011 (n + 1) 0 else g) f2

/-- LASER_PRESENT. -/
def execLaserPresent (identityRead : Bool) (s : State) : Host.Outcome State Fault Refusal := onFab s (laserPresent identityRead)

/-! ### Base links -/

/-- A base link retired (R32, R425): LINK_RETIRED, and firmware commits routes that avoid it. -/
def Fab.retireLink (f : Fab) (link count : Nat) : Fab :=
  let f1 := (f.dset 0x1010 2 (setBit (f.dget 0x1010 2) link false)).raise (0x0700 + link) 0x0305 none link count
  if f1.routeDraining then f1 else f1.commitRoutes

/-- Replays of a link within the last 1 ms. -/
def Fab.replays (f : Fab) (link : Nat) : List Nat :=
  (f.linkReplays.get [] link).filter (fun c => Nat.blt f.cycle (c + nsCycles 1000000))

/-- A base link in use. -/
def Fab.linkLives (f : Fab) (link : Nat) : Bool := Nat.blt link 10 && bit (f.dget 0x1010 2) link

/-- BASE_LINK_CRC_ERROR (R425): the transfer is replayed; the sixteenth replay within 1 ms retires the link. -/
def linkCrc (link : Nat) (f : Fab) : Fab :=
  if !f.linkLives link then f else
  let l := f.replays link ++ [f.cycle]
  let f1 := { f with linkReplays := f.linkReplays.set link l }
  if 16 ≤ l.length then f1.retireLink link l.length else f1

/-- BASE_LINK_CRC_ERROR. -/
def execBaseLinkCrcError (link : Nat) (s : State) : Host.Outcome State Fault Refusal := onFab s (linkCrc link)

/-- BASE_LINK_REPLAY_TIMEOUT (R425). -/
def execBaseLinkReplayTimeout (link : Nat) (s : State) : Host.Outcome State Fault Refusal :=
  onFab s (fun f => if f.linkLives link then f.retireLink link (f.replays link).length else f)

end Sys2Proof.Machine
end

