-- ==== Sys2Proof/Machine/Member.lean ====
section
/-! DEFINITION. Membership (R377, R378, R433 to R435) and the cascade's links (R379, R381). -/

namespace Sys2Proof.Machine

open Sys2Proof

/-- Organisation role (0x5040:01): 0 standalone, 1 worker, 2 manager, 3 standby (R377). -/
def Fab.role (f : Fab) : Nat := f.dget 0x5040 1

/-- The device's epoch (0x9060:01). -/
def Fab.epoch (f : Fab) : Nat := f.dget 0x9060 1

/-- A member record, as an unwritten one reads. DESIGN CHOICE (logs 5, 6). -/
def memberNone : Member := { addresses := List.replicate 8 0, role := 0, state := 0, reserved := 0, epoch := 0, heardAt := 0 }

/-- A member of the table. -/
def Fab.member (f : Fab) (i : Nat) : Member := f.members.get memberNone i

/-- A membership message taken (R369, R370, R377): one that did not come on the operator secure channel is a MACsec drop, one of a
foreign group is dropped and counted. -/
def W.ofGroup (w : W) (m : MemberMsg) (body : W → W) : W :=
  if !m.operator then w.map (fun f => f.dadd 0x5021 2 1)
  else if m.group ≠ w.fab.dget 0x5040 3 then w.map (fun f => { f with badPackets := f.badPackets + 1 })
  else body w

/-- A membership message taken by what changes no memory. -/
def Fab.ofGroup (f : Fab) (m : MemberMsg) (body : Fab → Fab) : Fab :=
  if !m.operator then f.dadd 0x5021 2 1
  else if m.group ≠ f.dget 0x5040 3 then { f with badPackets := f.badPackets + 1 }
  else body f

/-- HEARTBEAT_TIMER (R378, R382, R433): a worker to its manager and standby, the manager to its standby; of a cascade the master. -/
def heartbeatTimer (f : Fab) : Fab :=
  let beat := fun (g : Fab) (a : Nat) => g.sendMember a msgHeartbeat f.epoch (f.dget 0x9060 2) []
  if f.inCascade && f.eff 0x5050 2 != 0 then f else
  match f.role with
  | 1 => f.managers.foldl beat f
  | 2 => if f.dget 0x5040 5 = 0 then f else beat f (f.dget 0x5040 5)
  | _ => f

/-- HEARTBEAT_TIMER. -/
def execHeartbeatTimer (s : State) : Host.Outcome State Fault Refusal := onFab s heartbeatTimer

/-- HEARTBEAT of a member at the manager or the standby (R433, R434). -/
def heartbeat (m : MemberMsg) (f : Fab) : Fab :=
  f.ofGroup m (fun f =>
    if (f.role == 2 || f.role == 3) && (f.members.find? m.member).isSome then
      { f with members := f.members.set m.member { f.member m.member with epoch := m.epoch, heardAt := f.now } }
    else f)

/-- HEARTBEAT. -/
def execHeartbeat (m : MemberMsg) (s : State) : Host.Outcome State Fault Refusal := onFab s (heartbeat m)

/-- LOSS (R433): counted where its subject still sends heartbeats; otherwise the timeout decides. -/
def loss (m : MemberMsg) (f : Fab) : Fab :=
  f.ofGroup m (fun f =>
    if (f.role == 2 || f.role == 3) && (f.members.find? m.member).isSome &&
        Nat.blt f.now ((f.member m.member).heardAt + f.dget 0x9060 0x40) then f.dadd 0x9060 3 1
    else f)

/-- LOSS. -/
def execLoss (m : MemberMsg) (s : State) : Host.Outcome State Fault Refusal := onFab s (loss m)

/-! ### Epoch changes at the manager -/

/-- A member's state set, if the table lists it. -/
def Fab.setMemberState (f : Fab) (i st : Nat) : Fab :=
  if (f.members.find? i).isSome then { f with members := f.members.set i { f.member i with state := st } } else f

/-- The lowest-numbered spare that is idle (R434 step 1). -/
def Fab.idleSpare (f : Fab) : Option Nat :=
  ((f.members.map (·.1)).filter (fun i => (f.member i).role == 1 && (f.member i).state == 0)).min?

/-- Members that EPOCH goes to: every one that is not lost and is a worker or an active spare, but for the spare just assigned. -/
def Fab.workers (f : Fab) (but : Option Nat) : List Nat :=
  (f.members.map (·.1)).filter (fun i =>
    (f.member i).state != 2 && ((f.member i).role == 0 || (f.member i).state == 1) && some i != but)

/-- The address a member is reached at. -/
def Fab.memberAddress (f : Fab) (i : Nat) : Nat := (f.member i).addresses.getD 0 0

/-- Step 3 of R434: EPOCH to every worker, ASSIGN to the spare. DEDUCED (log 70). -/
def Fab.publish (f : Fab) (c : EpochChange) : Fab :=
  let f1 := f.newEpoch c.epoch c.member
  let f2 := (f1.workers c.spare).foldl (fun g i => g.sendMember (f.memberAddress i) msgEpoch c.epoch c.member c.pairs) f1
  match c.spare with
  | some i => f2.sendMember (f.memberAddress i) msgAssign c.epoch c.member c.pairs
  | none => f2

/-- The change that runs: not yet published. -/
def Fab.running (f : Fab) : Option EpochChange := f.epochChanges.find? (fun c => !c.published)

/-- A loss handled (R434 steps 1 and 2): a spare selected, STATE to the standby. With no standby address the manager goes on at
once. DEDUCED (log 70). -/
def Fab.beginEpoch (f : Fab) (m : Nat) : Fab :=
  let spare := f.idleSpare
  let old := (f.member m).addresses
  let new := match spare with
    | some i => (f.member i).addresses
    | none => List.replicate 8 0
  let c : EpochChange :=
    { member := m, spare := spare, epoch := (f.epoch + 1) % 2 ^ 32, pairs := old.zip new, published := false }
  let f1 := match spare with
    | some i => f.setMemberState i 1
    | none => f
  if f.dget 0x5040 5 = 0 then f1.publish c
  else { f1 with epochChanges := f1.epochChanges ++ [c] }.sendMember (f.dget 0x5040 5) msgState c.epoch m c.pairs

/-- Losses still to handle, while no change runs (R434: one epoch change at a time). -/
def Fab.nextLoss : Nat → Fab → Fab
  | 0, f => f
  | n + 1, f =>
    match f.lossQueue, f.running with
    | m :: r, none => Fab.nextLoss n ({ f with lossQueue := r }.beginEpoch m)
    | _, _ => f

/-- Devices whose engine addresses are listed have left the membership (R244, R265): every request to an endpoint there fails, and every
folio parked there expires. -/
def W.peersLeft (w : W) (addresses : List Nat) : W :=
  (partitions.foldl (fun (x : W) p =>
    ((x.fab.scope p).live.endpoints.filter (fun e =>
      Nat.ble 2 (descField e.2 211 209) && addresses.contains (descField e.2 511 384))).foldl (fun (y : W) e => y.endpointFails p e.1) x)
    w).peerParked addresses

/-- WORKER_LOSS_TIMEOUT (R265, R433, R434): the change begins, and the folios parked on the member that is lost expire. -/
def workerLost (m : Nat) (w : W) : W :=
  if w.fab.role = 2 ∧ (w.fab.members.find? m).isSome ∧ (w.fab.member m).state ≠ 2 then
    (w.map (fun f =>
      let f1 := f.setMemberState m 2
      Fab.nextLoss (f1.lossQueue.length + 1) { f1 with lossQueue := f1.lossQueue ++ [m] })).peersLeft (w.fab.member m).addresses
  else w

/-- WORKER_LOSS_TIMEOUT. -/
def execWorkerLossTimeout (member : Nat) (s : State) : Host.Outcome State Fault Refusal := onMem s (workerLost member)

/-- A change applied at the standby (R434). -/
def Fab.applyChange (f : Fab) (m : MemberMsg) : Fab :=
  let spare := (f.members.map (·.1)).find? (fun i => i != m.member && (f.member i).addresses == m.pairs.map (·.2))
  let g := (f.setMemberState m.member 2).newEpoch m.epoch m.member
  match spare with
  | some i => g.setMemberState i 1
  | none => g

/-- STATE at the standby (R265, R434): it applies the change and acknowledges it. -/
def stateMsg (m : MemberMsg) (w : W) : W :=
  w.ofGroup m (fun w =>
    if w.fab.role = 3 then
      (if w.fab.epoch < m.epoch then (w.map (fun f => f.applyChange m)).peersLeft (m.pairs.map (·.1)) else w).map (fun f =>
        f.sendMember m.sender msgEpochAck m.epoch m.member [])
    else w)

/-- STATE. -/
def execStateMsg (m : MemberMsg) (s : State) : Host.Outcome State Fault Refusal := onMem s (stateMsg m)

/-- The change that runs goes out, and the next loss is taken up. -/
def Fab.goOn (f : Fab) : Fab :=
  match f.running with
  | some c =>
    let f1 := { (f.publish c) with
      epochChanges := updateFirst (fun x => !x.published) (fun x => { x with published := true }) f.epochChanges }
    Fab.nextLoss f1.lossQueue.length f1
  | none => f

/-- EPOCH_ACK at the manager (R434): the standby's lets the change go on and ends its repeats; a worker's is noted by no one.
DEDUCED (log 70). -/
def epochAck (m : MemberMsg) (f : Fab) : Fab :=
  f.ofGroup m (fun f =>
    if f.role == 2 && m.sender == f.dget 0x5040 5 then
      let f1 := if (f.running.map (·.epoch)) = some m.epoch then f.goOn else f
      { f1 with epochChanges := f1.epochChanges.filter (fun c => c.epoch != m.epoch || !c.published) }
    else f)

/-- EPOCH_ACK. -/
def execEpochAck (m : MemberMsg) (s : State) : Host.Outcome State Fault Refusal := onFab s (epochAck m)

/-- EPOCH_ACK_TIMEOUT (R434): MANAGER_LOST with Detail A = 2, and the manager goes on. -/
def epochAckTimeout (f : Fab) : Fab :=
  if f.role = 2 ∧ f.running.isSome then (f.raise 0x000E 0x0604 none 2 f.epoch).goOn else f

/-- EPOCH_ACK_TIMEOUT. -/
def execEpochAckTimeout (s : State) : Host.Outcome State Fault Refusal := onFab s epochAckTimeout

/-- STATE_REPEAT (R434): STATE of every published change that the standby has not acknowledged. -/
def stateRepeat (f : Fab) : Fab :=
  if f.role = 2 then
    (f.epochChanges.filter (·.published)).foldl (fun g c => g.sendMember (f.dget 0x5040 5) msgState c.epoch c.member c.pairs) f
  else f

/-- STATE_REPEAT. -/
def execStateRepeat (s : State) : Host.Outcome State Fault Refusal := onFab s stateRepeat

/-! ### Epoch changes at a worker -/

/-- The address that takes the place of another. -/
def replaced (pairs : List (Nat × Nat)) (a : Nat) : Option Nat := pairs.find? (fun q => q.1 == a) |>.map (·.2)

/-- A 512-bit descriptor with bits [hi:lo] replaced. -/
def descWith (d : BitVec 512) (hi lo x : Nat) : BitVec 512 := BitVec.ofNat 512 (setBits d.toNat hi lo x)

/-- Addresses replaced in the member table of a tree. -/
def W.replaceMembers (w : W) (p : Nat) (d : BitVec 512) (pairs : List (Nat × Nat)) : W :=
  (List.range (treeN d)).foldl (fun (x : W) r =>
    let a := descField d 511 448 + 64 * r
    match replaced pairs (bitsOf (x.loadNat p a 64) 511 384) with
    | some new => x.setField p a 511 384 new
    | none => x) w

/-- A tree's member table holds an address that is replaced. -/
def W.treeTouched (w : W) (p : Nat) (d : BitVec 512) (pairs : List (Nat × Nat)) : Bool :=
  (List.range (treeN d)).any (fun r => (replaced pairs (w.memberFlow p d r).peer).isSome)

/-- Steps 1 to 3 of R435 for one partition: member tables, tree epochs and Kolas endpoints, then a commit, or a second one where
the old bank is still held (R29). DEDUCED (log 70). -/
def W.epochScope (w : W) (p epoch : Nat) (pairs : List (Nat × Nat)) : W :=
  let s := w.fab.scope p
  let trees := s.live.trees.filter (fun t => (treeEpoch t.2 + 1) % 2 ^ 32 == epoch && w.treeTouched p t.2 pairs)
  let ends := s.live.endpoints.filter (fun e =>
    descField e.2 211 209 == 1 && (replaced pairs (descField e.2 511 384)).isSome)
  if trees.isEmpty && ends.isEmpty then w else
  let w1 := trees.foldl (fun (x : W) t => x.replaceMembers p t.2 pairs) w
  let shadow := { s.shadow with
    trees := trees.foldl (fun (b : Tbl (BitVec 512)) t => b.set t.1 (descWith t.2 255 224 epoch)) s.shadow.trees,
    endpoints := ends.foldl (fun (b : Tbl (BitVec 512)) e =>
      b.set e.1 (descWith e.2 511 384 ((replaced pairs (descField e.2 511 384)).getD 0))) s.shadow.endpoints }
  let w2 := w1.map (fun f => f.setScope p { s with shadow := shadow, again := s.draining })
  if s.draining then w2 else w2.commit p none

/-- A worker directs its traffic to the manager that speaks to it: a standby that has taken over leaves no standby (R378).
DEDUCED (log 70). -/
def Fab.follow (f : Fab) (sender : Nat) : Fab :=
  if sender = f.dget 0x5040 4 then f
  else
    let f1 := f.dset 0x5040 4 sender
    if sender = f.dget 0x5040 5 then f1.dset 0x5040 5 0 else f1

/-- EPOCH at a worker (R244, R265, R378, R435): applied when it is ahead of the worker's epoch, and acknowledged to its sender once its
commits are made. One met before is acknowledged again. DEDUCED (log 70). -/
def epochMsg (m : MemberMsg) (w : W) : W :=
  w.ofGroup m (fun w =>
    if w.fab.role = 1 then
      if !Nat.blt w.fab.epoch m.epoch then
        w.map (fun f => (f.follow m.sender).sendMember m.sender msgEpochAck m.epoch m.member [])
      else
        ((partitions.foldl (fun (x : W) p => x.epochScope p m.epoch m.pairs) w).peersLeft (m.pairs.map (·.1))).map (fun f =>
          ({ f with epochDue := some (m.epoch, m.member, m.sender) }.follow m.sender).epochStep)
    else w)

/-- EPOCH. -/
def execEpoch (m : MemberMsg) (s : State) : Host.Outcome State Fault Refusal := onMem s (epochMsg m)

/-- ASSIGN at a spare (R244, R265, R435): it takes the epoch, and the member it stands in for has left the membership. -/
def assign (m : MemberMsg) (w : W) : W :=
  w.ofGroup m (fun w =>
    if w.fab.role = 1 then
      (w.map (fun f => (f.dset 0x9060 1 m.epoch).raise 0x000E 0x0603 none m.member m.epoch)).peersLeft (m.pairs.map (·.1))
    else w)

/-- ASSIGN. -/
def execAssign (m : MemberMsg) (s : State) : Host.Outcome State Fault Refusal := onMem s (assign m)

/-! ### The standby and the cascade -/

/-- The highest epoch in the heartbeats of the last Manager timeout (R434). -/
def Fab.heardEpoch (f : Fab) : Nat :=
  ((f.members.filter (fun e => Nat.blt f.now (e.2.heardAt + f.dget 0x5040 0x42))).map (fun e => e.2.epoch)).foldl max 0

/-- MANAGER_TIMEOUT (R378, R434): the standby takes over, with no standby of its own, and tells every worker, or, with its epoch
behind, stays standby; both raise MANAGER_LOST. DEDUCED (log 70). -/
def managerTimeout (f : Fab) : Fab :=
  if f.role ≠ 3 then f
  else if f.epoch < f.heardEpoch then f.raise 0x000E 0x0604 none 1 f.epoch
  else
    let f1 := (((f.dset 0x5040 1 2).dset 0x5040 4 (f.dget 0x5040 5)).dset 0x5040 5 0).raise 0x000E 0x0604 none 0 f.epoch
    (f1.workers none).foldl (fun g i => g.sendMember (f.memberAddress i) msgEpoch f.epoch 0 []) f1

/-- MANAGER_TIMEOUT. -/
def execManagerTimeout (s : State) : Host.Outcome State Fault Refusal := onFab s managerTimeout

/-- Partitions that own a granule of member k of the cascade, as this master has written its map (R380, R381). -/
def Fab.memberPartitions (f : Fab) (k : Nat) : List Nat :=
  partitions.filter (fun p => f.memberOwners.any (fun e => e.1 / 64 == k && e.2 == p))

/-- CASCADE_LINK_LOSS (R381): the master has not reached member k for Peer timeout: the memory context of every partition that owns
LPDDR5X on the member ends. DEDUCED (log 71). -/
def cascadeLost (k : Nat) (w : W) : W :=
  if w.fab.inCascade ∧ w.fab.eff 0x5050 2 = 0 ∧ 0 < k ∧ k < w.fab.eff 0x5050 1 then
    (w.fab.memberPartitions k).foldl (fun (x : W) p => x.endContext p none 0)
      (w.map (fun f => (f.dset 0x5050 3 (setBit (f.dget 0x5050 3) k false)).raise (0x0710 + k) 0x0305 none k 0))
  else w

/-- CASCADE_LINK_LOSS. -/
def execCascadeLinkLoss (k : Nat) (s : State) : Host.Outcome State Fault Refusal := onMem s (cascadeLost k)

end Sys2Proof.Machine
end

