-- ==== Sys2Proof/Machine/Power.lean ====
section
/-! DEFINITION. Power and temperature (R447 to R451), clock islands and references (R453 to R458), PPS (R499) and the power
states P1 and S1 (R459 to R461). -/

namespace Sys2Proof.Machine

open Sys2Proof

/-! ### Budget, duty and temperature -/

/-- Wear limit reached: sprint is disabled (R451). -/
def Fab.worn (f : Fab) : Bool := Nat.ble (3600 * f.dget 0x2030 0x40) (f.dget 0x2030 1)

/-- Sprint budget after 1 µs at p mW (R447), in nJ. -/
def Fab.budgetStep (f : Fab) (p : Nat) : Nat :=
  if 3000000 < p then f.budget - (p - 3000000)
  else min (f.budget + min (3000000 - p) (1000 * f.dget 0x2010 0x41)) 30000000000

/-- POWER_SAMPLE (R447): the 10 µs average, the budget and the ceiling C. DEDUCED (log 72). -/
def powerSample (p : Nat) (f : Fab) : Fab :=
  let window := (p :: f.powerWindow).take 10
  let b := f.budgetStep p
  let sprint := f.dget 0x2010 0x40 == 1 && Nat.blt 0 b && !f.sprintHot && !f.worn
  let c := min (if sprint then 3600 else 3000) f.thermalCeiling
  ((({ f with powerWindow := window, budget := b }).dset 0x2010 1 (min (window.sum / window.length / 1000) 65535)).dset 0x2010 2
    (b / 1000000)).dset 0x2010 4 c

/-- POWER_SAMPLE. -/
def execPowerSample (milliwatts : Nat) (s : State) : Host.Outcome State Fault Refusal := onFab s (powerSample milliwatts)

/-- The issue duty set; the credit of every cluster is first brought up to now (R448). -/
def Fab.setDuty (f : Fab) (d : Nat) : Fab :=
  ({ f with clusters := f.clusters.map (fun (e : Nat × Cluster) => (e.1, { e.2 with credit := f.creditNow e.2, creditAt := f.cycle })) }).dset
    0x2010 3 d

/-- The averaged power exceeds C (R447, R448). -/
def Fab.overC (f : Fab) : Bool := Nat.blt (f.dget 0x2010 4) (f.dget 0x2010 1)

/-- DUTY_UPDATE (R448, R450, R479): the value the controller chose, below the last one while the averaged power exceeds C, and 0
while the junction limit holds. Under strict isolation D stays at Strict duty, below which it goes only while the averaged power
exceeds C, and that counts. DEDUCED (log 72). -/
def dutyUpdate (d : Nat) (f : Fab) : Fab :=
  let fixed := f.dget 0xB000 2
  if 64 < d then f
  else if f.junctionStop then f.setDuty 0
  else if f.dget 0xB000 1 ≠ 1 then f.setDuty (if f.overC then min d (f.dget 0x2010 3 - 1) else d)
  else if f.overC ∧ d < fixed then (f.dadd 0xB000 3 1).setDuty d
  else f.setDuty fixed

/-- DUTY_UPDATE. -/
def execDutyUpdate (duty : Nat) (s : State) : Host.Outcome State Fault Refusal := onFab s (dutyUpdate duty)

/-- A condition that begins at a threshold and ends below a lower one (Table "Thermal limits"). -/
def hysteresis (was : Bool) (t on off : Int) : Bool := if was then !decide (t < off) else decide (on ≤ t)

/-- THERMAL_CHECK (R450): T in tenths of a degree. DEDUCED (log 72). -/
def thermalCheck (t : Int) (f : Fab) : Fab :=
  let sprint : Int := f.dget 0x2020 0x40
  let clamp : Int := f.dget 0x2020 0x41
  let clamped := hysteresis f.clamped t (10 * clamp) (10 * clamp - 20)
  let stop := hysteresis f.junctionStop t 1050 1000
  let f1 := f.dset 0x2020 1 (BitVec.ofInt 16 t).toNat
  let f2 := if clamped && !f.clamped then f1.dadd 0x2020 2 1 else f1
  let f3 := { f2 with
    sprintHot := hysteresis f.sprintHot t (10 * sprint) (10 * sprint - 20), clamped := clamped, junctionStop := stop,
    thermalCeiling := if clamped then max 1500 (f.thermalCeiling - 50) else min 3600 (f.thermalCeiling + 50) }
  if stop then f3.setDuty 0 else f3

/-- THERMAL_CHECK. -/
def execThermalCheck (tenths : Int) (s : State) : Host.Outcome State Fault Refusal := onFab s (thermalCheck tenths)

/-- THERMAL_TRIP (R450, R499): THERMTRIP_N is driven low, whatever the device does while it has power. -/
def execThermalTrip (s : State) : Host.Outcome State Fault Refusal :=
  onAny s (fun w => w.map (fun f => if f.phase = .off then f else { f with pins := { f.pins with thermtripN := false } }))

/-- WEAR_SECOND (R451): a second above 95 °C counts; each 360,000th blows a bit. -/
def wearSecond (t : Int) (w : W) : W :=
  if 950 < t then
    let w1 := w.map (fun f => f.dadd 0x2030 1 1)
    if w1.fab.dget 0x2030 1 % 360000 = 0 ∧ w.sec.fuses.wear < 1024 then
      { w1 with sec := { w1.sec with fuses := { w1.sec.fuses with wear := w1.sec.fuses.wear + 1 } } }
    else w1
  else w

/-- WEAR_SECOND. -/
def execWearSecond (tenths : Int) (s : State) : Host.Outcome State Fault Refusal := onAll s (wearSecond tenths)

/-! ### Clock islands -/

/-- Row of Table "Island kinds" of an island number (R453). -/
def islandKind (i : Nat) : Nat :=
  if i < 768 then 0 else if i < 800 then 1 else if i < 896 then 2 else if i < 904 then 3 else if i < 936 then 4
  else if i < 944 then 5 else if i = 944 then 6 else 7

/-- Event source of an island (R427). -/
def islandSource (i : Nat) : Nat :=
  match islandKind i with
  | 0 | 1 => srcCluster i
  | 2 => srcBase ((i - 800) / 12) 0
  | 3 => srcBase (i - 896) 0
  | 4 => srcBase ((i - 904) / 4) (8 + (i - 904) % 4)
  | 5 => srcBase (i - 936) 5
  | 6 => 0x000C
  | _ => 0x0008

/-- Partition that CLOCK_LOST of an island concerns: the owner of a cluster. -/
def Fab.islandPartition (f : Fab) (i : Nat) : Option Nat :=
  if i < 800 ∧ f.clusterOwner i < 16 then some (f.clusterOwner i) else none

/-- The other source of an island is ready (R454). -/
def Island.otherReady (x : Island) : Bool := if x.liveB then x.readyA else x.readyB

/-- A source is ready. -/
def Island.ready (x : Island) (b : Bool) : Bool := if b then x.readyB else x.readyA

/-- An island on a source, out of its safe state (R455, R456). -/
def Island.onto (x : Island) (b : Bool) : Island := { x with liveB := b, safe := false, moved := false, asks := false }

/-- The host link trained to a width and a rate (R384). DESIGN CHOICE (log 19). -/
def Fab.linkTrained (f : Fab) (width rate : Nat) : Fab :=
  ({ f with inPins := { f.inPins with linkUp := true } }.dset 0xC001 1 width).dset 0xC001 2 rate

/-- The PCIe link lost (R393, R425, R456): its width and rate read 0. -/
def Fab.linkDown (f : Fab) : Fab :=
  ({ f with inPins := { f.inPins with linkUp := false } }.dset 0xC001 1 0).dset 0xC001 2 0

/-- A cascade member that is not its master: its PCIe link stays in reset (R380). -/
def Fab.isMember (f : Fab) : Bool := f.inCascade && f.eff 0x5050 2 != 0

/-- An island switched to a source; the host link of a PCIe controller that leaves its safe state retrains (R456).
DESIGN CHOICE (log 19). -/
def Fab.switchTo (f : Fab) (i : Nat) (b : Bool) : Fab :=
  let g := f.onIsland i (fun x => x.onto b)
  if i = 945 ∧ (f.island i).safe ∧ f.inPins.perstN ∧ !f.isMember then g.linkTrained 8 64 else g

/-- Clock source of an island asked for (R455): a status for the write, BUSY or none, and the device. DEDUCED (log 73). -/
def Fab.clockRequest (f : Fab) (i : Nat) (b : Bool) : Bool × Fab :=
  let x := f.island i
  let resetting := decide (i < 800) && (f.cluster i).phase == .resetting
  if resetting then (true, f.dset 0x2100 4 3)
  else if x.liveB = b then (false, f)
  else if !x.ready b then (true, f.dset 0x2100 4 1)
  else (false, (f.switchTo i b).dset 0x2100 4 0)

/-- Input that feeds a PLL of an island (R453): 0 REFCLK100, 1 REFCLK156, 3 the backup oscillator. -/
def feeds (i : Nat) (pllB : Bool) : Nat :=
  if islandKind i = 5 then (if pllB then 0 else 1) else if pllB then 3 else 0

/-- The reference of an island's PLL A has stopped (R458). -/
def Fab.unfed (f : Fab) (i : Nat) : Bool := !bit (f.dget 0x2110 1) (feeds i false)

/-- Firmware moves an island between its PLLs for the sake of PLL A's reference (R458): to a ready PLL B while it is lost, and back
once it has returned and PLL A is ready again. DEDUCED (log 73). -/
def Fab.keepFed (f : Fab) (i : Nat) : Fab :=
  let x := f.island i
  if f.unfed i ∧ !x.liveB ∧ x.readyB ∧ !x.safe then f.onIsland i (fun x => { x.onto true with moved := true })
  else if !f.unfed i ∧ x.liveB ∧ x.moved ∧ x.readyA then f.onIsland i (fun x => x.onto false)
  else f

/-- PLL_READY (R454, R457, R458): PLL A (0) or B (1) of an island is locked and counted; a switch that waited for it runs.
DEDUCED (log 73). -/
def pllReady (i pll : Nat) (f : Fab) : Fab :=
  if 946 ≤ i ∨ 2 ≤ pll then f
  else
    let g := f.onIsland i (fun x => if pll = 1 then { x with readyB := true, lostB := false } else { x with readyA := true, lostA := false })
    if (g.island i).asks then (g.clockRequest i (!(g.island i).liveB)).2 else g.keepFed i

/-- PLL_READY. -/
def execPllReady (island pll : Nat) (s : State) : Host.Outcome State Fault Refusal := onFab s (pllReady island pll)

/-- A PLL of an island without lock (R454). -/
def Island.unlock (x : Island) (b : Bool) : Island :=
  if b then { x with readyB := false, lostB := true } else { x with readyA := false, lostA := true }

/-- The live source of an island loses lock (R456): the island enters its safe state, with CLOCK_LOST; the host link of the PCIe
controller is in electrical idle. -/
def Fab.loseClock (f : Fab) (i : Nat) : Fab :=
  if (f.island i).safe then f
  else
    let g := (f.onIsland i (fun x => { x.unlock x.liveB with safe := true })).raise (islandSource i) 0x0104 (f.islandPartition i)
      (islandKind i) 0
    if i = 945 then g.linkDown else g

/-- PLL_LOCK_LOSS (R454, R456): the live source of an island loses lock, or its other PLL, which is then no longer ready.
DEDUCED (log 73). -/
def pllLockLoss (x : PllRef) (f : Fab) : Fab :=
  if 946 ≤ x.island then f
  else if x.standby then f.onIsland x.island (fun y => y.unlock (!y.liveB))
  else f.loseClock x.island

/-- PLL_LOCK_LOSS; firmware then switches the island, and aborts the launch of a lost cluster and resets it (R425, R456), by its
own commands CLOCK_SOURCE_REQUEST and CLUSTER_RESET. DEDUCED (log 73). -/
def execPllLockLoss (pll : PllRef) (s : State) : Host.Outcome State Fault Refusal := onFab s (pllLockLoss pll)

/-- HARDWARE_CLOCK_SWITCH (R457): an LPDDR5X group, a photonic interface or the Rubric management island in its safe state
switches itself to its other PLL, or waits. DEDUCED (log 73). -/
def hardwareSwitch (i : Nat) (f : Fab) : Fab :=
  if Nat.ble 4 (islandKind i) && Nat.ble (islandKind i) 6 && (f.island i).safe then
    let g := (f.clockRequest i (!(f.island i).liveB)).2
    if (g.island i).safe then g.onIsland i (fun x => { x with asks := true }) else g
  else f

/-- HARDWARE_CLOCK_SWITCH. -/
def execHardwareClockSwitch (island : Nat) (s : State) : Host.Outcome State Fault Refusal := onFab s (hardwareSwitch island)

/-- Islands one of whose PLLs an input feeds (R453). -/
def fedBy (input : Nat) (pllB : Bool) : List Nat := (List.range 946).filter (fun i => feeds i pllB == input)

/-- Kinds of island whose PLL A an input feeds. -/
def fedKinds (input : Nat) : List Nat := if input = 0 then [0, 1, 2, 3, 4, 6, 7] else if input = 1 then [5] else []

/-- REFERENCE_LOSS (R453, R458): the input's bit clears, with CLOCK_LOST for each kind whose PLL A it feeds. Those PLLs are in
holdover and are no longer ready, and firmware moves each island to its PLL B once that is ready. A PLL B without its input
loses lock. DEDUCED (log 73). -/
def referenceLoss (input : Nat) (f : Fab) : Fab :=
  if input ≠ 0 ∧ input ≠ 1 ∧ input ≠ 3 then f else
  let f1 := f.dset 0x2110 1 (setBit (f.dget 0x2110 1) input false)
  let f2 := (fedKinds input).foldl (fun g k => g.raise 0x000C 0x0104 none k 0) f1
  let f3 := (fedBy input true).foldl (fun g i =>
    if (g.island i).liveB then g.loseClock i else g.onIsland i (fun x => x.unlock true)) f2
  (fedBy input false).foldl (fun g i => (g.onIsland i (fun x => { x with readyA := false })).keepFed i) f3

/-- REFERENCE_LOSS. -/
def execReferenceLoss (input : Nat) (s : State) : Host.Outcome State Fault Refusal := onFab s (referenceLoss input)

/-- REFERENCE_RETURN (R458): the input's bit sets; firmware switches back the islands that it moved and whose PLL A is ready again,
the others at their PLL_READY. DEDUCED (log 73). -/
def referenceReturn (input : Nat) (f : Fab) : Fab :=
  if input ≠ 0 ∧ input ≠ 1 ∧ input ≠ 3 then f else
  (fedBy input false).foldl Fab.keepFed (f.dset 0x2110 1 (setBit (f.dget 0x2110 1) input true))

/-- Every PLL locked and counted again, PLL B where it is live or kept running (R454, R461, R464); no island is in its safe state. -/
def Fab.relock (f : Fab) : Fab :=
  { f with islands := f.islands.map (fun (e : Nat × Island) =>
      (e.1, { e.2 with readyA := !f.unfed e.1, readyB := e.2.liveB || f.dget 0x2100 0x40 == 1, safe := false, lostA := false,
                       lostB := false, asks := false })) }

/-- Alternate PLL standby written 0 (R454): the PLL B of an island that runs on PLL A is not kept running. DEDUCED (log 73). -/
def Fab.dropStandby (f : Fab) : Fab :=
  { f with islands := (List.range 946).map (fun i => (i, { f.island i with readyB := (f.island i).liveB && (f.island i).readyB })) }

/-- REFERENCE_RETURN. -/
def execReferenceReturn (input : Nat) (s : State) : Host.Outcome State Fault Refusal := onFab s (referenceReturn input)

/-- Nanoseconds to the nearest whole second. -/
def toSecond (now : Nat) : Int := ((now + 500000000) / 1000000000 * 1000000000 : Nat) - (now : Int)

/-- PPS_EDGE (R368, R499): the input's bit sets; a grandmaster's time base is disciplined by it, to the nearest whole second, and
announced on every engine. DESIGN CHOICE (log 68). -/
def ppsEdge (f : Fab) : Fab :=
  let f1 := { f with inPins := { f.inPins with ppsSeen := true } }.dset 0x2110 1 (setBit (f.dget 0x2110 1) 2 true)
  if f1.dget 0x5030 2 = 2 then
    (List.range 8).foldl Fab.ptpAnnounce ((f1.dset 0x5030 4 2).stepTime (toSecond f1.now))
  else f1

/-- PPS_EDGE. -/
def execPpsEdge (s : State) : Host.Outcome State Fault Refusal := onFab s ppsEdge

/-- PPS_TIMEOUT (R499): 1.1 s without an edge. -/
def ppsTimeout (f : Fab) : Fab :=
  let f1 := { f with inPins := { f.inPins with ppsSeen := false } }.dset 0x2110 1 (setBit (f.dget 0x2110 1) 2 false)
  if f1.dget 0x5030 2 = 2 then f1.dset 0x5030 4 0 else f1

/-- PPS_TIMEOUT. -/
def execPpsTimeout (s : State) : Host.Outcome State Fault Refusal := onFab s ppsTimeout

/-! ### Power states -/

/-- Every partition is idle (R460). -/
def Fab.allIdle (f : Fab) : Bool :=
  f.launches.isEmpty && f.colls.isEmpty && f.clusters.all (fun e => e.2.streams.isEmpty) &&
  f.ductus.all (fun e => e.2.active.isEmpty && e.2.queue.all (fun q => q.2.isEmpty) && e.2.move.isNone && e.2.moves.isEmpty) &&
  f.noivos.all (fun e => e.2.running.isNone)

/-- IDLE_GATING_ENTRY (R460). -/
def idleGating (f : Fab) : Fab :=
  if f.phase = .running ∧ f.dget 0x2040 0x40 = 1 ∧ f.dget 0x2040 1 = 0 ∧ f.allIdle then f.dset 0x2040 1 1 else f

/-- IDLE_GATING_ENTRY. -/
def execIdleGatingEntry (s : State) : Host.Outcome State Fault Refusal := onFab s idleGating

/-- WAKE_EVENT (R460): whichever of the list it is, the device leaves P1. -/
def execWakeEvent (_w : Wake) (s : State) : Host.Outcome State Fault Refusal :=
  onFab s (fun f => if f.dget 0x2040 1 = 1 then f.dset 0x2040 1 0 else f)

/-- Wells zeroed with their tags, and Inkwells. -/
def W.zeroSram (w : W) : W :=
  ((w.zero (wellBase 0) (800 * 0x100000)).zero (inkwellBase 0) (8 * 0x20000000)).map (fun f => { f with tags := [], wellFaults := [] })

/-- A cluster whose reset runs: nothing of its launch is left, the nib counts and the operation numbers are kept (R466). -/
def Cluster.reset (cl : Cluster) : Cluster :=
  { Cluster.idleReset with
    phase := .resetting, nextOp := cl.nextOp, nibMiss := cl.nibMiss, nibLimit := cl.nibLimit, nextStream := cl.nextStream,
    residueReplays := cl.residueReplays, credit := cl.credit, creditAt := cl.creditAt }

/-- Every cluster under reset, waiting for its self-test. -/
def Fab.resetClusters (f : Fab) : Fab :=
  { f with clusters := (List.range 800).map (fun c => (c, (f.cluster c).reset)) }

/-- Every port down, or absent as it was. -/
def Fab.portsDown (f : Fab) : Fab :=
  (List.range 32).foldl (fun g p =>
    if g.portState p = 1 ∨ g.portState p = 2 then g.dropPort p 0 (g.lanesOf p) else g) f

/-- A partition neither runs nor stops nor starts. -/
def Fab.atRest (f : Fab) (p : Nat) : Bool := Nat.ble (f.dget 0xB001 (p + 1)) 1

/-- S1 may be entered (R461, R467). -/
def Fab.mayS1 (f : Fab) : Bool :=
  f.phase == .running && partitions.all f.atRest && f.resetWaits.isEmpty && f.noivos.all (fun e => e.2.running.isNone && e.2.restoring.isNone) &&
  f.dget 0x9200 2 == 0 && f.clusters.all (fun e => e.2.phase != .resetting)

/-- S1 entered (R461, R468): ports down, W entries at their default, the sprint budget and the event log with them (0x2010:02,
0x9001:01), what VDD_SRAM and the compute rails held gone. -/
def Fab.enterS1 (f : Fab) : Fab :=
  let g := f.portsDown.dclear (fun r => r == Retention.w) (fun _ _ => true)
  let off := f.clusters.map (fun (e : Nat × Cluster) => (e.1, { (Cluster.reset e.2) with phase := .idle }))
  ({ g with regionCtr := [], clusters := off, txns := [], waiting := [], chans := [], log := .empty, budget := Fab.reset.budget }).dset
    0x2040 1 2

/-- S1 left (R461): every PLL ready, Wells and Inkwells zeroed, every cluster under self-test. A port comes up at its PORT_LINK_UP,
which finds it down with its lanes. -/
def W.leaveS1 (w : W) : W := (w.zeroSram).map (fun f => (f.resetClusters.dset 0x2040 1 0).relock)

end Sys2Proof.Machine
end

