-- ==== Sys2Proof/Machine/Partition.lean ====
section
/-! DEFINITION. Partitions: the map (R470, R471), states (R472 to R474), clearing (R475), strict isolation (R477, R478), keys
(R480 to R482), attestation (R489, R490) and fuses (R491 to R493). A write's effect answers with its Rinay status. -/

namespace Sys2Proof.Machine

open Sys2Proof

/-- OK (Table "Rinay status"). -/
def rinayOk : Nat := 0x00
/-- BUSY. -/
def rinayBusy : Nat := 0x0B
/-- RANGE. -/
def rinayRange : Nat := 0x0C

/-! ### The partition map -/

/-- The range entries of the map: first index, highest bit of the count, highest bit of the first unit, units of a base die
(Table "Partition resources"). -/
def mapKind (i : Nat) : Option (Nat × Nat × Nat × Nat) :=
  if Nat.ble 0xB110 i && Nat.blt i 0xB118 then some (0xB110, 25, 8, 512)
  else if Nat.ble 0xB120 i && Nat.blt i 0xB128 then some (0xB120, 24, 7, 256)
  else if Nat.ble 0xB130 i && Nat.blt i 0xB138 then some (0xB130, 22, 5, 64)
  else none

/-- Partition p owns a unit (R470, R472). -/
def Fab.ownsUnit (f : Fab) (p : Nat) : Bool :=
  (List.range 16).any (fun d => f.dget 0xB100 (d + 1) == p || f.dget 0xB101 (d + 1) == p) ||
  (List.range 62).any (fun g => f.dget 0xB102 (g + 1) == p) ||
  (List.range 8).any (fun b => [0xB110, 0xB120, 0xB130].any (fun i => (f.mapRange i b p).2 != 0)) ||
  f.dget 0xB140 (p + 1) != 0

/-- Two ranges meet. -/
def unitsMeet (a b : Nat × Nat) : Bool := a.2 != 0 && b.2 != 0 && Nat.blt a.1 (b.1 + b.2) && Nat.blt b.1 (a.1 + a.2)

/-- A map write outside what an entry may hold (R471). -/
def Fab.mapRangeBad (f : Fab) (i s v : Nat) : Bool :=
  if i ≤ 0xB102 then (v ≥ 16 && v != 0xFF) || (i == 0xB102 && f.granuleGone (s - 1))
  else match mapKind i with
    | some (k, hi, lo, n) =>
      let r := (bitsOf v lo 0, bitsOf v hi 16)
      v != r.2 * 65536 + r.1 || Nat.blt n r.2 || (r.2 != 0 && Nat.blt n (r.1 + r.2)) ||
      partitions.any (fun q => q != s - 1 && unitsMeet r (f.mapRange k (i - k) q))
    | none => Nat.ble (2 ^ 32) v

/-- Owners that a map write concerns. DEDUCED (log 74). -/
def Fab.mapOwners (f : Fab) (i s v : Nat) : List Nat :=
  if i ≤ 0xB102 then [f.dget i s, v].filter (fun p => Nat.blt p 16) else [s - 1]

/-- Numbers in a range. -/
def rangeNats (r : Nat × Nat) : List Nat := (List.range r.2).map (· + r.1)

/-- Numbers of the new value of a range entry that the old one did not hold. -/
def Fab.mapNew (f : Fab) (k i s v : Nat) : List Nat :=
  let r := match mapKind i with
    | some (_, hi, lo, _) => (bitsOf v lo 0, bitsOf v hi 16)
    | none => (0, 0)
  (rangeNats r).filter (fun n => !(rangeNats (f.mapRange k (i - k) (s - 1))).contains n)

/-- Units that a map write gives to a new owner, and the owner (R475). -/
def Fab.gained (f : Fab) (i s v : Nat) : Option (Nat × ClearUnit × List Nat) :=
  if i ≤ 0xB102 then
    if v < 16 ∧ f.dget i s ≠ v then
      some (v, if i = 0xB100 then (.computeDie (s - 1), []) else if i = 0xB101 then (.finePair (s - 1), [])
        else (.granules, [s - 1]))
    else none
  else if (mapKind i).map (·.1) = some 0xB110 then some (s - 1, .inkwell (i - 0xB110), f.mapNew 0xB110 i s v)
  else if (mapKind i).map (·.1) = some 0xB120 then some (s - 1, .blotter (i - 0xB120), f.mapNew 0xB120 i s v)
  else none

/-- Clusters of a compute die or Fine pair. -/
def unitClusters : ClearUnit → List Nat
  | .computeDie d => (List.range 48).map (· + 48 * d)
  | .finePair i => [768 + 2 * i, 769 + 2 * i]
  | _ => []

/-- Units that partition p no longer owns leave its list of units being cleared. -/
def Fab.pruneClearing (f : Fab) (p : Nat) : Fab :=
  let keep := fun (e : ClearUnit × List Nat) => match e.1 with
    | .computeDie d => f.dget 0xB100 (d + 1) == p
    | .finePair i => f.dget 0xB101 (i + 1) == p
    | _ => true
  let still := fun (e : ClearUnit × List Nat) => (e.1, match e.1 with
    | .granules => e.2.filter (fun g => f.dget 0xB102 (g + 1) == p)
    | .inkwell b => e.2.filter (rangeNats (f.mapRange 0xB110 b p)).contains
    | .blotter b => e.2.filter (rangeNats (f.mapRange 0xB120 b p)).contains
    | _ => e.2)
  let gone := fun (e : ClearUnit × List Nat) => match e.1 with
    | .granules | .inkwell _ | .blotter _ => !e.2.isEmpty
    | _ => true
  { f with clearing := f.clearing.set p ((((f.clearing.get [] p).filter keep).map still).filter gone) }

/-- The state and key pair of a partition follow from what it owns (R472, R480). -/
def W.settleOwner (w : W) (p : Nat) : W :=
  let st := w.fab.dget 0xB001 (p + 1)
  let w1 := w.map (fun f => f.pruneClearing p)
  if w1.fab.ownsUnit p then
    if st = 0 then
      { w1 with
        fab := w1.fab.dset 0xB001 (p + 1) 1,
        sec := { w1.sec with keys := w1.sec.keys.set p w1.sec.nextKey, nextKey := w1.sec.nextKey + 1 } }
    else w1
  else if st = 0 then w1
  else { w1 with fab := w1.fab.dset 0xB001 (p + 1) 0, sec := { w1.sec with keys := w1.sec.keys.clear (· == p) } }

/-- A write of a map entry (R471, R472, R475): its status and what it leaves. A gained compute die or Fine pair goes through its
cluster resets. DEDUCED (log 74). -/
def W.mapWrite (w : W) (i s v : Nat) : Nat × W :=
  let f := w.fab
  if (f.mapOwners i s v).any (fun p => f.dget 0xB001 (p + 1) == 2) then (rinayBusy, w)
  else if f.mapRangeBad i s v then (rinayRange, w)
  else
    let owners := f.mapOwners i s v
    let f1 := f.dset i s v
    let f2 := match f.gained i s v with
      | some (p, u, l) =>
        let g := (unitClusters u).foldl (fun g c => g.onCluster c Cluster.reset) f1
        { g with clearing := g.clearing.set p (g.clearing.get [] p ++ [(u, l)]) }
      | none => f1
    (rinayOk, owners.eraseDups.foldl (fun (x : W) p => x.settleOwner p) { w with fab := f2 })

/-- One unit cleared (R475): a granule's lines are written with zeros under its new owner's key, in the slots of the write sub-share
(R202, R231, R508). -/
def W.clearUnit (w : W) (p : Nat) (u : ClearUnit) (l : List Nat) : W :=
  match u with
  | .computeDie d =>
    (w.zero (wellBase (48 * d)) (48 * 0x100000)).map (fun f =>
      f.clearTags (fun c => c / 48 == d && Nat.blt c 768))
  | .finePair i =>
    (w.zero (wellBase (768 + 2 * i)) (2 * 0x100000)).map (fun f =>
      f.clearTags (fun c => c == 768 + 2 * i || c == 769 + 2 * i))
  | .inkwell b => l.foldl (fun (x : W) n => x.zero (inkwellBase b + n * 2 ^ 20) (2 ^ 20)) w
  | .blotter b => w.map (fun f => l.foldl (fun g n => g.setSlot b n ⟨.free, []⟩) f)
  | .granules => l.foldl (fun (x : W) g => (List.range 8).foldl (fun (y : W) b =>
      let a := lpddrBase b + g * 2 ^ 33
      (y.zeroFor p a (2 ^ 33)).map (fun f => (f.fillDone .write p a (2 ^ 33)).dirty p a (2 ^ 33))) x) w

/-- UNIT_CLEAR_DONE (R475): a unit of partition p is clear; the clusters of a die or pair have ended their resets.
DEDUCED (log 74). -/
def unitClearDone (p : Nat) (u : ClearUnit) (w : W) : W :=
  let f := w.fab
  match (f.clearing.get [] p).find? (fun e => e.1 == u) with
  | some e =>
    if (unitClusters u).any (fun c => (f.cluster c).phase == .resetting) then w
    else (w.clearUnit p u e.2).map (fun f =>
      { f with clearing := f.clearing.set p (removeFirst (fun x => x == e) (f.clearing.get [] p)) })
  | none => w

/-- UNIT_CLEAR_DONE. -/
def execUnitClearDone (p : Nat) (u : ClearUnit) (s : State) : Host.Outcome State Fault Refusal := onMem s (unitClearDone p u)

/-! ### Starting and stopping -/

/-- THE OWNER of a base die (R478): the one partition to which every compute die, Fine pair, Inkwell unit, Blotter slot and collective
context of it belongs. -/
def Fab.baseOwner (f : Fab) (b : Nat) : Option Nat :=
  partitions.find? (fun p =>
    [f.dget 0xB100 (2 * b + 1), f.dget 0xB100 (2 * b + 2), f.dget 0xB101 (2 * b + 1), f.dget 0xB101 (2 * b + 2)].all (· == p) &&
    [(0xB110, 512), (0xB120, 256), (0xB130, 64)].all (fun e => f.mapRange e.1 b p == (0, e.2)))

/-- The map meets R478. -/
def Fab.mapStrict (f : Fab) : Bool :=
  (List.range 8).all (fun b => (f.baseOwner b).isSome) &&
  partitions.all (fun p => (List.range 32).all (fun k => !bit (f.dget 0xB140 (p + 1)) k || f.baseOwner (k / 4) == some p)) &&
  (List.range 32).all (fun k => f.dget 0x5003 (k + 1) == 0 || f.dget 0x5008 (k + 1) == 1)

/-- The tables of reason 4: base entry, size entry, bytes of an element (R473). -/
def startTables : List (Nat × Nat) := [(0x7020, 0x7021), (0x7022, 0x7023), (0x8010, 0x8011), (0x8012, 0x8013)]

/-- A table lies wholly inside the partition's windows, or is empty (R473). -/
def Fab.startTableOk (f : Fab) (p : Nat) (t : Nat × Nat) : Bool :=
  f.dget t.2 (p + 1) == 0 || f.inWindows p (f.dget t.1 (p + 1)) (64 * f.dget t.2 (p + 1))

/-- Addresses of the RWS entries of a partition (R406). -/
def rwsEntries (p : Nat) : List (Nat × Nat) :=
  ([0x4002, 0x4011, 0x7020, 0x7021, 0x7022, 0x7023, 0x8010, 0x8011, 0x8012, 0x8013, 0x9100, 0x9101, 0x9102, 0x9103, 0x9106].map
    (fun i => (i, p + 1))) ++
  (List.range 8).map (fun c => (0x7030 + p, c + 1)) ++ (List.range 62).map (fun m => (0xC100 + p, m + 1))

/-- Partition p owns a compute die or a Fine pair. -/
def Fab.ownsEngine (f : Fab) (p : Nat) : Bool :=
  (List.range 16).any (fun d => f.dget 0xB100 (d + 1) == p || f.dget 0xB101 (d + 1) == p)

/-- The reason a start is refused: 0 none (R473). -/
def Fab.startRefusal (f : Fab) (p : Nat) : Nat :=
  if !f.ownsEngine p then 1
  else if !(f.clearing.get [] p).isEmpty || f.resetWaits.contains p then 2
  else if f.dget 0xB000 1 = 1 ∧ !f.mapStrict then 3
  else if !startTables.all (f.startTableOk p) then 4
  else 0

/-- A start of a stopped partition (R251, R406, R437, R473). DEDUCED (log 74). -/
def W.startPartition (w : W) (p : Nat) : Nat × W :=
  if w.fab.dget 0xB001 (p + 1) = 2 then (rinayOk, w) else
  let r := w.fab.startRefusal p
  let w1 := w.map (fun f => f.dset 0xB003 (p + 1) r)
  if r = 2 then (rinayBusy, w1)
  else if r ≠ 0 then (rinayRange, w1)
  else
    let w2 := w1.map (fun f =>
      { (f.dset 0xB001 (p + 1) 2) with
        inForce := (rwsEntries p).foldl (fun (t : Tbl Nat) e => t.set (dictKey e.1 e.2) (f.dget e.1 e.2)) f.inForce })
    (rinayOk, (w2.clearTables p).startNoivos p)

/-- A stop (R474). -/
def Fab.stopPartition (f : Fab) (p : Nat) : Nat × Fab :=
  if f.dget 0xB001 (p + 1) ≠ 2 then (rinayOk, f)
  else if f.launches.any (fun l => l.partition == p) || f.batches.any (fun b => b.partition == p) || (f.steps.find? p).isSome then
    (rinayBusy, f)
  else (rinayOk, f.dset 0xB001 (p + 1) 1)

/-- A write of Strict isolation (R477). -/
def Fab.strictWrite (f : Fab) (v : Nat) : Nat × Fab :=
  if partitions.any (fun p => f.dget 0xB001 (p + 1) == 2) then (rinayBusy, f) else (rinayOk, f.dset 0xB000 1 v)

/-- A write of MACsec mode of a port (R478). -/
def Fab.macsecWrite (f : Fab) (s v : Nat) : Nat × Fab :=
  if v = 0 ∧ f.dget 0xB000 1 = 1 then (rinayRange, f) else (rinayOk, f.dset 0x5008 s v)

/-! ### Keys -/

/-- Byte i of a record. -/
def octet (r : List Byte) (i : Nat) : Nat := (r.getD i 0).toNat

/-- The key record of R481 may be applied on channel `ch` (a partition, or 16 for the operator). -/
def keyRecordOk (sas : List Sa) (ports : Nat) (ch : Nat) (r : List Byte) : Bool :=
  let mine := (sas.filter (fun s => s.channel == ch && s.port == octet r 0)).map (·.an)
  Nat.blt (octet r 0) 32 && bit ports (octet r 0) && Nat.ble (octet r 1) 3 && Nat.ble (octet r 2) 2 &&
  (octet r 3 == 1 || octet r 3 == 2) && ((r.drop 20).take 12).all (· == 0) &&
  (octet r 3 == 2 || mine.contains (octet r 1) || Nat.blt mine.eraseDups.length 2)

/-- The SA of a record; it has accepted no packet. -/
def saOf (ch : Nat) (r : List Byte) : Sa :=
  { channel := ch, port := octet r 0, an := octet r 1, dir := octet r 2, ssci := beNat ((r.drop 4).take 4),
    salt := beNat ((r.drop 8).take 12), sak := beNat ((r.drop 32).take 32), lowest := 0 }

/-- What is left of an SA once direction d (0 transmit, 1 receive, 2 both) is taken from it. -/
def Sa.less (x : Sa) (d : Nat) : Option Sa :=
  if d = 2 ∨ x.dir = d then none else if x.dir = 2 then some { x with dir := 1 - d } else some x

/-- SAs without the direction of a record under its channel, port and association number. -/
def otherSas (sas : List Sa) (s : Sa) : List Sa :=
  sas.filterMap (fun x => if x.channel = s.channel ∧ x.port = s.port ∧ x.an = s.an then x.less s.dir else some x)

/-- A MACsec key record written (R481): install or delete. -/
def W.keyWrite (w : W) (ch : Nat) (r : List Byte) : Nat × W :=
  let ports := if ch = 16 then 2 ^ 32 - 1 else w.fab.dget 0xB140 (ch + 1)
  if !keyRecordOk w.fab.sas ports ch r then (rinayRange, w)
  else
    let s := saOf ch r
    let rest := otherSas w.fab.sas s
    (rinayOk, w.map (fun f => { f with sas := if octet r 3 = 1 then rest ++ [s] else rest }))

/-- While the management key is absent, it is installed through the PF mailbox or the operator channel only (R482). -/
def W.keyShut (w : W) (rq : Requester) : Bool :=
  w.sec.managementKey.isNone && match rq.transport with
    | .mailbox _ fn => fn != 0
    | .inBand => false
    | _ => true

/-- Management key written (R482): the Sequence state is cleared. -/
def W.managementKeyWrite (w : W) (key : Nat) : Nat × W :=
  (rinayOk, { w with
    sec := { w.sec with managementKey := some key }, fab := { w.fab with agent := { w.fab.agent with replay := [] } } })

/-! ### Fuses -/

/-- Security version raise (R492). -/
def W.versionRaise (w : W) (v : Nat) : Nat × W :=
  if v = 0 ∨ 64 < v ∨ w.fab.dget 0xA000 3 < v ∨ v ≤ w.sec.fuses.versionMin then (rinayRange, w)
  else (rinayOk, { w with sec := { w.sec with fuses := { w.sec.fuses with versionMin := v } } })

/-- Vendor key slot k is fused (R491). -/
def Fuses.fused (x : Fuses) (k : Nat) : Bool := x.keyHashes.get 0 k != 0

/-- Revocation bits with slot k revoked. -/
def Fuses.revoking (x : Fuses) (k : Nat) : BitVec 4 := x.revoked ||| BitVec.ofNat 4 (2 ^ k)

/-- Key revoke (R492). -/
def W.revokeKey (w : W) (k : Nat) : Nat × W :=
  let x := w.sec.fuses
  if 3 < k ∨ !(List.range 4).any (fun j => x.fused j && !(x.revoking k).getLsbD j) then (rinayRange, w)
  else (rinayOk, { w with sec := { w.sec with fuses := { x with revoked := x.revoking k } } })

/-- Debug disable (R493): 1 blows the fuse. -/
def W.disableDebug (w : W) (v : Nat) : Nat × W :=
  if v ≠ 1 then (rinayRange, w)
  else (rinayOk, { w with sec := { w.sec with fuses := { w.sec.fuses with debugDisable := true } } })

/-! ### Attestation -/

/-- Attestation request of a partition, or of the device at 16 (R489): nonce, address in network order, reserved bytes. -/
def W.attestRequest (w : W) (who : Nat) (r : List Byte) : Nat × W :=
  let addr := beNat ((r.drop 32).take 8)
  let size := 256 + 32 * (if who = 16 then 0 else (w.sec.log who).digests.length) + 29792
  if w.fab.dget 0xA202 (who + 1) = 1 then (rinayBusy, w)
  else if !((r.drop 40).take 8).all (· == 0) || (who != 16 && !w.fab.inHostWindow who addr size true) then (rinayRange, w)
  else (rinayOk,
    { w with
      sec := { w.sec with attest := w.sec.attest.set who ⟨beNat (r.take 32), addr⟩ }, fab := w.fab.dset 0xA202 (who + 1) 1 })

/-- Every entry of Table "Partition resources" with its width in bytes, in index and subindex order (R490). -/
def mapEntries : List (Nat × Nat × Nat) :=
  (List.range 16).map (fun d => (0xB100, d + 1, 1)) ++ (List.range 16).map (fun d => (0xB101, d + 1, 1)) ++
  (List.range 62).map (fun g => (0xB102, g + 1, 1)) ++
  [0xB110, 0xB120, 0xB130].flatMap (fun i => (List.range 8).flatMap (fun b => (List.range 16).map (fun p => (i + b, p + 1, 4)))) ++
  (List.range 16).map (fun p => (0xB140, p + 1, 4))

/-- The map digest (R490). -/
def Fab.mapDigest (f : Fab) : Nat :=
  Config.shake256 (mapEntries.flatMap (fun e => beBytes e.2.2 (f.dget e.1 e.2.1)) ++ beBytes 1 (f.dget 0xB000 1))

/-- Program chain of a report (R488, R490). -/
def Sec.chainOf (s : Sec) (who : Nat) : Nat :=
  if who = 16 then Config.shake256 (partitions.flatMap (fun p => beBytes 32 (s.log p).chain)) else (s.log who).chain

/-- The attestation header (Table "Attestation header"), as a number. DESIGN CHOICE (log 75). -/
def W.attestHeader (w : W) (who : Nat) (a : Attest) : Nat :=
  let f := w.fab
  let g := w.sec.log who
  let n := if who = 16 then 0 else g.digests.length
  let master := f.inCascade && f.eff 0x5050 2 == 0
  (if f.dget 0xB000 1 = 1 then 2 ^ 1600 else 0) + (if w.sec.fuses.debugDisable then 0 else 2 ^ 1601) +
  (if master then 2 ^ 1602 else 0) + w.sec.build % 2 ^ 64 * 2 ^ 1536 +
  Config.shake256 (beBytes 64 (Config.identityKey w.sec.fuses.deviceSecret)) % 2 ^ 256 * 2 ^ 1280 +
  w.sec.chainOf who % 2 ^ 256 * 2 ^ 1024 + f.mapDigest % 2 ^ 256 * 2 ^ 768 + f.dget 0xA000 2 % 2 ^ 256 * 2 ^ 512 +
  a.nonce % 2 ^ 256 * 2 ^ 256 + f.now % 2 ^ 64 * 2 ^ 192 + f.dget 0x9060 1 * 2 ^ 160 +
  (if who = 16 then 0 else g.loadCount % 2 ^ 32) * 2 ^ 128 + n * 2 ^ 96 + f.dget 0xA000 3 * 2 ^ 64 +
  (if who = 16 then 0 else who) * 2 ^ 56 + (if who = 16 then 1 else 0) * 2 ^ 48 + 2 ^ 32 + 0x41545450

/-- The report of a request: header, digests in log order and the signature over both, byte by byte (R490). -/
def W.report (w : W) (who : Nat) (a : Attest) : List Nat :=
  let body := (leBytes 256 (w.attestHeader who a) ++
    (if who = 16 then [] else (w.sec.log who).digests.flatMap (beBytes 32))).map (·.toNat)
  body ++ Config.sign body "PENOM-ATTEST"

/-- ATTESTATION_SIGNED (R489): the report is written to its address, and the status reads done. DESIGN CHOICE (log 75). -/
def attestSigned (who : Nat) (w : W) : W :=
  match w.sec.attest.find? who with
  | some a =>
    if 16 < who then w
    else
      { w with
        sec := { w.sec with
          reports := w.sec.reports ++ [(who, a.address, w.report who a)], attest := w.sec.attest.clear (· == who) },
        fab := w.fab.dset 0xA202 (who + 1) 2 }
  | none => w

/-- ATTESTATION_SIGNED. -/
def execAttestationSigned (p : Nat) (s : State) : Host.Outcome State Fault Refusal := onAll s (attestSigned p)

end Sys2Proof.Machine
end

