-- ==== Sys2Proof/Machine/Resets.lean ====
section
/-! DEFINITION. Resets: cold reset, boot and power loss (R446, R463, R483 to R486), warm reset (R464, R476), partition reset (R465),
function-level reset and the PCIe pins (R386, R500), cluster reset (R62, R466), the watchdog (R425) and the control pins of
R499; what each keeps (R467, R468). -/

namespace Sys2Proof.Machine

open Sys2Proof

/-! ### EWS_N found low -/

/-- A checkpoint that the flush starts for partition p: its last closed step has none, no step is open, and Noivos is on. -/
def Fab.flushStep (f : Fab) (p : Nat) : Option Nat :=
  if f.eff 0x9106 (p + 1) = 0 ∨ (f.steps.find? p).isSome then none else (f.noivosOf p).due

/-- The flush begins (R443): a running checkpoint goes on (outcome 1), or one starts for each partition that has one due (2), or
nothing is flushed (0); with the step of the lowest partition concerned. -/
def Fab.flush (f : Fab) : Fab :=
  match partitions.filterMap (fun p => (f.noivosOf p).running) with
  | c :: _ => { f with ewsOutcome := (1, c.step) }
  | [] =>
    let due := partitions.filterMap (fun p => (f.flushStep p).map (fun s => (p, s)))
    match due with
    | e :: _ => { due.foldl (fun (g : Fab) x => g.beginCheckpoint x.1 x.2) f with ewsOutcome := (2, e.2) }
    | [] => { f with ewsOutcome := (0, 0) }

/-- EWS_ASSERTED (R443 at t0): no further fetch, abandon partitions abort, the flush begins; no effect during a sequence or hold.
DEDUCED (log 83). -/
def ewsAsserted (f : Fab) : Fab :=
  if f.dget 0x9200 2 ≠ 0 then f else
  let f1 := ({ f with ewsGraced := false }.dset 0x9200 2 1).raise 0x000D 0x0605 none 0 0
  ((partitions.filter (fun p => f.dget 0x9201 (p + 1) == 1)).foldl (fun g p => g.abortPartition p 0xFFFF) f1).flush

/-- EWS_N found low by a running device starts the sequence (R443, R467); the device leaves P1 (R460). DEDUCED (log 83). -/
def Fab.ewsSampled (f : Fab) : Fab :=
  if f.phase = .running ∧ !f.inPins.ewsHigh then ewsAsserted (if f.dget 0x2040 1 = 1 then f.dset 0x2040 1 0 else f) else f

/-! ### What an entry concerns -/

/-- The partition an entry instance concerns (R70, R406, R408): by its subindex, its index, or the owner of its cluster. -/
def Fab.concerned (f : Fab) (d : Desc) (i s : Nat) : Option Nat :=
  match d.concerns with
  | .none => none
  | .bySub => some (s - d.sub)
  | .byIndex => some (i - d.index)
  | .broad => some (f.clusterOwner (48 * (i - d.index) + (s - d.sub)))
  | .fine => some (f.clusterOwner (768 + (s - d.sub)))

/-! ### Clusters -/

/-- A cluster's launch ends as an abort of this cluster's own reset (R127, R466): it reports, its collectives fail, and it leaves
the launch. DEDUCED (log 80). -/
def W.evict (w : W) (c origin : Nat) : W :=
  let mine := fun (x : Coll) => match x.launcher with
    | .op d _ _ _ => d == c
    | .job _ _ => false
  ((w.map (fun f => (f.abortCluster c origin).report c)).failColls mine kolasAborted).map (fun f =>
    f.leave c (if (f.cluster c).nibBad then .awaitReset else .idle))

/-- A cluster reset (R466), absorbed by one that runs, or by a partition reset of its owner that still runs (R467).
DEDUCED (log 80). -/
def W.clusterReset (w : W) (c : Nat) : W :=
  if (w.fab.cluster c).phase = .resetting ∨ w.fab.resetWaits.contains (w.fab.clusterOwner c) then w else (w.evict c c).map (fun f => f.onCluster c Cluster.reset)

/-- The end of a cluster reset (R61, R62, R68, R71): the nibs that failed self-test join the bad-nib map, the presented width and
the residue limit are set. -/
def Fab.clusterReady (f : Fab) (c : Nat) (failing : Nat) : Fab :=
  let bad := f.badNibs c ||| failing
  let b := Sys2Proof.Machine.badEntry c
  let e := widthEntry c
  ((f.dset b.1 b.2 bad).dset e.1 e.2 (widthOf bad (f.dget 0x4003 0x40 = 1))).onCluster c (fun cl =>
    { cl with phase := .idle, nibBad := false, nibLimit := f.dget 0x4003 0x41 })

/-- CLUSTER_RESET_DONE. -/
def execClusterResetDone (c : Nat) (failing : BitVec 64) (s : State) : Host.Outcome State Fault Refusal :=
  onFab s (fun f => if c < 800 ∧ (f.cluster c).phase = .resetting then f.clusterReady c failing.toNat else f)

/-! ### Partition reset -/

/-- A cluster that a partition reset clears: no image, no accumulators, no counters (R465, R468). Its weight buffers, which the
spec does not list there, are kept. DESIGN CHOICE (log 109). -/
def Cluster.cleared (cl : Cluster) : Cluster :=
  let phase : ClusterPhase := match cl.phase with
    | .resetting => .resetting
    | .awaitReset => .awaitReset
    | _ => .idle
  { cl.reset with phase := phase, nibBad := cl.nibBad, live := cl.live, shadow := cl.shadow }

/-- Clusters of partition p. -/
def Fab.ownClusters (f : Fab) (p : Nat) : List Nat := (List.range 800).filter (fun c => f.clusterOwner c == p)

/-- Every launch of a partition aborts and completes (R127, R465). -/
def W.endLaunches (w : W) (p : Nat) : W :=
  let w1 := w.map (fun f => f.abortPartition p 0xFFFF)
  let w2 := (w1.fab.ownClusters p).foldl (fun (x : W) c =>
    match (x.fab.cluster c).phase with
    | .idle | .resetting | .awaitReset => x
    | _ => x.evict c 0xFFFF) w1
  w2.map (fun f => (f.launches.filter (fun l => l.partition == p)).foldl (fun g l => g.completeLaunch l .faulted) f)

/-- Ductus jobs of partition p end CANCELLED (R353). -/
def W.endJobs (w : W) (p : Nat) : W :=
  (List.range 8).foldl (fun (x : W) b => (x.cancelJobs p b (fun _ => true)).endRunningJob b p) w

/-- Folio moves of partition p end with the folio in its old tier (R262); waiting ones complete CANCELLED.
DEDUCED (log 79). -/
def W.endMoves (w : W) (p : Nat) : W :=
  (List.range 8).foldl (fun (x : W) b =>
    let mine := (x.fab.ductusOf b).moves.filter (fun e => e.partition == p)
    let y := x.map (fun f => mine.foldl (fun g e => g.completeEntry e .cancelled)
      (f.onDuctus b (fun d => { d with moves := d.moves.filter (fun e => e.partition != p) })))
    match (y.fab.ductusOf b).move with
    | some m => if m.entry.partition = p then y.endMove b .cancelled else y
    | none => y) w

/-- Every batch of partition p is aborted (R351). -/
def W.endBatches (w : W) (p : Nat) : W :=
  (w.fab.batches.filter (fun b => b.partition == p)).foldl (fun x b => x.endBatch b) w

/-- The open step of partition p ends with every slice Abandoned and its Blotter slots free (R465). -/
def W.endStep (w : W) (p : Nat) : W :=
  (w.abandonRest p true).map (fun f =>
    let slots := f.slots.map (fun (e : Nat × Slot) => (e.1, match e.2.holder with
      | .slice q _ => if q = p then (⟨.free, []⟩ : Slot) else e.2
      | _ => e.2))
    { f with steps := f.steps.clear (· == p), slots := slots })

/-- Wells and Inkwell windows of partition p zeroed. -/
def W.zeroWindows (w : W) (p : Nat) : W :=
  let cs := w.fab.ownClusters p
  let w1 := cs.foldl (fun (x : W) c => x.zero (wellBase c) 0x100000) w
  let w2 := w1.map (fun f => f.clearTags cs.contains)
  (List.range 8).foldl (fun (x : W) b =>
    let r := x.fab.mapRange 0xB110 b p
    x.zero (inkwellBase b + r.1 * 2 ^ 20) (r.2 * 2 ^ 20)) w2

/-- What a partition reset clears outside memory and the dictionary (R465, R468). DEDUCED (log 79). -/
def Fab.clearPartition (f : Fab) (p : Nat) : Fab :=
  let cs := f.ownClusters p
  let regions := cs.map regionOf
  let f1 := cs.foldl (fun g c => g.onCluster c Cluster.cleared) f
  { f1 with
    regionCtr := f1.regionCtr.clear (fun k => regions.contains (k / 16)),
    packageCtr := f1.packageCtr.clear (fun k => k / 64 == p),
    mailboxes := f1.mailboxes.clear (fun k => k / 64 == p),
    agent := { f1.agent with responses := f1.agent.responses.filter (fun r => match r.dest.transport with
      | .mailbox q _ => q != p
      | _ => true) },
    txns := f1.txns.filter (fun t => t.tag.partition != p),
    waiting := f1.waiting.filter (fun x => !cs.contains x.cluster),
    qps := f1.qps.map (fun q => if q.partition = p then { q with sent := [], waiting := [] } else q),
    sas := f1.sas.filter (fun x => x.channel != p),
    nextLaunch := f1.nextLaunch.clear (· == p),
    versions := f1.versions.clear (fun k => k / 8 == p),
    versionTop := f1.versionTop.clear (· == p),
    treeSeq := f1.treeSeq.clear (fun k => k / 256 == p),
    samplers := f1.samplers.map (fun (e : Nat × SamplerUnit) =>
      (e.1, { queue := e.2.queue.filter (fun x => x.partition != p),
              serving := match e.2.serving with
                | some x => if x.item.partition = p then none else some x
                | none => none })) }

/-- V entries of partition p at their default (R409, R465). -/
def Fab.defaultOwn (f : Fab) (p : Nat) : Fab :=
  let g := f
  f.dclear (fun r => r == Retention.v) (fun i s => match Dict.row i s with
    | some d => g.concerned d i s == some p
    | none => false)

/-- What the security block clears at a partition reset (R488). -/
def Sec.clearPartition (s : Sec) (p : Nat) : Sec :=
  { s with logs := s.logs.clear (· == p), attest := s.attest.clear (· == p) }

/-- A partition reset (R465). After a dead channel it completes only when the new homes are filled (R212): until then the memory
context stays lost and the state as it was. DEDUCED (log 79). -/
def W.resetPartition (w : W) (p : Nat) : W :=
  let lost := w.fab.dget 0x3030 (p + 1) = 1
  let w1 := ((w.endLaunches p).failColls (fun c => c.partition == p) kolasAborted)
  let w2 := ((((w1.endJobs p).endMoves p).endBatches p).endStep p).zeroWindows p
  let w3 := { w2 with fab := (w2.fab.defaultOwn p).clearPartition p, sec := w2.sec.clearPartition p }
  w3.map (fun f =>
    if lost && f.filling then { (f.dset 0x3030 (p + 1) 1) with resetWaits := f.resetWaits.filter (· != p) ++ [p] }
    else f.resetEnds p)

/-! ### Function-level reset and the PCIe pins -/

/-- Function-level reset of VF p + 1 (R386): commands fetched run on, their completions discarded; mailboxes are kept.
DEDUCED (log 80). -/
def W.functionReset (w : W) (p : Nat) : W :=
  let w1 := w.map (fun f => f.onVf p (fun v => { v with
    openCmds := v.openCmds.map (fun (x : Entry × Bool) => (x.1, true)),
    queue := v.queue.filter (fun c => c.opcode == 0xFF) }))
  let w2 := (w1.map (fun f => f.abortPartition p 0xFFFF)).endBatches p
  w2.map (fun f =>
    let s := f.scope p
    let s1 : Scope := { s with
      live := { s.live with hostWindows := [] }, shadow := { s.shadow with hostWindows := [] } }
    (f.setScope p s1).onVf p (fun v => { v with sq := [], cq := .reset, errors := 0, msixArmed := false, nextRing := 0 }))

/-- FUNCTION_LEVEL_RESET. -/
def execFunctionLevelReset (p : Nat) (s : State) : Host.Outcome State Fault Refusal :=
  onMem s (fun w => if p < 16 ∧ w.fab.inPins.linkUp then w.functionReset p else w)

/-- HP_PERST_ASSERT (R500): every VF takes a function-level reset; a firmware load in progress ends DMA_ERROR (R485).
DEDUCED (log 76). -/
def perstAssert (w : W) : W :=
  let w1 := w.map (fun f => { f.linkDown with inPins := { f.linkDown.inPins with perstN := false } })
  match w.fab.phase with
  | .off => w
  | .bootLoading =>
    { w1 with fab := { w1.fab with phase := .bootWait }, sec := { w1.sec with bootStatus := 0x10 } }
  | .running => partitions.foldl (fun (x : W) p => x.functionReset p) w1
  | _ => w1

/-- HP_PERST_ASSERT. -/
def execHpPerstAssert (s : State) : Host.Outcome State Fault Refusal := onAny s perstAssert

/-- A width and a rate that the link may train to (Table "PCIe support"); 2.5 GT/s reads as 2. DESIGN CHOICE (log 19). -/
def linkMode (width rate : Nat) : Bool := [8, 4, 2, 1].contains width && [64, 32, 16, 8, 5, 2].contains rate

/-- HP_PERST_RELEASE (R384, R500): the link trains to a width and a rate; one that does not train stays down, as does that of a
cascade member (R380) or of a PCIe controller in its safe state (R456). DESIGN CHOICE (log 19). -/
def perstRelease (width rate : Nat) (w : W) : W :=
  if w.fab.phase = .off ∨ w.fab.inPins.perstN then w
  else
    let w1 := w.map (fun f => { f with inPins := { f.inPins with perstN := true } })
    if w.fab.isMember || (w.fab.island 945).safe || !linkMode width rate then w1 else w1.map (fun f => f.linkTrained width rate)

/-- HP_PERST_RELEASE. -/
def execHpPerstRelease (width rate : Nat) (s : State) : Host.Outcome State Fault Refusal := onAny s (perstRelease width rate)

/-- PCIE_RECOVERY_FAILURE (R425): the link is down; running work goes on and completions queue (R393). -/
def execPcieRecoveryFailure (s : State) : Host.Outcome State Fault Refusal :=
  onFab s (fun f => f.linkDown)

/-! ### Cold reset, boot and power loss -/

/-- Package memory with nothing listed, its keys and bad lines gone. DESIGN CHOICE (log 4). -/
def W.forget (w : W) : W := w.zero 0 (2 ^ 48)

/-- The device with every content lost but what left it and the input levels (R468, column Cold, Off).
DESIGN CHOICE (log 77). -/
def Fab.lost (f : Fab) (phase : DevPhase) : Fab :=
  { Fab.reset with
    phase := phase, netOut := f.netOut, memberOut := f.memberOut, interrupts := f.interrupts,
    inPins := { f.inPins with ppsSeen := false, linkUp := false }, dict := [] }

/-- The security block with only its fuses and the next key number (R480, R482). DESIGN CHOICE (log 77). -/
def Sec.lost (s : Sec) : Sec :=
  { Sec.reset with
    fuses := s.fuses, nextKey := s.nextKey, bootStatus := 0, build := 0, reports := s.reports }

/-- POWER_LOSS (R446, R468): every island is forced into its safe state. -/
def powerLoss (w : W) : W :=
  if w.fab.phase = .off then w
  else
    let w1 := w.forget
    { w1 with
      fab := { w.fab.lost .off with
        pins := ⟨true, false, false, false, true, true⟩,
        islands := (List.range 946).map (fun i => (i, { Island.onA with readyA := false, readyB := false, safe := true })) },
      sec := w1.sec.lost }

/-- POWER_LOSS. -/
def execPowerLoss (s : State) : Host.Outcome State Fault Refusal := onAny s powerLoss

/-- COLD_RESET (R446, R451, R463 steps 1 and 2): from Off, with both references running; the wear counter is loaded from its fuses, the
backup oscillator starts, the host link trains, the boot code waits for an image. DESIGN CHOICE (log 77).
DESIGN CHOICE (log 19). -/
def coldReset (w : W) : W :=
  if w.fab.phase = .off then
    let f := w.fab.lost .bootWait
    let f1 := (f.dset 0x2030 1 (360000 * w.sec.fuses.wear)).dset 0x2110 1 0xB
    { w with fab := if f1.inPins.perstN then f1.linkTrained 8 64 else f1, sec := w.sec.lost }
  else w

/-- COLD_RESET. -/
def execColdReset (s : State) : Host.Outcome State Fault Refusal := onAny s coldReset

/-- BOOT_GO (R483, R485): Go with the image's address and length starts the load. DEDUCED (log 76). -/
def bootGo (address length : Nat) (w : W) : W :=
  if w.fab.phase = .bootWait ∧ w.fab.inPins.linkUp then
    { w with
      fab := { w.fab with phase := .bootLoading },
      sec := { w.sec with bootStatus := 1, bootAddress := address % 2 ^ 64, bootLength := length % 2 ^ 24 } }
  else w

/-- BOOT_GO. -/
def execBootGo (address length : Nat) (s : State) : Host.Outcome State Fault Refusal := onAny s (bootGo address length)

/-- The 2,048 header bits of an image (Table "Firmware header") whose reserved fields are 0. -/
def firmwareHeader (i : FirmwareImage) : Nat :=
  i.publicKey % 2 ^ 512 * 2 ^ 192 + i.build % 2 ^ 64 * 2 ^ 128 + i.bodyLength % 2 ^ 32 * 2 ^ 96 +
  i.securityVersion % 2 ^ 32 * 2 ^ 64 + i.keySlot % 256 * 2 ^ 48 + i.headerVersion % 65536 * 2 ^ 32 + i.magic % 2 ^ 32

/-- Header and body, what the signature and the digest are over (R484). -/
def signedBytes (i : FirmwareImage) : List Byte := leBytes 256 (firmwareHeader i) ++ i.body

/-- The first failing check of Table "Boot status", in its order (R484, R485). DEDUCED (log 76). -/
def Sec.bootCheck (s : Sec) (i : FirmwareImage) : Option Nat :=
  if i.magic ≠ 0x4C584657 ∨ i.headerVersion ≠ 1 ∨ i.reserved ≠ 0 ∨ i.bodyLength + 30048 ≠ s.bootLength ∨
      i.body.length ≠ i.bodyLength then some 0x11
  else if 3 < i.keySlot ∨ !s.fuses.fused i.keySlot ∨ s.fuses.revoked.getLsbD i.keySlot ∨
      s.fuses.keyHashes.get 0 i.keySlot ≠ Config.shake256 (leBytes 64 i.publicKey) then some 0x12
  else if i.securityVersion < s.fuses.versionMin then some 0x13
  else if !Config.verifySignature i.publicKey (signedBytes i) "PENOM-FW" i.signature then some 0x14
  else none

/-- BOOT_CHECK_FAILED (R485): the load ends with DMA_ERROR, or with the first failing check; the boot code waits again. -/
def bootCheckFailed (code : Nat) (i : FirmwareImage) (w : W) : W :=
  if w.fab.phase = .bootLoading ∧ (code = 0x10 ∨ w.sec.bootCheck i = some code) then
    { w with fab := { w.fab with phase := .bootWait }, sec := { w.sec with bootStatus := code } }
  else w

/-- BOOT_CHECK_FAILED. -/
def execBootCheckFailed (code : Nat) (image : FirmwareImage) (s : State) : Host.Outcome State Fault Refusal :=
  onAny s (bootCheckFailed code image)

/-- A channel that failed the training of a cold reset is retired before any granule is owned (R209): nothing is lost and nothing is
to be filled; a second one of its slice takes the slice offline (R210). DEDUCED (log 82). -/
def Fab.untrained (f : Fab) (ch : Nat) : Fab :=
  let b := ch / 32
  if f.sliceGone b then f
  else match f.retirement b with
    | some r => if r.channel = ch % 32 then f else f.offline ch true
    | none =>
      let n := f.nextRetirement
      ((((f.withdraw n).setRetirement ⟨b, ch % 32, n, true⟩).dset 0x3011 (b + 1) (ch % 32)).dset 0x3012 (b + 1) 4).raise
        (0x0600 + ch) 0x0203 none n 1

/-- FIRMWARE_START (R463 steps 3 to 6, R484, R485): every check passed; every island is on PLL A, every cluster under reset with
self-test, the power state P0 and the last reset cause 0. -/
def firmwareStart (i : FirmwareImage) (w : W) : W :=
  if w.fab.phase = .bootLoading ∧ w.sec.bootCheck i = none then
    let f0 := ({ w.fab with phase := .running, islands := [], chanTraining := [] } : Fab).resetClusters
    let f := ((w.fab.chanTraining.filter (fun e => e.2 == 3)).map (·.1)).foldl Fab.untrained f0
    { w with
      fab := ((f.dset 0xA000 2 (Config.shake256 (signedBytes i))).dset 0xA000 3 i.securityVersion).ewsSampled,
      sec := { w.sec with bootStatus := 2, build := i.build } }
  else w

/-- FIRMWARE_START. -/
def execFirmwareStart (image : FirmwareImage) (s : State) : Host.Outcome State Fault Refusal := onAny s (firmwareStart image)

/-! ### Warm reset -/

/-- Values of entries in force after a warm reset: the UDP ports, the cascade's size and index are put in force (R373, R379); the port
modes and the correctable limit stay as they were (R213, R357). -/
def Fab.warmInForce (f : Fab) : Tbl Nat :=
  [(0x5020, 1), (0x5020, 2), (0x5050, 1), (0x5050, 2)].map (fun (e : Nat × Nat) => (dictKey e.1 e.2, f.dget e.1 e.2)) ++
  ((List.range 8).map (fun n => (0x5001, n + 1)) ++ [(0x3020, 0x40)]).map (fun (e : Nat × Nat) => (dictKey e.1 e.2, f.eff e.1 e.2))

/-- Noivos of a partition after a warm reset: nothing runs; its dirty bits are kept with retention and all set without. -/
def Noivos.warm (v : Noivos) (keep : Bool) : Noivos :=
  if keep then { v with running := Option.none, restoring := Option.none }
  else { v with running := Option.none, restoring := Option.none, clean0 := [], clean1 := [], due := Option.none }

/-- Partitions that own a unit. -/
def Fab.assigned (f : Fab) : List Nat := partitions.filter (fun p => f.dget 0xB001 (p + 1) != 0)

/-- The device but for its memory through a warm reset (R464, R468, R474): S and V entries at their default, ports down, what VDD
keeps kept, every assigned partition stopped. -/
def Fab.warm (f : Fab) (keep : Bool) : Fab :=
  let g := f.portsDown.dclear (fun r => r == Retention.s || r == Retention.v) (fun _ _ => true)
  let stopped := g.assigned.foldl (fun h p => h.dset 0xB001 (p + 1) 1) g
  let now := { stopped with inForce := stopped.warmInForce }
  let forced := (if now.inCascade = f.inCascade then now else now.divide 7).relock
  { forced with
    inPins := { f.inPins with linkUp := !forced.isMember && (f.inPins.linkUp || (f.isMember && f.inPins.perstN)) },
    tags := [], wellFaults := [], regionCtr := [], packageCtr := [], txns := [], waiting := [], chans := [], scopes := [], sas := [],
    routeDraining := false, oldRoutes := forced.routes, launches := [], nextLaunch := [], vfs := [], batches := [],
    versionTop := [], versions := [], ductus := [], steps := [], slots := [], colls := [], treeSeq := [], repeats := [],
    samplers := [], flows := [], qps := [], laneBad := [], linkReplays := [], epochChanges := [], lossQueue := [],
    noivos := forced.noivos.map (fun (e : Nat × Noivos) => (e.1, e.2.warm keep)),
    agent := { forced.agent with queue := [], snapshots := [], staged := [], responses := [] },
    restarts := [], resetWaits := [], clusters := forced.clusters.map (fun (e : Nat × Cluster) => (e.1, e.2.reset)) }

/-- New key pairs for every assigned partition, and its granules marked as being cleared (R476). -/
def W.rekeyAll (w : W) : W :=
  w.fab.assigned.foldl (fun (x : W) p =>
    let gs := (List.range 62).filter (fun g => x.fab.dget 0xB102 (g + 1) == p)
    let f := if gs.isEmpty then x.fab
      else { x.fab with clearing := x.fab.clearing.set p ((x.fab.clearing.get [] p).filter (fun e => e.1 != .granules) ++ [(.granules, gs)]) }
    { x with fab := f, sec := { x.sec with keys := x.sec.keys.set p x.sec.nextKey, nextKey := x.sec.nextKey + 1 } }) w

/-- Steps 1 to 3 of a warm reset (R464); its cause (1 RST_N, 2 a command; plus 2 with retention) is recorded. -/
def W.warmReset (w : W) (cause : Nat) : W :=
  let keep := w.fab.dget 0x2050 1 == 1
  let w1 := w.zeroSram
  let w2 := if keep then w1 else w1.zero (lpddrBase 0) (8 * 2 ^ 39)
  let w3 : W := { w2 with
    fab := ((w2.fab.warm keep).dset 0x2050 3 (cause + if keep then 2 else 0)).dset 0x2040 1 0,
    sec := { w2.sec with logs := [], attest := [] } }
  if keep then w3 else w3.rekeyAll

/-- Steps 4 to 6: firmware runs again from the retained image, every cluster is under reset with self-test, and EWS_N is sampled
(R467). -/
def Fab.warmEnds (f : Fab) : Fab := ({ f with phase := .running } : Fab).resetClusters.ewsSampled

/-- WARM_RESET_PIN (R462, R467): RST_N low; no effect without power or while a cold reset runs. DEDUCED (log 78). -/
def warmResetPin (w : W) : W :=
  let w1 := w.map (fun f => { f with inPins := { f.inPins with rstN := false } })
  match w.fab.phase with
  | .off => w
  | .running => (w1.warmReset 1).map (fun f => { f with phase := .warmHeld })
  | _ => w1

/-- WARM_RESET_PIN. -/
def execWarmResetPin (s : State) : Host.Outcome State Fault Refusal := onAny s warmResetPin

/-- RST_N_RELEASE (R464): the warm reset goes on from step 4. DEDUCED (log 78). -/
def rstRelease (w : W) : W :=
  let f1 := { w.fab with inPins := { w.fab.inPins with rstN := true } }
  match w.fab.phase with
  | .off => w
  | .warmHeld => { w with fab := f1.warmEnds }
  | _ => { w with fab := f1 }

/-- RST_N_RELEASE. -/
def execRstNRelease (s : State) : Host.Outcome State Fault Refusal := onAny s rstRelease

/-! ### Watchdog and pins -/

/-- WATCHDOG (R425): a processor restarts from the retained image, whose digest is the one recorded at boot, and runs none of its tasks
for the restart time. DESIGN CHOICE (log 113). -/
def watchdog (processor restart : Nat) (f : Fab) : Fab :=
  if 4 ≤ processor then f
  else
    ({ f with restarts := f.restarts.set processor (f.cycle + nsCycles restart) }.dadd 0x9050 1 1).raise (1 + processor) 0x0601 none
      processor restart

/-- WATCHDOG. -/
def execWatchdog (processor restart : Nat) (s : State) : Host.Outcome State Fault Refusal := onFab s (watchdog processor restart)

/-- MG_PHY_INT (R499): firmware shows the management port's state. DEDUCED (log 87). -/
def execMgPhyInt (up : Bool) (s : State) : Host.Outcome State Fault Refusal :=
  onFab s (fun f => f.dset 0x1100 5 (if up then 1 else 0))

/-- TAP_RESET (R493, R499): ignored once the debug fuse is blown. DESIGN CHOICE (log 92). -/
def execTapReset (s : State) : Host.Outcome State Fault Refusal :=
  onAny s (fun w => if w.fab.phase = .off ∨ w.sec.fuses.debugDisable then w
    else { w with sec := { w.sec with tapReset := true } })

end Sys2Proof.Machine
end

