-- ==== Sys2Proof/Machine/Memory.lean ====
section
/-! DEFINITION. Maintenance of memory: scrubbing (R196, R201, R205, R207), the retirement of LPDDR5X channels (R209 to R212) and
missed refresh (R457). -/

namespace Sys2Proof.Machine

open Sys2Proof

/-! ### Scrubbing -/

/-- Owner of a place as a partition. -/
def Fab.placePart (f : Fab) (pl : Place) : Option Nat := if f.placeOwner pl < 16 then some (f.placeOwner pl) else none

/-- A scrubber reads a line: a corrected error is counted and written back, an uncorrectable one is recorded and ends no context
(R205, R207). DEDUCED (log 82). -/
def Fab.scrub (f : Fab) (pl : Place) (ecc : Ecc) : Fab :=
  (f.readQuietly (f.placePart pl) (pl.addr / 64) ecc).accessDone pl.addr

/-- An error that a memory has taken since a scrubber last looked (R193, R196, R205). DESIGN CHOICE (log 94). -/
def Fab.arise (f : Fab) (u : Upset) : Fab :=
  match f.locate none u.place with
  | .well c o =>
    let k := if u.tag then tagKey c (o / 64) else wordKey c o
    { f with wellFaults := f.wellFaults.set k (u.uncorrectable || f.wellFaults.get false k) }
  | .outside => f
  | _ => f.upset (u.place / 64) (if u.uncorrectable then .uncorrectable else .corrected)

/-- INKWELL_SCRUB (R196), while the base die's core runs (R456). -/
def inkwellScrub (b line : Nat) (ecc : Ecc) (arisen : List Upset) (f : Fab) : Fab :=
  let g := arisen.foldl Fab.arise f
  if b < 8 ∧ line < 2 ^ 23 ∧ !f.halts (896 + b) then g.scrub (.inkwell b (64 * line)) ecc else g

/-- INKWELL_SCRUB. -/
def execInkwellScrub (b line : Nat) (found : ScrubRead) (s : State) : Host.Outcome State Fault Refusal :=
  onFab s (inkwellScrub b line found.ecc found.arisen)

/-- Line of a slice that data line j of channel c holds where no channel of the slice is retired (R198). -/
def lineAt (c j : Nat) : Nat :=
  let h := j / 4
  128 * h + 4 * ((c ^^^ h % 32) ^^^ h / 32 % 32) + j % 4

/-- Slice offset held by data line j of live channel c of slice b, with the retirement map (R198, R211). -/
def Fab.offsetAt (f : Fab) (b c j : Nat) : Option Nat :=
  let st := f.dget 0x3012 (b + 1)
  match f.retirement b with
  | some r =>
    if r.number = 0 then some (64 * lineAt c j)
    else if c = r.channel then (if st = 2 ∧ f.dget 0x3013 (b + 1) ≤ j then some (64 * lineAt c j) else none)
    else if j < firstSpare r.number then some (64 * lineAt c j)
    else
      let i := if c < r.channel then c else c - 1
      let k := 31 * (j - firstSpare r.number) + i
      if k < firstSpare r.number ∧ (st ≠ 2 ∨ k < f.dget 0x3013 (b + 1)) then some (64 * lineAt r.channel k) else none
  | none => some (64 * lineAt c j)

/-- The 512 bits that an LPDDR5X line stores: its four blocks as encrypted under the key the line is held under (R199, R202).
DESIGN CHOICE (log 12). -/
def W.stored (w : W) (l : Nat) : BitVec 512 :=
  let block := fun (i : Nat) =>
    let x := w.block (64 * l + 16 * i)
    match w.fab.keyOf l with
    | some k => Config.xtsEncrypt (Config.keyPair k) l i x
    | none => x
  BitVec.ofNat 512 (((List.range 4).map (fun i => (block i).toNat * 2 ^ (128 * i))).sum)

/-- THE ECC LINE of group g of channel c of slice b (R199): the check word of data position i at bits [16i+15:16i], and its own at
[511:496]; each covers the 512 stored bits and the physical line index. A line outside the map stores zeros here.
DESIGN CHOICE (log 94). -/
def W.eccLine (w : W) (b c g : Nat) : BitVec 512 :=
  let word := fun (i : Nat) =>
    let j := 31 * g + i
    let bits := match w.fab.offsetAt b c j with
      | some o => w.stored ((lpddrBase b + o) / 64)
      | none => 0
    Config.checkWord bits (physicalLine j).1
  let low := ((List.range 31).map (fun i => (word i).toNat * 2 ^ (16 * i))).sum
  BitVec.ofNat 512 (low + (Config.checkWord (BitVec.ofNat 512 low) (32 * g + 31)).toNat * 2 ^ 496)

/-- The controller group of a global channel, and the base die's core, run (R456). -/
def Fab.channelRuns (f : Fab) (channel : Nat) : Bool := !f.halts (904 + channel / 8) && !f.halts (896 + channel / 32)

/-- PATROL_SCRUB (R201): data line j of a global channel, where it holds a line of the map. -/
def patrolScrub (channel j : Nat) (ecc : Ecc) (arisen : List Upset) (f0 : Fab) : Fab :=
  let f := arisen.foldl Fab.arise f0
  if channel < 256 ∧ j < 62 * 2 ^ 22 ∧ f.channelRuns channel then
    match f.offsetAt (channel / 32) (channel % 32) j with
    | some o =>
      match f.locate none (lpddrBase (channel / 32) + o) with
      | .lpddr b x => f.scrub (.lpddr b x) ecc
      | _ => f
    | none => f
  else f

/-- PATROL_SCRUB. -/
def execPatrolScrub (channel line : Nat) (found : ScrubRead) (s : State) : Host.Outcome State Fault Refusal :=
  onFab s (patrolScrub channel line found.ecc found.arisen)

/-! ### Retirement -/

/-- A package address lies on channel c of slice b, as it was before any retirement of the slice (R198). -/
def onChannel (b c a : Nat) : Bool :=
  let l := (a - lpddrBase b) / 64
  Nat.ble (lpddrBase b) a && Nat.blt a (lpddrBase b + 0x7C00000000) &&
  ((bitsOf l 6 2 ^^^ bitsOf l 11 7) ^^^ bitsOf l 16 12) == c

/-- The lines of a dead channel read zero (R212); a line that held an error is good again. DESIGN CHOICE (log 4). -/
def W.loseChannel (w : W) (b c : Nat) : W :=
  let cells := ((MemOp.applyAll w.mem w.out).map (·.1)).filter (onChannel b c)
  (cells.foldl (fun (x : W) a => x.put a 0) w).map (fun f =>
    { f with
      lineKey := f.lineKey.clear (fun l => onChannel b c (64 * l)),
      badLines := f.badLines.filter (fun l => !onChannel b c (64 * l)),
      softLines := f.softLines.filter (fun l => !onChannel b c (64 * l)) })

/-- HOURLY_WINDOW (R209, R213): the counts of the hour that ends are gone, and the limit then set judges the next one. -/
def hourlyWindow (f : Fab) : Fab :=
  { f with chanHour := [], inForce := f.inForce.set (dictKey 0x3020 0x40) (f.dget 0x3020 0x40) }

/-- HOURLY_WINDOW. -/
def execHourlyWindow (s : State) : Host.Outcome State Fault Refusal := onFab s hourlyWindow

/-- Partitions that own a granule. -/
def Fab.granuleOwners (f : Fab) : List Nat :=
  partitions.filter (fun p => (List.range 62).any (fun g => f.dget 0xB102 (g + 1) == p))

/-- The contexts of every granule owner end (R212). A channel's death waits for nothing: an entry of a table that cannot be reached
now stays unwritten. DEDUCED (log 81). -/
def W.endOwners (w : W) (b : Nat) : W :=
  { (w.fab.granuleOwners.foldl (fun (x : W) p => x.endContext p none (lpddrBase b)) w) with waits := w.waits }

/-- A dead channel (R210, R212): contexts end, the retirement is committed and its granules leave their owners; a second channel
takes the slice offline. DEDUCED (log 81). -/
def W.dead (w : W) (ch : Nat) : W :=
  let b := ch / 32
  let c := ch % 32
  if w.fab.sliceGone b then w else
  let w1 := (w.endOwners b).loseChannel b c
  let commit := fun (x : W) (n : Nat) => x.map (fun f =>
    (((f.setRetirement ⟨b, c, n, true⟩).dset 0x3011 (b + 1) c).dset 0x3012 (b + 1) 3).raise (0x0600 + ch) 0x0203 none n 1)
  match w.fab.retirement b with
  | some r =>
    if r.channel ≠ c then w1.map (fun f => f.offline ch true)
    else if r.number = 0 then begins w1 commit
    else if w.fab.dget 0x3012 (b + 1) = 2 then commit w1 r.number
    else w
  | none => begins w1 commit
where
  /-- The next retirement with its granules withdrawn; owners that lost their last unit become unassigned, and a pending retirement
  whose granules came free starts (R211). -/
  begins (w : W) (commit : W → Nat → W) : W :=
    let n := w.fab.nextRetirement
    let owners := ((granulesOf n).map (fun g => w.fab.dget 0xB102 (g + 1))).filter (fun p => Nat.blt p 16)
    (owners.eraseDups.foldl (fun (x : W) p => x.settleOwner p) (commit (w.map (fun f => f.withdraw n)) n)).map
      Fab.retryMigrations

/-- ACCESS_TIMEOUT (R209): the second of two successive ones makes the channel dead. -/
def accessTimeout (ch : Nat) (w : W) : W :=
  if 256 ≤ ch then w
  else if w.fab.chanTimeouts.get 0 ch = 0 then w.map (fun f => { f with chanTimeouts := f.chanTimeouts.set ch 1 })
  else (w.map (fun f => { f with chanTimeouts := f.chanTimeouts.clear (· == ch) })).dead ch

/-- ACCESS_TIMEOUT. -/
def execAccessTimeout (channel : Nat) (s : State) : Host.Outcome State Fault Refusal := onAll s (accessTimeout channel)

/-- RETRAINING_FAILURE (R209): the third makes the channel dead; one before the firmware runs is the training of the cold reset,
whose channels are retired at step 5 (R463). DEDUCED (log 82). -/
def retrainingFailure (ch : Nat) (w : W) : W :=
  if 256 ≤ ch ∨ w.fab.phase = .off ∨ w.fab.phase = .warmHeld then w
  else if w.fab.phase ≠ .running then w.map (fun f => { f with chanTraining := f.chanTraining.set ch 3 })
  else
    let n := w.fab.chanTraining.get 0 ch + 1
    let w1 := w.map (fun f => { f with chanTraining := f.chanTraining.set ch n })
    if n = 3 then w1.dead ch else w1

/-- RETRAINING_FAILURE. -/
def execRetrainingFailure (channel : Nat) (s : State) : Host.Outcome State Fault Refusal := onAny s (retrainingFailure channel)

/-- MISSED_REFRESH_TIMEOUT (R457): the 8 channels of an LPDDR5X group still in its safe state are dead one after the other: the
first is retired, unless the slice has a retirement, the next takes the slice offline, and each loses its lines (R210, R212).
DEDUCED (log 82). -/
def missedRefresh (i : Nat) (w : W) : W :=
  let ch := 8 * (i - 904)
  if islandKind i = 4 ∧ (w.fab.island i).safe ∧ !w.fab.sliceGone (ch / 32) then
    let w1 := (List.range 8).foldl (fun (x : W) k => x.dead (ch + k)) w
    (List.range 8).foldl (fun (x : W) k => x.loseChannel (ch / 32) (ch % 32 + k)) w1
  else w

/-- MISSED_REFRESH_TIMEOUT. -/
def execMissedRefreshTimeout (island : Nat) (s : State) : Host.Outcome State Fault Refusal := onAll s (missedRefresh island)

/-- MIGRATION_LINE (R211): the line at the pointer of a migrating slice is read, corrected and written to its new home; the last
one completes the retirement. -/
def migrationLine (b : Nat) (ecc : Ecc) (f : Fab) : Fab :=
  match f.retirement b with
  | some r =>
    if f.dget 0x3012 (b + 1) = 2 ∧ f.channelRuns (32 * b + r.channel) then
      let j := f.dget 0x3013 (b + 1)
      let o := 64 * lineAt r.channel j
      let f1 := ((f.scrub (.lpddr b o) ecc).dset 0x3013 (b + 1) (j + 1)).accessDone (lpddrBase b + o)
      if firstSpare r.number ≤ j + 1 then
        (f1.dset 0x3012 (b + 1) 4).raise (0x0600 + 32 * b + r.channel) 0x0203 none r.number 0
      else f1
    else f
  | none => f

/-- MIGRATION_LINE. -/
def execMigrationLine (b : Nat) (ecc : Ecc) (s : State) : Host.Outcome State Fault Refusal := onFab s (migrationLine b ecc)

/-- Every granule's lines on a channel of a slice filled with zeros, under its owner's key; their pages are written (R212, R438). -/
def W.fillHomes (w : W) (b c : Nat) : W :=
  (List.range 62).foldl (fun (x : W) g =>
    let p := x.fab.dget 0xB102 (g + 1)
    let a := lpddrBase b + g * 2 ^ 33
    let key := x.sec.keys.get 0 p
    if 16 ≤ p ∨ key = 0 then x
    else x.map (fun f => { f with fills := ⟨a, 2 ^ 33, some c, key⟩ :: f.fills }.dirty p a (2 ^ 33))) (w.loseChannel b c)

/-- HOME_FILL_DONE (R212): the new homes of a dead channel hold zeros; partition resets that waited complete. -/
def homeFillDone (b : Nat) (w : W) : W :=
  match w.fab.retirement b with
  | some r =>
    if w.fab.dget 0x3012 (b + 1) = 3 then
      (w.fillHomes b r.channel).map (fun f => (f.dset 0x3012 (b + 1) 4).finishWaits)
    else w
  | none => w

/-- HOME_FILL_DONE. -/
def execHomeFillDone (b : Nat) (s : State) : Host.Outcome State Fault Refusal := onMem s (homeFillDone b)

end Sys2Proof.Machine
end

