-- ==== Sys2Proof/Machine/Ews.lean ====
section
/-! DEFINITION. EWS_N: assertion, grace, hold and resume (R443). -/

namespace Sys2Proof.Machine

open Sys2Proof

/-- EWS_ASSERTED; the device leaves P1 (R460). During a cold or warm reset the level is sampled when the device is ready (R467). -/
def execEwsAsserted (s : State) : Host.Outcome State Fault Refusal :=
  onAny s (fun w => w.map (fun f => if f.phase = .off then f else { f with inPins := { f.inPins with ewsHigh := false } }.ewsSampled))

/-- EWS_GRACE_EXPIRY (R443): launches abort, running jobs end CANCELLED, folio moves end in the old tier; EWS state reads 2 once the last
launch has ended.
DEDUCED (log 83). -/
def ewsGrace (w : W) : W :=
  if w.fab.dget 0x9200 2 ≠ 1 ∨ w.fab.ewsGraced then w else
  let w1 := w.map (fun f => partitions.foldl (fun g p => g.abortPartition p 0xFFFF) f)
  let w2 := (List.range 8).foldl (fun (x : W) b => partitions.foldl (fun (y : W) p => y.endRunningJob b p) x) w1
  (partitions.foldl (fun (x : W) p => x.endMoves p) w2).map (fun f => { f with ewsGraced := true }.ewsDrained)

/-- EWS_GRACE_EXPIRY. -/
def execEwsGraceExpiry (s : State) : Host.Outcome State Fault Refusal := onMem s ewsGrace

/-- EWS_HOLDING (R443): the flush has ended. DEDUCED (log 83). -/
def ewsHolding (f : Fab) : Fab :=
  if f.dget 0x9200 2 = 2 ∧ f.noivos.all (fun e => e.2.running.isNone) then
    (f.dset 0x9200 2 3).raise 0x000D 0x0606 none f.ewsOutcome.1 f.ewsOutcome.2
  else f

/-- EWS_HOLDING. -/
def execEwsHolding (s : State) : Host.Outcome State Fault Refusal := onFab s ewsHolding

/-- A write of EWS resume (R443): BUSY while the pin is low or before the hold. DEDUCED (log 83). -/
def Fab.ewsResume (f : Fab) : Nat × Fab :=
  if !f.inPins.ewsHigh || f.dget 0x9200 2 != 3 then (rinayBusy, f) else (rinayOk, { f with ewsGraced := false }.dset 0x9200 2 0)

end Sys2Proof.Machine
end

