-- ==== Sys2Proof/Machine/Agent.lean ====
section
/-! DEFINITION. The dictionary agent (R403 to R422): reads and writes of entries, Rinay requests and their checks, rights,
responses, and the commands that are writes of an entry. -/

namespace Sys2Proof.Machine

open Sys2Proof

/-! ### Reading an entry -/

/-- Island clock state (0x2100:02) of an island. -/
def Island.state (x : Island) : Nat :=
  (if x.liveB then 1 else 0) + (if x.readyA then 4 else 0) + (if x.readyB then 8 else 0) + (if x.safe then 16 else 0) +
  (if x.lostA then 32 else 0) + (if x.lostB then 64 else 0)

/-- A Member record (0x9061:02) as bytes. -/
def memberRecordBytes (m : Member) : List Byte :=
  (List.range 8).flatMap (fun n => beBytes 16 (m.addresses.getD n 0)) ++ leBytes 1 m.role ++ leBytes 1 m.state ++
    List.replicate 30 0

/-- The value of an entry as the bytes of its encoding (R405). -/
def W.entryBytes (w : W) (d : Desc) (i s : Nat) : List Byte :=
  let f := w.fab
  let n := d.ty.width
  if s = 0 then beBytes n d.dflt
  else if i = 0x9001 ∧ s = 1 then beBytes n f.log.queue.length
  else if i = 0x9001 ∧ s = 3 then beBytes n (((f.log.queue[f.dget 0x9001 2]?).map EventRec.bits).getD 0)
  else if i = 0x9061 ∧ s = 2 then memberRecordBytes (f.members.get ⟨[], 0, 0, 0, 0, 0⟩ (f.dget 0x9061 1))
  else if i = 0x2100 ∧ s = 2 then beBytes n (f.island (f.dget 0x2100 1)).state
  else if i = 0x1100 ∧ s = 3 then beBytes n w.sec.fuses.mac
  else if i = 0xA000 ∧ s = 1 then beBytes n (Config.identityKey w.sec.fuses.deviceSecret)
  else if i = 0xA000 ∧ s = 4 then beBytes n w.sec.fuses.versionMin
  else if i = 0xA000 ∧ s = 5 then beBytes n (if w.sec.fuses.debugDisable then 1 else 0)
  else if i = 0x2030 ∧ s = 2 then beBytes n w.sec.fuses.wear
  else beBytes n (f.dget i s)

/-! ### Statuses and rights -/

/-- BAD_FRAME (Table "Rinay status"). -/
def rinayBadFrame : Nat := 0x01
/-- UNREACHABLE. -/
def rinayUnreachable : Nat := 0x02
/-- NO_ENTRY. -/
def rinayNoEntry : Nat := 0x03
/-- NO_RIGHT. -/
def rinayNoRight : Nat := 0x04
/-- LEVEL. -/
def rinayLevel : Nat := 0x05
/-- CASCADE_MEMBER. -/
def rinayCascadeMember : Nat := 0x06
/-- READ_ONLY. -/
def rinayReadOnly : Nat := 0x07
/-- WRITE_ONLY. -/
def rinayWriteOnly : Nat := 0x08
/-- TYPE_MISMATCH. -/
def rinayTypeMismatch : Nat := 0x09
/-- OFFSET. -/
def rinayOffset : Nat := 0x0A

/-- The right of a request and, for a Tenant, its partition (R407). DESIGN CHOICE (log 26). -/
def rightOf (rq : Requester) : Right × Nat :=
  match rq.transport with
  | .management | .inBand | .cascade => (.operator, 0)
  | .mailbox p fn => if fn = 0 then (.operator, 0) else if fn = 0xFE then (.firmware, 0) else (.tenant, p)
  | .internal => (.firmware, 0)
  | .jtag => (.debug, 0)

/-- Place of a right in their order (R408). -/
def Right.rank : Right → Nat
  | .tenant => 0
  | .operator => 1
  | .firmware => 2
  | .debug => 3

/-- A request's right reaches an entry (R408). -/
def Fab.allowed (f : Fab) (rq : Requester) (d : Desc) (i s : Nat) (write : Bool) : Bool :=
  let r := rightOf rq
  let have_ := Right.rank r.1
  let needs := Right.rank d.right
  let high := Nat.ble needs have_ || (!write && have_ == 1 && needs == 2)
  let own := have_ != 0 || s == 0 || (match f.concerned d i s with
    | some p => p == r.2
    | none => !write)
  high && own

/-- The write goes to the master alone (R420): to this package's own management port while it is a cascade member. -/
def Fab.memberRefuses (f : Fab) (rq : Requester) (i : Nat) : Bool :=
  f.inCascade && f.eff 0x5050 2 != 0 && rq.transport == .management && i != 0x5050 && i != 0x1100

/-- The checks of Table "Rinay status" from NO_ENTRY to WRITE_ONLY, in their order (R419). -/
def Fab.entryAccess (f : Fab) (rq : Requester) (i s : Nat) (write : Bool) : Except Nat Desc :=
  match Dict.entry i s with
  | none => .error rinayNoEntry
  | some d =>
    if !f.allowed rq d i s write then .error rinayNoRight
    else if write && Nat.ble 0x40 s && f.dget 0x1100 0x40 == 0 && !(i == 0x1100 && s == 0x40) then .error rinayLevel
    else if write && f.memberRefuses rq i then .error rinayCascadeMember
    else if write && (d.access == .const || d.access == .ro) then .error rinayReadOnly
    else if !write && d.access == .wo then .error rinayWriteOnly
    else .ok d

/-! ### Writing an entry -/

/-- An entry's own busy rule (R357, R406, R441, R443, R455, R459, R461, R477): nothing starts in S1, whose rails are off.
DEDUCED (log 87). -/
def W.entryBusy (w : W) (d : Desc) (i s v : Nat) : Bool :=
  let f := w.fab
  if d.access = .rws then !(match f.concerned d i s with | some p => f.stopped p | none => true)
  else if i = 0x5001 then f.engineEnabled (s - 1)
  else if i = 0x9105 then !f.stopped (s - 1) || (f.noivosOf (s - 1)).restoring.isSome
  else if i = 0xB000 ∧ s = 1 then partitions.any (fun p => f.dget 0xB001 (p + 1) == 2)
  else if i = 0x2040 ∧ s = 2 then v == 2 && f.dget 0x2040 1 != 2 && !f.mayS1
  else if i = 0x2100 ∧ s = 3 then
    let x := f.clockRequest (f.dget 0x2100 1) (v == 1)
    x.1 && (Nat.ble v 1 || x.2.dget 0x2100 4 == 3)
  else if i = 0x9200 ∧ s = 3 then f.ewsResume.1 == rinayBusy
  else if i = 0xB002 then v == 1 && f.dget 0x2040 1 == 2
  else false

/-- Bits as a two's complement integer of `n` bytes. -/
def entryInt (n v : Nat) : Int := (BitVec.ofNat (8 * n) v).toInt

/-- Expert split (R234): r + w + m = 16, each 1 to 14, r_b at most r, no reserved bit. -/
def splitOk (v : Nat) : Bool :=
  let r := bitsOf v 19 16
  let x := bitsOf v 15 12
  let m := bitsOf v 11 8
  r + x + m == 16 && [r, x, m].all (fun n => Nat.ble 1 n && Nat.ble n 14) && Nat.ble (bitsOf v 7 4) r &&
    bitsOf v 3 0 == 0 && Nat.blt v (2 ^ 20)

/-- A Member record may be written (R444). -/
def memberRecordOk (b : List Byte) : Bool :=
  Nat.ble (octet b 128) 1 && Nat.ble (octet b 129) 2 && (b.drop 130).all (· == 0)

/-- A value outside what its entry may take (R405, R10, R11, and the entry's own chapter). -/
def Fab.rangeBad (f : Fab) (d : Desc) (i s v : Nat) (b : List Byte) : Bool :=
  let n : Int := if d.ty.signed then entryInt d.ty.width v else v
  let generic := match d.ty with
    | .octets _ | .text _ => false
    | _ => decide (n < d.lo) || decide (d.hi < n)
  if generic then true
  else if i = 0x2040 ∧ s = 2 then v == 1
  else if i = 0x2020 ∧ s = 0x40 then Nat.ble (f.dget 0x2020 0x41) v
  else if i = 0x2020 ∧ s = 0x41 then Nat.ble v (f.dget 0x2020 0x40)
  else if i = 0x4011 then Nat.ble 1 v && Nat.blt v 1900
  else if Nat.ble 0x7030 i && Nat.ble i 0x703F then v % 64 != 0
  else if i = 0x5001 then f.cascadeEngine (s - 1)
  else if i = 0x5040 ∧ s = 2 then
    v != 0 && (List.range 8).any (fun n => !f.cascadeEngine n && f.modeOf n != 1)
  else if i = 0x3C20 ∧ s = 2 then v == 1 && f.dget 0xB000 1 == 1
  else if i = 0x3C20 ∧ 0x40 ≤ s then !splitOk v
  else if i = 0x9103 then v % 65536 != 0
  else if i = 0x9061 ∧ s = 2 then !memberRecordOk b
  else false

/-- Records released from the event log, oldest first (R430, R432). -/
def Fab.releaseLog (f : Fab) (n : Nat) : Fab :=
  let q := { f.log with queue := f.log.queue.drop n }
  { f with log := q.settle 4096 f.now 0x0020 none (f.dget 0x5030 4 == 2) }

/-- Member record of the selected member written (R433, R444). -/
def Fab.writeMember (f : Fab) (b : List Byte) : Fab :=
  let k := f.dget 0x9061 1
  let old := f.members.get ⟨[], 0, 0, 0, 0, 0⟩ k
  let new : Member := { old with
    addresses := (List.range 8).map (fun n => beNat ((b.drop (16 * n)).take 16)), role := octet b 128, state := octet b 129 }
  { f with members := f.members.set k new }

/-- Strict isolation on holds Slot lending at 0 (R478). -/
def Fab.setStrict (f : Fab) (v : Nat) : Nat × Fab :=
  let x := f.strictWrite v
  if x.1 = rinayOk ∧ v = 1 then (x.1, x.2.dset 0x3C20 2 0) else x

/-- A status with a change of the device alone. -/
def W.withFab (w : W) (x : Nat × Fab) : Nat × W := (x.1, { w with fab := x.2 })

/-- OK with a change of the work. -/
def W.ok (w : W) : Nat × W := (rinayOk, w)

/-- The writes that the package has accepted complete (R461). -/
def W.landWrites (w : W) : W :=
  w.fab.txns.foldl (fun (x : W) t => match t.far, t.write, t.origin with
    | _, _, .void _ => x
    | .package, some bytes, _ => x.written t bytes .clean
    | _, _, _ => x) w

/-- A power state request (R461). DEDUCED (log 87). -/
def W.powerRequest (w : W) (v : Nat) : W :=
  let st := w.fab.dget 0x2040 1
  if v = 2 then (if st = 2 then w else w.landWrites.map (fun f => f.enterS1))
  else if st = 2 then w.leaveS1
  else w.map (fun f => f.dset 0x2040 1 0)

/-- Warm reset by command (R464): all its steps, the power state P0 and the cause 2, or 4 with retention.
DEDUCED (log 78). -/
def W.warmCommand (w : W) : W := (w.warmReset 2).map (fun f => f.warmEnds)

/-- Firmware switches an island (R455); a cluster that it recovers from its safe state is reset, which aborts its launch (R127, R456).
DEDUCED (log 73). -/
def W.switchClock (w : W) (i : Nat) (b : Bool) : W :=
  let w1 := w.map (fun f => (f.clockRequest i b).2)
  if i < 800 ∧ (w.fab.island i).safe ∧ !(w1.fab.island i).safe then w1.clusterReset i else w1

/-- The effect of a write whose busy rule and range are met: its status and what it leaves. `v` is the value and `b` its bytes.
DEDUCED (log 87). -/
def W.entryWrite (w : W) (i s v : Nat) (b : List Byte) : Nat × W :=
  let f := w.fab
  let p := s - 1
  let store := (rinayOk, { w with fab := f.dset i s v })
  match i with
  | 0x2040 => if s = 2 then (w.powerRequest v).ok else store
  | 0x2050 => if s = 2 then (if v = 1 then w.warmCommand else w).ok else store
  | 0x2051 => (if v = 1 then w.resetPartition p else w).ok
  | 0x2052 => (w.clusterReset v).ok
  | 0x2100 =>
    if s = 3 then (w.switchClock (f.dget 0x2100 1) (v == 1)).ok
    else if s = 0x40 then (rinayOk, { w with fab := (if v = 0 then f.dropStandby else f).dset i s v })
    else store
  | 0x5003 =>
    let g := if v = 1 then (if f.dget 0x5003 s = 1 then f else f.enablePort p) else if f.dget 0x5003 s = 0 then f else f.disablePort p
    w.withFab (rinayOk, g)
  | 0x5008 => w.withFab (f.macsecWrite s v)
  | 0x9001 => if s = 5 then w.withFab (rinayOk, f.releaseLog v) else store
  | 0x9061 => if s = 2 then w.withFab (rinayOk, f.writeMember b) else store
  | 0x9105 => w.withFab (rinayOk, f.beginRestore p v)
  | 0x9200 => if s = 3 then (if v = 1 then w.withFab f.ewsResume else w.ok) else store
  | 0x5030 => if s = 2 ∧ v = 0 then (rinayOk, { w with fab := (f.dset i s v).dset 0x5030 4 0 }) else store
  | 0xA001 => if s = 1 then w.versionRaise v else if s = 2 then w.revokeKey v else w.disableDebug v
  | 0xA010 => w.managementKeyWrite v
  | 0xA110 => w.keyWrite p b
  | 0xA120 => w.keyWrite 16 b
  | 0xA200 => w.attestRequest p b
  | 0xA201 => w.attestRequest 16 b
  | 0xB000 => if s = 1 then w.withFab (f.setStrict v) else store
  | 0xB002 => if v = 1 then w.startPartition p else w.withFab (f.stopPartition p)
  | _ =>
    if 0xB100 ≤ i ∧ i ≤ 0xB140 then
      let x := w.mapWrite i s v
      (x.1, if x.1 = rinayOk then x.2.map (fun g => g.retryMigrations) else x.2)
    else store

/-- A whole value written (R406, R419): BUSY, RANGE, or its effect; a clock switch refused shows its reason (R455), and the first
management key comes by no other way than R482 gives. The write wakes the device from P1 (R460). -/
def W.applyWrite (w : W) (rq : Requester) (d : Desc) (i s : Nat) (b : List Byte) : Nat × W :=
  let v := beNat b
  let w1 := w.map (fun f => if f.dget 0x2040 1 = 1 then f.dset 0x2040 1 0 else f)
  if i = 0xA010 ∧ w.keyShut rq then (rinayNoRight, w1)
  else if w1.entryBusy d i s v then
    (rinayBusy, if i = 0x2100 then w1.map (fun f => (f.clockRequest (f.dget 0x2100 1) (v == 1)).2) else w1)
  else if w1.fab.rangeBad d i s v b then (rinayRange, w1)
  else w1.entryWrite i s v b

/-! ### Responses -/

/-- A frame of a response (R411). -/
def responseFrame (fr : Frame) (status type : Nat) (last : Bool) (payload : List Byte) : Frame :=
  { version := 1, kind := 3, status := status, requestId := fr.requestId, index := fr.index, subindex := fr.subindex,
    device := fr.device, reply := fr.reply, offset := fr.offset, length := payload.length, last := last, type := type,
    sequence := fr.sequence, payload := payload }

/-- The response to a request goes out by its transport and is counted: in a UDP packet from the address and by the port the request
came to, tagged under the key it was checked under, or under the operator's channel (R373, R411, R413 to R416, R422, R482).
DESIGN CHOICE (log 85). -/
def Fab.respond (f : Fab) (rq : Requester) (fr : Frame) (key : Option Nat) (status type : Nat) (last : Bool) (payload : List Byte) :
    Fab :=
  let f1 := if status = rinayOk then f.dadd 0x1101 1 1 else f.dadd 0x1101 2 1
  let g := responseFrame fr status type last payload
  let r : Response :=
    { dest := rq, status := status, index := fr.index, subindex := fr.subindex, device := fr.device, type := type,
      offset := fr.offset, last := last, payload := payload, sequence := fr.sequence }
  let way := rq.path
  match rq.transport with
  | .management => f1.emit (.rinayReply none rq.source way.udpPort g (frameTag (key.getD 0) way.own g))
  | .inBand | .cascade =>
    f1.emit (.rinayReply (some (f1.dressAt (way.port / 4) (some way.port) 16 rq.source 0 way.udpPort)) rq.source way.udpPort g 0)
  | .mailbox p fn =>
    if fn = 0xFE then { f1 with agent := { f1.agent with given := f1.agent.given ++ [r] } }
    else ({ f1 with agent := { f1.agent with responses := f1.agent.responses ++ [r] } }).sendResponse p rq.reply
  | _ => { f1 with agent := { f1.agent with given := f1.agent.given ++ [r] } }

/-- Responses that the agent holds for a reply mailbox (R416). -/
def Fab.heldFor (f : Fab) (p m : Nat) : Nat :=
  (f.agent.responses.filter (fun r => match r.dest.transport with
    | .mailbox q fn => q == p && fn != 0xFE && r.dest.reply == m
    | _ => false)).length

/-- The request is taken: its reply mailbox is one its requester may name and has room (R415, R416). DEDUCED (log 84). -/
def Fab.admits (f : Fab) (rq : Requester) : Bool :=
  match rq.transport with
  | .mailbox p fn =>
    fn == 0xFE ||
      ((if fn = 0 then Nat.ble 2 rq.reply && Nat.ble rq.reply 63 && f.receiver p rq.reply == .pf else rq.reply == 1) &&
        Nat.blt (f.heldFor p rq.reply) 4)
  | _ => true

/-- A frame dropped and counted. -/
def Fab.dropFrame (f : Fab) : Fab := f.dadd 0x1101 3 1

/-! ### Requests in frames -/

/-- BAD_FRAME (R410, R415): a reserved field, Version, Kind or Length, or a payload that does not match. DEDUCED (log 84). -/
def badFrame (rq : Requester) (fr : Frame) (kind : Nat) : Bool :=
  let mgmt := rq.transport == .management
  let mail := match rq.transport with | .mailbox _ _ => true | _ => false
  fr.version != 1 || fr.kind != kind || fr.status != 0 || Nat.blt 48 fr.length || Nat.blt fr.payload.length fr.length ||
    !(fr.payload.drop fr.length).all (· == 0) || (!mgmt && fr.sequence != 0) || (!mail && fr.reply != 0) ||
    (kind == 1 && fr.length != 0)

/-- What the front of the agent makes of a request. -/
inductive Front
  | forward (member : Nat)
  | refuse (status type : Nat)
  | pass (d : Desc)
  deriving DecidableEq, Repr

/-- A request forwarded to member k, and answered through the master: what the member answers is a free value (R420); the owners of
granules that the master writes there are noted (R380, R381). DEDUCED (log 71). DESIGN CHOICE (log 26). -/
def Fab.forwardTo (f : Fab) (k : Nat) (rq : Requester) (fr : Frame) (key : Option Nat) : Fab :=
  let g := f.emit (.rinayForward k fr)
  let g1 := if fr.kind = 2 ∧ fr.index = 0xB102 ∧ 1 ≤ fr.subindex ∧ fr.subindex ≤ 62 ∧ fr.offset = 0 then
      { g with memberOwners := g.memberOwners.set (64 * k + fr.subindex) (octet fr.payload 0) }
    else g
  let x := Config.memberAnswer g1.agent.forwards
  { g1 with agent := { g1.agent with forwards := g1.agent.forwards + 1 } }.respond rq fr key x.1 x.2.1 x.2.2.1 (x.2.2.2.take 48)

/-- Type code of an entry, 0 where there is none. -/
def entryCode (i s : Nat) : Nat := ((Dict.entry i s).map (fun d => d.ty.code)).getD 0

/-- BAD_FRAME, UNREACHABLE, then the checks of the entry and of the Type field (R405, R410, R419, R420): a request for another package
is forwarded by a cascade's master, and served by the member it was forwarded to. DESIGN CHOICE (log 26). -/
def Fab.front (f : Fab) (rq : Requester) (fr : Frame) (kind : Nat) : Front :=
  let code := entryCode fr.index fr.subindex
  if badFrame rq fr kind then .refuse rinayBadFrame code
  else if fr.device ≠ 0 ∧ !(rq.transport == .cascade && fr.device == f.eff 0x5050 2) then
    if f.inCascade && f.eff 0x5050 2 == 0 && Nat.blt fr.device (f.eff 0x5050 1) && bit (f.dget 0x5050 3) fr.device then
      .forward fr.device
    else .refuse rinayUnreachable code
  else match f.entryAccess rq fr.index fr.subindex (kind == 2) with
    | .error st => .refuse st code
    | .ok d => if fr.type ≠ 0 ∧ fr.type ≠ d.ty.code then .refuse rinayTypeMismatch d.ty.code else .pass d

/-- What tells requesters apart (R412): the stamp on the mailbox transport, the source address on those that have one; the TAP and the
firmware are one each. -/
def requesterKey (rq : Requester) : Nat :=
  match rq.transport with
  | .mailbox _ _ => 4 * rq.source
  | .management | .inBand | .cascade => 4 * rq.source + 1
  | .jtag => 2
  | .internal => 3

/-- A snapshot or staged value of another entry of the same requester is discarded (R412). -/
def keepEntry (l : List (Nat × Nat × Nat × List Byte)) (src i s : Nat) : List (Nat × Nat × Nat × List Byte) :=
  l.filter (fun x => x.1 != src || (x.2.1 == i && x.2.2.1 == s))

/-- What a requester holds for another entry is discarded. -/
def Agent.narrow (a : Agent) (src i s : Nat) : Agent :=
  { a with snapshots := keepEntry a.snapshots src i s, staged := keepEntry a.staged src i s }

/-- The list without what a requester holds. -/
def without (l : List (Nat × Nat × Nat × List Byte)) (src : Nat) : List (Nat × Nat × Nat × List Byte) :=
  l.filter (fun x => x.1 != src)

/-- The bytes a requester holds. -/
def heldBytes (l : List (Nat × Nat × Nat × List Byte)) (src : Nat) : Option (List Byte) :=
  (l.find? (fun x => x.1 == src)).map (fun x => x.2.2.2)

/-- A read that its right and entry allow (R412): a value of up to 48 bytes, or a segment of the snapshot. -/
def W.readValue (w : W) (rq : Requester) (fr : Frame) (d : Desc) : Fab :=
  let f := w.fab
  let n := d.ty.width
  let o := fr.offset
  let bytes := w.entryBytes d fr.index fr.subindex
  let answer := fun (g : Fab) (b : List Byte) =>
    g.respond rq fr w.sec.managementKey rinayOk d.ty.code (Nat.ble n (o + 48)) ((b.drop o).take 48)
  let refuse := f.respond rq fr w.sec.managementKey rinayOffset d.ty.code false []
  if n ≤ 48 then (if o = 0 then answer f bytes else refuse)
  else if o = 0 then
    answer { f with agent := { f.agent with
      snapshots := without f.agent.snapshots (requesterKey rq) ++ [(requesterKey rq, fr.index, fr.subindex, bytes)] } } bytes
  else match heldBytes f.agent.snapshots (requesterKey rq) with
    | some b => if n ≤ o then refuse else answer f b
    | none => refuse

/-- The dictionary service of a request's function runs (R425, R456). -/
def Fab.serves? (f : Fab) (rq : Requester) : Bool :=
  match rq.transport with
  | .mailbox _ fn => if fn = 0xFE then !f.halts 944 else f.served fn
  | _ => !f.halts 944

/-- The request at the head of the agent's queue, if it is the one named (R417), with the rest of the queue. -/
def Fab.takeRequest (f : Fab) (rq : Requester) (fr : Frame) : Option Fab :=
  if !f.serves? rq then none else
  match f.agent.queue with
  | x :: r => if x = (rq, fr) then some { f with agent := { f.agent with queue := r } } else none
  | [] => none

/-- RINAY_READ: the request at the head of the queue is a READ, or a frame of a reserved Kind. -/
def rinayRead (rq : Requester) (fr : Frame) (w : W) : Fab :=
  if fr.kind = 2 ∨ fr.kind = 3 ∨ fr.kind = 4 then w.fab else
  match w.fab.takeRequest rq fr with
  | none => w.fab
  | some f =>
    if !f.admits rq then f.dropFrame
    else
      let g := { f with agent := f.agent.narrow (requesterKey rq) fr.index fr.subindex }
      match g.front rq fr 1 with
      | .forward k => g.forwardTo k rq fr w.sec.managementKey
      | .refuse st ty => g.respond rq fr w.sec.managementKey st ty false []
      | .pass d => ({ w with fab := g } : W).readValue rq fr d

/-- RINAY_READ. -/
def execRinayRead (rq : Requester) (frame : Frame) (s : State) : Host.Outcome State Fault Refusal := onRead s (rinayRead rq frame)

/-- A write that its right and entry allow (R405, R412): the whole value, or the next segment, which is out of order before it has a
wrong length; the status, and the value once it is whole. DEDUCED (log 84). -/
def Agent.stage (a : Agent) (rq : Requester) (fr : Frame) (n : Nat) : Nat × Option (List Byte) × Agent :=
  let payload := fr.payload.take fr.length
  let clear := { a with staged := without a.staged (requesterKey rq) }
  if n ≤ 48 then
    if fr.length ≠ n then (rinayTypeMismatch, none, a)
    else if fr.offset ≠ 0 then (rinayOffset, none, a)
    else (rinayOk, some payload, a)
  else
    let so := (heldBytes a.staged (requesterKey rq)).getD []
    let all := so ++ payload
    if fr.offset ≠ so.length then (rinayOffset, none, clear)
    else if n < fr.offset + fr.length ∨ (!fr.last ∧ fr.length ≠ 48) ∨ (fr.last ∧ fr.offset + fr.length ≠ n) then
      (rinayTypeMismatch, none, clear)
    else if fr.last then (rinayOk, some all, clear)
    else (rinayOk, none, { clear with staged := clear.staged ++ [(requesterKey rq, fr.index, fr.subindex, all)] })

/-- RINAY_WRITE: the request at the head of the queue is a WRITE. -/
def rinayWrite (rq : Requester) (fr : Frame) (w : W) : W :=
  if fr.kind ≠ 2 then w else
  match w.fab.takeRequest rq fr with
  | none => w
  | some f =>
    if !f.admits rq then { w with fab := f.dropFrame }
    else
      let g := { f with agent := f.agent.narrow (requesterKey rq) fr.index fr.subindex }
      let answer := fun (x : W) (st ty : Nat) =>
        x.map (fun h => h.respond rq fr w.sec.managementKey st ty false [])
      match g.front rq fr 2 with
      | .forward k => { w with fab := g.forwardTo k rq fr w.sec.managementKey }
      | .refuse st ty => answer { w with fab := g } st ty
      | .pass d =>
        let r := g.agent.stage rq fr d.ty.width
        let x : W := { w with fab := { g with agent := r.2.2 } }
        match r.2.1 with
        | some b => let y := x.applyWrite rq d fr.index fr.subindex b; answer y.2 y.1 d.ty.code
        | none => answer x r.1 d.ty.code

/-- RINAY_WRITE. -/
def execRinayWrite (rq : Requester) (frame : Frame) (s : State) : Host.Outcome State Fault Refusal := onAll s (rinayWrite rq frame)

/-- RINAY_STRAY_FRAME (R410): a RESPONSE or NOTIFY at the head of the queue is dropped and counted. -/
def strayFrame (fr : Frame) (f : Fab) : Fab :=
  match f.agent.queue with
  | x :: r =>
    if x.2 = fr ∧ (fr.kind = 3 ∨ fr.kind = 4) then ({ f with agent := { f.agent with queue := r } }).dropFrame else f
  | [] => f

/-- RINAY_STRAY_FRAME. -/
def execRinayStrayFrame (frame : Frame) (s : State) : Host.Outcome State Fault Refusal := onFab s (strayFrame frame)

/-- A UDP frame that has arrived joins the queue, of at most 64 such frames (R417). DEDUCED (log 84). -/
def Fab.arrive (f : Fab) (rq : Requester) (fr : Frame) : Fab :=
  let udp := f.agent.queue.filter (fun x => [Transport.management, .inBand, .cascade].contains x.1.transport)
  if udp.length < 64 then { f with agent := { f.agent with queue := f.agent.queue ++ [(rq, fr)] } } else f.dropFrame

/-- The Sequence state after an acceptance from an address: 16 addresses, the oldest acceptance evicted (R413). -/
def replayAfter (l : List (Nat × Nat)) (src seq : Nat) : List (Nat × Nat) :=
  ((src, seq) :: l.filter (fun x => x.1 != src)).take 16

/-- MGMT_PORT_FRAME (R413, R422, R482): to the Rinay UDP port in force; the tag, then the Sequence, are checked, and the address it came
to is kept for its response. DEDUCED (log 84). -/
def mgmtFrame (x : MgmtAt) (fr : Frame) (tag : Nat) (w : W) : Fab :=
  let f := w.fab
  let src := x.source
  if x.udpPort ≠ f.eff 0x5020 2 then f
  else match w.sec.managementKey with
  | none => f.dadd 0x1101 4 1
  | some key =>
    if frameTag key src fr ≠ tag then f.dadd 0x1101 4 1
    else if f.agent.replay.any (fun x => x.1 == src && Nat.ble fr.sequence x.2) then f.dadd 0x1101 5 1
    else
      ({ f with agent := { f.agent with replay := replayAfter f.agent.replay src fr.sequence } }).arrive
        ⟨.management, src, fr.requestId, fr.reply, ⟨0, x.udpSource, w.managementAddress⟩⟩ fr

/-- MGMT_PORT_FRAME. -/
def execMgmtPortFrame (at_ : MgmtAt) (frame : Frame) (tag : Nat) (s : State) : Host.Outcome State Fault Refusal :=
  onRead s (mgmtFrame at_ frame tag)

/-- IN_BAND_RINAY_FRAME (R364, R369, R373, R414): an intact packet to the Rinay UDP port in force, under the operator secure channel, or
with MACsec mode 0 from the manager or the standby. What a cascade's member gets over the link to its master was forwarded to
it (R420). PRESUMED (log 86). DESIGN CHOICE (log 26). -/
def inBandFrame (src : Nat) (fr : Frame) (x : UdpAt) (secured : Option Secured) (f : Fab) : Fab :=
  let path : ReplyPath := ⟨x.port, x.udpSource, f.engineAddress (x.port / 4)⟩
  if !f.portUp x.port || !x.intact || x.udpPort != f.eff 0x5020 2 then f
  else if f.isMember && x.port == 28 then
    (if f.secureIn x.port secured then (f.received x.port secured).arrive ⟨.cascade, src, fr.requestId, fr.reply, path⟩ fr
      else f.dadd 0x5021 2 1)
  else if f.secureIn x.port secured && (match secured with | some y => y.channel == 16 | none => f.managers.contains src) then
    (f.received x.port secured).arrive ⟨.inBand, src, fr.requestId, fr.reply, path⟩ fr
  else f.dadd 0x5021 2 1

/-- IN_BAND_RINAY_FRAME. -/
def execInBandRinayFrame (source : Nat) (frame : Frame) (at_ : UdpAt) (secured : Option Secured) (s : State) :
    Host.Outcome State Fault Refusal := onFab s (inBandFrame source frame at_ secured)

/-- A request joins the agent's queue (R417). DESIGN CHOICE (log 85). -/
def Fab.enqueue (f : Fab) (rq : Requester) (frames : List Frame) : Fab :=
  { f with agent := { f.agent with queue := f.agent.queue ++ frames.map (fun fr => (rq, fr)) } }

/-- JTAG_DICTIONARY_ACCESS (R407, R417, R493): an access with Debug right, while the debug fuse is intact; the TAP leaves its reset
state. It is applied at once where no request came before it, and else in its turn. DESIGN CHOICE (log 85).
DESIGN CHOICE (log 92). -/
def jtagAccess (fr : Frame) (w : W) : W :=
  if w.sec.fuses.debugDisable then w
  else
    let rq : Requester := ⟨.jtag, 0, fr.requestId, fr.reply, .none⟩
    let g := w.fab.enqueue rq [fr]
    let w1 : W := { w with fab := g, sec := { w.sec with tapReset := false } }
    if !w.fab.agent.queue.isEmpty then w1
    else if fr.kind = 2 then rinayWrite rq fr w1
    else if fr.kind = 3 ∨ fr.kind = 4 then { w1 with fab := strayFrame fr g }
    else { w1 with fab := rinayRead rq fr w1 }

/-- JTAG_DICTIONARY_ACCESS. -/
def execJtagDictionaryAccess (frame : Frame) (s : State) : Host.Outcome State Fault Refusal := onAll s (jtagAccess frame)

/-! ### A cycle in which no command waits -/

/-- An idle cycle: the subscribers are sent a record each, once there is a key to tag it under (R413, R430).
DESIGN CHOICE (logs 2, 16). -/
def W.idle (w : W) : Fab :=
  let f := { w.fab with cycle := w.fab.cycle + 1 }
  match w.sec.managementKey with
  | some key => if f.phase = .running then (List.range 8).foldl (Fab.notifySubscriber key w.managementAddress) f else f
  | none => f

/-! ### Commands that are writes -/

/-- The request of a command that is a write, as its response echoes it: segment k of its value, or the whole of it (R412). -/
def commandFrame (rq : Requester) (i s : Nat) (b : List Byte) (k : Nat) : Frame :=
  let part := (b.drop (48 * k)).take 48
  { version := 1, kind := 2, status := 0, requestId := rq.requestId, index := i, subindex := s, device := 0, reply := rq.reply,
    offset := 48 * k, length := part.length, last := Nat.ble b.length (48 * k + 48), type := 0, sequence := 0, payload := part }

/-- The WRITE frames of a whole value. -/
def commandFrames (rq : Requester) (i s : Nat) (b : List Byte) : List Frame :=
  (List.range ((b.length - 1) / 48 + 1)).map (commandFrame rq i s b)

/-- A command's request would reach the agent (R407, R413): over the TAP while the debug fuse is intact, over the management port with a
valid tag, and so with a key installed. DESIGN CHOICE (log 85). -/
def W.reachesAgent (w : W) (rq : Requester) : Bool :=
  match rq.transport with
  | .jtag => !w.sec.fuses.debugDisable
  | .management => w.sec.managementKey.isSome
  | _ => true

/-- A whole value written by a request (R406, R411, R417, R419): applied at once where no request came before it and the agent serves it,
and else in its turn. DESIGN CHOICE (log 85). -/
def W.command (w : W) (rq : Requester) (i s : Nat) (b : List Byte) : W :=
  let fr := commandFrame rq i s [] 0
  let answer := fun (x : W) (st ty : Nat) =>
    x.map (fun h => h.respond rq fr w.sec.managementKey st ty false [])
  if !w.reachesAgent rq then (if rq.transport = .management then w.map (fun f => f.dadd 0x1101 4 1) else w)
  else if !w.fab.agent.queue.isEmpty || !w.fab.serves? rq then w.map (fun f => f.enqueue rq (commandFrames rq i s b))
  else if !w.fab.admits rq then w.map (fun f => f.dropFrame)
  else
    let g := w.map (fun f => { f with agent := f.agent.narrow (requesterKey rq) i s })
    match g.fab.entryAccess rq i s true with
    | .error st => answer g st (entryCode i s)
    | .ok d =>
      if b.length ≠ d.ty.width then answer g rinayTypeMismatch d.ty.code
      else let y := g.applyWrite rq d i s b; answer y.2 y.1 d.ty.code

/-- A number as the value of an entry's type; one that does not fit gives a value of another width. -/
def valueBytes (i s v : Nat) : List Byte :=
  match Dict.entry i s with
  | some d => if v < 2 ^ (8 * d.ty.width) then beBytes d.ty.width v else []
  | none => []

/-- A number written. -/
def W.commandNat (w : W) (rq : Requester) (i s v : Nat) : W := w.command rq i s (valueBytes i s v)

/-- DICTIONARY_WRITE (R406). -/
def execDictionaryWrite (rq : Requester) (index sub value : Nat) (s : State) : Host.Outcome State Fault Refusal :=
  onAll s (fun w => w.commandNat rq index sub value)

/-- PORT_MODE_WRITE (R357). -/
def execPortModeWrite (rq : Requester) (engine value : Nat) (s : State) : Host.Outcome State Fault Refusal :=
  onAll s (fun w => w.commandNat rq 0x5001 (engine + 1) value)

/-- PORT_ENABLE_WRITE (R357). -/
def execPortEnableWrite (rq : Requester) (port value : Nat) (s : State) : Host.Outcome State Fault Refusal :=
  onAll s (fun w => w.commandNat rq 0x5003 (port + 1) value)

/-- EVENT_LOG_RELEASE (R430). -/
def execEventLogRelease (rq : Requester) (n : Nat) (s : State) : Host.Outcome State Fault Refusal :=
  onAll s (fun w => w.commandNat rq 0x9001 5 n)

/-- NOIVOS_FULL_RESTORE_LOCAL (R441). -/
def execNoivosFullRestoreLocal (rq : Requester) (p : Nat) (s : State) : Host.Outcome State Fault Refusal :=
  onAll s (fun w => w.commandNat rq 0x9105 (p + 1) 1)

/-- NOIVOS_DELTA_RESTORE_LOCAL (R441). -/
def execNoivosDeltaRestoreLocal (rq : Requester) (p : Nat) (s : State) : Host.Outcome State Fault Refusal :=
  onAll s (fun w => w.commandNat rq 0x9105 (p + 1) 2)

/-- NOIVOS_FULL_RESTORE_REMOTE (R441). -/
def execNoivosFullRestoreRemote (rq : Requester) (p : Nat) (s : State) : Host.Outcome State Fault Refusal :=
  onAll s (fun w => w.commandNat rq 0x9105 (p + 1) 3)

/-- NOIVOS_DELTA_RESTORE_REMOTE (R441). -/
def execNoivosDeltaRestoreRemote (rq : Requester) (p : Nat) (s : State) : Host.Outcome State Fault Refusal :=
  onAll s (fun w => w.commandNat rq 0x9105 (p + 1) 4)

/-- EWS_RESUME (R443), with the level of EWS_N. -/
def execEwsResume (rq : Requester) (pinHigh : Bool) (s : State) : Host.Outcome State Fault Refusal :=
  onAll s (fun w => (w.map (fun f => { f with inPins := { f.inPins with ewsHigh := pinHigh } })).commandNat rq 0x9200 3 1)

/-- POWER_STATE_REQUEST_S1 (R461). -/
def execPowerStateRequestS1 (rq : Requester) (s : State) : Host.Outcome State Fault Refusal :=
  onAll s (fun w => w.commandNat rq 0x2040 2 2)

/-- POWER_STATE_REQUEST_P0 (R461). -/
def execPowerStateRequestP0 (rq : Requester) (s : State) : Host.Outcome State Fault Refusal :=
  onAll s (fun w => w.commandNat rq 0x2040 2 0)

/-- CLOCK_SOURCE_REQUEST_A (R455). -/
def execClockSourceRequestA (rq : Requester) (s : State) : Host.Outcome State Fault Refusal :=
  onAll s (fun w => w.commandNat rq 0x2100 3 0)

/-- CLOCK_SOURCE_REQUEST_B (R455). -/
def execClockSourceRequestB (rq : Requester) (s : State) : Host.Outcome State Fault Refusal :=
  onAll s (fun w => w.commandNat rq 0x2100 3 1)

/-- WARM_RESET (R464). -/
def execWarmReset (rq : Requester) (s : State) : Host.Outcome State Fault Refusal :=
  onAll s (fun w => w.commandNat rq 0x2050 2 1)

/-- PARTITION_RESET (R465). -/
def execPartitionReset (rq : Requester) (p : Nat) (s : State) : Host.Outcome State Fault Refusal :=
  onAll s (fun w => w.commandNat rq 0x2051 (p + 1) 1)

/-- CLUSTER_RESET (R466). -/
def execClusterReset (rq : Requester) (c : Nat) (s : State) : Host.Outcome State Fault Refusal :=
  onAll s (fun w => w.commandNat rq 0x2052 1 c)

/-- PARTITION_START (R473). -/
def execPartitionStart (rq : Requester) (p : Nat) (s : State) : Host.Outcome State Fault Refusal :=
  onAll s (fun w => w.commandNat rq 0xB002 (p + 1) 1)

/-- PARTITION_STOP (R474). -/
def execPartitionStop (rq : Requester) (p : Nat) (s : State) : Host.Outcome State Fault Refusal :=
  onAll s (fun w => w.commandNat rq 0xB002 (p + 1) 0)

/-- PARTITION_MAP_WRITE (R471): of an entry of the partition map. -/
def execPartitionMapWrite (rq : Requester) (index sub value : Nat) (s : State) : Host.Outcome State Fault Refusal :=
  onAll s (fun w => if 0xB100 ≤ index ∧ index ≤ 0xB140 then w.commandNat rq index sub value else w)

/-- STRICT_ISOLATION_WRITE (R477). -/
def execStrictIsolationWrite (rq : Requester) (value : Nat) (s : State) : Host.Outcome State Fault Refusal :=
  onAll s (fun w => w.commandNat rq 0xB000 1 value)

/-- MACSEC_MODE_WRITE (R478). -/
def execMacsecModeWrite (rq : Requester) (port value : Nat) (s : State) : Host.Outcome State Fault Refusal :=
  onAll s (fun w => w.commandNat rq 0x5008 (port + 1) value)

/-- MACSEC_KEY_INSTALL (R481): a record with action 1. -/
def execMacsecKeyInstall (rq : Requester) (p : Nat) (record : List Byte) (s : State) : Host.Outcome State Fault Refusal :=
  onAll s (fun w => if octet record 3 = 1 then w.command rq 0xA110 (p + 1) record else w)

/-- MACSEC_KEY_DELETE (R481): a record with action 2. -/
def execMacsecKeyDelete (rq : Requester) (p : Nat) (record : List Byte) (s : State) : Host.Outcome State Fault Refusal :=
  onAll s (fun w => if octet record 3 = 2 then w.command rq 0xA110 (p + 1) record else w)

/-- OPERATOR_MACSEC_KEY_INSTALL (R481). -/
def execOperatorMacsecKeyInstall (rq : Requester) (record : List Byte) (s : State) : Host.Outcome State Fault Refusal :=
  onAll s (fun w => if octet record 3 = 1 then w.command rq 0xA120 1 record else w)

/-- OPERATOR_MACSEC_KEY_DELETE (R481). -/
def execOperatorMacsecKeyDelete (rq : Requester) (record : List Byte) (s : State) : Host.Outcome State Fault Refusal :=
  onAll s (fun w => if octet record 3 = 2 then w.command rq 0xA120 1 record else w)

/-- MANAGEMENT_KEY (R482). -/
def execManagementKey (rq : Requester) (key : BitVec 256) (s : State) : Host.Outcome State Fault Refusal :=
  onAll s (fun w => w.command rq 0xA010 1 (beBytes 32 key.toNat))

/-- ATTESTATION_REQUEST (R489). -/
def execAttestationRequest (rq : Requester) (p : Nat) (record : List Byte) (s : State) : Host.Outcome State Fault Refusal :=
  onAll s (fun w => w.command rq 0xA200 (p + 1) record)

/-- DEVICE_ATTESTATION_REQUEST (R489). -/
def execDeviceAttestationRequest (rq : Requester) (record : List Byte) (s : State) : Host.Outcome State Fault Refusal :=
  onAll s (fun w => w.command rq 0xA201 1 record)

/-- SECURITY_VERSION_RAISE (R492). -/
def execSecurityVersionRaise (rq : Requester) (v : Nat) (s : State) : Host.Outcome State Fault Refusal :=
  onAll s (fun w => w.commandNat rq 0xA001 1 v)

/-- KEY_REVOKE (R492). -/
def execKeyRevoke (rq : Requester) (slot : Nat) (s : State) : Host.Outcome State Fault Refusal :=
  onAll s (fun w => w.commandNat rq 0xA001 2 slot)

/-- DEBUG_DISABLE (R493). -/
def execDebugDisable (rq : Requester) (value : Nat) (s : State) : Host.Outcome State Fault Refusal :=
  onAll s (fun w => w.commandNat rq 0xA001 3 value)

end Sys2Proof.Machine
end

