-- ==== Sys2Proof/Machine/Scalar.lean ====
section
/-! DEFINITION. System, scalar, predicate, address, handle, branch and counter instructions (R142 to R147). -/

namespace Sys2Proof.Machine

open Sys2Proof

/-! ### System instructions (R142) -/

/-- NOP: nothing but its issue cycle. -/
def execNop (x : Issue) (s : State) : Host.Outcome State Fault Refusal :=
  onFab s (fun f => f.issueScalar x 0x00 id)

/-- END: the strand becomes Ended, and a launch with nothing more to do leaves the cluster (R99, R100). -/
def execEndStrand (x : Issue) (s : State) : Host.Outcome State Fault Refusal :=
  onFab s (fun f => f.issue x 0x01 (fun f =>
    (f.onStrand x.cluster x.strand (fun t => { t with st := .ended })).ends x.cluster))

/-- ERET: ILLEGAL outside Trapped; back to Running at EPC + 1, or EPC if p7 (R125, R136). -/
def execEret (x : Issue) (s : State) : Host.Outcome State Fault Refusal :=
  onFab s (fun f => f.issue x 0x02 (fun f =>
    f.onStrand x.cluster x.strand (fun t => t.eret f.cycle)))

/-- BRK: BREAK with EINFO the immediate, the precise exception of this row (`Fab.precise`). -/
def execBrk (x : Issue) (s : State) : Host.Outcome State Fault Refusal :=
  onFab s (fun f => f.issue x 0x03 id)

/-- The value of a system register (Table "System registers", R106). -/
def Fab.sysReg (f : Fab) (c k n : Nat) : Word :=
  let cl := f.cluster c
  let t := cl.strand k
  match n with
  | 0x00 => BitVec.ofNat 64 k
  | 0x01 => BitVec.ofNat 64 c
  | 0x02 => BitVec.ofNat 64 (f.partitionOf c)
  | 0x03 => BitVec.ofNat 64 cl.pwidth
  | 0x04 => BitVec.ofNat 64 cl.launch
  | 0x05 => BitVec.ofNat 64 (f.cycle - cl.startCycle)
  | 0x06 => BitVec.ofNat 64 f.now
  | 0x07 => t.flags.setWidth 64
  | 0x08 => t.flagTrap.setWidth 64
  | 0x09 => t.tvec.setWidth 64
  | 0x0A => t.epc.setWidth 64
  | 0x0B => t.cause.setWidth 64
  | 0x0C => t.einfo
  | 0x0D => t.waitLimit
  | _ => t.replays.setWidth 64

/-- SYSR: sd := system register imm[7:0]. -/
def execSysr (x : Issue) (s : State) : Host.Outcome State Fault Refusal :=
  onFab s (fun f => f.issue x 0x04 (fun f =>
    f.onStrand x.cluster x.strand (fun t => (t.setS (fRd x.word) (f.sysReg x.cluster x.strand (fImm x.word))).advance)))

/-- A write of an RW system register: its width from the low bits; bits [31:3] of FLAGS and FLAGTRAP discarded (R106). -/
def Strand.sysWrite (t : Strand) (n : Nat) (v : Word) : Strand :=
  match n with
  | 0x07 => { t with flags := v.setWidth 32 &&& 7 }
  | 0x08 => { t with flagTrap := v.setWidth 32 &&& 7 }
  | 0x09 => { t with tvec := v.setWidth 16 }
  | 0x0D => { t with waitLimit := v }
  | _ => t

/-- SYSW (R106, R108). -/
def execSysw (x : Issue) (s : State) : Host.Outcome State Fault Refusal :=
  onFab s (fun f => f.issueScalar x 0x05 (fun t => t.sysWrite (fImm x.word) (t.sreg (fRa x.word))))

/-- FENCE: not ready until every earlier memory operation of the strand has completed (R115). -/
def execFence (x : Issue) (s : State) : Host.Outcome State Fault Refusal :=
  onFab s (fun f => f.issueScalar x 0x06 id)

/-- The function of PLOG on two predicates. -/
def plogFn (fn : Nat) (a b : Bool) : Bool :=
  match fn with
  | 0 => a && b
  | 1 => a || b
  | 2 => a != b
  | _ => a && !b

/-- PLOG. -/
def execPlog (x : Issue) (s : State) : Host.Outcome State Fault Refusal :=
  onFab s (fun f => f.issueScalar x 0x07 (fun t =>
    t.setP (fRd x.word) (if fFn x.word = 4 then fld x.word 0 0 = 1
      else plogFn (fFn x.word) (t.preg (fRa x.word)) (t.preg (fRb x.word)))))

/-! ### Scalar instructions (R143, R144) -/

/-- sd := g(sa, b). -/
def Strand.alu (t : Strand) (w : Word) (g : Word → Word → Word) : Strand :=
  t.setS (fRd w) (g (t.sreg (fRa w)) (operandB w t))

/-- ADD: modulo 2^64. -/
def execAdd (x : Issue) (s : State) : Host.Outcome State Fault Refusal :=
  onFab s (fun f => f.issueScalar x 0x10 (fun t => t.alu x.word (· + ·)))

/-- SUB. -/
def execSub (x : Issue) (s : State) : Host.Outcome State Fault Refusal :=
  onFab s (fun f => f.issueScalar x 0x11 (fun t => t.alu x.word (· - ·)))

/-- MUL. -/
def execMul (x : Issue) (s : State) : Host.Outcome State Fault Refusal :=
  onFab s (fun f => f.issueScalar x 0x12 (fun t => t.alu x.word (· * ·)))

/-- AND. -/
def execAndr (x : Issue) (s : State) : Host.Outcome State Fault Refusal :=
  onFab s (fun f => f.issueScalar x 0x13 (fun t => t.alu x.word (· &&& ·)))

/-- OR. -/
def execOrr (x : Issue) (s : State) : Host.Outcome State Fault Refusal :=
  onFab s (fun f => f.issueScalar x 0x14 (fun t => t.alu x.word (· ||| ·)))

/-- XOR. -/
def execXorr (x : Issue) (s : State) : Host.Outcome State Fault Refusal :=
  onFab s (fun f => f.issueScalar x 0x15 (fun t => t.alu x.word (· ^^^ ·)))

/-- The shift count bits(b, 5, 0). -/
def shiftBy (b : Word) : Nat := bitsOf b.toNat 5 0

/-- SHL. -/
def execShl (x : Issue) (s : State) : Host.Outcome State Fault Refusal :=
  onFab s (fun f => f.issueScalar x 0x16 (fun t => t.alu x.word (fun a b => a <<< shiftBy b)))

/-- SHR. -/
def execShr (x : Issue) (s : State) : Host.Outcome State Fault Refusal :=
  onFab s (fun f => f.issueScalar x 0x17 (fun t => t.alu x.word (fun a b => a >>> shiftBy b)))

/-- ASR. -/
def execAsr (x : Issue) (s : State) : Host.Outcome State Fault Refusal :=
  onFab s (fun f => f.issueScalar x 0x18 (fun t => t.alu x.word (fun a b => a.sshiftRight (shiftBy b))))

/-- MIN: signed. -/
def execMinS (x : Issue) (s : State) : Host.Outcome State Fault Refusal :=
  onFab s (fun f => f.issueScalar x 0x19 (fun t => t.alu x.word (fun a b => if b.slt a then b else a)))

/-- MAX: signed. -/
def execMaxS (x : Issue) (s : State) : Host.Outcome State Fault Refusal :=
  onFab s (fun f => f.issueScalar x 0x1A (fun t => t.alu x.word (fun a b => if a.slt b then b else a)))

/-- LI: sd := sign-extended immediate. -/
def execLi (x : Issue) (s : State) : Host.Outcome State Fault Refusal :=
  onFab s (fun f => f.issueScalar x 0x1B (fun t => t.setS (fRd x.word) (immWord x.word)))

/-- LIH: sd[63:32] := imm, the low half unchanged. -/
def execLih (x : Issue) (s : State) : Host.Outcome State Fault Refusal :=
  onFab s (fun f => f.issueScalar x 0x1C (fun t =>
    t.setS (fRd x.word) (BitVec.ofNat 32 (fImm x.word) ++ (t.sreg (fRd x.word)).setWidth 32)))

/-- CMP: pd := cond(sa, b). -/
def execCmp (x : Issue) (s : State) : Host.Outcome State Fault Refusal :=
  onFab s (fun f => f.issueScalar x 0x1D (fun t =>
    t.setP (fRd x.word) (condition (fFn x.word) (t.sreg (fRa x.word)) (operandB x.word t))))

/-- The FP32 operand b: the immediate's pattern when I = 1, else s[rb][31:0] (R144). DEDUCED (log 27). -/
def operandF (w : Word) (t : Strand) : W32 :=
  if fI w then BitVec.ofNat 32 (fImm w) else (t.sreg (fRb w)).setWidth 32

/-- An FP32 function of Table "FP32 functions": the value of sd and the flags (R144). DEDUCED (log 27). -/
def fopFn (fn : Nat) (a : Word) (b : W32) : Word × Raise :=
  let x := a.setWidth 32
  let z := fun (r : W32 × Raise) => (r.1.setWidth 64, r.2)
  match fn with
  | 0 => z (fpAdd x b)
  | 1 => z (fpSub x b)
  | 2 => z (fpMul x b)
  | 3 => z (fpMin x b)
  | 4 => z (fpMax x b)
  | 5 => fpToInt x
  | _ => ((intToFp a).setWidth 64, .none)

/-- FOP: the result in sd, and its flags raised (R108, R144). -/
def execFop (x : Issue) (s : State) : Host.Outcome State Fault Refusal :=
  onFab s (fun f => f.issue x 0x1E (fun f =>
    let t := f.strand x.cluster x.strand
    let r := fopFn (fFn x.word) (t.sreg (fRa x.word)) (operandF x.word t)
    (f.onStrand x.cluster x.strand (fun t => (t.setS (fRd x.word) r.1).advance)).raiseFlags x.cluster x.strand t.pc r.2))

/-- FP32 compare (R144): false with a NaN but for ne. -/
def fcmpFn (c : Nat) (a b : W32) : Bool :=
  let x := fp32 a
  let y := fp32 b
  match c with
  | 0 => x.eqv y
  | 1 => !x.eqv y
  | 2 => x.lt y
  | _ => !x.isNaN && !y.isNaN && !x.lt y

/-- FCMP: no flag. -/
def execFcmp (x : Issue) (s : State) : Host.Outcome State Fault Refusal :=
  onFab s (fun f => f.issueScalar x 0x1F (fun t =>
    t.setP (fRd x.word) (fcmpFn (fFn x.word) ((t.sreg (fRa x.word)).setWidth 32) (operandF x.word t))))

/-! ### Address and handle instructions (R145) -/

/-- AADD: ad := aa + b modulo 2^64. -/
def execAadd (x : Issue) (s : State) : Host.Outcome State Fault Refusal :=
  onFab s (fun f => f.issueScalar x 0x20 (fun t => t.setA (fRd x.word) (t.areg (fRa x.word) + operandB x.word t)))

/-- AMOV: ad := sa. -/
def execAmov (x : Issue) (s : State) : Host.Outcome State Fault Refusal :=
  onFab s (fun f => f.issueScalar x 0x21 (fun t => t.setA (fRd x.word) (t.sreg (fRa x.word))))

/-- ATOS: sd := aa. -/
def execAtos (x : Issue) (s : State) : Host.Outcome State Fault Refusal :=
  onFab s (fun f => f.issueScalar x 0x22 (fun t => t.setS (fRd x.word) (t.areg (fRa x.word))))

/-- TSET: td := sa. -/
def execTset (x : Issue) (s : State) : Host.Outcome State Fault Refusal :=
  onFab s (fun f => f.issueScalar x 0x23 (fun t => t.setT (fRd x.word) (t.sreg (fRa x.word))))

/-- TGET: sd := ta. -/
def execTget (x : Issue) (s : State) : Host.Outcome State Fault Refusal :=
  onFab s (fun f => f.issueScalar x 0x24 (fun t => t.setS (fRd x.word) (t.treg (fRa x.word))))

/-! ### Branches (R146) -/

/-- The target field. -/
def fTarget (w : Word) : Nat := fld w 15 0

/-- BR. -/
def execBr (x : Issue) (s : State) : Host.Outcome State Fault Refusal :=
  onFab s (fun f => f.issue x 0x30 (fun f =>
    f.onStrand x.cluster x.strand (fun t => t.branch (fTarget x.word) f.cycle)))

/-- BCC. -/
def execBcc (x : Issue) (s : State) : Host.Outcome State Fault Refusal :=
  onFab s (fun f => f.issue x 0x31 (fun f =>
    f.onStrand x.cluster x.strand (fun t =>
      if condition (fFn x.word) (t.sreg (fRd x.word)) (t.sreg (fRa x.word)) then t.branch (fTarget x.word) f.cycle
      else t.advance)))

/-- BDEC: sa := sa - 1; taken unless it is then 0. -/
def execBdec (x : Issue) (s : State) : Host.Outcome State Fault Refusal :=
  onFab s (fun f => f.issue x 0x32 (fun f =>
    f.onStrand x.cluster x.strand (fun t =>
      let v := t.sreg (fRd x.word) - 1
      if v = 0 then (t.setS (fRd x.word) v).advance else (t.setS (fRd x.word) v).branch (fTarget x.word) f.cycle)))

/-- JAL: sd := pc + 1. -/
def execJal (x : Issue) (s : State) : Host.Outcome State Fault Refusal :=
  onFab s (fun f => f.issue x 0x33 (fun f =>
    f.onStrand x.cluster x.strand (fun t =>
      (t.setS (fRd x.word) (t.pc.setWidth 64 + 1)).branch (fTarget x.word) f.cycle)))

/-- JR: pc := sa[15:0]. -/
def execJr (x : Issue) (s : State) : Host.Outcome State Fault Refusal :=
  onFab s (fun f => f.issue x 0x34 (fun f =>
    f.onStrand x.cluster x.strand (fun t => t.branch (bitsOf (t.sreg (fRd x.word)).toNat 15 0) f.cycle)))

/-! ### Counters (R118, R119, R147) -/

/-- SIGNAL or SET with release semantics: the counter changes now, or when the strand's earlier writes have completed
(R119). -/
def Fab.signalOrWait (f : Fab) (x : Issue) (n : Option W32) (v : W32) : Fab :=
  let cl := f.cluster x.cluster
  let g := if cl.writesPending x.strand cl.nextOp then
      f.onCluster x.cluster (fun cl => cl.start x.strand (cl.strand x.strand).pc
        (.signal (fScope x.word) (fCtr x.word) n v) f (isBroad x.cluster))
    else f.applySignal x.cluster (fScope x.word) (fCtr x.word) n v
  g.onStrand x.cluster x.strand Strand.advance

/-- SIGNAL: adds n modulo 2^32. -/
def execSignal (x : Issue) (s : State) : Host.Outcome State Fault Refusal :=
  onFab s (fun f => f.issue x 0x40 (fun f => f.signalOrWait x (some (BitVec.ofNat 32 (fld x.word 15 0))) 0))

/-- SET: counter := sv[31:0]. -/
def execSetCounter (x : Issue) (s : State) : Host.Outcome State Fault Refusal :=
  onFab s (fun f => f.issue x 0x41 (fun f =>
    f.signalOrWait x none (((f.strand x.cluster x.strand).sreg (fRv x.word)).setWidth 32)))

/-- A strand that waits: Blocked from Running; a Trapped one waits in its handler (R99).
DEDUCED (log 17). -/
def Strand.block (t : Strand) (wt : WaitFor) (cycle : Nat) : Strand :=
  { t with st := if t.st == .running then .blocked else t.st, waiting := some (wt, cycle) }

/-- A strand whose wait is met goes on after the waiting instruction. DEDUCED (log 17). -/
def Strand.wake (t : Strand) : Strand :=
  { t.advance with st := if t.st == .blocked then .running else t.st, waiting := none }

/-- WAIT (R118, R147). -/
def execWait (x : Issue) (s : State) : Host.Outcome State Fault Refusal :=
  onFab s (fun f => f.issue x 0x42 (fun f =>
    let target := ((f.strand x.cluster x.strand).sreg (fRv x.word)).setWidth 32
    if counterMet (f.counter x.cluster (fScope x.word) (fCtr x.word)) target then
      f.onStrand x.cluster x.strand Strand.advance
    else f.onStrand x.cluster x.strand (fun t => t.block (.counter (fScope x.word) (fCtr x.word) target) f.cycle)))

/-- CREAD: sd := counter, zero-extended. DEDUCED (log 31). -/
def execCread (x : Issue) (s : State) : Host.Outcome State Fault Refusal :=
  onFab s (fun f => f.issue x 0x43 (fun f =>
    f.onStrand x.cluster x.strand (fun t =>
      (t.setS (fRv x.word) ((f.counter x.cluster (fScope x.word) (fCtr x.word)).setWidth 64)).advance)))

end Sys2Proof.Machine
end

