-- ==== Sys2Proof/Machine/Dispatch.lean ====
section
/-! DEFINITION. `exec`: one arm per command of the table, each one call of its meaning. -/

namespace Sys2Proof.Machine

open Sys2Proof

/-- A command's effect on everything but the queue. -/
def exec (i : Instr) (s : State) : Host.Outcome State Fault Refusal :=
  match i with
  | .nop x => Sys2Proof.Machine.execNop x s
  | .endStrand x => Sys2Proof.Machine.execEndStrand x s
  | .eret x => Sys2Proof.Machine.execEret x s
  | .brk x => Sys2Proof.Machine.execBrk x s
  | .sysr x => Sys2Proof.Machine.execSysr x s
  | .sysw x => Sys2Proof.Machine.execSysw x s
  | .fence x => Sys2Proof.Machine.execFence x s
  | .plog x => Sys2Proof.Machine.execPlog x s
  | .add x => Sys2Proof.Machine.execAdd x s
  | .sub x => Sys2Proof.Machine.execSub x s
  | .mul x => Sys2Proof.Machine.execMul x s
  | .andr x => Sys2Proof.Machine.execAndr x s
  | .orr x => Sys2Proof.Machine.execOrr x s
  | .xorr x => Sys2Proof.Machine.execXorr x s
  | .shl x => Sys2Proof.Machine.execShl x s
  | .shr x => Sys2Proof.Machine.execShr x s
  | .asr x => Sys2Proof.Machine.execAsr x s
  | .minS x => Sys2Proof.Machine.execMinS x s
  | .maxS x => Sys2Proof.Machine.execMaxS x s
  | .li x => Sys2Proof.Machine.execLi x s
  | .lih x => Sys2Proof.Machine.execLih x s
  | .cmp x => Sys2Proof.Machine.execCmp x s
  | .fop x => Sys2Proof.Machine.execFop x s
  | .fcmp x => Sys2Proof.Machine.execFcmp x s
  | .aadd x => Sys2Proof.Machine.execAadd x s
  | .amov x => Sys2Proof.Machine.execAmov x s
  | .atos x => Sys2Proof.Machine.execAtos x s
  | .tset x => Sys2Proof.Machine.execTset x s
  | .tget x => Sys2Proof.Machine.execTget x s
  | .br x => Sys2Proof.Machine.execBr x s
  | .bcc x => Sys2Proof.Machine.execBcc x s
  | .bdec x => Sys2Proof.Machine.execBdec x s
  | .jal x => Sys2Proof.Machine.execJal x s
  | .jr x => Sys2Proof.Machine.execJr x s
  | .signal x => Sys2Proof.Machine.execSignal x s
  | .setCounter x => Sys2Proof.Machine.execSetCounter x s
  | .wait x => Sys2Proof.Machine.execWait x s
  | .cread x => Sys2Proof.Machine.execCread x s
  | .wload x => Sys2Proof.Machine.execWload x s
  | .tmul x => Sys2Proof.Machine.execTmul x s
  | .drain x => Sys2Proof.Machine.execDrain x s
  | .aclr x => Sys2Proof.Machine.execAclr x s
  | .drainb x => Sys2Proof.Machine.execDrainb x s
  | .vop x => Sys2Proof.Machine.execVop x s
  | .bind x => Sys2Proof.Machine.execBind x s
  | .unbind x => Sys2Proof.Machine.execUnbind x s
  | .sin x => Sys2Proof.Machine.execSin x s
  | .sout x => Sys2Proof.Machine.execSout x s
  | .swait x => Sys2Proof.Machine.execSwait x s
  | .sarm x => Sys2Proof.Machine.execSarm x s
  | .scancel x => Sys2Proof.Machine.execScancel x s
  | .scred x => Sys2Proof.Machine.execScred x s
  | .ld x => Sys2Proof.Machine.execLd x s
  | .st x => Sys2Proof.Machine.execSt x s
  | .coll x => Sys2Proof.Machine.execColl x s
  | .sample x => Sys2Proof.Machine.execSample x s
  | .saccept x => Sys2Proof.Machine.execSaccept x s
  | .operationHoldRelease o => Sys2Proof.Machine.execOperationHoldRelease o s
  | .weightLoadComplete o => Sys2Proof.Machine.execWeightLoadComplete o s
  | .tileMultiplyComplete o bad => Sys2Proof.Machine.execTileMultiplyComplete o bad s
  | .drainComplete o => Sys2Proof.Machine.execDrainComplete o s
  | .drainbApplied o => Sys2Proof.Machine.execDrainbApplied o s
  | .vopComplete o => Sys2Proof.Machine.execVopComplete o s
  | .counterWake c k => Sys2Proof.Machine.execCounterWake c k s
  | .waitTimeout c k => Sys2Proof.Machine.execWaitTimeout c k s
  | .transferWaitTimeout o => Sys2Proof.Machine.execTransferWaitTimeout o s
  | .asyncExceptionTaken c k => Sys2Proof.Machine.execAsyncExceptionTaken c k s
  | .clusterTerminationDone c => Sys2Proof.Machine.execClusterTerminationDone c s
  | .terminationReport c => Sys2Proof.Machine.execTerminationReport c s
  | .launchAdmit p => Sys2Proof.Machine.execLaunchAdmit p s
  | .imageLoadComplete c => Sys2Proof.Machine.execImageLoadComplete c s
  | .launchEnd p launch => Sys2Proof.Machine.execLaunchEnd p launch s
  | .setupCommit e => Sys2Proof.Machine.execSetupCommit e s
  | .commitBankFreed scope => Sys2Proof.Machine.execCommitBankFreed scope s
  | .drainLimitExpiry scope => Sys2Proof.Machine.execDrainLimitExpiry scope s
  | .memoryTransaction id ecc => Sys2Proof.Machine.execMemoryTransaction id ecc s
  | .segmentBatchFetched r ecc => Sys2Proof.Machine.execSegmentBatchFetched r ecc s
  | .streamUnitLands r unit remote ecc => Sys2Proof.Machine.execStreamUnitLands r unit remote ecc s
  | .outWriteAccepted r => Sys2Proof.Machine.execOutWriteAccepted r s
  | .streamWindowReturn r => Sys2Proof.Machine.execStreamWindowReturn r s
  | .voidResponseDrop c => Sys2Proof.Machine.execVoidResponseDrop c s
  | .endpointDown r => Sys2Proof.Machine.execEndpointDown r s
  | .sqTailDoorbell p ring value => Sys2Proof.Machine.execSqTailDoorbell p ring value s
  | .submissionFetch p entry => Sys2Proof.Machine.execSubmissionFetch p entry s
  | .cqHeadDoorbell p value => Sys2Proof.Machine.execCqHeadDoorbell p value s
  | .completionWrite p => Sys2Proof.Machine.execCompletionWrite p s
  | .ringRegisterWrite p ring field value => Sys2Proof.Machine.execRingRegisterWrite p ring field value s
  | .hostWindowTableWrite p idx base length flags reserved => Sys2Proof.Machine.execHostWindowTableWrite p idx base length flags reserved s
  | .mailboxSend who p m message => Sys2Proof.Machine.execMailboxSend who p m message s
  | .mailboxRetract who p m => Sys2Proof.Machine.execMailboxRetract who p m s
  | .mailboxTake who p m => Sys2Proof.Machine.execMailboxTake who p m s
  | .functionLevelReset p => Sys2Proof.Machine.execFunctionLevelReset p s
  | .nopCommand e => Sys2Proof.Machine.execNopCommand e s
  | .launch e args clusters streams trees => Sys2Proof.Machine.execLaunch e args clusters streams trees s
  | .cancel e => Sys2Proof.Machine.execCancel e s
  | .batchAdmit e seqs => Sys2Proof.Machine.execBatchAdmit e seqs s
  | .batchEnd e => Sys2Proof.Machine.execBatchEnd e s
  | .counterSignal e => Sys2Proof.Machine.execCounterSignal e s
  | .counterSet e => Sys2Proof.Machine.execCounterSet e s
  | .counterRead e => Sys2Proof.Machine.execCounterRead e s
  | .setupWriteStream e source => Sys2Proof.Machine.execSetupWriteStream e source s
  | .setupWriteTree e source => Sys2Proof.Machine.execSetupWriteTree e source s
  | .setupWriteEndpoint e source => Sys2Proof.Machine.execSetupWriteEndpoint e source s
  | .setupWriteExport e source => Sys2Proof.Machine.execSetupWriteExport e source s
  | .seqOpen e => Sys2Proof.Machine.execSeqOpen e s
  | .seqClose e => Sys2Proof.Machine.execSeqClose e s
  | .folioAlloc e => Sys2Proof.Machine.execFolioAlloc e s
  | .folioMove e => Sys2Proof.Machine.execFolioMove e s
  | .folioPark e => Sys2Proof.Machine.execFolioPark e s
  | .folioUnpark e => Sys2Proof.Machine.execFolioUnpark e s
  | .folioFree e => Sys2Proof.Machine.execFolioFree e s
  | .folioMoveComplete p folio remote outcome => Sys2Proof.Machine.execFolioMoveComplete p folio remote outcome s
  | .folioExpiry p folio => Sys2Proof.Machine.execFolioExpiry p folio s
  | .samplerStart b => Sys2Proof.Machine.execSamplerStart b s
  | .samplerCommit b => Sys2Proof.Machine.execSamplerCommit b s
  | .stepOpen e => Sys2Proof.Machine.execStepOpen e s
  | .stepClose e => Sys2Proof.Machine.execStepClose e s
  | .waveOpen p => Sys2Proof.Machine.execWaveOpen p s
  | .fallbackAreasWritten p => Sys2Proof.Machine.execFallbackAreasWritten p s
  | .versionOpen e areas => Sys2Proof.Machine.execVersionOpen e areas s
  | .versionSwitch e => Sys2Proof.Machine.execVersionSwitch e s
  | .versionFree e => Sys2Proof.Machine.execVersionFree e s
  | .ductusJob e => Sys2Proof.Machine.execDuctusJob e s
  | .ductusJobStart b p => Sys2Proof.Machine.execDuctusJobStart b p s
  | .ductusTurn b remote => Sys2Proof.Machine.execDuctusTurn b remote s
  | .ductusJobComplete b p outcome => Sys2Proof.Machine.execDuctusJobComplete b p outcome s
  | .collectiveHoldRelease o => Sys2Proof.Machine.execCollectiveHoldRelease o s
  | .upMsg m pipe => Sys2Proof.Machine.execUpMsg m pipe s
  | .downMsg m => Sys2Proof.Machine.execDownMsg m s
  | .reissue m => Sys2Proof.Machine.execReissue m s
  | .agreeUp m => Sys2Proof.Machine.execAgreeUp m s
  | .agreeDown m => Sys2Proof.Machine.execAgreeDown m s
  | .dataMsg m => Sys2Proof.Machine.execDataMsg m s
  | .cut m => Sys2Proof.Machine.execCut m s
  | .pull m => Sys2Proof.Machine.execPull m s
  | .pullData m => Sys2Proof.Machine.execPullData m s
  | .notReady m => Sys2Proof.Machine.execNotReady m s
  | .notReadyRepeat id => Sys2Proof.Machine.execNotReadyRepeat id s
  | .abortMsg m => Sys2Proof.Machine.execAbortMsg m s
  | .collectiveComplete id => Sys2Proof.Machine.execCollectiveComplete id s
  | .kolasData k => Sys2Proof.Machine.execKolasData k s
  | .kolasAck k => Sys2Proof.Machine.execKolasAck k s
  | .kolasNak k => Sys2Proof.Machine.execKolasNak k s
  | .probe k => Sys2Proof.Machine.execProbe k s
  | .probeAck k => Sys2Proof.Machine.execProbeAck k s
  | .kolasResend f => Sys2Proof.Machine.execKolasResend f s
  | .ackTimer f => Sys2Proof.Machine.execAckTimer f s
  | .probeTimer f => Sys2Proof.Machine.execProbeTimer f s
  | .peerDown f => Sys2Proof.Machine.execPeerDown f s
  | .roceReadRequest r => Sys2Proof.Machine.execRoceReadRequest r s
  | .roceWriteRequest r bytes => Sys2Proof.Machine.execRoceWriteRequest r bytes s
  | .roceAckTimeout p idx => Sys2Proof.Machine.execRoceAckTimeout p idx s
  | .cnp at_ idx => Sys2Proof.Machine.execCnp at_ idx s
  | .neighbourSolicitation at_ target => Sys2Proof.Machine.execNeighbourSolicitation at_ target s
  | .echoRequest at_ target source => Sys2Proof.Machine.execEchoRequest at_ target source s
  | .ptpMessage at_ offset locked => Sys2Proof.Machine.execPtpMessage at_ offset locked s
  | .portLinkDown port => Sys2Proof.Machine.execPortLinkDown port s
  | .laneSignalLoss lane => Sys2Proof.Machine.execLaneSignalLoss lane s
  | .laneErrorWindow lane errors => Sys2Proof.Machine.execLaneErrorWindow lane errors s
  | .portFormed port => Sys2Proof.Machine.execPortFormed port s
  | .portFormFailed port => Sys2Proof.Machine.execPortFormFailed port s
  | .laserLowLight engine => Sys2Proof.Machine.execLaserLowLight engine s
  | .laserFault bank => Sys2Proof.Machine.execLaserFault bank s
  | .laserPresent identityRead => Sys2Proof.Machine.execLaserPresent identityRead s
  | .baseLinkCrcError link => Sys2Proof.Machine.execBaseLinkCrcError link s
  | .baseLinkReplayTimeout link => Sys2Proof.Machine.execBaseLinkReplayTimeout link s
  | .heartbeatTimer => Sys2Proof.Machine.execHeartbeatTimer s
  | .heartbeat m => Sys2Proof.Machine.execHeartbeat m s
  | .loss m => Sys2Proof.Machine.execLoss m s
  | .workerLossTimeout member => Sys2Proof.Machine.execWorkerLossTimeout member s
  | .stateMsg m => Sys2Proof.Machine.execStateMsg m s
  | .epochAck m => Sys2Proof.Machine.execEpochAck m s
  | .epochAckTimeout => Sys2Proof.Machine.execEpochAckTimeout s
  | .stateRepeat => Sys2Proof.Machine.execStateRepeat s
  | .epoch m => Sys2Proof.Machine.execEpoch m s
  | .assign m => Sys2Proof.Machine.execAssign m s
  | .managerTimeout => Sys2Proof.Machine.execManagerTimeout s
  | .cascadeLinkLoss k => Sys2Proof.Machine.execCascadeLinkLoss k s
  | .mgmtPortFrame at_ frame tag => Sys2Proof.Machine.execMgmtPortFrame at_ frame tag s
  | .rinayRead rq frame => Sys2Proof.Machine.execRinayRead rq frame s
  | .rinayWrite rq frame => Sys2Proof.Machine.execRinayWrite rq frame s
  | .rinayStrayFrame frame => Sys2Proof.Machine.execRinayStrayFrame frame s
  | .jtagDictionaryAccess frame => Sys2Proof.Machine.execJtagDictionaryAccess frame s
  | .tapReset => Sys2Proof.Machine.execTapReset s
  | .dictionaryWrite rq index sub value => Sys2Proof.Machine.execDictionaryWrite rq index sub value s
  | .portModeWrite rq engine value => Sys2Proof.Machine.execPortModeWrite rq engine value s
  | .portEnableWrite rq port value => Sys2Proof.Machine.execPortEnableWrite rq port value s
  | .eventLogRelease rq n => Sys2Proof.Machine.execEventLogRelease rq n s
  | .noivosFullRestoreLocal rq p => Sys2Proof.Machine.execNoivosFullRestoreLocal rq p s
  | .noivosDeltaRestoreLocal rq p => Sys2Proof.Machine.execNoivosDeltaRestoreLocal rq p s
  | .noivosFullRestoreRemote rq p => Sys2Proof.Machine.execNoivosFullRestoreRemote rq p s
  | .noivosDeltaRestoreRemote rq p => Sys2Proof.Machine.execNoivosDeltaRestoreRemote rq p s
  | .restored p records pages failed => Sys2Proof.Machine.execRestored p records pages failed s
  | .checkpointPageAck p page => Sys2Proof.Machine.execCheckpointPageAck p page s
  | .checkpointFailed p target => Sys2Proof.Machine.execCheckpointFailed p target s
  | .heldPageWriteRelease id => Sys2Proof.Machine.execHeldPageWriteRelease id s
  | .ewsAsserted => Sys2Proof.Machine.execEwsAsserted s
  | .ewsGraceExpiry => Sys2Proof.Machine.execEwsGraceExpiry s
  | .ewsHolding => Sys2Proof.Machine.execEwsHolding s
  | .ewsResume rq pinHigh => Sys2Proof.Machine.execEwsResume rq pinHigh s
  | .powerSample milliwatts => Sys2Proof.Machine.execPowerSample milliwatts s
  | .dutyUpdate duty => Sys2Proof.Machine.execDutyUpdate duty s
  | .thermalCheck tenths => Sys2Proof.Machine.execThermalCheck tenths s
  | .thermalTrip => Sys2Proof.Machine.execThermalTrip s
  | .wearSecond tenths => Sys2Proof.Machine.execWearSecond tenths s
  | .idleGatingEntry => Sys2Proof.Machine.execIdleGatingEntry s
  | .wakeEvent w => Sys2Proof.Machine.execWakeEvent w s
  | .powerStateRequestS1 rq => Sys2Proof.Machine.execPowerStateRequestS1 rq s
  | .powerStateRequestP0 rq => Sys2Proof.Machine.execPowerStateRequestP0 rq s
  | .pllReady island pll => Sys2Proof.Machine.execPllReady island pll s
  | .pllLockLoss pll => Sys2Proof.Machine.execPllLockLoss pll s
  | .hardwareClockSwitch island => Sys2Proof.Machine.execHardwareClockSwitch island s
  | .missedRefreshTimeout island => Sys2Proof.Machine.execMissedRefreshTimeout island s
  | .referenceLoss input => Sys2Proof.Machine.execReferenceLoss input s
  | .clockSourceRequestA rq => Sys2Proof.Machine.execClockSourceRequestA rq s
  | .clockSourceRequestB rq => Sys2Proof.Machine.execClockSourceRequestB rq s
  | .ppsEdge => Sys2Proof.Machine.execPpsEdge s
  | .ppsTimeout => Sys2Proof.Machine.execPpsTimeout s
  | .coldReset => Sys2Proof.Machine.execColdReset s
  | .powerLoss => Sys2Proof.Machine.execPowerLoss s
  | .bootGo address length => Sys2Proof.Machine.execBootGo address length s
  | .firmwareStart image => Sys2Proof.Machine.execFirmwareStart image s
  | .warmResetPin => Sys2Proof.Machine.execWarmResetPin s
  | .warmReset rq => Sys2Proof.Machine.execWarmReset rq s
  | .rstNRelease => Sys2Proof.Machine.execRstNRelease s
  | .partitionReset rq p => Sys2Proof.Machine.execPartitionReset rq p s
  | .clusterReset rq c => Sys2Proof.Machine.execClusterReset rq c s
  | .clusterResetDone c failing => Sys2Proof.Machine.execClusterResetDone c failing s
  | .hpPerstAssert => Sys2Proof.Machine.execHpPerstAssert s
  | .hpPerstRelease width rate => Sys2Proof.Machine.execHpPerstRelease width rate s
  | .pcieRecoveryFailure => Sys2Proof.Machine.execPcieRecoveryFailure s
  | .watchdog processor restart => Sys2Proof.Machine.execWatchdog processor restart s
  | .partitionStart rq p => Sys2Proof.Machine.execPartitionStart rq p s
  | .partitionStop rq p => Sys2Proof.Machine.execPartitionStop rq p s
  | .partitionMapWrite rq index sub value => Sys2Proof.Machine.execPartitionMapWrite rq index sub value s
  | .unitClearDone p u => Sys2Proof.Machine.execUnitClearDone p u s
  | .strictIsolationWrite rq value => Sys2Proof.Machine.execStrictIsolationWrite rq value s
  | .macsecModeWrite rq port value => Sys2Proof.Machine.execMacsecModeWrite rq port value s
  | .macsecKeyInstall rq p record => Sys2Proof.Machine.execMacsecKeyInstall rq p record s
  | .macsecKeyDelete rq p record => Sys2Proof.Machine.execMacsecKeyDelete rq p record s
  | .operatorMacsecKeyInstall rq record => Sys2Proof.Machine.execOperatorMacsecKeyInstall rq record s
  | .operatorMacsecKeyDelete rq record => Sys2Proof.Machine.execOperatorMacsecKeyDelete rq record s
  | .managementKey rq key => Sys2Proof.Machine.execManagementKey rq key s
  | .attestationRequest rq p record => Sys2Proof.Machine.execAttestationRequest rq p record s
  | .deviceAttestationRequest rq record => Sys2Proof.Machine.execDeviceAttestationRequest rq record s
  | .attestationSigned p => Sys2Proof.Machine.execAttestationSigned p s
  | .securityVersionRaise rq v => Sys2Proof.Machine.execSecurityVersionRaise rq v s
  | .keyRevoke rq slot => Sys2Proof.Machine.execKeyRevoke rq slot s
  | .debugDisable rq value => Sys2Proof.Machine.execDebugDisable rq value s
  | .inkwellScrub b line found => Sys2Proof.Machine.execInkwellScrub b line found s
  | .patrolScrub channel line found => Sys2Proof.Machine.execPatrolScrub channel line found s
  | .hourlyWindow => Sys2Proof.Machine.execHourlyWindow s
  | .accessTimeout channel => Sys2Proof.Machine.execAccessTimeout channel s
  | .retrainingFailure channel => Sys2Proof.Machine.execRetrainingFailure channel s
  | .migrationLine b ecc => Sys2Proof.Machine.execMigrationLine b ecc s
  | .homeFillDone b => Sys2Proof.Machine.execHomeFillDone b s
  | .samplerComplete b => Sys2Proof.Machine.execSamplerComplete b s
  | .bindResolved o => Sys2Proof.Machine.execBindResolved o s
  | .claimResolved o => Sys2Proof.Machine.execClaimResolved o s
  | .bootCheckFailed code image => Sys2Proof.Machine.execBootCheckFailed code image s
  | .portLinkUp port => Sys2Proof.Machine.execPortLinkUp port s
  | .referenceReturn input => Sys2Proof.Machine.execReferenceReturn input s
  | .mgPhyInt up => Sys2Proof.Machine.execMgPhyInt up s
  | .inBandRinayFrame source frame at_ secured => Sys2Proof.Machine.execInBandRinayFrame source frame at_ secured s

end Sys2Proof.Machine
end

