-- ==== Sys2Proof/Machine/Step.lean ====
section
/-! DEFINITION. One step: the command at the front of the queue, or one idle cycle. -/

namespace Sys2Proof.Machine

open Sys2Proof

/-- One cycle with no command: the device's clock moves, and event records go out to their subscribers. DESIGN CHOICE (log 2). -/
def idle (s : State) : State := { s with fab := (W.of s).idle }

/-- The command at the front of the queue with the rest of the queue behind it; on an empty queue, an idle cycle.
DESIGN CHOICE (log 1). DESIGN CHOICE (log 2). -/
def step (s : State) : Host.Outcome State Fault Refusal :=
  match s.pending with
  | [] => .next (idle s)
  | c :: r => exec c { s with pending := r }

/-- The state with the command that a word spells put at the front of its queue; unchanged where it spells none.
DESIGN CHOICE (log 3). -/
def State.withFetchWord (s : State) (nbits w : Nat) : State :=
  match decodeTableWord nbits w with
  | some c => { s with pending := c :: s.pending }
  | none => s

end Sys2Proof.Machine
end

