-- ==== Sys2Proof/Safety.lean ====
section
/-! DEFINITION. The terms in which the statements speak: when a command's condition holds, what a change leaves as it was,
and what a safe run of the package keeps. -/

namespace Sys2Proof.Safety

open Sys2Proof Sys2Proof.Machine

/-! ### What a safe run keeps -/

/-- Package memory is in its canonical form. -/
def MemoryOk (s : State) : Prop := Memory.wf s.mem = true

/-- Every bit set in one pattern is set in another: what a fuse field that is only ever blown does (R491, R492). -/
def bitsKept {w : Nat} (a b : BitVec w) : Prop := a &&& b = a

/-- No fuse of one array is unblown in another (R491): thermometer counts never fall, blown locks stay blown, revoked key
slots stay revoked, and what manufacture wrote is as it was. -/
structure FusesKept (a b : Fuses) : Prop where
  wear : a.wear ≤ b.wear
  versionMin : a.versionMin ≤ b.versionMin
  revoked : bitsKept a.revoked b.revoked
  debugDisable : a.debugDisable = true → b.debugDisable = true
  manufacturingLock : b.manufacturingLock = a.manufacturingLock
  serial : b.serial = a.serial
  mac : b.mac = a.mac
  keyHashes : b.keyHashes = a.keyHashes
  deviceSecret : b.deviceSecret = a.deviceSecret

/-! ### Frames -/

/-- Only the device changed: memory, the security block and the queue are as they were. -/
structure DeviceOnly (s t : State) : Prop where
  mem : t.mem = s.mem
  sec : t.sec = s.sec
  pending : t.pending = s.pending

/-- Nothing changed but one strand of one cluster, and what an issue notes (R111): which strand issued last, from which cycle
the cluster may issue again, and the cycle at which the clock stands. Every other strand and cluster, every byte of memory,
every dictionary entry, counter, function and the security block are as they were. -/
structure StrandOnly (s t : State) (c k : Nat) : Prop extends DeviceOnly s t where
  strands : ∀ j, j ≠ k → t.fab.strand c j = s.fab.strand c j
  cluster : { t.fab.cluster c with strands := [], lastIssued := 0, issueFrom := 0 } =
    { s.fab.cluster c with strands := [], lastIssued := 0, issueFrom := 0 }
  clusters : ∀ d, d ≠ c → t.fab.cluster d = s.fab.cluster d
  fab : { t.fab with clusters := [], cycle := 0 } = { s.fab with clusters := [], cycle := 0 }
  clock : s.fab.cycle ≤ t.fab.cycle

/-- Nothing changed but one cluster and the cycle at which the clock stands. -/
structure ClusterOnly (s t : State) (c : Nat) : Prop extends DeviceOnly s t where
  clusters : ∀ d, d ≠ c → t.fab.cluster d = s.fab.cluster d
  fab : { t.fab with clusters := [], cycle := 0 } = { s.fab with clusters := [], cycle := 0 }
  clock : s.fab.cycle ≤ t.fab.cycle

/-- One s register took a value, the pc moved on by one, and every other register of the strand is as it was. -/
structure WroteS (a b : Strand) (r : Nat) (v : Word) : Prop where
  reg : ∀ j, b.sreg j = if j = r then v else a.sreg j
  pc : b.pc = a.pc + 1
  rest : { b with s := [], pc := 0 } = { a with s := [], pc := 0 }

/-- The same of an a register. -/
structure WroteA (a b : Strand) (r : Nat) (v : Word) : Prop where
  reg : ∀ j, b.areg j = if j = r then v else a.areg j
  pc : b.pc = a.pc + 1
  rest : { b with a := [], pc := 0 } = { a with a := [], pc := 0 }

/-- The same of a t register. -/
structure WroteT (a b : Strand) (r : Nat) (v : Word) : Prop where
  reg : ∀ j, b.treg j = if j = r then v else a.treg j
  pc : b.pc = a.pc + 1
  rest : { b with t := [], pc := 0 } = { a with t := [], pc := 0 }

/-- The same of a p register: a write to p0 is discarded (R101). -/
structure WroteP (a b : Strand) (r : Nat) (v : Bool) : Prop where
  reg : ∀ j, b.preg j = if j = r ∧ r ≠ 0 then v else a.preg j
  pc : b.pc = a.pc + 1
  rest : { b with p := [], pc := 0 } = { a with p := [], pc := 0 }

/-- The strand went to a branch target: it may issue there from the third cycle after (R110). -/
structure Branched (a b : Strand) (target cycle : Nat) : Prop where
  pc : b.pc = BitVec.ofNat 16 target
  ready : b.readyAt = cycle + 3
  rest : { b with s := [], pc := 0, readyAt := 0 } = { a with s := [], pc := 0, readyAt := 0 }

/-! ### When an instruction executes -/

/-- The strand of an issue. -/
abbrev strandOf (s : State) (x : Issue) : Strand := s.fab.strand x.cluster x.strand

/-- It is the strand's turn to issue (R111: it is ready first, or first in the order after the strand that issued last), and
the word of the issue is the one at its pc, with the row's opcode. -/
def presents (s : State) (x : Issue) (op : Nat) : Bool :=
  s.fab.phase == .running && (s.fab.chosen x.cluster x.strand).isSome &&
  (s.fab.cluster x.cluster).imem[(strandOf s x).pc.toNat]? == some x.word && opcodeOf x.word == op

/-- An instruction is neither annulled nor a reserved encoding: it executes or raises a precise exception (R124, R134). -/
def attempts (s : State) (x : Issue) (op : Nat) : Bool :=
  presents s x op && !s.fab.illegal x.cluster x.strand x.word && predicate x.word (strandOf s x)

/-- An instruction executes (R102, R109, R111, R134, R136): its strand presents it, its encoding is not reserved, its predicate
is true, and it raises no precise exception. -/
def executes (s : State) (x : Issue) (op : Nat) : Bool :=
  attempts s x op && (s.fab.precise x.cluster x.strand x.word).isNone

/-- An instruction is annulled: its encoding is not reserved and its predicate is false (R102, R134). -/
def annulled (s : State) (x : Issue) (op : Nat) : Bool :=
  presents s x op && !s.fab.illegal x.cluster x.strand x.word && !predicate x.word (strandOf s x)

/-- The opcodes of the Scribe rows (Table "Instructions", R133). -/
def scribeRows : List ((Issue → Instr) × Nat) :=
  [(.nop, 0x00), (.endStrand, 0x01), (.eret, 0x02), (.brk, 0x03), (.sysr, 0x04), (.sysw, 0x05), (.fence, 0x06), (.plog, 0x07),
   (.add, 0x10), (.sub, 0x11), (.mul, 0x12), (.andr, 0x13), (.orr, 0x14), (.xorr, 0x15), (.shl, 0x16), (.shr, 0x17),
   (.asr, 0x18), (.minS, 0x19), (.maxS, 0x1A), (.li, 0x1B), (.lih, 0x1C), (.cmp, 0x1D), (.fop, 0x1E), (.fcmp, 0x1F),
   (.aadd, 0x20), (.amov, 0x21), (.atos, 0x22), (.tset, 0x23), (.tget, 0x24), (.br, 0x30), (.bcc, 0x31), (.bdec, 0x32),
   (.jal, 0x33), (.jr, 0x34), (.signal, 0x40), (.setCounter, 0x41), (.wait, 0x42), (.cread, 0x43), (.wload, 0x50),
   (.tmul, 0x51), (.drain, 0x52), (.aclr, 0x53), (.drainb, 0x54), (.vop, 0x60), (.bind, 0x70), (.unbind, 0x71), (.sin, 0x72),
   (.sout, 0x73), (.swait, 0x74), (.sarm, 0x75), (.scancel, 0x76), (.scred, 0x77), (.ld, 0x78), (.st, 0x79), (.coll, 0x80),
   (.sample, 0x90), (.saccept, 0x91)]

end Sys2Proof.Safety
end

