-- ==== Sys2Proof/WellFormed.lean ====
section
/-! DEFINITION. Which commands are well formed: every operand lies in the range that the spec gives it. A command whose
meaning refuses a value (a reserved opcode, a reserved type) is well formed, since its refusal is its meaning. -/

namespace Sys2Proof

/-- The issue names one of the 800 clusters (R17) and 8 strands (R99), and its word has the row's opcode in [63:56] (R133). -/
def Issue.wf (opcode : Nat) (x : Issue) : Bool :=
  Nat.blt x.cluster 800 && Nat.blt x.strand 8 && x.word.toNat / 2 ^ 56 == opcode

/-- R17. -/
def OpRef.wf (o : OpRef) : Bool := Nat.blt o.cluster 800

/-- R17, R99, R104; every binding that another displaced holds a window of at least one unit, so there are at most 1,024 (R215,
R216). DESIGN CHOICE (log 35). -/
def StreamRef.wf (r : StreamRef) : Bool := Nat.blt r.cluster 800 && Nat.blt r.strand 16 && Nat.blt r.handle 8200

/-- A place has an address of the package map (R187). -/
def Upset.wf (u : Upset) : Bool := Nat.blt u.place (2 ^ 43)

/-- Table "Submission entry" (R394): the widths of its fields. -/
def Entry.wf (e : Entry) : Bool :=
  Nat.blt e.partition 16 && Nat.blt e.ring 8 && Nat.blt e.opcode 256 && Nat.blt e.reserved (2 ^ 24) && Nat.blt e.tag (2 ^ 32) &&
  e.words.length == 7 && e.words.all (Nat.blt · (2 ^ 64))

/-- A mailbox belongs to one of 16 partitions (R397) and its stamp names a function in 8 bits (R398). -/
def Transport.wf : Transport → Bool
  | .mailbox p fn => Nat.blt p 16 && Nat.blt fn 256
  | .management | .inBand | .internal | .jtag | .cascade => true

/-- R373, R413. -/
def ReplyPath.wf (r : ReplyPath) : Bool := Nat.blt r.port 32 && Nat.blt r.udpPort 65536 && Nat.blt r.own (2 ^ 128)

/-- R398, R410. -/
def Requester.wf (r : Requester) : Bool :=
  r.transport.wf && Nat.blt r.source (2 ^ 128) && Nat.blt r.requestId 65536 && Nat.blt r.reply 64 && r.path.wf

/-- Table "Rinay header" (R410): the widths of its fields. A Length above 48 is well formed and refused with BAD_FRAME. -/
def Frame.wf (f : Frame) : Bool :=
  Nat.blt f.version 16 && Nat.blt f.kind 16 && Nat.blt f.status 256 && Nat.blt f.requestId 65536 && Nat.blt f.index 65536 &&
  Nat.blt f.subindex 256 && Nat.blt f.device 4 && Nat.blt f.reply 64 && Nat.blt f.offset 65536 && Nat.blt f.length 128 &&
  Nat.blt f.type 256 && Nat.blt f.sequence (2 ^ 32)

/-- R14, R358. -/
def FlowKey.wf (f : FlowKey) : Bool :=
  Nat.blt f.engine 8 && Nat.blt f.peer (2 ^ 128) && Nat.blt f.localPartition 16 && Nat.blt f.peerPartition 16

/-- Table "Collective message header" (R327): the widths of its fields. -/
def CollMsg.wf (m : CollMsg) : Bool :=
  m.via.wf &&
  Nat.blt m.partition 16 && Nat.blt m.attempt 16 && Nat.blt m.kind 16 && Nat.blt m.format 4 && Nat.blt m.fmt 4 &&
  Nat.blt m.tree 65536 && Nat.blt m.source 65536 && Nat.blt m.epoch (2 ^ 32) && Nat.blt m.sequence (2 ^ 32) &&
  Nat.blt m.offset (2 ^ 64) && Nat.blt m.count 65536 && Nat.blt m.size (2 ^ 40) && Nat.blt m.newScale 256

/-- One of the 16 partitions or the operator's channel, an association number 0 to 3 (R481), and an extended packet number. -/
def Secured.wf : Option Secured → Bool
  | none => true
  | some x => Nat.ble x.channel 16 && Nat.blt x.an 4 && Nat.blt x.pn (2 ^ 64)

/-- A received frame: one of the 33 ports (32 is the management port), and its protection (R369, R413). -/
def FrameAt.wf (x : FrameAt) : Bool := Nat.ble x.port 32 && Secured.wf x.secured

/-- Table "Kolas transport header" (R370): the widths of its fields, at one of the 32 ports (R356). -/
def Packet.wf (k : Packet) : Bool :=
  Nat.blt k.port 32 && Secured.wf k.secured && Nat.blt k.udpPort 65536 && Nat.blt k.sourceAddr (2 ^ 128) && Nat.blt k.destAddr (2 ^ 128) &&
  Nat.blt k.version 16 && Nat.blt k.type 16 && Nat.blt k.destPartition 16 && Nat.blt k.sourcePartition 16 &&
  Nat.blt k.channel 16 && Nat.blt k.psn (2 ^ 32) && Nat.blt k.ackPsn (2 ^ 32) && Nat.blt k.length 65536

/-- Table "Membership message": the widths of its fields and at most 8 payload entries. -/
def MemberMsg.wf (m : MemberMsg) : Bool :=
  Nat.blt m.group (2 ^ 32) && Nat.blt m.epoch (2 ^ 32) && Nat.blt m.member 65536 && Nat.blt m.sequence (2 ^ 32) &&
  Nat.blt m.timestamp (2 ^ 64) && Nat.blt m.sender (2 ^ 128) && Nat.ble m.pairs.length 8

/-- An inbound RDMA request: port (R356), a queue pair number of 24 bits, addresses of 64 bits and a key of 32 (R366). -/
def RdmaReq.wf (r : RdmaReq) : Bool :=
  Nat.blt r.port 32 && Secured.wf r.secured && Nat.blt r.peer (2 ^ 128) && Nat.blt r.qp (2 ^ 24) && Nat.blt r.psn (2 ^ 24) &&
  Nat.blt r.key (2 ^ 32) && Nat.blt r.address (2 ^ 64) && Nat.blt r.length (2 ^ 64)

/-- A completion status is 8 bits (R396); a package address is below 2^43 (R187). -/
def Transfer.wf : Transfer → Bool
  | .done | .endpointDown => true
  | .uncorrectable a => Nat.blt a (2 ^ 43)
  | .collective st => Nat.blt st 256

/-- 16 compute dies, 16 Fine pairs and 8 base dies (R14 to R17). -/
def ClearUnit.wf : ClearUnit → Bool
  | .computeDie d => Nat.blt d 16
  | .finePair i => Nat.blt i 16
  | .inkwell b | .blotter b => Nat.blt b 8
  | .granules => true

/-- Table "Firmware header" (R484): the widths of its fields. -/
def FirmwareImage.wf (i : FirmwareImage) : Bool :=
  Nat.blt i.magic (2 ^ 32) && Nat.blt i.headerVersion (2 ^ 16) && Nat.blt i.keySlot 256 && Nat.blt i.securityVersion (2 ^ 32) &&
  Nat.blt i.bodyLength (2 ^ 32) && Nat.blt i.build (2 ^ 64) && Nat.blt i.publicKey (2 ^ 512)

/-- A command is well formed. -/
def Instr.wf : Instr → Bool
  | .nop x => x.wf 0x00
  | .endStrand x => x.wf 0x01
  | .eret x => x.wf 0x02
  | .brk x => x.wf 0x03
  | .sysr x => x.wf 0x04
  | .sysw x => x.wf 0x05
  | .fence x => x.wf 0x06
  | .plog x => x.wf 0x07
  | .add x => x.wf 0x10
  | .sub x => x.wf 0x11
  | .mul x => x.wf 0x12
  | .andr x => x.wf 0x13
  | .orr x => x.wf 0x14
  | .xorr x => x.wf 0x15
  | .shl x => x.wf 0x16
  | .shr x => x.wf 0x17
  | .asr x => x.wf 0x18
  | .minS x => x.wf 0x19
  | .maxS x => x.wf 0x1A
  | .li x => x.wf 0x1B
  | .lih x => x.wf 0x1C
  | .cmp x => x.wf 0x1D
  | .fop x => x.wf 0x1E
  | .fcmp x => x.wf 0x1F
  | .aadd x => x.wf 0x20
  | .amov x => x.wf 0x21
  | .atos x => x.wf 0x22
  | .tset x => x.wf 0x23
  | .tget x => x.wf 0x24
  | .br x => x.wf 0x30
  | .bcc x => x.wf 0x31
  | .bdec x => x.wf 0x32
  | .jal x => x.wf 0x33
  | .jr x => x.wf 0x34
  | .signal x => x.wf 0x40
  | .setCounter x => x.wf 0x41
  | .wait x => x.wf 0x42
  | .cread x => x.wf 0x43
  | .wload x => x.wf 0x50
  | .tmul x => x.wf 0x51
  | .drain x => x.wf 0x52
  | .aclr x => x.wf 0x53
  | .drainb x => x.wf 0x54
  | .vop x => x.wf 0x60
  | .bind x => x.wf 0x70
  | .unbind x => x.wf 0x71
  | .sin x => x.wf 0x72
  | .sout x => x.wf 0x73
  | .swait x => x.wf 0x74
  | .sarm x => x.wf 0x75
  | .scancel x => x.wf 0x76
  | .scred x => x.wf 0x77
  | .ld x => x.wf 0x78
  | .st x => x.wf 0x79
  | .coll x => x.wf 0x80
  | .sample x => x.wf 0x90
  | .saccept x => x.wf 0x91
  | .operationHoldRelease o => o.wf
  | .weightLoadComplete o => o.wf
  | .tileMultiplyComplete o _ => o.wf
  | .drainComplete o => o.wf
  | .drainbApplied o => o.wf
  | .vopComplete o => o.wf
  | .counterWake c k => Nat.blt c 800 && Nat.blt k 8
  | .waitTimeout c k => Nat.blt c 800 && Nat.blt k 8
  | .transferWaitTimeout o => o.wf
  | .asyncExceptionTaken c k => Nat.blt c 800 && Nat.blt k 8
  | .clusterTerminationDone c => Nat.blt c 800
  | .terminationReport c => Nat.blt c 800
  | .launchAdmit p => Nat.blt p 16
  | .imageLoadComplete c => Nat.blt c 800
  | .launchEnd p l => Nat.blt p 16 && Nat.blt l (2 ^ 32)
  | .setupCommit e => e.wf
  | .commitBankFreed scope => Nat.ble scope 16
  | .drainLimitExpiry scope => Nat.ble scope 16
  | .memoryTransaction _ _ => true
  | .segmentBatchFetched r _ => r.wf
  | .streamUnitLands r _ _ _ => r.wf
  | .outWriteAccepted r => r.stream.wf
  | .streamWindowReturn r => r.wf
  | .voidResponseDrop c => Nat.blt c.cluster 800
  | .endpointDown r => r.stream.wf
  | .sqTailDoorbell p ring value => Nat.blt p 16 && Nat.blt ring 8 && Nat.blt value (2 ^ 32)
  | .submissionFetch p _ => Nat.blt p 16
  | .cqHeadDoorbell p _ => Nat.blt p 16
  | .completionWrite p => Nat.blt p 16
  | .ringRegisterWrite p ring _ value => Nat.blt p 16 && Nat.ble ring 8 && Nat.blt value (2 ^ 64)
  | .hostWindowTableWrite p i base length flags reserved => Nat.blt p 16 && Nat.blt i 16 && Nat.blt base (2 ^ 64) && Nat.blt length (2 ^ 64) && Nat.blt flags (2 ^ 8) && Nat.blt reserved (2 ^ 56)
  | .mailboxSend _ p m _ => Nat.blt p 16 && Nat.blt m 64
  | .mailboxRetract _ p m => Nat.blt p 16 && Nat.blt m 64
  | .mailboxTake _ p m => Nat.blt p 16 && Nat.blt m 64
  | .functionLevelReset p => Nat.blt p 16
  | .nopCommand e => e.wf
  | .launch e args clusters streams trees => e.wf && args.length == 16 && clusters.all (Nat.blt · 800) && streams.all (Nat.blt · 1024) && trees.all (Nat.blt · 256)
  | .cancel e => e.wf
  | .batchAdmit e seqs => e.wf && Nat.ble seqs.length 4096 && seqs.all (Nat.blt · 65536)
  | .batchEnd e => e.wf
  | .counterSignal e => e.wf
  | .counterSet e => e.wf
  | .counterRead e => e.wf
  | .setupWriteStream e _ => e.wf
  | .setupWriteTree e _ => e.wf
  | .setupWriteEndpoint e _ => e.wf
  | .setupWriteExport e _ => e.wf
  | .seqOpen e => e.wf
  | .seqClose e => e.wf
  | .folioAlloc e => e.wf
  | .folioMove e => e.wf
  | .folioPark e => e.wf
  | .folioUnpark e => e.wf
  | .folioFree e => e.wf
  | .folioMoveComplete p folio _ outcome => Nat.blt p 16 && Nat.blt folio 65536 && outcome.wf
  | .folioExpiry p folio => Nat.blt p 16 && Nat.blt folio 65536
  | .samplerStart b => Nat.blt b 8
  | .samplerCommit b => Nat.blt b 8
  | .stepOpen e => e.wf
  | .stepClose e => e.wf
  | .waveOpen p => Nat.blt p 16
  | .fallbackAreasWritten p => Nat.blt p 16
  | .versionOpen e _ => e.wf
  | .versionSwitch e => e.wf
  | .versionFree e => e.wf
  | .ductusJob e => e.wf
  | .ductusJobStart b p => Nat.blt b 8 && Nat.blt p 16
  | .ductusTurn b _ => Nat.blt b 8
  | .ductusJobComplete b p outcome => Nat.blt b 8 && Nat.blt p 16 && outcome.wf
  | .collectiveHoldRelease _ => true
  | .upMsg m _ => m.wf
  | .downMsg m => m.msg.wf
  | .reissue m => m.wf
  | .agreeUp m => m.wf
  | .agreeDown m => m.wf
  | .dataMsg m => m.wf
  | .cut m => m.wf
  | .pull m => m.wf
  | .pullData m => m.msg.wf
  | .notReady m => m.wf
  | .notReadyRepeat _ => true
  | .abortMsg m => m.wf
  | .collectiveComplete _ => true
  | .kolasData k => k.wf
  | .kolasAck k => k.wf
  | .kolasNak k => k.wf
  | .probe k => k.wf
  | .probeAck k => k.wf
  | .kolasResend f => f.wf
  | .ackTimer f => f.wf
  | .probeTimer f => f.wf
  | .peerDown f => f.wf
  | .roceReadRequest r => r.wf
  | .roceWriteRequest r _ => r.wf
  | .roceAckTimeout p i => Nat.blt p 16 && Nat.blt i 4096
  | .cnp x i => Nat.blt x.partition 16 && Nat.blt x.port 32 && Secured.wf x.secured && Nat.blt i 4096
  | .neighbourSolicitation x target => x.wf && Nat.blt target (2 ^ 128)
  | .echoRequest x target source => x.wf && Nat.blt target (2 ^ 128) && Nat.blt source (2 ^ 128)
  | .ptpMessage x _ _ => Nat.blt x.port 32 && Nat.blt x.domain 256
  | .portLinkDown port => Nat.blt port 32
  | .laneSignalLoss lane => Nat.blt lane 64
  | .laneErrorWindow lane _ => Nat.blt lane 64
  | .portFormed port => Nat.blt port 32
  | .portFormFailed port => Nat.blt port 32
  | .laserLowLight engine => Nat.blt engine 8
  | .laserFault bank => Nat.blt bank 2
  | .laserPresent _ => true
  | .baseLinkCrcError link => Nat.blt link 10
  | .baseLinkReplayTimeout link => Nat.blt link 10
  | .heartbeatTimer => true
  | .heartbeat m => m.wf
  | .loss m => m.wf
  | .workerLossTimeout member => Nat.blt member 65536
  | .stateMsg m => m.wf
  | .epochAck m => m.wf
  | .epochAckTimeout => true
  | .stateRepeat => true
  | .epoch m => m.wf
  | .assign m => m.wf
  | .managerTimeout => true
  | .cascadeLinkLoss k => Nat.blt k 4
  | .mgmtPortFrame x frame tag =>
    Nat.blt x.source (2 ^ 128) && Nat.blt x.udpPort 65536 && Nat.blt x.udpSource 65536 && frame.wf && Nat.blt tag (2 ^ 256)
  | .rinayRead rq frame => rq.wf && frame.wf
  | .rinayWrite rq frame => rq.wf && frame.wf
  | .rinayStrayFrame frame => frame.wf
  | .jtagDictionaryAccess frame => frame.wf
  | .tapReset => true
  | .dictionaryWrite rq index si _ => rq.wf && Nat.blt index 65536 && Nat.blt si 256
  | .portModeWrite rq engine value => rq.wf && Nat.blt engine 8 && Nat.blt value 256
  | .portEnableWrite rq port value => rq.wf && Nat.blt port 32 && Nat.blt value 256
  | .eventLogRelease rq n => rq.wf && Nat.ble n 4096
  | .noivosFullRestoreLocal rq p => rq.wf && Nat.blt p 16
  | .noivosDeltaRestoreLocal rq p => rq.wf && Nat.blt p 16
  | .noivosFullRestoreRemote rq p => rq.wf && Nat.blt p 16
  | .noivosDeltaRestoreRemote rq p => rq.wf && Nat.blt p 16
  | .restored p _ _ _ => Nat.blt p 16
  | .checkpointPageAck p page => Nat.blt p 16 && Nat.blt page (2 ^ 40)
  | .checkpointFailed p target => Nat.blt p 16 && Nat.blt target 16
  | .heldPageWriteRelease _ => true
  | .ewsAsserted => true
  | .ewsGraceExpiry => true
  | .ewsHolding => true
  | .ewsResume rq _ => rq.wf
  | .powerSample _ => true
  | .dutyUpdate duty => Nat.ble duty 64
  | .thermalCheck _ => true
  | .thermalTrip => true
  | .wearSecond _ => true
  | .idleGatingEntry => true
  | .wakeEvent _ => true
  | .powerStateRequestS1 rq => rq.wf
  | .powerStateRequestP0 rq => rq.wf
  | .pllReady island pll => Nat.blt island 946 && Nat.blt pll 2
  | .pllLockLoss pll => Nat.blt pll.island 946
  | .hardwareClockSwitch island => Nat.blt island 946
  | .missedRefreshTimeout island => Nat.blt island 946
  | .referenceLoss input => Nat.blt input 2
  | .clockSourceRequestA rq => rq.wf
  | .clockSourceRequestB rq => rq.wf
  | .ppsEdge => true
  | .ppsTimeout => true
  | .coldReset => true
  | .powerLoss => true
  | .bootGo address length => Nat.blt address (2 ^ 64) && Nat.blt length (2 ^ 64)
  | .firmwareStart image => image.wf
  | .warmResetPin => true
  | .warmReset rq => rq.wf
  | .rstNRelease => true
  | .partitionReset rq p => rq.wf && Nat.blt p 16
  | .clusterReset rq c => rq.wf && Nat.blt c 800
  | .clusterResetDone c _ => Nat.blt c 800
  | .hpPerstAssert => true
  | .hpPerstRelease width rate => Nat.blt width 256 && Nat.blt rate 256
  | .pcieRecoveryFailure => true
  | .watchdog processor _ => Nat.blt processor 4
  | .partitionStart rq p => rq.wf && Nat.blt p 16
  | .partitionStop rq p => rq.wf && Nat.blt p 16
  | .partitionMapWrite rq index si _ => rq.wf && Nat.blt index 65536 && Nat.blt si 256
  | .unitClearDone p u => Nat.blt p 16 && u.wf
  | .strictIsolationWrite rq value => rq.wf && Nat.blt value 256
  | .macsecModeWrite rq port value => rq.wf && Nat.blt port 32 && Nat.blt value 256
  | .macsecKeyInstall rq p _ => rq.wf && Nat.blt p 16
  | .macsecKeyDelete rq p _ => rq.wf && Nat.blt p 16
  | .operatorMacsecKeyInstall rq _ => rq.wf
  | .operatorMacsecKeyDelete rq _ => rq.wf
  | .managementKey rq _ => rq.wf
  | .attestationRequest rq p _ => rq.wf && Nat.blt p 16
  | .deviceAttestationRequest rq _ => rq.wf
  | .attestationSigned p => Nat.ble p 16
  | .securityVersionRaise rq v => rq.wf && Nat.blt v 65536
  | .keyRevoke rq slot => rq.wf && Nat.blt slot 4
  | .debugDisable rq value => rq.wf && Nat.blt value 256
  | .inkwellScrub b line x => Nat.blt b 8 && Nat.blt line (2 ^ 33) && x.arisen.all Upset.wf
  | .patrolScrub channel line x => Nat.blt channel 256 && Nat.blt line (2 ^ 33) && x.arisen.all Upset.wf
  | .hourlyWindow => true
  | .accessTimeout channel => Nat.blt channel 256
  | .retrainingFailure channel => Nat.blt channel 256
  | .migrationLine b _ => Nat.blt b 8
  | .homeFillDone b => Nat.blt b 8
  | .samplerComplete b => Nat.blt b 8
  | .bindResolved o => o.wf
  | .claimResolved o => o.op.wf
  | .bootCheckFailed code image => Nat.blt code 256 && image.wf
  | .portLinkUp port => Nat.blt port 32
  | .referenceReturn input => Nat.blt input 2
  | .mgPhyInt _ => true
  | .inBandRinayFrame source frame x secured =>
    Nat.blt source (2 ^ 128) && frame.wf && Nat.blt x.port 32 && Nat.blt x.udpPort 65536 && Nat.blt x.udpSource 65536 &&
      Secured.wf secured

end Sys2Proof
end

