-- ==== Sys2Proof/Certificates/Slice0/Obligations.lean ====
section
/-! DEFINITION. The statements for the provers: what each command of the P25 does, what it leaves, and what every step keeps.
A statement about commands of one shape names them in a table of rows. -/

open Sys2Proof Sys2Proof.Machine Sys2Proof.Safety

/-! ### The block and its queue -/

/-- No event record waits to go out: the management key that would tag it is absent, the firmware does not run, or every
subscriber's queue is empty. -/
def Sys2Proof.Claims.nothingToNotify (s : State) : Prop :=
  s.sec.managementKey = none ∨ s.fab.phase ≠ .running ∨ ∀ i, i < 8 → (s.fab.subscribers.get .empty i).queue = []

/-- A step with command c at the front of the queue is exec of c on the state with the rest of the queue; with an empty queue
it is one idle cycle: the cycle count moves and each subscriber is sent its oldest record, and with no record to send nothing
else changes (the model's choice, log 2).
Choices of the model it follows: the idle cycle (log 2), subscriber queues (log 16). -/
def Obligations.StepRunsTheFrontCommand : Prop :=
  (∀ c r s, s.pending = c :: r → step s = exec c { s with pending := r }) ∧
  (∀ s, s.pending = [] → ∃ t, step s = .next t ∧ DeviceOnly s t ∧ t.fab.cycle = s.fab.cycle + 1 ∧
    { t.fab with cycle := 0, subscribers := [], netOut := [] } = { s.fab with cycle := 0, subscribers := [], netOut := [] } ∧
    (Claims.nothingToNotify s → { t.fab with cycle := 0 } = { s.fab with cycle := 0 }))

/-- Every command is answered with a next state, in every state: no command of the table ends in a fault or a refusal.

No command reads or changes the queue: with any queue behind it a command does the same to the rest of the state.
Choices of the model it follows: commands whose condition fails (log 1). -/
def Obligations.CommandsAnswerAndLeaveTheQueue : Prop :=
  (∀ c s, ∃ t, exec c s = .next t) ∧
  (∀ c s t q, exec c s = .next t → exec c { s with pending := q } = .next { t with pending := q } ∧ t.pending = s.pending)

/-- Every step keeps package memory in its canonical form: addresses strictly rising, no byte listed that reads as an unlisted
one.
Choices of the model it follows: bytes nothing has written (log 4). -/
def Obligations.StepKeepsMemoryCanonical : Prop :=
  ∀ s t, MemoryOk s → step s = .next t → MemoryOk t

/-- No step unblows a fuse: the wear and security version counts never fall, a blown lock and a revoked key slot stay so, and
the manufacturing fields never change (R491). -/
def Obligations.StepKeepsFuses : Prop :=
  ∀ s t, step s = .next t → FusesKept s.sec.fuses t.sec.fuses

/-- The commands that may change the security block: dictionary writes and the operations written through them, boot and resets,
the wear count, the launch that is admitted into a program log, and the retirements that reset a partition. -/
def Sys2Proof.Claims.touchesSecurity : Instr → Bool
  | .rinayWrite _ _ | .jtagDictionaryAccess _ | .dictionaryWrite _ _ _ _ | .portModeWrite _ _ _ | .portEnableWrite _ _ _
  | .eventLogRelease _ _ | .noivosFullRestoreLocal _ _ | .noivosDeltaRestoreLocal _ _ | .noivosFullRestoreRemote _ _
  | .noivosDeltaRestoreRemote _ _ | .ewsResume _ _ | .powerStateRequestS1 _ | .powerStateRequestP0 _
  | .clockSourceRequestA _ | .clockSourceRequestB _ | .warmReset _ | .partitionReset _ _ | .clusterReset _ _
  | .partitionStart _ _ | .partitionStop _ _ | .partitionMapWrite _ _ _ _ | .strictIsolationWrite _ _ | .macsecModeWrite _ _ _
  | .macsecKeyInstall _ _ _ | .macsecKeyDelete _ _ _ | .operatorMacsecKeyInstall _ _ | .operatorMacsecKeyDelete _ _
  | .managementKey _ _ | .attestationRequest _ _ _ | .deviceAttestationRequest _ _ | .attestationSigned _
  | .securityVersionRaise _ _ | .keyRevoke _ _ | .debugDisable _ _ | .launchAdmit _ | .accessTimeout _ | .retrainingFailure _
  | .missedRefreshTimeout _ | .wearSecond _ | .hpPerstAssert | .hpPerstRelease _ _ | .powerLoss | .coldReset | .bootGo _ _
  | .bootCheckFailed _ _ | .firmwareStart _ | .warmResetPin | .rstNRelease | .tapReset => true
  | _ => false

/-- The commands that act on a device whose firmware does not run: resets, pins, power, boot, the training of a memory
channel (R209, R463), the host's use of the mailboxes (R400) and EWS_N (R467). -/
def Sys2Proof.Claims.actsWithoutFirmware : Instr → Bool
  | .coldReset | .powerLoss | .bootGo _ _ | .bootCheckFailed _ _ | .firmwareStart _ | .warmResetPin | .rstNRelease
  | .hpPerstAssert | .hpPerstRelease _ _ | .tapReset | .thermalTrip | .retrainingFailure _ | .mailboxSend _ _ _ _
  | .mailboxRetract _ _ _ | .mailboxTake _ _ _ | .ewsAsserted => true
  | _ => false

/-- Every other command leaves the security block: its fuses, keys, secure channels, boot state, logs and reports.

In a phase other than running, any other command finds no device and changes nothing (the model's choice for commands that
the spec gives only a running device, log 18).
Choices of the model it follows: opaque cryptography (log 7), phases other than running (log 18), the host link (log
19), records of what was sent (log 77). -/
def Obligations.OtherCommandsLeaveSecurityAndAbsentDevices : Prop :=
  (∀ c s t, Claims.touchesSecurity c = false → exec c s = .next t → t.sec = s.sec) ∧
  (∀ c s, Claims.actsWithoutFirmware c = false → s.fab.phase ≠ .running → exec c s = .next s)

/-- What the end of a cold reset leaves (R463 step 6, R476): the firmware runs, Power state (0x2040:01) and Last reset cause
(0x2050:03) read 0, every partition is unassigned (0xB001) and owns no cluster and no granule, no key pair and no secure channel
exists, every cluster is as its cluster reset leaves it (R466), nothing is in flight and no command waits.

Package memory is canonical at reset.
Choices of the model it follows: the state after reset (log 3), values from manufacture (log 5), entries nothing has
written (log 6). -/
def Obligations.ResetState : Prop :=
  (State.reset.pending = [] ∧ State.reset.fab.phase = .running ∧
   State.reset.fab.dget 0x2040 1 = 0 ∧ State.reset.fab.dget 0x2050 3 = 0 ∧
   (∀ p, p < 16 → State.reset.fab.dget 0xB001 (p + 1) = 0) ∧
   (∀ c, c < 800 → State.reset.fab.clusterOwner c = 0xFF) ∧ (∀ g, g < 62 → State.reset.fab.dget 0xB102 (g + 1) = 0xFF) ∧
   State.reset.sec.keys = [] ∧ State.reset.fab.sas = [] ∧
   (∀ c, State.reset.fab.cluster c = Cluster.idleReset) ∧
   State.reset.fab.launches = [] ∧ State.reset.fab.txns = [] ∧ State.reset.fab.waiting = [] ∧
   State.reset.fab.colls = []) ∧
  (MemoryOk State.reset)

/-! ### Scribe instructions: registers, predicates, branches -/

/-- Instructions that write one s register with a value of their word and their strand's registers: the integer instructions
(R143), LI, LIH, ATOS and TGET (R145). -/
def Sys2Proof.Claims.sRows : List ((Issue → Instr) × Nat × (Word → Strand → Word)) :=
  let a := fun (w : Word) (t : Strand) => t.sreg (fRa w)
  [(.add, 0x10, fun w t => a w t + operandB w t), (.sub, 0x11, fun w t => a w t - operandB w t),
   (.mul, 0x12, fun w t => a w t * operandB w t), (.andr, 0x13, fun w t => a w t &&& operandB w t),
   (.orr, 0x14, fun w t => a w t ||| operandB w t), (.xorr, 0x15, fun w t => a w t ^^^ operandB w t),
   (.shl, 0x16, fun w t => a w t <<< ((operandB w t).toNat % 64)),
   (.shr, 0x17, fun w t => a w t >>> ((operandB w t).toNat % 64)),
   (.asr, 0x18, fun w t => (a w t).sshiftRight ((operandB w t).toNat % 64)),
   (.minS, 0x19, fun w t => if (a w t).toInt ≤ (operandB w t).toInt then a w t else operandB w t),
   (.maxS, 0x1A, fun w t => if (operandB w t).toInt ≤ (a w t).toInt then a w t else operandB w t),
   (.li, 0x1B, fun w _ => (w.setWidth 32).signExtend 64),
   (.lih, 0x1C, fun w t => w.setWidth 32 ++ (t.sreg (fRd w)).setWidth 32),
   (.atos, 0x22, fun w t => t.areg (fRa w)), (.tget, 0x24, fun w t => t.treg (fRa w))]

/-- Each of them, when it executes, writes its value to sd, moves its strand's pc on by one and changes nothing else: no other
register, no flag, no other strand or cluster, no byte of memory.
Choices of the model it follows: the word of an issue (log 10). -/
def Obligations.ScalarInstructionsWriteTheirRegister : Prop :=
  ∀ row ∈ Claims.sRows, ∀ s x, executes s x row.2.1 = true →
    ∃ t, exec (row.1 x) s = .next t ∧ StrandOnly s t x.cluster x.strand ∧
      WroteS (strandOf s x) (strandOf t x) (fRd x.word) (row.2.2 x.word (strandOf s x))

/-- Instructions that write one predicate: CMP with the six conditions on signed and unsigned integers (R143), FCMP, in which a
NaN makes eq, lt and ge false and ne true (R144), and PLOG (R142). -/
def Sys2Proof.Claims.pRows : List ((Issue → Instr) × Nat × (Word → Strand → Bool)) :=
  [(.cmp, 0x1D, fun w t =>
     let a := t.sreg (fRa w)
     let b := operandB w t
     match fFn w with
     | 0 => decide (a = b)
     | 1 => decide (a ≠ b)
     | 2 => decide (a.toInt < b.toInt)
     | 3 => decide (b.toInt ≤ a.toInt)
     | 4 => decide (a.toNat < b.toNat)
     | _ => decide (b.toNat ≤ a.toNat)),
   (.fcmp, 0x1F, fun w t =>
     let a := fp32 ((t.sreg (fRa w)).setWidth 32)
     let b := fp32 (operandF w t)
     match fFn w with
     | 0 => a.eqv b
     | 1 => !a.eqv b
     | 2 => a.lt b
     | _ => !(a.isNaN || b.isNaN) && !a.lt b),
   (.plog, 0x07, fun w t =>
     let a := t.preg (fRa w)
     let b := t.preg (fRb w)
     match fFn w with
     | 0 => a && b
     | 1 => a || b
     | 2 => a ^^ b
     | 3 => a && !b
     | _ => w.getLsbD 0)]

/-- Each of them, when it executes, writes its predicate (a write to p0, which reads 1, is discarded), moves the pc on by one and
changes nothing else; FCMP raises no flag.

AADD and AMOV write an a register, TSET a t register (R145), and nothing else but the pc.
Choices of the model it follows: the word of an issue (log 10). -/
def Obligations.CompareAndAddressInstructionsWriteTheirRegister : Prop :=
  (∀ row ∈ Claims.pRows, ∀ s x, executes s x row.2.1 = true →
     ∃ t, exec (row.1 x) s = .next t ∧ StrandOnly s t x.cluster x.strand ∧
       WroteP (strandOf s x) (strandOf t x) (fRd x.word) (row.2.2 x.word (strandOf s x)) ∧ (strandOf t x).preg 0 = true) ∧
  (∀ s x,
     (executes s x 0x20 = true → ∃ t, exec (.aadd x) s = .next t ∧ StrandOnly s t x.cluster x.strand ∧
       WroteA (strandOf s x) (strandOf t x) (fRd x.word) ((strandOf s x).areg (fRa x.word) + operandB x.word (strandOf s x))) ∧
     (executes s x 0x21 = true → ∃ t, exec (.amov x) s = .next t ∧ StrandOnly s t x.cluster x.strand ∧
       WroteA (strandOf s x) (strandOf t x) (fRd x.word) ((strandOf s x).sreg (fRa x.word))) ∧
     (executes s x 0x23 = true → ∃ t, exec (.tset x) s = .next t ∧ StrandOnly s t x.cluster x.strand ∧
       WroteT (strandOf s x) (strandOf t x) (fRd x.word) ((strandOf s x).sreg (fRa x.word))))

/-- FOP writes its function's result to sd and ORs the flags it raises into FLAGS; the three flag counts (0x4004:01 to 03) move by
one for a flag raised. While FLAGTRAP enables none of the raised flags it changes nothing else of the strand; where it enables
one, a Running strand with a handler enters it with FLAG_TRAP, the FLAGS in EINFO (R87, R108, R125, R144).
Choices of the model it follows: unused fields of ICVTF and FCVTI (log 27), counts stay at their largest value (log 28). -/
def Obligations.FloatInstructionRaisesItsFlags : Prop :=
  ∀ s x, executes s x 0x1E = true →
    let t0 := strandOf s x
    let r := fopFn (fFn x.word) (t0.sreg (fRa x.word)) (operandF x.word t0)
    (t0.flagTrap &&& r.2.bits = 0 ∨ (t0.st = .running ∧ t0.tvec ≠ 0)) →
    ∃ t, exec (.fop x) s = .next t ∧ DeviceOnly s t ∧
      (∀ j, (strandOf t x).sreg j = if j = fRd x.word then r.1 else t0.sreg j) ∧
      (strandOf t x).flags = t0.flags ||| r.2.bits ∧
      (t0.flagTrap &&& r.2.bits = 0 →
        { strandOf t x with s := [], flags := 0 } = { t0 with s := [], flags := 0, pc := t0.pc + 1 }) ∧
      (t0.flagTrap &&& r.2.bits ≠ 0 →
        { strandOf t x with s := [], flags := 0 } =
          { t0 with s := [], flags := 0, st := .trapped, pc := t0.tvec, epc := t0.pc, cause := 0x12,
                    einfo := (t0.flags ||| r.2.bits).setWidth 64, waiting := none, readyAt := t.fab.cycle + 3 }) ∧
      (∀ c k, (c ≠ x.cluster ∨ k ≠ x.strand) → t.fab.strand c k = s.fab.strand c k) ∧
      (∀ d, { t.fab.cluster d with strands := [], lastIssued := 0, issueFrom := 0 } =
        { s.fab.cluster d with strands := [], lastIssued := 0, issueFrom := 0 }) ∧
      { t.fab with clusters := [], dict := [], cycle := 0 } = { s.fab with clusters := [], dict := [], cycle := 0 } ∧
      (∀ i j, (i ≠ 0x4004 ∨ j = 0 ∨ 3 < j) → j < 256 → t.fab.dget i j = s.fab.dget i j) ∧
      t.fab.dget 0x4004 1 = (if r.2.nv then min (s.fab.dget 0x4004 1 + 1) (2 ^ 32 - 1) else s.fab.dget 0x4004 1) ∧
      t.fab.dget 0x4004 2 = (if r.2.ovf then min (s.fab.dget 0x4004 2 + 1) (2 ^ 32 - 1) else s.fab.dget 0x4004 2) ∧
      t.fab.dget 0x4004 3 = (if r.2.so then min (s.fab.dget 0x4004 3 + 1) (2 ^ 32 - 1) else s.fab.dget 0x4004 3)

/-- Instructions that end in a taken branch (R146): the target, and the value that JAL and BDEC leave in sd. BCC is taken where
its condition on the two registers holds; BDEC where the decremented register is not 0; JR goes to sa[15:0].

A branch that is not taken goes on: BCC changes nothing but the pc, BDEC leaves 0 in its register (R146).
Choices of the model it follows: latencies and orders (log 11). -/
def Obligations.BranchesGoToTheirTargetOrGoOn : Prop :=
  (∀ s x, let t0 := strandOf s x
     let go := fun (op : Nat) (i : Instr) (target : Nat) (r : Nat → Word) => executes s x op = true →
       ∃ t, exec i s = .next t ∧ StrandOnly s t x.cluster x.strand ∧ Branched t0 (strandOf t x) target t.fab.cycle ∧
         ∀ j, (strandOf t x).sreg j = r j
     let d := fRd x.word
     let target := (x.word.setWidth 16).toNat
     let taken := condition (fFn x.word) (t0.sreg d) (t0.sreg (fRa x.word))
     go 0x30 (.br x) target t0.sreg ∧
     (taken = true → go 0x31 (.bcc x) target t0.sreg) ∧
     (t0.sreg d ≠ 1 → go 0x32 (.bdec x) target (fun j => if j = d then t0.sreg d - 1 else t0.sreg j)) ∧
     go 0x33 (.jal x) target (fun j => if j = d then t0.pc.setWidth 64 + 1 else t0.sreg j) ∧
     go 0x34 (.jr x) ((t0.sreg d).toNat % 65536) t0.sreg) ∧
  (∀ s x, let t0 := strandOf s x
     (condition (fFn x.word) (t0.sreg (fRd x.word)) (t0.sreg (fRa x.word)) = false → executes s x 0x31 = true →
       ∃ t, exec (.bcc x) s = .next t ∧ StrandOnly s t x.cluster x.strand ∧
         (strandOf t x).pc = t0.pc + 1 ∧ { strandOf t x with pc := 0 } = { t0 with pc := 0 }) ∧
     (t0.sreg (fRd x.word) = 1 → executes s x 0x32 = true →
       ∃ t, exec (.bdec x) s = .next t ∧ StrandOnly s t x.cluster x.strand ∧ WroteS t0 (strandOf t x) (fRd x.word) 0))

/-- An exception with what it leaves in its strand when a handler is set: EPC, CAUSE and EINFO, the strand Trapped at TVEC as a
taken branch, and every register as it was. -/
def Sys2Proof.Claims.Entered (a b : Strand) (cause : Nat) (epc : BitVec 16) (einfo : Word) (cycle : Nat) : Prop :=
  b = { a with st := .trapped, pc := a.tvec, epc := epc, cause := BitVec.ofNat 8 cause, einfo := einfo, waiting := none,
               readyAt := cycle + 3 }

/-- The system registers as SYSR reads them at a cycle of the clock (Table "System registers", R106). -/
def Sys2Proof.Claims.sysValue (s : State) (x : Issue) (cycle : Nat) : Nat → Word :=
  let cl := s.fab.cluster x.cluster
  let t := strandOf s x
  fun n => match n with
  | 0x00 => BitVec.ofNat 64 x.strand
  | 0x01 => BitVec.ofNat 64 x.cluster
  | 0x02 => BitVec.ofNat 64 (s.fab.clusterOwner x.cluster)
  | 0x03 => BitVec.ofNat 64 cl.pwidth
  | 0x04 => BitVec.ofNat 64 cl.launch
  | 0x05 => BitVec.ofNat 64 (cycle - cl.startCycle)
  | 0x06 => BitVec.ofNat 64 ({ s.fab with cycle := cycle } : Fab).now
  | 0x07 => t.flags.setWidth 64
  | 0x08 => t.flagTrap.setWidth 64
  | 0x09 => t.tvec.setWidth 64
  | 0x0A => t.epc.setWidth 64
  | 0x0B => t.cause.setWidth 64
  | 0x0C => t.einfo
  | 0x0D => t.waitLimit
  | _ => t.replays.setWidth 64

/-- NOP changes nothing but the pc. END makes its strand Ended, and does nothing else while another strand is live or something of
the launch is still in flight; the END of the last live strand of a launch with nothing in flight returns the cluster to Idle,
its bindings ended (R99, R100). ERET returns from a handler to EPC + 1, or to EPC where p7 is set, as a taken branch (R125,
R142).

BRK takes exception BREAK with EINFO its 16-bit immediate: with a handler (TVEC not 0) a Running strand enters it; without
one, or Trapped, the strand is Faulted and the cluster terminates with that exception (R124 to R126, R142).

SYSR reads each system register into sd; SYSW writes FLAGS and FLAGTRAP (bits [2:0], the others discarded), TVEC and
WAITLIMIT, and nothing else (R106, R108, R142).
Choices of the model it follows: waits in a handler (log 17), order of exceptions (log 89). -/
def Obligations.ControlAndSystemRegisterInstructions : Prop :=
  (∀ s x, let t0 := strandOf s x
     let c := x.cluster
     let last := ((s.fab.cluster c).strands.set x.strand { t0 with st := .ended }).all (fun e => e.2.over) && s.fab.quiet c
     (executes s x 0x00 = true → ∃ t, exec (.nop x) s = .next t ∧ StrandOnly s t c x.strand ∧
       (strandOf t x).pc = t0.pc + 1 ∧ { strandOf t x with pc := 0 } = { t0 with pc := 0 }) ∧
     (executes s x 0x01 = true → last = false →
       ∃ t, exec (.endStrand x) s = .next t ∧ StrandOnly s t c x.strand ∧ strandOf t x = { t0 with st := .ended }) ∧
     (executes s x 0x01 = true → last = true →
       ∃ t, exec (.endStrand x) s = .next t ∧ DeviceOnly s t ∧ (t.fab.cluster c).phase = .idle ∧
         (t.fab.cluster c).streams = [] ∧ (t.fab.cluster c).ops = [] ∧ (strandOf t x).st = .idle ∧
         (t.fab.cluster c).acc = (s.fab.cluster c).acc ∧ ∀ d, d ≠ c → t.fab.cluster d = s.fab.cluster d) ∧
     (executes s x 0x02 = true → ∃ t, exec (.eret x) s = .next t ∧ StrandOnly s t c x.strand ∧
       strandOf t x = { t0 with st := .running, pc := if t0.preg 7 then t0.epc else t0.epc + 1, readyAt := t.fab.cycle + 3 })) ∧
  (∀ s x, attempts s x 0x03 = true → let t0 := strandOf s x
     let info : Word := (x.word.setWidth 16).setWidth 64
     (t0.st = .running → t0.tvec ≠ 0 → ∃ t, exec (.brk x) s = .next t ∧ StrandOnly s t x.cluster x.strand ∧
       Claims.Entered t0 (strandOf t x) 0x0C t0.pc info t.fab.cycle) ∧
     ((t0.st = .trapped ∨ t0.tvec = 0) → ∃ t, exec (.brk x) s = .next t ∧ DeviceOnly s t ∧
       (strandOf t x).st = .faulted ∧ (strandOf t x).cause = 0x0C ∧ (strandOf t x).epc = t0.pc ∧ (strandOf t x).einfo = info ∧
       (t.fab.cluster x.cluster).phase = .terminating)) ∧
  (∀ s x, let t0 := strandOf s x
     let n := fImm x.word
     let v := t0.sreg (fRa x.word)
     (executes s x 0x04 = true → ∃ t, exec (.sysr x) s = .next t ∧ StrandOnly s t x.cluster x.strand ∧
       WroteS t0 (strandOf t x) (fRd x.word) (Claims.sysValue s x t.fab.cycle n)) ∧
     (executes s x 0x05 = true → ∃ t, exec (.sysw x) s = .next t ∧ StrandOnly s t x.cluster x.strand ∧
       (strandOf t x).pc = t0.pc + 1 ∧
       (strandOf t x).flags = (if n = 0x07 then v.setWidth 32 &&& 7 else t0.flags) ∧
       (strandOf t x).flagTrap = (if n = 0x08 then v.setWidth 32 &&& 7 else t0.flagTrap) ∧
       (strandOf t x).tvec = (if n = 0x09 then v.setWidth 16 else t0.tvec) ∧
       (strandOf t x).waitLimit = (if n = 0x0D then v else t0.waitLimit) ∧
       { strandOf t x with pc := 0, flags := 0, flagTrap := 0, tvec := 0, waitLimit := 0 } =
         { t0 with pc := 0, flags := 0, flagTrap := 0, tvec := 0, waitLimit := 0 }))

/-- What the strand or the cluster must satisfy beside the encoding, or the instruction is ILLEGAL: ERET runs in a handler (R142),
SAMPLE and SACCEPT run on a Fine cluster (R161). -/
def Sys2Proof.Claims.legal (s : State) (x : Issue) (op : Nat) : Bool :=
  match op with
  | 0x02 => (strandOf s x).st == .trapped
  | 0x90 | 0x91 => decide (768 ≤ x.cluster)
  | _ => true

/-- A Scribe instruction whose predicate is false does nothing but move its strand's pc on (R134), whatever the instruction.

A reserved encoding, or one that its strand's state or its cluster makes illegal, raises ILLEGAL with the word in EINFO, whatever
the instruction and its predicate (R136): the exception is fatal (R125, R126), so the strand is Faulted with it and the cluster
terminates; memory is as it was. -/
def Obligations.FalsePredicateAnnulsAndReservedEncodingIsIllegal : Prop :=
  (∀ row ∈ scribeRows, ∀ s x, annulled s x row.2 = true →
     ∃ t, exec (row.1 x) s = .next t ∧ StrandOnly s t x.cluster x.strand ∧
       (strandOf t x).pc = (strandOf s x).pc + 1 ∧ { strandOf t x with pc := 0 } = { strandOf s x with pc := 0 }) ∧
  (∀ row ∈ scribeRows, ∀ s x, presents s x row.2 = true → (encOk x.word = false ∨ Claims.legal s x row.2 = false) →
     ∃ t, exec (row.1 x) s = .next t ∧ DeviceOnly s t ∧ (strandOf t x).st = .faulted ∧ (strandOf t x).cause = 0x01 ∧
       (strandOf t x).epc = (strandOf s x).pc ∧ (strandOf t x).einfo = x.word ∧ (t.fab.cluster x.cluster).phase = .terminating)

/-- The register fields that hold an a or t register (limit 16) or a p or q register (limit 8): opcode, bits, limit (R135, R138,
R142 to R145, R159, R161, R509). -/
def Claims.narrowFields : List (Nat × Nat × Nat × Nat) :=
  [(0x07, 51, 47, 8), (0x07, 46, 42, 8), (0x07, 41, 37, 8), (0x1D, 51, 47, 8), (0x1F, 51, 47, 8), (0x20, 51, 47, 16),
   (0x20, 46, 42, 16), (0x21, 51, 47, 16), (0x22, 46, 42, 16), (0x23, 51, 47, 16), (0x24, 46, 42, 16), (0x70, 51, 47, 8),
   (0x71, 46, 42, 8), (0x72, 51, 47, 16), (0x72, 46, 42, 8), (0x73, 51, 47, 16), (0x73, 46, 42, 8), (0x74, 46, 42, 8)] ++
  [(0x75, 46, 42, 8), (0x75, 41, 37, 16), (0x76, 46, 42, 8), (0x77, 46, 42, 8), (0x78, 46, 42, 16), (0x79, 46, 42, 16),
   (0x80, 46, 42, 16), (0x80, 41, 37, 16), (0x90, 46, 42, 16), (0x90, 41, 37, 16), (0x91, 46, 42, 16), (0x91, 41, 37, 16)]

/-- A VOP word of R178: a broadcast on a function without src2 (all but 0x01 to 0x06); a row or column broadcast with neither
src1 nor dst a tile; a reduction (0x20 to 0x23) whose src1 is no tile; a scalar register where src2 names no scalar. -/
def Claims.reservedVop (w : Word) : Bool :=
  (fld w 25 24 != 0 && !(Nat.ble 1 (fld w 51 46) && Nat.ble (fld w 51 46) 6)) ||
  ((fld w 25 24 == 1 || fld w 25 24 == 2) && Nat.ble 16 (fld w 40 36) && Nat.ble 16 (fld w 45 41)) ||
  (Nat.ble 0x20 (fld w 51 46) && Nat.ble (fld w 51 46) 0x23 && Nat.ble 16 (fld w 40 36)) ||
  (fld w 18 14 != 0 && fld w 35 31 != 0x1F)

/-- The instruction raises ILLEGAL with its word in EINFO, and the exception is fatal (R136, R125, R126). -/
def Claims.TakesIllegal (s : State) (x : Issue) (c : Instr) : Prop :=
  ∃ t, exec c s = .next t ∧ DeviceOnly s t ∧ (strandOf t x).st = .faulted ∧ (strandOf t x).cause = 0x01 ∧
    (strandOf t x).epc = (strandOf s x).pc ∧ (strandOf t x).einfo = x.word ∧ (t.fab.cluster x.cluster).phase = .terminating

/-- A register field of an a, t, p or q register past its file is a reserved encoding (R135): the instruction raises ILLEGAL
with its word in EINFO, whatever its predicate, and the strand is Faulted. An s field takes every value of its 5 bits. -/
def Obligations.RegisterFieldsPastTheirFileAreIllegal : Prop :=
  ∀ (s : State) x, ∀ row ∈ scribeRows, ∀ k ∈ Claims.narrowFields, k.1 = row.2 → presents s x row.2 = true →
    k.2.2.2 ≤ fld x.word k.2.1 k.2.2.1 → Claims.TakesIllegal s x (row.1 x)

/-- The combinations of R178 in a VOP are reserved encodings: it raises ILLEGAL with its word in EINFO, whatever its predicate,
and the strand is Faulted. -/
def Obligations.ReservedVectorCombinationsAreIllegal : Prop :=
  ∀ (s : State) x, presents s x 0x60 = true → Claims.reservedVop x.word = true → Claims.TakesIllegal s x (.vop x)

/-- The word at the strand's pc is the one of the issue, with the row's opcode, no reserved encoding, and its predicate holds,
whether or not it is its strand's turn. -/
def Sys2Proof.Claims.atPc (s : State) (x : Issue) (op : Nat) : Prop :=
  (s.fab.cluster x.cluster).imem[(strandOf s x).pc.toNat]? = some x.word ∧ opcodeOf x.word = op ∧
  s.fab.illegal x.cluster x.strand x.word = false ∧ predicate x.word (strandOf s x) = true

/-- The issue rule (R111): nothing issues out of turn; one strand at most has its turn; it issues no earlier than the cycle after
the last issue, its own readiness and, for TMUL, the end of the matrix unit's interval (R57, R112); of the strands ready in
one cycle the first after the one that issued last goes; and an issue notes its strand and its cycle.

An instruction is not ready while a register it reads or writes is pending (R111), while an earlier operation of its strand
writes what its operation reads or writes (R114), or while its unit can take no more (R112): its issue changes nothing.
Choices of the model it follows: the idle cycle (log 2), the word of an issue (log 10), latencies and orders (log 11),
order of an issue (log 20), queues in front of units (log 34). -/
def Obligations.StrandsIssueInTurnAndWait : Prop :=
  ((∀ row ∈ scribeRows, ∀ s x, s.fab.chosen x.cluster x.strand = none → exec (row.1 x) s = .next s) ∧
   (∀ (f : Fab) c j k, (f.cluster c).lastIssued < 8 → (f.chosen c j).isSome = true → (f.chosen c k).isSome = true → j = k) ∧
   (∀ (f : Fab) c k t, f.chosen c k = some t → let cl := f.cluster c
     f.cycle ≤ t ∧ cl.issueFrom ≤ t ∧ (f.strand c k).readyAt ≤ t ∧
     (∀ w, cl.imem[(f.strand c k).pc.toNat]? = some w → opcodeOf w = 0x51 → f.verdict c k = .run → cl.matrixFrom ≤ t)) ∧
   (∀ (f : Fab) c j k t, (f.cluster c).lastIssued < 8 → j < 8 → k < 8 → f.readyTime c j = some t → f.readyTime c k = some t →
     (j + 7 - (f.cluster c).lastIssued) % 8 < (k + 7 - (f.cluster c).lastIssued) % 8 → f.chosen c k = none) ∧
   (∀ s x, executes s x 0x00 = true → ∃ t, exec (.nop x) s = .next t ∧ s.fab.chosen x.cluster x.strand = some t.fab.cycle ∧
     (t.fab.cluster x.cluster).lastIssued = x.strand ∧ (t.fab.cluster x.cluster).issueFrom = t.fab.cycle + 1)) ∧
  (∀ row ∈ scribeRows, ∀ s x, Claims.atPc s x row.2 →
     ((touches x.word).any (strandOf s x).busy.contains = true → exec (row.1 x) s = .next s) ∧
     (∀ o, s.fab.kindAt x.cluster x.strand x.word = some (.ok o) → (s.fab.cluster x.cluster).interlocked x.strand o = true →
       exec (row.1 x) s = .next s) ∧
     (s.fab.unitBusy x.cluster x.strand x.word = true → exec (row.1 x) s = .next s))

/-! ### Operations of a cluster -/

/-- A drain that clears its rows is to be replayed, so that it clears them at its completion (R122, R151). -/
def Sys2Proof.Claims.later (cl : Cluster) (d : DrainOp) : Bool :=
  d.z && Nat.blt 0 (drainEnd (cl.phase == .running) { d with got := some (cl.accRows d.base d.m) } 3 d.e 0).2.1

/-- Accumulator row r is cleared when an operation starts: an ACLR's rows, and those of a DRAIN that clears and is not replayed
(R151, R152). -/
def Sys2Proof.Claims.clears (cl : Cluster) (k : OpKind) (r : Nat) : Prop :=
  match k with
  | .aclr b m => b ≤ r ∧ r < b + m
  | .drain d => d.z = true ∧ Claims.later cl d = false ∧ d.base ≤ r ∧ r < d.base + d.m
  | _ => False

/-- An operation as it is once it has started: a tile multiply has the buffers that are live then, a drain has read its accumulator
rows as they are then (R51, R53, R151, R153). -/
def Sys2Proof.Claims.begun (cl : Cluster) : OpKind → OpKind
  | .tmul o => .tmul { o with weights := if o.swap then cl.shadow else cl.live }
  | .drain d => .drain { d with got := some (cl.accRows d.base d.m), later := Claims.later cl d }
  | .drainb slot off b m w _ => .drainb slot off b m w (some (cl.accRows b m))
  | k => k

/-- An operation issued at a cycle is held: an earlier one keeps it back (R48, R51 to R53, R158), or the issue credit does
(R448). -/
def Sys2Proof.Claims.isHeld (s : State) (c cycle : Nat) (kind : OpKind) : Bool :=
  (s.fab.cluster c).mustHold cycle (s.fab.cluster c).nextOp kind ||
  ({ s.fab with cycle := cycle } : Fab).throttled (s.fab.cluster c) kind

/-- The operations of a cluster as one of some kind starts: a swap passes the tile multiplies before it (R52). -/
def Sys2Proof.Claims.passed (cl : Cluster) (kind : OpKind) : List Op :=
  match kind with
  | .tmul o => if o.swap then cl.ops.map Op.flipped else cl.ops
  | _ => cl.ops

/-- An instruction issued and its operation is in flight: it is appended to the cluster's operations with the next number, its
operands as read at issue (R137), and its hold (R113); one that is not held starts, reading or clearing its accumulator rows.
The strand moved on with its destinations pending (R111); every other strand and cluster, every other accumulator row, the
counters, streams and instruction memory, and all memory are as they were. -/
structure Sys2Proof.Claims.Issued (s t : State) (x : Issue) (kind : OpKind) (regs : List Dest) : Prop extends
    DeviceOnly s t where
  clusters : ∀ d, d ≠ x.cluster → t.fab.cluster d = s.fab.cluster d
  op : (t.fab.cluster x.cluster).ops = (if Claims.isHeld s x.cluster t.fab.cycle kind then (s.fab.cluster x.cluster).ops
      else Claims.passed (s.fab.cluster x.cluster) kind) ++
    [{ id := (s.fab.cluster x.cluster).nextOp, strand := x.strand, epc := (strandOf s x).pc,
       kind := if Claims.isHeld s x.cluster t.fab.cycle kind then kind else Claims.begun (s.fab.cluster x.cluster) kind,
       held := Claims.isHeld s x.cluster t.fab.cycle kind,
       issued := t.fab.cycle, due := t.fab.cycle + kind.latency (isBroad x.cluster), late := false }]
  number : (t.fab.cluster x.cluster).nextOp = (s.fab.cluster x.cluster).nextOp + 1
  strand : strandOf t x = { strandOf s x with pc := (strandOf s x).pc + 1, busy := (strandOf s x).busy ++ regs }
  strands : ∀ j, j ≠ x.strand → t.fab.strand x.cluster j = s.fab.strand x.cluster j
  cleared : Claims.isHeld s x.cluster t.fab.cycle kind = false → ∀ r n, n < 64 → Claims.clears (s.fab.cluster x.cluster) kind r →
    (t.fab.cluster x.cluster).acc.get 0 (64 * r + n) = 0
  acc : ∀ r n, n < 64 → (Claims.isHeld s x.cluster t.fab.cycle kind = true ∨ ¬Claims.clears (s.fab.cluster x.cluster) kind r) →
    (t.fab.cluster x.cluster).acc.get 0 (64 * r + n) = (s.fab.cluster x.cluster).acc.get 0 (64 * r + n)
  counters : (t.fab.cluster x.cluster).counters = (s.fab.cluster x.cluster).counters
  streams : (t.fab.cluster x.cluster).streams = (s.fab.cluster x.cluster).streams
  imem : (t.fab.cluster x.cluster).imem = (s.fab.cluster x.cluster).imem

/-- No access waits to be injected, and no stream is bound: the ports of the package have nothing but the transactions in flight and
the DRAINBs that have started. -/
def Sys2Proof.Claims.portsEmpty (s : State) : Prop := s.fab.waiting = [] ∧ ∀ e ∈ s.fab.clusters, e.2.streams = []

/-- An exception that no handler may take, or that meets no handler: the strand is Faulted with it and the cluster terminates,
memory as it was (R125, R126). -/
structure Sys2Proof.Claims.Fatal (s t : State) (c k cause : Nat) (epc : BitVec 16) (einfo : Word) : Prop extends DeviceOnly s t where
  st : (t.fab.strand c k).st = .faulted
  cause : (t.fab.strand c k).cause = BitVec.ofNat 8 cause
  epc : (t.fab.strand c k).epc = epc
  einfo : (t.fab.strand c k).einfo = einfo
  phase : (t.fab.cluster c).phase = .terminating

/-- The first failing check of an array instruction raises its exception: a scale operand outside -14 to 7 (TMUL, R150), of -128
(DRAIN, R151) or with sx[63:32] not 0 (DRAINB, R153) is ILLEGAL with the word, an invalid tile handle BAD_HANDLE with the
register number, columns outside 1 to the presented width TILE_WIDTH, accumulator rows outside the file ACC_RANGE with base and
rows, a pair the array does not multiply FORMAT_PAIR (R50, R148, R149, R152).
Choices of the model it follows: order of an issue (log 20). -/
def Obligations.ArrayChecksRaiseTheirExceptions : Prop :=
  ∀ s x, let t0 := strandOf s x
    let cl := s.fab.cluster x.cluster
    let w := x.word
    let fails := fun (i : Instr) (cause : Nat) (info : Nat) =>
      ∃ t, exec i s = .next t ∧ Claims.Fatal s t x.cluster x.strand cause t0.pc (BitVec.ofNat 64 info)
    (attempts s x 0x51 = true → (mScale w t0 < -14 ∨ 7 < mScale w t0) → fails (.tmul x) 0x01 w.toNat) ∧
    (attempts s x 0x52 = true → mScale w t0 = -128 → fails (.drain x) 0x01 w.toNat) ∧
    (attempts s x 0x54 = true → 2 ^ 32 ≤ (mSx w t0).toNat → fails (.drainb x) 0x01 w.toNat) ∧
    (attempts s x 0x50 = true → tileOf (t0.treg (mTh w)) = none → fails (.wload x) 0x02 (mTh w)) ∧
    (∀ h, attempts s x 0x50 = true → tileOf (t0.treg (mTh w)) = some h → (mW w = 0 ∨ cl.pwidth < mW w) →
      fails (.wload x) 0x05 (mW w)) ∧
    (attempts s x 0x53 = true → (mM w = 0 ∨ 256 < mM w ∨ 256 < mBase w + mM w) →
      fails (.aclr x) 0x04 (mBase w * 65536 + mM w)) ∧
    (∀ h g, attempts s x 0x51 = true → -14 ≤ mScale w t0 → mScale w t0 ≤ 7 → tileOf (t0.treg (mTh w)) = some h → mM w ≤ h.rows →
      h.base + (mM w - 1) * h.pitch + 64 ≤ 2 ^ 20 → 1 ≤ mM w → mM w ≤ 256 → mBase w + mM w ≤ 256 → 1 ≤ mW w → mW w ≤ cl.pwidth →
      cl.weightFmt (w.getLsbD 9) = some g → dotLength h.fmt g = none →
      fails (.tmul x) 0x07 (fmtCode h.fmt * 256 + fmtCode g))

/-- The units of a cluster may act (R25, R456), and one of its strands is live, so that its launch has not ended (R100). -/
def Sys2Proof.Claims.atWork (s : State) (c : Nat) : Prop :=
  s.fab.halts c = false ∧ ∃ j, (s.fab.strand c j).over = false

/-- The rest of a cluster that the completion of an operation cannot touch: everything but its operations and counters (which
the signals that waited for it may change, R119). -/
def Sys2Proof.Claims.quiet (cl : Cluster) : Cluster := { cl with ops := [], counters := [] }

/-- TILE_MULTIPLY_COMPLETE of the oldest tile multiply, not held, with no residue mismatch, no error in the Well and no replay called for: entry
(base + i, n) takes the result of its dot product over k elements with the weights that were live at its start, added to its old value where the word says so, for every row
below m and column below w; every other accumulator entry, and all memory, is as it was (R47, R51, R57, R149).
Choices of the model it follows: latencies and orders (log 11), the error code outcome (log 13), FLAG_TRAP before
SCALE_LIMIT (log 29), errors that arise (log 94), residue outcomes (log 96). -/
def Obligations.TileMultiplyWritesItsTile : Prop :=
  ∀ (s : State) (o : OpRef) p t, s.fab.phase = .running →
    let cl := s.fab.cluster o.cluster
    s.fab.halts o.cluster = false → s.fab.wellFaults = [] →
    cl.op? o.op = some p → p.held = false → p.kind = .tmul t → t.w ≤ 64 →
    (∀ q ∈ cl.ops, q.id < p.id → q.kind.isTmul = false) → (t.rp = false ∨ (tmulRun (W.of s) o.cluster t t.e).2.ovf = false) →
    ∃ u, exec (.tileMultiplyComplete o []) s = .next u ∧ DeviceOnly s u ∧
      ∀ r n, n < 64 → (u.fab.cluster o.cluster).acc.get 0 (64 * r + n) =
        if t.base ≤ r ∧ r < t.base + t.m ∧ n < t.w then
          (nibRun (rowNums t.fmt ((W.of s).wellBytes o.cluster (t.act + (r - t.base) * t.stride) 64)
              (s.fab.tag o.cluster ((t.act + (r - t.base) * t.stride) / 64)) t.k)
            (t.weights.nums n t.k) t.e (if t.accumulate then some (cl.acc.get 0 (64 * r + n)) else none)).1
        else cl.acc.get 0 (64 * r + n)

/-- WEIGHT_LOAD_COMPLETE: the shadow buffers hold the format and, for every column below the count, its row of the Well with its
scale tag; every other column is zero; the live buffers and everything else of the cluster are as they were, and the operation
has left (R40, R49, R148).

OPERATION_HOLD_RELEASE: a held operation that nothing holds any longer starts, its latency running from then, and a drain reads
or clears its rows; one that is still held changes nothing (R48, R52, R53, R113, R448).
Choices of the model it follows: the error code outcome (log 13), the weight buffers (log 32). -/
def Obligations.WeightsLoadAndHeldOperationsStart : Prop :=
  (∀ (s : State) (o : OpRef) p a pitch m n, s.fab.phase = .running →
     let cl := s.fab.cluster o.cluster
     Claims.atWork s o.cluster → s.fab.wellFaults = [] → cl.op? o.op = some p → p.held = false → p.kind = .wload a pitch m n →
     ∃ t, exec (.weightLoadComplete o) s = .next t ∧ DeviceOnly s t ∧
       (let c := t.fab.cluster o.cluster
        c.shadow.fmt = some m ∧
        (∀ i, i < n → c.shadow.cols.find? i = some
          ⟨(List.range 64).map (fun j => Memory.read s.mem (wellBase o.cluster + (a + i * pitch) + j)),
           s.fab.tag o.cluster ((a + i * pitch) / 64)⟩) ∧
        (∀ i, n ≤ i → c.shadow.cols.find? i = none) ∧
        Claims.quiet { c with shadow := cl.shadow } = Claims.quiet cl ∧ (∀ q ∈ c.ops, q.id ≠ o.op)) ∧
       ∀ d, d ≠ o.cluster → t.fab.cluster d = s.fab.cluster d) ∧
  (∀ (s : State) (o : OpRef) p, s.fab.phase = .running →
     let cl := s.fab.cluster o.cluster
     Claims.atWork s o.cluster → cl.op? o.op = some p → p.held = true → p.id = o.op →
     (∀ q ∈ cl.ops, q.kind.handles = []) → (∀ j, (s.fab.strand o.cluster j).waiting = none) → (∀ a n v, p.kind ≠ .store a n v) →
     Claims.portsEmpty s →
     (cl.mustHold s.fab.cycle p.id p.kind = true → s.fab.txns = [] → (∀ e ∈ s.fab.clusters, ∀ q ∈ e.2.ops, q.held = true) →
       exec (.operationHoldRelease o) s = .next s) ∧
     (cl.mustHold s.fab.cycle p.id p.kind = false → s.fab.throttled cl p.kind = false →
       ∃ t, exec (.operationHoldRelease o) s = .next t ∧ DeviceOnly s t ∧
         (t.fab.cluster o.cluster).op? o.op = some { p with
           held := false, kind := Claims.begun cl p.kind, due := s.fab.cycle + p.kind.latency (isBroad o.cluster) } ∧
         (∀ r n, n < 64 → Claims.clears cl p.kind r → (t.fab.cluster o.cluster).acc.get 0 (64 * r + n) = 0) ∧
         (∀ r n, n < 64 → ¬Claims.clears cl p.kind r →
           (t.fab.cluster o.cluster).acc.get 0 (64 * r + n) = cl.acc.get 0 (64 * r + n)) ∧
         ∀ d, d ≠ o.cluster → t.fab.cluster d = s.fab.cluster d))

/-- WLOAD, ACLR, DRAIN and DRAINB, when they execute, start their operation with the tile, base, rows, columns and scale they name
(R148, R151 to R153); the first three change nothing outside their cluster. A DRAINB that is not held sends one transaction to
the Blotter, of its cluster's owner and of class 0b100 (R19, R35): stated where nothing is in flight in a calm package.

TMUL, when it executes, starts its operation; one that is not held keeps the matrix unit for one cycle a row (R57, R112), and
exchanges the live and shadow buffers at once where it names a swap (R51, R149).

VOP, when it executes, starts its operation with the operands that its word names (R155, R170, R179).
Choices of the model it follows: order of an issue (log 20), order of VOP operands (log 21), the weight buffers (log
32), queues in front of units (log 34). -/
def Obligations.ArrayAndVectorInstructionsStart : Prop :=
  (∀ s x, let t0 := strandOf s x
     let cl := s.fab.cluster x.cluster
     let w := x.word
     let starts := fun (i : Instr) (k : OpKind) => ∃ t, exec i s = .next t ∧ Claims.Issued s t x k [] ∧
       ClusterOnly s t x.cluster ∧
       (t.fab.cluster x.cluster).live = cl.live ∧ (t.fab.cluster x.cluster).shadow = cl.shadow
     (∀ h, executes s x 0x50 = true → tileOf (t0.treg (mTh w)) = some h → starts (.wload x) (.wload h.base h.pitch h.fmt (mW w))) ∧
     (executes s x 0x53 = true → starts (.aclr x) (.aclr (mBase w) (mM w))) ∧
     (∀ h, executes s x 0x52 = true → tileOf (t0.treg (mTh w)) = some h →
       let o : DrainOp := { addr := h.base, stride := h.pitch, fmt := h.fmt, base := mBase w, m := mM w, w := mW w,
                            e := mScale w t0, rp := w.getLsbD 8, z := w.getLsbD 7, got := none }
       starts (.drain x) (.drain o)) ∧
     (executes s x 0x54 = true → Claims.portsEmpty s →
       let k : OpKind := .drainb ((mSx w t0).toNat % 256) ((mSx w t0).toNat / 256 % 2 ^ 24) (mBase w) (mM w) (mW w) none
       ∃ t, exec (.drainb x) s = .next t ∧ Claims.Issued s t x k [] ∧
         (t.fab.cluster x.cluster).live = cl.live ∧ (t.fab.cluster x.cluster).shadow = cl.shadow ∧
         (s.fab.calm = true → (∀ e ∈ s.fab.clusters, e.2.ops = []) → Claims.isHeld s x.cluster t.fab.cycle k = false →
           t.fab.txns.map (fun y => (y.origin, y.tag.cls, y.tag.partition)) =
             [(.op x.cluster cl.nextOp, 4, s.fab.clusterOwner x.cluster)]))) ∧
  (∀ s x h, let t0 := strandOf s x
     let cl := s.fab.cluster x.cluster
     let w := x.word
     let o : TmulOp := { act := h.base, stride := h.pitch, fmt := h.fmt, base := mBase w, m := mM w, w := mW w, k := mK w,
                         e := mScale w t0, accumulate := w.getLsbD 10, swap := w.getLsbD 9, rp := w.getLsbD 8 }
     executes s x 0x51 = true → tileOf (t0.treg (mTh w)) = some h →
     ∃ t, exec (.tmul x) s = .next t ∧ Claims.Issued s t x (.tmul o) [] ∧ ClusterOnly s t x.cluster ∧
       (let c := t.fab.cluster x.cluster
        let held := Claims.isHeld s x.cluster t.fab.cycle (.tmul o)
        (c.matrixFrom = if held then cl.matrixFrom else t.fab.cycle + o.m) ∧
        if o.swap = true ∧ held = false then c.live = cl.shadow ∧ c.shadow = cl.live else c.live = cl.live ∧ c.shadow = cl.shadow)) ∧
  (∀ s x k, let cl := s.fab.cluster x.cluster
     executes s x 0x60 = true → vopKind x.strand x.word cl (strandOf s x) = .ok k →
     k.handles = [] → (∀ o ∈ cl.ops, o.kind.handles = []) → (∀ j, (s.fab.strand x.cluster j).waiting = none) →
     ∃ t, exec (.vop x) s = .next t ∧ Claims.Issued s t x k [] ∧ ClusterOnly s t x.cluster)

/-- DRAIN_COMPLETE of an ACLR, whose rows were cleared when it started, ends the operation and leaves every accumulator entry; of
a drain that no tile multiply locks and that calls for no replay, it writes the bytes of each row it has read into the tile and
nothing else of memory, and clears its rows only if it has still to do so (R48, R53, R151, R152).

VOP_COMPLETE of the VOP that holds the slice, to a tile that no tile multiply locks: the destination takes the packed results,
every other byte of memory is as it was, and the operation has left (R173, R180 to R182).
Choices of the model it follows: free rounding of hard cases (log 8), latencies and orders (log 11), the error code
outcome (log 13), drain formats and aborted strands (log 90), errors that arise (log 94). -/
def Obligations.DrainsAndVectorsWriteTheirTile : Prop :=
  (∀ (s : State) (o : OpRef) p, s.fab.phase = .running →
     let cl := s.fab.cluster o.cluster
     s.fab.halts o.cluster = false → cl.op? o.op = some p → p.held = false →
     (∀ b m, p.kind = .aclr b m → (∃ j, (s.fab.strand o.cluster j).over = false) →
       ∃ t, exec (.drainComplete o) s = .next t ∧ DeviceOnly s t ∧
         (t.fab.cluster o.cluster).acc = cl.acc ∧ ∀ q ∈ (t.fab.cluster o.cluster).ops, q.id ≠ o.op) ∧
     (∀ d, p.kind = .drain d → cl.locked p.id p.kind.writes = false → d.rp = false → s.fab.wellFaults = [] →
       (∀ j, j < d.m → ((drainRun d d.e).getD j ([], [], .none)).1.length ≤ d.stride) →
       ∃ t, exec (.drainComplete o) s = .next t ∧ t.sec = s.sec ∧
         (∀ j i, j < d.m → i < ((drainRun d d.e).getD j ([], [], .none)).1.length →
           Memory.read t.mem (wellBase o.cluster + (d.addr + j * d.stride) + i) =
             ((drainRun d d.e).getD j ([], [], .none)).1.getD i 0) ∧
         (∀ a, (∀ j i, j < d.m → i < ((drainRun d d.e).getD j ([], [], .none)).1.length →
             a ≠ wellBase o.cluster + (d.addr + j * d.stride) + i) → Memory.read t.mem a = Memory.read s.mem a) ∧
         (t.fab.cluster o.cluster).acc = if d.later then (cl.clearAcc d.base d.m).acc else cl.acc)) ∧
  (∀ (s : State) (o : OpRef) p v a rows st m, s.fab.phase = .running →
     let cl := s.fab.cluster o.cluster
     s.fab.halts o.cluster = false → s.fab.wellFaults = [] →
     cl.op? o.op = some p → p.kind = .vop v → v.dst = .tile a rows st m → p.held = false → cl.sliceHead p.id = true →
     v.ready = true → cl.locked p.id v.dst.ranges = false → (∀ q ∈ cl.ops, q.kind.handles = []) →
     let bytes := (convertRow m ((v.compute (W.of s) o.cluster).1.map fp32)).1
     ∃ t, exec (.vopComplete o) s = .next t ∧ t.sec = s.sec ∧
       (∀ i, i < bytes.length → Memory.read t.mem (wellBase o.cluster + a + i) = bytes.getD i 0) ∧
       (∀ b, (b < wellBase o.cluster + a ∨ wellBase o.cluster + a + bytes.length ≤ b) → Memory.read t.mem b = Memory.read s.mem b) ∧
       (∀ q ∈ (t.fab.cluster o.cluster).ops, q.id ≠ o.op))

/-- The cluster has issued in this cycle, so that no precise exception of it falls in the cycle (R165). -/
def Sys2Proof.Claims.issuedNow (s : State) (c : Nat) : Prop := s.fab.cycle < (s.fab.cluster c).issueFrom

/-! ### Counters, fences and waits -/

/-- Every counter that a cluster sees, after one of them changed: cluster counters (scope 0), its region's (1) and its
partition's (2) (R116, R118). -/
def Sys2Proof.Claims.CounterIs (s t : State) (c scope i : Nat) (v : W32) : Prop :=
  ∀ sc j, sc < 3 → t.fab.counter c sc j = if sc = scope ∧ j = i then v else s.fab.counter c sc j

/-- A strand that moved on and kept everything else. -/
def Sys2Proof.Claims.MovedOn (a b : Strand) : Prop := b.pc = a.pc + 1 ∧ { b with pc := 0 } = { a with pc := 0 }

/-- SIGNAL adds its immediate to a counter modulo 2^32 and SET writes sv[31:0] to it, at once while none of the strand's writes is
pending; every other counter is as it was (R118, R119, R147).

With a write of the strand pending, SIGNAL and SET move on and wait in flight: no counter changes before the write has
completed (R119).
Choices of the model it follows: which accesses are answered at once (log 31). -/
def Obligations.SignalsChangeTheirCounterAfterEarlierWrites : Prop :=
  (∀ s x, let c := x.cluster
     let sc := fScope x.word
     let i := fCtr x.word
     let cl := s.fab.cluster c
     i < counterCount sc → cl.writesPending x.strand cl.nextOp = false →
     (executes s x 0x40 = true → ∃ t, exec (.signal x) s = .next t ∧ DeviceOnly s t ∧
       Claims.CounterIs s t c sc i (s.fab.counter c sc i + (x.word.setWidth 16).setWidth 32) ∧
       Claims.MovedOn (strandOf s x) (strandOf t x)) ∧
     (executes s x 0x41 = true → ∃ t, exec (.setCounter x) s = .next t ∧ DeviceOnly s t ∧
       Claims.CounterIs s t c sc i (((strandOf s x).sreg (fRv x.word)).setWidth 32) ∧
       Claims.MovedOn (strandOf s x) (strandOf t x))) ∧
  (∀ s x, let cl := s.fab.cluster x.cluster
     let sc := fScope x.word
     let i := fCtr x.word
     i < counterCount sc → cl.writesPending x.strand cl.nextOp = true →
     (executes s x 0x40 = true → ∃ t, exec (.signal x) s = .next t ∧
       Claims.Issued s t x (.signal sc i (some ((x.word.setWidth 16).setWidth 32)) 0) [] ∧ ClusterOnly s t x.cluster ∧
       ∀ a j, a < 3 → t.fab.counter x.cluster a j = s.fab.counter x.cluster a j) ∧
     (executes s x 0x41 = true → ∃ t, exec (.setCounter x) s = .next t ∧
       Claims.Issued s t x (.signal sc i none (((strandOf s x).sreg (fRv x.word)).setWidth 32)) [] ∧ ClusterOnly s t x.cluster ∧
       ∀ a j, a < 3 → t.fab.counter x.cluster a j = s.fab.counter x.cluster a j))

/-- WAIT goes on where the counter has met its target (the difference modulo 2^32 is below 2^31) and otherwise leaves a Running
strand Blocked on it; CREAD reads the counter into sd; a counter index past its scope's count is COUNTER_RANGE (R118 to R120,
R147).

FENCE, when it executes, moves on; while a memory operation of its strand is in flight or a write of it is pending, it is not
ready, and its issue changes nothing (R115).

COUNTER_WAKE: a strand blocked on a counter goes on past its WAIT once the counter has met the target, and otherwise nothing
changes. WAIT_TIMEOUT: a blocked strand whose WAITLIMIT is not 0 takes WAIT_TIMEOUT; with WAITLIMIT 0 nothing changes (R118,
R119, R121).

TRANSFER_WAIT_TIMEOUT: a SIN or SOUT past a WAITLIMIT that is not 0 raises WAIT_TIMEOUT once, and stays in flight (R157).
ASYNC_EXCEPTION_TAKEN: a strand that is Running again takes its oldest pending exception (R165).
Choices of the model it follows: latencies and orders (log 11), waits in a handler (log 17), what FENCE waits for (log
103). -/
def Obligations.WaitsFencesAndWakes : Prop :=
  (∀ s x, let c := x.cluster
     let sc := fScope x.word
     let i := fCtr x.word
     let t0 := strandOf s x
     let v := s.fab.counter c sc i
     let target := (t0.sreg (fRv x.word)).setWidth 32
     (executes s x 0x42 = true → i < counterCount sc → (v - target).toNat < 2 ^ 31 →
       ∃ t, exec (.wait x) s = .next t ∧ StrandOnly s t c x.strand ∧ Claims.MovedOn t0 (strandOf t x)) ∧
     (executes s x 0x42 = true → i < counterCount sc → 2 ^ 31 ≤ (v - target).toNat → t0.st = .running →
       ∃ t, exec (.wait x) s = .next t ∧ StrandOnly s t c x.strand ∧
         strandOf t x = { t0 with st := .blocked, waiting := some (.counter sc i target, t.fab.cycle) }) ∧
     (executes s x 0x43 = true → i < counterCount sc →
       ∃ t, exec (.cread x) s = .next t ∧ StrandOnly s t c x.strand ∧ WroteS t0 (strandOf t x) (fRv x.word) (v.setWidth 64)) ∧
     (∀ row ∈ [((.signal : Issue → Instr), 0x40), (.setCounter, 0x41), (.wait, 0x42), (.cread, 0x43)],
       attempts s x row.2 = true → counterCount sc ≤ i →
       ∃ t, exec (row.1 x) s = .next t ∧ Claims.Fatal s t c x.strand 0x0A t0.pc (BitVec.ofNat 64 (sc * 256 + i)))) ∧
  (∀ s x, let cl := s.fab.cluster x.cluster
     let busy := (∃ o ∈ cl.ops, o.strand = x.strand ∧ o.kind.isMemory = true) ∨ cl.writesPending x.strand cl.nextOp = true
     (Claims.atPc s x 0x06 → busy → exec (.fence x) s = .next s) ∧
     (executes s x 0x06 = true → ¬busy ∧
       ∃ t, exec (.fence x) s = .next t ∧ StrandOnly s t x.cluster x.strand ∧ Claims.MovedOn (strandOf s x) (strandOf t x))) ∧
  (∀ (s : State) c k sc i target since, s.fab.phase = .running → let t0 := s.fab.strand c k
     s.fab.halts c = false → t0.st = .blocked → t0.waiting = some (.counter sc i target, since) →
     ((s.fab.counter c sc i - target).toNat < 2 ^ 31 → ∃ t, exec (.counterWake c k) s = .next t ∧ StrandOnly s t c k ∧
       t.fab.strand c k = { t0 with st := .running, waiting := none, pc := t0.pc + 1 }) ∧
     (2 ^ 31 ≤ (s.fab.counter c sc i - target).toNat → exec (.counterWake c k) s = .next s) ∧
     (t0.waitLimit = 0 → exec (.waitTimeout c k) s = .next s) ∧
     (t0.waitLimit ≠ 0 → t0.tvec ≠ 0 → ∃ t, exec (.waitTimeout c k) s = .next t ∧ StrandOnly s t c k ∧
       Claims.Entered t0 (t.fab.strand c k) 0x10 t0.pc (BitVec.ofNat 64 (target.toNat * 2 ^ 32 + sc * 256 + i)) s.fab.cycle) ∧
     (t0.waitLimit ≠ 0 → t0.tvec = 0 → ∃ t, exec (.waitTimeout c k) s = .next t ∧
       Claims.Fatal s t c k 0x10 t0.pc (BitVec.ofNat 64 (target.toNat * 2 ^ 32 + sc * 256 + i)))) ∧
  ((∀ (s : State) (o : OpRef) p h, s.fab.phase = .running → let t0 := s.fab.strand o.cluster p.strand
     s.fab.halts o.cluster = false → (s.fab.cluster o.cluster).op? o.op = some p →
     ((∃ a st n m, p.kind = .sin h a st n m) ∨ (∃ a st n m, p.kind = .sout h a st n m)) →
     (p.late = true → exec (.transferWaitTimeout o) s = .next s) ∧
     (p.late = false → t0.waitLimit ≠ 0 → t0.st = .running → t0.tvec ≠ 0 → Claims.issuedNow s o.cluster →
       ∃ t, exec (.transferWaitTimeout o) s = .next t ∧ DeviceOnly s t ∧
         Claims.Entered t0 (t.fab.strand o.cluster p.strand) 0x10 p.epc (BitVec.ofNat 64 (2 ^ 15 + h % 8)) s.fab.cycle ∧
         (t.fab.cluster o.cluster).op? o.op = some { p with late := true })) ∧
   (∀ (s : State) c k e r, s.fab.phase = .running → let t0 := s.fab.strand c k
     s.fab.halts c = false → t0.st = .running → t0.async = e :: r → e.cause.trappable = true → t0.tvec ≠ 0 →
     ∃ t, exec (.asyncExceptionTaken c k) s = .next t ∧ StrandOnly s t c k ∧
       Claims.Entered { t0 with async := r } (t.fab.strand c k) e.cause.code e.epc e.einfo s.fab.cycle))

/-! ### Streams -/

/-- No operation of the cluster takes from or gives to a stream. -/
def Sys2Proof.Claims.noTransfers (cl : Cluster) : Prop := ∀ o ∈ cl.ops, o.kind.handles = []

/-- What the ports and crossings of the package make of a state (R22, R225, R226, R235). -/
def Sys2Proof.Claims.flowed (u : State) : State :=
  { u with mem := MemOp.applyAll u.mem (W.of u).flow.out, fab := (W.of u).flow.fab }

/-- The same of one cluster's operations and streams, and of one handle of a strand. -/
def Sys2Proof.Claims.stirred (u : State) (c : Nat) : State :=
  { u with mem := MemOp.applyAll u.mem ((W.of u).stir c).out, fab := ((W.of u).stir c).fab }
def Sys2Proof.Claims.progressed (u : State) (c k q : Nat) : State :=
  { u with mem := MemOp.applyAll u.mem ((W.of u).progress c k q).out, fab := ((W.of u).progress c k q).fab }

/-- A cluster whose launch has nothing more to do returns to Idle, and no other state changes (R100). -/
def Sys2Proof.Claims.ended (u : State) (c : Nat) : State := { u with fab := u.fab.ends c }

/-- Nothing waits at a port, every transaction in flight stands at its memory, and no stream and no DRAINB has a request to make. -/
structure Sys2Proof.Claims.PortsQuiet (f : Fab) : Prop where
  waiting : f.waiting = []
  arrived : ∀ t ∈ f.txns, t.ahead = []
  asked : ∀ e ∈ f.clusters, ∀ st ∈ e.2.streams,
    (st.segs = none → st.state ≠ .armed ∨ st.fetching = true) ∧ st.lines = [] ∧ st.sendable = 0
  sent : ∀ e ∈ f.clusters, ∀ o ∈ e.2.ops, o.held = true ∨ (match o.kind with | .drainb _ _ _ _ _ _ => false | _ => true) = true ∨
    ∃ t ∈ f.txns, t.origin = .op e.1 o.id

/-- A transaction whose turn it is, not held by a checkpoint, with no error in package memory (R236, R439). -/
structure Sys2Proof.Claims.AtTurn (s : State) (t : Txn) : Prop where
  listed : s.fab.txn? t.id = some t
  free : t.heldPage = false
  turn : s.fab.atTurn t = true
  unread : (s.fab.noivosOf t.tag.partition).running = none
  good : s.fab.badLines = []
  soft : s.fab.softLines = []

/-- BIND of a stream that is live in the partition's setup leaves its handle pending and starts the bind; of any other number it
takes NOT_SET_UP with the number in EINFO (R104, R215).

BIND_RESOLVED of a live stream that is bound nowhere, for which its Feed port has window units and segments left: the handle
holds Valid, the direction and the number, and is no longer pending; the stream is Armed on its base, and the port asks for its
segment batch when it can (R104, R105, R216, R219). One bound already, or one past the port's buffer, takes STREAM_ERROR with
its status, and the handle is left unbound (R216).

The instructions on a bound handle that need no data: UNBIND ends the binding and clears the handle (R105, R156); SCRED reads
the credits (R225); SWAIT goes on with enough credits and otherwise leaves a Running strand Blocked on them (R156); SARM arms a
Spent persistent stream on a base its windows hold, and the port goes on (R223); SCANCEL cancels, and the responses to the
stream's reads are void (R240, R242).
Choices of the model it follows: address windows (log 30), rebinding (log 35). -/
def Obligations.StreamsAreBoundAndHandled : Prop :=
  (∀ s x, let t0 := strandOf s x
     let n := (t0.sreg (fRa x.word)).toNat % 65536
     let live := (s.fab.scope (s.fab.clusterOwner x.cluster)).live.streams
     (executes s x 0x70 = true →
       n < 1024 ∧ (live.find? n).isSome ∧
       ∃ t, exec (.bind x) s = .next t ∧ Claims.Issued s t x (.bind (fRd x.word) n) [.q (fRd x.word)] ∧
         ClusterOnly s t x.cluster) ∧
     (attempts s x 0x70 = true → ¬(n < 1024 ∧ (live.find? n).isSome) → t0.st = .running → t0.tvec ≠ 0 →
       ∃ t, exec (.bind x) s = .next t ∧ StrandOnly s t x.cluster x.strand ∧
         Claims.Entered t0 (strandOf t x) 0x09 t0.pc (BitVec.ofNat 64 n) t.fab.cycle) ∧
     (attempts s x 0x70 = true → ¬(n < 1024 ∧ (live.find? n).isSome) → t0.tvec = 0 →
       ∃ t, exec (.bind x) s = .next t ∧ Claims.Fatal s t x.cluster x.strand 0x09 t0.pc (BitVec.ofNat 64 n))) ∧
  (∀ (s : State) (o : OpRef) b q n d, s.fab.phase = .running →
     let c := o.cluster
     let cl := s.fab.cluster c
     let p := s.fab.clusterOwner c
     let t0 := s.fab.strand c b.strand
     let room := cl.portUse.1 + descField d 31 16 ≤ 1024 ∧ cl.portUse.2 + descField d 39 32 ≤ 2048
     s.fab.halts c = false → cl.op? o.op = some b → b.kind = .bind q n → q < 8 → b.strand < 8 →
     (s.fab.scope p).live.streams.find? n = some d →
     (s.fab.streamBound p n = false → room → s.fab.tableOk p d = true →
       let st := Stream.bound cl.nextStream b.strand q n b.epc d
       ∃ u, exec (.bindResolved o) s = .next (Claims.ended { u with fab := u.fab.pump } c) ∧ DeviceOnly s u ∧
         (u.fab.cluster c).stream? b.strand q = some st ∧
         (u.fab.strand c b.strand).qreg q = boundHandle st.out n ∧
         (u.fab.strand c b.strand).busy = removeFirst (· == .q q) t0.busy ∧
         ∀ d, d ≠ c → u.fab.cluster d = s.fab.cluster d) ∧
     ((s.fab.streamBound p n = true ∨ ¬room) → t0.st = .running → t0.tvec ≠ 0 → Claims.issuedNow s c →
       ∃ t, exec (.bindResolved o) s = .next t ∧ DeviceOnly s t ∧ (t.fab.strand c b.strand).qreg q = 0 ∧
         (t.fab.cluster c).stream? b.strand q = none ∧ (t.fab.strand c b.strand).st = .trapped ∧
         (t.fab.strand c b.strand).cause = 0x13 ∧ (t.fab.strand c b.strand).epc = b.epc ∧
         (t.fab.strand c b.strand).einfo =
           BitVec.ofNat 64 ((if s.fab.streamBound p n then feedAlreadyBound else feedNoBuffer) * 65536 + n))) ∧
  (∀ s x st, let c := x.cluster
     let t0 := strandOf s x
     let q := fRa x.word
     let cl := s.fab.cluster c
     cl.stream? x.strand q = some st → x.strand < 8 →
     (executes s x 0x71 = true → ∃ t, exec (.unbind x) s = .next t ∧ DeviceOnly s t ∧
       (strandOf t x).qreg q = 0 ∧ (strandOf t x).pc = t0.pc + 1 ∧ (t.fab.cluster c).stream? x.strand q = none) ∧
     (executes s x 0x77 = true → ∃ t, exec (.scred x) s = .next t ∧ StrandOnly s t c x.strand ∧
       WroteS t0 (strandOf t x) (fRd x.word) (BitVec.ofNat 64 st.credits)) ∧
     (executes s x 0x74 = true → (t0.sreg (fRb x.word)).toNat % 65536 ≤ st.credits →
       ∃ t, exec (.swait x) s = .next t ∧ StrandOnly s t c x.strand ∧ Claims.MovedOn t0 (strandOf t x)) ∧
     (executes s x 0x74 = true → st.credits < (t0.sreg (fRb x.word)).toNat % 65536 → t0.st = .running →
       ∃ t, exec (.swait x) s = .next t ∧ StrandOnly s t c x.strand ∧
         strandOf t x = { t0 with
           st := .blocked, waiting := some (.credits q ((t0.sreg (fRb x.word)).toNat % 65536), t.fab.cycle) }) ∧
     (executes s x 0x75 = true → st.state = .spent → descField st.desc 62 62 = 1 → st.pendingArm = none →
       s.fab.passOk (s.fab.clusterOwner c) st (t0.areg (fRb x.word)).toNat = true →
       ∃ u, exec (.sarm x) s = .next (Claims.progressed u c x.strand q) ∧ DeviceOnly s u ∧ Claims.MovedOn t0 (strandOf u x) ∧
         (u.fab.cluster c).stream? x.strand q =
           some { st with state := .armed, cur := some ⟨(t0.areg (fRb x.word)).toNat, st.head⟩, epc := t0.pc, retired := 0 }) ∧
     (executes s x 0x76 = true → Claims.noTransfers cl →
       ∃ t, exec (.scancel x) s = .next t ∧ DeviceOnly s t ∧ Claims.MovedOn t0 (strandOf t x) ∧
         (t.fab.cluster c).stream? x.strand q = some st.cancel ∧
         t.fab.txns = if st.active then s.fab.txns.map (Txn.voided c st.uid) else s.fab.txns))

/-- STREAM_UNIT_LANDS for the response to a requested unit, from package memory its partition may read: the stream holds the unit
with its element bytes and its scale bytes (R220, R221, R225), no other unit changes, and the ports go on.

A unit that lands for the SIN that waits for it goes into its row of the tile, with its scale tag, and leaves the stream;
every other byte of memory is as it was (R156, R225, R226).

OUT_WRITE_ACCEPTED: the write of a unit of an out-stream to package memory, at its turn, puts the unit's bytes at its address,
and no byte of another line changes; the oldest unit's write moves the count of written units by one (R221, R227).
Choices of the model it follows: the free block cipher (log 12), the error code outcome (log 13), out-stream units to
host and peer (log 33), what a drain of setup state waits for (log 54), crossings, routes, bank and sequence (log 97). -/
def Obligations.UnitsLandAndAreWritten : Prop :=
  (∀ (s : State) (r : StreamRef) st x n y, s.fab.phase = .running →
     let c := r.cluster
     let cl := s.fab.cluster c
     let p := x.tag.partition
     cl.stream? r.strand r.handle = some st → cl.uid? st.uid = some st →
     s.fab.txns.find? (fun t => t.origin.cluster == c && match t.origin with
       | .units _ v f _ => v == st.uid && f == n | _ => false) = some x →
     x.origin = .units c st.uid n 1 → x.far = .package → x.write = none → Claims.AtTurn s x → s.fab.answer x.tag x.ranges = .ok →
     st.placed n [] 0 = some y →
     ∃ u, exec (.streamUnitLands r n [] .clean) s = .next (Claims.ended (Claims.flowed u) c) ∧ DeviceOnly s u ∧
       (u.fab.cluster c).stream? r.strand r.handle = some { st with units := st.units.set n { y with
         bytes := fromMemory st.fmt ((W.of s).loads p x.addr x.len),
         tag := BitVec.ofNat 32 (leNat (x.more.flatMap (fun m => (W.of s).loads p m.1 m.2))) } } ∧
       ∀ v ∈ u.fab.txns, v.id ≠ x.id) ∧
  (∀ (s : State) (r : StreamRef) st o a pitch n m y x, s.fab.phase = .running →
     let c := r.cluster
     let cl := s.fab.cluster c
     let p := x.tag.partition
     let row := a + m * pitch
     let bytes := fromMemory st.fmt ((W.of s).loads p x.addr x.len)
     cl.stream? r.strand r.handle = some st → cl.uid? st.uid = some st → cl.ops = [o] → o.strand = r.strand →
     o.kind = .sin r.handle a pitch n m → m + 1 < n → st.units = [] → st.pendingArm = none → st.limit ≤ st.asked →
     (∀ j, (s.fab.strand c j).waiting = none) → Claims.PortsQuiet s.fab → s.fab.wellFaults = [] →
     (∀ e ∈ s.fab.clusters, e.1 ≠ c → Claims.noTransfers (s.fab.cluster e.1)) →
     s.fab.txns.find? (fun t => t.origin.cluster == c && match t.origin with
       | .units _ v f _ => v == st.uid && f == st.head | _ => false) = some x →
     x.origin = .units c st.uid st.head 1 → x.far = .package → x.write = none → Claims.AtTurn s x →
     s.fab.answer x.tag x.ranges = .ok → st.placed st.head [] 0 = some y → y.ends = false → bytes.length = 64 →
     ∃ t, exec (.streamUnitLands r st.head [] .clean) s = .next t ∧ t.sec = s.sec ∧
       (∀ i, i < 64 → Memory.read t.mem (wellBase c + row + i) = bytes.getD i 0) ∧
       (∀ b, (b < wellBase c + row ∨ wellBase c + row + 64 ≤ b) → Memory.read t.mem b = Memory.read s.mem b) ∧
       t.fab.tag c (row / 64) = BitVec.ofNat 32 (leNat (x.more.flatMap (fun m => (W.of s).loads p m.1 m.2))) ∧
       (t.fab.cluster c).op? o.id = some { o with kind := .sin r.handle a pitch n (m + 1) }) ∧
  (∀ (s : State) (r : StreamRef) st x bytes, s.fab.phase = .running →
     let c := r.cluster
     let cl := s.fab.cluster c
     cl.stream? r.strand r.handle = some st → cl.uid? st.uid = some st → st.strand < 8 → st.acked = [] →
     x.origin = .out c st.uid st.written 1 → x.far = .package → x.write = some bytes → Claims.AtTurn s x →
     s.fab.answer x.tag x.ranges = .ok → bytes.length = 64 → x.addr % 64 = 0 →
     (∀ v ∈ s.fab.txns, ∀ d u n, v.origin ≠ .scale d u n) → Claims.PortsQuiet s.fab → Claims.atWork s c →
     (∀ e ∈ s.fab.clusters, Claims.noTransfers (s.fab.cluster e.1)) →
     ∃ t, exec (.outWriteAccepted ⟨r, x.id, .clean⟩) s = .next t ∧ t.sec = s.sec ∧
       (∀ i, i < 64 → Memory.read t.mem (x.addr + i) = bytes.getD i 0) ∧
       (∀ b, (b < x.addr ∨ x.addr + 64 ≤ b) → Memory.read t.mem b = Memory.read s.mem b) ∧
       ((t.fab.cluster c).stream? r.strand r.handle).map Stream.written = some (st.written + 1) ∧
       ∀ v ∈ t.fab.txns, v.id ≠ x.id)

/-- SIN and SOUT on a bound handle of their direction, with a tile that holds the units, start their transfer, and the ports go on.
An unbound handle is BAD_HANDLE (R104, R156, R226).

SEGMENT_BATCH_FETCHED of a stream's batch at its turn, from a table its partition may read, with good segments that keep its
pass within reach: the stream holds the batch, read little-endian from the table, and the ports go on (R218, R219, R223).

The end of a cancel and the faults of a stream: STREAM_WINDOW_RETURN leaves a cancelled stream Spent, or Armed on its pending arm,
whatever of its writes is still on the way (R240); VOID_RESPONSE_DROP counts a void response and frees its number (0x3C32:01, R242); ENDPOINT_DOWN
cancels an armed stream of a host or a peer with STREAM_ERROR, status ENDPOINT_DOWN and the stream number in EINFO (R229,
R230).
Choices of the model it follows: the error code outcome (log 13), queues in front of units (log 34), rebinding (log 35),
crossings, routes, bank and sequence (log 97), the handle of WAIT_TIMEOUT (log 98), EINFO of a bad unit count (log 104). -/
def Obligations.TransfersSegmentsAndStreamEnds : Prop :=
  (∀ s x h, let c := x.cluster
     let t0 := strandOf s x
     let q := fRa x.word
     let n := (t0.sreg (fRb x.word)).toNat
     let starts := fun (i : Instr) (k : OpKind) =>
       ∃ u, exec i s = .next (Claims.stirred u c) ∧ Claims.Issued s u x k [] ∧ ClusterOnly s u c
     (executes s x 0x72 = true → tileOf (t0.treg (fRd x.word)) = some h → starts (.sin x) (.sin q h.base h.pitch n 0)) ∧
     (executes s x 0x73 = true → tileOf (t0.treg (fRd x.word)) = some h → starts (.sout x) (.sout q h.base h.pitch n 0)) ∧
     (∀ row ∈ [((.unbind : Issue → Instr), 0x71), (.sin, 0x72), (.sout, 0x73), (.swait, 0x74), (.sarm, 0x75), (.scancel, 0x76),
         (.scred, 0x77)],
       attempts s x row.2 = true → handleValid (t0.qreg q) = false →
       ∃ t, exec (row.1 x) s = .next t ∧ Claims.Fatal s t c x.strand 0x02 t0.pc (BitVec.ofNat 64 (16 + q)))) ∧
  (∀ (s : State) (r : StreamRef) st x, s.fab.phase = .running →
     let c := r.cluster
     let cl := s.fab.cluster c
     let p := x.tag.partition
     let segs := (List.range (x.len / 32)).map (fun i => BitVec.ofNat 256 ((W.of s).loadNat p (x.addr + 32 * i) 32))
     cl.stream? r.strand r.handle = some st → cl.uid? st.uid = some st → st.pendingArm = none →
     s.fab.txns.find? (fun t => t.origin.cluster == c && match t.origin with | .batch _ v => v == st.uid | _ => false) = some x →
     x.origin = .batch c st.uid → x.write = none → Claims.AtTurn s x → s.fab.answer x.tag x.ranges = .ok →
     segs.all (segOk st.fmt st.out) = true →
     (∀ b, st.cur = some b → s.fab.armOk (s.fab.clusterOwner c) { st with segs := some segs, fetching := false } b.base = true) →
     ∃ u, exec (.segmentBatchFetched r .clean) s = .next (Claims.ended (Claims.flowed u) c) ∧ DeviceOnly s u ∧
       (u.fab.cluster c).stream? r.strand r.handle = some { st with segs := some segs, fetching := false } ∧
       ∀ v ∈ u.fab.txns, v.id ≠ x.id) ∧
  ((∀ (s : State) (r : StreamRef) st, s.fab.phase = .running →
     let c := r.cluster
     let cl := s.fab.cluster c
     s.fab.halts c = false → cl.stream? r.strand r.handle = some st → cl.uid? st.uid = some st → st.strand < 8 →
     st.state = .cancelling →
     ∃ u, exec (.streamWindowReturn r) s = .next (Claims.ended (Claims.progressed u c r.strand r.handle) c) ∧ DeviceOnly s u ∧
       (u.fab.cluster c).stream? r.strand r.handle = some (match st.pendingArm with
         | some (b, e) => { st with state := .armed, cur := some ⟨b, st.head⟩, pendingArm := none, epc := e, retired := 0 }
         | none => { st with state := .spent, cur := none, retired := 0, fetching := false })) ∧
   (∀ (s : State) c x, s.fab.phase = .running → x.origin = .void c → x.write = none → Claims.AtTurn s x →
     s.fab.answer x.tag x.ranges = .ok →
     ∃ u, exec (.voidResponseDrop ⟨c, x.id, .clean⟩) s = .next (Claims.ended (Claims.flowed u) c) ∧ DeviceOnly s u ∧
       u.fab.dget 0x3C32 1 = min (s.fab.dget 0x3C32 1 + 1) (2 ^ 32 - 1) ∧ ∀ v ∈ u.fab.txns, v.id ≠ x.id) ∧
   (∀ (s : State) (r : StreamRef) st x a n, s.fab.phase = .running →
     let c := r.cluster
     let t0 := s.fab.strand c r.strand
     (s.fab.cluster c).stream? r.strand r.handle = some st → (s.fab.cluster c).uid? st.uid = some st → st.strand < 8 →
     Claims.noTransfers (s.fab.cluster c) → t0.waiting = none → st.state = .armed → Claims.issuedNow s c →
     s.fab.txn? x.id = some x → x.far ≠ .package → x.origin = .units c st.uid a n → x.ahead = [] → s.fab.stalled x = false →
     t0.st = .running → t0.tvec ≠ 0 →
     ∃ u, exec (.endpointDown ⟨r, x.id⟩) s = .next (Claims.ended (Claims.flowed u) c) ∧ DeviceOnly s u ∧
       (u.fab.cluster c).stream? r.strand r.handle = some st.cancel ∧
       Claims.Entered t0 (u.fab.strand c r.strand) 0x13 st.epc (BitVec.ofNat 64 (0x0A * 65536 + st.number)) s.fab.cycle))

/-! ### Loads, stores and transactions -/

/-- LD from the own Well reads its bytes, little-endian, extended as its size says; ST to bytes of the own Well that no tile
multiply locks writes them there and nowhere else (R48, R156, R158, R188). A misaligned address, or one the map does not hold,
is ADDR_RANGE with the address (R158).

LD and ST of package memory that the partition owns wait at the port and are in flight: the load's register is pending, memory
is as it was, and the ports go on (R33, R111, R158, R188). Where the ports are quiet, nothing else is in flight and the route's
islands run, the access goes at once: a transaction with the partition's tag and sequence number 0 stands at its memory
(R22, R33, R35).
Choices of the model it follows: the error code outcome (log 13), which accesses are answered at once (log 31),
crossings, routes, bank and sequence (log 97). -/
def Obligations.LoadsAndStoresReachTheirMemory : Prop :=
  (∀ s x off, let c := x.cluster
     let t0 := strandOf s x
     let cl := s.fab.cluster c
     let a := accessAddr x.word t0
     let z := accessSize (fFn x.word)
     (s.fab.locate (some c) a.toNat = .well c off → s.fab.wellFaults = [] →
       (executes s x 0x78 = true →
         ∃ t, exec (.ld x) s = .next t ∧ StrandOnly s t c x.strand ∧ WroteS t0 (strandOf t x) (fRd x.word)
           (extendLoad (leNat ((List.range z.1).map (fun i => Memory.read s.mem (wellBase c + off + i)))) z.1 z.2)) ∧
       (executes s x 0x79 = true → cl.locked cl.nextOp [⟨0, off, z.1⟩] = false →
         ∃ t, exec (.st x) s = .next t ∧ t.sec = s.sec ∧ Claims.MovedOn t0 (strandOf t x) ∧
           (∀ i, i < z.1 → Memory.read t.mem (wellBase c + off + i) =
             BitVec.ofNat 8 ((t0.sreg (fRb x.word)).toNat / 2 ^ (8 * i))) ∧
           ∀ b, (b < wellBase c + off ∨ wellBase c + off + z.1 ≤ b) → Memory.read t.mem b = Memory.read s.mem b)) ∧
     ((a.toNat % z.1 ≠ 0 ∨ s.fab.locate (some c) a.toNat = .outside) →
       ∀ row ∈ [((.ld : Issue → Instr), 0x78), (.st, 0x79)], attempts s x row.2 = true →
         ∃ t, exec (row.1 x) s = .next t ∧ Claims.Fatal s t c x.strand 0x08 t0.pc a)) ∧
  (∀ s x b off, let c := x.cluster
     let t0 := strandOf s x
     let cl := s.fab.cluster c
     let a := accessAddr x.word t0
     let z := accessSize (fFn x.word)
     let goes := fun (i : Instr) (data : Option (List Byte)) (regs : List Dest) =>
       ∃ u, exec i s = .next { u with fab := u.fab.pump } ∧ DeviceOnly s u ∧
         u.fab.waiting = s.fab.waiting ++ [⟨c, cl.nextOp, inkwellBase b + off, z.1, data⟩] ∧ (strandOf u x).pc = t0.pc + 1 ∧
         (strandOf u x).busy = t0.busy ++ regs ∧ (u.fab.cluster c).nextOp = cl.nextOp + 1 ∧
         (∀ r, Claims.PortsQuiet s.fab → s.fab.txns = [] → s.fab.routeOf c .package (inkwellBase b + off) = some r → r ≠ [] →
           (∀ i ∈ c :: r, s.fab.halts i = false) →
           u.fab.pump.waiting = [] ∧
           u.fab.pump.txns.map (fun v => (v.id, v.tag, v.addr, v.len, v.write, v.origin, v.ahead)) =
             [(s.fab.nextTxn, { s.fab.clusterTag c (16 + b) data.isSome with seq := 0 }, inkwellBase b + off, z.1, data,
               .op c cl.nextOp, [])])
     b < 8 → s.fab.locate (some c) a.toNat = .inkwell b off →
     (executes s x 0x78 = true → goes (.ld x) none [.s (fRd x.word)]) ∧
     (executes s x 0x79 = true → goes (.st x) (some (leBytes z.1 ((t0.sreg (fRb x.word)).toNat % 2 ^ (8 * z.1)))) []))

/-- MEMORY_TRANSACTION of a store that the package answers: its bytes are in memory, no byte of a line it does not touch has
changed, and it is no longer in flight (R189, R200, R208). Of a load: the value is in the register, which is no longer pending,
and the ports go on.

The base-die firewall (R189): a transaction to Inkwell or LPDDR5X that its partition does not own is dropped before any access,
for a read and for a write: no byte of memory changes, and the ports go on.
Choices of the model it follows: the free block cipher (log 12), the error code outcome (log 13), dropped LD and ST (log
22), what a drain of setup state waits for (log 54), errors that arise (log 94), slots and cached ECC lines (log 95),
crossings, routes, bank and sequence (log 97). -/
def Obligations.TransactionsAreServedOrDropped : Prop :=
  (∀ (s : State) x c o, s.fab.phase = .running → Claims.AtTurn s x → x.far = .package → x.origin = .op c o.id →
     (s.fab.cluster c).op? o.id = some o → s.fab.answer x.tag x.ranges = .ok →
     (∀ bytes, x.write = some bytes → (∀ e ∈ s.fab.clusters, Claims.noTransfers (s.fab.cluster e.1)) →
       Claims.PortsQuiet s.fab →
       ∃ t, exec (.memoryTransaction x.id .clean) s = .next t ∧ t.sec = s.sec ∧
         (∀ i, i < bytes.length → Memory.read t.mem (x.addr + i) = bytes.getD i 0) ∧
         (∀ b, (∀ i, i < bytes.length → b / 64 ≠ (x.addr + i) / 64) → Memory.read t.mem b = Memory.read s.mem b) ∧
         (∀ b, x.addr + bytes.length ≤ 0x10000000000 → (b < x.addr ∨ x.addr + bytes.length ≤ b) →
           Memory.read t.mem b = Memory.read s.mem b) ∧
         ∀ v ∈ t.fab.txns, v.id ≠ x.id) ∧
     (∀ rd a n sg, x.write = none → o.kind = .load rd a n sg →
       ∃ u, exec (.memoryTransaction x.id .clean) s = .next (Claims.ended (Claims.flowed u) c) ∧ DeviceOnly s u ∧
         (u.fab.strand c o.strand).sreg rd = extendLoad ((W.of s).loadNat x.tag.partition x.addr n) n sg ∧
         (u.fab.strand c o.strand).busy = removeFirst (· == .s rd) (s.fab.strand c o.strand).busy ∧
         ∀ v ∈ u.fab.txns, v.id ≠ x.id)) ∧
  (∀ (s : State) x c o ecc, s.fab.phase = .running → s.fab.txn? x.id = some x → x.origin = .op c o → x.far = .package →
     x.heldPage = false → s.fab.pageHeld x.tag.partition x.addr = false → s.fab.atTurn x = true → 0 < x.len →
     s.fab.placeOwner (s.fab.locate none x.addr) ≠ x.tag.partition →
     ∃ u, exec (.memoryTransaction x.id ecc) s = .next (Claims.ended (Claims.flowed u) c) ∧ DeviceOnly s u ∧
       ∀ v ∈ u.fab.txns, v.id ≠ x.id)

/-! ### The host's rings and mailboxes -/

/-- The host reaches the device: the firmware runs and the PCIe link is trained (R386, R393). -/
def Sys2Proof.Claims.hostUp (s : State) : Bool := s.fab.phase == .running && s.fab.inPins.linkUp

/-- Nothing changed but one virtual function. -/
structure Sys2Proof.Claims.VfOnly (s t : State) (p : Nat) : Prop extends DeviceOnly s t where
  vfs : ∀ q, q ≠ p → t.fab.vf q = s.fab.vf q
  fab : { t.fab with vfs := [] } = { s.fab with vfs := [] }

/-- SQ_TAIL_DOORBELL stores the tail of an enabled ring; an index past the ring disables it and sets its error bit (R390).
CQ_HEAD_DOORBELL returns entries and arms vector 0 (R392).

RING_REGISTER_WRITE: Base, a multiple of 4 KiB, and Size exponent of a ring change only while it is disabled; enabling a submission ring sets its
head and doorbell to 0 and clears its error bit (R389, R390).

HOST_WINDOW_TABLE_WRITE writes an entry of the shadow table, of a length in whole 4 KiB, and leaves the live one (R388).

SUBMISSION_FETCH from the ring served next: a good entry joins the fetched ones of its function in order and its ring's head
moves on, modulo the ring's size; a bad one completes BAD_COMMAND (R391, R393, R394).

COMPLETION_WRITE writes the oldest completion at the ring's head with the ring's phase, and the head moves on, the phase
turning where it passes the end (R392, R393); with an empty queue and nothing lost, or no room, it changes nothing.
Choices of the model it follows: what lies outside the package (log 9), the host link (log 19), ring corners (log 49),
management processors (log 113). -/
def Obligations.RingsAreRungWrittenAndFetched : Prop :=
  (∀ (s : State) p ring value, Claims.hostUp s = true → p < 16 → ring < 8 →
     let v := s.fab.vf p
     let r := v.ring ring
     (r.enable = true → ∃ t, exec (.sqTailDoorbell p ring value) s = .next t ∧ Claims.VfOnly s t p ∧
       (if value % 65536 < 2 ^ r.sizeExp
        then (t.fab.vf p).ring ring = { r with doorbell := value % 65536 } ∧ (t.fab.vf p).errors = v.errors
        else (t.fab.vf p).ring ring = { r with enable := false } ∧ bit (t.fab.vf p).errors ring = true) ∧
       (∀ n, n ≠ ring → (t.fab.vf p).ring n = v.ring n) ∧
       { t.fab.vf p with sq := [], errors := 0 } = { v with sq := [], errors := 0 }) ∧
     (r.enable = false → ∃ t, exec (.sqTailDoorbell p ring value) s = .next t ∧ Claims.VfOnly s t p ∧ t.fab.vf p = v) ∧
     (∀ w : W32, ∃ t, exec (.cqHeadDoorbell p w) s = .next t ∧ Claims.VfOnly s t p ∧
       t.fab.vf p = { v with
         cq := if w.toNat % 65536 < 2 ^ v.cq.sizeExp then { v.cq with doorbell := w.toNat % 65536 } else v.cq,
         msixArmed := v.msixArmed || w.getLsbD 31 })) ∧
  (∀ (s : State) p ring value, Claims.hostUp s = true → p < 16 → ring < 8 → value < 2 ^ 64 →
     let r := (s.fab.vf p).ring ring
     let ends := fun (f : RingField) (q : Ring) => ∃ t, exec (.ringRegisterWrite p ring f value) s = .next t ∧
       Claims.VfOnly s t p ∧ (t.fab.vf p).ring ring = q ∧ ∀ n, n ≠ ring → (t.fab.vf p).ring n = (s.fab.vf p).ring n
     (r.enable = true → ends .base r ∧ ends .sizeExponent r) ∧
     (r.enable = false → ends .base { r with base := value / 4096 * 4096 } ∧
       (6 ≤ value → value ≤ 16 → ends .sizeExponent { r with sizeExp := value }) ∧
       (value = 1 → ends .enable { r with enable := true, head := 0, doorbell := 0, phase := true } ∧
         ∃ t, exec (.ringRegisterWrite p ring .enable value) s = .next t ∧ bit (t.fab.vf p).errors ring = false)) ∧
     (value = 0 → ends .enable { r with enable := false })) ∧
  (∀ (s : State) p i base length flags reserved, Claims.hostUp s = true → p < 16 → i < 16 → 4096 ≤ length →
     ∃ t, exec (.hostWindowTableWrite p i base length flags reserved) s = .next t ∧ DeviceOnly s t ∧
       (∀ j, (t.fab.scope p).shadow.hostWindows.find? j =
         if j = i then some (base, length / 4096 * 4096, flags % 4) else (s.fab.scope p).shadow.hostWindows.find? j) ∧
       (t.fab.scope p).live = (s.fab.scope p).live ∧ (∀ q, q ≠ p → t.fab.scope q = s.fab.scope q) ∧
       { t.fab with scopes := [] } = { s.fab with scopes := [] }) ∧
  (∀ (s : State) p bits n, Claims.hostUp s = true → s.fab.fetches p = true → (s.fab.vf p).next = some n →
     let v := s.fab.vf p
     let e := entryOf p n v.nextSerial bits
     let head := fun (t : State) => ((t.fab.vf p).ring n).head = ((v.ring n).head + 1) % 2 ^ (v.ring n).sizeExp
     (s.fab.badEntry e = false → ∃ t, exec (.submissionFetch p bits) s = .next t ∧ Claims.VfOnly s t p ∧
       (t.fab.vf p).fetched = v.fetched ++ [e] ∧ (t.fab.vf p).openCmds = v.openCmds ++ [(e, false)] ∧ head t) ∧
     (s.fab.badEntry e = true → v.openCmds = [] → v.ordered = [] → v.queue.length < 4096 →
       ∃ t, exec (.submissionFetch p bits) s = .next t ∧ DeviceOnly s t ∧ (t.fab.vf p).fetched = v.fetched ∧
         (t.fab.vf p).queue = v.queue ++ [⟨e.opcode, 0x03, e.tag, 0⟩] ∧ head t)) ∧
  (∀ (s : State) p, Claims.hostUp s = true → p < 16 →
     let v := s.fab.vf p
     let h := (v.cq.head + 1) % 2 ^ v.cq.sizeExp
     (∀ c r, v.cq.enable = true → h ≠ v.cq.doorbell → v.lost = 0 → v.queue = c :: r →
       ∃ t, exec (.completionWrite p) s = .next t ∧ DeviceOnly s t ∧
         (t.fab.vf p).written = v.written ++ [(v.cq.head, v.cq.phase, c)] ∧ (t.fab.vf p).queue = r ∧ (t.fab.vf p).cq.head = h ∧
         (t.fab.vf p).cq.phase = (if h = 0 then !v.cq.phase else v.cq.phase) ∧ (t.fab.vf p).msixArmed = false ∧
         t.fab.interrupts = s.fab.interrupts ++ (if v.msixArmed then [(p + 1, 0)] else [])) ∧
     ((v.cq.enable = false ∨ h = v.cq.doorbell ∨ (v.lost = 0 ∧ v.queue = [])) → exec (.completionWrite p) s = .next s))

/-! ### Ring commands -/

/-- The entry is the next of its function in arrival order, a management processor serves the function, its command is open, and its
completion will find room and free no counter entry that waits for it (R391, R393, R395, R425). -/
def Sys2Proof.Claims.front (s : State) (e : Entry) (op : Nat) : Bool :=
  let v := s.fab.vf e.partition
  s.fab.phase == .running && s.fab.served (e.partition + 1) && e.opcode == op && v.fetched.head? == some e &&
  Nat.blt v.queue.length 4096 && v.ordered.isEmpty && v.openCmds.find? (isOpen e.opcode e.tag e.serial) == some (e, false)

/-- The entry completed: its completion, with status and detail, is the newest of its function's queue, and the entry is taken and
no longer open; every other function is as it was. -/
structure Sys2Proof.Claims.Completed (s t : State) (e : Entry) (status detail : Nat) : Prop where
  queue : (t.fab.vf e.partition).queue = (s.fab.vf e.partition).queue ++ [⟨e.opcode, status, e.tag, detail⟩]
  fetched : (t.fab.vf e.partition).fetched = (s.fab.vf e.partition).fetched.tail
  openCmds : (t.fab.vf e.partition).openCmds =
    removeFirst (isOpen e.opcode e.tag e.serial) (s.fab.vf e.partition).openCmds
  others : ∀ q, q ≠ e.partition → t.fab.vf q = s.fab.vf q
  sec : t.sec = s.sec

/-- The mailboxes (R397 to R400): a message to an empty mailbox lands in its slot with the sender's stamp and raises vector 2 of a
host receiver; its sender, if a host's, may take it back, and then it is gone and marked retracted; its receiver takes it, and the slot is
empty and the message marked taken. A second message of the same sender is ignored.

NOP_COMMAND completes DONE and does nothing else; COUNTER_READ completes DONE with the package counter in Detail (R395, R396);
COUNTER_SIGNAL adds W1[15:0] to a package counter modulo 2^32, refused BAD_COMMAND for 0, and COUNTER_SET writes W1[31:0], once
no earlier command of their ring is open (R118, R120, R395).
Choices of the model it follows: the host link (log 19), operand masks and n = 0 (log 50), management processors (log
113). -/
def Obligations.MailboxesAndCounterCommands : Prop :=
  (∀ (s : State) who p m msg, s.fab.phase = .running → s.fab.inPins.linkUp = true → p < 16 → 2 ≤ m → m < 64 →
     let b := s.fab.mailbox p m
     (b.slot = none → b.waiting = [] → ∃ t, exec (.mailboxSend who p m msg) s = .next t ∧ DeviceOnly s t ∧
       (t.fab.mailbox p m).slot = some (who, s.fab.stamp who p, msg) ∧ (t.fab.mailbox p m).waiting = [] ∧
       (t.fab.mailbox p m).ctl who = ⟨1, false⟩ ∧
       t.fab.interrupts = s.fab.interrupts ++ (match s.fab.receiver p m with
         | .pf => [(0, 2)] | .vf => [(p + 1, 2)] | .firmware => [])) ∧
     (b.holds who = true → ∃ t, exec (.mailboxSend who p m msg) s = .next t ∧ DeviceOnly s t ∧
       (t.fab.mailbox p m).slot = b.slot ∧ (t.fab.mailbox p m).waiting = b.waiting ∧
       (t.fab.mailbox p m).ctl who = { b.ctl who with ignored := true }) ∧
     (∀ st, b.slot = some (who, st, msg) → b.waiting = [] →
       (who ≠ .firmware → ∃ t, exec (.mailboxRetract who p m) s = .next t ∧ DeviceOnly s t ∧ (t.fab.mailbox p m).slot = none ∧
         ((t.fab.mailbox p m).ctl who).state = 3) ∧
       (who ≠ .firmware → ∃ t, exec (.mailboxTake (s.fab.receiver p m) p m) s = .next t ∧ DeviceOnly s t ∧
         (t.fab.mailbox p m).slot = none ∧ ((t.fab.mailbox p m).ctl who).state = 2 ∧
         t.fab.interrupts = s.fab.interrupts ++ [((match who with | .pf => 0 | _ => p + 1), 1)]))) ∧
  (∀ (s : State) (e : Entry), let p := e.partition
     let i := word e 0 % 64
     let old := s.fab.packageCtr.get 0 (64 * p + i)
     let first := ∀ y, (s.fab.vf p).openCmds.find? (fun x => x.1.ring == e.ring) = some y → y.1 = e
     let counts := fun (t : State) (v : W32) => ∀ k, t.fab.packageCtr.get 0 k =
       if k = 64 * p + i then v else s.fab.packageCtr.get 0 k
     (Claims.front s e 0x00 = true → ∃ t, exec (.nopCommand e) s = .next t ∧ Claims.Completed s t e 0 0 ∧ DeviceOnly s t ∧
       { t.fab with vfs := [] } = { s.fab with vfs := [] }) ∧
     (Claims.front s e 0x07 = true → ∃ t, exec (.counterRead e) s = .next t ∧ Claims.Completed s t e 0 old.toNat ∧ DeviceOnly s t ∧
       { t.fab with vfs := [] } = { s.fab with vfs := [] }) ∧
     (Claims.front s e 0x05 = true → first → 0 < word e 1 → ∃ t, exec (.counterSignal e) s = .next t ∧
       Claims.Completed s t e 0 0 ∧ DeviceOnly s t ∧ counts t (old + BitVec.ofNat 32 (word e 1 % 65536))) ∧
     (Claims.front s e 0x05 = true → word e 1 = 0 → ∃ t, exec (.counterSignal e) s = .next t ∧
       Claims.Completed s t e 0x03 0 ∧ DeviceOnly s t ∧ t.fab.packageCtr = s.fab.packageCtr) ∧
     (Claims.front s e 0x06 = true → first → ∃ t, exec (.counterSet e) s = .next t ∧
       Claims.Completed s t e 0 0 ∧ DeviceOnly s t ∧ counts t (BitVec.ofNat 32 (word e 1))))

/-! ### Launches -/

/-- LAUNCH of a running partition with its side blocks in the host windows and at least one cluster, as the only launch of its
partition: checked at once (R129), it waits for admission where it passes, and completes with the status of the first check that
fails where it does not, an error that ends no context; a read of the image that cannot be made yet has it wait (R22, R25). A partition that does not run is BUSY, one whose context was lost
CONTEXT_LOST (R129, R206, R474).

CANCEL of a launch that waits removes it: it completes CANCELLED, and CANCEL completes DONE; with no such launch CANCEL is
NOT_FOUND; of a running one with a strand still at work it aborts its clusters with origin 0xFFFF and completes when the launch does (R395).
Choices of the model it follows: what lies outside the package (log 9), order of launch checks (log 55), management
processors (log 113). -/
def Obligations.LaunchesAreCheckedAndCancelled : Prop :=
  (∀ (s : State) (e : Entry) args clusters streams trees, let p := e.partition
     let l := Entry.launch e args clusters (if word e 3 = 0 then [] else streams) (if word e 3 = 0 then [] else trees)
     let g := { s.fab.onVf p (fun v => { v with fetched := v.fetched.tail }) with launches := [l] }
     Claims.front s e 0x01 = true → s.fab.launches = [] →
     (s.fab.dget 0x3030 (p + 1) = 1 → ∃ t, exec (.launch e args clusters streams trees) s = .next t ∧
       Claims.Completed s t e 0x0A 0 ∧ t.mem = s.mem) ∧
     (s.fab.dget 0x3030 (p + 1) ≠ 1 → s.fab.dget 0xB001 (p + 1) ≠ 2 → ∃ t, exec (.launch e args clusters streams trees) s = .next t ∧
       Claims.Completed s t e 0x0B 0 ∧ t.mem = s.mem) ∧
     (s.fab.dget 0x3030 (p + 1) ≠ 1 → s.fab.dget 0xB001 (p + 1) = 2 → word e 3 = 0 →
       s.fab.inHostWindow p (word e 1) 128 false = true → s.fab.inHostWindow p (word e 2) 128 false = true → l.clusters ≠ [] →
       (∀ l1, (({ W.of s with fab := g } : W).checkLaunch l).2 = .ok l1 →
         ∃ t, exec (.launch e args clusters streams trees) s = .next t ∧ DeviceOnly s t ∧
           t.fab.launches = [{ l1 with phase := .waiting }] ∧ (t.fab.vf p).queue = (s.fab.vf p).queue) ∧
       (∀ st, (({ W.of s with fab := g } : W).checkLaunch l).2 = .error st → st ≠ .memUncorrectable →
         (({ W.of s with fab := g } : W).checkLaunch l).1.waits = false →
         ∃ t, exec (.launch e args clusters streams trees) s = .next t ∧ DeviceOnly s t ∧ t.fab.launches = [] ∧
           Claims.Completed s t e st.code 0))) ∧
  (∀ (s : State) (e : Entry), Claims.front s e 0x02 = true →
     (s.fab.launches = [] → ∃ t, exec (.cancel e) s = .next t ∧ Claims.Completed s t e 0x0D 0 ∧ DeviceOnly s t) ∧
     (∀ l l0, s.fab.launches = [l] → l.partition = e.partition → l.tag = word e 0 → l.cancels = [] → l.phase = .waiting →
       (s.fab.vf e.partition).queue.length < 4095 →
       (s.fab.vf e.partition).openCmds = [(l0, false), (e, false)] → l0.opcode = 0x01 → l0.tag = l.tag → l0.serial = l.serial →
       ∃ t, exec (.cancel e) s = .next t ∧ DeviceOnly s t ∧ t.fab.launches = [] ∧
         (t.fab.vf e.partition).queue = (s.fab.vf e.partition).queue ++
           [⟨0x01, 0x02, l.tag, l.id * 2 ^ 160⟩, ⟨0x02, 0, e.tag, 0⟩]) ∧
     (∀ l c, s.fab.launches = [l] → l.partition = e.partition → l.tag = word e 0 → l.phase = .running → l.clusters = [c] →
       (s.fab.cluster c).phase = .running → (∃ j, (s.fab.strand c j).over = false) →
       ∃ t, exec (.cancel e) s = .next t ∧ DeviceOnly s t ∧ (t.fab.cluster c).phase = .terminating ∧
         t.fab.launches = [{ l with phase := .aborting, cancels := l.cancels ++ [(e.tag, e.serial)] }] ∧
         (t.fab.vf e.partition).queue = (s.fab.vf e.partition).queue))

/-- The detail of a launch's completion: its identifier in [191:160] and, of one that faulted, the cluster, strand, cause, EPC and
EINFO of its first fatal exception (Table "Completion entry", R131). -/
def Sys2Proof.Claims.launchDetail (l : Launch) : Nat :=
  l.id * 2 ^ 160 + (match l.fault with
    | some (c, k, x) =>
      c % 65536 * 2 ^ 144 + k * 2 ^ 136 + x.cause.code * 2 ^ 128 + x.epc.toNat * 2 ^ 112 + x.einfo.toNat
    | none => 0)

/-- LAUNCH_ADMIT of the waiting head of a partition whose clusters are all Idle, where a management processor serves the function, no
EWS_N sequence has ended its launches and the Rubric die reads its image, takes the next launch identifier and starts loading
the image on each of them, and the image's digest joins the partition's program log (R106, R129, R130, R443, R488).

IMAGE_LOAD_COMPLETE of a loading cluster whose island runs, where its Feed reads the image or its instruction memory holds it
already, starts the cluster: instruction memory holds the image's words little-endian, every counter reads 0, and each strand of
the start mask Runs at its entry point with s16 to s31 the 16 arguments and WAITLIMIT the partition's default (R100, R101, R106,
R116, R130). Waiting partition resets name partitions of the 16.

LAUNCH_END of an admitted launch of one of the 16 partitions whose clusters, of the 800, have all finished or left it: each is Idle, the launch is gone, and its command
completes DONE, or FAULTED with the first fatal exception (R100, R131).

TERMINATION_REPORT of a terminating cluster: the first fatal exception of its launch is recorded and counted (0x4010:06), and the
launch aborts: each of its clusters (of the 800, each with an owner) that loads, or runs with work left, terminates. A later one of the launch changes nothing
(R127, R131).

CLUSTER_TERMINATION_DONE of a terminating cluster that has nothing in flight and whose island runs: it is Idle, or waits for its
reset after NIB_FAULT, its strands are Idle, and it leaves its launch, of one of the 16 partitions, whose first fatal exception is recorded by now (R126,
R127).
Choices of the model it follows: opaque cryptography (log 7), what lies outside the package (log 9), launch identifiers
(log 56), clusters going Idle (log 57), order of exceptions (log 89), accesses made at once (log 93), presented width
(log 100), management processors (log 113). -/
def Obligations.LaunchesAreAdmittedLoadedAndEnded : Prop :=
  (∀ (s : State) p l, s.fab.phase = .running → s.fab.headLaunch p = some l → l.partition = p → l.phase = .waiting →
     s.fab.launches = [l] → s.fab.served (p + 1) = true → s.fab.ewsGraced = false →
     (∀ c ∈ l.clusters, (s.fab.cluster c).phase = .idle) → s.fab.recheck l = none →
     (W.rubricReach p [(l.image, 64 + 8 * l.count, false)] (W.of s)).2 = .ok →
     ∃ t, exec (.launchAdmit p) s = .next t ∧ t.mem = s.mem ∧
       (let d := Config.shake256 ((W.of s).loads p l.image (64 + 8 * l.count))
        t.fab.launches = [{ l with id := s.fab.nextLaunch.get 0 p + 1, digest := d, phase := .loading }] ∧
         t.sec = { s.sec with logs := s.sec.logs.set p ((s.sec.log p).enter d) }) ∧
       (∀ c ∈ l.clusters, (t.fab.cluster c).phase = .loading ∧ (t.fab.cluster c).launch = s.fab.nextLaunch.get 0 p + 1) ∧
       (∀ c, c ∉ l.clusters → t.fab.cluster c = s.fab.cluster c)) ∧
  (∀ (s : State) c l, s.fab.phase = .running → c < 800 → s.fab.launchOn c = some l → (s.fab.cluster c).phase = .loading →
     s.fab.halts c = false → (∀ p ∈ s.fab.resetWaits, p < 16) →
     let held := (s.fab.cluster c).imemImage = some (l.digest, l.partition)
     (held ∨ ((W.of s).access (fun d => s.fab.clusterTag c d false) l.image (64 + 8 * l.count) false).2 = .ok) →
     ∃ t, exec (.imageLoadComplete c) s = .next t ∧ DeviceOnly s t ∧
       (let n := t.fab.cluster c
        n.phase = .running ∧ n.launch = l.id ∧ n.pwidth = s.fab.cappedWidth l.partition c ∧ n.startCycle = s.fab.cycle ∧
        (held → n.imem = (s.fab.cluster c).imem) ∧
        (¬held →
          n.imem = (List.range l.count).map (fun i => BitVec.ofNat 64 ((W.of s).loadNat l.partition (l.image + 64 + 8 * i) 8))) ∧
        (∀ i, n.counters.get 0 i = 0) ∧ n.ops = [] ∧ n.streams = [] ∧
        ∀ k, k < 8 → (n.strand k).st = (if bit l.mask k then .running else .idle) ∧
          (n.strand k).pc = BitVec.ofNat 16 (l.entries.getD k 0) ∧
          (∀ i, i < 16 → (n.strand k).sreg (16 + i) = l.args.getD i 0 ∧ (n.strand k).sreg i = 0) ∧
          (n.strand k).flags = 0 ∧ (n.strand k).waitLimit = BitVec.ofNat 64 (s.fab.eff 0x4011 (l.partition + 1))) ∧
       ∀ d, d ≠ c → t.fab.cluster d = s.fab.cluster d) ∧
  (∀ (s : State) p l l0, s.fab.phase = .running → s.fab.launches = [l] → l.partition = p → p < 16 → (∀ c ∈ l.clusters, c < 800) →
     (l.phase = .loading ∨ l.phase = .running ∨ l.phase = .aborting) → l.cancels = [] →
     (∀ c ∈ l.clusters, s.fab.finished c = true ∧ s.fab.launchOn c = some l) →
     (s.fab.vf p).ordered = [] → (s.fab.vf p).queue.length < 4096 →
     (s.fab.vf p).openCmds.find? (isOpen 0x01 l.tag l.serial) = some (l0, false) →
     ∃ t, exec (.launchEnd p l.id) s = .next t ∧ DeviceOnly s t ∧ t.fab.launches = [] ∧
       (∀ c ∈ l.clusters, (t.fab.cluster c).phase = .idle) ∧ (∀ c, c ∉ l.clusters → t.fab.cluster c = s.fab.cluster c) ∧
       (t.fab.vf p).openCmds = removeFirst (isOpen 0x01 l.tag l.serial) (s.fab.vf p).openCmds ∧
       (t.fab.vf p).queue = (s.fab.vf p).queue ++
         [⟨0x01, if l.fault.isSome then 0x01 else 0, l.tag, Claims.launchDetail l⟩]) ∧
  (∀ (s : State) c l k x, s.fab.phase = .running → c < 800 → (s.fab.cluster c).phase = .terminating →
     s.fab.launches = [l] → s.fab.launchOn c = some l → (s.fab.cluster c).fatal = some (k, x) →
     (∀ d ∈ l.clusters, d < 800 ∧ s.fab.clusterOwner d < 16) →
     (l.fault = none → ∃ t, exec (.terminationReport c) s = .next t ∧ DeviceOnly s t ∧
       t.fab.launches.map (fun m => (m.fault, m.phase)) = [(some (c, k, x), .aborting)] ∧
       t.fab.dget 0x4010 6 = min (s.fab.dget 0x4010 6 + 1) (2 ^ 32 - 1) ∧ (t.fab.cluster c).phase = .terminating ∧
       (l.phase ≠ .aborting → ∀ d ∈ l.clusters,
         (s.fab.cluster d).phase = .loading ∨ ((s.fab.cluster d).phase = .running ∧ s.fab.finished d = false) →
         (t.fab.cluster d).phase = .terminating)) ∧
     (l.fault.isSome = true → exec (.terminationReport c) s = .next s)) ∧
  (∀ (s : State) c l, s.fab.phase = .running → c < 800 → (s.fab.cluster c).phase = .terminating →
     s.fab.quiet c = true → s.fab.halts c = false → (∀ x ∈ s.fab.colls, ∀ i a b, x.launcher ≠ .op c i a b) →
     s.fab.launches = [l] → s.fab.launchOn c = some l → l.partition < 16 → (l.fault.isSome = true ∨ l.clusters = [c]) →
     ∃ t, exec (.clusterTerminationDone c) s = .next t ∧ DeviceOnly s t ∧
       (t.fab.cluster c).phase = (if (s.fab.cluster c).nibBad then .awaitReset else .idle) ∧
       (∀ k, (t.fab.strand c k).st = .idle) ∧ (∀ d, d ≠ c → t.fab.cluster d = s.fab.cluster d) ∧
       t.fab.launches.map (fun m => (m.clusters, m.fault)) =
         [(l.clusters.filter (· != c),
           if l.fault.isSome then l.fault else (s.fab.cluster c).fatal.map (fun e => (c, e.1, e.2)))])

/-! ### Setup, sequences, folios, versions -/

/-- The command of an entry is open and its completion will find room and free no counter entry (R393, R395). -/
def Sys2Proof.Claims.isOpen (s : State) (e : Entry) : Bool :=
  let v := s.fab.vf e.partition
  Nat.blt v.queue.length 4096 && v.ordered.isEmpty &&
  v.openCmds.find? (Machine.isOpen e.opcode e.tag e.serial) == some (e, false)

/-- An open command completed: its completion is the newest of its function's queue; every other function is as it was. -/
structure Sys2Proof.Claims.Answered (s t : State) (e : Entry) (status detail : Nat) : Prop where
  queue : (t.fab.vf e.partition).queue = (s.fab.vf e.partition).queue ++ [⟨e.opcode, status, e.tag, detail⟩]
  fetched : (t.fab.vf e.partition).fetched = (s.fab.vf e.partition).fetched
  openCmds : (t.fab.vf e.partition).openCmds =
    removeFirst (Machine.isOpen e.opcode e.tag e.serial) (s.fab.vf e.partition).openCmds
  others : ∀ q, q ≠ e.partition → t.fab.vf q = s.fab.vf q
  sec : t.sec = s.sec

/-- A command that was taken and stays open: its entry is no longer waiting and no completion was queued. -/
structure Sys2Proof.Claims.Taken (s t : State) (e : Entry) : Prop where
  vf : t.fab.vf e.partition = { s.fab.vf e.partition with fetched := (s.fab.vf e.partition).fetched.tail }
  others : ∀ q, q ≠ e.partition → t.fab.vf q = s.fab.vf q
  sec : t.sec = s.sec

/-- Every byte outside the ranges listed reads under partition p as it did. -/
def Sys2Proof.Claims.MemKept (s t : State) (p : Nat) (l : List (Nat × Nat)) : Prop :=
  ∀ x, (∀ r ∈ l, x < r.1 ∨ r.1 + r.2 ≤ x) → (W.of t).load p x = (W.of s).load p x

/-- Two ranges share no byte. -/
def Sys2Proof.Claims.apart (a n b m : Nat) : Prop := a + n ≤ b ∨ b + m ≤ a

/-- The four SETUP_WRITE rows: constructor, kind code, entries of the table, and the table in a bank (R215, R302, R365, R366). -/
def Sys2Proof.Claims.setupRows : List ((Entry → BitVec 512 → Instr) × Nat × Nat × (Bank → Tbl (BitVec 512))) :=
  [(.setupWriteStream, 0, 1024, Bank.streams), (.setupWriteTree, 1, 256, Bank.trees),
   (.setupWriteEndpoint, 2, 4096, Bank.endpoints), (.setupWriteExport, 3, 256, Bank.exportTbl)]

/-- SETUP_WRITE writes one entry of its kind's table in the shadow bank and leaves the live one: BAD_COMMAND for an index past the
table, OUT_OF_MAP for a source outside the live host windows, BAD_DESCRIPTOR for a bad stream descriptor (R26, R215, R388, R394).

The drain of a commit (R26 to R29). SETUP_COMMIT with no drain running reads the tables its trees name, where
it can, and makes the accepted entries of the shadow live at once, turns the bank bit and stays open; while one runs it is BUSY. COMMIT_BANK_FREED, with no transaction of the old bank left,
ends the drain: the scope's generation (0xB010) rises by 1 and the command completes with it, DONE or BAD_DESCRIPTOR; the route
scope counts its own (0x1010:03). DRAIN_LIMIT_EXPIRY drops the transactions of the old bank and counts them (0x1010:04), and the
ports go on.
Choices of the model it follows: what lies outside the package (log 9), refused entries of a commit (log 51), what a
drain of setup state waits for (log 54), cascade details (log 71). -/
def Obligations.SetupIsWrittenAndCommitted : Prop :=
  (∀ (s : State) (e : Entry) (d : BitVec 512), ∀ row ∈ Claims.setupRows, let p := e.partition
     let i := word e 0 / 65536 % 65536
     let inside := s.fab.inHostWindow p (word e 1) 64 false
     Claims.front s e 0x08 = true → word e 0 % 8 = row.2.1 →
     (row.2.2.1 ≤ i → ∃ t, exec (row.1 e d) s = .next t ∧ Claims.Completed s t e 0x03 0 ∧ DeviceOnly s t ∧
       t.fab.scopes = s.fab.scopes) ∧
     (i < row.2.2.1 → inside = false → ∃ t, exec (row.1 e d) s = .next t ∧ Claims.Completed s t e 0x04 0 ∧ DeviceOnly s t ∧
       t.fab.scopes = s.fab.scopes) ∧
     (i < row.2.2.1 → inside = true → row.2.1 = 0 → s.fab.streamOk p d = false →
       ∃ t, exec (row.1 e d) s = .next t ∧ Claims.Completed s t e 0x0C 0 ∧ DeviceOnly s t ∧ t.fab.scopes = s.fab.scopes) ∧
     (i < row.2.2.1 → inside = true → (row.2.1 = 0 → s.fab.streamOk p d = true) →
       ∃ t, exec (row.1 e d) s = .next t ∧ Claims.Completed s t e 0 0 ∧ DeviceOnly s t ∧
         (∀ j, (row.2.2.2 (t.fab.scope p).shadow).find? j =
           if j = i then some d else (row.2.2.2 (s.fab.scope p).shadow).find? j) ∧
         (∀ other ∈ Claims.setupRows, other.2.1 ≠ row.2.1 →
           other.2.2.2 (t.fab.scope p).shadow = other.2.2.2 (s.fab.scope p).shadow) ∧
         (t.fab.scope p).live = (s.fab.scope p).live ∧ ∀ q, q ≠ p → t.fab.scope q = s.fab.scope q)) ∧
  ((∀ (s : State) (e : Entry), let p := e.partition
     let sc := s.fab.scope p
     let g := { W.of s with fab := s.fab.onVf p (fun v => { v with fetched := v.fetched.tail }) }
     let r := g.readMembers p
     let b := r.1.accepted p sc.shadow
     Claims.front s e 0x09 = true →
     (sc.draining = true → ∃ t, exec (.setupCommit e) s = .next t ∧ Claims.Completed s t e 0x0B 0 ∧ t.mem = s.mem ∧
       t.fab.scopes = s.fab.scopes) ∧
     (sc.draining = false → s.fab.colls = [] → r.2 = none → r.1.waits = false → r.1.faults = [] →
       ∃ t, exec (.setupCommit e) s = .next t ∧ Claims.Taken s t e ∧ t.mem = s.mem ∧
       t.fab.scope p = { sc with
         live := b, shadow := b, bank := !sc.bank, draining := true, commit := some (e, !b.whole sc.shadow), again := false,
         drainEnds := s.fab.cycle + nsCycles (s.fab.dget 0x1010 0x40) } ∧ ∀ q, q ≠ p → t.fab.scope q = s.fab.scope q)) ∧
   (∀ (s : State) (e : Entry) bad, let p := e.partition
     let g := (s.fab.dget 0xB010 (p + 1) + 1) % 2 ^ 32
     s.fab.phase = .running → p < 16 → (s.fab.scope p).draining = true → s.fab.oldBank p = [] → (s.fab.scope p).again = false →
     (s.fab.scope p).commit = some (e, bad) → Claims.isOpen s e = true →
     ∃ t, exec (.commitBankFreed p) s = .next t ∧ t.mem = s.mem ∧ Claims.Answered s t e (if bad then 0x0C else 0) g ∧
       t.fab.scope p = { s.fab.scope p with draining := false, commit := none } ∧ t.fab.dget 0xB010 (p + 1) = g) ∧
   (∀ (s : State), s.fab.phase = .running → s.fab.routeDraining = true → s.fab.oldBank 16 = [] →
     s.fab.routes = s.fab.dget 0x1010 2 →
     ∃ t, exec (.commitBankFreed 16) s = .next t ∧ DeviceOnly s t ∧ t.fab.routeDraining = false ∧ t.fab.routes = s.fab.routes ∧
       t.fab.dget 0x1010 3 = (s.fab.dget 0x1010 3 + 1) % 2 ^ 32) ∧
   (∀ (s : State) p x, s.fab.phase = .running → p < 16 → (s.fab.scope p).draining = true → s.fab.oldBank p = [x] →
     (s.fab.scope p).again = false → (s.fab.scope p).commit = none → (∃ c, x.origin = .void c) →
     ∃ u, exec (.drainLimitExpiry p) s = .next (Claims.flowed u) ∧ DeviceOnly s u ∧
       u.fab.txns = s.fab.txns.filter (fun u => u.id != x.id) ∧
       (u.fab.scope p).draining = false ∧ u.fab.dget 0x1010 4 = min (s.fab.dget 0x1010 4 + 1) (2 ^ 32 - 1)))

/-- No line of a range of package memory holds an error (R196, R206). -/
def Sys2Proof.Claims.sound (s : State) (a n : Nat) : Bool :=
  (linesOf a n).all (fun l => !s.fab.badLines.contains l && !s.fab.softLines.contains l)

/-- A record of a partition's table can be reached: its 64 bytes lie in the partition's windows, no line of them holds an error,
no checkpoint has to read it first, and nothing holds the access back (R22, R25, R206, R251, R439). -/
def Sys2Proof.Claims.readable (s : State) (p a : Nat) : Bool :=
  s.fab.inWindows p a 64 && Claims.sound s a 64 && (s.fab.noivosOf p).running.isNone && s.fab.calm

/-- SEQ_OPEN opens a free sequence, or an expired one with no folio left, with the seed of W1; SEQ_CLOSE frees an open or expired one
with no folio and no batch. What each refuses it refuses with SEQ_STATE or FOLIO_BUSY, an index past the table with BAD_COMMAND,
and no record changes (R259, R260).

FOLIO_ALLOC writes a folio entry, hot or warm at the address of W2, for an open sequence whose Folio count it raises; FOLIO_FREE
frees a folio that no move and no batch holds, and its sequence's counts fall. No data moves (R253, R255, R259, R260).
Choices of the model it follows: operand masks and n = 0 (log 50), moves and expiry (log 59), accesses made at once (log
93). -/
def Obligations.SequencesAndFoliosAreOpenedAndFreed : Prop :=
  (∀ (s : State) (e : Entry), let p := e.partition
     let i := word e 0 % 65536
     let a := s.fab.seqAddr p i
     let v := (W.of s).seq p i
     let kept := fun (t : State) (code : Nat) => Claims.Completed s t e code 0 ∧ t.mem = s.mem
     (Claims.front s e 0x10 = true →
       ((s.fab.seqTable p).2 ≤ i → ∃ t, exec (.seqOpen e) s = .next t ∧ kept t 0x03) ∧
       (i < (s.fab.seqTable p).2 → Claims.readable s p a = true →
         (seqState v = 0 ∨ seqState v = 2 ∧ seqFolios v = 0 →
           ∃ t, exec (.seqOpen e) s = .next t ∧ Claims.Completed s t e 0 0 ∧ Claims.MemKept s t p [(a, 64)] ∧
             (W.of t).seq p i = word e 1 % 2 ^ 64 * 2 ^ 448 + 2 ^ 341) ∧
         (¬ (seqState v = 0 ∨ seqState v = 2 ∧ seqFolios v = 0) → ∃ t, exec (.seqOpen e) s = .next t ∧ kept t 0x10))) ∧
     (Claims.front s e 0x11 = true → i < (s.fab.seqTable p).2 → Claims.readable s p a = true →
       ((seqState v = 1 ∨ seqState v = 2) → seqFolios v = 0 → seqAttach v = 0 →
         ∃ t, exec (.seqClose e) s = .next t ∧ Claims.Completed s t e 0 0 ∧ Claims.MemKept s t p [(a, 64)] ∧
           (W.of t).seq p i = setSeqState v 0) ∧
       ((seqState v = 0 ∨ seqState v = 3 ∨ seqFolios v ≠ 0) → ∃ t, exec (.seqClose e) s = .next t ∧ kept t 0x10) ∧
       ((seqState v = 1 ∨ seqState v = 2) → seqFolios v = 0 → seqAttach v ≠ 0 →
         ∃ t, exec (.seqClose e) s = .next t ∧ kept t 0x14))) ∧
  (∀ (s : State) (e : Entry), let p := e.partition
     let i := word e 0 % 2 ^ 32
     let fa := s.fab.folioAddr p i
     let v := (W.of s).folio p i
     i < (s.fab.folioTable p).2 → Claims.readable s p fa = true →
     (let q := word e 1 % 65536
       let sa := s.fab.seqAddr p q
       let r := (W.of s).seq p q
       let home := word e 1 / 2 ^ 32 % 8
       let cls := word e 1 / 2 ^ 35 % 8
       let tier := word e 1 / 2 ^ 38 % 8
       let size := s.fab.entrySize p cls
       Claims.front s e 0x12 = true → q < (s.fab.seqTable p).2 → (tier = 1 ∨ tier = 2) → size ≠ 0 → word e 2 % 64 = 0 →
       word e 2 < 2 ^ 64 → Claims.readable s p sa = true → Claims.apart fa 64 sa 64 →
       (seqState r = 1 → folioTier v = 0 → s.fab.folioRange p home tier (word e 2) (64 * size) = true →
         ∃ t, exec (.folioAlloc e) s = .next t ∧ Claims.Completed s t e 0 0 ∧ Claims.MemKept s t p [(fa, 64), (sa, 64)] ∧
           (let x := (W.of t).folio p i
            folioPlace x = word e 2 ∧ folioExpiry x = 0 ∧ folioSeq x = q ∧ folioIndex x = word e 1 / 65536 % 65536 ∧
            folioWindow x = 0 ∧ folioHome x = home ∧ folioClass x = cls ∧ folioTier x = tier) ∧
           (W.of t).seq p q = setFolios r (seqFolios r + 1)) ∧
       (seqState r ≠ 1 → ∃ t, exec (.folioAlloc e) s = .next t ∧ Claims.Completed s t e 0x10 0 ∧ t.mem = s.mem) ∧
       (seqState r = 1 → folioTier v = 5 → ∃ t, exec (.folioAlloc e) s = .next t ∧ Claims.Completed s t e 0x14 0 ∧ t.mem = s.mem) ∧
       (seqState r = 1 → folioTier v ≠ 0 → folioTier v ≠ 5 →
         ∃ t, exec (.folioAlloc e) s = .next t ∧ Claims.Completed s t e 0x13 0 ∧ t.mem = s.mem)) ∧
     (let q := folioSeq v
       let sa := s.fab.seqAddr p q
       let r := (W.of s).seq p q
       Claims.front s e 0x16 = true →
       (folioTier v = 0 → ∃ t, exec (.folioFree e) s = .next t ∧ Claims.Completed s t e 0x13 0 ∧ t.mem = s.mem) ∧
       (folioTier v ≠ 0 → folioTier v ≠ 7 → Claims.readable s p sa = true → Claims.apart fa 64 sa 64 →
         (folioTier v = 5 ∨ seqAttach r ≠ 0 →
           ∃ t, exec (.folioFree e) s = .next t ∧ Claims.Completed s t e 0x14 0 ∧ t.mem = s.mem) ∧
         (folioTier v ≠ 5 → seqAttach r = 0 →
           ∃ t, exec (.folioFree e) s = .next t ∧ Claims.Completed s t e 0 0 ∧ Claims.MemKept s t p [(fa, 64), (sa, 64)] ∧
             (let x := (W.of t).folio p i
              folioTier x = 0 ∧ folioExpiry x = 0 ∧ folioPlace x = folioPlace v ∧ folioSeq x = q) ∧
             (W.of t).seq p q = (if folioTier v = 3 ∨ folioTier v = 4
               then setParked (setFolios r (seqFolios r - 1)) (seqParked r - 1) else setFolios r (seqFolios r - 1))))))

/-- The commands that move a folio. -/
def Sys2Proof.Claims.moveRows : List ((Entry → Instr) × Nat) := [(.folioMove, 0x13), (.folioPark, 0x14), (.folioUnpark, 0x15)]

/-- FOLIO_MOVE, FOLIO_PARK and FOLIO_UNPARK: refused with the first status of R260 that holds and nothing changed, or started (R261):
the folio's tier reads moving, Moving folios of its sequence rises, and the Ductus of its home base die carries the move; where
that Ductus already moves a folio, the command waits there.

The end of a move (R261, R262): its bytes lie in the new place, the folio reads its new tier, place and expiry, its sequence's
Moving folios falls and its command completes DONE; with the endpoint down the folio keeps its old tier and place and the command
completes ENDPOINT_DOWN.

A parked folio at its expiry (R264): its tier and its sequence's state read expired, the host is notified of the sequence, the
folio and the time, and the count of expired folios (0x7052) rises. One before its expiry, or not parked, is left alone.
Choices of the model it follows: what lies outside the package (log 9), operand masks and n = 0 (log 50), moves and
expiry (log 59), accesses made at once (log 93). -/
def Obligations.FoliosMoveAndExpire : Prop :=
  (∀ (s : State) (e : Entry), ∀ row ∈ Claims.moveRows, let p := e.partition
     let i := word e 0 % 2 ^ 32
     let fa := s.fab.folioAddr p i
     let v := (W.of s).folio p i
     let q := folioSeq v
     let sa := s.fab.seqAddr p q
     let r := (W.of s).seq p q
     let d := s.fab.ductusOf (folioHome v)
     Claims.front s e row.2 = true →
     (badMove e s.fab = true → ∃ t, exec (row.1 e) s = .next t ∧ Claims.Completed s t e 0x03 0 ∧ t.mem = s.mem) ∧
     (badMove e s.fab = false → Claims.readable s p fa = true → Claims.readable s p sa = true → folioTier v ≠ 0 → folioTier v ≠ 7 →
       Claims.apart fa 64 sa 64 →
       (∀ st, s.fab.moveCheck e v r = some st → ∃ t, exec (row.1 e) s = .next t ∧ Claims.Completed s t e st.code 0 ∧
         t.mem = s.mem) ∧
       (s.fab.moveCheck e v r = none → d.move ≠ none → ∃ t, exec (row.1 e) s = .next t ∧ Claims.Taken s t e ∧ t.mem = s.mem ∧
         t.fab.ductusOf (folioHome v) = { d with moves := d.moves ++ [e] }) ∧
       (s.fab.moveCheck e v r = none → d.move = none → ∃ t, exec (row.1 e) s = .next t ∧ Claims.Taken s t e ∧
         Claims.MemKept s t p [(fa, 64), (sa, 64)] ∧ (W.of t).folio p i = setTier v 5 ∧
         seqMoving ((W.of t).seq p q) = (seqMoving r + 1) % 16 ∧
         seqParked ((W.of t).seq p q) = (if folioTier v = 3 ∨ folioTier v = 4 then seqParked r - 1 else seqParked r) ∧
         t.fab.ductusOf (folioHome v) = { d with move := some (s.fab.moveOf e v r) }))) ∧
  (∀ (s : State) b (m : FolioMove) remote, let p := m.entry.partition
     let fa := s.fab.folioAddr p m.folio
     let sa := s.fab.seqAddr p m.seq
     let v := (W.of s).folio p m.folio
     let r := (W.of s).seq p m.seq
     let n := if m.newTier = 1 ∨ m.newTier = 2 then m.bytes else 0
     s.fab.phase = .running → b < 8 → s.fab.ductusOf b = { Ductus.idle with move := some m } →
     (∀ d m', d < 8 → d ≠ b → (s.fab.ductusOf d).move = some m' → m'.entry.partition ≠ p ∨ m'.folio ≠ m.folio) →
     Claims.isOpen s m.entry = true → Claims.readable s p fa = true → Claims.readable s p sa = true → Claims.apart fa 64 sa 64 →
     Claims.apart m.newAddr n fa 64 → Claims.apart m.newAddr n sa 64 → s.fab.badIn m.newAddr n = none → s.fab.softLines = [] →
     m.newAddr < 2 ^ 64 → m.newTier < 5 → 1 ≤ m.newTier →
     (((W.of s).moveReach m).2 = .ok → ∃ t, exec (.folioMoveComplete p m.folio remote .done) s = .next t ∧ Claims.Answered s t m.entry 0 0 ∧
       Claims.MemKept s t p [(m.newAddr, n), (fa, 64), (sa, 64)] ∧
       (W.of t).loads p m.newAddr n = ((W.of s).moveBytes m remote).take n ∧
       (let x := (W.of t).folio p m.folio
        folioTier x = m.newTier ∧ folioPlace x = m.newAddr ∧
        folioWindow x = (if m.newTier = 4 then m.peerWindow % 65536 else 0) ∧
        folioExpiry x = (if 3 ≤ m.newTier then (s.fab.now + m.ttl * 10 ^ 9) % 2 ^ 64 else 0)) ∧
       seqMoving ((W.of t).seq p m.seq) = seqMoving r - 1 ∧ (t.fab.ductusOf b).move = none) ∧
     (∃ t, exec (.folioMoveComplete p m.folio remote .endpointDown) s = .next t ∧ Claims.Answered s t m.entry 0x18 0 ∧
       Claims.MemKept s t p [(fa, 64), (sa, 64)] ∧ (W.of t).folio p m.folio = setTier v m.oldTier ∧
       seqMoving ((W.of t).seq p m.seq) = seqMoving r - 1 ∧ (t.fab.ductusOf b).move = none)) ∧
  (∀ (s : State) p i, let fa := s.fab.folioAddr p i
     let v := (W.of s).folio p i
     let q := folioSeq v
     let sa := s.fab.seqAddr p q
     let r := (W.of s).seq p q
     s.fab.phase = .running → p < 16 → i < (s.fab.folioTable p).2 → Claims.readable s p fa = true →
     (¬ ((folioTier v = 3 ∨ folioTier v = 4) ∧ folioExpiry v ≤ s.fab.now) →
       ∃ t, exec (.folioExpiry p i) s = .next t ∧ DeviceOnly s t ∧ t.fab.vfs = s.fab.vfs ∧
         t.fab.dget 0x7052 (p + 1) = s.fab.dget 0x7052 (p + 1)) ∧
     ((folioTier v = 3 ∨ folioTier v = 4) → folioExpiry v ≤ s.fab.now → Claims.readable s p sa = true → Claims.apart fa 64 sa 64 →
       (s.fab.vf p).queue.length < 4096 →
       ∃ t, exec (.folioExpiry p i) s = .next t ∧ Claims.MemKept s t p [(fa, 64), (sa, 64)] ∧ t.sec = s.sec ∧
         folioTier ((W.of t).folio p i) = 6 ∧ (W.of t).seq p q = setSeqState (setParked r (seqParked r - 1)) 2 ∧
         (t.fab.vf p).queue = (s.fab.vf p).queue ++ [⟨0xFF, 0x16, 0, q * 2 ^ 176 + i * 2 ^ 128 + folioExpiry v⟩] ∧
         t.fab.dget 0x7052 (p + 1) = min (s.fab.dget 0x7052 (p + 1) + 1) (2 ^ 32 - 1)))

/-- The five fields of a version record that a command may leave alone: every other record of every partition is as it was. -/
def Sys2Proof.Claims.OtherVersions (s t : State) (p r : Nat) : Prop :=
  ∀ q k, q < 16 → k < 8 → (q ≠ p ∨ k ≠ r) → t.fab.version q k = s.fab.version q k

/-- Weight versions (R345 to R352). VERSION_OPEN gives the first Free record the version and its areas, Loading; VERSION_SWITCH makes
a complete Loading record Current and retires the one before while a batch holds it; VERSION_FREE of a Loading record with no
job frees it. A version that does not rise is BAD_DESCRIPTOR, one with jobs outstanding VERSION_INCOMPLETE, an unknown one
VERSION_STATE.

BATCH_ADMIT of a running partition writes the version block of the Current version at W0, attaches every sequence of its list
to it, and completes with the version, which the batch then holds; the first sequence that may not join ends it with that
check's status and nothing changed. BATCH_END lets the sequences and the version go; with no such batch it is NOT_FOUND
(R258, R350, R351, R395, R474).
Choices of the model it follows: what lies outside the package (log 9), batch checks (log 60), accesses made at once
(log 93). -/
def Obligations.VersionsAndBatches : Prop :=
  (∀ (s : State) (e : Entry), let p := e.partition
     let v := word e 0 % 2 ^ 32
     let free := VersionRec.free
     p < 16 →
     (∀ areas, Claims.front s e 0x30 = true → s.fab.inHostWindow p (word e 1) 128 false = true →
       (v ≤ s.fab.versionTop.get 0 p → ∃ t, exec (.versionOpen e areas) s = .next t ∧ Claims.Completed s t e 0x0C 0 ∧
         DeviceOnly s t ∧ t.fab.versions = s.fab.versions) ∧
       (∀ r, s.fab.versionTop.get 0 p < v → areas.length = 8 → usedAreas areas ≠ [] →
         (∀ a ∈ usedAreas areas, a.1 % 64 = 0 ∧ a.2 % 64 = 0 ∧ s.fab.inWindows p a.1 a.2 = true) → disjoint (usedAreas areas) = true →
         (∀ k a b, k < 8 → (s.fab.version p k).state ≠ .free → a ∈ usedAreas areas → b ∈ (s.fab.version p k).areas →
           b.2 ≠ 0 → Claims.apart a.1 a.2 b.1 b.2) →
         r < 8 → (s.fab.version p r).state = .free → (∀ k, k < r → (s.fab.version p k).state ≠ .free) →
         ∃ t, exec (.versionOpen e areas) s = .next t ∧ Claims.Completed s t e 0 0 ∧ DeviceOnly s t ∧
           t.fab.version p r = { free with version := v, state := .loading, areas := areas } ∧ Claims.OtherVersions s t p r ∧
           t.fab.versionTop.get 0 p = v)) ∧
     (Claims.front s e 0x31 = true → v ≠ 0 →
       (s.fab.versionNo p v = none → ∃ t, exec (.versionSwitch e) s = .next t ∧ Claims.Completed s t e 0x1C 0 ∧ DeviceOnly s t ∧
         t.fab.versions = s.fab.versions) ∧
       (∀ r, s.fab.versionNo p v = some r → (s.fab.version p r).state = .loading → 0 < (s.fab.version p r).outstanding →
         ∃ t, exec (.versionSwitch e) s = .next t ∧ Claims.Completed s t e 0x1D 0 ∧ DeviceOnly s t ∧
           t.fab.versions = s.fab.versions) ∧
       (∀ r c, s.fab.versionNo p v = some r → (s.fab.version p r).state = .loading → (s.fab.version p r).outstanding = 0 →
         (s.fab.version p r).failed = 0 → s.fab.currentNo p = some c → (s.fab.version p c).holds ≠ 0 →
         (∀ k, k < 8 → (s.fab.version p k).state = .current → k = c) →
         ∃ t, exec (.versionSwitch e) s = .next t ∧ Claims.Completed s t e 0 0 ∧ DeviceOnly s t ∧
           t.fab.version p r = { s.fab.version p r with state := .current } ∧
           t.fab.version p c = { s.fab.version p c with state := .retiring } ∧
           t.fab.dget 0x7061 (p + 1) = (s.fab.version p r).version)) ∧
     (Claims.front s e 0x32 = true →
       (s.fab.versionNo p v = none → ∃ t, exec (.versionFree e) s = .next t ∧ Claims.Completed s t e 0x1C 0 ∧ t.mem = s.mem ∧
         t.fab.versions = s.fab.versions) ∧
       (∀ r, s.fab.versionNo p v = some r → (s.fab.version p r).state = .loading → (s.fab.version p r).outstanding = 0 →
         (s.fab.version p r).freeing = [] → s.fab.ductus = [] →
         ∃ t, exec (.versionFree e) s = .next t ∧ Claims.Completed s t e 0 0 ∧ t.mem = s.mem ∧
           t.fab.version p r = free ∧ Claims.OtherVersions s t p r))) ∧
  (∀ (s : State) (e : Entry), let p := e.partition
     (∀ seqs r, let n := word e 2 % 8192
       let l := seqs.map (· % 65536)
       let v := s.fab.version p r
       let a := word e 0
       let g := { W.of s with fab := s.fab.onVf p (fun v => { v with fetched := v.fetched.tail }) }
       Claims.front s e 0x03 = true → s.fab.dget 0xB001 (p + 1) = 2 → 1 ≤ n → n ≤ 4096 → seqs.length = n →
       s.fab.currentNo p = some r → v.holds < 65535 → v.version < 2 ^ 32 → s.fab.inHostWindow p (word e 1) (2 * n) false = true →
       (∀ i ∈ l, i < (s.fab.seqTable p).2 → Claims.readable s p (s.fab.seqAddr p i) = true) →
       (∀ st k i, (W.admissionList p v.version 0 l g).2 = some (st, k, i) →
         ∃ t, exec (.batchAdmit e seqs) s = .next t ∧ 
           Claims.Completed s t e st.code (if st = .outOfMap ∨ st = .memUncorrectable then 0 else k * 2 ^ 32 + i) ∧ t.mem = s.mem ∧
           t.fab.batches = s.fab.batches) ∧
       ((W.admissionList p v.version 0 l g).2 = none → s.fab.inWindows p a 128 = true → Claims.sound s a 128 = true →
         (∀ i ∈ l, Claims.apart a 128 (s.fab.seqAddr p i) 64) →
         ∃ t, exec (.batchAdmit e seqs) s = .next t ∧ Claims.Completed s t e 0 v.version ∧
           Claims.MemKept s t p ((a, 128) :: l.map (fun i => (s.fab.seqAddr p i, 64))) ∧
           (W.of t).loads p a 128 = versionBlock v ∧ t.fab.batches = s.fab.batches ++ [⟨p, e.tag, v.version, l⟩] ∧
           t.fab.version p r = { v with holds := v.holds + 1 } ∧
           ∀ i ∈ l, seqVersion ((W.of t).seq p i) = v.version ∧
             seqAttach ((W.of t).seq p i) = (seqAttach ((W.of s).seq p i) + l.count i) % 65536)) ∧
     (∀ seqs, Claims.front s e 0x03 = true → s.fab.dget 0xB001 (p + 1) ≠ 2 →
       ∃ t, exec (.batchAdmit e seqs) s = .next t ∧ Claims.Completed s t e 0x0B 0 ∧ t.mem = s.mem) ∧
     (Claims.front s e 0x04 = true →
       (s.fab.batches.find? (fun b => b.partition == p && b.tag == word e 0 % 2 ^ 32) = none →
         ∃ t, exec (.batchEnd e) s = .next t ∧ Claims.Completed s t e 0x0D 0 ∧ t.mem = s.mem ∧ t.fab.batches = s.fab.batches) ∧
       (∀ b r, s.fab.batches.find? (fun b => b.partition == p && b.tag == word e 0 % 2 ^ 32) = some b →
         (∀ i ∈ b.seqs, i < (s.fab.seqTable p).2 ∧ Claims.readable s p (s.fab.seqAddr p i) = true) → s.fab.versionNo p b.version = some r →
         (s.fab.version p r).state = .current →
         ∃ t, exec (.batchEnd e) s = .next t ∧ Claims.Completed s t e 0 0 ∧
           Claims.MemKept s t p (b.seqs.map (fun i => (s.fab.seqAddr p i, 64))) ∧
           t.fab.batches = removeFirst (· == b) s.fab.batches ∧
           t.fab.version p r = { s.fab.version p r with holds := (s.fab.version p r).holds - 1 } ∧
           ∀ i ∈ b.seqs, seqAttach ((W.of t).seq p i) = seqAttach ((W.of s).seq p i) - b.seqs.count i)))

/-! ### The Ductus -/

/-- The requests of a queue pair, in order: those on the wire, then those that wait (R367). -/
def Sys2Proof.Claims.requests (s : State) (p i : Nat) : List (Nat × Nat × Nat × Option (List Byte)) :=
  ((s.fab.qp p i).sent ++ (s.fab.qp p i).waiting).map (fun r => (r.engine, r.offset, r.length, r.write))

/-- DUCTUS_JOB: a descriptor that passes the checks of R340 joins its partition's queue at the base die it names, counted in its
version; one that does not completes with the first status of the table that applies, and nothing changes (R332, R338, R340).

A job at its Ductus (R332, R333, R339, R340, R344). DUCTUS_JOB_START makes the head of a partition's queue its active job, a
LOAD's read request joining those of its endpoint's queue pair, by the engine of the job's base die; DUCTUS_TURN outside strict isolation writes the next up to 4,096 bytes of the client whose turn it is, in
address order, where its reads and its write can be made, and passes the turn; DUCTUS_JOB_COMPLETE of a job that has written everything completes it DONE and counts it (0x7064), and that of a LOAD
whose endpoint is down ends it 0x0A and counts it failed (0x7065).
Choices of the model it follows: Ductus statuses (log 62), Ductus turns (log 63), RDMA packets (log 64), accesses made
at once (log 93). -/
def Obligations.DuctusJobsAreQueuedAndRun : Prop :=
  (∀ (s : State) (e : Entry), let p := e.partition
     let a := word e 0
     let d := BitVec.ofNat 512 ((W.of s).loadNat p a 64)
     Claims.front s e 0x33 = true →
     (a % 64 ≠ 0 → ∃ t, exec (.ductusJob e) s = .next t ∧ Claims.Completed s t e 0x03 0 ∧ t.mem = s.mem ∧
       t.fab.ductus = s.fab.ductus) ∧
     (a % 64 = 0 → s.fab.inWindows p a 64 = false → ∃ t, exec (.ductusJob e) s = .next t ∧ Claims.Completed s t e 0x04 0 ∧
       t.mem = s.mem ∧ t.fab.ductus = s.fab.ductus) ∧
     (a % 64 = 0 → Claims.readable s p a = true →
       (∀ st, s.fab.jobCheck p d = some st → ∃ t, exec (.ductusJob e) s = .next t ∧ Claims.Completed s t e st 0 ∧ t.mem = s.mem ∧
         t.fab.ductus = s.fab.ductus) ∧
       (s.fab.jobCheck p d = none → ∃ t, exec (.ductusJob e) s = .next t ∧ Claims.Taken s t e ∧ t.mem = s.mem ∧
         (let u := s.fab.ductusOf (jobDie d)
          t.fab.ductusOf (jobDie d) = { u with queue := u.queue.set p (u.queue.get [] p ++ [⟨e, p, d, 0, none, none, false, 0⟩]) }) ∧
         ∀ r, jobDest d ≠ 0 → s.fab.versionNo p (jobVersion d) = some r → p < 16 →
           t.fab.version p r = { s.fab.version p r with outstanding := (s.fab.version p r).outstanding + 1 }))) ∧
  ((∀ (s : State) b p j r, let u := s.fab.ductusOf b
     s.fab.phase = .running → s.fab.ewsGraced = false → u.active.find? p = none → u.queue.get [] p = j :: r → j.partition = p →
     jobBytes j.desc ≤ 2 ^ 36 → jobCasts j.desc = false → jobKind j.desc ≠ 3 →
     ∃ t, exec (.ductusJobStart b p) s = .next t ∧ DeviceOnly s t ∧ (t.fab.ductusOf b).active.find? p = some j ∧
       (t.fab.ductusOf b).queue.get [] p = r ∧
       Claims.requests t p (jobEndpoint j.desc) = Claims.requests s p (jobEndpoint j.desc) ++ (if jobKind j.desc = 2
         then [(b, jobSource j.desc, jobLength j.desc, none)] else []) ∧
       ∀ q, q ≠ p → (t.fab.ductusOf b).active.find? q = u.active.find? q ∧ (t.fab.ductusOf b).queue.get [] q = u.queue.get [] q) ∧
   (∀ (s : State) b p (j : Job) remote, let u := s.fab.ductusOf b
     let n := min 4096 (jobBytes j.desc - j.pos)
     let a := jobDest j.desc + j.pos
     let l := (W.of s).produce j n remote
     s.fab.phase = .running → p < 16 → u.client = p → u.active.find? p = some j → j.partition = p → s.fab.jobWorks j = true →
     j.coll = none → s.fab.jobFault j n = none → s.fab.softLines = [] → s.fab.inWindows p a l.length = true →
     s.fab.dget 0xB000 1 ≠ 1 → s.fab.calm = true → ((W.of s).jobAccess b j n).2 = .ok → s.fab.badIn a l.length = none → (s.fab.noivosOf p).running = none →
     ∃ t, exec (.ductusTurn b remote) s = .next t ∧ t.sec = s.sec ∧ Claims.MemKept s t p [(a, l.length)] ∧
       (W.of t).loads p a l.length = l ∧ (t.fab.ductusOf b).client = p + 1 ∧
       ∃ j', (t.fab.ductusOf b).active.find? p = some j' ∧ j'.pos = j.pos + n ∧ j'.desc = j.desc ∧ j'.entry = j.entry) ∧
   (∀ (s : State) b remote, s.fab.phase = .running → s.fab.dget 0xB000 1 ≠ 1 → (s.fab.ductusOf b).active = [] → (s.fab.ductusOf b).move = none →
     exec (.ductusTurn b remote) s = .next s) ∧
   (∀ (s : State) b p (j : Job), let u := s.fab.ductusOf b
     s.fab.phase = .running → b < 8 → u.active.find? p = some j → j.partition = p → j.entry.partition = p → j.entry.opcode = 0x33 →
     Claims.isOpen s j.entry = true → j.cancelled = false → j.broken = none → j.coll = none →
     (∀ r, r < 8 → (s.fab.version p r).freeing = []) →
     (j.pos = jobBytes j.desc → ∃ t, exec (.ductusJobComplete b p .done) s = .next t ∧ t.mem = s.mem ∧
       Claims.Answered s t j.entry 0 0 ∧ (t.fab.ductusOf b).active.find? p = none ∧
       t.fab.dget 0x7064 (b + 1) = min (s.fab.dget 0x7064 (b + 1) + 1) (2 ^ 64 - 1)) ∧
     (jobKind j.desc = 2 → ∃ t, exec (.ductusJobComplete b p .endpointDown) s = .next t ∧ t.mem = s.mem ∧
       Claims.Answered s t j.entry 0x0A 0 ∧ (t.fab.ductusOf b).active.find? p = none ∧
       t.fab.dget 0x7065 (b + 1) = min (s.fab.dget 0x7065 (b + 1) + 1) (2 ^ 32 - 1))))

/-! ### Collectives -/

/-- A flow on which the next message goes out at once: nothing waits and fewer than 512 packets are unacknowledged (R371). -/
def Sys2Proof.Claims.flowFree (s : State) (k : FlowKey) : Prop :=
  (s.fab.flow k).waiting = [] ∧ (s.fab.flow k).unacked.length < 512

/-- The packet of a DATA payload that a free flow sends at once (R358, R370, R371). -/
def Sys2Proof.Claims.sent (s : State) (k : FlowKey) (bytes : List Byte) : NetOut :=
  .kolas (s.fab.flowDress k 0) k 1 0 (s.fab.flow k).nextPsn (s.fab.flow k).expect false false bytes

/-- A unit on base die b reaches ranges of package memory for partition p: they lie in the partition's windows, the
route table has a way to them, nothing holds an access back, no line of them holds an error, and no checkpoint has to read them
first (R22, R25, R30, R189, R206, R439). -/
def Sys2Proof.Claims.reaches (s : State) (p b : Nat) (l : List (Nat × Nat × Bool)) : Prop :=
  s.fab.calm = true ∧ (s.fab.noivosOf p).running = none ∧
  ∀ x ∈ l, s.fab.inWindows p x.1 x.2.1 = true ∧ (s.fab.wayTo [] (some b) x.1).isSome = true ∧ Claims.sound s x.1 x.2.1 = true

/-- What a launch reads of package memory (the member table, a permutation, the entries of an unequal exchange) can be read: no access of it
is refused, meets a bad line or has to wait (R189, R206, R302, R306, R330). -/
def Sys2Proof.Claims.tablesRead (s : State) (p b : Nat) (d : BitVec 512) (k : CollOp) : Prop :=
  (W.reach (fun a write => s.fab.unitTag p b 4 a write) (s.fab.collReads p d k) (W.of s)).2 = .ok

/-- A strand that a COLLECTIVE_ERROR finds Running with a handler enters it (R125, R330). -/
structure Sys2Proof.Claims.CollectiveError (s t : State) (c k : Nat) (epc : BitVec 16) (status tree : Nat) : Prop where
  st : (t.fab.strand c k).st = .trapped
  pc : (t.fab.strand c k).pc = (s.fab.strand c k).tvec
  cause : (t.fab.strand c k).cause = 0x14
  epc : (t.fab.strand c k).epc = epc
  einfo : (t.fab.strand c k).einfo = BitVec.ofNat 64 (tree % 256 * 256 + status)

/-- COLL on a live tree starts its operation with rd pending (R159). CLAIM_RESOLVED gives rd 2 and raises COLLECTIVE_ERROR with the
status of the first check of R307 that fails, the checks before OUT_OF_MAP without a read of memory; a claim that succeeds while the launch four before it on its tree is in flight enters
flight held, with the tree's next sequence number, its slots claimed, and rd 0, or 1 on the fallback path (R307 to R310).

The life of a collective (R160, R306, R310, R316, R326). COLLECTIVE_HOLD_RELEASE starts a held one: a shift of up to 8,192 bytes
sends them to its destination as one DATA message. COLLECTIVE_COMPLETE of one that has all it is due, while no multicast has more of its source to send, signals its counter by 1
and ends its operation without an exception. ABORT ends it with COLLECTIVE_ERROR and status ABORTED_PEER.
Choices of the model it follows: sequence numbers of launches (log 37), order of COLL checks (log 44), collectives of a
termination (log 47), accesses made at once (log 93). -/
def Obligations.CollectivesClaimStartAndEnd : Prop :=
  ((∀ (s : State) (x : Issue), let w := x.word
     let t0 := strandOf s x
     let p := s.fab.partitionOf x.cluster
     let n := (t0.sreg (fld w 31 27)).toNat % 65536
     let o : CollOp :=
       { rd := fRd w, src := (t0.areg (fRa w)).toNat, dst := (t0.areg (fRb w)).toNat, size := (t0.sreg (fld w 36 32)).toNat,
         tree := n, kind := fld w 26 23, fmt := fld w 22 21, scope := fld w 20 19, ctr := fld w 18 13 }
     executes s x 0x80 = true → n < 256 ∧ ((s.fab.scope p).live.trees.find? n).isSome = true ∧
     ∃ t, exec (.coll x) s = .next t ∧ Claims.Issued s t x (.coll o) [.s (fRd w)] ∧ ClusterOnly s t x.cluster) ∧
   (∀ (s : State) (a : ClaimRef) (o : Op) (k : CollOp) d, let r := a.op
     let c := r.cluster
     let p := s.fab.partitionOf c
     let t0 := s.fab.strand c o.strand
     s.fab.phase = .running → (s.fab.cluster c).ops = [o] → o.id = r.op → o.kind = .coll k → s.fab.colls.all (fun x =>
       match x.launcher with | .op a b _ _ => a != c || b != o.id | .job _ _ => true) = true →
     (s.fab.scope p).live.trees.find? k.tree = some d → sliceRef k.src = none →
     (∀ st, (st < 8 ∨ Claims.tablesRead s p (baseDieOf c) d k) → (W.of s).collCheck p (baseDieOf c) d k none false = .error st → t0.st = .running → t0.tvec ≠ 0 →
       Claims.issuedNow s c → ∃ t, exec (.claimResolved a) s = .next t ∧ DeviceOnly s t ∧ Claims.CollectiveError s t c o.strand o.epc st k.tree ∧
         (t.fab.strand c o.strand).sreg k.rd = 2 ∧ (t.fab.cluster c).ops = [] ∧ t.fab.colls = s.fab.colls) ∧
     (∀ slots fall, Claims.tablesRead s p (baseDieOf c) d k → (W.of s).collCheck p (baseDieOf c) d k none false = .ok (slots, fall) →
       (∃ x ∈ s.fab.colls, x.partition = p ∧ x.tree = k.tree ∧ x.id < s.fab.nextColl ∧ x.seq + 4 ≤ s.fab.nextSeq p k.tree) →
       ∃ t, exec (.claimResolved a) s = .next t ∧ DeviceOnly s t ∧ (t.fab.strand c o.strand).sreg k.rd = (if fall then 1 else 0) ∧
         (t.fab.cluster c).ops = [o] ∧ (∀ i ∈ slots, (t.fab.slot (treeDie d) i).holder = .collective s.fab.nextColl) ∧ t.fab.nextColl = s.fab.nextColl + 1 ∧
         t.fab.nextSeq p k.tree = s.fab.nextSeq p k.tree + 1 ∧
         ∃ l, t.fab.colls = s.fab.colls ++ [l] ∧ l.phase = .held ∧ l.id = s.fab.nextColl ∧ l.seq = s.fab.nextSeq p k.tree ∧
           l.partition = p ∧ l.tree = k.tree ∧ l.op = k ∧ l.desc = d ∧ l.launcher = .op c o.id o.strand o.epc))) ∧
  ((∀ (s : State) (c : Coll) fs, let n := c.op.size
     let dest := (treeRank c.desc + descField c.desc 175 160) % treeN c.desc
     s.fab.phase = .running → s.fab.coll? c.id = some c → c.phase = .held → s.fab.collWaits c = false → c.op.kind = 7 →
     c.slice = none → 1 ≤ n → n ≤ 8192 → dest ≠ treeRank c.desc → Claims.reaches s c.partition c.die [(c.op.src, n, false)] →
     ∃ t, exec (.collectiveHoldRelease ⟨c.id, fs⟩) s = .next t ∧ DeviceOnly s t ∧
       t.fab.coll? c.id = some { c with
         phase := .running, since := s.fab.cycle,
         outbox := c.outbox ++ [⟨dest, 6, { c.dataMsg false 0 ((W.of s).loads c.partition c.op.src n) with
           last := true, via := c.flow dest }⟩] }) ∧
   (∀ (s : State) (c : Coll) fs, s.fab.phase = .running → s.fab.coll? c.id = some c → s.fab.collWaits c = true →
     exec (.collectiveHoldRelease ⟨c.id, fs⟩) s = .next s) ∧
   (∀ (s : State) (c : Coll) cl k epc (o : Op), s.fab.phase = .running → s.fab.coll? c.id = some c →
     (∀ x ∈ s.fab.colls, (x.casts = true → x.op.size ≤ 256 * x.next) ∧ ∀ q ∈ x.pulls, x.holds q = false) →
     (W.of s).collFinished c = true → c.sealed = [] → c.slots = [] → c.launcher = .op cl o.id k epc →
     (s.fab.cluster cl).ops = [o] → c.op.scope < 3 → (∀ b r, c.block? b = some r → r.saturated = false) →
     ∃ t, exec (.collectiveComplete c.id) s = .next t ∧ DeviceOnly s t ∧ t.fab.colls = s.fab.colls.filter (fun x => x.id != c.id) ∧
       (t.fab.cluster cl).ops = [] ∧
       Claims.CounterIs s t cl c.op.scope c.op.ctr (s.fab.counter cl c.op.scope c.op.ctr + 1) ∧
       ∀ j, t.fab.strand cl j = s.fab.strand cl j) ∧
   (∀ (s : State) m (c : Coll) cl k epc (o : Op), s.fab.phase = .running → s.fab.collFor m true = .ok c →
     s.fab.coll? c.id = some c → c.sealed = [] → c.slots = [] → c.launcher = .op cl o.id k epc → (s.fab.cluster cl).ops = [o] →
     (s.fab.strand cl k).st = .running → (s.fab.strand cl k).tvec ≠ 0 → Claims.issuedNow s cl →
     ∃ t, exec (.abortMsg m) s = .next t ∧ DeviceOnly s t ∧ t.fab.colls = s.fab.colls.filter (fun x => x.id != c.id) ∧
       (t.fab.cluster cl).ops = [] ∧ Claims.CollectiveError s t cl k epc 0x0F c.tree))

/-- The collective messages of a running member but NOT_READY and ABORT; REISSUE alone may carry a new scale (R327). -/
def Sys2Proof.Claims.messageRows : List ((CollMsg → Instr) × Bool) :=
  [((fun m => .upMsg m []), false), ((fun m => .downMsg ⟨m, []⟩), false), (.reissue, true), (.agreeUp, false), (.agreeDown, false),
   (.dataMsg, false), (.cut, false), (.pull, false), ((fun m => .pullData ⟨m, false⟩), false)]

/-- A message (`re`: a REISSUE) is the collective's, of one block of a reduction on the tree that carries it; every block of the
collective has begun, nothing waits in it, and the block meets no faulty adder. -/
def Sys2Proof.Claims.forBlock (s : State) (m : CollMsg) (re : Bool) (c : Coll) (r : BlockRec) : Prop :=
  s.fab.phase = .running ∧ s.fab.collFor m false re = .ok c ∧ s.fab.coll? c.id = some c ∧ c.op.kind ≤ 2 ∧ m.count = 1 ∧
  m.offset % 2 = (if m.treeB then 1 else 0) ∧ c.block? m.offset = some r ∧ r.down = false ∧ r.bad = false ∧ c.fallback = false ∧
  (∀ t, c.op.blocks ≤ c.nextBlock t) ∧ c.early = [] ∧ c.pulls = [] ∧ m.faults = []

/-- A message for a collective that this member has not launched yet is answered NOT_READY on the flow it came by, with its header, this
member's rank and no payload; one of a collective that is over or of another epoch is dropped and counted (0x6030:03), as NOT_READY
itself is, and one with a reserved field is dropped and counted (R310, R311, R327). A sender that gets NOT_READY keeps the message
and sends it again, counted (0x6024), when the interval is over.

The sums of a block rise (R92, R315, R317, R322): an UP of a child of this member's group joins the block's sum; while another
child is due nothing goes on; with the last, where the member does not narrow, the sum goes up to the parent. An UP of an
earlier attempt is discarded and counted, and one of a later attempt changes nothing.

What comes down a tree (R312 to R318): DOWN writes its FP32 result, if this member receives the block, and its estimate, and the
block is complete; REISSUE converts the block anew on its scale; AGREE_UP raises the exponent agreed on while another child is
due; AGREE_DOWN converts the block on the agreed one. A conversion reads the member's source, which the partition reaches.
Choices of the model it follows: packets and their messages (log 14), uncounted drops (log 36), sequence numbers of
launches (log 37), one block a message (log 38), residue outcome (log 39), SATURATED and scale reissue counts (log 40),
flags of a block (log 99), what comes early and what a sender keeps (log 111). -/
def Obligations.MessagesReachTheirCollective : Prop :=
  ((∀ (s : State) m, ∀ row ∈ Claims.messageRows, s.fab.phase = .running →
     (∀ d, s.fab.collFor m false row.2 = .notReady → (s.fab.scope m.partition).live.trees.find? m.tree = some d → Claims.flowFree s m.via →
       ∃ t, exec (row.1 m) s = .next t ∧ DeviceOnly s t ∧ t.fab.colls = s.fab.colls ∧
       t.fab.netOut = s.fab.netOut ++ [Claims.sent s m.via (collBytes 0x0A { m with
         source := treeRank d, payload := [], last := false, newScale := 0 })]) ∧
     (s.fab.collFor m false row.2 = .stale → ∃ t, exec (row.1 m) s = .next t ∧ DeviceOnly s t ∧ t.fab.netOut = s.fab.netOut ∧
       t.fab.dget 0x6030 3 = min (s.fab.dget 0x6030 3 + 1) (2 ^ 64 - 1)) ∧
     (s.fab.collFor m false row.2 = .drop →
       exec (row.1 m) s = .next { s with fab := { s.fab with badMessages := s.fab.badMessages + 1 } })) ∧
   (∀ (s : State) m, s.fab.phase = .running → s.fab.collFor m true = .stale →
     ∃ t, exec (.notReady m) s = .next t ∧ DeviceOnly s t ∧ t.fab.repeats = s.fab.repeats ∧
       t.fab.dget 0x6030 3 = min (s.fab.dget 0x6030 3 + 1) (2 ^ 64 - 1)) ∧
   (∀ (s : State) m (c : Coll) o, s.fab.phase = .running → s.fab.collFor m true = .ok c →
     c.outbox = [o] → o.dest = m.source → o.msg.treeB = m.treeB → o.msg.attempt = m.attempt → o.msg.offset = m.offset →
     o.msg.count = m.count →
     ∃ t, exec (.notReady m) s = .next t ∧ DeviceOnly s t ∧
       t.fab.repeats = s.fab.repeats ++ [⟨s.fab.nextRepeat, c.id, o⟩] ∧ t.fab.colls = s.fab.colls) ∧
   (∀ (s : State) (r : Repeat) (c : Coll), let k := c.flow r.message.dest
     s.fab.phase = .running → s.fab.repeats = [r] → s.fab.coll? r.coll = some c → c.partition < 16 → c.cuts = [] → Claims.flowFree s k →
     ∃ t, exec (.notReadyRepeat r.id) s = .next t ∧ DeviceOnly s t ∧ t.fab.repeats = [] ∧
       t.fab.netOut = s.fab.netOut ++ [Claims.sent s k (collBytes r.message.type r.message.msg)] ∧
       t.fab.dget 0x6024 (c.partition + 1) = min (s.fab.dget 0x6024 (c.partition + 1) + 1) (2 ^ 64 - 1))) ∧
  (∀ (s : State) m (c : Coll) (r : BlockRec) (lo k sum : Kbx), let me := treeRank c.desc
     let kids := c.kids m.treeB
     Claims.forBlock s m false c r → m.format = 0 → m.payload.length = 392 → kids.1.contains m.source = true →
     kbxRead false m.payload = some k →
     (m.attempt < r.attempt → exec (.upMsg m []) s = .next { s with fab := { s.fab with lateBlocks := s.fab.lateBlocks + 1 } }) ∧
     (r.attempt < m.attempt → exec (.upMsg m []) s = .next s) ∧
     (m.attempt = r.attempt → r.got.contains m.source = false → r.low = some lo → kbxAdd lo k = .sum sum false →
       ((∃ j ∈ kids.1, j ≠ m.source ∧ r.got.contains j = false) →
         ∃ t, exec (.upMsg m []) s = .next t ∧ DeviceOnly s t ∧ t.fab.netOut = s.fab.netOut ∧
           (t.fab.coll? c.id).bind (·.block? m.offset) = some { r with low := some sum, got := r.got ++ [m.source] }) ∧
       (∀ u, (∀ j ∈ kids.1, j = m.source ∨ r.got.contains j = true) → narrows c.desc m.treeB me = false →
         treeUp c.desc m.treeB me = some u → sum.k32 = false → Claims.flowFree s (c.flow u) →
         ∃ t, exec (.upMsg m []) s = .next t ∧ DeviceOnly s t ∧
           t.fab.netOut = s.fab.netOut ++ [Claims.sent s (c.flow u) (collBytes 0x01 { c.msg m.treeB r.attempt m.offset 1 0 sum.wire with
             last := c.lastOf m.treeB m.offset (·.upSent) })] ∧
           (t.fab.coll? c.id).bind (·.block? m.offset) =
             some { r with low := some sum, got := r.got ++ [m.source], upSent := true }))) ∧
  (∀ (s : State) m (c : Coll) (r : BlockRec), let me := treeRank c.desc
     let b := m.offset
     let block := fun (t : State) => (t.fab.coll? c.id).bind (·.block? b)
     let source := Claims.reaches s c.partition c.die ((W.of s).sourceRanges c b)
     let own := fun (x : Nat) => ((W.of s).ownBlock c b x).2
     (∀ e, Claims.forBlock s m false c r → treeUp c.desc m.treeB me = some m.source → m.format = 2 → m.last = false → m.payload.length = 264 →
       c.op.wants (treeN c.desc) me b = true → estimates c.desc c.op c.slice = some e → c.partition < 16 →
       Claims.reaches s c.partition c.die [(c.blockAddr b, 256, true), (e.1 + b, 1, true)] → Claims.apart (c.blockAddr b) 256 (e.1 + b) 1 →
       ∃ t, exec (.downMsg ⟨m, []⟩) s = .next t ∧ t.sec = s.sec ∧
         Claims.MemKept s t c.partition [(c.blockAddr b, 256), (e.1 + b, 1)] ∧
         (∀ j, j < 64 → (W.of t).loadNat c.partition (c.blockAddr b + 4 * j) 4 = beNat ((m.payload.drop (4 * j)).take 4)) ∧
         (W.of t).load c.partition (e.1 + b) = m.payload.getD 256 0 ∧
         ∃ r', block t = some r' ∧ r'.down = true ∧ r'.data = true) ∧
     (Claims.forBlock s m true c r → source → treeUp c.desc m.treeB me = some m.source → r.attempt < m.attempt → m.newScale ≠ 0xFF → m.newScale ≠ r.x →
       (c.kids m.treeB).1 ≠ [] → c.partition < 16 → (own m.newScale).2 = false →
       ∃ t, exec (.reissue m) s = .next t ∧ DeviceOnly s t ∧ block t = some { r with
         attempt := m.attempt, x := m.newScale, pre := false, low := some (own m.newScale).1, upper := none,
         got := [], satReissues := r.satReissues + 1 }) ∧
     (Claims.forBlock s m false c r → m.payload.length = 8 → (treeDown c.desc m.treeB me).contains m.source = true → r.pre = true →
       r.agreed.contains m.source = false →
       (∃ j ∈ treeDown c.desc m.treeB me, j ≠ m.source ∧ r.agreed.contains j = false) →
       ∃ t, exec (.agreeUp m) s = .next t ∧ DeviceOnly s t ∧ t.fab.netOut = s.fab.netOut ∧ block t = some { r with
         agreed := r.agreed ++ [m.source], cmax := max r.cmax (m.payload.getD 0 0).toNat }) ∧
     (Claims.forBlock s m false c r → source → m.payload.length = 8 → treeUp c.desc m.treeB me = some m.source → r.pre = true → (c.kids m.treeB).1 ≠ [] →
       let v := (m.payload.getD 0 0).toNat
       (own (scaleOf v (treeH c.desc))).2 = false →
       ∃ t, exec (.agreeDown m) s = .next t ∧ DeviceOnly s t ∧ block t = some { r with
         eps := v, pre := false, attempt := 0, x := scaleOf v (treeH c.desc),
         low := some (own (scaleOf v (treeH c.desc))).1, upper := none, got := [] }))

/-- Bytes and repair (R306, R324, R325): DATA of an exchange, and PULL_DATA of a member that repairs, write their bytes once at the
place of the piece and note it; CUT of the parent makes the member pull every range it lacks from its Repair rank; PULL of a
range that has come is answered with its bytes, one that has not waits.
Choices of the model it follows: packets and their messages (log 14), SATURATED and scale reissue counts (log 40),
repair (log 42), unequal exchange ranges and fallback images (log 43), what comes early and what a sender keeps (log
111). -/
def Obligations.BytesAreDeliveredAndRepaired : Prop :=
  ∀ (s : State) m (c : Coll), let n := m.payload.length
    s.fab.phase = .running → s.fab.collFor m = .ok c → s.fab.coll? c.id = some c → 5 ≤ c.op.kind → c.pulls = [] → c.early = [] →
    (∀ a, m.count = n → c.has m.offset n = false → c.pieceAddr m.offset n = some a → c.writes = true →
      Claims.reaches s c.partition c.die [(a, n, true)] →
      (m.format = 3 → ∃ t, exec (.dataMsg m) s = .next t ∧ t.sec = s.sec ∧ Claims.MemKept s t c.partition [(a, n)] ∧
        (W.of t).loads c.partition a n = m.payload ∧
        t.fab.coll? c.id = some { c with ranges := c.ranges ++ [(m.offset, n)] }) ∧
      (∀ sat, c.repairs.contains m.treeB = true → m.source = treeRepair c.desc →
        treeDown c.desc (m.offset / 256 % 2 == 1) (treeRank c.desc) = [] →
        ∃ t, exec (.pullData ⟨m, sat⟩) s = .next t ∧ t.sec = s.sec ∧ Claims.MemKept s t c.partition [(a, n)] ∧
          (W.of t).loads c.partition a n = m.payload ∧
          t.fab.coll? c.id = some { c with ranges := c.ranges ++ [(m.offset, n)] })) ∧
    (treeUp c.desc m.treeB (treeRank c.desc) = some m.source → c.repairs.contains m.treeB = false →
      let pulls := fun (x : Coll) => x.outbox.map (fun o => (o.dest, o.type, o.msg.offset, o.msg.count))
      ∃ t, exec (.cut m) s = .next t ∧ DeviceOnly s t ∧ ∃ c', t.fab.coll? c.id = some c' ∧ c'.repairs = c.repairs ++ [m.treeB] ∧
        pulls c' = pulls c ++ (c.lacks m.treeB).map (fun q => (treeRepair c.desc, 8, q.1, q.2))) ∧
    (let ends := if m.last then c.pullsEnd ++ [(m.source, m.treeB)] else c.pullsEnd
     (∀ a, c.has m.offset m.count = true → c.pieceAddr m.offset m.count = some a → c.writes = true →
       Claims.reaches s c.partition c.die [(a, m.count, false)] →
       ∃ t, exec (.pull m) s = .next t ∧ DeviceOnly s t ∧ t.fab.coll? c.id = some { c with
         pullsEnd := ends, outbox := c.outbox ++ [⟨m.source, 9,
           { c.msg m.treeB 0 m.offset m.count 3 ((W.of s).loads c.partition a m.count) with
             last := ends.contains (m.source, m.treeB), via := c.flow m.source }⟩] }) ∧
     (c.has m.offset m.count = false → ∃ t, exec (.pull m) s = .next t ∧ DeviceOnly s t ∧
       t.fab.coll? c.id = some { c with pulls := [(m.source, m.treeB, m.offset, m.count)], pullsEnd := ends }))

/-! ### The network -/

/-- One event reached the event log where its class is selected and the log has room (R428, R430). -/
def Sys2Proof.Claims.Logged (s t : State) (source code : Nat) (part : Option Nat) (a b : Nat) : Prop :=
  s.fab.log.queue.length < 4096 → bit (s.fab.dget 0x9001 4) (eventClass code) = true →
  ∃ r : EventRec, t.fab.log.queue = insertRec r s.fab.log.queue ∧ r.source = source ∧ r.code = code ∧ r.cls = eventClass code ∧
    r.partition = part ∧ r.detailA = a ∧ r.detailB = b ∧ r.count = 1

/-- The packet rows and their types (R370). -/
def Sys2Proof.Claims.packetRows : List ((Packet → Instr) × Nat) :=
  [(.kolasData, 1), (.kolasAck, 2), (.kolasNak, 3), (.probe, 4), (.probeAck, 5)]

/-- A header without payload sent on a flow (R370 to R372). -/
def Sys2Proof.Claims.reply (s : State) (k : FlowKey) (type psn : Nat) (ecn : Bool) : NetOut :=
  .kolas (s.fab.replyDress k) k type 0 0 psn ecn false []

/-- An unacknowledged packet of a flow sent again (R371). -/
def Sys2Proof.Claims.again (s : State) (k : FlowKey) (u : FlowMsg) : NetOut :=
  .kolas (s.fab.flowDress k u.channel) k 1 u.channel u.psn (s.fab.flow k).expect false true u.bytes

/-- No partition has a folio table, so that no folio is parked on a peer (R276). -/
def Sys2Proof.Claims.noFolios (s : State) : Prop := ∀ p, p < 16 → (s.fab.folioTable p).2 = 0

/-- A Kolas packet that is not this engine's (R369, R370, R374): dropped where no rule takes it, counted (0x5021:02) where its secure
channel may not carry it, dropped and counted where its header is not one the device knows, and in a chain or ring forwarded by
the opposite port, to its next hop and under its SA, and counted (0x5021:04).

A Kolas flow at its receiver and its sender (R371, R372): DATA in its place moves the PSN expected on and counts toward an ACK,
which goes out with the eighth; a duplicate counts and moves nothing; one ahead of its place is answered with NAK, the first at
once. ACK frees the packets it covers, halves the rate on an echo and else lets it recover; NAK and the resend timer send everything unacknowledged
again, counted (0x5021:01); ACK_TIMER acknowledges what came; PROBE is answered with PROBE_ACK, which ends the probe.
Choices of the model it follows: packets and their messages (log 14), the flow hash and ports (log 23), uncounted drops
(log 36), flows that are down (log 46), forwarding and channels (log 66), the size of a ring (log 102), the replay
window (log 106), membership flows (log 107). -/
def Obligations.KolasPacketsAreForwardedAndReliable : Prop :=
  (∀ (s : State) k, ∀ row ∈ Claims.packetRows, s.fab.phase = .running → k.type = row.2 →
     (s.fab.arrival k = .drop → exec (row.1 k) s = .next s) ∧
     (s.fab.arrival k = .macsec → ∃ t, exec (row.1 k) s = .next t ∧ DeviceOnly s t ∧ t.fab.flows = s.fab.flows ∧
       t.fab.netOut = s.fab.netOut ∧ t.fab.dget 0x5021 2 = min (s.fab.dget 0x5021 2 + 1) (2 ^ 64 - 1)) ∧
     (s.fab.arrival k = .bad → ∃ t, exec (row.1 k) s = .next t ∧ DeviceOnly s t ∧ t.fab.flows = s.fab.flows ∧
       t.fab.netOut = s.fab.netOut ∧ t.fab.badPackets = s.fab.badPackets + 1) ∧
     (s.fab.arrival k = .forward → let p := opposite k.port
       ∃ t, exec (row.1 k) s = .next t ∧ DeviceOnly s t ∧ t.fab.flows = s.fab.flows ∧
       t.fab.netOut = s.fab.netOut ++ [.forward p (s.fab.dget 0x5006 (p + 1))
         (if s.fab.dget 0x5008 (p + 1) = 0 then none else s.fab.txSa p (secureChannel k)) k] ∧
       t.fab.dget 0x5021 4 = min (s.fab.dget 0x5021 4 + 1) (2 ^ 64 - 1))) ∧
  ((∀ (s : State) k, let key := packetFlow k
     let x := s.fab.flow key
     let ecn := x.ecn || k.ce
     let arrives := fun (y : Flow) => ∃ t, exec (.kolasData k) s = .next t ∧ DeviceOnly s t ∧
       (if x.sinceAck + 1 < 8
        then t.fab.flow key = { y with sinceAck := x.sinceAck + 1, ecn := ecn } ∧ t.fab.netOut = s.fab.netOut
        else t.fab.flow key = { y with sinceAck := 0, ecn := false } ∧
          t.fab.netOut = s.fab.netOut ++ [Claims.reply s key 2 y.expect ecn]) ∧
       ∀ j, j ≠ key → t.fab.flow j = s.fab.flow j
     s.fab.phase = .running → k.type = 1 → s.fab.arrival k = .mine → x.expect < 2 ^ 32 → k.psn < 2 ^ 32 →
     (k.psn = x.expect → arrives { x with expect := (x.expect + 1) % 2 ^ 32 }) ∧
     (2 ^ 31 ≤ (k.psn + 2 ^ 32 - x.expect) % 2 ^ 32 → arrives x) ∧
     (0 < (k.psn + 2 ^ 32 - x.expect) % 2 ^ 32 → (k.psn + 2 ^ 32 - x.expect) % 2 ^ 32 < 2 ^ 31 → x.lastNak = none →
       ∃ t, exec (.kolasData k) s = .next t ∧ DeviceOnly s t ∧
         t.fab.flow key = { x with ecn := ecn, lastNak := some s.fab.cycle } ∧
         t.fab.netOut = s.fab.netOut ++ [Claims.reply s key 3 x.expect false])) ∧
   (∀ (s : State) k, let key := packetFlow k
     let x := s.fab.flow key
     let n := (k.ackPsn + 2 ^ 32 - x.ackPsn) % 2 ^ 32
     s.fab.phase = .running → s.fab.arrival k = .mine → (∀ c ∈ s.fab.colls, c.casts = false) →
     (k.type = 2 → 1 ≤ n → n ≤ x.unacked.length → x.waiting = [] → ∃ t, exec (.kolasAck k) s = .next t ∧ DeviceOnly s t ∧
       t.fab.flow key = { x with
         ackPsn := k.ackPsn % 2 ^ 32, unacked := x.unacked.drop n, down := false,
         rate := if k.ecnEcho then max 1 (x.rate / 2) else min 16 (x.rate + 1) } ∧ t.fab.netOut = s.fab.netOut) ∧
     (k.type = 4 → ∃ t, exec (.probe k) s = .next t ∧ DeviceOnly s t ∧
       t.fab.netOut = s.fab.netOut ++ [Claims.reply s key 5 x.expect false] ∧ t.fab.flows = s.fab.flows) ∧
     (k.type = 5 → ∃ t, exec (.probeAck k) s = .next t ∧ DeviceOnly s t ∧
       t.fab.flow key = { x with probing := false, down := false } ∧ t.fab.netOut = s.fab.netOut)) ∧
   (∀ (s : State) (key : FlowKey) (m : FlowMsg) r, let x := s.fab.flow key
     let resent := fun (i : Instr) => ∃ t, exec i s = .next t ∧ DeviceOnly s t ∧ t.fab.flows = s.fab.flows ∧
       t.fab.netOut = s.fab.netOut ++ x.unacked.map (Claims.again s key) ∧
       t.fab.dget 0x5021 1 = min (s.fab.dget 0x5021 1 + x.unacked.length) (2 ^ 64 - 1)
     s.fab.phase = .running → (∀ c ∈ s.fab.colls, c.casts = false) → x.unacked = m :: r → (∀ i, i < 8 → s.fab.dget (0x9010 + i) 6 = 0) →
     resent (.kolasResend key) ∧
     ∀ k, k.type = 3 → s.fab.arrival k = .mine → packetFlow k = key → x.ackPsn < 2 ^ 32 → k.ackPsn = x.ackPsn →
       resent (.kolasNak k)) ∧
   (∀ (s : State) (key : FlowKey), let x := s.fab.flow key
     s.fab.phase = .running →
     (x.sinceAck = 0 → exec (.ackTimer key) s = .next s) ∧
     (x.sinceAck ≠ 0 → ∃ t, exec (.ackTimer key) s = .next t ∧ DeviceOnly s t ∧
       t.fab.flow key = { x with sinceAck := 0, ecn := false } ∧
       t.fab.netOut = s.fab.netOut ++ [Claims.reply s key 2 x.expect x.ecn]) ∧
     ((W.of s).carriesTree key = false → exec (.probeTimer key) s = .next s) ∧
     ((W.of s).carriesTree key = true → ∃ t, exec (.probeTimer key) s = .next t ∧ DeviceOnly s t ∧
       t.fab.flow key = { x with probing := true } ∧
       t.fab.netOut = s.fab.netOut ++ [Claims.reply s key 4 x.expect false]) ∧
     (x.unacked = [] → x.probing = false → exec (.peerDown key) s = .next s) ∧
     (x.unacked ≠ [] ∨ x.probing = true → x.down = false → s.fab.dget 0x5040 1 ≠ 1 → s.fab.colls = [] →
       (s.fab.scope key.localPartition).live.endpoints = [] → Claims.noFolios s →
       ∃ t, exec (.peerDown key) s = .next t ∧ DeviceOnly s t ∧
         t.fab.flow key = { x with
           down := true, probing := false, unacked := [], waiting := [], ackPsn := x.nextPsn } ∧
         Claims.Logged s t (srcBase key.engine 5) 0x0306 (some key.localPartition) (key.peer / 2 ^ 64) (key.peer % 2 ^ 64))))

/-- A received frame passes its port: the port is up, the frame is protected as the port wants, and on the secure channel that may
carry it (R369). -/
def Sys2Proof.Claims.passes (s : State) (port : Nat) (secured : Option Secured) (channel : Nat) : Prop :=
  s.fab.portUp port = true ∧ s.fab.secureIn port secured = true ∧ ∀ x, secured = some x → x.channel = channel

/-- A frame that its port does not take is counted and changes nothing else (R369). -/
def Sys2Proof.Claims.Unprotected (s : State) (c : Instr) : Prop :=
  ∃ t, exec c s = .next t ∧ DeviceOnly s t ∧ t.fab.netOut = s.fab.netOut ∧ t.fab.qps = s.fab.qps ∧
    t.fab.dget 0x5021 2 = min (s.fab.dget 0x5021 2 + 1) (2 ^ 64 - 1)

/-- RoCEv2 (R366, R367, R369): a READ that an export entry grants is answered with the bytes, a WRITE in its place stores them, is
acknowledged and moves the PSN expected on, one that none grants is refused with a NAK and counted (0x5021:03), and a CE mark
returns a CNP. A request ahead of its place is answered with a NAK of the PSN expected, and a WRITE met before is acknowledged and
not made again (by the model's choice, log 91). A timeout sends the outstanding requests again, seven times, and then the queue pair
has failed; CNP halves its rate.

The neighbours and the time (R359, R368, R369, R413): a solicitation or echo of an engine's own address that its port takes is
answered to the port's next hop under its SA of the operator's channel, one of the management port's address on that port, and
one of any other address or without its protection is not. PTP, as a boundary clock, notes its offset and state and takes the
offset from the time base (by the model's choice at once, log 68); a boundary clock and a grandmaster answer a delay request, and
a clock of another role or domain does nothing.
Choices of the model it follows: RDMA packets (log 64), forwarding and channels (log 66), RDMA firewall refusals (log
67), steering of the time base (log 68), PSNs of queue pairs (log 91), the replay window (log 106). -/
def Obligations.RdmaAndNeighboursAreServed : Prop :=
  ((∀ (s : State) (r : RdmaReq) bytes, let p := rdmaPartition r
     let a := s.fab.answerTo r
     let out := s.fab.netOut ++ (if r.ce then [.cnp a.1 r.peer a.2] else [])
     let order := s.fab.rdmaOrder r
     s.fab.phase = .running → r.intact = true → Claims.passes s r.port r.secured p → s.fab.atQp r = true →
     (s.fab.exports r false = true → order ≠ .gt → Claims.reaches s p (r.port / 4) [(r.address, r.length, false)] →
       ∃ t, exec (.roceReadRequest r) s = .next t ∧ DeviceOnly s t ∧
         t.fab.netOut = out ++ [.rdmaData a.1 r.peer a.2 r.psn ((W.of s).loads p r.address r.length)]) ∧
     (s.fab.exports r true = true → order = .eq → Claims.reaches s p (r.port / 4) [(r.address, r.length, true)] →
       bytes.length = r.length →
       ∃ t, exec (.roceWriteRequest r bytes) s = .next t ∧ t.sec = s.sec ∧
         Claims.MemKept s t p [(r.address, r.length)] ∧ (W.of t).loads p r.address r.length = bytes ∧
         t.fab.netOut = out ++ [.rdmaAck a.1 r.peer a.2 r.psn] ∧
         (t.fab.qp p (rdmaEntry r)).expect = ((s.fab.qp p (rdmaEntry r)).expect + rdmaPackets r.length) % 2 ^ 24) ∧
     (order = .lt → ∃ t, exec (.roceWriteRequest r bytes) s = .next t ∧ DeviceOnly s t ∧ t.fab.qps = s.fab.qps ∧
       t.fab.netOut = out ++ [.rdmaAck a.1 r.peer a.2 r.psn]) ∧
     (order = .gt → ∀ write : Bool, ∃ t, exec (if write then .roceWriteRequest r bytes else .roceReadRequest r) s = .next t ∧
       DeviceOnly s t ∧ t.fab.qps = s.fab.qps ∧
       t.fab.netOut = out ++ [.rdmaNak a.1 r.peer a.2 (s.fab.qp p (rdmaEntry r)).expect true]) ∧
     (∀ write : Bool, s.fab.exports r write = false → order ≠ .gt → (write = true → order = .eq) →
       ∃ t, exec (if write then .roceWriteRequest r bytes else .roceReadRequest r) s = .next t ∧ DeviceOnly s t ∧
         t.fab.netOut = out ++ [.rdmaNak a.1 r.peer a.2 r.psn false] ∧
         t.fab.dget 0x5021 3 = min (s.fab.dget 0x5021 3 + 1) (2 ^ 32 - 1))) ∧
   (∀ (s : State) p i, let q := s.fab.qp p i
     s.fab.phase = .running → s.fab.hasQp p i = true →
     (q.failed = false → q.retries < 7 → q.sent ≠ [] → ∃ t, exec (.roceAckTimeout p i) s = .next t ∧ DeviceOnly s t ∧
       t.fab.qp p i = { q with retries := q.retries + 1 } ∧ (∃ l, t.fab.netOut = s.fab.netOut ++ l ∧ l.length = q.sent.length) ∧
       ∀ j, j ≠ i → t.fab.qp p j = s.fab.qp p j) ∧
     (q.sent ≠ [] → (q.failed = true ∨ 7 ≤ q.retries) → s.fab.clusters = [] → s.fab.txns = [] → s.fab.waiting = [] →
       s.fab.ductus = [] → (s.fab.noivosOf p).running = none →
       ∃ t, exec (.roceAckTimeout p i) s = .next t ∧ DeviceOnly s t ∧
         t.fab.qp p i = { q with failed := true, retries := 0, sent := [], waiting := [] }) ∧
     ∀ port x, (Claims.passes s port x p → ∃ t, exec (.cnp ⟨p, port, x⟩ i) s = .next t ∧ DeviceOnly s t ∧
         t.fab.qp p i = { q with rate := max 1 (q.rate / 2) } ∧ ∀ j, j ≠ i → t.fab.qp p j = s.fab.qp p j) ∧
       (s.fab.portUp port = true → s.fab.secureIn port x = false → Claims.Unprotected s (.cnp ⟨p, port, x⟩ i)))) ∧
  ((∀ (s : State) port x dest, let own := s.fab.engineAddress (port / 4)
     let hop := s.fab.dget 0x5006 (port + 1)
     let an := if s.fab.dget 0x5008 (port + 1) = 0 then none else s.fab.txSa port 16
     let after := fun (l : List NetOut) => Host.Outcome.next
       { s with fab := { s.fab.received port x with netOut := s.fab.netOut ++ l } }
     s.fab.phase = .running → Claims.passes s port x 16 →
     (s.fab.protects port 16 = true →
       exec (.neighbourSolicitation ⟨port, x⟩ own) s = after [.neighbourAdvert port hop own an] ∧
       exec (.echoRequest ⟨port, x⟩ own dest) s = after [.echoReply port hop own dest an]) ∧
     ∀ a, (a ≠ own ∨ s.fab.protects port 16 = false) →
       exec (.neighbourSolicitation ⟨port, x⟩ a) s = after [] ∧ exec (.echoRequest ⟨port, x⟩ a dest) s = after []) ∧
   (∀ (s : State) port x a dest, s.fab.phase = .running → s.fab.portUp port = true → s.fab.secureIn port x = false →
     Claims.Unprotected s (.neighbourSolicitation ⟨port, x⟩ a) ∧ Claims.Unprotected s (.echoRequest ⟨port, x⟩ a dest)) ∧
   (∀ (s : State) x dest, let own := (W.of s).managementAddress
     let after := fun (o : NetOut) => Host.Outcome.next { s with fab := { s.fab with netOut := s.fab.netOut ++ [o] } }
     s.fab.phase = .running →
     exec (.neighbourSolicitation ⟨32, x⟩ own) s = after (.neighbourAdvert 32 0 own none) ∧
     exec (.echoRequest ⟨32, x⟩ own dest) s = after (.echoReply 32 0 own dest none) ∧
     ∀ a, a ≠ own → exec (.neighbourSolicitation ⟨32, x⟩ a) s = .next s ∧ exec (.echoRequest ⟨32, x⟩ a dest) s = .next s) ∧
   (∀ (s : State) port off lock, let domain := s.fab.dget 0x5030 1
     s.fab.phase = .running →
     (s.fab.dget 0x5030 2 = 1 → s.fab.ptpPort (port / 4) = some port →
       ∃ t, exec (.ptpMessage ⟨port, domain, false⟩ off lock) s = .next t ∧ DeviceOnly s t ∧
       t.fab.dget 0x5030 3 = (BitVec.ofInt 32 off).toNat ∧ t.fab.dget 0x5030 4 = (if lock then 2 else 1) ∧
       t.fab.timeBase = (((s.fab.timeBase : Int) - off) % 2 ^ 64).toNat) ∧
     (s.fab.dget 0x5030 2 ≠ 0 → s.fab.ptpPort (port / 4) = some port →
       ∃ t, exec (.ptpMessage ⟨port, domain, true⟩ off lock) s = .next t ∧ DeviceOnly s t ∧
       t.fab = { s.fab with netOut := s.fab.netOut ++ [.ptp port domain .delayResponse] }) ∧
     (s.fab.dget 0x5030 2 ≠ 1 → ∀ d, exec (.ptpMessage ⟨port, d, false⟩ off lock) s = .next s) ∧
     (s.fab.dget 0x5030 2 = 0 → ∀ d, exec (.ptpMessage ⟨port, d, true⟩ off lock) s = .next s) ∧
     ∀ d r, d ≠ domain → exec (.ptpMessage ⟨port, d, r⟩ off lock) s = .next s))

/-- Ports, lanes and the laser module (R356 to R363): a port comes up with its lanes and goes down; a port that forms is up with an
event, or down after a failure with its own; a lane that loses its signal, or has its third bad window in a row, is retired with
an event and a good window starts the count again; an engine whose bank fails takes the other one; the module enables both
banks once its identity was read.

A base link (R32, R425): a CRC error is replayed and remembered; the sixteenth replay within 1 ms, or a replay that times out,
retires the link with an event, and the routes that avoid it are committed.
Choices of the model it follows: readings from outside (log 15), lane assignment (log 69), cascade details (log 71). -/
def Obligations.PortsLanesAndLinks : Prop :=
  ((∀ (s : State) port, let lanes := s.fab.lanesOf port
     s.fab.phase = .running → port < 32 → s.fab.halts (936 + port / 4) = false →
     (s.fab.portState port = 0 → s.fab.ownLink port = false → lanes ≠ 0 → lanesMeet lanes (s.fab.retiredLanes (port / 4)) = false →
       ∃ t, exec (.portLinkUp port) s = .next t ∧ DeviceOnly s t ∧ t.fab.portState port = 2 ∧ t.fab.lanesOf port = lanes ∧
         ∀ i, i < 8 → bit lanes i = true → bit (t.fab.dget 0x5002 (port / 4 + 1)) i = true) ∧
     (s.fab.portState port = 2 → ∃ t, exec (.portLinkDown port) s = .next t ∧ DeviceOnly s t ∧ t.fab.portState port = 0 ∧
       t.fab.lanesOf port = lanes ∧ ∀ i, i < 8 → bit lanes i = true → bit (t.fab.dget 0x5002 (port / 4 + 1)) i = false) ∧
     (s.fab.portState port ≠ 2 → exec (.portLinkDown port) s = .next s) ∧
     (s.fab.portState port = 1 →
       (∃ t, exec (.portFormed port) s = .next t ∧ DeviceOnly s t ∧ t.fab.portState port = 2 ∧ t.fab.lanesOf port = lanes ∧
         Claims.Logged s t (0x0800 + port) 0x0302 none port lanes) ∧
       (∃ t, exec (.portFormFailed port) s = .next t ∧ DeviceOnly s t ∧ t.fab.portState port = 0 ∧ t.fab.lanesOf port = 0 ∧
         Claims.Logged s t (0x0800 + port) 0x0303 none port 0)) ∧
     (s.fab.portState port ≠ 1 → exec (.portFormed port) s = .next s ∧ exec (.portFormFailed port) s = .next s)) ∧
   (∀ (s : State) lane errors cor unc, let n := lane / 8
     let i := lane % 8
     let retires := fun (c : Instr) (reason : Nat) => ∃ t, exec c s = .next t ∧ DeviceOnly s t ∧
       bit (t.fab.retiredLanes n) i = true ∧ bit (t.fab.dget 0x5002 (n + 1)) i = false ∧
       Claims.Logged s t (0x0840 + lane) 0x0301 none lane reason
     s.fab.phase = .running → lane < 64 → bit (s.fab.retiredLanes n) i = false →
     (∀ k, k < 4 → bit (s.fab.lanesOf (4 * n + k)) i = false) →
     retires (.laneSignalLoss lane) 0 ∧
     (errors ≤ s.fab.dget 0x5010 0x41 → ∃ t, exec (.laneErrorWindow lane ⟨errors, cor, unc⟩) s = .next t ∧ DeviceOnly s t ∧
       t.fab.laneBad.get 0 lane = 0 ∧ { t.fab with laneBad := [] } = { s.fab with laneBad := [] }) ∧
     (s.fab.dget 0x5010 0x41 < errors → s.fab.laneBad.get 0 lane < 2 →
       ∃ t, exec (.laneErrorWindow lane ⟨errors, cor, unc⟩) s = .next t ∧ DeviceOnly s t ∧
         t.fab.laneBad.get 0 lane = s.fab.laneBad.get 0 lane + 1 ∧
         { t.fab with laneBad := [] } = { s.fab with laneBad := [] }) ∧
     (s.fab.dget 0x5010 0x41 < errors → 2 ≤ s.fab.laneBad.get 0 lane → retires (.laneErrorWindow lane ⟨errors, cor, unc⟩) 1)) ∧
   (∀ (s : State) n, let bank := s.fab.dget 0x5011 (n + 1)
     s.fab.phase = .running → n < 8 → bank < 2 → bit (s.fab.laserBad.get 0 n) (1 - bank) = false →
     (∃ t, exec (.laserLowLight n) s = .next t ∧ DeviceOnly s t ∧ t.fab.dget 0x5011 (n + 1) = 1 - bank ∧
       bit (t.fab.laserBad.get 0 n) bank = true ∧ Claims.Logged s t (srcBase n 6) 0x0304 none n (1 - bank)) ∧
     (∃ t, exec (.laserFault bank) s = .next t ∧ DeviceOnly s t ∧ t.fab.dget 0x5011 (n + 1) = 1 - bank) ∧
     ∃ t, exec (.laserFault (1 - bank)) s = .next t ∧ DeviceOnly s t ∧ t.fab.dget 0x5011 (n + 1) = bank ∧
       bit (t.fab.laserBad.get 0 n) (1 - bank) = true) ∧
   (∀ (s : State), s.fab.phase = .running →
     (∃ t, exec (.laserPresent false) s = .next t ∧ DeviceOnly s t ∧
       t.fab = { s.fab with inPins := { s.fab.inPins with laserPresent := true, laserFltN := true } }) ∧
     (s.fab.pins.laserEnA = false → ∃ t, exec (.laserPresent true) s = .next t ∧ DeviceOnly s t ∧
       t.fab.inPins.laserPresent = true ∧ t.fab.pins = { s.fab.pins with laserEnA := true, laserEnB := true } ∧
       t.fab.laserBad = []))) ∧
  (∀ (s : State) link, let l := s.fab.replays link
     let retires := fun (c : Instr) (n : Nat) => ∃ t, exec c s = .next t ∧ DeviceOnly s t ∧
       bit (t.fab.dget 0x1010 2) link = false ∧ (∀ i, i ≠ link → bit (t.fab.dget 0x1010 2) i = bit (s.fab.dget 0x1010 2) i) ∧
       (s.fab.routeDraining = false → t.fab.routes = t.fab.dget 0x1010 2 ∧ t.fab.oldRoutes = s.fab.routes ∧
         t.fab.routeBank = !s.fab.routeBank ∧ t.fab.routeDraining = true) ∧
       Claims.Logged s t (0x0700 + link) 0x0305 none link n
     s.fab.phase = .running →
     (s.fab.linkLives link = true →
       (l.length < 15 → ∃ t, exec (.baseLinkCrcError link) s = .next t ∧ DeviceOnly s t ∧
         t.fab = { s.fab with linkReplays := s.fab.linkReplays.set link (l ++ [s.fab.cycle]) }) ∧
       (15 ≤ l.length → retires (.baseLinkCrcError link) (l.length + 1)) ∧ retires (.baseLinkReplayTimeout link) l.length) ∧
     (s.fab.linkLives link = false →
       exec (.baseLinkCrcError link) s = .next s ∧ exec (.baseLinkReplayTimeout link) s = .next s))

/-! ### Membership and the cascade -/

/-- A membership message came on the operator secure channel, from this device's group (R369, R377). -/
def Sys2Proof.Claims.ofGroup (s : State) (m : MemberMsg) : Prop := m.operator = true ∧ m.group = s.fab.dget 0x5040 3

/-- Nothing of this device is with the devices of a list of addresses: no endpoint with a queue pair has one of them, and no folio is
parked on a peer (R244, R265). -/
def Sys2Proof.Claims.apartFrom (s : State) (l : List Nat) : Prop :=
  Claims.noFolios s ∧ ∀ p, p < 16 → ∀ e ∈ (s.fab.scope p).live.endpoints, 2 ≤ descField e.2 211 209 → l.contains (descField e.2 511 384) = false

/-- The rows that take a membership message. -/
def Sys2Proof.Claims.memberRows : List (MemberMsg → Instr) := [.heartbeat, .loss, .epoch, .stateMsg, .epochAck, .assign]

/-- The group's heartbeats and losses (R377, R378, R382, R433): a worker beats to its manager and its standby, the manager to its
standby, in a Channel 1 packet where that flow is free; of a cascade only the master. A heartbeat of a listed member notes its
epoch and the time; a LOSS of a member heard within the worker timeout is counted (0x9060:03) and nothing more. A message that
did not come on the operator secure channel is a MACsec drop, and one of another group is dropped and counted.

An epoch change (R434): the manager that loses a worker marks it lost, takes the lowest idle spare and sends STATE to its
standby; the standby applies it and acknowledges; with the acknowledgement, or without one after the timeout, the manager takes
the new epoch and sends EPOCH to every worker and ASSIGN to the spare; until acknowledged, STATE is repeated.

A worker, a spare, a standby and a cascade (R378, R381, R435): EPOCH is acknowledged, and one ahead of the worker's epoch is
applied: Kolas endpoints take the new address and the scope is committed; ASSIGN gives a spare its epoch, with an event; a standby
without its manager takes over, with no standby left, or, with its epoch behind, stays, with an event; a worker follows the
manager that speaks to it; a lost member of a cascade leaves 0x5050:03, and the memory context of every partition that owns
memory on it ends.
Choices of the model it follows: the free member index (log 24), uncounted drops (log 36), epoch message details (log
70), cascade details (log 71), membership flows (log 107). -/
def Obligations.MembershipFollowsTheManager : Prop :=
  (∀ (s : State), let f := s.fab
     let beat := f.memberMsg f.epoch (f.dget 0x9060 2) []
     let manager := f.dget 0x5040 4
     let standby := f.dget 0x5040 5
     let key : FlowKey := ⟨f.ownEngine, standby, 0, 0⟩
     let speaks := f.inCascade = false ∨ f.eff 0x5050 2 = 0
     f.phase = .running →
     (f.role = 1 → manager ≠ 0 → standby ≠ 0 → speaks → ∃ t, exec .heartbeatTimer s = .next t ∧ DeviceOnly s t ∧
       t.fab.memberOut = f.memberOut ++
         [(manager, 1, beat), (standby, 1, { beat with sequence := (f.memberSeq + 1) % 2 ^ 32 })] ∧
       t.fab.memberSeq = ((f.memberSeq + 1) % 2 ^ 32 + 1) % 2 ^ 32) ∧
     (f.role = 2 → standby ≠ 0 → speaks → Claims.flowFree s key → ∃ t, exec .heartbeatTimer s = .next t ∧ DeviceOnly s t ∧
       t.fab.memberOut = f.memberOut ++ [(standby, 1, beat)] ∧ t.fab.memberSeq = (f.memberSeq + 1) % 2 ^ 32 ∧
       t.fab.netOut = f.netOut ++ [.kolas (f.flowDress key 1) key 1 1 (f.flow key).nextPsn (f.flow key).expect false false
         (memberBytes 1 beat)]) ∧
     (f.role ≠ 1 → f.role ≠ 2 → exec .heartbeatTimer s = .next s) ∧ (¬speaks → exec .heartbeatTimer s = .next s) ∧
     (∀ m, ∀ row ∈ Claims.memberRows,
       (m.operator = false → ∃ t, exec (row m) s = .next t ∧ DeviceOnly s t ∧
         t.fab.dget 0x5021 2 = min (f.dget 0x5021 2 + 1) (2 ^ 64 - 1) ∧ t.fab.members = f.members ∧ t.fab.epoch = f.epoch) ∧
       (m.operator = true → m.group ≠ f.dget 0x5040 3 → ∃ t, exec (row m) s = .next t ∧ DeviceOnly s t ∧
         t.fab = { f with badPackets := f.badPackets + 1 })) ∧
     (∀ m x, Claims.ofGroup s m → (f.role = 2 ∨ f.role = 3) → f.members.find? m.member = some x →
       (∃ t, exec (.heartbeat m) s = .next t ∧ DeviceOnly s t ∧
         t.fab.member m.member = { x with epoch := m.epoch, heardAt := f.now } ∧
         (∀ i, i ≠ m.member → t.fab.member i = f.member i) ∧ { t.fab with members := [] } = { f with members := [] }) ∧
       (f.now < x.heardAt + f.dget 0x9060 0x40 → ∃ t, exec (.loss m) s = .next t ∧ DeviceOnly s t ∧
         t.fab.dget 0x9060 3 = min (f.dget 0x9060 3 + 1) (2 ^ 32 - 1) ∧ t.fab.members = f.members) ∧
       (x.heardAt + f.dget 0x9060 0x40 ≤ f.now → exec (.loss m) s = .next s))) ∧
  ((∀ (s : State) m x, let f := s.fab
     let spare := (f.setMemberState m 2).idleSpare
     f.phase = .running → f.role = 2 → f.members.find? m = some x → x.state ≠ 2 → f.lossQueue = [] → f.epochChanges = [] →
     f.dget 0x5040 5 ≠ 0 → Claims.apartFrom s x.addresses →
     ∃ t c, exec (.workerLossTimeout m) s = .next t ∧ DeviceOnly s t ∧ (t.fab.member m).state = 2 ∧ t.fab.lossQueue = [] ∧
       (∀ i, spare = some i → (t.fab.member i).state = 1) ∧ t.fab.epoch = f.epoch ∧
       t.fab.epochChanges = [c] ∧ c.member = m ∧ c.spare = spare ∧ c.epoch = (f.epoch + 1) % 2 ^ 32 ∧ c.published = false ∧
       c.pairs = x.addresses.zip (match spare with | some i => (f.member i).addresses | none => List.replicate 8 0) ∧
       t.fab.memberOut = f.memberOut ++ [(f.dget 0x5040 5, 6, f.memberMsg c.epoch m c.pairs)]) ∧
   (∀ (s : State) m x, let f := s.fab
     f.phase = .running → Claims.ofGroup s m → f.role = 3 → f.members.find? m.member = some x → m.epoch < 2 ^ 32 →
     Claims.apartFrom s (m.pairs.map (·.1)) →
     ∃ t, exec (.stateMsg m) s = .next t ∧ DeviceOnly s t ∧
       t.fab.memberOut = f.memberOut ++ [(m.sender, 4, f.memberMsg m.epoch m.member [])] ∧ t.fab.epoch = max f.epoch m.epoch ∧
       (if f.epoch < m.epoch then (t.fab.member m.member).state = 2 else t.fab.members = f.members)) ∧
   (∀ (s : State) c, let f := s.fab
     let announced := fun (t : State) => t.fab.epoch = c.epoch ∧
       (∀ i ∈ f.workers c.spare, ∃ g, (f.memberAddress i, 3, g) ∈ t.fab.memberOut ∧ g.epoch = c.epoch ∧ g.member = c.member ∧
         g.pairs = c.pairs) ∧
       (∀ i, c.spare = some i → ∃ g, (f.memberAddress i, 5, g) ∈ t.fab.memberOut ∧ g.epoch = c.epoch ∧ g.pairs = c.pairs)
     f.phase = .running → f.role = 2 → f.epochChanges = [c] → f.lossQueue = [] → c.epoch < 2 ^ 32 →
     (c.published = false → ∀ m, Claims.ofGroup s m → m.sender = f.dget 0x5040 5 → m.epoch = c.epoch →
       ∃ t, exec (.epochAck m) s = .next t ∧ DeviceOnly s t ∧ announced t ∧ t.fab.epochChanges = []) ∧
     (c.published = false → ∃ t, exec .epochAckTimeout s = .next t ∧ DeviceOnly s t ∧ announced t ∧
       t.fab.epochChanges = [{ c with published := true }]) ∧
     (c.published = true → exec .epochAckTimeout s = .next s) ∧
     (c.published = true → ∃ t, exec .stateRepeat s = .next t ∧ DeviceOnly s t ∧
       t.fab.memberOut = f.memberOut ++ [(f.dget 0x5040 5, 6, f.memberMsg c.epoch c.member c.pairs)]) ∧
     (c.published = false → exec .stateRepeat s = .next s))) ∧
  ((∀ (s : State) m, let f := s.fab
     f.phase = .running → Claims.ofGroup s m → f.role = 1 → Claims.apartFrom s (m.pairs.map (·.1)) → m.epoch < 2 ^ 32 →
     let answered := fun (t : State) => t.fab.memberOut = f.memberOut ++ [(m.sender, 4, f.memberMsg m.epoch m.member [])] ∧
       t.fab.dget 0x5040 4 = m.sender
     (m.epoch ≤ f.epoch → ∃ t, exec (.epoch m) s = .next t ∧ DeviceOnly s t ∧ answered t ∧ t.fab.epoch = f.epoch) ∧
     (f.epoch < m.epoch → f.scopes = [] → ∃ t, exec (.epoch m) s = .next t ∧ DeviceOnly s t ∧ answered t ∧
       t.fab.epoch = m.epoch) ∧
     (∀ p i d new, f.epoch < m.epoch → p < 16 →
       f.scopes = [(p, { Scope.none with
         live := { Bank.none with endpoints := [(i, d)] }, shadow := { Bank.none with endpoints := [(i, d)] } })] →
       f.colls = [] → descField d 211 209 = 1 → endpointOk [] i d = true →
       m.pairs = [(descField d 511 384, new)] →
       ∃ t, exec (.epoch m) s = .next t ∧ DeviceOnly s t ∧ answered t ∧ t.fab.epoch = m.epoch ∧ (t.fab.scope p).bank = true ∧
         ∃ d', (t.fab.scope p).live.endpoints = [(i, d')] ∧ descField d' 511 384 = new % 2 ^ 128 ∧
           descField d' 383 0 = descField d 383 0)) ∧
   (∀ (s : State) m, s.fab.phase = .running → Claims.ofGroup s m → s.fab.role = 1 → Claims.apartFrom s (m.pairs.map (·.1)) →
     ∃ t, exec (.assign m) s = .next t ∧ DeviceOnly s t ∧ t.fab.epoch = m.epoch ∧
       Claims.Logged s t 0x000E 0x0603 none m.member m.epoch) ∧
   (∀ (s : State), s.fab.phase = .running →
     (s.fab.role = 3 → s.fab.epoch < s.fab.heardEpoch → ∃ t, exec .managerTimeout s = .next t ∧ DeviceOnly s t ∧
       t.fab.role = 3 ∧ Claims.Logged s t 0x000E 0x0604 none 1 s.fab.epoch) ∧
     (s.fab.role = 3 → s.fab.heardEpoch ≤ s.fab.epoch → ∃ t, exec .managerTimeout s = .next t ∧ DeviceOnly s t ∧
       t.fab.role = 2 ∧ t.fab.dget 0x5040 4 = s.fab.dget 0x5040 5 ∧ t.fab.dget 0x5040 5 = 0 ∧ t.fab.epoch = s.fab.epoch ∧
       Claims.Logged s t 0x000E 0x0604 none 0 s.fab.epoch) ∧
     (s.fab.role ≠ 3 → exec .managerTimeout s = .next s)) ∧
   (∀ (s : State) k, s.fab.phase = .running →
     (s.fab.eff 0x5050 2 = 0 → 0 < k → k < s.fab.eff 0x5050 1 → s.fab.colls = [] → ∃ t, exec (.cascadeLinkLoss k) s = .next t ∧ DeviceOnly s t ∧
       bit (t.fab.dget 0x5050 3) k = false ∧ (∀ j, j ≠ k → bit (t.fab.dget 0x5050 3) j = bit (s.fab.dget 0x5050 3) j) ∧
       (∀ p ∈ s.fab.memberPartitions k, t.fab.dget 0x3030 (p + 1) = 1) ∧
       (s.fab.memberPartitions k = [] → Claims.Logged s t (0x0710 + k) 0x0305 none k 0)) ∧
     (s.fab.eff 0x5050 2 ≠ 0 → exec (.cascadeLinkLoss k) s = .next s)))

/-! ### Samplers and learning steps -/

/-- The strand's pending FLAG_TRAP does not fire for NV, or no flag is raised. -/
def Sys2Proof.Claims.quietNv (t : Strand) : Prop := t.flagTrap &&& 1 = 0

/-- SAMPLE and SACCEPT on a Fine cluster, when they execute, queue their operation at the sampler unit of their base die, with its
operands as at issue, and leave sd pending; while the unit's queue of 16 is full they wait (R137, R161, R249).

The sampler unit (R249, R256, R267, R274, R275). SAMPLER_START of an idle unit takes the oldest queued operation and computes
it; one that its block or its operands do not allow is rejected. SAMPLER_COMMIT of an open, unmoved, unparked sequence raises
its committed length to the greater of the two, and rejects the instruction where the sequence may not be changed.
SAMPLER_COMPLETE writes the token (and for SACCEPT the accepted count below it) to sd, which is no longer pending, and counts
the drafts; a rejected one writes all ones and raises NV.
Choices of the model it follows: queues in front of units (log 34), sampler checks (log 61), accesses made at once (log
93). -/
def Obligations.SamplersQueueAndRun : Prop :=
  (∀ row ∈ [((.sample : Issue → Instr), 0x90, (fun _ => none : Word → Option Nat)),
            (.saccept, 0x91, fun w => some ((w.setWidth 5).toNat))],
     ∀ (s : State) (x : Issue), let c := x.cluster
       let cl := s.fab.cluster c
       let t0 := strandOf s x
       let b := baseDieOf c
       let aa := (t0.areg (fRa x.word)).toNat
       let ab := (t0.areg (fRb x.word)).toNat
       let u := s.fab.sampler b
       (Claims.atPc s x row.2.1 → s.fab.precise c x.strand x.word = none → 16 ≤ u.queue.length → exec (row.1 x) s = .next s) ∧
       (executes s x row.2.1 = true →
         ∃ t, exec (row.1 x) s = .next t ∧ DeviceOnly s t ∧
           (t.fab.sampler b).queue = u.queue ++ [⟨c, cl.nextOp, s.fab.clusterOwner c, aa, ab, row.2.2 x.word⟩] ∧
           (t.fab.sampler b).serving = u.serving ∧ (∀ d, d ≠ b → t.fab.sampler d = s.fab.sampler d) ∧
           (t.fab.cluster c).ops = cl.ops ++
             [{ id := cl.nextOp, strand := x.strand, epc := t0.pc, kind := .sample (fRd x.word) aa ab (row.2.2 x.word),
                held := Claims.isHeld s c t.fab.cycle (.sample (fRd x.word) aa ab (row.2.2 x.word)), issued := t.fab.cycle,
                due := t.fab.cycle + OpKind.latency false (.sample (fRd x.word) aa ab (row.2.2 x.word)), late := false }] ∧
           (t.fab.cluster c).nextOp = cl.nextOp + 1 ∧
           strandOf t x = { t0 with pc := t0.pc + 1, busy := t0.busy ++ [.s (fRd x.word)] } ∧
           (∀ j, j ≠ x.strand → t.fab.strand c j = s.fab.strand c j) ∧
           (∀ d, d ≠ c → t.fab.cluster d = s.fab.cluster d) ∧
           { t.fab with clusters := [], samplers := [], cycle := 0 } = { s.fab with clusters := [], samplers := [], cycle := 0 })) ∧
  ((∀ (s : State) b x r, let u := s.fab.sampler b
     let y := ((W.of s).map (fun f => f.onSampler b (fun u => { u with queue := r }))).runSampler b x
     s.fab.phase = .running → s.fab.halts 944 = false → u.serving = none → u.queue = x :: r →
     (s.fab.samplerOp x).isSome = true → y.1.waits = false →
     (∀ tok a cs, y.2 = .result tok a cs → ∃ t, exec (.samplerStart b) s = .next t ∧ DeviceOnly s t ∧
       t.fab.sampler b = ⟨r, some ⟨x, some (tok, a), cs, cs.isEmpty⟩⟩ ∧ ∀ d, d ≠ b → t.fab.sampler d = s.fab.sampler d) ∧
     (y.2 = .reject → ∃ t, exec (.samplerStart b) s = .next t ∧ DeviceOnly s t ∧
       t.fab.sampler b = ⟨r, some ⟨x, none, [], true⟩⟩ ∧ ∀ d, d ≠ b → t.fab.sampler d = s.fab.sampler d)) ∧
   (∀ (s : State) b v i n, let u := s.fab.sampler b
     let p := v.item.partition
     let q := (W.of s).seq p i
     s.fab.phase = .running → u.serving = some v → v.committed = false → v.commit = [(i, n)] → n < 2 ^ 32 →
     (s.fab.samplerOp v.item).isSome = true → Claims.readable s p (s.fab.seqAddr p i) = true → i < (s.fab.seqTable p).2 →
     (seqState q = 1 → seqMoving q = 0 → seqParked q = 0 → ∃ t, exec (.samplerCommit b) s = .next t ∧ t.sec = s.sec ∧
       Claims.MemKept s t p [(s.fab.seqAddr p i, 64)] ∧ (W.of t).seq p i = setL q (max (seqL q) n) ∧
       t.fab.sampler b = { u with serving := some { v with committed := true } }) ∧
     ((seqState q ≠ 1 ∨ seqMoving q ≠ 0 ∨ seqParked q ≠ 0) → ∃ t, exec (.samplerCommit b) s = .next t ∧ DeviceOnly s t ∧
       t.fab.sampler b = { u with serving := some { v with result := none, commit := [], committed := true } })) ∧
   (∀ (s : State) b v o rd aa ab dr, let u := s.fab.sampler b
     let p := v.item.partition
     let t0 := s.fab.strand v.item.cluster o.strand
     let starts := fun (t : State) => DeviceOnly s t ∧ t.fab.sampler b = { u with serving := none } ∧
       (∀ q ∈ (t.fab.cluster v.item.cluster).ops, q.id ≠ v.item.op) ∧
       (t.fab.strand v.item.cluster o.strand).busy = removeFirst (· == .s rd) t0.busy ∧
       ∀ j, j ≠ rd → (t.fab.strand v.item.cluster o.strand).sreg j = t0.sreg j
     s.fab.phase = .running → Claims.atWork s v.item.cluster → p < 16 → u.serving = some v → v.committed = true →
     s.fab.samplerOp v.item = some o → o.kind = .sample rd aa ab dr → Claims.quietNv t0 →
     (∀ tok, v.result = some (tok, 0) → v.item.draft = none → ∃ t, exec (.samplerComplete b) s = .next t ∧ starts t ∧
       (t.fab.strand v.item.cluster o.strand).sreg rd = BitVec.ofNat 64 tok) ∧
     (∀ tok a d, v.result = some (tok, a) → v.item.draft = some d → ∃ t, exec (.samplerComplete b) s = .next t ∧ starts t ∧
       (t.fab.strand v.item.cluster o.strand).sreg rd = BitVec.ofNat 64 (a + tok * 2 ^ 32) ∧
       t.fab.dget 0x7050 (p + 1) = min (s.fab.dget 0x7050 (p + 1) + d) (2 ^ 64 - 1) ∧
       t.fab.dget 0x7051 (p + 1) = min (s.fab.dget 0x7051 (p + 1) + a) (2 ^ 64 - 1)) ∧
     (v.result = none → ∃ t, exec (.samplerComplete b) s = .next t ∧ starts t ∧
       (t.fab.strand v.item.cluster o.strand).sreg rd = BitVec.allOnes 64 ∧
       (t.fab.strand v.item.cluster o.strand).flags = t0.flags ||| 1 ∧
       t.fab.dget 0x7053 (p + 1) = min (s.fab.dget 0x7053 (p + 1) + 1) (2 ^ 32 - 1))))

/-- DRAINB_APPLIED, once the transaction of its DRAINB stands at the Blotter, to an Accumulating slice of this Writer that holds a slot: element 64 (offset + j) + n grows by accumulator entry
(base + j, n) as the drain read it, rounded once, for every row and column drained, and every other element of the slot is as it was; a slot that no
such slice holds, or rows past its end, raise COLLECTIVE_ERROR with SLOT_RANGE (R19, R153, R282 to R284). Either way the transaction has
ended; before it stands there nothing happens.
Choices of the model it follows: flags of drains and jobs (log 45), accesses made at once (log 93). -/
def Obligations.DrainsAddToTheirSlice : Prop :=
  ∀ (s : State) (o : OpRef) q y slot offset base m width got, let c := o.cluster
    let cl := s.fab.cluster c
    let p := y.tag.partition
    let b := baseDieOf c
    s.fab.phase = .running → Claims.atWork s c → cl.ops = [q] → q.id = o.op → q.held = false →
    s.fab.txns = [y] → y.origin = .op c q.id → y.ahead = [] → s.fab.stalled y = false → Claims.portsEmpty s →
    q.kind = .drainb slot offset base m width (some got) → width ≤ 64 →
    (∀ x, s.fab.drainbSlice p b slot c = some x → x.onFallback = false → offset + m ≤ x.units →
      ∃ t, exec (.drainbApplied o) s = .next t ∧ DeviceOnly s t ∧ (t.fab.cluster c).ops = [] ∧ t.fab.txns = [] ∧
        (∀ j n, j < m → n < width → (t.fab.slot b slot).fp.get 0 (64 * (offset + j) + n) =
          (fpAdd ((s.fab.slot b slot).fp.get 0 (64 * (offset + j) + n)) (got.get 0 (64 * (base + j) + n))).1) ∧
        (∀ i, (i < 64 * offset ∨ 64 * (offset + m) ≤ i ∨ width ≤ i % 64) →
          (t.fab.slot b slot).fp.get 0 i = (s.fab.slot b slot).fp.get 0 i) ∧
        (t.fab.slot b slot).holder = (s.fab.slot b slot).holder) ∧
    (∀ t0, s.fab.strand c q.strand = t0 → t0.st = .running → t0.tvec ≠ 0 → Claims.issuedNow s c →
      (s.fab.drainbSlice p b slot c = none ∨ ∃ x, s.fab.drainbSlice p b slot c = some x ∧ x.units < offset + m) →
      ∃ t, exec (.drainbApplied o) s = .next t ∧ DeviceOnly s t ∧ (t.fab.cluster c).ops = [] ∧ t.fab.txns = [] ∧ t.fab.slots = s.fab.slots ∧
        (t.fab.strand c q.strand).st = .trapped ∧ (t.fab.strand c q.strand).cause = 0x14 ∧
        (t.fab.strand c q.strand).epc = q.epc ∧ (t.fab.strand c q.strand).einfo = 1)

/-- No check slice of the open step waits to be compared. -/
def Sys2Proof.Claims.noChecks (r : StepRec) : Prop := ∀ x ∈ r.slices, x.kind = 0 ∨ x.state ≠ 2

/-- The slice and scale tables of a partition can be reached, each as a whole and entry by entry (R277, R439). -/
def Sys2Proof.Claims.stepTables (s : State) (p : Nat) : Bool :=
  s.fab.inWindows p (s.fab.sliceAddr p 0) (64 * s.fab.sliceCount p) && Claims.sound s (s.fab.sliceAddr p 0) (64 * s.fab.sliceCount p) &&
  s.fab.inWindows p (s.fab.scaleAddr p 0) (64 * s.fab.scaleCount p) && Claims.sound s (s.fab.scaleAddr p 0) (64 * s.fab.scaleCount p) &&
  (List.range (s.fab.sliceCount p)).all (fun n => Claims.readable s p (s.fab.sliceAddr p n)) &&
  (List.range (s.fab.scaleCount p)).all (fun n => Claims.readable s p (s.fab.scaleAddr p n))

/-- STEP_OPEN of a running partition with no open step opens one at wave 0 with the number and the wave counter of its entry, and
completes DONE; STEP_CLOSE of one with nothing Sealed ends it. What they refuse they refuse with BUSY, STEP_STATE, BAD_COMMAND or
STEP_BUSY, and no step changes (R277, R278, R281, R290).

WAVE_OPEN goes to the next wave once no gradient slice of this one is Accumulating, and otherwise, or at the last wave, changes
nothing. FALLBACK_AREAS_WRITTEN makes a claimed slice Accumulating, with its fallback area zero, and signals the package counter
of the step by 1 (R281).
Choices of the model it follows: what lies outside the package (log 9), slice and step checks (log 58), accesses made at
once (log 93). -/
def Obligations.LearningStepsOpenFillAndClose : Prop :=
  (∀ (s : State) (e : Entry), let p := e.partition
     let open_ := s.fab.steps.find? p
     p < 16 →
     (Claims.front s e 0x20 = true →
       (s.fab.dget 0xB001 (p + 1) ≠ 2 → ∃ t, exec (.stepOpen e) s = .next t ∧ Claims.Completed s t e 0x0B 0 ∧ t.mem = s.mem ∧
         t.fab.steps = s.fab.steps) ∧
       (s.fab.dget 0xB001 (p + 1) = 2 → open_ ≠ none → ∃ t, exec (.stepOpen e) s = .next t ∧ Claims.Completed s t e 0x20 0 ∧
         t.mem = s.mem ∧ t.fab.steps = s.fab.steps) ∧
       (s.fab.dget 0xB001 (p + 1) = 2 → open_ = none → (s.fab.sliceCount p = 0 ∨ s.fab.scaleCount p = 0) →
         ∃ t, exec (.stepOpen e) s = .next t ∧ Claims.Completed s t e 0x03 0 ∧ t.mem = s.mem ∧ t.fab.steps = s.fab.steps) ∧
       (s.fab.dget 0xB001 (p + 1) = 2 → open_ = none → s.fab.sliceCount p ≠ 0 → s.fab.scaleCount p ≠ 0 →
         Claims.stepTables s p = true →
         ∃ t r, exec (.stepOpen e) s = .next t ∧ Claims.Completed s t e 0 0 ∧ t.fab.steps.find? p = some r ∧
           r.number = word e 0 % 2 ^ 32 ∧ r.waveCounter = word e 1 % 64 ∧ r.wave = 0 ∧ r.filling = true ∧
           (∀ n, n < s.fab.sliceCount p → ((W.of s).sliceAt p n).wave < r.waves) ∧
           t.fab.dget 0x8030 (p + 1) = word e 0 % 2 ^ 32 ∧ ∀ q, q ≠ p → t.fab.steps.find? q = s.fab.steps.find? q)) ∧
     (Claims.front s e 0x21 = true →
       (open_ = none → ∃ t, exec (.stepClose e) s = .next t ∧ Claims.Completed s t e 0x20 0 ∧ t.mem = s.mem ∧
         t.fab.steps = s.fab.steps) ∧
       (∀ r, open_ = some r → (∃ x ∈ r.slices, x.state = 3) → ∃ t, exec (.stepClose e) s = .next t ∧
         Claims.Completed s t e 0x21 0 ∧ t.mem = s.mem ∧ t.fab.steps = s.fab.steps) ∧
       (∀ r, open_ = some r → (∀ x ∈ r.slices, x.state ≠ 3) → Claims.noChecks r → Claims.stepTables s p = true →
         ∃ t, exec (.stepClose e) s = .next t ∧ Claims.Completed s t e 0 0 ∧ t.fab.steps.find? p = none ∧
           ∀ q, q ≠ p → t.fab.steps.find? q = s.fab.steps.find? q))) ∧
  (∀ (s : State) p r, s.fab.phase = .running → p < 16 → s.fab.steps.find? p = some r →
     let busy := ∃ x ∈ r.slices, x.wave = r.wave ∧ x.kind = 0 ∧ x.state = 2
     ((r.filling = true ∨ r.waves ≤ r.wave + 1 ∨ busy) → exec (.waveOpen p) s = .next s) ∧
     (r.filling = false → r.wave + 1 < r.waves → ¬busy → Claims.noChecks r → Claims.stepTables s p = true →
       ∃ t r', exec (.waveOpen p) s = .next t ∧ t.sec = s.sec ∧ t.fab.steps.find? p = some r' ∧ r'.wave = r.wave + 1 ∧
         r'.filling = true ∧ r'.number = r.number ∧ r'.waves = r.waves ∧ r'.waveCounter = r.waveCounter) ∧
     (r.filling = false → exec (.fallbackAreasWritten p) s = .next s) ∧
     (∀ x, r.filling = true → r.slices = [x] → x.wave = r.wave → x.state = 1 → x.fallback % 64 = 0 →
       s.fab.inWindows p x.fallback (256 * x.units) = true → Claims.readable s p (s.fab.sliceAddr p x.number) = true →
       (s.fab.wayTo [] (some x.home) x.fallback).isSome = true →
       Claims.apart x.fallback (256 * x.units) (s.fab.sliceAddr p x.number) 64 →
       ∃ t r', exec (.fallbackAreasWritten p) s = .next t ∧ t.sec = s.sec ∧ t.fab.steps.find? p = some r' ∧
         r'.slices = [{ x with state := 2 }] ∧ r'.filling = false ∧ r'.wave = r.wave ∧
         (x.onFallback = true → ∀ a, x.fallback ≤ a → a < x.fallback + 256 * x.units → (W.of t).load p a = 0) ∧
         Claims.MemKept s t p ((s.fab.sliceAddr p x.number, 64) :: if x.onFallback then [(x.fallback, 256 * x.units)] else []) ∧
         ∀ k, t.fab.packageCtr.get 0 k = if k = 64 * p + r.waveCounter then s.fab.packageCtr.get 0 k + 1
           else s.fab.packageCtr.get 0 k))

/-! ### The dictionary agent -/

/-- The agent serves a request at once (R406, R407, R413, R416, R417): the device runs, its function's service runs, the request is
admitted, and for one that a command makes no other waits and its transport lets it through. -/
def Sys2Proof.Claims.serves (s : State) (rq : Requester) : Bool :=
  s.fab.phase == .running && s.fab.serves? rq && s.fab.admits rq && s.fab.agent.queue.isEmpty && (W.of s).reachesAgent rq

/-- A whole value `b` fits its entry (R408, R419, R482): the right and the entry's access allow the write, the value has the entry's
width, is in range, and the entry is not busy; a first management key comes by a transport that may bring it. -/
def Sys2Proof.Claims.fits (s : State) (rq : Requester) (i sub : Nat) (b : List Byte) : Bool :=
  match s.fab.entryAccess rq i sub true with
  | .ok d => b.length == d.ty.width && !(i == 0xA010 && (W.of s).keyShut rq) && !(W.of s).entryBusy d i sub (beNat b) &&
      !s.fab.rangeBad d i sub (beNat b) b
  | .error _ => false

/-- A whole value `b` that a command writes to an entry is applied at once, outside P1 (R406 to R408, R419, R460). -/
def Sys2Proof.Claims.mayWrite (s : State) (rq : Requester) (i sub : Nat) (b : List Byte) : Bool :=
  Claims.serves s rq && s.fab.dget 0x2040 1 != 1 && Claims.fits s rq i sub b

/-- The same of a number. -/
def Sys2Proof.Claims.mayWriteNat (s : State) (rq : Requester) (i sub v : Nat) : Bool :=
  Claims.mayWrite s rq i sub (valueBytes i sub v)

/-- A write was answered OK (0x1101:01 counts it, R422). -/
structure Sys2Proof.Claims.WriteOk (s t : State) : Prop where
  accepted : t.fab.dget 0x1101 1 = min (s.fab.dget 0x1101 1 + 1) (2 ^ 64 - 1)
  refused : t.fab.dget 0x1101 2 = s.fab.dget 0x1101 2

/-- A write was refused: 0x1101:02 counts it, and every other entry, memory and the security block are as they were. -/
structure Sys2Proof.Claims.WriteRefused (s t : State) : Prop where
  counted : t.fab.dget 0x1101 2 = min (s.fab.dget 0x1101 2 + 1) (2 ^ 32 - 1)
  entries : ∀ j k, k < 256 → (j ≠ 0x1101 ∨ k ≠ 2) → t.fab.dget j k = s.fab.dget j k
  mem : t.mem = s.mem
  sec : t.sec = s.sec

/-- An entry whose write does nothing but set it. -/
def Sys2Proof.Claims.plainEntry (i : Nat) : Bool :=
  !([0x2040, 0x2050, 0x2051, 0x2052, 0x2100, 0x5003, 0x5008, 0x5030, 0x9001, 0x9061, 0x9105, 0x9200, 0xA001, 0xA010, 0xA110, 0xA120,
    0xA200, 0xA201, 0xB000, 0xB002].contains i) && !(Nat.ble 0xB100 i && Nat.ble i 0xB140)

/-- A write of an entry that only sets it: the entry reads the value and no other entry but the count of answered requests
changes; PORT_MODE_WRITE and PORT_ENABLE_WRITE set theirs, and EVENT_LOG_RELEASE takes the oldest records off the log. A
write that the right, the level or the entry's access forbids is refused and counted; one whose reply mailbox is not the
requester's, or full, is dropped and counted; an allowed write ends P1; one that may not be served yet joins the agent's queue, one
over a TAP whose fuse is blown does nothing, and one over the management port without a key is counted (R357, R406 to R408, R413,
R416, R417, R419, R422, R430, R460, R493).
Choices of the model it follows: counts stay at their largest value (log 28), writes applied at once (log 85), command
entries (log 87). -/
def Obligations.DictionaryWritesAreCheckedAndApplied : Prop :=
  (∀ (s : State) rq i sub v, Claims.mayWriteNat s rq i sub v = true → Claims.plainEntry i = true →
    ∃ t, exec (.dictionaryWrite rq i sub v) s = .next t ∧ t.mem = s.mem ∧ t.sec = s.sec ∧ t.fab.dget i sub = v ∧
      Claims.WriteOk s t ∧
      ∀ j k, k < 256 → (j ≠ i ∨ k ≠ sub) → (j ≠ 0x1101 ∨ k ≠ 1) → t.fab.dget j k = s.fab.dget j k) ∧
  (∀ (s : State) rq engine v, Claims.mayWriteNat s rq 0x5001 (engine + 1) v = true →
    ∃ t, exec (.portModeWrite rq engine v) s = .next t ∧ t.mem = s.mem ∧ t.sec = s.sec ∧
      t.fab.dget 0x5001 (engine + 1) = v ∧ Claims.WriteOk s t) ∧
  (∀ (s : State) rq port v, Claims.mayWriteNat s rq 0x5003 (port + 1) v = true →
    ∃ t, exec (.portEnableWrite rq port v) s = .next t ∧ t.mem = s.mem ∧ t.sec = s.sec ∧
      t.fab.dget 0x5003 (port + 1) = v ∧ Claims.WriteOk s t) ∧
  (∀ (s : State) rq n, Claims.mayWriteNat s rq 0x9001 5 n = true → s.fab.log.traces + s.fab.log.logs = 0 →
    s.fab.log.overflow = none →
    ∃ t, exec (.eventLogRelease rq n) s = .next t ∧ t.mem = s.mem ∧ t.sec = s.sec ∧
      t.fab.log.queue = s.fab.log.queue.drop n ∧ Claims.WriteOk s t) ∧
  (∀ (s : State) rq i sub v st, s.fab.phase = .running →
    (Claims.serves s rq = true → s.fab.entryAccess rq i sub true = .error st →
      ∃ t, exec (.dictionaryWrite rq i sub v) s = .next t ∧ Claims.WriteRefused s t) ∧
    ((W.of s).reachesAgent rq = true →
      (s.fab.agent.queue = [] → s.fab.serves? rq = true → s.fab.admits rq = false →
        ∃ t, exec (.dictionaryWrite rq i sub v) s = .next t ∧ DeviceOnly s t ∧
          t.fab.dget 0x1101 3 = min (s.fab.dget 0x1101 3 + 1) (2 ^ 32 - 1)) ∧
      ((s.fab.agent.queue ≠ [] ∨ s.fab.serves? rq = false) → exec (.dictionaryWrite rq i sub v) s = .next { s with fab := { s.fab with
        agent := { s.fab.agent with
          queue := s.fab.agent.queue ++ (commandFrames rq i sub (valueBytes i sub v)).map (fun fr => (rq, fr)) } } })) ∧
    ((W.of s).reachesAgent rq = false →
      (rq.transport = .jtag → exec (.dictionaryWrite rq i sub v) s = .next s) ∧
      (rq.transport = .management → ∃ t, exec (.dictionaryWrite rq i sub v) s = .next t ∧ DeviceOnly s t ∧
        t.fab.dget 0x1101 4 = min (s.fab.dget 0x1101 4 + 1) (2 ^ 32 - 1)))) ∧
  (∀ (s : State) rq i sub v d, Claims.serves s rq = true → s.fab.entryAccess rq i sub true = .ok d →
    v < 2 ^ (8 * d.ty.width) → Claims.plainEntry i = true → s.fab.dget 0x2040 1 = 1 →
    ∃ t, exec (.dictionaryWrite rq i sub v) s = .next t ∧ t.fab.dget 0x2040 1 = 0)

/-- Frames (R364, R373, R410 to R420, R493). MGMT_PORT_FRAME to another UDP port is not the agent's; it drops and counts a frame without a key installed or with a wrong tag (0x1101:04),
and one whose Sequence does not rise (0x1101:05); a good one joins the agent's queue and its Sequence is kept.
IN_BAND_RINAY_FRAME of an up port, to the Rinay UDP port in force, joins it under the operator channel, or unprotected from the manager or
the standby where MACsec mode is 0, and at a cascade's member any that came over its link to the master; another is dropped and
counted (0x5021:02, R369, R373, R414), and one whose headers are not in order is dropped. RINAY_READ at the head of the queue is answered with the
entry's value, or with the status of the first check that fails; RINAY_WRITE writes; RINAY_STRAY_FRAME is dropped and counted
(0x1101:03). JTAG_DICTIONARY_ACCESS answers with Debug right, and does nothing once the debug fuse is blown; TAP_RESET resets
the TAP; behind other requests the access waits for its turn.
Choices of the model it follows: opaque cryptography (log 7), frame checks (log 84), writes applied at once (log 85),
management addresses (log 86). -/
def Obligations.FramesAreCheckedQueuedAndAnswered : Prop :=
  (∀ (s : State) (at_ : MgmtAt) fr tag, s.fab.phase = .running → let src := at_.source
    let udp := s.fab.agent.queue.filter (fun x => [Transport.management, .inBand, .cascade].contains x.1.transport)
    let seen := s.fab.agent.replay.any (fun x => x.1 == src && Nat.ble fr.sequence x.2)
    let ends := fun (t : State) => exec (.mgmtPortFrame at_ fr tag) s = .next t ∧ DeviceOnly s t
    (at_.udpPort ≠ s.fab.eff 0x5020 2 → exec (.mgmtPortFrame at_ fr tag) s = .next s) ∧
    (at_.udpPort = s.fab.eff 0x5020 2 → s.sec.managementKey = none → ∃ t, ends t ∧ t.fab.agent = s.fab.agent ∧
      t.fab.dget 0x1101 4 = min (s.fab.dget 0x1101 4 + 1) (2 ^ 32 - 1)) ∧
    (∀ key, at_.udpPort = s.fab.eff 0x5020 2 → s.sec.managementKey = some key →
      (frameTag key src fr ≠ tag → ∃ t, ends t ∧ t.fab.agent = s.fab.agent ∧
        t.fab.dget 0x1101 4 = min (s.fab.dget 0x1101 4 + 1) (2 ^ 32 - 1)) ∧
      (frameTag key src fr = tag → seen = true → ∃ t, ends t ∧ t.fab.agent = s.fab.agent ∧
        t.fab.dget 0x1101 5 = min (s.fab.dget 0x1101 5 + 1) (2 ^ 32 - 1)) ∧
      (frameTag key src fr = tag → seen = false → udp.length < 64 → ∃ t, ends t ∧
        t.fab.agent.queue = s.fab.agent.queue ++
          [(⟨.management, src, fr.requestId, fr.reply, ⟨0, at_.udpSource, (W.of s).managementAddress⟩⟩, fr)] ∧
        t.fab.agent.replay.find? (fun x => x.1 == src) = some (src, fr.sequence) ∧ t.fab.agent.replay.length ≤ 16 ∧
        t.fab.dict = s.fab.dict))) ∧
  (∀ (s : State) src fr (at_ : UdpAt) secured, s.fab.phase = .running → let port := at_.port
    let udp := s.fab.agent.queue.filter (fun x => [Transport.management, .inBand, .cascade].contains x.1.transport)
    let here := s.fab.portUp port = true ∧ at_.intact = true ∧ at_.udpPort = s.fab.eff 0x5020 2
    let link := s.fab.isMember = true ∧ port = 28
    let path : ReplyPath := ⟨port, at_.udpSource, s.fab.engineAddress (port / 4)⟩
    let good := s.fab.secureIn port secured = true ∧
      match secured with | some x => x.channel = 16 | none => src = s.fab.dget 0x5040 4 ∨ src = s.fab.dget 0x5040 5
    (¬here → exec (.inBandRinayFrame src fr at_ secured) s = .next s) ∧
    (∀ transport, here → udp.length < 64 →
      (transport = .inBand ∧ ¬link ∧ good ∧ src ≠ 0 ∨ transport = .cascade ∧ link ∧ s.fab.secureIn port secured = true) →
      ∃ t, exec (.inBandRinayFrame src fr at_ secured) s = .next t ∧
      DeviceOnly s t ∧ t.fab.agent.queue = s.fab.agent.queue ++ [(⟨transport, src, fr.requestId, fr.reply, path⟩, fr)] ∧
      { t.fab with agent := s.fab.agent } = s.fab.received port secured) ∧
    (here → (¬link ∧ ¬good ∨ link ∧ s.fab.secureIn port secured = false) →
      ∃ t, exec (.inBandRinayFrame src fr at_ secured) s = .next t ∧
      DeviceOnly s t ∧ t.fab.agent = s.fab.agent ∧ t.fab.dget 0x5021 2 = min (s.fab.dget 0x5021 2 + 1) (2 ^ 64 - 1))) ∧
  (∀ (s : State) rq fr rest, let key := s.sec.managementKey.getD 0
    s.fab.phase = .running → s.fab.halts 944 = false → s.fab.agent.queue = (rq, fr) :: rest → rq.transport = .management →
    fr.kind = 1 →
    badFrame rq fr 1 = false → fr.device = 0 →
    let reply := fun (g : Frame) => NetOut.rinayReply none rq.source rq.path.udpPort g (frameTag key rq.path.own g)
    (∀ d, s.fab.entryAccess rq fr.index fr.subindex false = .ok d → (fr.type = 0 ∨ fr.type = d.ty.code) → d.ty.width ≤ 48 →
      fr.offset = 0 → ∃ t, exec (.rinayRead rq fr) s = .next t ∧ DeviceOnly s t ∧ t.fab.agent.queue = rest ∧
        t.fab.netOut = s.fab.netOut ++
          [reply (responseFrame fr 0 d.ty.code true ((W.of s).entryBytes d fr.index fr.subindex))] ∧ Claims.WriteOk s t) ∧
    (∀ st, s.fab.entryAccess rq fr.index fr.subindex false = .error st → ∃ t, exec (.rinayRead rq fr) s = .next t ∧ DeviceOnly s t ∧
      t.fab.agent.queue = rest ∧ t.fab.netOut = s.fab.netOut ++
        [reply (responseFrame fr st (entryCode fr.index fr.subindex) false [])] ∧
      t.fab.dget 0x1101 2 = min (s.fab.dget 0x1101 2 + 1) (2 ^ 32 - 1))) ∧
  (∀ (s : State) rq fr rest, let b := fr.payload.take fr.length
    s.fab.agent.queue = (rq, fr) :: rest → fr.kind = 2 → badFrame rq fr 2 = false → fr.device = 0 → fr.type = 0 →
    fr.offset = 0 → b.length ≤ 48 → b.length = fr.length → s.fab.phase = .running → s.fab.dget 0x2040 1 ≠ 1 →
    s.fab.serves? rq = true → s.fab.admits rq = true → Claims.fits s rq fr.index fr.subindex b = true →
    Claims.plainEntry fr.index = true →
    ∃ t, exec (.rinayWrite rq fr) s = .next t ∧ t.mem = s.mem ∧ t.sec = s.sec ∧ t.fab.agent.queue = rest ∧
      t.fab.dget fr.index fr.subindex = beNat b ∧ Claims.WriteOk s t) ∧
  (∀ (s : State) rq fr rest, s.fab.phase = .running → s.fab.agent.queue = (rq, fr) :: rest → (fr.kind = 3 ∨ fr.kind = 4) →
    ∃ t, exec (.rinayStrayFrame fr) s = .next t ∧ DeviceOnly s t ∧ t.fab.agent.queue = rest ∧
      t.fab.dget 0x1101 3 = min (s.fab.dget 0x1101 3 + 1) (2 ^ 32 - 1)) ∧
  (∀ (s : State) fr, s.fab.phase = .running →
    let rq : Requester := ⟨.jtag, 0, fr.requestId, fr.reply, .none⟩
    (s.sec.fuses.debugDisable = true → exec (.jtagDictionaryAccess fr) s = .next s ∧ exec .tapReset s = .next s) ∧
    (s.sec.fuses.debugDisable = false → exec .tapReset s = .next { s with sec := { s.sec with tapReset := true } }) ∧
    (s.sec.fuses.debugDisable = false → s.fab.agent.queue ≠ [] → exec (.jtagDictionaryAccess fr) s = .next { s with
      sec := { s.sec with tapReset := false },
      fab := { s.fab with agent := { s.fab.agent with queue := s.fab.agent.queue ++ [(rq, fr)] } } }) ∧
    (∀ d, s.sec.fuses.debugDisable = false → s.fab.agent.queue = [] → s.fab.halts 944 = false → fr.kind = 1 → badFrame rq fr 1 = false → fr.device = 0 →
      s.fab.entryAccess rq fr.index fr.subindex false = .ok d → fr.type = 0 → d.ty.width ≤ 48 → fr.offset = 0 →
      ∃ t r, exec (.jtagDictionaryAccess fr) s = .next t ∧ t.mem = s.mem ∧ t.sec = { s.sec with tapReset := false } ∧
        t.fab.agent.queue = [] ∧ t.fab.agent.given = s.fab.agent.given ++ [r] ∧ r.status = 0 ∧
        r.payload = (W.of s).entryBytes d fr.index fr.subindex))

/-! ### Noivos and EWS -/

/-- The four restore commands with the values they write (R441). -/
def Sys2Proof.Claims.restoreRows : List ((Requester → Nat → Instr) × Nat) :=
  [(.noivosFullRestoreLocal, 1), (.noivosDeltaRestoreLocal, 2), (.noivosFullRestoreRemote, 3), (.noivosDeltaRestoreRemote, 4)]

/-- Noivos (R437 to R441). A restore command that its entry allows makes the partition's Noivos restore (0x9107 reads 3). RESTORED with
the records of a complete copy writes every page of the areas (or, of a delta, those whose bit of that copy is set) with the bytes of
the newest such copy and nothing else of memory, and the restore is over; without one, or after a read that failed, no memory changes.
CHECKPOINT_PAGE_ACK of a page read takes it off the checkpoint, and clears its bit of that copy where no target has failed; with the last page the checkpoint ends and 0x9108 reads its step. An
uncorrectable line in a page still to be read ends the checkpoint. CHECKPOINT_FAILED ends it once every target has failed. HELD_PAGE_WRITE_RELEASE reads the page and lets the held write go.
Choices of the model it follows: what lies outside the package (log 9), the free checkpoint status (log 25), checkpoint
records (log 65), accesses made at once (log 93), reserved bytes of the area table (log 101). -/
def Obligations.NoivosCopiesAndRestores : Prop :=
  (∀ row ∈ Claims.restoreRows, ∀ (s : State) rq p, Claims.mayWriteNat s rq 0x9105 (p + 1) row.2 = true →
    ∃ t, exec (row.1 rq p) s = .next t ∧ t.mem = s.mem ∧ t.sec = s.sec ∧ Claims.WriteOk s t ∧
      t.fab.noivosOf p = { s.fab.noivosOf p with restoring := some row.2 } ∧ t.fab.dget 0x9107 (p + 1) = 3) ∧
  (∀ (s : State) p records pages failed, s.fab.phase = .running → let v := s.fab.noivosOf p
    (v.restoring = none → exec (.restored p records pages failed) s = .next s) ∧
    (∀ mode, v.restoring = some mode →
      (newestCopy records = none ∨ failed = true → ∃ t, exec (.restored p records pages failed) s = .next t ∧ DeviceOnly s t ∧
        t.fab.noivosOf p = { v with restoring := none }) ∧
      (∀ j step, newestCopy records = some (j, step) → failed = false → v.running = none → s.fab.calm = true →
        let gs := v.restored mode j
        (∀ g ∈ gs, s.fab.inWindows p (g * 65536) 65536 = true) →
        ∃ t, exec (.restored p records pages failed) s = .next t ∧ t.sec = s.sec ∧
          Claims.MemKept s t p (gs.map (fun g => (g * 65536, 65536))) ∧
          (∀ g ∈ gs, (W.of t).loads p (g * 65536) 65536 = pageBytes pages g) ∧
          (t.fab.noivosOf p).restoring = none ∧ (t.fab.noivosOf p).clean j = v.pages ∧
          (t.fab.noivosOf p).clean (1 - j) = []))) ∧
  (∀ (s : State) p page c, s.fab.phase = .running → let v := s.fab.noivosOf p
    let left := c.pages.filter (· != page)
    v.running = some c →
    (page ∉ c.pages → exec (.checkpointPageAck p page) s = .next s) ∧
    (page ∈ c.pages → page ∉ c.read → s.fab.badIn (page * 65536) 65536 ≠ none → c.failed = [] → s.fab.calm = true →
      ∃ t, exec (.checkpointPageAck p page) s = .next t ∧ t.sec = s.sec ∧ (t.fab.noivosOf p).running = none) ∧
    (page ∈ c.pages → page ∈ c.read →
      (left ≠ [] → ∃ t, exec (.checkpointPageAck p page) s = .next t ∧ DeviceOnly s t ∧
        (t.fab.noivosOf p).running = some { c with pages := left } ∧
        (t.fab.noivosOf p).clean c.copy = if c.failed = [] then v.clean c.copy ++ [page] else v.clean c.copy) ∧
      (left = [] → ∃ t, exec (.checkpointPageAck p page) s = .next t ∧ DeviceOnly s t ∧
        (t.fab.noivosOf p).running = none ∧ (t.fab.noivosOf p).nextNumber = v.nextNumber + 1 ∧
        t.fab.dget 0x9108 (p + 1) = c.step))) ∧
  (∀ (s : State) p c, s.fab.phase = .running → (s.fab.noivosOf p).running = some c →
    (c.failed = [] → s.fab.eff 0x9102 (p + 1) = 0xFFFF → ∃ t, exec (.checkpointFailed p 0) s = .next t ∧ DeviceOnly s t ∧
      (t.fab.noivosOf p).running = none) ∧
    (∀ target, target < 2 → c.failed = [] → s.fab.eff 0x9102 (p + 1) ≠ 0xFFFF →
      ∃ t, exec (.checkpointFailed p target) s = .next t ∧ DeviceOnly s t ∧
        (t.fab.noivosOf p).running = some { c with failed := [target] })) ∧
  (∀ (s : State) u c o bytes, s.fab.phase = .running → s.fab.txn? u.id = some u →
    (u.heldPage = false → exec (.heldPageWriteRelease u.id) s = .next s) ∧
    (u.heldPage = true → u.far = .package → u.origin = .op c o.id → (s.fab.cluster c).op? o.id = some o →
      s.fab.answer u.tag u.ranges = .ok → u.write = some bytes → s.fab.badLines = [] → s.fab.softLines = [] →
      (∀ c, (s.fab.noivosOf u.tag.partition).running = some c → u.addr / 65536 ∈ c.pages → u.addr / 65536 ∉ c.read →
        ((W.of s).access (fun d => s.fab.unitTag u.tag.partition (d - 16) 6 d false) (u.addr / 65536 * 65536) 65536 false).2 = .ok) →
      (∀ e ∈ s.fab.clusters, Claims.noTransfers (s.fab.cluster e.1)) → Claims.PortsQuiet s.fab →
      ∃ t, exec (.heldPageWriteRelease u.id) s = .next t ∧ t.sec = s.sec ∧
        (∀ i, i < bytes.length → Memory.read t.mem (u.addr + i) = bytes.getD i 0) ∧
        (∀ b, (∀ i, i < bytes.length → b / 64 ≠ (u.addr + i) / 64) → Memory.read t.mem b = Memory.read s.mem b) ∧
        (∀ v ∈ t.fab.txns, v.id ≠ u.id) ∧
        ∀ c, (s.fab.noivosOf u.tag.partition).running = some c → u.addr / 65536 ∈ c.pages →
          ∃ c', (t.fab.noivosOf u.tag.partition).running = some c' ∧ u.addr / 65536 ∈ c'.read))

/-- The state with EWS_N at a level. -/
def Sys2Proof.Claims.pinned (s : State) (high : Bool) : State :=
  { s with fab := { s.fab with inPins := { s.fab.inPins with ewsHigh := high } } }

/-- EWS_N (R443, R460, R467): the assertion makes EWS state (0x9200:02) 1 and wakes the device from P1; the end of its grace aborts a
running launch, and the state becomes 2 with no launch left (`ewsGraced` notes the end of the grace); with no checkpoint running it
becomes 3; EWS resume with the pin high ends the hold, and before it, or with the pin low, is BUSY. Each does nothing in another state
but to note the pin; during a warm reset the pin alone is noted.
Choices of the model it follows: EWS order (log 83). -/
def Obligations.EwsRunsItsSequence : Prop :=
  (∀ (s : State), s.fab.phase = .warmHeld → exec .ewsAsserted s = .next (Claims.pinned s false)) ∧
  ∀ (s : State), s.fab.phase = .running → let st := s.fab.dget 0x9200 2
    (st = 0 → ∃ t, exec .ewsAsserted s = .next t ∧ DeviceOnly s t ∧ t.fab.dget 0x9200 2 = 1 ∧ t.fab.inPins.ewsHigh = false ∧
      (s.fab.dget 0x2040 1 = 1 → t.fab.dget 0x2040 1 = 0)) ∧
    (st ≠ 0 → s.fab.dget 0x2040 1 ≠ 1 → exec .ewsAsserted s = .next (Claims.pinned s false)) ∧
    (st = 1 → s.fab.ewsGraced = false → s.fab.ductus = [] → ∃ t, exec .ewsGraceExpiry s = .next t ∧ t.sec = s.sec ∧
      t.fab.ewsGraced = true ∧ (s.fab.launches = [] → t.fab.dget 0x9200 2 = 2) ∧
      ∀ l c, s.fab.launches = [l] → l.partition < 16 → l.phase = .running → l.clusters = [c] → (s.fab.cluster c).phase = .running →
        (∃ j, (s.fab.strand c j).over = false) → (t.fab.cluster c).phase = .terminating ∧ t.fab.launches.map Launch.phase = [.aborting] ∧ t.fab.dget 0x9200 2 = 1) ∧
    (st ≠ 1 ∨ s.fab.ewsGraced = true → exec .ewsGraceExpiry s = .next s) ∧
    (st = 2 → (∀ e ∈ s.fab.noivos, e.2.running = none) → ∃ t, exec .ewsHolding s = .next t ∧ DeviceOnly s t ∧
      t.fab.dget 0x9200 2 = 3) ∧
    ((st ≠ 2 ∨ ∃ e ∈ s.fab.noivos, e.2.running ≠ none) → exec .ewsHolding s = .next s) ∧
    (∀ rq d pin, Claims.serves s rq = true → s.fab.dget 0x2040 1 ≠ 1 → s.fab.entryAccess rq 0x9200 3 true = .ok d →
      (st = 3 → pin = true → ∃ t, exec (.ewsResume rq pin) s = .next t ∧ t.mem = s.mem ∧ t.sec = s.sec ∧ t.fab.dget 0x9200 2 = 0 ∧
        t.fab.ewsGraced = false ∧ Claims.WriteOk s t) ∧
      (st ≠ 3 ∨ pin = false → ∃ t, exec (.ewsResume rq pin) s = .next t ∧ Claims.WriteRefused s t))

/-! ### Power, temperature and clocks -/

/-- Every entry but those listed reads as it did. -/
def Sys2Proof.Claims.EntriesKept (s t : State) (l : List (Nat × Nat)) : Prop :=
  ∀ j k, k < 256 → (j, k) ∉ l → t.fab.dget j k = s.fab.dget j k

/-- POWER_SAMPLE steps the sprint budget by 1 µs at the power sampled, capped at 30 J, shows it in mJ (0x2010:02), keeps the last ten
samples, and sets the ceiling (0x2010:04): 3,600 W while sprint is enabled, its budget lasts, and neither heat nor wear forbids
it, else 3,000 W, and never above the thermal ceiling (R447). DUTY_UPDATE sets the issue duty (0x2010:03): 0 over the junction
limit; at most one less than it was while the averaged power exceeds the ceiling; under strict isolation Strict duty, below it only while the power exceeds the ceiling, and counted (R448, R450, R479).

THERMAL_CHECK of a temperature in tenths of a degree (R450): the hottest value is shown; at the clamp threshold the clamp begins
and counts, and ends below 2 °C less; while it lasts the thermal ceiling falls by 50 W to no less than 1,500 W, and else rises to
no more than 3,600 W; from 105 °C until below 100 °C no issue is allowed. THERMAL_TRIP drives THERMTRIP_N low whenever the
device has power. WEAR_SECOND counts a second above 95 °C and blows a wear fuse at each multiple of 360,000 (R451).
Choices of the model it follows: readings from outside (log 15), budget and credit details (log 72). -/
def Obligations.PowerAndHeatLimitTheDevice : Prop :=
  (∀ (s : State), s.fab.phase = .running →
     (∀ p, let b := if 3000000 < p then s.fab.budget - (p - 3000000)
         else min (s.fab.budget + min (3000000 - p) (1000 * s.fab.dget 0x2010 0x41)) 30000000000
       let sprint := s.fab.dget 0x2010 0x40 = 1 ∧ 0 < b ∧ s.fab.sprintHot = false ∧
         s.fab.dget 0x2030 1 < 3600 * s.fab.dget 0x2030 0x40
       ∃ t, exec (.powerSample p) s = .next t ∧ DeviceOnly s t ∧ t.fab.budget = b ∧ t.fab.dget 0x2010 2 = b / 1000000 ∧
         t.fab.powerWindow = (p :: s.fab.powerWindow).take 10 ∧
         (sprint → t.fab.dget 0x2010 4 = min 3600 s.fab.thermalCeiling) ∧
         (¬sprint → t.fab.dget 0x2010 4 = min 3000 s.fab.thermalCeiling) ∧
         Claims.EntriesKept s t [(0x2010, 1), (0x2010, 2), (0x2010, 4)]) ∧
     (∀ d, let fixed := s.fab.dget 0xB000 2
       let before := s.fab.dget 0x2010 3
       let hot := s.fab.dget 0x2010 4 < s.fab.dget 0x2010 1
       let sets := fun (v : Nat) => ∃ t, exec (.dutyUpdate d) s = .next t ∧ DeviceOnly s t ∧ t.fab.dget 0x2010 3 = v ∧
         Claims.EntriesKept s t [(0x2010, 3)]
       (64 < d → exec (.dutyUpdate d) s = .next s) ∧
       (d ≤ 64 → s.fab.junctionStop = true → sets 0) ∧
       (d ≤ 64 → s.fab.junctionStop = false → s.fab.dget 0xB000 1 ≠ 1 → sets (if hot then min d (before - 1) else d)) ∧
       (d ≤ 64 → s.fab.junctionStop = false → s.fab.dget 0xB000 1 = 1 → ¬(hot ∧ d < fixed) → sets fixed) ∧
       (d ≤ 64 → s.fab.junctionStop = false → s.fab.dget 0xB000 1 = 1 → hot → d < fixed →
         ∃ t, exec (.dutyUpdate d) s = .next t ∧ DeviceOnly s t ∧ t.fab.dget 0x2010 3 = d ∧
           t.fab.dget 0xB000 3 = min (s.fab.dget 0xB000 3 + 1) (2 ^ 32 - 1)))) ∧
  ((∀ (s : State) (x : Int), s.fab.phase = .running →
     let clamp : Int := 10 * s.fab.dget 0x2020 0x41
     ∃ t, exec (.thermalCheck x) s = .next t ∧ DeviceOnly s t ∧ t.fab.dget 0x2020 1 = (BitVec.ofInt 16 x).toNat ∧
       t.fab.clamped = (if s.fab.clamped then decide (clamp - 20 ≤ x) else decide (clamp ≤ x)) ∧
       t.fab.thermalCeiling = (if t.fab.clamped then max 1500 (s.fab.thermalCeiling - 50)
         else min 3600 (s.fab.thermalCeiling + 50)) ∧
       t.fab.dget 0x2020 2 = (if t.fab.clamped = true ∧ s.fab.clamped = false
         then min (s.fab.dget 0x2020 2 + 1) (2 ^ 32 - 1) else s.fab.dget 0x2020 2) ∧
       t.fab.junctionStop = (if s.fab.junctionStop then decide (1000 ≤ x) else decide (1050 ≤ x)) ∧
       (t.fab.junctionStop = true → t.fab.dget 0x2010 3 = 0) ∧
       Claims.EntriesKept s t [(0x2020, 1), (0x2020, 2), (0x2010, 3)]) ∧
   (∀ (s : State), (s.fab.phase = .off → exec .thermalTrip s = .next s) ∧
     (s.fab.phase ≠ .off → ∃ t, exec .thermalTrip s = .next t ∧ DeviceOnly s t ∧
       t.fab = { s.fab with pins := { s.fab.pins with thermtripN := false } })) ∧
   (∀ (s : State) (x : Int), s.fab.phase = .running → let n := min (s.fab.dget 0x2030 1 + 1) (2 ^ 64 - 1)
     (x ≤ 950 → exec (.wearSecond x) s = .next s) ∧
     (950 < x → ∃ t, exec (.wearSecond x) s = .next t ∧ t.mem = s.mem ∧ t.fab.dget 0x2030 1 = n ∧
       Claims.EntriesKept s t [(0x2030, 1)] ∧
       t.sec = { s.sec with fuses := { s.sec.fuses with
         wear := if n % 360000 = 0 ∧ s.sec.fuses.wear < 1024 then s.sec.fuses.wear + 1 else s.sec.fuses.wear } })))

/-- Power states (0x2040:01; R459 to R461, R468), stated of S1 where no transaction is in flight. IDLE_GATING_ENTRY of an idle device with gating enabled enters P1 and otherwise does
nothing; WAKE_EVENT leaves it. A request of S1 that its entry allows enters it: no cluster holds anything, the event log is empty and the sprint budget is at its default; a request of P0 leaves
it: the Wells read zero and every cluster is under reset.
Choices of the model it follows: command entries (log 87). -/
def Obligations.PowerStatesAreEnteredAndLeft : Prop :=
  ∀ (s : State), s.fab.phase = .running → let st := s.fab.dget 0x2040 1
    let gates := s.fab.dget 0x2040 0x40 = 1 ∧ st = 0 ∧ s.fab.allIdle = true
    (gates → ∃ t, exec .idleGatingEntry s = .next t ∧ DeviceOnly s t ∧ t.fab.dget 0x2040 1 = 1 ∧
      Claims.EntriesKept s t [(0x2040, 1)]) ∧
    (¬gates → exec .idleGatingEntry s = .next s) ∧
    (∀ w, (st = 1 → ∃ t, exec (.wakeEvent w) s = .next t ∧ DeviceOnly s t ∧ t.fab.dget 0x2040 1 = 0 ∧
        Claims.EntriesKept s t [(0x2040, 1)]) ∧
      (st ≠ 1 → exec (.wakeEvent w) s = .next s)) ∧
    (∀ rq, Claims.mayWriteNat s rq 0x2040 2 2 = true → st ≠ 2 → s.fab.txns = [] → ∃ t, exec (.powerStateRequestS1 rq) s = .next t ∧
      t.mem = s.mem ∧ t.sec = s.sec ∧ t.fab.dget 0x2040 1 = 2 ∧ t.fab.regionCtr = [] ∧ t.fab.log = .empty ∧ t.fab.budget = State.reset.fab.budget ∧
      ∀ c, (t.fab.cluster c).phase = .idle ∧ (t.fab.cluster c).imem = [] ∧ (t.fab.cluster c).ops = []) ∧
    (∀ rq, Claims.mayWriteNat s rq 0x2040 2 0 = true → st = 2 → ∃ t, exec (.powerStateRequestP0 rq) s = .next t ∧
      t.sec = s.sec ∧ t.fab.dget 0x2040 1 = 0 ∧ Claims.WriteOk s t ∧ (∀ c, c < 800 → (t.fab.cluster c).phase = .resetting) ∧
      ∀ c i, c < 800 → i < 2 ^ 20 → Memory.read t.mem (wellBase c + i) = 0)

/-- Only the clock islands changed, and of them only one. -/
structure Sys2Proof.Claims.IslandIs (s t : State) (i : Nat) (x : Island) : Prop extends DeviceOnly s t where
  here : t.fab.island i = x
  others : ∀ j, j ≠ i → t.fab.island j = s.fab.island j

/-- An island whose PLL A (false) or B has locked and been counted (R454). -/
def Sys2Proof.Claims.locked (x : Island) (b : Bool) : Island :=
  if b then { x with readyB := true, lostB := false } else { x with readyA := true, lostA := false }

/-- An island without the reference of its PLL A (R458): that PLL is not ready, and where it was the live one, out of the safe state, and
the other is ready, firmware has moved the island. -/
def Sys2Proof.Claims.starved (x : Island) : Island :=
  if x.liveB = false ∧ x.readyB = true ∧ x.safe = false then { x with liveB := true, readyA := false, safe := false, moved := true, asks := false }
  else { x with readyA := false }

/-- An island whose PLL B has lost its reference (R453, R456). -/
def Sys2Proof.Claims.backupLost (x : Island) : Island :=
  if x.liveB = false then { x with readyB := false, lostB := true }
  else if x.safe = true then x else { x with readyB := false, lostB := true, safe := true }

/-- Clock islands (R453 to R458). PLL_READY makes a source of an island ready, and a switch that waited for it runs: one that hardware
asked for, and firmware's to PLL B while the reference of PLL A is lost, or back once it has returned. PLL_LOCK_LOSS of the live
source puts the island in its safe state, which the islands of memory, photonics and management leave by themselves for a ready
source, or ask to; that of the other source makes it not ready. A request of the live source does nothing, of a ready one takes it
(0x2100:04 reads 0) with a cluster that it recovers under reset, and of one that is not ready, or of a cluster under reset, is BUSY
(it reads 1 or 3). The loss of a reference takes PLL A's readiness from every island it feeds and moves those that can, and every PLL B it feeds loses lock; its return moves back those that it moved; its bit of
0x2110:01 follows. PPS_EDGE and PPS_TIMEOUT set and clear the PPS bit, and a grandmaster is synchronised by the edge (R368, R499).
Choices of the model it follows: readings from outside (log 15), steering of the time base (log 68), clock switches (log
73). -/
def Obligations.ClockIslandsSwitch : Prop :=
  (∀ (s : State) i, s.fab.phase = .running → let x := s.fab.island i
    let becomes := fun (c : Instr) (y : Island) => ∃ t, exec c s = .next t ∧ Claims.IslandIs s t i y
    (946 ≤ i → ∀ p b, exec (.pllReady i p) s = .next s ∧ exec (.pllLockLoss ⟨i, b⟩) s = .next s) ∧
    (i < 946 → ∀ b, let c := Instr.pllReady i (if b then 1 else 0)
      let y := Claims.locked x b
      (x.asks = false → s.fab.unfed i = false → ¬(x.liveB = true ∧ x.moved = true ∧ y.readyA = true) → becomes c y) ∧
      (x.asks = false → s.fab.unfed i = false → x.liveB = true → x.moved = true → b = false → becomes c (y.onto false)) ∧
      (x.asks = false → s.fab.unfed i = true → x.liveB = false → x.safe = false → b = true →
        becomes c { y.onto true with moved := true }) ∧
      (x.asks = true → 800 ≤ i → b = !x.liveB → becomes c (y.onto b))) ∧
    (i < 946 → becomes (.pllLockLoss ⟨i, true⟩)
      (if x.liveB then { x with readyA := false, lostA := true } else { x with readyB := false, lostB := true })) ∧
    (x.safe = true → exec (.pllLockLoss ⟨i, false⟩) s = .next s) ∧
    (i < 946 → x.safe = false → becomes (.pllLockLoss ⟨i, false⟩) (if x.liveB
      then { x with readyB := false, lostB := true, safe := true } else { x with readyA := false, lostA := true, safe := true })) ∧
    ((i < 904 ∨ 945 ≤ i ∨ x.safe = false) → exec (.hardwareClockSwitch i) s = .next s) ∧
    (904 ≤ i → i < 945 → x.safe = true →
      becomes (.hardwareClockSwitch i) (if x.otherReady then x.onto (!x.liveB) else { x with asks := true }))) ∧
  (∀ row ∈ [((.clockSourceRequestA : Requester → Instr), false), (.clockSourceRequestB, true)], ∀ (s : State) rq d,
    let i := s.fab.dget 0x2100 1
    let x := s.fab.island i
    let under := i < 800 ∧ (s.fab.cluster i).phase = .resetting
    let busy := fun (reason : Nat) => ∃ t, exec (row.1 rq) s = .next t ∧ t.mem = s.mem ∧ t.sec = s.sec ∧
      t.fab.islands = s.fab.islands ∧ t.fab.dget 0x2100 4 = reason ∧
      t.fab.dget 0x1101 2 = min (s.fab.dget 0x1101 2 + 1) (2 ^ 32 - 1)
    Claims.serves s rq = true → s.fab.dget 0x2040 1 ≠ 1 → s.fab.entryAccess rq 0x2100 3 true = .ok d →
    (under → busy 3) ∧
    (¬under → x.liveB = row.2 → ∃ t, exec (row.1 rq) s = .next t ∧ t.mem = s.mem ∧ t.sec = s.sec ∧ Claims.WriteOk s t ∧
      t.fab.islands = s.fab.islands) ∧
    (¬under → x.liveB ≠ row.2 → x.ready row.2 = false → busy 1) ∧
    (¬under → x.liveB ≠ row.2 → x.ready row.2 = true → ∃ t, exec (row.1 rq) s = .next t ∧ t.sec = s.sec ∧ Claims.WriteOk s t ∧
      t.fab.island i = x.onto row.2 ∧ t.fab.dget 0x2100 4 = 0 ∧
      (800 ≤ i ∨ x.safe = false → t.mem = s.mem) ∧
      (i < 800 → x.safe = true → s.fab.resetWaits = [] → (t.fab.cluster i).phase = .resetting))) ∧
  (∀ (s : State) input, s.fab.phase = .running →
    (input ≠ 0 → input ≠ 1 → input ≠ 3 → exec (.referenceLoss input) s = .next s ∧ exec (.referenceReturn input) s = .next s) ∧
    (input = 0 ∨ input = 1 ∨ input = 3 →
    (∃ t, exec (.referenceLoss input) s = .next t ∧ DeviceOnly s t ∧ bit (t.fab.dget 0x2110 1) input = false ∧
      (∀ k, k < 4 → k ≠ input → bit (t.fab.dget 0x2110 1) k = bit (s.fab.dget 0x2110 1) k) ∧
      ∀ i, t.fab.island i = if i ∈ fedBy input false then Claims.starved (s.fab.island i)
        else if i ∈ fedBy input true then Claims.backupLost (s.fab.island i) else s.fab.island i) ∧
    (∃ t, exec (.referenceReturn input) s = .next t ∧ DeviceOnly s t ∧ bit (t.fab.dget 0x2110 1) input = true ∧
      (∀ k, k < 4 → k ≠ input → bit (t.fab.dget 0x2110 1) k = bit (s.fab.dget 0x2110 1) k) ∧
      ∀ i, t.fab.island i = if i ∈ fedBy input false ∧ (s.fab.island i).liveB = true ∧ (s.fab.island i).moved = true ∧
          (s.fab.island i).readyA = true
        then (s.fab.island i).onto false else s.fab.island i))) ∧
  (∀ (s : State), s.fab.phase = .running →
    (∃ t, exec .ppsEdge s = .next t ∧ DeviceOnly s t ∧ t.fab.inPins.ppsSeen = true ∧ bit (t.fab.dget 0x2110 1) 2 = true ∧
      (s.fab.dget 0x5030 2 = 2 → t.fab.dget 0x5030 4 = 2) ∧
      (s.fab.dget 0x5030 2 ≠ 2 → t.fab.dget 0x5030 4 = s.fab.dget 0x5030 4)) ∧
    (∃ t, exec .ppsTimeout s = .next t ∧ DeviceOnly s t ∧ t.fab.inPins.ppsSeen = false ∧ bit (t.fab.dget 0x2110 1) 2 = false ∧
      (s.fab.dget 0x5030 2 = 2 → t.fab.dget 0x5030 4 = 0) ∧
      (s.fab.dget 0x5030 2 ≠ 2 → t.fab.dget 0x5030 4 = s.fab.dget 0x5030 4)))

/-! ### Boot and resets -/

/-- Every cluster is under reset, waiting for its self-test. -/
def Sys2Proof.Claims.allResetting (t : State) : Prop := ∀ c, c < 800 → (t.fab.cluster c).phase = .resetting

/-- What a write of an entry works on once its requester's own staged value of another entry is gone (R412). -/
def Sys2Proof.Claims.narrowed (s : State) (rq : Requester) (i sub : Nat) : W :=
  (W.of s).map (fun f => { f with agent := f.agent.narrow (requesterKey rq) i sub })

/-- The accesses on the way of a command had to wait for nothing and met no uncorrectable line. -/
def Sys2Proof.Claims.unhindered (w : W) : Prop := w.waits = false ∧ w.faults = []

/-- POWER_LOSS leaves nothing but the fuses: the device is off, memory reads zero, no key is held, and every clock island is in its safe
state. COLD_RESET of a device that is off
loads the wear count from its fuses, trains the host link unless PERST_N holds it (0xC001), and waits for an image (R384, R446, R451,
R463, R468). BOOT_GO starts the load of an image;
BOOT_CHECK_FAILED with DMA_ERROR or the code of the first check that fails returns to the wait with that status;
FIRMWARE_START of an image that passes them all runs it, with every cluster under reset, and samples EWS_N (R463, R467, R483 to R485). A channel that failed
the training of the cold reset is retired then, its granules withdrawn and nothing to be filled (R209, R463).
Choices of the model it follows: bytes nothing has written (log 4), opaque cryptography (log 7), boot statuses (log 76),
records of what was sent (log 77). -/
def Obligations.BootRunsItsChecks : Prop :=
  ∀ (s : State),
    (s.fab.phase = .off → exec .powerLoss s = .next s) ∧
    (s.fab.phase ≠ .off → ∃ t, exec .powerLoss s = .next t ∧ t.fab.phase = .off ∧ t.sec.fuses = s.sec.fuses ∧
      t.sec.keys = [] ∧ t.fab.sas = [] ∧ t.sec.managementKey = none ∧ t.fab.launches = [] ∧
      (∀ i, i < 946 → (t.fab.island i).safe = true) ∧
      ∀ a, a < 2 ^ 48 → Memory.read t.mem a = 0) ∧
    (s.fab.phase ≠ .off → exec .coldReset s = .next s) ∧
    (s.fab.phase = .off → ∃ t, exec .coldReset s = .next t ∧ t.mem = s.mem ∧ t.fab.phase = .bootWait ∧
      t.sec.fuses = s.sec.fuses ∧ t.sec.keys = [] ∧ t.fab.dget 0x2030 1 = 360000 * s.sec.fuses.wear ∧
      t.fab.dget 0x2040 1 = 0 ∧ t.fab.dget 0x2050 3 = 0 ∧
      t.fab.inPins.linkUp = s.fab.inPins.perstN ∧ t.fab.dget 0xC001 1 = (if s.fab.inPins.perstN then 8 else 0) ∧
      t.fab.dget 0xC001 2 = (if s.fab.inPins.perstN then 64 else 0) ∧ ∀ p, p < 16 → t.fab.dget 0xB001 (p + 1) = 0) ∧
    (∀ a n, let go := s.fab.phase = .bootWait ∧ s.fab.inPins.linkUp = true
      (¬go → exec (.bootGo a n) s = .next s) ∧
      (go → a < 2 ^ 64 → n < 2 ^ 24 → ∃ t, exec (.bootGo a n) s = .next t ∧ t.mem = s.mem ∧
        t.fab = { s.fab with phase := .bootLoading } ∧
        t.sec = { s.sec with bootStatus := 1, bootAddress := a, bootLength := n })) ∧
    (∀ code image, let fails := s.fab.phase = .bootLoading ∧ (code = 0x10 ∨ s.sec.bootCheck image = some code)
      (¬fails → exec (.bootCheckFailed code image) s = .next s) ∧
      (fails → ∃ t, exec (.bootCheckFailed code image) s = .next t ∧ t.mem = s.mem ∧
        t.fab = { s.fab with phase := .bootWait } ∧ t.sec = { s.sec with bootStatus := code })) ∧
    (∀ image, let passes := s.fab.phase = .bootLoading ∧ s.sec.bootCheck image = none
      (¬passes → exec (.firmwareStart image) s = .next s) ∧
      (passes → s.fab.inPins.ewsHigh = false → s.fab.launches = [] → s.fab.noivos = [] → s.fab.dget 0x9200 2 = 0 →
        ∃ t, exec (.firmwareStart image) s = .next t ∧ t.fab.phase = .running ∧ Claims.allResetting t ∧ t.fab.dget 0x9200 2 = 1) ∧
      (passes → s.fab.inPins.ewsHigh = true → ∃ t, exec (.firmwareStart image) s = .next t ∧ t.mem = s.mem ∧ t.fab.phase = .running ∧
        Claims.allResetting t ∧ t.sec = { s.sec with bootStatus := 2, build := image.build } ∧
        t.fab.dget 0xA000 3 = image.securityVersion ∧
        ∀ ch, s.fab.chanTraining = [(ch, 3)] → ch < 256 → s.fab.sliceGone (ch / 32) = false → s.fab.retirement (ch / 32) = none →
          t.fab.dget 0x3011 (ch / 32 + 1) = ch % 32 ∧ t.fab.dget 0x3012 (ch / 32 + 1) = 4 ∧
          t.fab.dget 0x3000 4 = 62 - 2 * s.fab.nextRetirement)) ∧
    (∀ (image : FirmwareImage), image.magic ≠ 0x4C584657 → s.sec.bootCheck image = some 0x11) ∧
    (∀ (image : FirmwareImage), s.sec.bootCheck image = none →
      s.sec.fuses.versionMin ≤ image.securityVersion ∧ image.keySlot < 4 ∧ s.sec.fuses.revoked.getLsbD image.keySlot = false)

/-- Warm reset (R462, R464, R467, R468). WARM_RESET_PIN of a running device holds it in reset until RST_N_RELEASE, after which
every cluster is under self-test; WARM_RESET does all of it at once. Both leave P0, no launch and no step, zero Wells, and the
cause in 0x2050:03, and EWS_N is sampled at their end: 1 by pin, 2 by command, 2 more with retention, which keeps LPDDR5X; without it LPDDR5X is zero.
Choices of the model it follows: bytes nothing has written (log 4), warm reset order (log 78). -/
def Obligations.WarmResetsClearTheDevice : Prop :=
  ∀ (s : State), let keep := s.fab.dget 0x2050 1 = 1
    let cleared := fun (t : State) => t.fab.launches = [] ∧ t.fab.steps = [] ∧ t.fab.txns = [] ∧ t.fab.sas = [] ∧
      t.sec.fuses = s.sec.fuses ∧ t.fab.dget 0x2040 1 = 0 ∧
      (∀ c i, c < 800 → i < 2 ^ 20 → Memory.read t.mem (wellBase c + i) = 0) ∧
      (keep → t.sec.keys = s.sec.keys ∧ ∀ a, lpddrBase 0 ≤ a → Memory.read t.mem a = Memory.read s.mem a) ∧
      (¬keep → ∀ a, lpddrBase 0 ≤ a → a < lpddrBase 0 + 8 * 2 ^ 39 → Memory.read t.mem a = 0)
    (s.fab.phase = .off → exec .warmResetPin s = .next s) ∧
    (s.fab.phase = .running → ∃ t, exec .warmResetPin s = .next t ∧ t.fab.phase = .warmHeld ∧ t.fab.inPins.rstN = false ∧
      cleared t ∧ t.fab.dget 0x2050 3 = if keep then 3 else 1) ∧
    (∀ rq, Claims.mayWriteNat s rq 0x2050 2 1 = true → s.fab.inPins.ewsHigh = true → ∃ t, exec (.warmReset rq) s = .next t ∧ t.fab.phase = .running ∧
      cleared t ∧ Claims.allResetting t ∧ t.fab.dget 0x2050 3 = if keep then 4 else 2) ∧
    (s.fab.phase = .warmHeld → s.fab.inPins.ewsHigh = false → s.fab.launches = [] → s.fab.noivos = [] → s.fab.dget 0x9200 2 = 0 →
      ∃ t, exec .rstNRelease s = .next t ∧ t.fab.phase = .running ∧ Claims.allResetting t ∧ t.fab.dget 0x9200 2 = 1) ∧
    (s.fab.phase = .warmHeld → s.fab.inPins.ewsHigh = true → ∃ t, exec .rstNRelease s = .next t ∧ t.mem = s.mem ∧ t.sec = s.sec ∧ t.fab.phase = .running ∧
      t.fab.inPins.rstN = true ∧ Claims.allResetting t ∧ t.fab.dict = s.fab.dict)

/-- Cluster reset (R61, R62, R68, R466, R467): CLUSTER_RESET of a cluster leaves it under reset with nothing of its launch, a second
one, or one of a partition whose reset waits for its homes, is absorbed, and CLUSTER_RESET_DONE leaves it Idle, with the nibs that failed their self-test added to its bad-nib map and
its presented width set from it. PARTITION_RESET ends every launch and the step of the partition, zeroes its Wells, counters
and versions, and a running partition is stopped (R465, R468): stated where none of the memory accesses that this takes has to wait or
meets a bad line.
Choices of the model it follows: readings from outside (log 15), partition reset contents (log 79), function and cluster
resets (log 80). -/
def Obligations.ClusterAndPartitionResets : Prop :=
  (∀ (s : State) rq c, Claims.mayWriteNat s rq 0x2052 1 c = true →
    ((s.fab.cluster c).phase = .resetting ∨ s.fab.resetWaits.contains (s.fab.clusterOwner c) = true → ∃ t, exec (.clusterReset rq c) s = .next t ∧ t.mem = s.mem ∧ t.sec = s.sec ∧
      Claims.WriteOk s t ∧ t.fab.clusters = s.fab.clusters) ∧
    ((s.fab.cluster c).phase ≠ .resetting → s.fab.resetWaits.contains (s.fab.clusterOwner c) = false → ∃ t, exec (.clusterReset rq c) s = .next t ∧ t.sec = s.sec ∧
      (t.fab.cluster c).phase = .resetting ∧ (t.fab.cluster c).ops = [] ∧ (t.fab.cluster c).imem = [] ∧
      (∀ k, t.fab.strand c k = .idleReset) ∧ (∀ i, (t.fab.cluster c).acc.get 0 i = 0))) ∧
  (∀ (s : State) c (failing : BitVec 64), s.fab.phase = .running → let cl := s.fab.cluster c
    let bad := s.fab.badNibs c ||| failing.toNat
    ((800 ≤ c ∨ cl.phase ≠ .resetting) → exec (.clusterResetDone c failing) s = .next s) ∧
    (c < 800 → cl.phase = .resetting → ∃ t, exec (.clusterResetDone c failing) s = .next t ∧ DeviceOnly s t ∧
      t.fab.badNibs c = bad ∧ t.fab.width c = widthOf bad (s.fab.dget 0x4003 0x40 = 1) ∧
      t.fab.cluster c = { cl with phase := .idle, nibBad := false, nibLimit := s.fab.dget 0x4003 0x41 } ∧
      ∀ d, d ≠ c → t.fab.cluster d = s.fab.cluster d)) ∧
  (∀ (s : State) rq p, Claims.mayWriteNat s rq 0x2051 (p + 1) 1 = true → s.fab.dget 0x3030 (p + 1) = 0 →
    Claims.unhindered ((Claims.narrowed s rq 0x2051 (p + 1)).resetPartition p) →
    ∃ t, exec (.partitionReset rq p) s = .next t ∧ t.sec.keys = s.sec.keys ∧ t.sec.fuses = s.sec.fuses ∧
      (∀ l ∈ t.fab.launches, l.partition ≠ p) ∧ t.fab.steps.find? p = none ∧
      (∀ k, k < 8 → t.fab.version p k = .free) ∧ (∀ i, i < 64 → t.fab.packageCtr.get 0 (64 * p + i) = 0) ∧
      t.fab.dget 0xB001 (p + 1) = (if s.fab.dget 0xB001 (p + 1) = 2 then 1 else s.fab.dget 0xB001 (p + 1)) ∧
      (∀ c i, c < 800 → s.fab.clusterOwner c = p → i < 2 ^ 20 → Memory.read t.mem (wellBase c + i) = 0))

/-- FUNCTION_LEVEL_RESET of a function with no launch and no batch in flight: its rings and doorbells are at reset, its host windows
gone from both banks, the completions of commands already fetched discarded, and its notifications kept (R386).

The PCIe pins and the watchdog (R386, R393, R425, R499, R500). HP_PERST_ASSERT takes the link down, resets every function of a
running device, and ends a firmware load with DMA_ERROR; HP_PERST_RELEASE trains the link to a width and a rate of Table "PCIe support" (0xC001), but for a cascade member, whose link
stays in reset (R380), and a PCIe controller in its safe state (R456);
PCIE_RECOVERY_FAILURE takes it down and keeps the queues. WATCHDOG counts a restart (0x9050:01), for which the processor's tasks stop; MG_PHY_INT shows the management
port's state (0x1100:05).
Choices of the model it follows: readings from outside (log 15), the host link (log 19), function and cluster resets
(log 80), management processors (log 113). -/
def Obligations.PinsFunctionResetAndWatchdog : Prop :=
  (∀ (s : State) p, Claims.hostUp s = true → p < 16 → (∀ l ∈ s.fab.launches, l.partition ≠ p) →
     (∀ b ∈ s.fab.batches, b.partition ≠ p) →
     let v := s.fab.vf p
     let sc := s.fab.scope p
     ∃ t, exec (.functionLevelReset p) s = .next t ∧ DeviceOnly s t ∧
       t.fab.vf p = { v with
         sq := [], cq := .reset, errors := 0, msixArmed := false, nextRing := 0,
         openCmds := v.openCmds.map (fun x => (x.1, true)), queue := v.queue.filter (fun c => c.opcode == 0xFF) } ∧
       t.fab.scope p = { sc with
         live := { sc.live with hostWindows := [] }, shadow := { sc.shadow with hostWindows := [] } } ∧
       (∀ q, q ≠ p → t.fab.vf q = s.fab.vf q ∧ t.fab.scope q = s.fab.scope q) ∧
       { t.fab with vfs := [], scopes := [] } = { s.fab with vfs := [], scopes := [] }) ∧
  (∀ (s : State), let down := fun (t : State) => t.fab.inPins.linkUp = false ∧ t.fab.dget 0xC001 1 = 0 ∧ t.fab.dget 0xC001 2 = 0
     (s.fab.phase = .running → ∃ t, exec .hpPerstAssert s = .next t ∧ t.sec = s.sec ∧ down t ∧ t.fab.inPins.perstN = false ∧
       ∀ p, p < 16 → (t.fab.scope p).live.hostWindows = [] ∧ (t.fab.scope p).shadow.hostWindows = [] ∧
         (t.fab.vf p).sq = [] ∧ (t.fab.vf p).errors = 0 ∧ (t.fab.vf p).msixArmed = false) ∧
     (s.fab.phase = .bootLoading → ∃ t, exec .hpPerstAssert s = .next t ∧ t.mem = s.mem ∧ t.fab.phase = .bootWait ∧ down t ∧
       t.sec = { s.sec with bootStatus := 0x10 }) ∧
     (∀ width rate, s.fab.phase ≠ .off → s.fab.inPins.perstN = false →
       (s.fab.isMember = true ∨ (s.fab.island 945).safe = true ∨ linkMode width rate = false) →
       exec (.hpPerstRelease width rate) s = .next { s with fab := { s.fab with inPins := { s.fab.inPins with perstN := true } } }) ∧
     (∀ width rate, s.fab.phase ≠ .off → s.fab.inPins.perstN = false → s.fab.isMember = false → (s.fab.island 945).safe = false →
       linkMode width rate = true →
       ∃ t, exec (.hpPerstRelease width rate) s = .next t ∧ DeviceOnly s t ∧ t.fab.inPins.linkUp = true ∧
         t.fab.inPins.perstN = true ∧ t.fab.dget 0xC001 1 = width ∧ t.fab.dget 0xC001 2 = rate) ∧
     (∀ width rate, (s.fab.phase = .off ∨ s.fab.inPins.perstN = true) → exec (.hpPerstRelease width rate) s = .next s) ∧
     (s.fab.phase = .running → ∃ t, exec .pcieRecoveryFailure s = .next t ∧ DeviceOnly s t ∧ down t ∧ t.fab.vfs = s.fab.vfs ∧
       t.fab.launches = s.fab.launches) ∧
     (∀ processor restart, s.fab.phase = .running → processor < 4 → ∃ t, exec (.watchdog processor restart) s = .next t ∧
       DeviceOnly s t ∧ t.fab.dget 0x9050 1 = min (s.fab.dget 0x9050 1 + 1) (2 ^ 32 - 1) ∧
       t.fab.restarts.get 0 processor = s.fab.cycle + nsCycles restart) ∧
     (∀ up, s.fab.phase = .running → ∃ t, exec (.mgPhyInt up) s = .next t ∧ DeviceOnly s t ∧
       t.fab.dget 0x1100 5 = (if up then 1 else 0) ∧ Claims.EntriesKept s t [(0x1100, 5)]))

/-! ### Partitions, isolation and security -/

/-- The partition map and states (R470 to R475, R480). PARTITION_MAP_WRITE of an entry whose owners do not run sets it, and is BUSY
where one runs; a compute die given to an unassigned partition makes that partition stopped with a new key pair, puts the die's
clusters under reset and the die among its units being cleared. PARTITION_START of a partition that R473 does not refuse makes
it running, with its start entries in force; a refused one stays stopped with the reason in 0xB003. PARTITION_STOP of one with
no launch, batch or step makes it stopped, and is BUSY otherwise. UNIT_CLEAR_DONE zeroes the unit and takes it off the list.
Choices of the model it follows: map writes and starts (log 74). -/
def Obligations.PartitionsAreMappedStartedAndStopped : Prop :=
  (∀ (s : State) rq i sub v, Claims.mayWriteNat s rq i sub v = true → 0xB100 ≤ i → i ≤ 0xB140 →
    let owners := s.fab.mapOwners i sub v
    ((∃ p ∈ owners, s.fab.dget 0xB001 (p + 1) = 2) → ∃ t, exec (.partitionMapWrite rq i sub v) s = .next t ∧
      Claims.WriteRefused s t) ∧
    ((∀ p ∈ owners, s.fab.dget 0xB001 (p + 1) ≠ 2) → s.fab.mapRangeBad i sub v = false →
      ∃ t, exec (.partitionMapWrite rq i sub v) s = .next t ∧ t.mem = s.mem ∧ Claims.WriteOk s t ∧ t.fab.dget i sub = v ∧
        (i = 0xB100 → v < 16 → s.fab.dget i sub ≠ v →
          (∀ c, 48 * (sub - 1) ≤ c → c < 48 * sub → (t.fab.cluster c).phase = .resetting) ∧
          (ClearUnit.computeDie (sub - 1), ([] : List Nat)) ∈ t.fab.clearing.get [] v ∧
          (s.fab.dget 0xB001 (v + 1) = 0 → t.fab.dget 0xB001 (v + 1) = 1 ∧ s.sec.nextKey ≤ t.sec.keys.get 0 v)))) ∧
  (∀ (s : State) rq p, Claims.mayWriteNat s rq 0xB002 (p + 1) 1 = true → s.fab.dget 0xB001 (p + 1) ≠ 2 →
    (s.fab.startRefusal p = 0 → Claims.unhindered (((Claims.narrowed s rq 0xB002 (p + 1)).startPartition p).2) →
      ∃ t, exec (.partitionStart rq p) s = .next t ∧ t.sec = s.sec ∧ Claims.WriteOk s t ∧
      t.fab.dget 0xB001 (p + 1) = 2 ∧ t.fab.dget 0xB003 (p + 1) = 0 ∧
      ∀ e ∈ rwsEntries p, t.fab.eff e.1 e.2 = s.fab.dget e.1 e.2) ∧
    (s.fab.startRefusal p ≠ 0 → ∃ t, exec (.partitionStart rq p) s = .next t ∧ t.mem = s.mem ∧ t.sec = s.sec ∧
      t.fab.dget 0xB001 (p + 1) = s.fab.dget 0xB001 (p + 1) ∧ t.fab.dget 0xB003 (p + 1) = s.fab.startRefusal p ∧
      t.fab.dget 0x1101 2 = min (s.fab.dget 0x1101 2 + 1) (2 ^ 32 - 1))) ∧
  (∀ (s : State) rq p, Claims.mayWriteNat s rq 0xB002 (p + 1) 0 = true → s.fab.dget 0xB001 (p + 1) = 2 →
    let idle := (∀ l ∈ s.fab.launches, l.partition ≠ p) ∧ (∀ b ∈ s.fab.batches, b.partition ≠ p) ∧ s.fab.steps.find? p = none
    (idle → ∃ t, exec (.partitionStop rq p) s = .next t ∧ t.mem = s.mem ∧ t.sec = s.sec ∧ Claims.WriteOk s t ∧
      t.fab.dget 0xB001 (p + 1) = 1) ∧
    (¬idle → ∃ t, exec (.partitionStop rq p) s = .next t ∧ Claims.WriteRefused s t)) ∧
  (∀ (s : State) p u e, s.fab.phase = .running → (s.fab.clearing.get [] p).find? (fun x => x.1 == u) = some e →
    (∀ c ∈ unitClusters u, (s.fab.cluster c).phase ≠ .resetting) →
    ∃ t, exec (.unitClearDone p u) s = .next t ∧ t.sec = s.sec ∧
      t.fab.clearing.get [] p = removeFirst (· == e) (s.fab.clearing.get [] p) ∧
      (∀ d c i, u = .computeDie d → 48 * d ≤ c → c < 48 * d + 48 → i < 2 ^ 20 → Memory.read t.mem (wellBase c + i) = 0) ∧
      (∀ d c i, u = .finePair d → 768 + 2 * d ≤ c → c < 770 + 2 * d → i < 2 ^ 20 → Memory.read t.mem (wellBase c + i) = 0) ∧
      (∀ b n i, u = .inkwell b → n ∈ e.2 → i < 2 ^ 20 → Memory.read t.mem (inkwellBase b + n * 2 ^ 20 + i) = 0) ∧
      (∀ g b i, u = .granules → g ∈ e.2 → b < 8 → i < 2 ^ 33 → Memory.read t.mem (lpddrBase b + g * 2 ^ 33 + i) = 0))

/-- Isolation and keys (R477, R478, R481, R482). STRICT_ISOLATION_WRITE sets 0xB000:01 and, on, holds Slot lending off; with it on,
MACSEC_MODE_WRITE of 0 is refused. A key record that R481 allows installs its secure association in place of one of its channel,
port and number, or deletes it; one that it does not allow changes none. MANAGEMENT_KEY is kept, and the Sequence state is
cleared.

Attestation and fuses (R489 to R493). A request with its reserved bytes zero and, for a partition, its report in a writable host
window is kept with its nonce and address and its status reads signing; one while it signs is BUSY. ATTESTATION_SIGNED writes the
report and its status reads done. SECURITY_VERSION_RAISE raises the minimum to a version above it and not above the running
image's; KEY_REVOKE revokes a slot while another fused slot stays; DEBUG_DISABLE blows the fuse; each refuses the rest.
Choices of the model it follows: opaque cryptography (log 7), attestation (log 75), command entries (log 87). -/
def Obligations.IsolationKeysAndFuses : Prop :=
  ((∀ (s : State) rq v, Claims.mayWriteNat s rq 0xB000 1 v = true → ∃ t, exec (.strictIsolationWrite rq v) s = .next t ∧
     t.mem = s.mem ∧ t.sec = s.sec ∧ Claims.WriteOk s t ∧ t.fab.dget 0xB000 1 = v ∧ (v = 1 → t.fab.dget 0x3C20 2 = 0)) ∧
   (∀ (s : State) rq port v, Claims.mayWriteNat s rq 0x5008 (port + 1) v = true →
     let refused := v = 0 ∧ s.fab.dget 0xB000 1 = 1
     (refused → ∃ t, exec (.macsecModeWrite rq port v) s = .next t ∧ Claims.WriteRefused s t) ∧
     (¬refused → ∃ t, exec (.macsecModeWrite rq port v) s = .next t ∧ t.mem = s.mem ∧ t.sec = s.sec ∧ Claims.WriteOk s t ∧
       t.fab.dget 0x5008 (port + 1) = v)) ∧
   (∀ (s : State) rq (record : List Byte), let action := octet record 3
     let ends := fun (i : Instr) (sas : List Sa) => ∃ t, exec i s = .next t ∧ t.mem = s.mem ∧ t.sec = s.sec ∧ t.fab.sas = sas ∧
       Claims.WriteOk s t
     (∀ p, Claims.mayWrite s rq 0xA110 (p + 1) record = true →
       let ok := keyRecordOk s.fab.sas (s.fab.dget 0xB140 (p + 1)) p record
       let rest := otherSas s.fab.sas (saOf p record)
       (action = 1 → ok = true → ends (.macsecKeyInstall rq p record) (rest ++ [saOf p record])) ∧
       (action = 2 → ok = true → ends (.macsecKeyDelete rq p record) rest) ∧
       (action = 1 → ok = false → ∃ t, exec (.macsecKeyInstall rq p record) s = .next t ∧ Claims.WriteRefused s t ∧
         t.fab.sas = s.fab.sas)) ∧
     (Claims.mayWrite s rq 0xA120 1 record = true → keyRecordOk s.fab.sas (2 ^ 32 - 1) 16 record = true →
       let rest := otherSas s.fab.sas (saOf 16 record)
       (action = 1 → ends (.operatorMacsecKeyInstall rq record) (rest ++ [saOf 16 record])) ∧
       (action = 2 → ends (.operatorMacsecKeyDelete rq record) rest))) ∧
   (∀ (s : State) rq (key : BitVec 256), Claims.mayWrite s rq 0xA010 1 (beBytes 32 key.toNat) = true →
     ∃ t, exec (.managementKey rq key) s = .next t ∧ t.mem = s.mem ∧ t.sec = { s.sec with managementKey := some key.toNat } ∧
       t.fab.agent.replay = [])) ∧
  ((∀ (s : State) (who : Nat) (request : Instr) (record : List Byte),
     ((∃ rq, request = .attestationRequest rq who record ∧ who < 16 ∧ Claims.mayWrite s rq 0xA200 (who + 1) record = true) ∨
       (∃ rq, request = .deviceAttestationRequest rq record ∧ who = 16 ∧ Claims.mayWrite s rq 0xA201 1 record = true)) →
     let addr := beNat ((record.drop 32).take 8)
     let size := 256 + 32 * (if who = 16 then 0 else (s.sec.log who).digests.length) + 29792
     (s.fab.dget 0xA202 (who + 1) = 1 → ∃ t, exec request s = .next t ∧ Claims.WriteRefused s t) ∧
     (s.fab.dget 0xA202 (who + 1) ≠ 1 → (∀ b ∈ (record.drop 40).take 8, b = 0) →
       (who ≠ 16 → s.fab.inHostWindow who addr size true = true) →
       ∃ t, exec request s = .next t ∧ t.mem = s.mem ∧ Claims.WriteOk s t ∧ t.fab.dget 0xA202 (who + 1) = 1 ∧
         t.sec = { s.sec with attest := t.sec.attest } ∧ t.sec.attest.find? who = some ⟨beNat (record.take 32), addr⟩)) ∧
   (∀ (s : State) who, s.fab.phase = .running →
     (s.sec.attest.find? who = none → exec (.attestationSigned who) s = .next s) ∧
     (∀ a, s.sec.attest.find? who = some a → who ≤ 16 → ∃ t, exec (.attestationSigned who) s = .next t ∧ t.mem = s.mem ∧
       t.sec.reports = s.sec.reports ++ [(who, a.address, (W.of s).report who a)] ∧ t.sec.attest.find? who = none ∧
       Claims.EntriesKept s t [(0xA202, who + 1)] ∧ t.fab.dget 0xA202 (who + 1) = 2)) ∧
   (∀ (s : State) rq v, let x := s.sec.fuses
     let ends := fun (i : Instr) (f : Fuses) => ∃ t, exec i s = .next t ∧ t.mem = s.mem ∧ t.sec = { s.sec with fuses := f } ∧
       Claims.WriteOk s t
     (Claims.mayWriteNat s rq 0xA001 1 v = true →
       ((x.versionMin < v ∧ v ≤ s.fab.dget 0xA000 3 ∧ v ≤ 64) →
         ends (.securityVersionRaise rq v) { x with versionMin := v }) ∧
       ((v ≤ x.versionMin ∨ s.fab.dget 0xA000 3 < v) → ∃ t, exec (.securityVersionRaise rq v) s = .next t ∧
         Claims.WriteRefused s t)) ∧
     (Claims.mayWriteNat s rq 0xA001 2 v = true →
       let other := ∃ j, j < 4 ∧ j ≠ v ∧ x.keyHashes.get 0 j ≠ 0 ∧ x.revoked.getLsbD j = false
       (other → ends (.keyRevoke rq v) { x with revoked := x.revoked ||| BitVec.ofNat 4 (2 ^ v) }) ∧
       (¬other → ∃ t, exec (.keyRevoke rq v) s = .next t ∧ Claims.WriteRefused s t)) ∧
     (Claims.mayWriteNat s rq 0xA001 3 v = true → v = 1 ∧ ends (.debugDisable rq v) { x with debugDisable := true })))

/-! ### Memory maintenance -/

/-- A slice can still lose a channel: it is not offline and has no retirement (R210). -/
def Sys2Proof.Claims.whole (s : State) (b : Nat) : Prop := s.fab.sliceGone b = false ∧ s.fab.retirement b = none

/-- Scrubs (R196, R201, R205, R207, R213): a clean line changes nothing of the Inkwell; a corrected one counts (0x3020:03, or the
channel's count); an uncorrectable one is counted, shown (0x3020:04) and recorded as bad, and ends no context.

The retirement of an LPDDR5X channel (R209 to R213, R457). A corrected error that takes a channel's hourly count to the limit in
force starts the migration of a channel whose granules nobody owns, and leaves one whose granules somebody owns pending;
HOURLY_WINDOW clears the counts and puts the limit then set in force. The second ACCESS_TIMEOUT, or the third
RETRAINING_FAILURE, makes a channel dead: its lines
read zero, its slice fills new homes (0x3012 reads 3) and 0x3011 names it; before that they only count. MIGRATION_LINE moves the
pointer while the controller group runs, and the last one ends the migration; HOME_FILL_DONE ends the fill.
MISSED_REFRESH_TIMEOUT of a group in its safe state takes its slice offline with its eight channels zero.
Choices of the model it follows: the error code outcome (log 13), channel retirement (log 81), missed refresh and scrubs
(log 82), errors that arise (log 94). -/
def Obligations.ScrubsAndRetirement : Prop :=
  ((∀ (s : State) b line, s.fab.phase = .running → b < 8 → line < 2 ^ 23 → let a := inkwellBase b + 64 * line
     s.fab.badLines.contains (a / 64) = false → s.fab.softLines.contains (a / 64) = false → s.fab.halts (896 + b) = false →
     exec (.inkwellScrub b line ⟨.clean, []⟩) s = .next s ∧
     (∃ t, exec (.inkwellScrub b line ⟨.corrected, []⟩) s = .next t ∧ DeviceOnly s t ∧ t.fab.badLines = s.fab.badLines ∧
       t.fab.softLines = s.fab.softLines ∧ t.fab.dget 0x3020 3 = min (s.fab.dget 0x3020 3 + 1) (2 ^ 32 - 1)) ∧
     (∃ t, exec (.inkwellScrub b line ⟨.uncorrectable, []⟩) s = .next t ∧ DeviceOnly s t ∧
       t.fab.badLines = s.fab.badLines ++ [a / 64] ∧ t.fab.dget 0x3020 4 = a ∧
       t.fab.dget 0x3020 2 = min (s.fab.dget 0x3020 2 + 1) (2 ^ 32 - 1) ∧ t.fab.launches = s.fab.launches)) ∧
   (∀ (s : State) ch j o b x, s.fab.phase = .running → ch < 256 → j < 62 * 2 ^ 22 →
     s.fab.offsetAt (ch / 32) (ch % 32) j = some o → s.fab.locate none (lpddrBase (ch / 32) + o) = .lpddr b x →
     s.fab.badLines.contains ((lpddrBase b + x) / 64) = false → s.fab.softLines.contains ((lpddrBase b + x) / 64) = false →
     s.fab.channelRuns ch = true → let c := s.fab.channelOf b x
     (∃ t, exec (.patrolScrub ch j ⟨.clean, []⟩) s = .next t ∧ DeviceOnly s t ∧ t.fab.dict = s.fab.dict ∧
       t.fab.badLines = s.fab.badLines) ∧
     (∃ t, exec (.patrolScrub ch j ⟨.corrected, []⟩) s = .next t ∧ DeviceOnly s t ∧ t.fab.softLines = s.fab.softLines ∧
       t.fab.chanHour.get 0 c = s.fab.chanHour.get 0 c + 1 ∧
       (c < 256 → t.fab.dget (0x3100 + c / 32) (c % 32 + 1) =
         min (s.fab.dget (0x3100 + c / 32) (c % 32 + 1) + 1) (2 ^ 32 - 1))) ∧
     (∃ t, exec (.patrolScrub ch j ⟨.uncorrectable, []⟩) s = .next t ∧ DeviceOnly s t ∧
       t.fab.badLines = s.fab.badLines ++ [(lpddrBase b + x) / 64] ∧
       t.fab.dget 0x3020 1 = min (s.fab.dget 0x3020 1 + 1) (2 ^ 32 - 1) ∧ t.fab.launches = s.fab.launches))) ∧
  ((∀ (s : State), s.fab.phase = .running → ∃ t, exec .hourlyWindow s = .next t ∧ DeviceOnly s t ∧ t.fab.chanHour = [] ∧
     t.fab.eff 0x3020 0x40 = s.fab.dget 0x3020 0x40 ∧
     { t.fab with chanHour := [], inForce := [] } = { s.fab with chanHour := [], inForce := [] }) ∧
   (∀ (s : State) ch j o b x, s.fab.phase = .running → ch < 256 → j < 62 * 2 ^ 22 →
     s.fab.offsetAt (ch / 32) (ch % 32) j = some o → s.fab.locate none (lpddrBase (ch / 32) + o) = .lpddr b x →
     s.fab.badLines.contains ((lpddrBase b + x) / 64) = false → s.fab.channelRuns ch = true → let c := s.fab.channelOf b x
     c < 256 → Claims.whole s (c / 32) → s.fab.chanHour.get 0 c + 1 = s.fab.eff 0x3020 0x40 →
     (s.fab.ownedNext = 0 → ∃ t, exec (.patrolScrub ch j ⟨.corrected, []⟩) s = .next t ∧ DeviceOnly s t ∧
       t.fab.dget 0x3011 (c / 32 + 1) = c % 32 ∧ t.fab.dget 0x3012 (c / 32 + 1) = 2 ∧ t.fab.dget 0x3013 (c / 32 + 1) = 0 ∧
       t.fab.dget 0x3000 4 = 62 - 2 * s.fab.nextRetirement) ∧
     (s.fab.ownedNext ≠ 0 → ∃ t, exec (.patrolScrub ch j ⟨.corrected, []⟩) s = .next t ∧ DeviceOnly s t ∧
       t.fab.dget 0x3012 (c / 32 + 1) = 1 ∧ t.fab.retirement (c / 32) = some ⟨c / 32, c % 32, 0, false⟩ ∧
       t.fab.dget 0x3000 4 = s.fab.dget 0x3000 4)) ∧
   (∀ (s : State) ch, s.fab.phase = .running → ch < 256 → let b := ch / 32
     let n := s.fab.chanTraining.get 0 ch + 1
     let dies := fun (i : Instr) (f : Fab) => Claims.whole s b → s.fab.colls = [] → (∀ r ∈ s.fab.retirements, r.number ≠ 0) →
       (((W.of s).map (fun _ => f)).endOwners b).faults = [] → ∃ t, exec i s = .next t ∧ t.fab.dget 0x3011 (b + 1) = ch % 32 ∧ t.fab.dget 0x3012 (b + 1) = 3 ∧
         t.fab.dget 0x3000 4 = 62 - 2 * s.fab.nextRetirement ∧
         ∀ a, onChannel b (ch % 32) a = true → Memory.read t.mem a = 0
     (s.fab.chanTimeouts.get 0 ch = 0 → ∃ t, exec (.accessTimeout ch) s = .next t ∧ DeviceOnly s t ∧
       t.fab.chanTimeouts.get 0 ch = 1 ∧ t.fab.dict = s.fab.dict) ∧
     (s.fab.chanTimeouts.get 0 ch ≠ 0 →
       dies (.accessTimeout ch) { s.fab with chanTimeouts := s.fab.chanTimeouts.clear (· == ch) }) ∧
     (n ≠ 3 → ∃ t, exec (.retrainingFailure ch) s = .next t ∧ DeviceOnly s t ∧ t.fab.chanTraining.get 0 ch = n ∧
       t.fab.dict = s.fab.dict) ∧
     (n = 3 → dies (.retrainingFailure ch) { s.fab with chanTraining := s.fab.chanTraining.set ch n })) ∧
   (∀ (s : State) b r, s.fab.phase = .running → b < 8 → s.fab.retirement b = some r → let j := s.fab.dget 0x3013 (b + 1)
     let runs := s.fab.channelRuns (32 * b + r.channel) = true
     (s.fab.dget 0x3012 (b + 1) = 2 → runs → s.fab.badLines = [] → s.fab.softLines = [] →
       (j + 1 < firstSpare r.number → ∃ t, exec (.migrationLine b .clean) s = .next t ∧ DeviceOnly s t ∧
         Claims.EntriesKept s t [(0x3013, b + 1)] ∧ t.fab.dget 0x3013 (b + 1) = j + 1) ∧
       (firstSpare r.number ≤ j + 1 → ∃ t, exec (.migrationLine b .clean) s = .next t ∧ DeviceOnly s t ∧
         t.fab.dget 0x3012 (b + 1) = 4)) ∧
     ((s.fab.dget 0x3012 (b + 1) ≠ 2 ∨ ¬runs) → ∀ ecc, exec (.migrationLine b ecc) s = .next s) ∧
     (s.fab.dget 0x3012 (b + 1) = 3 → ∃ t, exec (.homeFillDone b) s = .next t ∧ t.sec = s.sec ∧
       t.fab.dget 0x3012 (b + 1) = 4 ∧ ∀ a, onChannel b r.channel a = true → Memory.read t.mem a = 0) ∧
     (s.fab.dget 0x3012 (b + 1) ≠ 3 → exec (.homeFillDone b) s = .next s)) ∧
   (∀ (s : State) i, s.fab.phase = .running → let b := (i - 904) / 4
     ((i < 904 ∨ 936 ≤ i ∨ (s.fab.island i).safe = false ∨ s.fab.sliceGone b = true) →
       exec (.missedRefreshTimeout i) s = .next s) ∧
     (904 ≤ i → i < 936 → (s.fab.island i).safe = true → s.fab.sliceGone b = false → s.fab.colls = [] →
       Claims.unhindered (missedRefresh i (W.of s)) →
       ∃ t, exec (.missedRefreshTimeout i) s = .next t ∧ t.fab.sliceGone b = true ∧ t.sec.fuses = s.sec.fuses ∧
         ∀ k a, k < 8 → onChannel b (8 * ((i - 904) % 4) + k) a = true → Memory.read t.mem a = 0)))
end

