-- ==== Sys2Proof/Laws/Memory.lean ====
section
/-! SUPPORT. The laws of package memory: a byte reads as it was last written, every other byte as before, and every memory
operation keeps the canonical form. -/

namespace Sys2Proof.Machine

open Sys2Proof

/-! ### Reads after changes -/

theorem Memory.read_filter_ne (m : List Host.Cell) (a b : Nat) :
    Memory.read (m.filter (fun c => c.1 != a)) b = if b = a then Memory.unlisted else Memory.read m b := by
  induction m with
  | nil => simp [Memory.read]
  | cons c r ih =>
    obtain ⟨k, v⟩ := c
    by_cases hk : k = a
    · subst hk
      by_cases hb : b = k
      · subst hb; simpa using ih
      · simpa [hb, Memory.read, Ne.symm hb] using ih
    · by_cases hb : k = b
      · subst hb; simp [hk, Memory.read]
      · simp [hk, Memory.read, hb, ih]

theorem Memory.read_insert (m : List Host.Cell) (a b : Nat) (v : Byte) (h : ∀ c ∈ m, c.1 ≠ a) :
    Memory.read (Memory.insert a v m) b = if b = a then v else Memory.read m b := by
  induction m with
  | nil =>
    by_cases hb : b = a
    · simp [Memory.insert, Memory.read, hb]
    · simp [Memory.insert, Memory.read, hb, Ne.symm hb]
  | cons c r ih =>
    obtain ⟨k, w⟩ := c
    have hk : k ≠ a := h (k, w) (by simp)
    have ih := ih (fun c hc => h c (by simp [hc]))
    by_cases hlt : a < k
    · by_cases hb : b = a
      · simp [Memory.insert, hlt, Memory.read, hb]
      · simp [Memory.insert, hlt, Memory.read, hb, Ne.symm hb]
    · by_cases hb : b = a
      · subst hb; simpa [Memory.insert, hlt, Memory.read, hk] using ih
      · by_cases hkb : k = b
        · subst hkb; simp [Memory.insert, hlt, Memory.read, hb]
        · simp [Memory.insert, hlt, Memory.read, hkb, hb, ih]

/-- Read after write: the byte written reads as the value, every other byte as before. -/
theorem Memory.read_write (m : List Host.Cell) (a b : Nat) (v : Byte) :
    Memory.read (Memory.write m a v) b = if b = a then v else Memory.read m b := by
  unfold Memory.write
  by_cases hv : v = Memory.unlisted
  · simp [hv, Memory.read_filter_ne]
  · have h : ∀ c ∈ m.filter (fun c => c.1 != a), c.1 ≠ a := by intro c hc; simpa using (List.mem_filter.1 hc).2
    simp only [hv, if_false]
    rw [Memory.read_insert _ _ _ _ h, Memory.read_filter_ne]
    by_cases hb : b = a <;> simp [hb]

/-- A cleared range reads as unlisted, every other byte as before. -/
theorem Memory.read_zero (m : List Host.Cell) (lo n b : Nat) :
    Memory.read (Memory.zero m lo n) b = if lo ≤ b ∧ b < lo + n then Memory.unlisted else Memory.read m b := by
  unfold Memory.zero
  induction m with
  | nil => simp [Memory.read]
  | cons c r ih =>
    obtain ⟨k, v⟩ := c
    by_cases hk : lo ≤ k ∧ k < lo + n
    · rw [List.filter_cons_of_neg (by simp [hk.1, hk.2]), ih]
      by_cases hb : k = b
      · subst hb; simp [hk]
      · simp [Memory.read, hb]
    · rw [List.filter_cons_of_pos (by
        by_cases h1 : lo ≤ k
        · have h2 : ¬k < lo + n := fun h2 => hk ⟨h1, h2⟩
          simp [Nat.blt_eq, ← Bool.not_eq_true, h2]
        · simp [Nat.ble_eq, ← Bool.not_eq_true, h1])]
      by_cases hb : k = b
      · subst hb; simp [hk, Memory.read]
      · simp only [Memory.read, hb, if_false, ih]

/-- The work's view of memory is what the memory holds once its changes are applied. -/
theorem MemOp.read_applyAll (m : List Host.Cell) (l : List MemOp) (a : Nat) :
    Memory.read (MemOp.applyAll m l) a = MemOp.read m l a := by
  induction l with
  | nil => rfl
  | cons o r ih =>
    cases o with
    | put b v =>
      by_cases h : a = b
      · subst h; simp [MemOp.applyAll, MemOp.apply, MemOp.read, Memory.read_write]
      · simp [MemOp.applyAll, MemOp.apply, MemOp.read, Memory.read_write, h, Ne.symm h, ih]
    | zero lo n => simp [MemOp.applyAll, MemOp.apply, MemOp.read, Memory.read_zero, ih]

/-! ### Canonical form -/

/-- The canonical form, as a property of the list: addresses rise strictly and no cell reads as an unlisted byte. -/
theorem Memory.wf_iff (m : List Host.Cell) :
    Memory.wf m = true ↔ m.Pairwise (fun x y => x.1 < y.1) ∧ ∀ c ∈ m, c.2 ≠ Memory.unlisted := by
  induction m with
  | nil => simp [Memory.wf]
  | cons c r ih =>
    obtain ⟨a, v⟩ := c
    cases r with
    | nil => simp [Memory.wf]
    | cons d r =>
      obtain ⟨b, w⟩ := d
      simp only [Memory.wf, Bool.and_eq_true, bne_iff_ne, Nat.blt_eq, ih]
      rw [List.pairwise_cons (l := (b, w) :: r)]
      constructor
      · rintro ⟨⟨hv, hab⟩, hp, hm⟩
        refine ⟨⟨?_, hp⟩, ?_⟩
        · intro x hx
          rcases List.mem_cons.1 hx with rfl | hx
          · exact hab
          · exact lt_trans hab ((List.pairwise_cons.1 hp).1 x hx)
        · intro x hx
          rcases List.mem_cons.1 hx with rfl | hx
          · exact hv
          · exact hm x hx
      · rintro ⟨⟨h1, hp⟩, hm⟩
        exact ⟨⟨hm (a, v) (by simp), h1 (b, w) (by simp)⟩, hp, fun x hx => hm x (List.mem_cons_of_mem _ hx)⟩

theorem Memory.wf_filter (m : List Host.Cell) (p : Host.Cell → Bool) (h : Memory.wf m = true) :
    Memory.wf (m.filter p) = true := by
  rw [Memory.wf_iff] at h ⊢
  exact ⟨h.1.filter p, fun c hc => h.2 c (List.mem_filter.1 hc).1⟩

theorem Memory.mem_insert {m : List Host.Cell} {a : Nat} {v : Byte} {c : Host.Cell} (h : c ∈ Memory.insert a v m) :
    c = (a, v) ∨ c ∈ m := by
  induction m with
  | nil => left; simpa [Memory.insert] using h
  | cons d r ih =>
    obtain ⟨b, w⟩ := d
    by_cases hlt : a < b
    · simpa [Memory.insert, hlt] using h
    · simp only [Memory.insert, hlt, if_false] at h
      rcases List.mem_cons.1 h with rfl | h
      · right; simp
      · rcases ih h with h | h
        · exact .inl h
        · exact .inr (List.mem_cons_of_mem _ h)

theorem Memory.wf_insert {m : List Host.Cell} {a : Nat} {v : Byte} (h : Memory.wf m = true) (hv : v ≠ Memory.unlisted)
    (ha : ∀ c ∈ m, c.1 ≠ a) : Memory.wf (Memory.insert a v m) = true := by
  rw [Memory.wf_iff] at h ⊢
  induction m with
  | nil => simp [Memory.insert, hv]
  | cons d r ih =>
    obtain ⟨b, w⟩ := d
    have hb : b ≠ a := ha (b, w) (by simp)
    obtain ⟨hp, hm⟩ := h
    have hp' := List.pairwise_cons.1 hp
    by_cases hlt : a < b
    · simp only [Memory.insert, hlt, if_true]
      refine ⟨List.pairwise_cons.2 ⟨?_, hp⟩, ?_⟩
      · intro x hx
        rcases List.mem_cons.1 hx with rfl | hx
        · exact hlt
        · exact lt_trans hlt (hp'.1 x hx)
      · intro x hx
        rcases List.mem_cons.1 hx with rfl | hx
        · exact hv
        · exact hm x hx
    · have hgt : b < a := by omega
      have ih := ih ⟨hp'.2, fun c hc => hm c (List.mem_cons_of_mem _ hc)⟩ (fun c hc => ha c (List.mem_cons_of_mem _ hc))
      simp only [Memory.insert, hlt, if_false]
      refine ⟨List.pairwise_cons.2 ⟨?_, ih.1⟩, ?_⟩
      · intro x hx
        rcases Memory.mem_insert hx with rfl | hx
        · exact hgt
        · exact hp'.1 x hx
      · intro x hx
        rcases List.mem_cons.1 hx with rfl | hx
        · exact hm (b, w) (by simp)
        · exact ih.2 x hx

/-- A write keeps the canonical form. -/
theorem Memory.wf_write {m : List Host.Cell} (a : Nat) (v : Byte) (h : Memory.wf m = true) :
    Memory.wf (Memory.write m a v) = true := by
  unfold Memory.write
  by_cases hv : v = Memory.unlisted
  · simpa [hv] using Memory.wf_filter m _ h
  · simp only [hv, if_false]
    exact Memory.wf_insert (Memory.wf_filter m _ h) hv (by intro c hc; simpa using (List.mem_filter.1 hc).2)

/-- A cleared range keeps the canonical form. -/
theorem Memory.wf_zero {m : List Host.Cell} (lo n : Nat) (h : Memory.wf m = true) : Memory.wf (Memory.zero m lo n) = true :=
  Memory.wf_filter m _ h

/-- Every list of memory changes keeps the canonical form. -/
theorem MemOp.wf_applyAll {m : List Host.Cell} (l : List MemOp) (h : Memory.wf m = true) :
    Memory.wf (MemOp.applyAll m l) = true := by
  induction l with
  | nil => exact h
  | cons o r ih =>
    cases o with
    | put a v => exact Memory.wf_write a v ih
    | zero lo n => exact Memory.wf_zero lo n ih

end Sys2Proof.Machine
end

