-- ==== Sys2Proof/Laws/Lifts.lean ====
section
/-! SUPPORT. What each lift of a meaning can do: it answers a next state, it leaves the queue, what it leaves of memory and
of the security block, and that memory keeps its canonical form. -/

namespace Sys2Proof.Machine

open Sys2Proof

variable {s t : State}

/-! ### With the firmware running -/

theorem onFab_running (f : Fab → Fab) (h : s.fab.phase = .running) : onFab s f = .next { s with fab := f s.fab } := by
  simp [onFab, h]

theorem onHost_running (f : Fab → Fab) (h : s.fab.phase = .running) (hl : s.fab.inPins.linkUp = true) :
    onHost s f = .next { s with fab := f s.fab } := by
  simp [onHost, onFab, h, hl]

theorem onRead_running (f : W → Fab) (h : s.fab.phase = .running) : onRead s f = .next { s with fab := f (W.of s) } := by
  simp [onRead, h]

/-- Work that met no uncorrectable line is settled as it stands. -/
theorem settled_of_faults {w : W} (h : w.faults = []) : w.settled = w := by simp [W.settled, h]

theorem onMem_running (f : W → W) (h : s.fab.phase = .running) (hw : (f (W.of s)).settled.waits = false) :
    onMem s f = .next { s with
      mem := MemOp.applyAll s.mem (f (W.of s)).settled.out, fab := (f (W.of s)).settled.fab } := by
  simp [onMem, h, hw]

theorem onAll_running (f : W → W) (h : s.fab.phase = .running) (hw : (f (W.of s)).settled.waits = false) :
    onAll s f = .next { s with
      mem := MemOp.applyAll s.mem (f (W.of s)).settled.out, fab := (f (W.of s)).settled.fab,
      sec := (f (W.of s)).settled.sec } := by
  simp [onAll, h, hw]

/-- A command that must wait changes nothing. -/
theorem onMem_waits (f : W → W) (hw : (f (W.of s)).settled.waits = true) : onMem s f = .next s := by simp [onMem, hw]

theorem onAll_waits (f : W → W) (hw : (f (W.of s)).settled.waits = true) : onAll s f = .next s := by simp [onAll, hw]

/-! ### In any other phase -/

theorem onFab_down (f : Fab → Fab) (h : s.fab.phase ≠ .running) : onFab s f = .next s := by simp [onFab, h]

theorem onHost_down (f : Fab → Fab) (h : s.fab.phase ≠ .running) : onHost s f = .next s := by simp [onHost, onFab, h]

theorem onRead_down (f : W → Fab) (h : s.fab.phase ≠ .running) : onRead s f = .next s := by simp [onRead, h]

theorem onMem_down (f : W → W) (h : s.fab.phase ≠ .running) : onMem s f = .next s := by simp [onMem, h]

theorem onAll_down (f : W → W) (h : s.fab.phase ≠ .running) : onAll s f = .next s := by simp [onAll, h]

/-! ### In every phase -/

/-- What a lift that changes the device only keeps. -/
theorem onFab_keeps {f : Fab → Fab} (h : onFab s f = .next t) : t.pending = s.pending ∧ t.mem = s.mem ∧ t.sec = s.sec := by
  unfold onFab at h; cases h; split <;> simp

theorem onHost_keeps {f : Fab → Fab} (h : onHost s f = .next t) : t.pending = s.pending ∧ t.mem = s.mem ∧ t.sec = s.sec :=
  onFab_keeps h

theorem onRead_keeps {f : W → Fab} (h : onRead s f = .next t) : t.pending = s.pending ∧ t.mem = s.mem ∧ t.sec = s.sec := by
  unfold onRead at h; cases h; split <;> simp

/-- What a lift that changes memory keeps. -/
theorem onMem_keeps {f : W → W} (h : onMem s f = .next t) :
    t.pending = s.pending ∧ t.sec = s.sec ∧ ∃ l, t.mem = MemOp.applyAll s.mem l := by
  unfold onMem at h; cases h
  split
  · exact ⟨rfl, rfl, _, rfl⟩
  · exact ⟨rfl, rfl, [], rfl⟩

theorem onAll_keeps {f : W → W} (h : onAll s f = .next t) : t.pending = s.pending ∧ ∃ l, t.mem = MemOp.applyAll s.mem l := by
  unfold onAll at h; cases h
  split
  · exact ⟨rfl, _, rfl⟩
  · exact ⟨rfl, [], rfl⟩

theorem onAny_keeps {f : W → W} (h : onAny s f = .next t) : t.pending = s.pending ∧ ∃ l, t.mem = MemOp.applyAll s.mem l := by
  unfold onAny at h; cases h
  exact ⟨rfl, _, rfl⟩

/-- Memory that has taken changes is canonical if it was before. -/
theorem wf_of_changes {m m' : List Host.Cell} (h : ∃ l, m' = MemOp.applyAll m l) (hw : Memory.wf m = true) :
    Memory.wf m' = true := by
  obtain ⟨l, rfl⟩ := h
  exact MemOp.wf_applyAll l hw

/-- What a byte reads after a lift that changes memory: what the work on it reads. -/
theorem onMem_byte (f : W → W) (a : Nat) (h : s.fab.phase = .running) (hw : (f (W.of s)).settled.waits = false) :
    ∃ t, onMem s f = .next t ∧ Memory.read t.mem a = MemOp.read s.mem (f (W.of s)).settled.out a := by
  refine ⟨_, onMem_running f h hw, ?_⟩
  simp [MemOp.read_applyAll]

end Sys2Proof.Machine
end

