-- ==== Sys2Proof/Laws/Dispatch.lean ====
section
/-! SUPPORT. Which lift each command's meaning is, said once for all commands: what a command can change at all follows from
its lift. -/

namespace Sys2Proof.Machine

open Sys2Proof

/-- The lifts: the device; the device by the host's link; the device with memory and the security block read; memory and the
device; everything but the queue; the same in any phase. -/
inductive Lift
  | fab
  | host
  | read
  | mem
  | all
  | any
  deriving DecidableEq, Repr

/-- The lift of a command. -/
def liftOf : Instr → Lift
  | .sqTailDoorbell _ _ _ | .submissionFetch _ _ | .cqHeadDoorbell _ _ | .completionWrite _ | .ringRegisterWrite _ _ _ _
  | .hostWindowTableWrite _ _ _ _ _ _ => .host
  | .probeTimer _ | .mgmtPortFrame _ _ _ | .rinayRead _ _ | .neighbourSolicitation _ _ | .echoRequest _ _ _ => .read
  | .vop _ | .unbind _ | .sin _ | .sout _ | .sarm _ | .scancel _ | .scred _ | .ld _ | .st _ | .operationHoldRelease _
  | .weightLoadComplete _ | .tileMultiplyComplete _ _ | .drainComplete _ | .drainbApplied _ | .vopComplete _
  | .clusterTerminationDone _ | .imageLoadComplete _ | .setupCommit _ | .commitBankFreed _ | .drainLimitExpiry _
  | .memoryTransaction _ _ | .segmentBatchFetched _ _ | .streamUnitLands _ _ _ _ | .outWriteAccepted _
  | .streamWindowReturn _ | .voidResponseDrop _ | .endpointDown _ | .functionLevelReset _ | .launch _ _ _ _ _
  | .cancel _ | .batchAdmit _ _ | .batchEnd _ | .seqOpen _ | .seqClose _ | .folioAlloc _ | .folioMove _ | .folioPark _
  | .folioUnpark _ | .folioFree _ | .folioMoveComplete _ _ _ _ | .folioExpiry _ _ | .samplerStart _ | .samplerCommit _
  | .stepOpen _ | .stepClose _ | .waveOpen _ | .fallbackAreasWritten _ | .versionFree _ | .ductusJob _
  | .ductusJobStart _ _ | .ductusTurn _ _ | .ductusJobComplete _ _ _ | .collectiveHoldRelease _ | .upMsg _ _
  | .downMsg _ | .reissue _ | .agreeUp _ | .agreeDown _ | .dataMsg _ | .cut _ | .pull _ | .pullData _ | .abortMsg _
  | .collectiveComplete _ | .kolasAck _ | .kolasNak _ | .peerDown _ | .roceReadRequest _ | .roceWriteRequest _ _
  | .roceAckTimeout _ _ | .workerLossTimeout _ | .stateMsg _ | .epoch _ | .cascadeLinkLoss _ | .restored _ _ _ _
  | .checkpointPageAck _ _ | .heldPageWriteRelease _ | .ewsGraceExpiry | .unitClearDone _ _ | .homeFillDone _
  | .claimResolved _ | .kolasResend _ | .assign _ => .mem
  | .launchAdmit _ | .rinayWrite _ _ | .jtagDictionaryAccess _ | .dictionaryWrite _ _ _ _ | .portModeWrite _ _ _
  | .portEnableWrite _ _ _ | .eventLogRelease _ _ | .noivosFullRestoreLocal _ _ | .noivosDeltaRestoreLocal _ _
  | .noivosFullRestoreRemote _ _ | .noivosDeltaRestoreRemote _ _ | .ewsResume _ _ | .wearSecond _
  | .powerStateRequestS1 _ | .powerStateRequestP0 _ | .missedRefreshTimeout _ | .clockSourceRequestA _
  | .clockSourceRequestB _ | .warmReset _ | .partitionReset _ _ | .clusterReset _ _ | .partitionStart _ _
  | .partitionStop _ _ | .partitionMapWrite _ _ _ _ | .strictIsolationWrite _ _ | .macsecModeWrite _ _ _
  | .macsecKeyInstall _ _ _ | .macsecKeyDelete _ _ _ | .operatorMacsecKeyInstall _ _ | .operatorMacsecKeyDelete _ _
  | .managementKey _ _ | .attestationRequest _ _ _ | .deviceAttestationRequest _ _ | .attestationSigned _
  | .securityVersionRaise _ _ | .keyRevoke _ _ | .debugDisable _ _ | .accessTimeout _ => .all
  | .mailboxSend _ _ _ _ | .mailboxRetract _ _ _ | .mailboxTake _ _ _ | .ewsAsserted | .tapReset | .thermalTrip | .coldReset
  | .powerLoss | .bootGo _ _ | .firmwareStart _ | .warmResetPin | .rstNRelease | .hpPerstAssert | .hpPerstRelease _ _ | .retrainingFailure _ | .bootCheckFailed _ _ => .any
  | .nop _ | .endStrand _ | .eret _ | .brk _ | .sysr _ | .sysw _ | .fence _ | .plog _ | .add _ | .sub _ | .mul _
  | .andr _ | .orr _ | .xorr _ | .shl _ | .shr _ | .asr _ | .minS _ | .maxS _ | .li _ | .lih _ | .cmp _ | .fop _
  | .fcmp _ | .aadd _ | .amov _ | .atos _ | .tset _ | .tget _ | .br _ | .bcc _ | .bdec _ | .jal _ | .jr _ | .signal _
  | .setCounter _ | .wait _ | .cread _ | .wload _ | .tmul _ | .drain _ | .aclr _ | .drainb _ | .bind _ | .swait _
  | .coll _ | .sample _ | .saccept _ | .counterWake _ _ | .waitTimeout _ _ | .transferWaitTimeout _
  | .asyncExceptionTaken _ _ | .terminationReport _ | .launchEnd _ _
  | .nopCommand _ | .counterSignal _ | .counterSet _ | .counterRead _ | .setupWriteStream _ _ | .setupWriteTree _ _
  | .setupWriteEndpoint _ _ | .setupWriteExport _ _ | .versionOpen _ _ | .versionSwitch _ | .notReady _
  | .notReadyRepeat _ | .kolasData _ | .probe _ | .probeAck _ | .ackTimer _ | .cnp _ _
  | .ptpMessage _ _ _ | .portLinkDown _ | .laneSignalLoss _
  | .laneErrorWindow _ _ | .portFormed _ | .portFormFailed _ | .laserLowLight _ | .laserFault _ | .laserPresent _
  | .baseLinkCrcError _ | .baseLinkReplayTimeout _ | .heartbeatTimer | .heartbeat _ | .loss _ | .epochAck _
  | .epochAckTimeout | .stateRepeat | .managerTimeout | .rinayStrayFrame _ | .checkpointFailed _ _
  | .ewsHolding | .powerSample _ | .dutyUpdate _ | .thermalCheck _ | .idleGatingEntry | .wakeEvent _
  | .pllReady _ _ | .pllLockLoss _ | .hardwareClockSwitch _ | .referenceLoss _ | .ppsEdge | .ppsTimeout
  | .clusterResetDone _ _ | .pcieRecoveryFailure | .watchdog _ _ | .inkwellScrub _ _ _ | .patrolScrub _ _ _
  | .hourlyWindow | .migrationLine _ _ | .samplerComplete _ | .bindResolved _ | .portLinkUp _ | .referenceReturn _
  | .mgPhyInt _ | .inBandRinayFrame _ _ _ _ => .fab

/-- What a lift makes of a change. -/
def Lift.Is (l : Lift) (m : State → Host.Outcome State Fault Refusal) : Prop :=
  match l with
  | .fab => ∃ f, ∀ s, m s = onFab s f
  | .host => ∃ f, ∀ s, m s = onHost s f
  | .read => ∃ f, ∀ s, m s = onRead s f
  | .mem => ∃ f, ∀ s, m s = onMem s f
  | .all => ∃ f, ∀ s, m s = onAll s f
  | .any => ∃ f, ∀ s, m s = onAny s f

/-- Every command's meaning is its lift of some change. -/
theorem exec_lift (c : Instr) : (liftOf c).Is (exec c) := by
  cases c
  case nop => delta Lift.Is exec execNop; exact ⟨_, fun _ => rfl⟩
  case endStrand => delta Lift.Is exec execEndStrand; exact ⟨_, fun _ => rfl⟩
  case eret => delta Lift.Is exec execEret; exact ⟨_, fun _ => rfl⟩
  case brk => delta Lift.Is exec execBrk; exact ⟨_, fun _ => rfl⟩
  case sysr => delta Lift.Is exec execSysr; exact ⟨_, fun _ => rfl⟩
  case sysw => delta Lift.Is exec execSysw; exact ⟨_, fun _ => rfl⟩
  case fence => delta Lift.Is exec execFence; exact ⟨_, fun _ => rfl⟩
  case plog => delta Lift.Is exec execPlog; exact ⟨_, fun _ => rfl⟩
  case add => delta Lift.Is exec execAdd; exact ⟨_, fun _ => rfl⟩
  case sub => delta Lift.Is exec execSub; exact ⟨_, fun _ => rfl⟩
  case mul => delta Lift.Is exec execMul; exact ⟨_, fun _ => rfl⟩
  case andr => delta Lift.Is exec execAndr; exact ⟨_, fun _ => rfl⟩
  case orr => delta Lift.Is exec execOrr; exact ⟨_, fun _ => rfl⟩
  case xorr => delta Lift.Is exec execXorr; exact ⟨_, fun _ => rfl⟩
  case shl => delta Lift.Is exec execShl; exact ⟨_, fun _ => rfl⟩
  case shr => delta Lift.Is exec execShr; exact ⟨_, fun _ => rfl⟩
  case asr => delta Lift.Is exec execAsr; exact ⟨_, fun _ => rfl⟩
  case minS => delta Lift.Is exec execMinS; exact ⟨_, fun _ => rfl⟩
  case maxS => delta Lift.Is exec execMaxS; exact ⟨_, fun _ => rfl⟩
  case li => delta Lift.Is exec execLi; exact ⟨_, fun _ => rfl⟩
  case lih => delta Lift.Is exec execLih; exact ⟨_, fun _ => rfl⟩
  case cmp => delta Lift.Is exec execCmp; exact ⟨_, fun _ => rfl⟩
  case fop => delta Lift.Is exec execFop; exact ⟨_, fun _ => rfl⟩
  case fcmp => delta Lift.Is exec execFcmp; exact ⟨_, fun _ => rfl⟩
  case aadd => delta Lift.Is exec execAadd; exact ⟨_, fun _ => rfl⟩
  case amov => delta Lift.Is exec execAmov; exact ⟨_, fun _ => rfl⟩
  case atos => delta Lift.Is exec execAtos; exact ⟨_, fun _ => rfl⟩
  case tset => delta Lift.Is exec execTset; exact ⟨_, fun _ => rfl⟩
  case tget => delta Lift.Is exec execTget; exact ⟨_, fun _ => rfl⟩
  case br => delta Lift.Is exec execBr; exact ⟨_, fun _ => rfl⟩
  case bcc => delta Lift.Is exec execBcc; exact ⟨_, fun _ => rfl⟩
  case bdec => delta Lift.Is exec execBdec; exact ⟨_, fun _ => rfl⟩
  case jal => delta Lift.Is exec execJal; exact ⟨_, fun _ => rfl⟩
  case jr => delta Lift.Is exec execJr; exact ⟨_, fun _ => rfl⟩
  case signal => delta Lift.Is exec execSignal; exact ⟨_, fun _ => rfl⟩
  case setCounter => delta Lift.Is exec execSetCounter; exact ⟨_, fun _ => rfl⟩
  case wait => delta Lift.Is exec execWait; exact ⟨_, fun _ => rfl⟩
  case cread => delta Lift.Is exec execCread; exact ⟨_, fun _ => rfl⟩
  case wload => delta Lift.Is exec execWload; exact ⟨_, fun _ => rfl⟩
  case tmul => delta Lift.Is exec execTmul; exact ⟨_, fun _ => rfl⟩
  case drain => delta Lift.Is exec execDrain; exact ⟨_, fun _ => rfl⟩
  case aclr => delta Lift.Is exec execAclr; exact ⟨_, fun _ => rfl⟩
  case drainb => delta Lift.Is exec execDrainb; exact ⟨_, fun _ => rfl⟩
  case vop => delta Lift.Is exec execVop; exact ⟨_, fun _ => rfl⟩
  case bind => delta Lift.Is exec execBind; exact ⟨_, fun _ => rfl⟩
  case unbind => delta Lift.Is exec execUnbind; exact ⟨_, fun _ => rfl⟩
  case sin => delta Lift.Is exec execSin; exact ⟨_, fun _ => rfl⟩
  case sout => delta Lift.Is exec execSout; exact ⟨_, fun _ => rfl⟩
  case swait => delta Lift.Is exec execSwait; exact ⟨_, fun _ => rfl⟩
  case sarm => delta Lift.Is exec execSarm; exact ⟨_, fun _ => rfl⟩
  case scancel => delta Lift.Is exec execScancel; exact ⟨_, fun _ => rfl⟩
  case scred => delta Lift.Is exec execScred; exact ⟨_, fun _ => rfl⟩
  case ld => delta Lift.Is exec execLd; exact ⟨_, fun _ => rfl⟩
  case st => delta Lift.Is exec execSt; exact ⟨_, fun _ => rfl⟩
  case coll => delta Lift.Is exec execColl; exact ⟨_, fun _ => rfl⟩
  case sample => delta Lift.Is exec execSample; exact ⟨_, fun _ => rfl⟩
  case saccept => delta Lift.Is exec execSaccept; exact ⟨_, fun _ => rfl⟩
  case operationHoldRelease => delta Lift.Is exec execOperationHoldRelease; exact ⟨_, fun _ => rfl⟩
  case weightLoadComplete => delta Lift.Is exec execWeightLoadComplete; exact ⟨_, fun _ => rfl⟩
  case tileMultiplyComplete => delta Lift.Is exec execTileMultiplyComplete; exact ⟨_, fun _ => rfl⟩
  case drainComplete => delta Lift.Is exec execDrainComplete; exact ⟨_, fun _ => rfl⟩
  case drainbApplied => delta Lift.Is exec execDrainbApplied; exact ⟨_, fun _ => rfl⟩
  case vopComplete => delta Lift.Is exec execVopComplete; exact ⟨_, fun _ => rfl⟩
  case counterWake => delta Lift.Is exec execCounterWake; exact ⟨_, fun _ => rfl⟩
  case waitTimeout => delta Lift.Is exec execWaitTimeout; exact ⟨_, fun _ => rfl⟩
  case transferWaitTimeout => delta Lift.Is exec execTransferWaitTimeout; exact ⟨_, fun _ => rfl⟩
  case asyncExceptionTaken => delta Lift.Is exec execAsyncExceptionTaken; exact ⟨_, fun _ => rfl⟩
  case clusterTerminationDone => delta Lift.Is exec execClusterTerminationDone; exact ⟨_, fun _ => rfl⟩
  case terminationReport => delta Lift.Is exec execTerminationReport; exact ⟨_, fun _ => rfl⟩
  case launchAdmit => delta Lift.Is exec execLaunchAdmit; exact ⟨_, fun _ => rfl⟩
  case imageLoadComplete => delta Lift.Is exec execImageLoadComplete; exact ⟨_, fun _ => rfl⟩
  case launchEnd => delta Lift.Is exec execLaunchEnd; exact ⟨_, fun _ => rfl⟩
  case setupCommit => delta Lift.Is exec execSetupCommit; exact ⟨_, fun _ => rfl⟩
  case commitBankFreed => delta Lift.Is exec execCommitBankFreed; exact ⟨_, fun _ => rfl⟩
  case drainLimitExpiry => delta Lift.Is exec execDrainLimitExpiry; exact ⟨_, fun _ => rfl⟩
  case memoryTransaction => delta Lift.Is exec execMemoryTransaction; exact ⟨_, fun _ => rfl⟩
  case segmentBatchFetched => delta Lift.Is exec execSegmentBatchFetched; exact ⟨_, fun _ => rfl⟩
  case streamUnitLands => delta Lift.Is exec execStreamUnitLands; exact ⟨_, fun _ => rfl⟩
  case outWriteAccepted => delta Lift.Is exec execOutWriteAccepted; exact ⟨_, fun _ => rfl⟩
  case streamWindowReturn => delta Lift.Is exec execStreamWindowReturn; exact ⟨_, fun _ => rfl⟩
  case voidResponseDrop => delta Lift.Is exec execVoidResponseDrop; exact ⟨_, fun _ => rfl⟩
  case endpointDown => delta Lift.Is exec execEndpointDown; exact ⟨_, fun _ => rfl⟩
  case sqTailDoorbell => delta Lift.Is exec execSqTailDoorbell; exact ⟨_, fun _ => rfl⟩
  case submissionFetch => delta Lift.Is exec execSubmissionFetch; exact ⟨_, fun _ => rfl⟩
  case cqHeadDoorbell => delta Lift.Is exec execCqHeadDoorbell; exact ⟨_, fun _ => rfl⟩
  case completionWrite => delta Lift.Is exec execCompletionWrite; exact ⟨_, fun _ => rfl⟩
  case ringRegisterWrite => delta Lift.Is exec execRingRegisterWrite; exact ⟨_, fun _ => rfl⟩
  case hostWindowTableWrite => delta Lift.Is exec execHostWindowTableWrite; exact ⟨_, fun _ => rfl⟩
  case mailboxSend => delta Lift.Is exec execMailboxSend; exact ⟨_, fun _ => rfl⟩
  case mailboxRetract => delta Lift.Is exec execMailboxRetract; exact ⟨_, fun _ => rfl⟩
  case mailboxTake => delta Lift.Is exec execMailboxTake; exact ⟨_, fun _ => rfl⟩
  case functionLevelReset => delta Lift.Is exec execFunctionLevelReset; exact ⟨_, fun _ => rfl⟩
  case nopCommand => delta Lift.Is exec execNopCommand; exact ⟨_, fun _ => rfl⟩
  case launch => delta Lift.Is exec execLaunch; exact ⟨_, fun _ => rfl⟩
  case cancel => delta Lift.Is exec execCancel; exact ⟨_, fun _ => rfl⟩
  case batchAdmit => delta Lift.Is exec execBatchAdmit; exact ⟨_, fun _ => rfl⟩
  case batchEnd => delta Lift.Is exec execBatchEnd; exact ⟨_, fun _ => rfl⟩
  case counterSignal => delta Lift.Is exec execCounterSignal; exact ⟨_, fun _ => rfl⟩
  case counterSet => delta Lift.Is exec execCounterSet; exact ⟨_, fun _ => rfl⟩
  case counterRead => delta Lift.Is exec execCounterRead; exact ⟨_, fun _ => rfl⟩
  case setupWriteStream => delta Lift.Is exec execSetupWriteStream; exact ⟨_, fun _ => rfl⟩
  case setupWriteTree => delta Lift.Is exec execSetupWriteTree; exact ⟨_, fun _ => rfl⟩
  case setupWriteEndpoint => delta Lift.Is exec execSetupWriteEndpoint; exact ⟨_, fun _ => rfl⟩
  case setupWriteExport => delta Lift.Is exec execSetupWriteExport; exact ⟨_, fun _ => rfl⟩
  case seqOpen => delta Lift.Is exec execSeqOpen; exact ⟨_, fun _ => rfl⟩
  case seqClose => delta Lift.Is exec execSeqClose; exact ⟨_, fun _ => rfl⟩
  case folioAlloc => delta Lift.Is exec execFolioAlloc; exact ⟨_, fun _ => rfl⟩
  case folioMove => delta Lift.Is exec execFolioMove; exact ⟨_, fun _ => rfl⟩
  case folioPark => delta Lift.Is exec execFolioPark; exact ⟨_, fun _ => rfl⟩
  case folioUnpark => delta Lift.Is exec execFolioUnpark; exact ⟨_, fun _ => rfl⟩
  case folioFree => delta Lift.Is exec execFolioFree; exact ⟨_, fun _ => rfl⟩
  case folioMoveComplete => delta Lift.Is exec execFolioMoveComplete; exact ⟨_, fun _ => rfl⟩
  case folioExpiry => delta Lift.Is exec execFolioExpiry; exact ⟨_, fun _ => rfl⟩
  case samplerStart => delta Lift.Is exec execSamplerStart; exact ⟨_, fun _ => rfl⟩
  case samplerCommit => delta Lift.Is exec execSamplerCommit; exact ⟨_, fun _ => rfl⟩
  case stepOpen => delta Lift.Is exec execStepOpen; exact ⟨_, fun _ => rfl⟩
  case stepClose => delta Lift.Is exec execStepClose; exact ⟨_, fun _ => rfl⟩
  case waveOpen => delta Lift.Is exec execWaveOpen; exact ⟨_, fun _ => rfl⟩
  case fallbackAreasWritten => delta Lift.Is exec execFallbackAreasWritten; exact ⟨_, fun _ => rfl⟩
  case versionOpen => delta Lift.Is exec execVersionOpen; exact ⟨_, fun _ => rfl⟩
  case versionSwitch => delta Lift.Is exec execVersionSwitch; exact ⟨_, fun _ => rfl⟩
  case versionFree => delta Lift.Is exec execVersionFree; exact ⟨_, fun _ => rfl⟩
  case ductusJob => delta Lift.Is exec execDuctusJob; exact ⟨_, fun _ => rfl⟩
  case ductusJobStart => delta Lift.Is exec execDuctusJobStart; exact ⟨_, fun _ => rfl⟩
  case ductusTurn => delta Lift.Is exec execDuctusTurn; exact ⟨_, fun _ => rfl⟩
  case ductusJobComplete => delta Lift.Is exec execDuctusJobComplete; exact ⟨_, fun _ => rfl⟩
  case collectiveHoldRelease => delta Lift.Is exec execCollectiveHoldRelease; exact ⟨_, fun _ => rfl⟩
  case upMsg => delta Lift.Is exec execUpMsg; exact ⟨_, fun _ => rfl⟩
  case downMsg => delta Lift.Is exec execDownMsg; exact ⟨_, fun _ => rfl⟩
  case reissue => delta Lift.Is exec execReissue; exact ⟨_, fun _ => rfl⟩
  case agreeUp => delta Lift.Is exec execAgreeUp; exact ⟨_, fun _ => rfl⟩
  case agreeDown => delta Lift.Is exec execAgreeDown; exact ⟨_, fun _ => rfl⟩
  case dataMsg => delta Lift.Is exec execDataMsg; exact ⟨_, fun _ => rfl⟩
  case cut => delta Lift.Is exec execCut; exact ⟨_, fun _ => rfl⟩
  case pull => delta Lift.Is exec execPull; exact ⟨_, fun _ => rfl⟩
  case pullData => delta Lift.Is exec execPullData; exact ⟨_, fun _ => rfl⟩
  case notReady => delta Lift.Is exec execNotReady; exact ⟨_, fun _ => rfl⟩
  case notReadyRepeat => delta Lift.Is exec execNotReadyRepeat; exact ⟨_, fun _ => rfl⟩
  case abortMsg => delta Lift.Is exec execAbortMsg; exact ⟨_, fun _ => rfl⟩
  case collectiveComplete => delta Lift.Is exec execCollectiveComplete; exact ⟨_, fun _ => rfl⟩
  case kolasData => delta Lift.Is exec execKolasData; exact ⟨_, fun _ => rfl⟩
  case kolasAck => delta Lift.Is exec execKolasAck; exact ⟨_, fun _ => rfl⟩
  case kolasNak => delta Lift.Is exec execKolasNak; exact ⟨_, fun _ => rfl⟩
  case probe => delta Lift.Is exec execProbe; exact ⟨_, fun _ => rfl⟩
  case probeAck => delta Lift.Is exec execProbeAck; exact ⟨_, fun _ => rfl⟩
  case kolasResend => delta Lift.Is exec execKolasResend; exact ⟨_, fun _ => rfl⟩
  case ackTimer => delta Lift.Is exec execAckTimer; exact ⟨_, fun _ => rfl⟩
  case probeTimer => delta Lift.Is exec execProbeTimer; exact ⟨_, fun _ => rfl⟩
  case peerDown => delta Lift.Is exec execPeerDown; exact ⟨_, fun _ => rfl⟩
  case roceReadRequest => delta Lift.Is exec execRoceReadRequest; exact ⟨_, fun _ => rfl⟩
  case roceWriteRequest => delta Lift.Is exec execRoceWriteRequest; exact ⟨_, fun _ => rfl⟩
  case roceAckTimeout => delta Lift.Is exec execRoceAckTimeout; exact ⟨_, fun _ => rfl⟩
  case cnp => delta Lift.Is exec execCnp; exact ⟨_, fun _ => rfl⟩
  case neighbourSolicitation => delta Lift.Is exec execNeighbourSolicitation; exact ⟨_, fun _ => rfl⟩
  case echoRequest => delta Lift.Is exec execEchoRequest; exact ⟨_, fun _ => rfl⟩
  case ptpMessage => delta Lift.Is exec execPtpMessage; exact ⟨_, fun _ => rfl⟩
  case portLinkDown => delta Lift.Is exec execPortLinkDown; exact ⟨_, fun _ => rfl⟩
  case laneSignalLoss => delta Lift.Is exec execLaneSignalLoss; exact ⟨_, fun _ => rfl⟩
  case laneErrorWindow => delta Lift.Is exec execLaneErrorWindow; exact ⟨_, fun _ => rfl⟩
  case portFormed => delta Lift.Is exec execPortFormed; exact ⟨_, fun _ => rfl⟩
  case portFormFailed => delta Lift.Is exec execPortFormFailed; exact ⟨_, fun _ => rfl⟩
  case laserLowLight => delta Lift.Is exec execLaserLowLight; exact ⟨_, fun _ => rfl⟩
  case laserFault => delta Lift.Is exec execLaserFault; exact ⟨_, fun _ => rfl⟩
  case laserPresent => delta Lift.Is exec execLaserPresent; exact ⟨_, fun _ => rfl⟩
  case baseLinkCrcError => delta Lift.Is exec execBaseLinkCrcError; exact ⟨_, fun _ => rfl⟩
  case baseLinkReplayTimeout => delta Lift.Is exec execBaseLinkReplayTimeout; exact ⟨_, fun _ => rfl⟩
  case heartbeatTimer => delta Lift.Is exec execHeartbeatTimer; exact ⟨_, fun _ => rfl⟩
  case heartbeat => delta Lift.Is exec execHeartbeat; exact ⟨_, fun _ => rfl⟩
  case loss => delta Lift.Is exec execLoss; exact ⟨_, fun _ => rfl⟩
  case workerLossTimeout => delta Lift.Is exec execWorkerLossTimeout; exact ⟨_, fun _ => rfl⟩
  case stateMsg => delta Lift.Is exec execStateMsg; exact ⟨_, fun _ => rfl⟩
  case epochAck => delta Lift.Is exec execEpochAck; exact ⟨_, fun _ => rfl⟩
  case epochAckTimeout => delta Lift.Is exec execEpochAckTimeout; exact ⟨_, fun _ => rfl⟩
  case stateRepeat => delta Lift.Is exec execStateRepeat; exact ⟨_, fun _ => rfl⟩
  case epoch => delta Lift.Is exec execEpoch; exact ⟨_, fun _ => rfl⟩
  case assign => delta Lift.Is exec execAssign; exact ⟨_, fun _ => rfl⟩
  case managerTimeout => delta Lift.Is exec execManagerTimeout; exact ⟨_, fun _ => rfl⟩
  case cascadeLinkLoss => delta Lift.Is exec execCascadeLinkLoss; exact ⟨_, fun _ => rfl⟩
  case mgmtPortFrame => delta Lift.Is exec execMgmtPortFrame; exact ⟨_, fun _ => rfl⟩
  case rinayRead => delta Lift.Is exec execRinayRead; exact ⟨_, fun _ => rfl⟩
  case rinayWrite => delta Lift.Is exec execRinayWrite; exact ⟨_, fun _ => rfl⟩
  case rinayStrayFrame => delta Lift.Is exec execRinayStrayFrame; exact ⟨_, fun _ => rfl⟩
  case jtagDictionaryAccess => delta Lift.Is exec execJtagDictionaryAccess; exact ⟨_, fun _ => rfl⟩
  case tapReset => delta Lift.Is exec execTapReset; exact ⟨_, fun _ => rfl⟩
  case dictionaryWrite => delta Lift.Is exec execDictionaryWrite; exact ⟨_, fun _ => rfl⟩
  case portModeWrite => delta Lift.Is exec execPortModeWrite; exact ⟨_, fun _ => rfl⟩
  case portEnableWrite => delta Lift.Is exec execPortEnableWrite; exact ⟨_, fun _ => rfl⟩
  case eventLogRelease => delta Lift.Is exec execEventLogRelease; exact ⟨_, fun _ => rfl⟩
  case noivosFullRestoreLocal => delta Lift.Is exec execNoivosFullRestoreLocal; exact ⟨_, fun _ => rfl⟩
  case noivosDeltaRestoreLocal => delta Lift.Is exec execNoivosDeltaRestoreLocal; exact ⟨_, fun _ => rfl⟩
  case noivosFullRestoreRemote => delta Lift.Is exec execNoivosFullRestoreRemote; exact ⟨_, fun _ => rfl⟩
  case noivosDeltaRestoreRemote => delta Lift.Is exec execNoivosDeltaRestoreRemote; exact ⟨_, fun _ => rfl⟩
  case restored => delta Lift.Is exec execRestored; exact ⟨_, fun _ => rfl⟩
  case checkpointPageAck => delta Lift.Is exec execCheckpointPageAck; exact ⟨_, fun _ => rfl⟩
  case checkpointFailed => delta Lift.Is exec execCheckpointFailed; exact ⟨_, fun _ => rfl⟩
  case heldPageWriteRelease => delta Lift.Is exec execHeldPageWriteRelease; exact ⟨_, fun _ => rfl⟩
  case ewsAsserted => delta Lift.Is exec execEwsAsserted; exact ⟨_, fun _ => rfl⟩
  case ewsGraceExpiry => delta Lift.Is exec execEwsGraceExpiry; exact ⟨_, fun _ => rfl⟩
  case ewsHolding => delta Lift.Is exec execEwsHolding; exact ⟨_, fun _ => rfl⟩
  case ewsResume => delta Lift.Is exec execEwsResume; exact ⟨_, fun _ => rfl⟩
  case powerSample => delta Lift.Is exec execPowerSample; exact ⟨_, fun _ => rfl⟩
  case dutyUpdate => delta Lift.Is exec execDutyUpdate; exact ⟨_, fun _ => rfl⟩
  case thermalCheck => delta Lift.Is exec execThermalCheck; exact ⟨_, fun _ => rfl⟩
  case thermalTrip => delta Lift.Is exec execThermalTrip; exact ⟨_, fun _ => rfl⟩
  case wearSecond => delta Lift.Is exec execWearSecond; exact ⟨_, fun _ => rfl⟩
  case idleGatingEntry => delta Lift.Is exec execIdleGatingEntry; exact ⟨_, fun _ => rfl⟩
  case wakeEvent => delta Lift.Is exec execWakeEvent; exact ⟨_, fun _ => rfl⟩
  case powerStateRequestS1 => delta Lift.Is exec execPowerStateRequestS1; exact ⟨_, fun _ => rfl⟩
  case powerStateRequestP0 => delta Lift.Is exec execPowerStateRequestP0; exact ⟨_, fun _ => rfl⟩
  case pllReady => delta Lift.Is exec execPllReady; exact ⟨_, fun _ => rfl⟩
  case pllLockLoss => delta Lift.Is exec execPllLockLoss; exact ⟨_, fun _ => rfl⟩
  case hardwareClockSwitch => delta Lift.Is exec execHardwareClockSwitch; exact ⟨_, fun _ => rfl⟩
  case missedRefreshTimeout => delta Lift.Is exec execMissedRefreshTimeout; exact ⟨_, fun _ => rfl⟩
  case referenceLoss => delta Lift.Is exec execReferenceLoss; exact ⟨_, fun _ => rfl⟩
  case clockSourceRequestA => delta Lift.Is exec execClockSourceRequestA; exact ⟨_, fun _ => rfl⟩
  case clockSourceRequestB => delta Lift.Is exec execClockSourceRequestB; exact ⟨_, fun _ => rfl⟩
  case ppsEdge => delta Lift.Is exec execPpsEdge; exact ⟨_, fun _ => rfl⟩
  case ppsTimeout => delta Lift.Is exec execPpsTimeout; exact ⟨_, fun _ => rfl⟩
  case coldReset => delta Lift.Is exec execColdReset; exact ⟨_, fun _ => rfl⟩
  case powerLoss => delta Lift.Is exec execPowerLoss; exact ⟨_, fun _ => rfl⟩
  case bootGo => delta Lift.Is exec execBootGo; exact ⟨_, fun _ => rfl⟩
  case firmwareStart => delta Lift.Is exec execFirmwareStart; exact ⟨_, fun _ => rfl⟩
  case warmResetPin => delta Lift.Is exec execWarmResetPin; exact ⟨_, fun _ => rfl⟩
  case warmReset => delta Lift.Is exec execWarmReset; exact ⟨_, fun _ => rfl⟩
  case rstNRelease => delta Lift.Is exec execRstNRelease; exact ⟨_, fun _ => rfl⟩
  case partitionReset => delta Lift.Is exec execPartitionReset; exact ⟨_, fun _ => rfl⟩
  case clusterReset => delta Lift.Is exec execClusterReset; exact ⟨_, fun _ => rfl⟩
  case clusterResetDone => delta Lift.Is exec execClusterResetDone; exact ⟨_, fun _ => rfl⟩
  case hpPerstAssert => delta Lift.Is exec execHpPerstAssert; exact ⟨_, fun _ => rfl⟩
  case hpPerstRelease => delta Lift.Is exec execHpPerstRelease; exact ⟨_, fun _ => rfl⟩
  case pcieRecoveryFailure => delta Lift.Is exec execPcieRecoveryFailure; exact ⟨_, fun _ => rfl⟩
  case watchdog => delta Lift.Is exec execWatchdog; exact ⟨_, fun _ => rfl⟩
  case partitionStart => delta Lift.Is exec execPartitionStart; exact ⟨_, fun _ => rfl⟩
  case partitionStop => delta Lift.Is exec execPartitionStop; exact ⟨_, fun _ => rfl⟩
  case partitionMapWrite => delta Lift.Is exec execPartitionMapWrite; exact ⟨_, fun _ => rfl⟩
  case unitClearDone => delta Lift.Is exec execUnitClearDone; exact ⟨_, fun _ => rfl⟩
  case strictIsolationWrite => delta Lift.Is exec execStrictIsolationWrite; exact ⟨_, fun _ => rfl⟩
  case macsecModeWrite => delta Lift.Is exec execMacsecModeWrite; exact ⟨_, fun _ => rfl⟩
  case macsecKeyInstall => delta Lift.Is exec execMacsecKeyInstall; exact ⟨_, fun _ => rfl⟩
  case macsecKeyDelete => delta Lift.Is exec execMacsecKeyDelete; exact ⟨_, fun _ => rfl⟩
  case operatorMacsecKeyInstall => delta Lift.Is exec execOperatorMacsecKeyInstall; exact ⟨_, fun _ => rfl⟩
  case operatorMacsecKeyDelete => delta Lift.Is exec execOperatorMacsecKeyDelete; exact ⟨_, fun _ => rfl⟩
  case managementKey => delta Lift.Is exec execManagementKey; exact ⟨_, fun _ => rfl⟩
  case attestationRequest => delta Lift.Is exec execAttestationRequest; exact ⟨_, fun _ => rfl⟩
  case deviceAttestationRequest => delta Lift.Is exec execDeviceAttestationRequest; exact ⟨_, fun _ => rfl⟩
  case attestationSigned => delta Lift.Is exec execAttestationSigned; exact ⟨_, fun _ => rfl⟩
  case securityVersionRaise => delta Lift.Is exec execSecurityVersionRaise; exact ⟨_, fun _ => rfl⟩
  case keyRevoke => delta Lift.Is exec execKeyRevoke; exact ⟨_, fun _ => rfl⟩
  case debugDisable => delta Lift.Is exec execDebugDisable; exact ⟨_, fun _ => rfl⟩
  case inkwellScrub => delta Lift.Is exec execInkwellScrub; exact ⟨_, fun _ => rfl⟩
  case patrolScrub => delta Lift.Is exec execPatrolScrub; exact ⟨_, fun _ => rfl⟩
  case hourlyWindow => delta Lift.Is exec execHourlyWindow; exact ⟨_, fun _ => rfl⟩
  case accessTimeout => delta Lift.Is exec execAccessTimeout; exact ⟨_, fun _ => rfl⟩
  case retrainingFailure => delta Lift.Is exec execRetrainingFailure; exact ⟨_, fun _ => rfl⟩
  case migrationLine => delta Lift.Is exec execMigrationLine; exact ⟨_, fun _ => rfl⟩
  case homeFillDone => delta Lift.Is exec execHomeFillDone; exact ⟨_, fun _ => rfl⟩
  case samplerComplete => delta Lift.Is exec execSamplerComplete; exact ⟨_, fun _ => rfl⟩
  case bindResolved => delta Lift.Is exec execBindResolved; exact ⟨_, fun _ => rfl⟩
  case claimResolved => delta Lift.Is exec execClaimResolved; exact ⟨_, fun _ => rfl⟩
  case bootCheckFailed => delta Lift.Is exec execBootCheckFailed; exact ⟨_, fun _ => rfl⟩
  case portLinkUp => delta Lift.Is exec execPortLinkUp; exact ⟨_, fun _ => rfl⟩
  case referenceReturn => delta Lift.Is exec execReferenceReturn; exact ⟨_, fun _ => rfl⟩
  case mgPhyInt => delta Lift.Is exec execMgPhyInt; exact ⟨_, fun _ => rfl⟩
  case inBandRinayFrame => delta Lift.Is exec execInBandRinayFrame; exact ⟨_, fun _ => rfl⟩

/-- What a command keeps, by its lift. -/
theorem exec_keeps {c : Instr} {s t : State} (h : exec c s = .next t) :
    t.pending = s.pending ∧ (∃ l, t.mem = MemOp.applyAll s.mem l) ∧
    (liftOf c ≠ .mem → liftOf c ≠ .all → liftOf c ≠ .any → t.mem = s.mem) ∧
    (liftOf c ≠ .all → liftOf c ≠ .any → t.sec = s.sec) := by
  have hl := exec_lift c
  cases hk : liftOf c <;> rw [hk] at hl <;> obtain ⟨f, hf⟩ := hl <;> rw [hf] at h
  · obtain ⟨h1, h2, h3⟩ := onFab_keeps h; exact ⟨h1, ⟨[], h2⟩, fun _ _ _ => h2, fun _ _ => h3⟩
  · obtain ⟨h1, h2, h3⟩ := onHost_keeps h; exact ⟨h1, ⟨[], h2⟩, fun _ _ _ => h2, fun _ _ => h3⟩
  · obtain ⟨h1, h2, h3⟩ := onRead_keeps h; exact ⟨h1, ⟨[], h2⟩, fun _ _ _ => h2, fun _ _ => h3⟩
  · obtain ⟨h1, h2, h3⟩ := onMem_keeps h; exact ⟨h1, h3, fun h => absurd rfl h, fun _ _ => h2⟩
  · obtain ⟨h1, h2⟩ := onAll_keeps h; exact ⟨h1, h2, fun _ h => absurd rfl h, fun h => absurd rfl h⟩
  · obtain ⟨h1, h2⟩ := onAny_keeps h; exact ⟨h1, h2, fun _ _ h => absurd rfl h, fun _ h => absurd rfl h⟩

end Sys2Proof.Machine
end

