-- ==== Sys2Proof/Laws/State.lean ====
section
/-! SUPPORT. What each update leaves: one lemma per field per update of a strand, of a cluster's strands and of the device's
clusters, dictionary and functions; and what a table reads after it was written. -/

namespace Sys2Proof

/-! ### Tables -/

/-- A table reads what was written last at a key. -/
@[simp] theorem Tbl.find?_set_same {α : Type} (t : Tbl α) (k : Nat) (v : α) : (t.set k v).find? k = some v := by
  induction t with
  | nil => simp [Tbl.set, Tbl.find?]
  | cons e r ih =>
    obtain ⟨j, w⟩ := e
    by_cases h : j = k <;> simp [Tbl.set, Tbl.find?, h, ih]

/-- A write to one key leaves every other key. -/
theorem Tbl.find?_set_ne {α : Type} (t : Tbl α) {k j : Nat} (v : α) (h : j ≠ k) : (t.set k v).find? j = t.find? j := by
  induction t with
  | nil => simp [Tbl.set, Tbl.find?, Ne.symm h]
  | cons e r ih =>
    obtain ⟨i, w⟩ := e
    by_cases hi : i = k
    · subst hi; simp [Tbl.set, Tbl.find?, Ne.symm h]
    · by_cases hj : i = j
      · subst hj; simp [Tbl.set, Tbl.find?, hi]
      · simp [Tbl.set, Tbl.find?, hi, hj, ih]

/-- `find?_set_same` for a read with a default. -/
@[simp] theorem Tbl.get_set_same {α : Type} (t : Tbl α) (d : α) (k : Nat) (v : α) : (t.set k v).get d k = v := by
  simp [Tbl.get]

/-- `find?_set_ne` for a read with a default. -/
theorem Tbl.get_set_ne {α : Type} (t : Tbl α) (d : α) {k j : Nat} (v : α) (h : j ≠ k) : (t.set k v).get d j = t.get d j := by
  simp [Tbl.get, Tbl.find?_set_ne t v h]

/-- Both cases of a read after a write. -/
theorem Tbl.get_set {α : Type} (t : Tbl α) (d : α) (k j : Nat) (v : α) :
    (t.set k v).get d j = if j = k then v else t.get d j := by
  by_cases h : j = k
  · subst h; simp
  · simp [h, Tbl.get_set_ne t d v h]

end Sys2Proof

namespace Sys2Proof.Machine

open Sys2Proof

/-! ### A strand's registers -/

@[simp] theorem Strand.setS_st (t : Strand) (r : Nat) (v : Word) : (t.setS r v).st = t.st := rfl
@[simp] theorem Strand.setS_pc (t : Strand) (r : Nat) (v : Word) : (t.setS r v).pc = t.pc := rfl
@[simp] theorem Strand.setS_a (t : Strand) (r : Nat) (v : Word) : (t.setS r v).a = t.a := rfl
@[simp] theorem Strand.setS_p (t : Strand) (r : Nat) (v : Word) : (t.setS r v).p = t.p := rfl
@[simp] theorem Strand.setS_t (t : Strand) (r : Nat) (v : Word) : (t.setS r v).t = t.t := rfl
@[simp] theorem Strand.setS_q (t : Strand) (r : Nat) (v : Word) : (t.setS r v).q = t.q := rfl
@[simp] theorem Strand.setS_flags (t : Strand) (r : Nat) (v : Word) : (t.setS r v).flags = t.flags := rfl
@[simp] theorem Strand.setS_flagTrap (t : Strand) (r : Nat) (v : Word) : (t.setS r v).flagTrap = t.flagTrap := rfl
@[simp] theorem Strand.setS_tvec (t : Strand) (r : Nat) (v : Word) : (t.setS r v).tvec = t.tvec := rfl
@[simp] theorem Strand.setS_epc (t : Strand) (r : Nat) (v : Word) : (t.setS r v).epc = t.epc := rfl
@[simp] theorem Strand.setS_cause (t : Strand) (r : Nat) (v : Word) : (t.setS r v).cause = t.cause := rfl
@[simp] theorem Strand.setS_einfo (t : Strand) (r : Nat) (v : Word) : (t.setS r v).einfo = t.einfo := rfl
@[simp] theorem Strand.setS_waitLimit (t : Strand) (r : Nat) (v : Word) : (t.setS r v).waitLimit = t.waitLimit := rfl
@[simp] theorem Strand.setS_replays (t : Strand) (r : Nat) (v : Word) : (t.setS r v).replays = t.replays := rfl
@[simp] theorem Strand.setS_waiting (t : Strand) (r : Nat) (v : Word) : (t.setS r v).waiting = t.waiting := rfl
@[simp] theorem Strand.setS_busy (t : Strand) (r : Nat) (v : Word) : (t.setS r v).busy = t.busy := rfl
@[simp] theorem Strand.setS_async (t : Strand) (r : Nat) (v : Word) : (t.setS r v).async = t.async := rfl
@[simp] theorem Strand.setS_readyAt (t : Strand) (r : Nat) (v : Word) : (t.setS r v).readyAt = t.readyAt := rfl
@[simp] theorem Strand.setA_st (t : Strand) (r : Nat) (v : Word) : (t.setA r v).st = t.st := rfl
@[simp] theorem Strand.setA_pc (t : Strand) (r : Nat) (v : Word) : (t.setA r v).pc = t.pc := rfl
@[simp] theorem Strand.setA_s (t : Strand) (r : Nat) (v : Word) : (t.setA r v).s = t.s := rfl
@[simp] theorem Strand.setA_p (t : Strand) (r : Nat) (v : Word) : (t.setA r v).p = t.p := rfl
@[simp] theorem Strand.setA_t (t : Strand) (r : Nat) (v : Word) : (t.setA r v).t = t.t := rfl
@[simp] theorem Strand.setA_q (t : Strand) (r : Nat) (v : Word) : (t.setA r v).q = t.q := rfl
@[simp] theorem Strand.setA_flags (t : Strand) (r : Nat) (v : Word) : (t.setA r v).flags = t.flags := rfl
@[simp] theorem Strand.setA_flagTrap (t : Strand) (r : Nat) (v : Word) : (t.setA r v).flagTrap = t.flagTrap := rfl
@[simp] theorem Strand.setA_tvec (t : Strand) (r : Nat) (v : Word) : (t.setA r v).tvec = t.tvec := rfl
@[simp] theorem Strand.setA_epc (t : Strand) (r : Nat) (v : Word) : (t.setA r v).epc = t.epc := rfl
@[simp] theorem Strand.setA_cause (t : Strand) (r : Nat) (v : Word) : (t.setA r v).cause = t.cause := rfl
@[simp] theorem Strand.setA_einfo (t : Strand) (r : Nat) (v : Word) : (t.setA r v).einfo = t.einfo := rfl
@[simp] theorem Strand.setA_waitLimit (t : Strand) (r : Nat) (v : Word) : (t.setA r v).waitLimit = t.waitLimit := rfl
@[simp] theorem Strand.setA_replays (t : Strand) (r : Nat) (v : Word) : (t.setA r v).replays = t.replays := rfl
@[simp] theorem Strand.setA_waiting (t : Strand) (r : Nat) (v : Word) : (t.setA r v).waiting = t.waiting := rfl
@[simp] theorem Strand.setA_busy (t : Strand) (r : Nat) (v : Word) : (t.setA r v).busy = t.busy := rfl
@[simp] theorem Strand.setA_async (t : Strand) (r : Nat) (v : Word) : (t.setA r v).async = t.async := rfl
@[simp] theorem Strand.setA_readyAt (t : Strand) (r : Nat) (v : Word) : (t.setA r v).readyAt = t.readyAt := rfl
@[simp] theorem Strand.setT_st (t : Strand) (r : Nat) (v : Word) : (t.setT r v).st = t.st := rfl
@[simp] theorem Strand.setT_pc (t : Strand) (r : Nat) (v : Word) : (t.setT r v).pc = t.pc := rfl
@[simp] theorem Strand.setT_s (t : Strand) (r : Nat) (v : Word) : (t.setT r v).s = t.s := rfl
@[simp] theorem Strand.setT_a (t : Strand) (r : Nat) (v : Word) : (t.setT r v).a = t.a := rfl
@[simp] theorem Strand.setT_p (t : Strand) (r : Nat) (v : Word) : (t.setT r v).p = t.p := rfl
@[simp] theorem Strand.setT_q (t : Strand) (r : Nat) (v : Word) : (t.setT r v).q = t.q := rfl
@[simp] theorem Strand.setT_flags (t : Strand) (r : Nat) (v : Word) : (t.setT r v).flags = t.flags := rfl
@[simp] theorem Strand.setT_flagTrap (t : Strand) (r : Nat) (v : Word) : (t.setT r v).flagTrap = t.flagTrap := rfl
@[simp] theorem Strand.setT_tvec (t : Strand) (r : Nat) (v : Word) : (t.setT r v).tvec = t.tvec := rfl
@[simp] theorem Strand.setT_epc (t : Strand) (r : Nat) (v : Word) : (t.setT r v).epc = t.epc := rfl
@[simp] theorem Strand.setT_cause (t : Strand) (r : Nat) (v : Word) : (t.setT r v).cause = t.cause := rfl
@[simp] theorem Strand.setT_einfo (t : Strand) (r : Nat) (v : Word) : (t.setT r v).einfo = t.einfo := rfl
@[simp] theorem Strand.setT_waitLimit (t : Strand) (r : Nat) (v : Word) : (t.setT r v).waitLimit = t.waitLimit := rfl
@[simp] theorem Strand.setT_replays (t : Strand) (r : Nat) (v : Word) : (t.setT r v).replays = t.replays := rfl
@[simp] theorem Strand.setT_waiting (t : Strand) (r : Nat) (v : Word) : (t.setT r v).waiting = t.waiting := rfl
@[simp] theorem Strand.setT_busy (t : Strand) (r : Nat) (v : Word) : (t.setT r v).busy = t.busy := rfl
@[simp] theorem Strand.setT_async (t : Strand) (r : Nat) (v : Word) : (t.setT r v).async = t.async := rfl
@[simp] theorem Strand.setT_readyAt (t : Strand) (r : Nat) (v : Word) : (t.setT r v).readyAt = t.readyAt := rfl
@[simp] theorem Strand.setQ_st (t : Strand) (r : Nat) (v : Word) : (t.setQ r v).st = t.st := rfl
@[simp] theorem Strand.setQ_pc (t : Strand) (r : Nat) (v : Word) : (t.setQ r v).pc = t.pc := rfl
@[simp] theorem Strand.setQ_s (t : Strand) (r : Nat) (v : Word) : (t.setQ r v).s = t.s := rfl
@[simp] theorem Strand.setQ_a (t : Strand) (r : Nat) (v : Word) : (t.setQ r v).a = t.a := rfl
@[simp] theorem Strand.setQ_p (t : Strand) (r : Nat) (v : Word) : (t.setQ r v).p = t.p := rfl
@[simp] theorem Strand.setQ_t (t : Strand) (r : Nat) (v : Word) : (t.setQ r v).t = t.t := rfl
@[simp] theorem Strand.setQ_flags (t : Strand) (r : Nat) (v : Word) : (t.setQ r v).flags = t.flags := rfl
@[simp] theorem Strand.setQ_flagTrap (t : Strand) (r : Nat) (v : Word) : (t.setQ r v).flagTrap = t.flagTrap := rfl
@[simp] theorem Strand.setQ_tvec (t : Strand) (r : Nat) (v : Word) : (t.setQ r v).tvec = t.tvec := rfl
@[simp] theorem Strand.setQ_epc (t : Strand) (r : Nat) (v : Word) : (t.setQ r v).epc = t.epc := rfl
@[simp] theorem Strand.setQ_cause (t : Strand) (r : Nat) (v : Word) : (t.setQ r v).cause = t.cause := rfl
@[simp] theorem Strand.setQ_einfo (t : Strand) (r : Nat) (v : Word) : (t.setQ r v).einfo = t.einfo := rfl
@[simp] theorem Strand.setQ_waitLimit (t : Strand) (r : Nat) (v : Word) : (t.setQ r v).waitLimit = t.waitLimit := rfl
@[simp] theorem Strand.setQ_replays (t : Strand) (r : Nat) (v : Word) : (t.setQ r v).replays = t.replays := rfl
@[simp] theorem Strand.setQ_waiting (t : Strand) (r : Nat) (v : Word) : (t.setQ r v).waiting = t.waiting := rfl
@[simp] theorem Strand.setQ_busy (t : Strand) (r : Nat) (v : Word) : (t.setQ r v).busy = t.busy := rfl
@[simp] theorem Strand.setQ_async (t : Strand) (r : Nat) (v : Word) : (t.setQ r v).async = t.async := rfl
@[simp] theorem Strand.setQ_readyAt (t : Strand) (r : Nat) (v : Word) : (t.setQ r v).readyAt = t.readyAt := rfl
@[simp] theorem Strand.advance_st (t : Strand)  : (t.advance).st = t.st := rfl
@[simp] theorem Strand.advance_s (t : Strand)  : (t.advance).s = t.s := rfl
@[simp] theorem Strand.advance_a (t : Strand)  : (t.advance).a = t.a := rfl
@[simp] theorem Strand.advance_p (t : Strand)  : (t.advance).p = t.p := rfl
@[simp] theorem Strand.advance_t (t : Strand)  : (t.advance).t = t.t := rfl
@[simp] theorem Strand.advance_q (t : Strand)  : (t.advance).q = t.q := rfl
@[simp] theorem Strand.advance_flags (t : Strand)  : (t.advance).flags = t.flags := rfl
@[simp] theorem Strand.advance_flagTrap (t : Strand)  : (t.advance).flagTrap = t.flagTrap := rfl
@[simp] theorem Strand.advance_tvec (t : Strand)  : (t.advance).tvec = t.tvec := rfl
@[simp] theorem Strand.advance_epc (t : Strand)  : (t.advance).epc = t.epc := rfl
@[simp] theorem Strand.advance_cause (t : Strand)  : (t.advance).cause = t.cause := rfl
@[simp] theorem Strand.advance_einfo (t : Strand)  : (t.advance).einfo = t.einfo := rfl
@[simp] theorem Strand.advance_waitLimit (t : Strand)  : (t.advance).waitLimit = t.waitLimit := rfl
@[simp] theorem Strand.advance_replays (t : Strand)  : (t.advance).replays = t.replays := rfl
@[simp] theorem Strand.advance_waiting (t : Strand)  : (t.advance).waiting = t.waiting := rfl
@[simp] theorem Strand.advance_busy (t : Strand)  : (t.advance).busy = t.busy := rfl
@[simp] theorem Strand.advance_async (t : Strand)  : (t.advance).async = t.async := rfl
@[simp] theorem Strand.advance_readyAt (t : Strand)  : (t.advance).readyAt = t.readyAt := rfl
@[simp] theorem Strand.setP_st (t : Strand) (r : Nat) (v : Bool) : (t.setP r v).st = t.st := by
  unfold Strand.setP; split <;> rfl
@[simp] theorem Strand.setP_pc (t : Strand) (r : Nat) (v : Bool) : (t.setP r v).pc = t.pc := by
  unfold Strand.setP; split <;> rfl
@[simp] theorem Strand.setP_s (t : Strand) (r : Nat) (v : Bool) : (t.setP r v).s = t.s := by
  unfold Strand.setP; split <;> rfl
@[simp] theorem Strand.setP_a (t : Strand) (r : Nat) (v : Bool) : (t.setP r v).a = t.a := by
  unfold Strand.setP; split <;> rfl
@[simp] theorem Strand.setP_t (t : Strand) (r : Nat) (v : Bool) : (t.setP r v).t = t.t := by
  unfold Strand.setP; split <;> rfl
@[simp] theorem Strand.setP_q (t : Strand) (r : Nat) (v : Bool) : (t.setP r v).q = t.q := by
  unfold Strand.setP; split <;> rfl
@[simp] theorem Strand.setP_flags (t : Strand) (r : Nat) (v : Bool) : (t.setP r v).flags = t.flags := by
  unfold Strand.setP; split <;> rfl
@[simp] theorem Strand.setP_flagTrap (t : Strand) (r : Nat) (v : Bool) : (t.setP r v).flagTrap = t.flagTrap := by
  unfold Strand.setP; split <;> rfl
@[simp] theorem Strand.setP_tvec (t : Strand) (r : Nat) (v : Bool) : (t.setP r v).tvec = t.tvec := by
  unfold Strand.setP; split <;> rfl
@[simp] theorem Strand.setP_epc (t : Strand) (r : Nat) (v : Bool) : (t.setP r v).epc = t.epc := by
  unfold Strand.setP; split <;> rfl
@[simp] theorem Strand.setP_cause (t : Strand) (r : Nat) (v : Bool) : (t.setP r v).cause = t.cause := by
  unfold Strand.setP; split <;> rfl
@[simp] theorem Strand.setP_einfo (t : Strand) (r : Nat) (v : Bool) : (t.setP r v).einfo = t.einfo := by
  unfold Strand.setP; split <;> rfl
@[simp] theorem Strand.setP_waitLimit (t : Strand) (r : Nat) (v : Bool) : (t.setP r v).waitLimit = t.waitLimit := by
  unfold Strand.setP; split <;> rfl
@[simp] theorem Strand.setP_replays (t : Strand) (r : Nat) (v : Bool) : (t.setP r v).replays = t.replays := by
  unfold Strand.setP; split <;> rfl
@[simp] theorem Strand.setP_waiting (t : Strand) (r : Nat) (v : Bool) : (t.setP r v).waiting = t.waiting := by
  unfold Strand.setP; split <;> rfl
@[simp] theorem Strand.setP_busy (t : Strand) (r : Nat) (v : Bool) : (t.setP r v).busy = t.busy := by
  unfold Strand.setP; split <;> rfl
@[simp] theorem Strand.setP_async (t : Strand) (r : Nat) (v : Bool) : (t.setP r v).async = t.async := by
  unfold Strand.setP; split <;> rfl
@[simp] theorem Strand.setP_readyAt (t : Strand) (r : Nat) (v : Bool) : (t.setP r v).readyAt = t.readyAt := by
  unfold Strand.setP; split <;> rfl

/-- An s register after a write. -/
theorem Strand.sreg_setS (t : Strand) (r j : Nat) (v : Word) : (t.setS r v).sreg j = if j = r then v else t.sreg j := by
  simp [Strand.sreg, Strand.setS, Tbl.get_set]

/-- An a register after a write. -/
theorem Strand.areg_setA (t : Strand) (r j : Nat) (v : Word) : (t.setA r v).areg j = if j = r then v else t.areg j := by
  simp [Strand.areg, Strand.setA, Tbl.get_set]

/-- A t register after a write. -/
theorem Strand.treg_setT (t : Strand) (r j : Nat) (v : Word) : (t.setT r v).treg j = if j = r then v else t.treg j := by
  simp [Strand.treg, Strand.setT, Tbl.get_set]

/-- A q register after a write. -/
theorem Strand.qreg_setQ (t : Strand) (r j : Nat) (v : Word) : (t.setQ r v).qreg j = if j = r then v else t.qreg j := by
  simp [Strand.qreg, Strand.setQ, Tbl.get_set]

/-- The p registers after a write: p0 keeps its 1. -/
theorem Strand.preg_setP (t : Strand) (r j : Nat) (v : Bool) :
    (t.setP r v).preg j = if j = r ∧ r ≠ 0 then v else t.preg j := by
  by_cases hr : r = 0
  · simp [Strand.setP, hr]
  · by_cases hj : j = 0
    · simp [Strand.preg, hr, hj, Ne.symm hr]
    · simp [Strand.setP, Strand.preg, hr, hj, Tbl.get_set]

/-! ### A cluster's strands -/

@[simp] theorem Cluster.onStrand_phase (cl : Cluster) (k : Nat) (g : Strand → Strand) : (cl.onStrand k g).phase = cl.phase := rfl
@[simp] theorem Cluster.onStrand_launch (cl : Cluster) (k : Nat) (g : Strand → Strand) : (cl.onStrand k g).launch = cl.launch := rfl
@[simp] theorem Cluster.onStrand_pwidth (cl : Cluster) (k : Nat) (g : Strand → Strand) : (cl.onStrand k g).pwidth = cl.pwidth := rfl
@[simp] theorem Cluster.onStrand_startCycle (cl : Cluster) (k : Nat) (g : Strand → Strand) : (cl.onStrand k g).startCycle = cl.startCycle := rfl
@[simp] theorem Cluster.onStrand_lastIssued (cl : Cluster) (k : Nat) (g : Strand → Strand) : (cl.onStrand k g).lastIssued = cl.lastIssued := rfl
@[simp] theorem Cluster.onStrand_issueFrom (cl : Cluster) (k : Nat) (g : Strand → Strand) : (cl.onStrand k g).issueFrom = cl.issueFrom := rfl
@[simp] theorem Cluster.onStrand_matrixFrom (cl : Cluster) (k : Nat) (g : Strand → Strand) : (cl.onStrand k g).matrixFrom = cl.matrixFrom := rfl
@[simp] theorem Cluster.onStrand_imem (cl : Cluster) (k : Nat) (g : Strand → Strand) : (cl.onStrand k g).imem = cl.imem := rfl
@[simp] theorem Cluster.onStrand_imemImage (cl : Cluster) (k : Nat) (g : Strand → Strand) : (cl.onStrand k g).imemImage = cl.imemImage := rfl
@[simp] theorem Cluster.onStrand_acc (cl : Cluster) (k : Nat) (g : Strand → Strand) : (cl.onStrand k g).acc = cl.acc := rfl
@[simp] theorem Cluster.onStrand_live (cl : Cluster) (k : Nat) (g : Strand → Strand) : (cl.onStrand k g).live = cl.live := rfl
@[simp] theorem Cluster.onStrand_shadow (cl : Cluster) (k : Nat) (g : Strand → Strand) : (cl.onStrand k g).shadow = cl.shadow := rfl
@[simp] theorem Cluster.onStrand_counters (cl : Cluster) (k : Nat) (g : Strand → Strand) : (cl.onStrand k g).counters = cl.counters := rfl
@[simp] theorem Cluster.onStrand_ops (cl : Cluster) (k : Nat) (g : Strand → Strand) : (cl.onStrand k g).ops = cl.ops := rfl
@[simp] theorem Cluster.onStrand_nextOp (cl : Cluster) (k : Nat) (g : Strand → Strand) : (cl.onStrand k g).nextOp = cl.nextOp := rfl
@[simp] theorem Cluster.onStrand_streams (cl : Cluster) (k : Nat) (g : Strand → Strand) : (cl.onStrand k g).streams = cl.streams := rfl
@[simp] theorem Cluster.onStrand_nextStream (cl : Cluster) (k : Nat) (g : Strand → Strand) : (cl.onStrand k g).nextStream = cl.nextStream := rfl
@[simp] theorem Cluster.onStrand_nibMiss (cl : Cluster) (k : Nat) (g : Strand → Strand) : (cl.onStrand k g).nibMiss = cl.nibMiss := rfl
@[simp] theorem Cluster.onStrand_nibBad (cl : Cluster) (k : Nat) (g : Strand → Strand) : (cl.onStrand k g).nibBad = cl.nibBad := rfl
@[simp] theorem Cluster.onStrand_nibLimit (cl : Cluster) (k : Nat) (g : Strand → Strand) : (cl.onStrand k g).nibLimit = cl.nibLimit := rfl
@[simp] theorem Cluster.onStrand_credit (cl : Cluster) (k : Nat) (g : Strand → Strand) : (cl.onStrand k g).credit = cl.credit := rfl
@[simp] theorem Cluster.onStrand_creditAt (cl : Cluster) (k : Nat) (g : Strand → Strand) : (cl.onStrand k g).creditAt = cl.creditAt := rfl
@[simp] theorem Cluster.onStrand_fatal (cl : Cluster) (k : Nat) (g : Strand → Strand) : (cl.onStrand k g).fatal = cl.fatal := rfl
@[simp] theorem Cluster.onStrand_residueReplays (cl : Cluster) (k : Nat) (g : Strand → Strand) : (cl.onStrand k g).residueReplays = cl.residueReplays := rfl

/-- A strand after a change of one. -/
theorem Cluster.strand_onStrand (cl : Cluster) (k j : Nat) (g : Strand → Strand) :
    (cl.onStrand k g).strand j = if j = k then g (cl.strand k) else cl.strand j := by
  simp [Cluster.strand, Cluster.onStrand, Tbl.get_set]

/-! ### The device's clusters, dictionary and functions -/

@[simp] theorem Fab.onCluster_phase (f : Fab) (c : Nat) (g : Cluster → Cluster) : (f.onCluster c g).phase = f.phase := rfl
@[simp] theorem Fab.onCluster_cycle (f : Fab) (c : Nat) (g : Cluster → Cluster) : (f.onCluster c g).cycle = f.cycle := rfl
@[simp] theorem Fab.onCluster_timeBase (f : Fab) (c : Nat) (g : Cluster → Cluster) : (f.onCluster c g).timeBase = f.timeBase := rfl
@[simp] theorem Fab.onCluster_dict (f : Fab) (c : Nat) (g : Cluster → Cluster) : (f.onCluster c g).dict = f.dict := rfl
@[simp] theorem Fab.onCluster_tags (f : Fab) (c : Nat) (g : Cluster → Cluster) : (f.onCluster c g).tags = f.tags := rfl
@[simp] theorem Fab.onCluster_lineKey (f : Fab) (c : Nat) (g : Cluster → Cluster) : (f.onCluster c g).lineKey = f.lineKey := rfl
@[simp] theorem Fab.onCluster_fills (f : Fab) (c : Nat) (g : Cluster → Cluster) : (f.onCluster c g).fills = f.fills := rfl
@[simp] theorem Fab.onCluster_badLines (f : Fab) (c : Nat) (g : Cluster → Cluster) : (f.onCluster c g).badLines = f.badLines := rfl
@[simp] theorem Fab.onCluster_softLines (f : Fab) (c : Nat) (g : Cluster → Cluster) : (f.onCluster c g).softLines = f.softLines := rfl
@[simp] theorem Fab.onCluster_wellFaults (f : Fab) (c : Nat) (g : Cluster → Cluster) : (f.onCluster c g).wellFaults = f.wellFaults := rfl
@[simp] theorem Fab.onCluster_regionCtr (f : Fab) (c : Nat) (g : Cluster → Cluster) : (f.onCluster c g).regionCtr = f.regionCtr := rfl
@[simp] theorem Fab.onCluster_packageCtr (f : Fab) (c : Nat) (g : Cluster → Cluster) : (f.onCluster c g).packageCtr = f.packageCtr := rfl
@[simp] theorem Fab.onCluster_txns (f : Fab) (c : Nat) (g : Cluster → Cluster) : (f.onCluster c g).txns = f.txns := rfl
@[simp] theorem Fab.onCluster_waiting (f : Fab) (c : Nat) (g : Cluster → Cluster) : (f.onCluster c g).waiting = f.waiting := rfl
@[simp] theorem Fab.onCluster_chans (f : Fab) (c : Nat) (g : Cluster → Cluster) : (f.onCluster c g).chans = f.chans := rfl
@[simp] theorem Fab.onCluster_nextTxn (f : Fab) (c : Nat) (g : Cluster → Cluster) : (f.onCluster c g).nextTxn = f.nextTxn := rfl
@[simp] theorem Fab.onCluster_scopes (f : Fab) (c : Nat) (g : Cluster → Cluster) : (f.onCluster c g).scopes = f.scopes := rfl
@[simp] theorem Fab.onCluster_inForce (f : Fab) (c : Nat) (g : Cluster → Cluster) : (f.onCluster c g).inForce = f.inForce := rfl
@[simp] theorem Fab.onCluster_routes (f : Fab) (c : Nat) (g : Cluster → Cluster) : (f.onCluster c g).routes = f.routes := rfl
@[simp] theorem Fab.onCluster_routeBank (f : Fab) (c : Nat) (g : Cluster → Cluster) : (f.onCluster c g).routeBank = f.routeBank := rfl
@[simp] theorem Fab.onCluster_routeDraining (f : Fab) (c : Nat) (g : Cluster → Cluster) : (f.onCluster c g).routeDraining = f.routeDraining := rfl
@[simp] theorem Fab.onCluster_oldRoutes (f : Fab) (c : Nat) (g : Cluster → Cluster) : (f.onCluster c g).oldRoutes = f.oldRoutes := rfl
@[simp] theorem Fab.onCluster_routeDrainEnds (f : Fab) (c : Nat) (g : Cluster → Cluster) : (f.onCluster c g).routeDrainEnds = f.routeDrainEnds := rfl
@[simp] theorem Fab.onCluster_launches (f : Fab) (c : Nat) (g : Cluster → Cluster) : (f.onCluster c g).launches = f.launches := rfl
@[simp] theorem Fab.onCluster_nextLaunch (f : Fab) (c : Nat) (g : Cluster → Cluster) : (f.onCluster c g).nextLaunch = f.nextLaunch := rfl
@[simp] theorem Fab.onCluster_vfs (f : Fab) (c : Nat) (g : Cluster → Cluster) : (f.onCluster c g).vfs = f.vfs := rfl
@[simp] theorem Fab.onCluster_mailboxes (f : Fab) (c : Nat) (g : Cluster → Cluster) : (f.onCluster c g).mailboxes = f.mailboxes := rfl
@[simp] theorem Fab.onCluster_batches (f : Fab) (c : Nat) (g : Cluster → Cluster) : (f.onCluster c g).batches = f.batches := rfl
@[simp] theorem Fab.onCluster_versionTop (f : Fab) (c : Nat) (g : Cluster → Cluster) : (f.onCluster c g).versionTop = f.versionTop := rfl
@[simp] theorem Fab.onCluster_versions (f : Fab) (c : Nat) (g : Cluster → Cluster) : (f.onCluster c g).versions = f.versions := rfl
@[simp] theorem Fab.onCluster_ductus (f : Fab) (c : Nat) (g : Cluster → Cluster) : (f.onCluster c g).ductus = f.ductus := rfl
@[simp] theorem Fab.onCluster_steps (f : Fab) (c : Nat) (g : Cluster → Cluster) : (f.onCluster c g).steps = f.steps := rfl
@[simp] theorem Fab.onCluster_slots (f : Fab) (c : Nat) (g : Cluster → Cluster) : (f.onCluster c g).slots = f.slots := rfl
@[simp] theorem Fab.onCluster_colls (f : Fab) (c : Nat) (g : Cluster → Cluster) : (f.onCluster c g).colls = f.colls := rfl
@[simp] theorem Fab.onCluster_nextColl (f : Fab) (c : Nat) (g : Cluster → Cluster) : (f.onCluster c g).nextColl = f.nextColl := rfl
@[simp] theorem Fab.onCluster_treeSeq (f : Fab) (c : Nat) (g : Cluster → Cluster) : (f.onCluster c g).treeSeq = f.treeSeq := rfl
@[simp] theorem Fab.onCluster_repeats (f : Fab) (c : Nat) (g : Cluster → Cluster) : (f.onCluster c g).repeats = f.repeats := rfl
@[simp] theorem Fab.onCluster_nextRepeat (f : Fab) (c : Nat) (g : Cluster → Cluster) : (f.onCluster c g).nextRepeat = f.nextRepeat := rfl
@[simp] theorem Fab.onCluster_samplers (f : Fab) (c : Nat) (g : Cluster → Cluster) : (f.onCluster c g).samplers = f.samplers := rfl
@[simp] theorem Fab.onCluster_flows (f : Fab) (c : Nat) (g : Cluster → Cluster) : (f.onCluster c g).flows = f.flows := rfl
@[simp] theorem Fab.onCluster_qps (f : Fab) (c : Nat) (g : Cluster → Cluster) : (f.onCluster c g).qps = f.qps := rfl
@[simp] theorem Fab.onCluster_netOut (f : Fab) (c : Nat) (g : Cluster → Cluster) : (f.onCluster c g).netOut = f.netOut := rfl
@[simp] theorem Fab.onCluster_sas (f : Fab) (c : Nat) (g : Cluster → Cluster) : (f.onCluster c g).sas = f.sas := rfl
@[simp] theorem Fab.onCluster_badPackets (f : Fab) (c : Nat) (g : Cluster → Cluster) : (f.onCluster c g).badPackets = f.badPackets := rfl
@[simp] theorem Fab.onCluster_badMessages (f : Fab) (c : Nat) (g : Cluster → Cluster) : (f.onCluster c g).badMessages = f.badMessages := rfl
@[simp] theorem Fab.onCluster_lateBlocks (f : Fab) (c : Nat) (g : Cluster → Cluster) : (f.onCluster c g).lateBlocks = f.lateBlocks := rfl
@[simp] theorem Fab.onCluster_laneBad (f : Fab) (c : Nat) (g : Cluster → Cluster) : (f.onCluster c g).laneBad = f.laneBad := rfl
@[simp] theorem Fab.onCluster_portLanes (f : Fab) (c : Nat) (g : Cluster → Cluster) : (f.onCluster c g).portLanes = f.portLanes := rfl
@[simp] theorem Fab.onCluster_laserBad (f : Fab) (c : Nat) (g : Cluster → Cluster) : (f.onCluster c g).laserBad = f.laserBad := rfl
@[simp] theorem Fab.onCluster_linkReplays (f : Fab) (c : Nat) (g : Cluster → Cluster) : (f.onCluster c g).linkReplays = f.linkReplays := rfl
@[simp] theorem Fab.onCluster_members (f : Fab) (c : Nat) (g : Cluster → Cluster) : (f.onCluster c g).members = f.members := rfl
@[simp] theorem Fab.onCluster_epochChanges (f : Fab) (c : Nat) (g : Cluster → Cluster) : (f.onCluster c g).epochChanges = f.epochChanges := rfl
@[simp] theorem Fab.onCluster_epochDue (f : Fab) (c : Nat) (g : Cluster → Cluster) : (f.onCluster c g).epochDue = f.epochDue := rfl
@[simp] theorem Fab.onCluster_lossQueue (f : Fab) (c : Nat) (g : Cluster → Cluster) : (f.onCluster c g).lossQueue = f.lossQueue := rfl
@[simp] theorem Fab.onCluster_memberSeq (f : Fab) (c : Nat) (g : Cluster → Cluster) : (f.onCluster c g).memberSeq = f.memberSeq := rfl
@[simp] theorem Fab.onCluster_memberOut (f : Fab) (c : Nat) (g : Cluster → Cluster) : (f.onCluster c g).memberOut = f.memberOut := rfl
@[simp] theorem Fab.onCluster_memberOwners (f : Fab) (c : Nat) (g : Cluster → Cluster) : (f.onCluster c g).memberOwners = f.memberOwners := rfl
@[simp] theorem Fab.onCluster_noivos (f : Fab) (c : Nat) (g : Cluster → Cluster) : (f.onCluster c g).noivos = f.noivos := rfl
@[simp] theorem Fab.onCluster_sourceSeq (f : Fab) (c : Nat) (g : Cluster → Cluster) : (f.onCluster c g).sourceSeq = f.sourceSeq := rfl
@[simp] theorem Fab.onCluster_log (f : Fab) (c : Nat) (g : Cluster → Cluster) : (f.onCluster c g).log = f.log := rfl
@[simp] theorem Fab.onCluster_subscribers (f : Fab) (c : Nat) (g : Cluster → Cluster) : (f.onCluster c g).subscribers = f.subscribers := rfl
@[simp] theorem Fab.onCluster_tenantPaths (f : Fab) (c : Nat) (g : Cluster → Cluster) : (f.onCluster c g).tenantPaths = f.tenantPaths := rfl
@[simp] theorem Fab.onCluster_agent (f : Fab) (c : Nat) (g : Cluster → Cluster) : (f.onCluster c g).agent = f.agent := rfl
@[simp] theorem Fab.onCluster_powerWindow (f : Fab) (c : Nat) (g : Cluster → Cluster) : (f.onCluster c g).powerWindow = f.powerWindow := rfl
@[simp] theorem Fab.onCluster_budget (f : Fab) (c : Nat) (g : Cluster → Cluster) : (f.onCluster c g).budget = f.budget := rfl
@[simp] theorem Fab.onCluster_thermalCeiling (f : Fab) (c : Nat) (g : Cluster → Cluster) : (f.onCluster c g).thermalCeiling = f.thermalCeiling := rfl
@[simp] theorem Fab.onCluster_clamped (f : Fab) (c : Nat) (g : Cluster → Cluster) : (f.onCluster c g).clamped = f.clamped := rfl
@[simp] theorem Fab.onCluster_sprintHot (f : Fab) (c : Nat) (g : Cluster → Cluster) : (f.onCluster c g).sprintHot = f.sprintHot := rfl
@[simp] theorem Fab.onCluster_junctionStop (f : Fab) (c : Nat) (g : Cluster → Cluster) : (f.onCluster c g).junctionStop = f.junctionStop := rfl
@[simp] theorem Fab.onCluster_islands (f : Fab) (c : Nat) (g : Cluster → Cluster) : (f.onCluster c g).islands = f.islands := rfl
@[simp] theorem Fab.onCluster_pins (f : Fab) (c : Nat) (g : Cluster → Cluster) : (f.onCluster c g).pins = f.pins := rfl
@[simp] theorem Fab.onCluster_inPins (f : Fab) (c : Nat) (g : Cluster → Cluster) : (f.onCluster c g).inPins = f.inPins := rfl
@[simp] theorem Fab.onCluster_retirements (f : Fab) (c : Nat) (g : Cluster → Cluster) : (f.onCluster c g).retirements = f.retirements := rfl
@[simp] theorem Fab.onCluster_chanTimeouts (f : Fab) (c : Nat) (g : Cluster → Cluster) : (f.onCluster c g).chanTimeouts = f.chanTimeouts := rfl
@[simp] theorem Fab.onCluster_chanTraining (f : Fab) (c : Nat) (g : Cluster → Cluster) : (f.onCluster c g).chanTraining = f.chanTraining := rfl
@[simp] theorem Fab.onCluster_chanHour (f : Fab) (c : Nat) (g : Cluster → Cluster) : (f.onCluster c g).chanHour = f.chanHour := rfl
@[simp] theorem Fab.onCluster_clearing (f : Fab) (c : Nat) (g : Cluster → Cluster) : (f.onCluster c g).clearing = f.clearing := rfl
@[simp] theorem Fab.onCluster_restarts (f : Fab) (c : Nat) (g : Cluster → Cluster) : (f.onCluster c g).restarts = f.restarts := rfl
@[simp] theorem Fab.onCluster_resetWaits (f : Fab) (c : Nat) (g : Cluster → Cluster) : (f.onCluster c g).resetWaits = f.resetWaits := rfl
@[simp] theorem Fab.onCluster_ewsOutcome (f : Fab) (c : Nat) (g : Cluster → Cluster) : (f.onCluster c g).ewsOutcome = f.ewsOutcome := rfl
@[simp] theorem Fab.onCluster_ewsGraced (f : Fab) (c : Nat) (g : Cluster → Cluster) : (f.onCluster c g).ewsGraced = f.ewsGraced := rfl
@[simp] theorem Fab.onCluster_interrupts (f : Fab) (c : Nat) (g : Cluster → Cluster) : (f.onCluster c g).interrupts = f.interrupts := rfl
@[simp] theorem Fab.onStrand_phase (f : Fab) (c k : Nat) (g : Strand → Strand) : (f.onStrand c k g).phase = f.phase := rfl
@[simp] theorem Fab.onStrand_cycle (f : Fab) (c k : Nat) (g : Strand → Strand) : (f.onStrand c k g).cycle = f.cycle := rfl
@[simp] theorem Fab.onStrand_timeBase (f : Fab) (c k : Nat) (g : Strand → Strand) : (f.onStrand c k g).timeBase = f.timeBase := rfl
@[simp] theorem Fab.onStrand_dict (f : Fab) (c k : Nat) (g : Strand → Strand) : (f.onStrand c k g).dict = f.dict := rfl
@[simp] theorem Fab.onStrand_tags (f : Fab) (c k : Nat) (g : Strand → Strand) : (f.onStrand c k g).tags = f.tags := rfl
@[simp] theorem Fab.onStrand_lineKey (f : Fab) (c k : Nat) (g : Strand → Strand) : (f.onStrand c k g).lineKey = f.lineKey := rfl
@[simp] theorem Fab.onStrand_fills (f : Fab) (c k : Nat) (g : Strand → Strand) : (f.onStrand c k g).fills = f.fills := rfl
@[simp] theorem Fab.onStrand_badLines (f : Fab) (c k : Nat) (g : Strand → Strand) : (f.onStrand c k g).badLines = f.badLines := rfl
@[simp] theorem Fab.onStrand_softLines (f : Fab) (c k : Nat) (g : Strand → Strand) : (f.onStrand c k g).softLines = f.softLines := rfl
@[simp] theorem Fab.onStrand_wellFaults (f : Fab) (c k : Nat) (g : Strand → Strand) : (f.onStrand c k g).wellFaults = f.wellFaults := rfl
@[simp] theorem Fab.onStrand_regionCtr (f : Fab) (c k : Nat) (g : Strand → Strand) : (f.onStrand c k g).regionCtr = f.regionCtr := rfl
@[simp] theorem Fab.onStrand_packageCtr (f : Fab) (c k : Nat) (g : Strand → Strand) : (f.onStrand c k g).packageCtr = f.packageCtr := rfl
@[simp] theorem Fab.onStrand_txns (f : Fab) (c k : Nat) (g : Strand → Strand) : (f.onStrand c k g).txns = f.txns := rfl
@[simp] theorem Fab.onStrand_waiting (f : Fab) (c k : Nat) (g : Strand → Strand) : (f.onStrand c k g).waiting = f.waiting := rfl
@[simp] theorem Fab.onStrand_chans (f : Fab) (c k : Nat) (g : Strand → Strand) : (f.onStrand c k g).chans = f.chans := rfl
@[simp] theorem Fab.onStrand_nextTxn (f : Fab) (c k : Nat) (g : Strand → Strand) : (f.onStrand c k g).nextTxn = f.nextTxn := rfl
@[simp] theorem Fab.onStrand_scopes (f : Fab) (c k : Nat) (g : Strand → Strand) : (f.onStrand c k g).scopes = f.scopes := rfl
@[simp] theorem Fab.onStrand_inForce (f : Fab) (c k : Nat) (g : Strand → Strand) : (f.onStrand c k g).inForce = f.inForce := rfl
@[simp] theorem Fab.onStrand_routes (f : Fab) (c k : Nat) (g : Strand → Strand) : (f.onStrand c k g).routes = f.routes := rfl
@[simp] theorem Fab.onStrand_routeBank (f : Fab) (c k : Nat) (g : Strand → Strand) : (f.onStrand c k g).routeBank = f.routeBank := rfl
@[simp] theorem Fab.onStrand_routeDraining (f : Fab) (c k : Nat) (g : Strand → Strand) : (f.onStrand c k g).routeDraining = f.routeDraining := rfl
@[simp] theorem Fab.onStrand_oldRoutes (f : Fab) (c k : Nat) (g : Strand → Strand) : (f.onStrand c k g).oldRoutes = f.oldRoutes := rfl
@[simp] theorem Fab.onStrand_routeDrainEnds (f : Fab) (c k : Nat) (g : Strand → Strand) : (f.onStrand c k g).routeDrainEnds = f.routeDrainEnds := rfl
@[simp] theorem Fab.onStrand_launches (f : Fab) (c k : Nat) (g : Strand → Strand) : (f.onStrand c k g).launches = f.launches := rfl
@[simp] theorem Fab.onStrand_nextLaunch (f : Fab) (c k : Nat) (g : Strand → Strand) : (f.onStrand c k g).nextLaunch = f.nextLaunch := rfl
@[simp] theorem Fab.onStrand_vfs (f : Fab) (c k : Nat) (g : Strand → Strand) : (f.onStrand c k g).vfs = f.vfs := rfl
@[simp] theorem Fab.onStrand_mailboxes (f : Fab) (c k : Nat) (g : Strand → Strand) : (f.onStrand c k g).mailboxes = f.mailboxes := rfl
@[simp] theorem Fab.onStrand_batches (f : Fab) (c k : Nat) (g : Strand → Strand) : (f.onStrand c k g).batches = f.batches := rfl
@[simp] theorem Fab.onStrand_versionTop (f : Fab) (c k : Nat) (g : Strand → Strand) : (f.onStrand c k g).versionTop = f.versionTop := rfl
@[simp] theorem Fab.onStrand_versions (f : Fab) (c k : Nat) (g : Strand → Strand) : (f.onStrand c k g).versions = f.versions := rfl
@[simp] theorem Fab.onStrand_ductus (f : Fab) (c k : Nat) (g : Strand → Strand) : (f.onStrand c k g).ductus = f.ductus := rfl
@[simp] theorem Fab.onStrand_steps (f : Fab) (c k : Nat) (g : Strand → Strand) : (f.onStrand c k g).steps = f.steps := rfl
@[simp] theorem Fab.onStrand_slots (f : Fab) (c k : Nat) (g : Strand → Strand) : (f.onStrand c k g).slots = f.slots := rfl
@[simp] theorem Fab.onStrand_colls (f : Fab) (c k : Nat) (g : Strand → Strand) : (f.onStrand c k g).colls = f.colls := rfl
@[simp] theorem Fab.onStrand_nextColl (f : Fab) (c k : Nat) (g : Strand → Strand) : (f.onStrand c k g).nextColl = f.nextColl := rfl
@[simp] theorem Fab.onStrand_treeSeq (f : Fab) (c k : Nat) (g : Strand → Strand) : (f.onStrand c k g).treeSeq = f.treeSeq := rfl
@[simp] theorem Fab.onStrand_repeats (f : Fab) (c k : Nat) (g : Strand → Strand) : (f.onStrand c k g).repeats = f.repeats := rfl
@[simp] theorem Fab.onStrand_nextRepeat (f : Fab) (c k : Nat) (g : Strand → Strand) : (f.onStrand c k g).nextRepeat = f.nextRepeat := rfl
@[simp] theorem Fab.onStrand_samplers (f : Fab) (c k : Nat) (g : Strand → Strand) : (f.onStrand c k g).samplers = f.samplers := rfl
@[simp] theorem Fab.onStrand_flows (f : Fab) (c k : Nat) (g : Strand → Strand) : (f.onStrand c k g).flows = f.flows := rfl
@[simp] theorem Fab.onStrand_qps (f : Fab) (c k : Nat) (g : Strand → Strand) : (f.onStrand c k g).qps = f.qps := rfl
@[simp] theorem Fab.onStrand_netOut (f : Fab) (c k : Nat) (g : Strand → Strand) : (f.onStrand c k g).netOut = f.netOut := rfl
@[simp] theorem Fab.onStrand_sas (f : Fab) (c k : Nat) (g : Strand → Strand) : (f.onStrand c k g).sas = f.sas := rfl
@[simp] theorem Fab.onStrand_badPackets (f : Fab) (c k : Nat) (g : Strand → Strand) : (f.onStrand c k g).badPackets = f.badPackets := rfl
@[simp] theorem Fab.onStrand_badMessages (f : Fab) (c k : Nat) (g : Strand → Strand) : (f.onStrand c k g).badMessages = f.badMessages := rfl
@[simp] theorem Fab.onStrand_lateBlocks (f : Fab) (c k : Nat) (g : Strand → Strand) : (f.onStrand c k g).lateBlocks = f.lateBlocks := rfl
@[simp] theorem Fab.onStrand_laneBad (f : Fab) (c k : Nat) (g : Strand → Strand) : (f.onStrand c k g).laneBad = f.laneBad := rfl
@[simp] theorem Fab.onStrand_portLanes (f : Fab) (c k : Nat) (g : Strand → Strand) : (f.onStrand c k g).portLanes = f.portLanes := rfl
@[simp] theorem Fab.onStrand_laserBad (f : Fab) (c k : Nat) (g : Strand → Strand) : (f.onStrand c k g).laserBad = f.laserBad := rfl
@[simp] theorem Fab.onStrand_linkReplays (f : Fab) (c k : Nat) (g : Strand → Strand) : (f.onStrand c k g).linkReplays = f.linkReplays := rfl
@[simp] theorem Fab.onStrand_members (f : Fab) (c k : Nat) (g : Strand → Strand) : (f.onStrand c k g).members = f.members := rfl
@[simp] theorem Fab.onStrand_epochChanges (f : Fab) (c k : Nat) (g : Strand → Strand) : (f.onStrand c k g).epochChanges = f.epochChanges := rfl
@[simp] theorem Fab.onStrand_epochDue (f : Fab) (c k : Nat) (g : Strand → Strand) : (f.onStrand c k g).epochDue = f.epochDue := rfl
@[simp] theorem Fab.onStrand_lossQueue (f : Fab) (c k : Nat) (g : Strand → Strand) : (f.onStrand c k g).lossQueue = f.lossQueue := rfl
@[simp] theorem Fab.onStrand_memberSeq (f : Fab) (c k : Nat) (g : Strand → Strand) : (f.onStrand c k g).memberSeq = f.memberSeq := rfl
@[simp] theorem Fab.onStrand_memberOut (f : Fab) (c k : Nat) (g : Strand → Strand) : (f.onStrand c k g).memberOut = f.memberOut := rfl
@[simp] theorem Fab.onStrand_memberOwners (f : Fab) (c k : Nat) (g : Strand → Strand) : (f.onStrand c k g).memberOwners = f.memberOwners := rfl
@[simp] theorem Fab.onStrand_noivos (f : Fab) (c k : Nat) (g : Strand → Strand) : (f.onStrand c k g).noivos = f.noivos := rfl
@[simp] theorem Fab.onStrand_sourceSeq (f : Fab) (c k : Nat) (g : Strand → Strand) : (f.onStrand c k g).sourceSeq = f.sourceSeq := rfl
@[simp] theorem Fab.onStrand_log (f : Fab) (c k : Nat) (g : Strand → Strand) : (f.onStrand c k g).log = f.log := rfl
@[simp] theorem Fab.onStrand_subscribers (f : Fab) (c k : Nat) (g : Strand → Strand) : (f.onStrand c k g).subscribers = f.subscribers := rfl
@[simp] theorem Fab.onStrand_tenantPaths (f : Fab) (c k : Nat) (g : Strand → Strand) : (f.onStrand c k g).tenantPaths = f.tenantPaths := rfl
@[simp] theorem Fab.onStrand_agent (f : Fab) (c k : Nat) (g : Strand → Strand) : (f.onStrand c k g).agent = f.agent := rfl
@[simp] theorem Fab.onStrand_powerWindow (f : Fab) (c k : Nat) (g : Strand → Strand) : (f.onStrand c k g).powerWindow = f.powerWindow := rfl
@[simp] theorem Fab.onStrand_budget (f : Fab) (c k : Nat) (g : Strand → Strand) : (f.onStrand c k g).budget = f.budget := rfl
@[simp] theorem Fab.onStrand_thermalCeiling (f : Fab) (c k : Nat) (g : Strand → Strand) : (f.onStrand c k g).thermalCeiling = f.thermalCeiling := rfl
@[simp] theorem Fab.onStrand_clamped (f : Fab) (c k : Nat) (g : Strand → Strand) : (f.onStrand c k g).clamped = f.clamped := rfl
@[simp] theorem Fab.onStrand_sprintHot (f : Fab) (c k : Nat) (g : Strand → Strand) : (f.onStrand c k g).sprintHot = f.sprintHot := rfl
@[simp] theorem Fab.onStrand_junctionStop (f : Fab) (c k : Nat) (g : Strand → Strand) : (f.onStrand c k g).junctionStop = f.junctionStop := rfl
@[simp] theorem Fab.onStrand_islands (f : Fab) (c k : Nat) (g : Strand → Strand) : (f.onStrand c k g).islands = f.islands := rfl
@[simp] theorem Fab.onStrand_pins (f : Fab) (c k : Nat) (g : Strand → Strand) : (f.onStrand c k g).pins = f.pins := rfl
@[simp] theorem Fab.onStrand_inPins (f : Fab) (c k : Nat) (g : Strand → Strand) : (f.onStrand c k g).inPins = f.inPins := rfl
@[simp] theorem Fab.onStrand_retirements (f : Fab) (c k : Nat) (g : Strand → Strand) : (f.onStrand c k g).retirements = f.retirements := rfl
@[simp] theorem Fab.onStrand_chanTimeouts (f : Fab) (c k : Nat) (g : Strand → Strand) : (f.onStrand c k g).chanTimeouts = f.chanTimeouts := rfl
@[simp] theorem Fab.onStrand_chanTraining (f : Fab) (c k : Nat) (g : Strand → Strand) : (f.onStrand c k g).chanTraining = f.chanTraining := rfl
@[simp] theorem Fab.onStrand_chanHour (f : Fab) (c k : Nat) (g : Strand → Strand) : (f.onStrand c k g).chanHour = f.chanHour := rfl
@[simp] theorem Fab.onStrand_clearing (f : Fab) (c k : Nat) (g : Strand → Strand) : (f.onStrand c k g).clearing = f.clearing := rfl
@[simp] theorem Fab.onStrand_restarts (f : Fab) (c k : Nat) (g : Strand → Strand) : (f.onStrand c k g).restarts = f.restarts := rfl
@[simp] theorem Fab.onStrand_resetWaits (f : Fab) (c k : Nat) (g : Strand → Strand) : (f.onStrand c k g).resetWaits = f.resetWaits := rfl
@[simp] theorem Fab.onStrand_ewsOutcome (f : Fab) (c k : Nat) (g : Strand → Strand) : (f.onStrand c k g).ewsOutcome = f.ewsOutcome := rfl
@[simp] theorem Fab.onStrand_ewsGraced (f : Fab) (c k : Nat) (g : Strand → Strand) : (f.onStrand c k g).ewsGraced = f.ewsGraced := rfl
@[simp] theorem Fab.onStrand_interrupts (f : Fab) (c k : Nat) (g : Strand → Strand) : (f.onStrand c k g).interrupts = f.interrupts := rfl
@[simp] theorem Fab.dset_phase (f : Fab) (i j v : Nat) : (f.dset i j v).phase = f.phase := rfl
@[simp] theorem Fab.dset_cycle (f : Fab) (i j v : Nat) : (f.dset i j v).cycle = f.cycle := rfl
@[simp] theorem Fab.dset_timeBase (f : Fab) (i j v : Nat) : (f.dset i j v).timeBase = f.timeBase := rfl
@[simp] theorem Fab.dset_tags (f : Fab) (i j v : Nat) : (f.dset i j v).tags = f.tags := rfl
@[simp] theorem Fab.dset_lineKey (f : Fab) (i j v : Nat) : (f.dset i j v).lineKey = f.lineKey := rfl
@[simp] theorem Fab.dset_fills (f : Fab) (i j v : Nat) : (f.dset i j v).fills = f.fills := rfl
@[simp] theorem Fab.dset_badLines (f : Fab) (i j v : Nat) : (f.dset i j v).badLines = f.badLines := rfl
@[simp] theorem Fab.dset_softLines (f : Fab) (i j v : Nat) : (f.dset i j v).softLines = f.softLines := rfl
@[simp] theorem Fab.dset_wellFaults (f : Fab) (i j v : Nat) : (f.dset i j v).wellFaults = f.wellFaults := rfl
@[simp] theorem Fab.dset_clusters (f : Fab) (i j v : Nat) : (f.dset i j v).clusters = f.clusters := rfl
@[simp] theorem Fab.dset_regionCtr (f : Fab) (i j v : Nat) : (f.dset i j v).regionCtr = f.regionCtr := rfl
@[simp] theorem Fab.dset_packageCtr (f : Fab) (i j v : Nat) : (f.dset i j v).packageCtr = f.packageCtr := rfl
@[simp] theorem Fab.dset_txns (f : Fab) (i j v : Nat) : (f.dset i j v).txns = f.txns := rfl
@[simp] theorem Fab.dset_waiting (f : Fab) (i j v : Nat) : (f.dset i j v).waiting = f.waiting := rfl
@[simp] theorem Fab.dset_chans (f : Fab) (i j v : Nat) : (f.dset i j v).chans = f.chans := rfl
@[simp] theorem Fab.dset_nextTxn (f : Fab) (i j v : Nat) : (f.dset i j v).nextTxn = f.nextTxn := rfl
@[simp] theorem Fab.dset_scopes (f : Fab) (i j v : Nat) : (f.dset i j v).scopes = f.scopes := rfl
@[simp] theorem Fab.dset_inForce (f : Fab) (i j v : Nat) : (f.dset i j v).inForce = f.inForce := rfl
@[simp] theorem Fab.dset_routes (f : Fab) (i j v : Nat) : (f.dset i j v).routes = f.routes := rfl
@[simp] theorem Fab.dset_routeBank (f : Fab) (i j v : Nat) : (f.dset i j v).routeBank = f.routeBank := rfl
@[simp] theorem Fab.dset_routeDraining (f : Fab) (i j v : Nat) : (f.dset i j v).routeDraining = f.routeDraining := rfl
@[simp] theorem Fab.dset_oldRoutes (f : Fab) (i j v : Nat) : (f.dset i j v).oldRoutes = f.oldRoutes := rfl
@[simp] theorem Fab.dset_routeDrainEnds (f : Fab) (i j v : Nat) : (f.dset i j v).routeDrainEnds = f.routeDrainEnds := rfl
@[simp] theorem Fab.dset_launches (f : Fab) (i j v : Nat) : (f.dset i j v).launches = f.launches := rfl
@[simp] theorem Fab.dset_nextLaunch (f : Fab) (i j v : Nat) : (f.dset i j v).nextLaunch = f.nextLaunch := rfl
@[simp] theorem Fab.dset_vfs (f : Fab) (i j v : Nat) : (f.dset i j v).vfs = f.vfs := rfl
@[simp] theorem Fab.dset_mailboxes (f : Fab) (i j v : Nat) : (f.dset i j v).mailboxes = f.mailboxes := rfl
@[simp] theorem Fab.dset_batches (f : Fab) (i j v : Nat) : (f.dset i j v).batches = f.batches := rfl
@[simp] theorem Fab.dset_versionTop (f : Fab) (i j v : Nat) : (f.dset i j v).versionTop = f.versionTop := rfl
@[simp] theorem Fab.dset_versions (f : Fab) (i j v : Nat) : (f.dset i j v).versions = f.versions := rfl
@[simp] theorem Fab.dset_ductus (f : Fab) (i j v : Nat) : (f.dset i j v).ductus = f.ductus := rfl
@[simp] theorem Fab.dset_steps (f : Fab) (i j v : Nat) : (f.dset i j v).steps = f.steps := rfl
@[simp] theorem Fab.dset_slots (f : Fab) (i j v : Nat) : (f.dset i j v).slots = f.slots := rfl
@[simp] theorem Fab.dset_colls (f : Fab) (i j v : Nat) : (f.dset i j v).colls = f.colls := rfl
@[simp] theorem Fab.dset_nextColl (f : Fab) (i j v : Nat) : (f.dset i j v).nextColl = f.nextColl := rfl
@[simp] theorem Fab.dset_treeSeq (f : Fab) (i j v : Nat) : (f.dset i j v).treeSeq = f.treeSeq := rfl
@[simp] theorem Fab.dset_repeats (f : Fab) (i j v : Nat) : (f.dset i j v).repeats = f.repeats := rfl
@[simp] theorem Fab.dset_nextRepeat (f : Fab) (i j v : Nat) : (f.dset i j v).nextRepeat = f.nextRepeat := rfl
@[simp] theorem Fab.dset_samplers (f : Fab) (i j v : Nat) : (f.dset i j v).samplers = f.samplers := rfl
@[simp] theorem Fab.dset_flows (f : Fab) (i j v : Nat) : (f.dset i j v).flows = f.flows := rfl
@[simp] theorem Fab.dset_qps (f : Fab) (i j v : Nat) : (f.dset i j v).qps = f.qps := rfl
@[simp] theorem Fab.dset_netOut (f : Fab) (i j v : Nat) : (f.dset i j v).netOut = f.netOut := rfl
@[simp] theorem Fab.dset_sas (f : Fab) (i j v : Nat) : (f.dset i j v).sas = f.sas := rfl
@[simp] theorem Fab.dset_badPackets (f : Fab) (i j v : Nat) : (f.dset i j v).badPackets = f.badPackets := rfl
@[simp] theorem Fab.dset_badMessages (f : Fab) (i j v : Nat) : (f.dset i j v).badMessages = f.badMessages := rfl
@[simp] theorem Fab.dset_lateBlocks (f : Fab) (i j v : Nat) : (f.dset i j v).lateBlocks = f.lateBlocks := rfl
@[simp] theorem Fab.dset_laneBad (f : Fab) (i j v : Nat) : (f.dset i j v).laneBad = f.laneBad := rfl
@[simp] theorem Fab.dset_portLanes (f : Fab) (i j v : Nat) : (f.dset i j v).portLanes = f.portLanes := rfl
@[simp] theorem Fab.dset_laserBad (f : Fab) (i j v : Nat) : (f.dset i j v).laserBad = f.laserBad := rfl
@[simp] theorem Fab.dset_linkReplays (f : Fab) (i j v : Nat) : (f.dset i j v).linkReplays = f.linkReplays := rfl
@[simp] theorem Fab.dset_members (f : Fab) (i j v : Nat) : (f.dset i j v).members = f.members := rfl
@[simp] theorem Fab.dset_epochChanges (f : Fab) (i j v : Nat) : (f.dset i j v).epochChanges = f.epochChanges := rfl
@[simp] theorem Fab.dset_epochDue (f : Fab) (i j v : Nat) : (f.dset i j v).epochDue = f.epochDue := rfl
@[simp] theorem Fab.dset_lossQueue (f : Fab) (i j v : Nat) : (f.dset i j v).lossQueue = f.lossQueue := rfl
@[simp] theorem Fab.dset_memberSeq (f : Fab) (i j v : Nat) : (f.dset i j v).memberSeq = f.memberSeq := rfl
@[simp] theorem Fab.dset_memberOut (f : Fab) (i j v : Nat) : (f.dset i j v).memberOut = f.memberOut := rfl
@[simp] theorem Fab.dset_memberOwners (f : Fab) (i j v : Nat) : (f.dset i j v).memberOwners = f.memberOwners := rfl
@[simp] theorem Fab.dset_noivos (f : Fab) (i j v : Nat) : (f.dset i j v).noivos = f.noivos := rfl
@[simp] theorem Fab.dset_sourceSeq (f : Fab) (i j v : Nat) : (f.dset i j v).sourceSeq = f.sourceSeq := rfl
@[simp] theorem Fab.dset_log (f : Fab) (i j v : Nat) : (f.dset i j v).log = f.log := rfl
@[simp] theorem Fab.dset_subscribers (f : Fab) (i j v : Nat) : (f.dset i j v).subscribers = f.subscribers := rfl
@[simp] theorem Fab.dset_tenantPaths (f : Fab) (i j v : Nat) : (f.dset i j v).tenantPaths = f.tenantPaths := rfl
@[simp] theorem Fab.dset_agent (f : Fab) (i j v : Nat) : (f.dset i j v).agent = f.agent := rfl
@[simp] theorem Fab.dset_powerWindow (f : Fab) (i j v : Nat) : (f.dset i j v).powerWindow = f.powerWindow := rfl
@[simp] theorem Fab.dset_budget (f : Fab) (i j v : Nat) : (f.dset i j v).budget = f.budget := rfl
@[simp] theorem Fab.dset_thermalCeiling (f : Fab) (i j v : Nat) : (f.dset i j v).thermalCeiling = f.thermalCeiling := rfl
@[simp] theorem Fab.dset_clamped (f : Fab) (i j v : Nat) : (f.dset i j v).clamped = f.clamped := rfl
@[simp] theorem Fab.dset_sprintHot (f : Fab) (i j v : Nat) : (f.dset i j v).sprintHot = f.sprintHot := rfl
@[simp] theorem Fab.dset_junctionStop (f : Fab) (i j v : Nat) : (f.dset i j v).junctionStop = f.junctionStop := rfl
@[simp] theorem Fab.dset_islands (f : Fab) (i j v : Nat) : (f.dset i j v).islands = f.islands := rfl
@[simp] theorem Fab.dset_pins (f : Fab) (i j v : Nat) : (f.dset i j v).pins = f.pins := rfl
@[simp] theorem Fab.dset_inPins (f : Fab) (i j v : Nat) : (f.dset i j v).inPins = f.inPins := rfl
@[simp] theorem Fab.dset_retirements (f : Fab) (i j v : Nat) : (f.dset i j v).retirements = f.retirements := rfl
@[simp] theorem Fab.dset_chanTimeouts (f : Fab) (i j v : Nat) : (f.dset i j v).chanTimeouts = f.chanTimeouts := rfl
@[simp] theorem Fab.dset_chanTraining (f : Fab) (i j v : Nat) : (f.dset i j v).chanTraining = f.chanTraining := rfl
@[simp] theorem Fab.dset_chanHour (f : Fab) (i j v : Nat) : (f.dset i j v).chanHour = f.chanHour := rfl
@[simp] theorem Fab.dset_clearing (f : Fab) (i j v : Nat) : (f.dset i j v).clearing = f.clearing := rfl
@[simp] theorem Fab.dset_restarts (f : Fab) (i j v : Nat) : (f.dset i j v).restarts = f.restarts := rfl
@[simp] theorem Fab.dset_resetWaits (f : Fab) (i j v : Nat) : (f.dset i j v).resetWaits = f.resetWaits := rfl
@[simp] theorem Fab.dset_ewsOutcome (f : Fab) (i j v : Nat) : (f.dset i j v).ewsOutcome = f.ewsOutcome := rfl
@[simp] theorem Fab.dset_ewsGraced (f : Fab) (i j v : Nat) : (f.dset i j v).ewsGraced = f.ewsGraced := rfl
@[simp] theorem Fab.dset_interrupts (f : Fab) (i j v : Nat) : (f.dset i j v).interrupts = f.interrupts := rfl
@[simp] theorem Fab.onVf_phase (f : Fab) (p : Nat) (g : Vf → Vf) : (f.onVf p g).phase = f.phase := rfl
@[simp] theorem Fab.onVf_cycle (f : Fab) (p : Nat) (g : Vf → Vf) : (f.onVf p g).cycle = f.cycle := rfl
@[simp] theorem Fab.onVf_timeBase (f : Fab) (p : Nat) (g : Vf → Vf) : (f.onVf p g).timeBase = f.timeBase := rfl
@[simp] theorem Fab.onVf_dict (f : Fab) (p : Nat) (g : Vf → Vf) : (f.onVf p g).dict = f.dict := rfl
@[simp] theorem Fab.onVf_tags (f : Fab) (p : Nat) (g : Vf → Vf) : (f.onVf p g).tags = f.tags := rfl
@[simp] theorem Fab.onVf_lineKey (f : Fab) (p : Nat) (g : Vf → Vf) : (f.onVf p g).lineKey = f.lineKey := rfl
@[simp] theorem Fab.onVf_fills (f : Fab) (p : Nat) (g : Vf → Vf) : (f.onVf p g).fills = f.fills := rfl
@[simp] theorem Fab.onVf_badLines (f : Fab) (p : Nat) (g : Vf → Vf) : (f.onVf p g).badLines = f.badLines := rfl
@[simp] theorem Fab.onVf_softLines (f : Fab) (p : Nat) (g : Vf → Vf) : (f.onVf p g).softLines = f.softLines := rfl
@[simp] theorem Fab.onVf_wellFaults (f : Fab) (p : Nat) (g : Vf → Vf) : (f.onVf p g).wellFaults = f.wellFaults := rfl
@[simp] theorem Fab.onVf_clusters (f : Fab) (p : Nat) (g : Vf → Vf) : (f.onVf p g).clusters = f.clusters := rfl
@[simp] theorem Fab.onVf_regionCtr (f : Fab) (p : Nat) (g : Vf → Vf) : (f.onVf p g).regionCtr = f.regionCtr := rfl
@[simp] theorem Fab.onVf_packageCtr (f : Fab) (p : Nat) (g : Vf → Vf) : (f.onVf p g).packageCtr = f.packageCtr := rfl
@[simp] theorem Fab.onVf_txns (f : Fab) (p : Nat) (g : Vf → Vf) : (f.onVf p g).txns = f.txns := rfl
@[simp] theorem Fab.onVf_waiting (f : Fab) (p : Nat) (g : Vf → Vf) : (f.onVf p g).waiting = f.waiting := rfl
@[simp] theorem Fab.onVf_chans (f : Fab) (p : Nat) (g : Vf → Vf) : (f.onVf p g).chans = f.chans := rfl
@[simp] theorem Fab.onVf_nextTxn (f : Fab) (p : Nat) (g : Vf → Vf) : (f.onVf p g).nextTxn = f.nextTxn := rfl
@[simp] theorem Fab.onVf_scopes (f : Fab) (p : Nat) (g : Vf → Vf) : (f.onVf p g).scopes = f.scopes := rfl
@[simp] theorem Fab.onVf_inForce (f : Fab) (p : Nat) (g : Vf → Vf) : (f.onVf p g).inForce = f.inForce := rfl
@[simp] theorem Fab.onVf_routes (f : Fab) (p : Nat) (g : Vf → Vf) : (f.onVf p g).routes = f.routes := rfl
@[simp] theorem Fab.onVf_routeBank (f : Fab) (p : Nat) (g : Vf → Vf) : (f.onVf p g).routeBank = f.routeBank := rfl
@[simp] theorem Fab.onVf_routeDraining (f : Fab) (p : Nat) (g : Vf → Vf) : (f.onVf p g).routeDraining = f.routeDraining := rfl
@[simp] theorem Fab.onVf_oldRoutes (f : Fab) (p : Nat) (g : Vf → Vf) : (f.onVf p g).oldRoutes = f.oldRoutes := rfl
@[simp] theorem Fab.onVf_routeDrainEnds (f : Fab) (p : Nat) (g : Vf → Vf) : (f.onVf p g).routeDrainEnds = f.routeDrainEnds := rfl
@[simp] theorem Fab.onVf_launches (f : Fab) (p : Nat) (g : Vf → Vf) : (f.onVf p g).launches = f.launches := rfl
@[simp] theorem Fab.onVf_nextLaunch (f : Fab) (p : Nat) (g : Vf → Vf) : (f.onVf p g).nextLaunch = f.nextLaunch := rfl
@[simp] theorem Fab.onVf_mailboxes (f : Fab) (p : Nat) (g : Vf → Vf) : (f.onVf p g).mailboxes = f.mailboxes := rfl
@[simp] theorem Fab.onVf_batches (f : Fab) (p : Nat) (g : Vf → Vf) : (f.onVf p g).batches = f.batches := rfl
@[simp] theorem Fab.onVf_versionTop (f : Fab) (p : Nat) (g : Vf → Vf) : (f.onVf p g).versionTop = f.versionTop := rfl
@[simp] theorem Fab.onVf_versions (f : Fab) (p : Nat) (g : Vf → Vf) : (f.onVf p g).versions = f.versions := rfl
@[simp] theorem Fab.onVf_ductus (f : Fab) (p : Nat) (g : Vf → Vf) : (f.onVf p g).ductus = f.ductus := rfl
@[simp] theorem Fab.onVf_steps (f : Fab) (p : Nat) (g : Vf → Vf) : (f.onVf p g).steps = f.steps := rfl
@[simp] theorem Fab.onVf_slots (f : Fab) (p : Nat) (g : Vf → Vf) : (f.onVf p g).slots = f.slots := rfl
@[simp] theorem Fab.onVf_colls (f : Fab) (p : Nat) (g : Vf → Vf) : (f.onVf p g).colls = f.colls := rfl
@[simp] theorem Fab.onVf_nextColl (f : Fab) (p : Nat) (g : Vf → Vf) : (f.onVf p g).nextColl = f.nextColl := rfl
@[simp] theorem Fab.onVf_treeSeq (f : Fab) (p : Nat) (g : Vf → Vf) : (f.onVf p g).treeSeq = f.treeSeq := rfl
@[simp] theorem Fab.onVf_repeats (f : Fab) (p : Nat) (g : Vf → Vf) : (f.onVf p g).repeats = f.repeats := rfl
@[simp] theorem Fab.onVf_nextRepeat (f : Fab) (p : Nat) (g : Vf → Vf) : (f.onVf p g).nextRepeat = f.nextRepeat := rfl
@[simp] theorem Fab.onVf_samplers (f : Fab) (p : Nat) (g : Vf → Vf) : (f.onVf p g).samplers = f.samplers := rfl
@[simp] theorem Fab.onVf_flows (f : Fab) (p : Nat) (g : Vf → Vf) : (f.onVf p g).flows = f.flows := rfl
@[simp] theorem Fab.onVf_qps (f : Fab) (p : Nat) (g : Vf → Vf) : (f.onVf p g).qps = f.qps := rfl
@[simp] theorem Fab.onVf_netOut (f : Fab) (p : Nat) (g : Vf → Vf) : (f.onVf p g).netOut = f.netOut := rfl
@[simp] theorem Fab.onVf_sas (f : Fab) (p : Nat) (g : Vf → Vf) : (f.onVf p g).sas = f.sas := rfl
@[simp] theorem Fab.onVf_badPackets (f : Fab) (p : Nat) (g : Vf → Vf) : (f.onVf p g).badPackets = f.badPackets := rfl
@[simp] theorem Fab.onVf_badMessages (f : Fab) (p : Nat) (g : Vf → Vf) : (f.onVf p g).badMessages = f.badMessages := rfl
@[simp] theorem Fab.onVf_lateBlocks (f : Fab) (p : Nat) (g : Vf → Vf) : (f.onVf p g).lateBlocks = f.lateBlocks := rfl
@[simp] theorem Fab.onVf_laneBad (f : Fab) (p : Nat) (g : Vf → Vf) : (f.onVf p g).laneBad = f.laneBad := rfl
@[simp] theorem Fab.onVf_portLanes (f : Fab) (p : Nat) (g : Vf → Vf) : (f.onVf p g).portLanes = f.portLanes := rfl
@[simp] theorem Fab.onVf_laserBad (f : Fab) (p : Nat) (g : Vf → Vf) : (f.onVf p g).laserBad = f.laserBad := rfl
@[simp] theorem Fab.onVf_linkReplays (f : Fab) (p : Nat) (g : Vf → Vf) : (f.onVf p g).linkReplays = f.linkReplays := rfl
@[simp] theorem Fab.onVf_members (f : Fab) (p : Nat) (g : Vf → Vf) : (f.onVf p g).members = f.members := rfl
@[simp] theorem Fab.onVf_epochChanges (f : Fab) (p : Nat) (g : Vf → Vf) : (f.onVf p g).epochChanges = f.epochChanges := rfl
@[simp] theorem Fab.onVf_epochDue (f : Fab) (p : Nat) (g : Vf → Vf) : (f.onVf p g).epochDue = f.epochDue := rfl
@[simp] theorem Fab.onVf_lossQueue (f : Fab) (p : Nat) (g : Vf → Vf) : (f.onVf p g).lossQueue = f.lossQueue := rfl
@[simp] theorem Fab.onVf_memberSeq (f : Fab) (p : Nat) (g : Vf → Vf) : (f.onVf p g).memberSeq = f.memberSeq := rfl
@[simp] theorem Fab.onVf_memberOut (f : Fab) (p : Nat) (g : Vf → Vf) : (f.onVf p g).memberOut = f.memberOut := rfl
@[simp] theorem Fab.onVf_memberOwners (f : Fab) (p : Nat) (g : Vf → Vf) : (f.onVf p g).memberOwners = f.memberOwners := rfl
@[simp] theorem Fab.onVf_noivos (f : Fab) (p : Nat) (g : Vf → Vf) : (f.onVf p g).noivos = f.noivos := rfl
@[simp] theorem Fab.onVf_sourceSeq (f : Fab) (p : Nat) (g : Vf → Vf) : (f.onVf p g).sourceSeq = f.sourceSeq := rfl
@[simp] theorem Fab.onVf_log (f : Fab) (p : Nat) (g : Vf → Vf) : (f.onVf p g).log = f.log := rfl
@[simp] theorem Fab.onVf_subscribers (f : Fab) (p : Nat) (g : Vf → Vf) : (f.onVf p g).subscribers = f.subscribers := rfl
@[simp] theorem Fab.onVf_tenantPaths (f : Fab) (p : Nat) (g : Vf → Vf) : (f.onVf p g).tenantPaths = f.tenantPaths := rfl
@[simp] theorem Fab.onVf_agent (f : Fab) (p : Nat) (g : Vf → Vf) : (f.onVf p g).agent = f.agent := rfl
@[simp] theorem Fab.onVf_powerWindow (f : Fab) (p : Nat) (g : Vf → Vf) : (f.onVf p g).powerWindow = f.powerWindow := rfl
@[simp] theorem Fab.onVf_budget (f : Fab) (p : Nat) (g : Vf → Vf) : (f.onVf p g).budget = f.budget := rfl
@[simp] theorem Fab.onVf_thermalCeiling (f : Fab) (p : Nat) (g : Vf → Vf) : (f.onVf p g).thermalCeiling = f.thermalCeiling := rfl
@[simp] theorem Fab.onVf_clamped (f : Fab) (p : Nat) (g : Vf → Vf) : (f.onVf p g).clamped = f.clamped := rfl
@[simp] theorem Fab.onVf_sprintHot (f : Fab) (p : Nat) (g : Vf → Vf) : (f.onVf p g).sprintHot = f.sprintHot := rfl
@[simp] theorem Fab.onVf_junctionStop (f : Fab) (p : Nat) (g : Vf → Vf) : (f.onVf p g).junctionStop = f.junctionStop := rfl
@[simp] theorem Fab.onVf_islands (f : Fab) (p : Nat) (g : Vf → Vf) : (f.onVf p g).islands = f.islands := rfl
@[simp] theorem Fab.onVf_pins (f : Fab) (p : Nat) (g : Vf → Vf) : (f.onVf p g).pins = f.pins := rfl
@[simp] theorem Fab.onVf_inPins (f : Fab) (p : Nat) (g : Vf → Vf) : (f.onVf p g).inPins = f.inPins := rfl
@[simp] theorem Fab.onVf_retirements (f : Fab) (p : Nat) (g : Vf → Vf) : (f.onVf p g).retirements = f.retirements := rfl
@[simp] theorem Fab.onVf_chanTimeouts (f : Fab) (p : Nat) (g : Vf → Vf) : (f.onVf p g).chanTimeouts = f.chanTimeouts := rfl
@[simp] theorem Fab.onVf_chanTraining (f : Fab) (p : Nat) (g : Vf → Vf) : (f.onVf p g).chanTraining = f.chanTraining := rfl
@[simp] theorem Fab.onVf_chanHour (f : Fab) (p : Nat) (g : Vf → Vf) : (f.onVf p g).chanHour = f.chanHour := rfl
@[simp] theorem Fab.onVf_clearing (f : Fab) (p : Nat) (g : Vf → Vf) : (f.onVf p g).clearing = f.clearing := rfl
@[simp] theorem Fab.onVf_restarts (f : Fab) (p : Nat) (g : Vf → Vf) : (f.onVf p g).restarts = f.restarts := rfl
@[simp] theorem Fab.onVf_resetWaits (f : Fab) (p : Nat) (g : Vf → Vf) : (f.onVf p g).resetWaits = f.resetWaits := rfl
@[simp] theorem Fab.onVf_ewsOutcome (f : Fab) (p : Nat) (g : Vf → Vf) : (f.onVf p g).ewsOutcome = f.ewsOutcome := rfl
@[simp] theorem Fab.onVf_ewsGraced (f : Fab) (p : Nat) (g : Vf → Vf) : (f.onVf p g).ewsGraced = f.ewsGraced := rfl
@[simp] theorem Fab.onVf_interrupts (f : Fab) (p : Nat) (g : Vf → Vf) : (f.onVf p g).interrupts = f.interrupts := rfl

/-- A cluster after a change of one. -/
theorem Fab.cluster_onCluster (f : Fab) (c j : Nat) (g : Cluster → Cluster) :
    (f.onCluster c g).cluster j = if j = c then g (f.cluster c) else f.cluster j := by
  simp [Fab.cluster, Fab.onCluster, Tbl.get_set]

/-- The cluster that was changed. -/
@[simp] theorem Fab.cluster_onCluster_same (f : Fab) (c : Nat) (g : Cluster → Cluster) :
    (f.onCluster c g).cluster c = g (f.cluster c) := by simp [Fab.cluster_onCluster]

/-- A strand of the device after a change of one. -/
theorem Fab.strand_onStrand (f : Fab) (c k c' k' : Nat) (g : Strand → Strand) :
    (f.onStrand c k g).strand c' k' = if c' = c ∧ k' = k then g (f.strand c k) else f.strand c' k' := by
  by_cases hc : c' = c
  · subst hc; by_cases hk : k' = k <;> simp [Fab.strand, Fab.onStrand, Cluster.strand_onStrand, hk]
  · simp [Fab.strand, Fab.onStrand, Fab.cluster_onCluster, hc]

/-- A virtual function after a change of one. -/
theorem Fab.vf_onVf (f : Fab) (p j : Nat) (g : Vf → Vf) : (f.onVf p g).vf j = if j = p then g (f.vf p) else f.vf j := by
  simp [Fab.vf, Fab.onVf, Tbl.get_set]

/-- A dictionary entry after a write of one. -/
theorem Fab.dget_dset (f : Fab) (i j v a b : Nat) :
    (f.dset i j v).dget a b = if dictKey a b = dictKey i j then v else f.dget a b := by
  by_cases h : dictKey a b = dictKey i j
  · simp [Fab.dget, Fab.dset, h]
  · simp [Fab.dget, Fab.dset, h, Tbl.find?_set_ne _ _ h]

end Sys2Proof.Machine
end

