-- ==== Sys2Proof/Laws/Issue.lean ====
section
/-! SUPPORT. What the issue of a Scribe instruction can do, once for all instructions: it executes, it is annulled, it is
ILLEGAL; and what a change of one strand leaves. -/

namespace Sys2Proof.Machine

open Sys2Proof Sys2Proof.Safety

variable {s t : State} {x : Issue} {op : Nat}

/-- What `presents` says. -/
theorem presents_iff : presents s x op = true ↔ s.fab.phase = .running ∧ (s.fab.chosen x.cluster x.strand).isSome = true ∧
    (s.fab.cluster x.cluster).imem[(strandOf s x).pc.toNat]? = some x.word ∧ opcodeOf x.word = op := by
  simp [presents, and_assoc]

/-- What `executes` says. -/
theorem executes_iff : executes s x op = true ↔ presents s x op = true ∧ s.fab.illegal x.cluster x.strand x.word = false ∧
    predicate x.word (strandOf s x) = true ∧ s.fab.precise x.cluster x.strand x.word = none := by
  simp [executes, attempts, and_assoc]

/-- A strand whose turn it is has a verdict, and issues no earlier than now. -/
theorem Fab.chosen_spec {f : Fab} {c k t : Nat} (h : f.chosen c k = some t) : f.verdict c k ≠ .skip ∧ f.cycle ≤ t := by
  unfold Fab.chosen at h
  split at h
  · split at h
    · next u hu =>
      split at h
      · cases h
        unfold Fab.readyTime at hu
        dsimp only at hu
        split at hu
        · split at hu
          · cases hu
          · next hv => cases hu; exact ⟨by rw [hv]; simp, by split <;> omega⟩
          · next hv => split at hu <;> cases hu; exact ⟨by rw [hv]; simp, by omega⟩
          · next hv => split at hu <;> cases hu; exact ⟨by rw [hv]; simp, by split <;> omega⟩
        · cases hu
      · cases h
    · cases h
  · cases h

/-- The clock of an issue is not behind. -/
theorem Fab.cycle_issued (f : Fab) (x : Issue) : f.cycle ≤ (f.issued x).cycle := by
  unfold Fab.issued
  dsimp only
  cases h : f.chosen x.cluster x.strand with
  | none => exact Nat.le_refl _
  | some t => exact (Fab.chosen_spec h).2

/-- A presented instruction does what the verdict on its word says. -/
theorem goes_of_presents (h : presents s x op = true) :
    s.fab.goes x op = s.fab.verdict x.cluster x.strand ∧ s.fab.goes x op ≠ .skip ∧ s.fab.verdict x.cluster x.strand =
      if s.fab.illegal x.cluster x.strand x.word then .fault (illegalExc (strandOf s x).pc x.word)
      else if !predicate x.word (strandOf s x) then .nop
      else if (touches x.word).any (strandOf s x).busy.contains then .skip
      else if s.fab.unitBusy x.cluster x.strand x.word then .skip
      else match s.fab.precise x.cluster x.strand x.word with
        | some e => .fault e
        | none => if s.fab.holdsBack x.cluster x.strand x.word then .skip else .run := by
  obtain ⟨-, hc, hw, ho⟩ := presents_iff.1 h
  obtain ⟨u, hu⟩ := Option.isSome_iff_exists.1 hc
  have hp : s.fab.presented x op = true := by
    unfold Fab.presented; simp only [strandOf] at hw; rw [hw]; simp [ho]
  have hg : s.fab.goes x op = s.fab.verdict x.cluster x.strand := by simp [Fab.goes, hc, hp]
  refine ⟨hg, by rw [hg]; exact (Fab.chosen_spec hu).1, ?_⟩
  simp only [strandOf, Fab.strand] at hw ⊢
  simp only [Fab.verdict, hw]
  cases s.fab.precise x.cluster x.strand x.word <;> rfl

/-- An instruction that executes. -/
theorem goes_of_executes (h : executes s x op = true) : s.fab.goes x op = .run := by
  obtain ⟨hp, hi, hpr, he⟩ := executes_iff.1 h
  obtain ⟨hg, hs, hv⟩ := goes_of_presents hp
  rw [hg] at hs ⊢
  rw [hv] at hs ⊢
  simp only [hi, hpr, he] at hs ⊢
  revert hs
  cases (touches x.word).any (strandOf s x).busy.contains <;> cases s.fab.unitBusy x.cluster x.strand x.word <;>
    cases s.fab.holdsBack x.cluster x.strand x.word <;> simp

/-- An instruction whose predicate is false. -/
theorem goes_of_annulled (h : annulled s x op = true) : s.fab.goes x op = .nop := by
  simp only [annulled, Bool.and_eq_true, Bool.not_eq_true'] at h
  obtain ⟨⟨hp, hi⟩, hpr⟩ := h
  obtain ⟨hg, -, hv⟩ := goes_of_presents hp
  rw [hg, hv, hi, hpr]; rfl

/-- An instruction that raises a precise exception. -/
theorem goes_of_raises {e : Exc} (h : attempts s x op = true) (he : s.fab.precise x.cluster x.strand x.word = some e) :
    s.fab.goes x op = .fault e := by
  simp only [attempts, Bool.and_eq_true, Bool.not_eq_true'] at h
  obtain ⟨⟨hp, hi⟩, hpr⟩ := h
  obtain ⟨hg, hs, hv⟩ := goes_of_presents hp
  rw [hg] at hs ⊢
  rw [hv] at hs ⊢
  simp only [hi, hpr, he] at hs ⊢
  revert hs
  cases (touches x.word).any (strandOf s x).busy.contains <;> cases s.fab.unitBusy x.cluster x.strand x.word <;> simp

/-- An instruction whose encoding is reserved. -/
theorem goes_of_illegal (h : presents s x op = true)
    (hi : s.fab.illegal x.cluster x.strand x.word = true) :
    s.fab.goes x op = .fault (illegalExc (strandOf s x).pc x.word) := by
  obtain ⟨hg, -, hv⟩ := goes_of_presents h
  rw [hg, hv, hi]; rfl

/-- An instruction that executes has the effect of its body. -/
theorem issue_of_executes (body : Fab → Fab) (h : executes s x op = true) :
    s.fab.issue x op body = body (s.fab.issued x) := by
  simp [Fab.issue, goes_of_executes h]

theorem issueScalar_of_executes (g : Strand → Strand) (h : executes s x op = true) :
    s.fab.issueScalar x op g = (s.fab.issued x).onStrand x.cluster x.strand (fun t => (g t).advance) := by
  simp [Fab.issueScalar, issue_of_executes _ h]

theorem running_of_executes (h : executes s x op = true) : s.fab.phase = .running :=
  (presents_iff.1 (executes_iff.1 h).1).1

/-- A cluster after the issue note. -/
theorem Fab.cluster_issued (f : Fab) (x : Issue) (d : Nat) :
    (f.issued x).cluster d = if d = x.cluster then
      { f.cluster d with lastIssued := x.strand, issueFrom := (f.issued x).cycle + 1 } else f.cluster d := by
  change (f.onCluster x.cluster (fun cl =>
    { cl with lastIssued := x.strand, issueFrom := (f.issued x).cycle + 1 })).cluster d = _
  rw [Fab.cluster_onCluster]
  by_cases h : d = x.cluster
  · subst h; rfl
  · rw [if_neg h, if_neg h]

/-- The issue note leaves every strand. -/
@[simp] theorem Fab.strand_issued (f : Fab) (x : Issue) (c k : Nat) : (f.issued x).strand c k = f.strand c k := by
  rw [Fab.strand, Fab.cluster_issued]; split <;> rfl

/-- A device equal to another but for its clusters. -/
theorem Fab.onCluster_rest (f : Fab) (c : Nat) (g : Cluster → Cluster) :
    { f.onCluster c g with clusters := [] } = { f with clusters := [] } := rfl

/-- A change of a strand leaves the clock. -/
theorem Fab.cycle_onStrand (f : Fab) (c k : Nat) (g : Strand → Strand) : (f.onStrand c k g).cycle = f.cycle := rfl

/-- The issue note and a change of the strand that issued change nothing else. -/
theorem strandOnly_issued (s : State) (x : Issue) (g : Strand → Strand) :
    StrandOnly s { s with fab := (s.fab.issued x).onStrand x.cluster x.strand g } x.cluster x.strand where
  mem := rfl
  sec := rfl
  pending := rfl
  strands := by intro j hj; simp [Fab.strand_onStrand, hj]
  cluster := by simp [Fab.onStrand, Fab.cluster_issued, Cluster.onStrand]
  clusters := by intro d hd; simp [Fab.onStrand, Fab.cluster_onCluster, Fab.cluster_issued, hd]
  fab := rfl
  clock := Fab.cycle_issued s.fab x

/-- The strand that issued, after its change. -/
theorem strandOf_issued (s : State) (x : Issue) (g : Strand → Strand) :
    strandOf { s with fab := (s.fab.issued x).onStrand x.cluster x.strand g } x = g (strandOf s x) := by
  simp [strandOf, Fab.strand_onStrand]

/-- An s register written and the pc moved on. -/
theorem wroteS_setS (t : Strand) (r : Nat) (v : Word) : WroteS t (t.setS r v).advance r v where
  reg := by intro j; simp [Strand.sreg, Strand.advance, Strand.setS, Tbl.get_set]
  pc := rfl
  rest := rfl

theorem wroteA_setA (t : Strand) (r : Nat) (v : Word) : WroteA t (t.setA r v).advance r v where
  reg := by intro j; simp [Strand.areg, Strand.advance, Strand.setA, Tbl.get_set]
  pc := rfl
  rest := rfl

theorem wroteT_setT (t : Strand) (r : Nat) (v : Word) : WroteT t (t.setT r v).advance r v where
  reg := by intro j; simp [Strand.treg, Strand.advance, Strand.setT, Tbl.get_set]
  pc := rfl
  rest := rfl

theorem wroteP_setP (t : Strand) (r : Nat) (v : Bool) : WroteP t (t.setP r v).advance r v where
  reg := by intro j; exact Strand.preg_setP t r j v
  pc := by simp [Strand.advance]
  rest := by unfold Strand.setP; split <;> rfl

end Sys2Proof.Machine
end

