-- ==== Sys2Proof/Laws/Ops.lean ====
section
/-! SUPPORT. What each shared operation can do, said once: bytes put into the work, bits of a number, counts of the dictionary,
events, completions and exceptions; what each leaves of the device. -/

namespace Sys2Proof.Machine

open Sys2Proof

/-! ### Bytes -/

@[simp] theorem W.put_fab (w : W) (a : Nat) (v : Byte) : (w.put a v).fab = w.fab := rfl
@[simp] theorem W.put_sec (w : W) (a : Nat) (v : Byte) : (w.put a v).sec = w.sec := rfl
@[simp] theorem W.put_mem (w : W) (a : Nat) (v : Byte) : (w.put a v).mem = w.mem := rfl
@[simp] theorem W.map_out (w : W) (g : Fab → Fab) : (w.map g).out = w.out := rfl
@[simp] theorem W.map_sec (w : W) (g : Fab → Fab) : (w.map g).sec = w.sec := rfl
@[simp] theorem W.map_mem (w : W) (g : Fab → Fab) : (w.map g).mem = w.mem := rfl
@[simp] theorem W.map_fab (w : W) (g : Fab → Fab) : (w.map g).fab = g w.fab := rfl
@[simp] theorem W.byte_map (w : W) (g : Fab → Fab) (a : Nat) : (w.map g).byte a = w.byte a := rfl

/-- A byte after a byte was put. -/
theorem W.byte_put (w : W) (a b : Nat) (v : Byte) : (w.put a v).byte b = if b = a then v else w.byte b := by
  by_cases h : b = a
  · subst h; simp [W.byte, W.put, MemOp.read]
  · simp [W.byte, W.put, MemOp.read, h, Ne.symm h]

@[simp] theorem W.puts_fab (w : W) (a : Nat) (l : List Byte) : (w.puts a l).fab = w.fab := by
  induction l generalizing w a with
  | nil => rfl
  | cons b r ih => simp [W.puts, ih]

@[simp] theorem W.puts_sec (w : W) (a : Nat) (l : List Byte) : (w.puts a l).sec = w.sec := by
  induction l generalizing w a with
  | nil => rfl
  | cons b r ih => simp [W.puts, ih]

@[simp] theorem W.puts_mem (w : W) (a : Nat) (l : List Byte) : (w.puts a l).mem = w.mem := by
  induction l generalizing w a with
  | nil => rfl
  | cons b r ih => simp [W.puts, ih]

/-- A byte after bytes were put: those of the range as given, every other as before. -/
theorem W.byte_puts (w : W) (a b : Nat) (l : List Byte) :
    (w.puts a l).byte b = if a ≤ b ∧ b < a + l.length then l.getD (b - a) 0 else w.byte b := by
  induction l generalizing w a with
  | nil => simp [W.puts]
  | cons v r ih =>
    rw [W.puts, ih, W.byte_put]
    by_cases h0 : b = a
    · subst h0; simp
    · by_cases h1 : a + 1 ≤ b ∧ b < a + 1 + r.length
      · obtain ⟨k, rfl⟩ : ∃ k, b = a + 1 + k := ⟨b - (a + 1), by omega⟩
        have h2 : a ≤ a + 1 + k ∧ a + 1 + k < a + (v :: r).length := by simp; omega
        have e1 : a + 1 + k - (a + 1) = k := by omega
        have e2 : a + 1 + k - a = k + 1 := by omega
        rw [if_pos h1, if_pos h2, e1, e2]; rfl
      · have h2 : ¬ (a ≤ b ∧ b < a + (v :: r).length) := by simp; omega
        rw [if_neg h1, if_neg h2, if_neg h0]

/-- The memory a step leaves reads as its work says. -/
theorem W.read_applied (w : W) (a : Nat) : Memory.read (MemOp.applyAll w.mem w.out) a = w.byte a :=
  MemOp.read_applyAll w.mem w.out a

/-! ### Bits -/

/-- A bit of a number is the bit that `Nat.testBit` reads. -/
theorem bit_eq_testBit (v i : Nat) : bit v i = v.testBit i := by
  simp [bit, Nat.testBit_eq_decide_div_mod_eq]

/-- A number whose low bit i is clear, and the same with it set: every other bit is the same. -/
theorem testBit_split (q r i j : Nat) (h : r < 2 ^ i) :
    (2 ^ (i + 1) * q + (2 ^ i + r)).testBit j = if j = i then true else (2 ^ (i + 1) * q + r).testBit j := by
  have h1 : r < 2 ^ (i + 1) := by rw [Nat.pow_succ]; omega
  have h2 : 2 ^ i + r < 2 ^ (i + 1) := by rw [Nat.pow_succ]; omega
  rw [Nat.testBit_two_pow_mul_add q h2 j, Nat.testBit_two_pow_mul_add q h1 j]
  by_cases hj : j = i
  · subst hj; simp [Nat.testBit_two_pow_add_eq, Nat.testBit_lt_two_pow h]
  · by_cases hlt : j < i
    · simp [hj, Nat.lt_succ_of_lt hlt, Nat.testBit_two_pow_add_gt hlt]
    · simp [hj, show ¬ j < i + 1 by omega]

/-- A bit after one was set or cleared: that one as given, every other as before. -/
theorem bit_setBit (v i j : Nat) (b : Bool) : bit (setBit v i b) j = if j = i then b else bit v j := by
  unfold setBit
  by_cases hv : bit v i = b
  · by_cases hj : j = i <;> simp [hv, hj]
  · have hd : 0 < 2 ^ i := Nat.two_pow_pos i
    have hr : v % 2 ^ i < 2 ^ i := Nat.mod_lt _ hd
    have e1 := Nat.div_add_mod v (2 ^ i)
    have e2 := Nat.div_add_mod (v / 2 ^ i) 2
    rw [if_neg hv]
    cases b with
    | true =>
      have h0 : v / 2 ^ i % 2 = 0 := by simp only [bit, decide_eq_true_eq] at hv; omega
      have e : v = 2 ^ (i + 1) * (v / 2 ^ i / 2) + v % 2 ^ i := by
        rw [Nat.pow_succ, Nat.mul_assoc, show 2 * (v / 2 ^ i / 2) = v / 2 ^ i by omega]; omega
      have e' : v + 2 ^ i = 2 ^ (i + 1) * (v / 2 ^ i / 2) + (2 ^ i + v % 2 ^ i) := by omega
      rw [if_pos rfl, e', bit_eq_testBit, testBit_split _ _ _ _ hr, ← e, ← bit_eq_testBit]
    | false =>
      have h1 : v / 2 ^ i % 2 = 1 := by simp only [bit, decide_eq_false_iff_not] at hv; omega
      have e : v = 2 ^ (i + 1) * (v / 2 ^ i / 2) + (2 ^ i + v % 2 ^ i) := by
        have : 2 ^ i * (v / 2 ^ i) = 2 ^ (i + 1) * (v / 2 ^ i / 2) + 2 ^ i := by
          conv_lhs => rw [show v / 2 ^ i = 2 * (v / 2 ^ i / 2) + 1 by omega]
          rw [Nat.pow_succ, Nat.mul_add, Nat.mul_one, Nat.mul_assoc]
        omega
      have e' : v - 2 ^ i = 2 ^ (i + 1) * (v / 2 ^ i / 2) + v % 2 ^ i := by omega
      have hs := testBit_split (v / 2 ^ i / 2) (v % 2 ^ i) i j hr
      rw [← e, ← e'] at hs
      rw [if_neg (by simp), bit_eq_testBit, bit_eq_testBit]
      by_cases hj : j = i
      · subst hj
        rw [if_pos rfl, e', Nat.testBit_two_pow_mul_add _ (by rw [Nat.pow_succ]; omega)]
        simp [Nat.testBit_lt_two_pow hr]
      · rw [if_neg hj] at hs ⊢; exact hs.symm

/-! ### Counts of the dictionary -/

/-- An entry after a count was added to: that one is the sum, saturated at its width, every other as before. -/
theorem Fab.dget_dadd (f : Fab) (i j n a b : Nat) :
    (f.dadd i j n).dget a b = if dictKey a b = dictKey i j then
      min (f.dget i j + n) (2 ^ (8 * (((Dict.row i j).map (fun d => d.ty.width)).getD 4)) - 1) else f.dget a b := by
  rw [Fab.dadd, Fab.dget_dset]

/-- An addition to a count changes the dictionary only. -/
theorem Fab.dadd_rest (f : Fab) (i j n : Nat) : { f.dadd i j n with dict := [] } = { f with dict := [] } := rfl

/-- Keys of entries of different indexes differ. -/
theorem dictKey_ne {i j a b : Nat} (hi : i ≠ a) (hj : j < 256) (hb : b < 256) : dictKey i j ≠ dictKey a b := by
  unfold dictKey; omega

/-- Keys of entries of one index and different subindexes differ. -/
theorem dictKey_ne_sub {i j b : Nat} (h : j ≠ b) : dictKey i j ≠ dictKey i b := by
  unfold dictKey; omega

/-! ### Events -/

/-- What an event may change: the event paths, what goes out, mailbox 1 and its interrupt, the drop counts. -/
def Fab.hush (f : Fab) : Fab :=
  { f with log := .empty, subscribers := [], netOut := [], tenantPaths := [], dict := [], mailboxes := [], interrupts := [], sourceSeq := [] }

theorem Fab.countDrops_dget (f : Fab) (d : Nat × Nat × Nat) (i j : Nat) (h : i ≠ 0x9030) (hj : j < 256) :
    (f.countDrops d).dget i j = f.dget i j := by
  have h1 := dictKey_ne h hj (show 1 < 256 by omega)
  have h2 := dictKey_ne h hj (show 2 < 256 by omega)
  have h3 := dictKey_ne h hj (show 3 < 256 by omega)
  unfold Fab.countDrops
  dsimp only
  split <;> split <;> split <;> simp [Fab.dget_dadd, h1, h2, h3]

theorem Fab.countDrops_hush (f : Fab) (d : Nat × Nat × Nat) : (f.countDrops d).hush = f.hush := by
  unfold Fab.countDrops; dsimp only; split <;> split <;> split <;> rfl

theorem Fab.countDrops_log (f : Fab) (d : Nat × Nat × Nat) : (f.countDrops d).log = f.log := by
  unfold Fab.countDrops; dsimp only; split <;> split <;> split <;> rfl

theorem Fab.interrupt_hush (f : Fab) (who : Party) (p v : Nat) : (f.interrupt who p v).hush = f.hush := by
  cases who <;> rfl

theorem Fab.land_hush (f : Fab) (p m : Nat) : (f.land p m).hush = f.hush := by
  unfold Fab.land; dsimp only; split
  · rw [Fab.interrupt_hush]; rfl
  · rfl

theorem Fab.send_hush (f : Fab) (who : Party) (p m : Nat) (msg : BitVec 512) : (f.send who p m msg).hush = f.hush := by
  unfold Fab.send; dsimp only; split
  · rfl
  · rw [Fab.land_hush]; rfl

theorem Fab.interrupt_keeps (f : Fab) (who : Party) (p v : Nat) :
    (f.interrupt who p v).dict = f.dict ∧ (f.interrupt who p v).log = f.log ∧ (f.interrupt who p v).netOut = f.netOut := by
  cases who <;> exact ⟨rfl, rfl, rfl⟩

theorem Fab.land_keeps (f : Fab) (p m : Nat) :
    (f.land p m).dict = f.dict ∧ (f.land p m).log = f.log ∧ (f.land p m).netOut = f.netOut := by
  unfold Fab.land; dsimp only; split
  · exact Fab.interrupt_keeps _ _ _ _
  · exact ⟨rfl, rfl, rfl⟩

theorem Fab.send_keeps (f : Fab) (who : Party) (p m : Nat) (msg : BitVec 512) :
    (f.send who p m msg).dict = f.dict ∧ (f.send who p m msg).log = f.log ∧ (f.send who p m msg).netOut = f.netOut := by
  unfold Fab.send; dsimp only; split
  · exact ⟨rfl, rfl, rfl⟩
  · exact Fab.land_keeps _ _ _

theorem Fab.notifyTenant_keeps (f : Fab) (p : Nat) :
    (f.notifyTenant p).dict = f.dict ∧ (f.notifyTenant p).log = f.log ∧ (f.notifyTenant p).netOut = f.netOut ∧
    (f.notifyTenant p).hush = f.hush := by
  unfold Fab.notifyTenant; dsimp only; split
  · split
    · obtain ⟨h1, h2, h3⟩ := Fab.send_keeps { f with tenantPaths := f.tenantPaths.set p _ } .firmware p 1 _
      exact ⟨h1, h2, h3, Fab.send_hush _ _ _ _ _⟩
    · exact ⟨rfl, rfl, rfl, rfl⟩
  · exact ⟨rfl, rfl, rfl, rfl⟩

/-- A record delivered to a tenant path leaves every entry but the drop counts, the log and what goes out. -/
theorem Fab.toTenant_keeps (f : Fab) (r : EventRec) :
    (f.toTenant r).log = f.log ∧ (f.toTenant r).hush = f.hush ∧
    ∀ i j, i ≠ 0x9030 → j < 256 → (f.toTenant r).dget i j = f.dget i j := by
  unfold Fab.toTenant
  split
  · split
    · dsimp only
      obtain ⟨h1, h2, -, h4⟩ := Fab.notifyTenant_keeps (Fab.countDrops { f with tenantPaths := f.tenantPaths.set _ _ } _) _
      refine ⟨h2.trans (Fab.countDrops_log _ _), h4.trans (Fab.countDrops_hush _ _), fun i j hi hj => ?_⟩
      exact (congrArg (fun d => (d.find? (dictKey i j)).getD (Dict.default i j)) h1).trans (Fab.countDrops_dget _ _ i j hi hj)
    · exact ⟨rfl, rfl, fun _ _ _ _ => rfl⟩
  · exact ⟨rfl, rfl, fun _ _ _ _ => rfl⟩

/-- A record delivered to a subscriber's queue leaves every entry but the drop counts, and the log. -/
theorem Fab.toSubscriber_keeps (f : Fab) (r : EventRec) (k : Nat) :
    (f.toSubscriber r k).log = f.log ∧ (f.toSubscriber r k).hush = f.hush ∧
    ∀ i j, i ≠ 0x9030 → j < 256 → (f.toSubscriber r k).dget i j = f.dget i j := by
  unfold Fab.toSubscriber; dsimp only; split
  · exact ⟨Fab.countDrops_log _ _, Fab.countDrops_hush _ _, fun i j hi hj => Fab.countDrops_dget _ _ i j hi hj⟩
  · exact ⟨rfl, rfl, fun _ _ _ _ => rfl⟩

theorem Fab.toSubscribers_keeps (l : List Nat) (f : Fab) (r : EventRec) :
    (l.foldl (fun g k => g.toSubscriber r k) f).log = f.log ∧ (l.foldl (fun g k => g.toSubscriber r k) f).hush = f.hush ∧
    ∀ i j, i ≠ 0x9030 → j < 256 → (l.foldl (fun g k => g.toSubscriber r k) f).dget i j = f.dget i j := by
  induction l generalizing f with
  | nil => exact ⟨rfl, rfl, fun _ _ _ _ => rfl⟩
  | cons k l ih =>
    obtain ⟨h1, h2, h3⟩ := ih (f.toSubscriber r k)
    obtain ⟨g1, g2, g3⟩ := Fab.toSubscriber_keeps f r k
    exact ⟨h1.trans g1, h2.trans g2, fun i j hi hj => (h3 i j hi hj).trans (g3 i j hi hj)⟩

theorem Fab.toLog_keeps (f : Fab) (r : EventRec) :
    (f.toLog r).hush = f.hush ∧ ∀ i j, i ≠ 0x9030 → j < 256 → (f.toLog r).dget i j = f.dget i j := by
  unfold Fab.toLog; split
  · refine ⟨Fab.countDrops_hush _ _, fun i j hi hj => ?_⟩
    rw [Fab.countDrops_dget _ _ i j hi hj]; rfl
  · exact ⟨rfl, fun _ _ _ _ => rfl⟩

/-- A record stands in the queue it was put into, behind what is there unless records of its instant came from higher sources
(R427). -/
theorem mem_insertRec (r : EventRec) (l : List EventRec) : r ∈ insertRec r l := by
  induction l with
  | nil => simp [insertRec]
  | cons x l ih => unfold insertRec; split <;> simp [ih]

/-- The record an event puts into the log: one whose class the log selects, while the log has room (R430, R431). -/
theorem Fab.toLog_log (f : Fab) (r : EventRec) (h : bit (f.dget 0x9001 4) r.cls = true) (hr : f.log.queue.length < 4096) :
    (f.toLog r).log = { f.log with queue := insertRec r f.log.queue } := by
  unfold Fab.toLog
  rw [if_pos h, Fab.countDrops_log]
  simp [EventPath.arrive, hr]

/-- The record of an event (R428). -/
def Fab.recordOf (f : Fab) (source code : Nat) (part : Option Nat) (a b : Nat) : EventRec :=
  { timestamp := f.now, source := source, code := code, cls := eventClass code, coalesced := false,
    synchronised := f.dget 0x5030 4 = 2, partition := part, sequence := f.sourceSeq.get 0 source % 256, count := 1,
    detailA := a, detailB := b, lastTimestamp := f.now }

/-- An event changes the event paths, what goes out, mailbox 1, the drop counts and its source's sequence, and nothing else
(R426 to R432). -/
theorem Fab.raise_rest (f : Fab) (source code : Nat) (part : Option Nat) (a b : Nat) :
    (f.raise source code part a b).hush = f.hush := by
  unfold Fab.raise; dsimp only
  rw [(Fab.toTenant_keeps _ _).2.1, (Fab.toSubscribers_keeps _ _ _).2.1, (Fab.toLog_keeps _ _).1]
  rfl

/-- An event changes no entry of the dictionary but the drop counts. -/
theorem Fab.dget_raise (f : Fab) (source code : Nat) (part : Option Nat) (a b i j : Nat) (hi : i ≠ 0x9030) (hj : j < 256) :
    (f.raise source code part a b).dget i j = f.dget i j := by
  unfold Fab.raise; dsimp only
  rw [(Fab.toTenant_keeps _ _).2.2 i j hi hj]
  exact ((Fab.toSubscribers_keeps (List.range 8) (Fab.toLog
    { f with sourceSeq := f.sourceSeq.set source ((f.sourceSeq.get 0 source + 1) % 256) } (f.recordOf source code part a b))
    (f.recordOf source code part a b)).2.2 i j hi hj).trans ((Fab.toLog_keeps _ _).2 i j hi hj)

/-- The record of an event joins the log where its class is selected and the log has room (R428, R430). -/
theorem Fab.log_raise (f : Fab) (source code : Nat) (part : Option Nat) (a b : Nat) (hr : f.log.queue.length < 4096)
    (h : bit (f.dget 0x9001 4) (eventClass code) = true) :
    ∃ r : EventRec, (f.raise source code part a b).log.queue = insertRec r f.log.queue ∧ r.source = source ∧ r.code = code ∧
      r.cls = eventClass code ∧ r.partition = part ∧ r.detailA = a ∧ r.detailB = b ∧ r.count = 1 := by
  refine ⟨(f.recordOf source code part a b), ?_, rfl, rfl, rfl, rfl, rfl, rfl, rfl⟩
  unfold Fab.raise; dsimp only
  rw [(Fab.toTenant_keeps _ _).1, (Fab.toSubscribers_keeps _ _ _).1]
  exact congrArg (·.queue) (Fab.toLog_log { f with sourceSeq := f.sourceSeq.set source ((f.sourceSeq.get 0 source + 1) % 256) }
    (f.recordOf source code part a b) h hr)

@[simp] theorem Fab.raise_phase (f : Fab) (source code : Nat) (part : Option Nat) (a b : Nat) : (f.raise source code part a b).phase = f.phase :=
  congrArg (·.phase) (Fab.raise_rest f source code part a b)
@[simp] theorem Fab.raise_cycle (f : Fab) (source code : Nat) (part : Option Nat) (a b : Nat) : (f.raise source code part a b).cycle = f.cycle :=
  congrArg (·.cycle) (Fab.raise_rest f source code part a b)
@[simp] theorem Fab.raise_timeBase (f : Fab) (source code : Nat) (part : Option Nat) (a b : Nat) : (f.raise source code part a b).timeBase = f.timeBase :=
  congrArg (·.timeBase) (Fab.raise_rest f source code part a b)
@[simp] theorem Fab.raise_tags (f : Fab) (source code : Nat) (part : Option Nat) (a b : Nat) : (f.raise source code part a b).tags = f.tags :=
  congrArg (·.tags) (Fab.raise_rest f source code part a b)
@[simp] theorem Fab.raise_lineKey (f : Fab) (source code : Nat) (part : Option Nat) (a b : Nat) : (f.raise source code part a b).lineKey = f.lineKey :=
  congrArg (·.lineKey) (Fab.raise_rest f source code part a b)
@[simp] theorem Fab.raise_fills (f : Fab) (source code : Nat) (part : Option Nat) (a b : Nat) : (f.raise source code part a b).fills = f.fills :=
  congrArg (·.fills) (Fab.raise_rest f source code part a b)
@[simp] theorem Fab.raise_badLines (f : Fab) (source code : Nat) (part : Option Nat) (a b : Nat) : (f.raise source code part a b).badLines = f.badLines :=
  congrArg (·.badLines) (Fab.raise_rest f source code part a b)
@[simp] theorem Fab.raise_softLines (f : Fab) (source code : Nat) (part : Option Nat) (a b : Nat) : (f.raise source code part a b).softLines = f.softLines :=
  congrArg (·.softLines) (Fab.raise_rest f source code part a b)
@[simp] theorem Fab.raise_wellFaults (f : Fab) (source code : Nat) (part : Option Nat) (a b : Nat) : (f.raise source code part a b).wellFaults = f.wellFaults :=
  congrArg (·.wellFaults) (Fab.raise_rest f source code part a b)
@[simp] theorem Fab.raise_clusters (f : Fab) (source code : Nat) (part : Option Nat) (a b : Nat) : (f.raise source code part a b).clusters = f.clusters :=
  congrArg (·.clusters) (Fab.raise_rest f source code part a b)
@[simp] theorem Fab.raise_regionCtr (f : Fab) (source code : Nat) (part : Option Nat) (a b : Nat) : (f.raise source code part a b).regionCtr = f.regionCtr :=
  congrArg (·.regionCtr) (Fab.raise_rest f source code part a b)
@[simp] theorem Fab.raise_packageCtr (f : Fab) (source code : Nat) (part : Option Nat) (a b : Nat) : (f.raise source code part a b).packageCtr = f.packageCtr :=
  congrArg (·.packageCtr) (Fab.raise_rest f source code part a b)
@[simp] theorem Fab.raise_txns (f : Fab) (source code : Nat) (part : Option Nat) (a b : Nat) : (f.raise source code part a b).txns = f.txns :=
  congrArg (·.txns) (Fab.raise_rest f source code part a b)
@[simp] theorem Fab.raise_waiting (f : Fab) (source code : Nat) (part : Option Nat) (a b : Nat) : (f.raise source code part a b).waiting = f.waiting :=
  congrArg (·.waiting) (Fab.raise_rest f source code part a b)
@[simp] theorem Fab.raise_chans (f : Fab) (source code : Nat) (part : Option Nat) (a b : Nat) : (f.raise source code part a b).chans = f.chans :=
  congrArg (·.chans) (Fab.raise_rest f source code part a b)
@[simp] theorem Fab.raise_nextTxn (f : Fab) (source code : Nat) (part : Option Nat) (a b : Nat) : (f.raise source code part a b).nextTxn = f.nextTxn :=
  congrArg (·.nextTxn) (Fab.raise_rest f source code part a b)
@[simp] theorem Fab.raise_scopes (f : Fab) (source code : Nat) (part : Option Nat) (a b : Nat) : (f.raise source code part a b).scopes = f.scopes :=
  congrArg (·.scopes) (Fab.raise_rest f source code part a b)
@[simp] theorem Fab.raise_inForce (f : Fab) (source code : Nat) (part : Option Nat) (a b : Nat) : (f.raise source code part a b).inForce = f.inForce :=
  congrArg (·.inForce) (Fab.raise_rest f source code part a b)
@[simp] theorem Fab.raise_routes (f : Fab) (source code : Nat) (part : Option Nat) (a b : Nat) : (f.raise source code part a b).routes = f.routes :=
  congrArg (·.routes) (Fab.raise_rest f source code part a b)
@[simp] theorem Fab.raise_routeBank (f : Fab) (source code : Nat) (part : Option Nat) (a b : Nat) : (f.raise source code part a b).routeBank = f.routeBank :=
  congrArg (·.routeBank) (Fab.raise_rest f source code part a b)
@[simp] theorem Fab.raise_routeDraining (f : Fab) (source code : Nat) (part : Option Nat) (a b : Nat) : (f.raise source code part a b).routeDraining = f.routeDraining :=
  congrArg (·.routeDraining) (Fab.raise_rest f source code part a b)
@[simp] theorem Fab.raise_oldRoutes (f : Fab) (source code : Nat) (part : Option Nat) (a b : Nat) : (f.raise source code part a b).oldRoutes = f.oldRoutes :=
  congrArg (·.oldRoutes) (Fab.raise_rest f source code part a b)
@[simp] theorem Fab.raise_routeDrainEnds (f : Fab) (source code : Nat) (part : Option Nat) (a b : Nat) : (f.raise source code part a b).routeDrainEnds = f.routeDrainEnds :=
  congrArg (·.routeDrainEnds) (Fab.raise_rest f source code part a b)
@[simp] theorem Fab.raise_launches (f : Fab) (source code : Nat) (part : Option Nat) (a b : Nat) : (f.raise source code part a b).launches = f.launches :=
  congrArg (·.launches) (Fab.raise_rest f source code part a b)
@[simp] theorem Fab.raise_nextLaunch (f : Fab) (source code : Nat) (part : Option Nat) (a b : Nat) : (f.raise source code part a b).nextLaunch = f.nextLaunch :=
  congrArg (·.nextLaunch) (Fab.raise_rest f source code part a b)
@[simp] theorem Fab.raise_vfs (f : Fab) (source code : Nat) (part : Option Nat) (a b : Nat) : (f.raise source code part a b).vfs = f.vfs :=
  congrArg (·.vfs) (Fab.raise_rest f source code part a b)
@[simp] theorem Fab.raise_batches (f : Fab) (source code : Nat) (part : Option Nat) (a b : Nat) : (f.raise source code part a b).batches = f.batches :=
  congrArg (·.batches) (Fab.raise_rest f source code part a b)
@[simp] theorem Fab.raise_versionTop (f : Fab) (source code : Nat) (part : Option Nat) (a b : Nat) : (f.raise source code part a b).versionTop = f.versionTop :=
  congrArg (·.versionTop) (Fab.raise_rest f source code part a b)
@[simp] theorem Fab.raise_versions (f : Fab) (source code : Nat) (part : Option Nat) (a b : Nat) : (f.raise source code part a b).versions = f.versions :=
  congrArg (·.versions) (Fab.raise_rest f source code part a b)
@[simp] theorem Fab.raise_ductus (f : Fab) (source code : Nat) (part : Option Nat) (a b : Nat) : (f.raise source code part a b).ductus = f.ductus :=
  congrArg (·.ductus) (Fab.raise_rest f source code part a b)
@[simp] theorem Fab.raise_steps (f : Fab) (source code : Nat) (part : Option Nat) (a b : Nat) : (f.raise source code part a b).steps = f.steps :=
  congrArg (·.steps) (Fab.raise_rest f source code part a b)
@[simp] theorem Fab.raise_slots (f : Fab) (source code : Nat) (part : Option Nat) (a b : Nat) : (f.raise source code part a b).slots = f.slots :=
  congrArg (·.slots) (Fab.raise_rest f source code part a b)
@[simp] theorem Fab.raise_colls (f : Fab) (source code : Nat) (part : Option Nat) (a b : Nat) : (f.raise source code part a b).colls = f.colls :=
  congrArg (·.colls) (Fab.raise_rest f source code part a b)
@[simp] theorem Fab.raise_nextColl (f : Fab) (source code : Nat) (part : Option Nat) (a b : Nat) : (f.raise source code part a b).nextColl = f.nextColl :=
  congrArg (·.nextColl) (Fab.raise_rest f source code part a b)
@[simp] theorem Fab.raise_badMessages (f : Fab) (source code : Nat) (part : Option Nat) (a b : Nat) : (f.raise source code part a b).badMessages = f.badMessages :=
  congrArg (·.badMessages) (Fab.raise_rest f source code part a b)
@[simp] theorem Fab.raise_lateBlocks (f : Fab) (source code : Nat) (part : Option Nat) (a b : Nat) : (f.raise source code part a b).lateBlocks = f.lateBlocks :=
  congrArg (·.lateBlocks) (Fab.raise_rest f source code part a b)
@[simp] theorem Fab.raise_epochDue (f : Fab) (source code : Nat) (part : Option Nat) (a b : Nat) : (f.raise source code part a b).epochDue = f.epochDue :=
  congrArg (·.epochDue) (Fab.raise_rest f source code part a b)
@[simp] theorem Fab.raise_restarts (f : Fab) (source code : Nat) (part : Option Nat) (a b : Nat) : (f.raise source code part a b).restarts = f.restarts :=
  congrArg (·.restarts) (Fab.raise_rest f source code part a b)
@[simp] theorem Fab.raise_treeSeq (f : Fab) (source code : Nat) (part : Option Nat) (a b : Nat) : (f.raise source code part a b).treeSeq = f.treeSeq :=
  congrArg (·.treeSeq) (Fab.raise_rest f source code part a b)
@[simp] theorem Fab.raise_repeats (f : Fab) (source code : Nat) (part : Option Nat) (a b : Nat) : (f.raise source code part a b).repeats = f.repeats :=
  congrArg (·.repeats) (Fab.raise_rest f source code part a b)
@[simp] theorem Fab.raise_nextRepeat (f : Fab) (source code : Nat) (part : Option Nat) (a b : Nat) : (f.raise source code part a b).nextRepeat = f.nextRepeat :=
  congrArg (·.nextRepeat) (Fab.raise_rest f source code part a b)
@[simp] theorem Fab.raise_samplers (f : Fab) (source code : Nat) (part : Option Nat) (a b : Nat) : (f.raise source code part a b).samplers = f.samplers :=
  congrArg (·.samplers) (Fab.raise_rest f source code part a b)
@[simp] theorem Fab.raise_flows (f : Fab) (source code : Nat) (part : Option Nat) (a b : Nat) : (f.raise source code part a b).flows = f.flows :=
  congrArg (·.flows) (Fab.raise_rest f source code part a b)
@[simp] theorem Fab.raise_qps (f : Fab) (source code : Nat) (part : Option Nat) (a b : Nat) : (f.raise source code part a b).qps = f.qps :=
  congrArg (·.qps) (Fab.raise_rest f source code part a b)
@[simp] theorem Fab.raise_sas (f : Fab) (source code : Nat) (part : Option Nat) (a b : Nat) : (f.raise source code part a b).sas = f.sas :=
  congrArg (·.sas) (Fab.raise_rest f source code part a b)
@[simp] theorem Fab.raise_badPackets (f : Fab) (source code : Nat) (part : Option Nat) (a b : Nat) : (f.raise source code part a b).badPackets = f.badPackets :=
  congrArg (·.badPackets) (Fab.raise_rest f source code part a b)
@[simp] theorem Fab.raise_laneBad (f : Fab) (source code : Nat) (part : Option Nat) (a b : Nat) : (f.raise source code part a b).laneBad = f.laneBad :=
  congrArg (·.laneBad) (Fab.raise_rest f source code part a b)
@[simp] theorem Fab.raise_portLanes (f : Fab) (source code : Nat) (part : Option Nat) (a b : Nat) : (f.raise source code part a b).portLanes = f.portLanes :=
  congrArg (·.portLanes) (Fab.raise_rest f source code part a b)
@[simp] theorem Fab.raise_laserBad (f : Fab) (source code : Nat) (part : Option Nat) (a b : Nat) : (f.raise source code part a b).laserBad = f.laserBad :=
  congrArg (·.laserBad) (Fab.raise_rest f source code part a b)
@[simp] theorem Fab.raise_linkReplays (f : Fab) (source code : Nat) (part : Option Nat) (a b : Nat) : (f.raise source code part a b).linkReplays = f.linkReplays :=
  congrArg (·.linkReplays) (Fab.raise_rest f source code part a b)
@[simp] theorem Fab.raise_members (f : Fab) (source code : Nat) (part : Option Nat) (a b : Nat) : (f.raise source code part a b).members = f.members :=
  congrArg (·.members) (Fab.raise_rest f source code part a b)
@[simp] theorem Fab.raise_epochChanges (f : Fab) (source code : Nat) (part : Option Nat) (a b : Nat) : (f.raise source code part a b).epochChanges = f.epochChanges :=
  congrArg (·.epochChanges) (Fab.raise_rest f source code part a b)
@[simp] theorem Fab.raise_lossQueue (f : Fab) (source code : Nat) (part : Option Nat) (a b : Nat) : (f.raise source code part a b).lossQueue = f.lossQueue :=
  congrArg (·.lossQueue) (Fab.raise_rest f source code part a b)
@[simp] theorem Fab.raise_memberSeq (f : Fab) (source code : Nat) (part : Option Nat) (a b : Nat) : (f.raise source code part a b).memberSeq = f.memberSeq :=
  congrArg (·.memberSeq) (Fab.raise_rest f source code part a b)
@[simp] theorem Fab.raise_memberOut (f : Fab) (source code : Nat) (part : Option Nat) (a b : Nat) : (f.raise source code part a b).memberOut = f.memberOut :=
  congrArg (·.memberOut) (Fab.raise_rest f source code part a b)
@[simp] theorem Fab.raise_memberOwners (f : Fab) (source code : Nat) (part : Option Nat) (a b : Nat) : (f.raise source code part a b).memberOwners = f.memberOwners :=
  congrArg (·.memberOwners) (Fab.raise_rest f source code part a b)
@[simp] theorem Fab.raise_noivos (f : Fab) (source code : Nat) (part : Option Nat) (a b : Nat) : (f.raise source code part a b).noivos = f.noivos :=
  congrArg (·.noivos) (Fab.raise_rest f source code part a b)
@[simp] theorem Fab.raise_agent (f : Fab) (source code : Nat) (part : Option Nat) (a b : Nat) : (f.raise source code part a b).agent = f.agent :=
  congrArg (·.agent) (Fab.raise_rest f source code part a b)
@[simp] theorem Fab.raise_powerWindow (f : Fab) (source code : Nat) (part : Option Nat) (a b : Nat) : (f.raise source code part a b).powerWindow = f.powerWindow :=
  congrArg (·.powerWindow) (Fab.raise_rest f source code part a b)
@[simp] theorem Fab.raise_budget (f : Fab) (source code : Nat) (part : Option Nat) (a b : Nat) : (f.raise source code part a b).budget = f.budget :=
  congrArg (·.budget) (Fab.raise_rest f source code part a b)
@[simp] theorem Fab.raise_thermalCeiling (f : Fab) (source code : Nat) (part : Option Nat) (a b : Nat) : (f.raise source code part a b).thermalCeiling = f.thermalCeiling :=
  congrArg (·.thermalCeiling) (Fab.raise_rest f source code part a b)
@[simp] theorem Fab.raise_clamped (f : Fab) (source code : Nat) (part : Option Nat) (a b : Nat) : (f.raise source code part a b).clamped = f.clamped :=
  congrArg (·.clamped) (Fab.raise_rest f source code part a b)
@[simp] theorem Fab.raise_sprintHot (f : Fab) (source code : Nat) (part : Option Nat) (a b : Nat) : (f.raise source code part a b).sprintHot = f.sprintHot :=
  congrArg (·.sprintHot) (Fab.raise_rest f source code part a b)
@[simp] theorem Fab.raise_junctionStop (f : Fab) (source code : Nat) (part : Option Nat) (a b : Nat) : (f.raise source code part a b).junctionStop = f.junctionStop :=
  congrArg (·.junctionStop) (Fab.raise_rest f source code part a b)
@[simp] theorem Fab.raise_islands (f : Fab) (source code : Nat) (part : Option Nat) (a b : Nat) : (f.raise source code part a b).islands = f.islands :=
  congrArg (·.islands) (Fab.raise_rest f source code part a b)
@[simp] theorem Fab.raise_pins (f : Fab) (source code : Nat) (part : Option Nat) (a b : Nat) : (f.raise source code part a b).pins = f.pins :=
  congrArg (·.pins) (Fab.raise_rest f source code part a b)
@[simp] theorem Fab.raise_inPins (f : Fab) (source code : Nat) (part : Option Nat) (a b : Nat) : (f.raise source code part a b).inPins = f.inPins :=
  congrArg (·.inPins) (Fab.raise_rest f source code part a b)
@[simp] theorem Fab.raise_retirements (f : Fab) (source code : Nat) (part : Option Nat) (a b : Nat) : (f.raise source code part a b).retirements = f.retirements :=
  congrArg (·.retirements) (Fab.raise_rest f source code part a b)
@[simp] theorem Fab.raise_chanTimeouts (f : Fab) (source code : Nat) (part : Option Nat) (a b : Nat) : (f.raise source code part a b).chanTimeouts = f.chanTimeouts :=
  congrArg (·.chanTimeouts) (Fab.raise_rest f source code part a b)
@[simp] theorem Fab.raise_chanTraining (f : Fab) (source code : Nat) (part : Option Nat) (a b : Nat) : (f.raise source code part a b).chanTraining = f.chanTraining :=
  congrArg (·.chanTraining) (Fab.raise_rest f source code part a b)
@[simp] theorem Fab.raise_chanHour (f : Fab) (source code : Nat) (part : Option Nat) (a b : Nat) : (f.raise source code part a b).chanHour = f.chanHour :=
  congrArg (·.chanHour) (Fab.raise_rest f source code part a b)
@[simp] theorem Fab.raise_clearing (f : Fab) (source code : Nat) (part : Option Nat) (a b : Nat) : (f.raise source code part a b).clearing = f.clearing :=
  congrArg (·.clearing) (Fab.raise_rest f source code part a b)
@[simp] theorem Fab.raise_resetWaits (f : Fab) (source code : Nat) (part : Option Nat) (a b : Nat) : (f.raise source code part a b).resetWaits = f.resetWaits :=
  congrArg (·.resetWaits) (Fab.raise_rest f source code part a b)
@[simp] theorem Fab.raise_ewsOutcome (f : Fab) (source code : Nat) (part : Option Nat) (a b : Nat) : (f.raise source code part a b).ewsOutcome = f.ewsOutcome :=
  congrArg (·.ewsOutcome) (Fab.raise_rest f source code part a b)
@[simp] theorem Fab.raise_ewsGraced (f : Fab) (source code : Nat) (part : Option Nat) (a b : Nat) : (f.raise source code part a b).ewsGraced = f.ewsGraced :=
  congrArg (·.ewsGraced) (Fab.raise_rest f source code part a b)

/-! ### Completions -/

theorem Fab.queueCompletion_keeps (f : Fab) (p : Nat) (c : Completion) :
    { f.queueCompletion p c with vfs := [], dict := [] } = { f with vfs := [], dict := [] } := by
  unfold Fab.queueCompletion; dsimp only
  split
  · rfl
  · split <;> rfl

theorem Fab.close_keeps (f : Fab) (p opcode status tag detail serial : Nat) :
    { f.close p opcode status tag detail serial with vfs := [], dict := [] } = { f with vfs := [], dict := [] } := by
  unfold Fab.close; dsimp only
  split
  · rfl
  · rw [Fab.queueCompletion_keeps]; rfl

theorem Fab.flushOrdered_keeps (p n : Nat) (f : Fab) :
    { Fab.flushOrdered p n f with vfs := [], dict := [], packageCtr := [] } = { f with vfs := [], dict := [], packageCtr := [] } := by
  induction n generalizing f with
  | zero => rfl
  | succ n ih =>
    unfold Fab.flushOrdered
    split
    · rw [ih]
      exact congrArg (fun g : Fab => { g with packageCtr := [] }) (Fab.close_keeps _ _ _ _ _ _ _)
    · rfl

/-- A completion changes the functions, the counts of lost notifications and the package counters that waiting counter
entries of its ring write, and nothing else (R393, R395). -/
theorem Fab.complete_rest (f : Fab) (p opcode status tag detail serial : Nat) :
    { f.complete p opcode status tag detail serial with vfs := [], dict := [], packageCtr := [] } =
      { f with vfs := [], dict := [], packageCtr := [] } := by
  unfold Fab.complete
  rw [Fab.flushOrdered_keeps]
  exact congrArg (fun g : Fab => { g with packageCtr := [] }) (Fab.close_keeps _ _ _ _ _ _ _)

@[simp] theorem Fab.complete_phase (f : Fab) (p opcode status tag detail serial : Nat) : (f.complete p opcode status tag detail serial).phase = f.phase :=
  congrArg (·.phase) (Fab.complete_rest f p opcode status tag detail serial)
@[simp] theorem Fab.complete_cycle (f : Fab) (p opcode status tag detail serial : Nat) : (f.complete p opcode status tag detail serial).cycle = f.cycle :=
  congrArg (·.cycle) (Fab.complete_rest f p opcode status tag detail serial)
@[simp] theorem Fab.complete_timeBase (f : Fab) (p opcode status tag detail serial : Nat) : (f.complete p opcode status tag detail serial).timeBase = f.timeBase :=
  congrArg (·.timeBase) (Fab.complete_rest f p opcode status tag detail serial)
@[simp] theorem Fab.complete_tags (f : Fab) (p opcode status tag detail serial : Nat) : (f.complete p opcode status tag detail serial).tags = f.tags :=
  congrArg (·.tags) (Fab.complete_rest f p opcode status tag detail serial)
@[simp] theorem Fab.complete_lineKey (f : Fab) (p opcode status tag detail serial : Nat) : (f.complete p opcode status tag detail serial).lineKey = f.lineKey :=
  congrArg (·.lineKey) (Fab.complete_rest f p opcode status tag detail serial)
@[simp] theorem Fab.complete_fills (f : Fab) (p opcode status tag detail serial : Nat) : (f.complete p opcode status tag detail serial).fills = f.fills :=
  congrArg (·.fills) (Fab.complete_rest f p opcode status tag detail serial)
@[simp] theorem Fab.complete_badLines (f : Fab) (p opcode status tag detail serial : Nat) : (f.complete p opcode status tag detail serial).badLines = f.badLines :=
  congrArg (·.badLines) (Fab.complete_rest f p opcode status tag detail serial)
@[simp] theorem Fab.complete_softLines (f : Fab) (p opcode status tag detail serial : Nat) : (f.complete p opcode status tag detail serial).softLines = f.softLines :=
  congrArg (·.softLines) (Fab.complete_rest f p opcode status tag detail serial)
@[simp] theorem Fab.complete_wellFaults (f : Fab) (p opcode status tag detail serial : Nat) : (f.complete p opcode status tag detail serial).wellFaults = f.wellFaults :=
  congrArg (·.wellFaults) (Fab.complete_rest f p opcode status tag detail serial)
@[simp] theorem Fab.complete_clusters (f : Fab) (p opcode status tag detail serial : Nat) : (f.complete p opcode status tag detail serial).clusters = f.clusters :=
  congrArg (·.clusters) (Fab.complete_rest f p opcode status tag detail serial)
@[simp] theorem Fab.complete_regionCtr (f : Fab) (p opcode status tag detail serial : Nat) : (f.complete p opcode status tag detail serial).regionCtr = f.regionCtr :=
  congrArg (·.regionCtr) (Fab.complete_rest f p opcode status tag detail serial)
@[simp] theorem Fab.complete_txns (f : Fab) (p opcode status tag detail serial : Nat) : (f.complete p opcode status tag detail serial).txns = f.txns :=
  congrArg (·.txns) (Fab.complete_rest f p opcode status tag detail serial)
@[simp] theorem Fab.complete_waiting (f : Fab) (p opcode status tag detail serial : Nat) : (f.complete p opcode status tag detail serial).waiting = f.waiting :=
  congrArg (·.waiting) (Fab.complete_rest f p opcode status tag detail serial)
@[simp] theorem Fab.complete_chans (f : Fab) (p opcode status tag detail serial : Nat) : (f.complete p opcode status tag detail serial).chans = f.chans :=
  congrArg (·.chans) (Fab.complete_rest f p opcode status tag detail serial)
@[simp] theorem Fab.complete_nextTxn (f : Fab) (p opcode status tag detail serial : Nat) : (f.complete p opcode status tag detail serial).nextTxn = f.nextTxn :=
  congrArg (·.nextTxn) (Fab.complete_rest f p opcode status tag detail serial)
@[simp] theorem Fab.complete_scopes (f : Fab) (p opcode status tag detail serial : Nat) : (f.complete p opcode status tag detail serial).scopes = f.scopes :=
  congrArg (·.scopes) (Fab.complete_rest f p opcode status tag detail serial)
@[simp] theorem Fab.complete_inForce (f : Fab) (p opcode status tag detail serial : Nat) : (f.complete p opcode status tag detail serial).inForce = f.inForce :=
  congrArg (·.inForce) (Fab.complete_rest f p opcode status tag detail serial)
@[simp] theorem Fab.complete_routes (f : Fab) (p opcode status tag detail serial : Nat) : (f.complete p opcode status tag detail serial).routes = f.routes :=
  congrArg (·.routes) (Fab.complete_rest f p opcode status tag detail serial)
@[simp] theorem Fab.complete_routeBank (f : Fab) (p opcode status tag detail serial : Nat) : (f.complete p opcode status tag detail serial).routeBank = f.routeBank :=
  congrArg (·.routeBank) (Fab.complete_rest f p opcode status tag detail serial)
@[simp] theorem Fab.complete_routeDraining (f : Fab) (p opcode status tag detail serial : Nat) : (f.complete p opcode status tag detail serial).routeDraining = f.routeDraining :=
  congrArg (·.routeDraining) (Fab.complete_rest f p opcode status tag detail serial)
@[simp] theorem Fab.complete_oldRoutes (f : Fab) (p opcode status tag detail serial : Nat) : (f.complete p opcode status tag detail serial).oldRoutes = f.oldRoutes :=
  congrArg (·.oldRoutes) (Fab.complete_rest f p opcode status tag detail serial)
@[simp] theorem Fab.complete_routeDrainEnds (f : Fab) (p opcode status tag detail serial : Nat) : (f.complete p opcode status tag detail serial).routeDrainEnds = f.routeDrainEnds :=
  congrArg (·.routeDrainEnds) (Fab.complete_rest f p opcode status tag detail serial)
@[simp] theorem Fab.complete_launches (f : Fab) (p opcode status tag detail serial : Nat) : (f.complete p opcode status tag detail serial).launches = f.launches :=
  congrArg (·.launches) (Fab.complete_rest f p opcode status tag detail serial)
@[simp] theorem Fab.complete_nextLaunch (f : Fab) (p opcode status tag detail serial : Nat) : (f.complete p opcode status tag detail serial).nextLaunch = f.nextLaunch :=
  congrArg (·.nextLaunch) (Fab.complete_rest f p opcode status tag detail serial)
@[simp] theorem Fab.complete_mailboxes (f : Fab) (p opcode status tag detail serial : Nat) : (f.complete p opcode status tag detail serial).mailboxes = f.mailboxes :=
  congrArg (·.mailboxes) (Fab.complete_rest f p opcode status tag detail serial)
@[simp] theorem Fab.complete_batches (f : Fab) (p opcode status tag detail serial : Nat) : (f.complete p opcode status tag detail serial).batches = f.batches :=
  congrArg (·.batches) (Fab.complete_rest f p opcode status tag detail serial)
@[simp] theorem Fab.complete_versionTop (f : Fab) (p opcode status tag detail serial : Nat) : (f.complete p opcode status tag detail serial).versionTop = f.versionTop :=
  congrArg (·.versionTop) (Fab.complete_rest f p opcode status tag detail serial)
@[simp] theorem Fab.complete_versions (f : Fab) (p opcode status tag detail serial : Nat) : (f.complete p opcode status tag detail serial).versions = f.versions :=
  congrArg (·.versions) (Fab.complete_rest f p opcode status tag detail serial)
@[simp] theorem Fab.complete_ductus (f : Fab) (p opcode status tag detail serial : Nat) : (f.complete p opcode status tag detail serial).ductus = f.ductus :=
  congrArg (·.ductus) (Fab.complete_rest f p opcode status tag detail serial)
@[simp] theorem Fab.complete_steps (f : Fab) (p opcode status tag detail serial : Nat) : (f.complete p opcode status tag detail serial).steps = f.steps :=
  congrArg (·.steps) (Fab.complete_rest f p opcode status tag detail serial)
@[simp] theorem Fab.complete_slots (f : Fab) (p opcode status tag detail serial : Nat) : (f.complete p opcode status tag detail serial).slots = f.slots :=
  congrArg (·.slots) (Fab.complete_rest f p opcode status tag detail serial)
@[simp] theorem Fab.complete_colls (f : Fab) (p opcode status tag detail serial : Nat) : (f.complete p opcode status tag detail serial).colls = f.colls :=
  congrArg (·.colls) (Fab.complete_rest f p opcode status tag detail serial)
@[simp] theorem Fab.complete_nextColl (f : Fab) (p opcode status tag detail serial : Nat) : (f.complete p opcode status tag detail serial).nextColl = f.nextColl :=
  congrArg (·.nextColl) (Fab.complete_rest f p opcode status tag detail serial)
@[simp] theorem Fab.complete_badMessages (f : Fab) (p opcode status tag detail serial : Nat) : (f.complete p opcode status tag detail serial).badMessages = f.badMessages :=
  congrArg (·.badMessages) (Fab.complete_rest f p opcode status tag detail serial)
@[simp] theorem Fab.complete_lateBlocks (f : Fab) (p opcode status tag detail serial : Nat) : (f.complete p opcode status tag detail serial).lateBlocks = f.lateBlocks :=
  congrArg (·.lateBlocks) (Fab.complete_rest f p opcode status tag detail serial)
@[simp] theorem Fab.complete_epochDue (f : Fab) (p opcode status tag detail serial : Nat) : (f.complete p opcode status tag detail serial).epochDue = f.epochDue :=
  congrArg (·.epochDue) (Fab.complete_rest f p opcode status tag detail serial)
@[simp] theorem Fab.complete_restarts (f : Fab) (p opcode status tag detail serial : Nat) : (f.complete p opcode status tag detail serial).restarts = f.restarts :=
  congrArg (·.restarts) (Fab.complete_rest f p opcode status tag detail serial)
@[simp] theorem Fab.complete_treeSeq (f : Fab) (p opcode status tag detail serial : Nat) : (f.complete p opcode status tag detail serial).treeSeq = f.treeSeq :=
  congrArg (·.treeSeq) (Fab.complete_rest f p opcode status tag detail serial)
@[simp] theorem Fab.complete_repeats (f : Fab) (p opcode status tag detail serial : Nat) : (f.complete p opcode status tag detail serial).repeats = f.repeats :=
  congrArg (·.repeats) (Fab.complete_rest f p opcode status tag detail serial)
@[simp] theorem Fab.complete_nextRepeat (f : Fab) (p opcode status tag detail serial : Nat) : (f.complete p opcode status tag detail serial).nextRepeat = f.nextRepeat :=
  congrArg (·.nextRepeat) (Fab.complete_rest f p opcode status tag detail serial)
@[simp] theorem Fab.complete_samplers (f : Fab) (p opcode status tag detail serial : Nat) : (f.complete p opcode status tag detail serial).samplers = f.samplers :=
  congrArg (·.samplers) (Fab.complete_rest f p opcode status tag detail serial)
@[simp] theorem Fab.complete_flows (f : Fab) (p opcode status tag detail serial : Nat) : (f.complete p opcode status tag detail serial).flows = f.flows :=
  congrArg (·.flows) (Fab.complete_rest f p opcode status tag detail serial)
@[simp] theorem Fab.complete_qps (f : Fab) (p opcode status tag detail serial : Nat) : (f.complete p opcode status tag detail serial).qps = f.qps :=
  congrArg (·.qps) (Fab.complete_rest f p opcode status tag detail serial)
@[simp] theorem Fab.complete_netOut (f : Fab) (p opcode status tag detail serial : Nat) : (f.complete p opcode status tag detail serial).netOut = f.netOut :=
  congrArg (·.netOut) (Fab.complete_rest f p opcode status tag detail serial)
@[simp] theorem Fab.complete_sas (f : Fab) (p opcode status tag detail serial : Nat) : (f.complete p opcode status tag detail serial).sas = f.sas :=
  congrArg (·.sas) (Fab.complete_rest f p opcode status tag detail serial)
@[simp] theorem Fab.complete_badPackets (f : Fab) (p opcode status tag detail serial : Nat) : (f.complete p opcode status tag detail serial).badPackets = f.badPackets :=
  congrArg (·.badPackets) (Fab.complete_rest f p opcode status tag detail serial)
@[simp] theorem Fab.complete_laneBad (f : Fab) (p opcode status tag detail serial : Nat) : (f.complete p opcode status tag detail serial).laneBad = f.laneBad :=
  congrArg (·.laneBad) (Fab.complete_rest f p opcode status tag detail serial)
@[simp] theorem Fab.complete_portLanes (f : Fab) (p opcode status tag detail serial : Nat) : (f.complete p opcode status tag detail serial).portLanes = f.portLanes :=
  congrArg (·.portLanes) (Fab.complete_rest f p opcode status tag detail serial)
@[simp] theorem Fab.complete_laserBad (f : Fab) (p opcode status tag detail serial : Nat) : (f.complete p opcode status tag detail serial).laserBad = f.laserBad :=
  congrArg (·.laserBad) (Fab.complete_rest f p opcode status tag detail serial)
@[simp] theorem Fab.complete_linkReplays (f : Fab) (p opcode status tag detail serial : Nat) : (f.complete p opcode status tag detail serial).linkReplays = f.linkReplays :=
  congrArg (·.linkReplays) (Fab.complete_rest f p opcode status tag detail serial)
@[simp] theorem Fab.complete_members (f : Fab) (p opcode status tag detail serial : Nat) : (f.complete p opcode status tag detail serial).members = f.members :=
  congrArg (·.members) (Fab.complete_rest f p opcode status tag detail serial)
@[simp] theorem Fab.complete_epochChanges (f : Fab) (p opcode status tag detail serial : Nat) : (f.complete p opcode status tag detail serial).epochChanges = f.epochChanges :=
  congrArg (·.epochChanges) (Fab.complete_rest f p opcode status tag detail serial)
@[simp] theorem Fab.complete_lossQueue (f : Fab) (p opcode status tag detail serial : Nat) : (f.complete p opcode status tag detail serial).lossQueue = f.lossQueue :=
  congrArg (·.lossQueue) (Fab.complete_rest f p opcode status tag detail serial)
@[simp] theorem Fab.complete_memberSeq (f : Fab) (p opcode status tag detail serial : Nat) : (f.complete p opcode status tag detail serial).memberSeq = f.memberSeq :=
  congrArg (·.memberSeq) (Fab.complete_rest f p opcode status tag detail serial)
@[simp] theorem Fab.complete_memberOut (f : Fab) (p opcode status tag detail serial : Nat) : (f.complete p opcode status tag detail serial).memberOut = f.memberOut :=
  congrArg (·.memberOut) (Fab.complete_rest f p opcode status tag detail serial)
@[simp] theorem Fab.complete_memberOwners (f : Fab) (p opcode status tag detail serial : Nat) : (f.complete p opcode status tag detail serial).memberOwners = f.memberOwners :=
  congrArg (·.memberOwners) (Fab.complete_rest f p opcode status tag detail serial)
@[simp] theorem Fab.complete_noivos (f : Fab) (p opcode status tag detail serial : Nat) : (f.complete p opcode status tag detail serial).noivos = f.noivos :=
  congrArg (·.noivos) (Fab.complete_rest f p opcode status tag detail serial)
@[simp] theorem Fab.complete_sourceSeq (f : Fab) (p opcode status tag detail serial : Nat) : (f.complete p opcode status tag detail serial).sourceSeq = f.sourceSeq :=
  congrArg (·.sourceSeq) (Fab.complete_rest f p opcode status tag detail serial)
@[simp] theorem Fab.complete_log (f : Fab) (p opcode status tag detail serial : Nat) : (f.complete p opcode status tag detail serial).log = f.log :=
  congrArg (·.log) (Fab.complete_rest f p opcode status tag detail serial)
@[simp] theorem Fab.complete_subscribers (f : Fab) (p opcode status tag detail serial : Nat) : (f.complete p opcode status tag detail serial).subscribers = f.subscribers :=
  congrArg (·.subscribers) (Fab.complete_rest f p opcode status tag detail serial)
@[simp] theorem Fab.complete_tenantPaths (f : Fab) (p opcode status tag detail serial : Nat) : (f.complete p opcode status tag detail serial).tenantPaths = f.tenantPaths :=
  congrArg (·.tenantPaths) (Fab.complete_rest f p opcode status tag detail serial)
@[simp] theorem Fab.complete_agent (f : Fab) (p opcode status tag detail serial : Nat) : (f.complete p opcode status tag detail serial).agent = f.agent :=
  congrArg (·.agent) (Fab.complete_rest f p opcode status tag detail serial)
@[simp] theorem Fab.complete_powerWindow (f : Fab) (p opcode status tag detail serial : Nat) : (f.complete p opcode status tag detail serial).powerWindow = f.powerWindow :=
  congrArg (·.powerWindow) (Fab.complete_rest f p opcode status tag detail serial)
@[simp] theorem Fab.complete_budget (f : Fab) (p opcode status tag detail serial : Nat) : (f.complete p opcode status tag detail serial).budget = f.budget :=
  congrArg (·.budget) (Fab.complete_rest f p opcode status tag detail serial)
@[simp] theorem Fab.complete_thermalCeiling (f : Fab) (p opcode status tag detail serial : Nat) : (f.complete p opcode status tag detail serial).thermalCeiling = f.thermalCeiling :=
  congrArg (·.thermalCeiling) (Fab.complete_rest f p opcode status tag detail serial)
@[simp] theorem Fab.complete_clamped (f : Fab) (p opcode status tag detail serial : Nat) : (f.complete p opcode status tag detail serial).clamped = f.clamped :=
  congrArg (·.clamped) (Fab.complete_rest f p opcode status tag detail serial)
@[simp] theorem Fab.complete_sprintHot (f : Fab) (p opcode status tag detail serial : Nat) : (f.complete p opcode status tag detail serial).sprintHot = f.sprintHot :=
  congrArg (·.sprintHot) (Fab.complete_rest f p opcode status tag detail serial)
@[simp] theorem Fab.complete_junctionStop (f : Fab) (p opcode status tag detail serial : Nat) : (f.complete p opcode status tag detail serial).junctionStop = f.junctionStop :=
  congrArg (·.junctionStop) (Fab.complete_rest f p opcode status tag detail serial)
@[simp] theorem Fab.complete_islands (f : Fab) (p opcode status tag detail serial : Nat) : (f.complete p opcode status tag detail serial).islands = f.islands :=
  congrArg (·.islands) (Fab.complete_rest f p opcode status tag detail serial)
@[simp] theorem Fab.complete_pins (f : Fab) (p opcode status tag detail serial : Nat) : (f.complete p opcode status tag detail serial).pins = f.pins :=
  congrArg (·.pins) (Fab.complete_rest f p opcode status tag detail serial)
@[simp] theorem Fab.complete_inPins (f : Fab) (p opcode status tag detail serial : Nat) : (f.complete p opcode status tag detail serial).inPins = f.inPins :=
  congrArg (·.inPins) (Fab.complete_rest f p opcode status tag detail serial)
@[simp] theorem Fab.complete_retirements (f : Fab) (p opcode status tag detail serial : Nat) : (f.complete p opcode status tag detail serial).retirements = f.retirements :=
  congrArg (·.retirements) (Fab.complete_rest f p opcode status tag detail serial)
@[simp] theorem Fab.complete_chanTimeouts (f : Fab) (p opcode status tag detail serial : Nat) : (f.complete p opcode status tag detail serial).chanTimeouts = f.chanTimeouts :=
  congrArg (·.chanTimeouts) (Fab.complete_rest f p opcode status tag detail serial)
@[simp] theorem Fab.complete_chanTraining (f : Fab) (p opcode status tag detail serial : Nat) : (f.complete p opcode status tag detail serial).chanTraining = f.chanTraining :=
  congrArg (·.chanTraining) (Fab.complete_rest f p opcode status tag detail serial)
@[simp] theorem Fab.complete_chanHour (f : Fab) (p opcode status tag detail serial : Nat) : (f.complete p opcode status tag detail serial).chanHour = f.chanHour :=
  congrArg (·.chanHour) (Fab.complete_rest f p opcode status tag detail serial)
@[simp] theorem Fab.complete_clearing (f : Fab) (p opcode status tag detail serial : Nat) : (f.complete p opcode status tag detail serial).clearing = f.clearing :=
  congrArg (·.clearing) (Fab.complete_rest f p opcode status tag detail serial)
@[simp] theorem Fab.complete_resetWaits (f : Fab) (p opcode status tag detail serial : Nat) : (f.complete p opcode status tag detail serial).resetWaits = f.resetWaits :=
  congrArg (·.resetWaits) (Fab.complete_rest f p opcode status tag detail serial)
@[simp] theorem Fab.complete_ewsOutcome (f : Fab) (p opcode status tag detail serial : Nat) : (f.complete p opcode status tag detail serial).ewsOutcome = f.ewsOutcome :=
  congrArg (·.ewsOutcome) (Fab.complete_rest f p opcode status tag detail serial)
@[simp] theorem Fab.complete_ewsGraced (f : Fab) (p opcode status tag detail serial : Nat) : (f.complete p opcode status tag detail serial).ewsGraced = f.ewsGraced :=
  congrArg (·.ewsGraced) (Fab.complete_rest f p opcode status tag detail serial)
@[simp] theorem Fab.complete_interrupts (f : Fab) (p opcode status tag detail serial : Nat) : (f.complete p opcode status tag detail serial).interrupts = f.interrupts :=
  congrArg (·.interrupts) (Fab.complete_rest f p opcode status tag detail serial)

/-- A command that is open ends with its completion at the end of its function's queue, while the queue has room (R393,
R395). -/
theorem Fab.close_queue (f : Fab) (p opcode status tag detail serial : Nat) (hq : (f.vf p).queue.length < 4096)
    (ho : ∀ e, (f.vf p).openCmds.find? (isOpen opcode tag serial) = some e → e.2 = false) :
    (f.close p opcode status tag detail serial).vf p =
      { f.vf p with
        openCmds := removeFirst (isOpen opcode tag serial) (f.vf p).openCmds,
        queue := (f.vf p).queue ++ [⟨opcode, status, tag, detail⟩] } := by
  unfold Fab.close; dsimp only
  split
  · next h => exact absurd (ho _ h) (by simp)
  · simp [Fab.queueCompletion, Fab.vf_onVf, hq]

/-! ### Exceptions -/

theorem Fab.cancelStream_keeps (f : Fab) (c k q met : Nat) :
    { f.cancelStream c k q met with clusters := [], dict := [], txns := [] } =
      { f with clusters := [], dict := [], txns := [] } := by
  unfold Fab.cancelStream
  split
  · dsimp only; split <;> split <;> split <;> rfl
  · rfl

theorem Fab.cancelAll_keeps (f : Fab) (c : Nat) :
    { f.cancelAll c with clusters := [], dict := [], txns := [] } = { f with clusters := [], dict := [], txns := [] } := by
  unfold Fab.cancelAll
  generalize (f.cluster c).streams = l
  induction l generalizing f with
  | nil => rfl
  | cons s l ih => rw [List.foldl_cons, ih, Fab.cancelStream_keeps]

/-- An exception changes clusters, the counts of cancelled segments and discarded units, what serves their streams and loads
not yet injected, and nothing else (R125, R126). -/
theorem Fab.take_rest (f : Fab) (c k : Nat) (x : Exc) :
    { f.take c k x with clusters := [], dict := [], txns := [], waiting := [] } =
      { f with clusters := [], dict := [], txns := [], waiting := [] } := by
  unfold Fab.take; dsimp only
  split
  · rfl
  · exact congrArg (fun g : Fab => { g with waiting := [] }) (Fab.cancelAll_keeps f c)

@[simp] theorem Fab.take_phase (f : Fab) (c k : Nat) (x : Exc) : (f.take c k x).phase = f.phase :=
  congrArg (·.phase) (Fab.take_rest f c k x)
@[simp] theorem Fab.take_cycle (f : Fab) (c k : Nat) (x : Exc) : (f.take c k x).cycle = f.cycle :=
  congrArg (·.cycle) (Fab.take_rest f c k x)
@[simp] theorem Fab.take_timeBase (f : Fab) (c k : Nat) (x : Exc) : (f.take c k x).timeBase = f.timeBase :=
  congrArg (·.timeBase) (Fab.take_rest f c k x)
@[simp] theorem Fab.take_tags (f : Fab) (c k : Nat) (x : Exc) : (f.take c k x).tags = f.tags :=
  congrArg (·.tags) (Fab.take_rest f c k x)
@[simp] theorem Fab.take_lineKey (f : Fab) (c k : Nat) (x : Exc) : (f.take c k x).lineKey = f.lineKey :=
  congrArg (·.lineKey) (Fab.take_rest f c k x)
@[simp] theorem Fab.take_badLines (f : Fab) (c k : Nat) (x : Exc) : (f.take c k x).badLines = f.badLines :=
  congrArg (·.badLines) (Fab.take_rest f c k x)
@[simp] theorem Fab.take_softLines (f : Fab) (c k : Nat) (x : Exc) : (f.take c k x).softLines = f.softLines :=
  congrArg (·.softLines) (Fab.take_rest f c k x)
@[simp] theorem Fab.take_wellFaults (f : Fab) (c k : Nat) (x : Exc) : (f.take c k x).wellFaults = f.wellFaults :=
  congrArg (·.wellFaults) (Fab.take_rest f c k x)
@[simp] theorem Fab.take_regionCtr (f : Fab) (c k : Nat) (x : Exc) : (f.take c k x).regionCtr = f.regionCtr :=
  congrArg (·.regionCtr) (Fab.take_rest f c k x)
@[simp] theorem Fab.take_packageCtr (f : Fab) (c k : Nat) (x : Exc) : (f.take c k x).packageCtr = f.packageCtr :=
  congrArg (·.packageCtr) (Fab.take_rest f c k x)
@[simp] theorem Fab.take_chans (f : Fab) (c k : Nat) (x : Exc) : (f.take c k x).chans = f.chans :=
  congrArg (·.chans) (Fab.take_rest f c k x)
@[simp] theorem Fab.take_nextTxn (f : Fab) (c k : Nat) (x : Exc) : (f.take c k x).nextTxn = f.nextTxn :=
  congrArg (·.nextTxn) (Fab.take_rest f c k x)
@[simp] theorem Fab.take_scopes (f : Fab) (c k : Nat) (x : Exc) : (f.take c k x).scopes = f.scopes :=
  congrArg (·.scopes) (Fab.take_rest f c k x)
@[simp] theorem Fab.take_inForce (f : Fab) (c k : Nat) (x : Exc) : (f.take c k x).inForce = f.inForce :=
  congrArg (·.inForce) (Fab.take_rest f c k x)
@[simp] theorem Fab.take_routes (f : Fab) (c k : Nat) (x : Exc) : (f.take c k x).routes = f.routes :=
  congrArg (·.routes) (Fab.take_rest f c k x)
@[simp] theorem Fab.take_routeBank (f : Fab) (c k : Nat) (x : Exc) : (f.take c k x).routeBank = f.routeBank :=
  congrArg (·.routeBank) (Fab.take_rest f c k x)
@[simp] theorem Fab.take_routeDraining (f : Fab) (c k : Nat) (x : Exc) : (f.take c k x).routeDraining = f.routeDraining :=
  congrArg (·.routeDraining) (Fab.take_rest f c k x)
@[simp] theorem Fab.take_oldRoutes (f : Fab) (c k : Nat) (x : Exc) : (f.take c k x).oldRoutes = f.oldRoutes :=
  congrArg (·.oldRoutes) (Fab.take_rest f c k x)
@[simp] theorem Fab.take_routeDrainEnds (f : Fab) (c k : Nat) (x : Exc) : (f.take c k x).routeDrainEnds = f.routeDrainEnds :=
  congrArg (·.routeDrainEnds) (Fab.take_rest f c k x)
@[simp] theorem Fab.take_launches (f : Fab) (c k : Nat) (x : Exc) : (f.take c k x).launches = f.launches :=
  congrArg (·.launches) (Fab.take_rest f c k x)
@[simp] theorem Fab.take_nextLaunch (f : Fab) (c k : Nat) (x : Exc) : (f.take c k x).nextLaunch = f.nextLaunch :=
  congrArg (·.nextLaunch) (Fab.take_rest f c k x)
@[simp] theorem Fab.take_vfs (f : Fab) (c k : Nat) (x : Exc) : (f.take c k x).vfs = f.vfs :=
  congrArg (·.vfs) (Fab.take_rest f c k x)
@[simp] theorem Fab.take_mailboxes (f : Fab) (c k : Nat) (x : Exc) : (f.take c k x).mailboxes = f.mailboxes :=
  congrArg (·.mailboxes) (Fab.take_rest f c k x)
@[simp] theorem Fab.take_batches (f : Fab) (c k : Nat) (x : Exc) : (f.take c k x).batches = f.batches :=
  congrArg (·.batches) (Fab.take_rest f c k x)
@[simp] theorem Fab.take_versionTop (f : Fab) (c k : Nat) (x : Exc) : (f.take c k x).versionTop = f.versionTop :=
  congrArg (·.versionTop) (Fab.take_rest f c k x)
@[simp] theorem Fab.take_versions (f : Fab) (c k : Nat) (x : Exc) : (f.take c k x).versions = f.versions :=
  congrArg (·.versions) (Fab.take_rest f c k x)
@[simp] theorem Fab.take_ductus (f : Fab) (c k : Nat) (x : Exc) : (f.take c k x).ductus = f.ductus :=
  congrArg (·.ductus) (Fab.take_rest f c k x)
@[simp] theorem Fab.take_steps (f : Fab) (c k : Nat) (x : Exc) : (f.take c k x).steps = f.steps :=
  congrArg (·.steps) (Fab.take_rest f c k x)
@[simp] theorem Fab.take_slots (f : Fab) (c k : Nat) (x : Exc) : (f.take c k x).slots = f.slots :=
  congrArg (·.slots) (Fab.take_rest f c k x)
@[simp] theorem Fab.take_colls (f : Fab) (c k : Nat) (x : Exc) : (f.take c k x).colls = f.colls :=
  congrArg (·.colls) (Fab.take_rest f c k x)
@[simp] theorem Fab.take_nextColl (f : Fab) (c k : Nat) (x : Exc) : (f.take c k x).nextColl = f.nextColl :=
  congrArg (·.nextColl) (Fab.take_rest f c k x)
@[simp] theorem Fab.take_treeSeq (f : Fab) (c k : Nat) (x : Exc) : (f.take c k x).treeSeq = f.treeSeq :=
  congrArg (·.treeSeq) (Fab.take_rest f c k x)
@[simp] theorem Fab.take_repeats (f : Fab) (c k : Nat) (x : Exc) : (f.take c k x).repeats = f.repeats :=
  congrArg (·.repeats) (Fab.take_rest f c k x)
@[simp] theorem Fab.take_nextRepeat (f : Fab) (c k : Nat) (x : Exc) : (f.take c k x).nextRepeat = f.nextRepeat :=
  congrArg (·.nextRepeat) (Fab.take_rest f c k x)
@[simp] theorem Fab.take_samplers (f : Fab) (c k : Nat) (x : Exc) : (f.take c k x).samplers = f.samplers :=
  congrArg (·.samplers) (Fab.take_rest f c k x)
@[simp] theorem Fab.take_flows (f : Fab) (c k : Nat) (x : Exc) : (f.take c k x).flows = f.flows :=
  congrArg (·.flows) (Fab.take_rest f c k x)
@[simp] theorem Fab.take_qps (f : Fab) (c k : Nat) (x : Exc) : (f.take c k x).qps = f.qps :=
  congrArg (·.qps) (Fab.take_rest f c k x)
@[simp] theorem Fab.take_netOut (f : Fab) (c k : Nat) (x : Exc) : (f.take c k x).netOut = f.netOut :=
  congrArg (·.netOut) (Fab.take_rest f c k x)
@[simp] theorem Fab.take_sas (f : Fab) (c k : Nat) (x : Exc) : (f.take c k x).sas = f.sas :=
  congrArg (·.sas) (Fab.take_rest f c k x)
@[simp] theorem Fab.take_badPackets (f : Fab) (c k : Nat) (x : Exc) : (f.take c k x).badPackets = f.badPackets :=
  congrArg (·.badPackets) (Fab.take_rest f c k x)
@[simp] theorem Fab.take_laneBad (f : Fab) (c k : Nat) (x : Exc) : (f.take c k x).laneBad = f.laneBad :=
  congrArg (·.laneBad) (Fab.take_rest f c k x)
@[simp] theorem Fab.take_portLanes (f : Fab) (c k : Nat) (x : Exc) : (f.take c k x).portLanes = f.portLanes :=
  congrArg (·.portLanes) (Fab.take_rest f c k x)
@[simp] theorem Fab.take_laserBad (f : Fab) (c k : Nat) (x : Exc) : (f.take c k x).laserBad = f.laserBad :=
  congrArg (·.laserBad) (Fab.take_rest f c k x)
@[simp] theorem Fab.take_linkReplays (f : Fab) (c k : Nat) (x : Exc) : (f.take c k x).linkReplays = f.linkReplays :=
  congrArg (·.linkReplays) (Fab.take_rest f c k x)
@[simp] theorem Fab.take_members (f : Fab) (c k : Nat) (x : Exc) : (f.take c k x).members = f.members :=
  congrArg (·.members) (Fab.take_rest f c k x)
@[simp] theorem Fab.take_epochChanges (f : Fab) (c k : Nat) (x : Exc) : (f.take c k x).epochChanges = f.epochChanges :=
  congrArg (·.epochChanges) (Fab.take_rest f c k x)
@[simp] theorem Fab.take_lossQueue (f : Fab) (c k : Nat) (x : Exc) : (f.take c k x).lossQueue = f.lossQueue :=
  congrArg (·.lossQueue) (Fab.take_rest f c k x)
@[simp] theorem Fab.take_memberSeq (f : Fab) (c k : Nat) (x : Exc) : (f.take c k x).memberSeq = f.memberSeq :=
  congrArg (·.memberSeq) (Fab.take_rest f c k x)
@[simp] theorem Fab.take_memberOut (f : Fab) (c k : Nat) (x : Exc) : (f.take c k x).memberOut = f.memberOut :=
  congrArg (·.memberOut) (Fab.take_rest f c k x)
@[simp] theorem Fab.take_memberOwners (f : Fab) (c k : Nat) (x : Exc) : (f.take c k x).memberOwners = f.memberOwners :=
  congrArg (·.memberOwners) (Fab.take_rest f c k x)
@[simp] theorem Fab.take_noivos (f : Fab) (c k : Nat) (x : Exc) : (f.take c k x).noivos = f.noivos :=
  congrArg (·.noivos) (Fab.take_rest f c k x)
@[simp] theorem Fab.take_sourceSeq (f : Fab) (c k : Nat) (x : Exc) : (f.take c k x).sourceSeq = f.sourceSeq :=
  congrArg (·.sourceSeq) (Fab.take_rest f c k x)
@[simp] theorem Fab.take_log (f : Fab) (c k : Nat) (x : Exc) : (f.take c k x).log = f.log :=
  congrArg (·.log) (Fab.take_rest f c k x)
@[simp] theorem Fab.take_subscribers (f : Fab) (c k : Nat) (x : Exc) : (f.take c k x).subscribers = f.subscribers :=
  congrArg (·.subscribers) (Fab.take_rest f c k x)
@[simp] theorem Fab.take_tenantPaths (f : Fab) (c k : Nat) (x : Exc) : (f.take c k x).tenantPaths = f.tenantPaths :=
  congrArg (·.tenantPaths) (Fab.take_rest f c k x)
@[simp] theorem Fab.take_agent (f : Fab) (c k : Nat) (x : Exc) : (f.take c k x).agent = f.agent :=
  congrArg (·.agent) (Fab.take_rest f c k x)
@[simp] theorem Fab.take_powerWindow (f : Fab) (c k : Nat) (x : Exc) : (f.take c k x).powerWindow = f.powerWindow :=
  congrArg (·.powerWindow) (Fab.take_rest f c k x)
@[simp] theorem Fab.take_budget (f : Fab) (c k : Nat) (x : Exc) : (f.take c k x).budget = f.budget :=
  congrArg (·.budget) (Fab.take_rest f c k x)
@[simp] theorem Fab.take_thermalCeiling (f : Fab) (c k : Nat) (x : Exc) : (f.take c k x).thermalCeiling = f.thermalCeiling :=
  congrArg (·.thermalCeiling) (Fab.take_rest f c k x)
@[simp] theorem Fab.take_clamped (f : Fab) (c k : Nat) (x : Exc) : (f.take c k x).clamped = f.clamped :=
  congrArg (·.clamped) (Fab.take_rest f c k x)
@[simp] theorem Fab.take_sprintHot (f : Fab) (c k : Nat) (x : Exc) : (f.take c k x).sprintHot = f.sprintHot :=
  congrArg (·.sprintHot) (Fab.take_rest f c k x)
@[simp] theorem Fab.take_junctionStop (f : Fab) (c k : Nat) (x : Exc) : (f.take c k x).junctionStop = f.junctionStop :=
  congrArg (·.junctionStop) (Fab.take_rest f c k x)
@[simp] theorem Fab.take_islands (f : Fab) (c k : Nat) (x : Exc) : (f.take c k x).islands = f.islands :=
  congrArg (·.islands) (Fab.take_rest f c k x)
@[simp] theorem Fab.take_pins (f : Fab) (c k : Nat) (x : Exc) : (f.take c k x).pins = f.pins :=
  congrArg (·.pins) (Fab.take_rest f c k x)
@[simp] theorem Fab.take_inPins (f : Fab) (c k : Nat) (x : Exc) : (f.take c k x).inPins = f.inPins :=
  congrArg (·.inPins) (Fab.take_rest f c k x)
@[simp] theorem Fab.take_retirements (f : Fab) (c k : Nat) (x : Exc) : (f.take c k x).retirements = f.retirements :=
  congrArg (·.retirements) (Fab.take_rest f c k x)
@[simp] theorem Fab.take_chanTimeouts (f : Fab) (c k : Nat) (x : Exc) : (f.take c k x).chanTimeouts = f.chanTimeouts :=
  congrArg (·.chanTimeouts) (Fab.take_rest f c k x)
@[simp] theorem Fab.take_chanTraining (f : Fab) (c k : Nat) (x : Exc) : (f.take c k x).chanTraining = f.chanTraining :=
  congrArg (·.chanTraining) (Fab.take_rest f c k x)
@[simp] theorem Fab.take_chanHour (f : Fab) (c k : Nat) (x : Exc) : (f.take c k x).chanHour = f.chanHour :=
  congrArg (·.chanHour) (Fab.take_rest f c k x)
@[simp] theorem Fab.take_clearing (f : Fab) (c k : Nat) (x : Exc) : (f.take c k x).clearing = f.clearing :=
  congrArg (·.clearing) (Fab.take_rest f c k x)
@[simp] theorem Fab.take_resetWaits (f : Fab) (c k : Nat) (x : Exc) : (f.take c k x).resetWaits = f.resetWaits :=
  congrArg (·.resetWaits) (Fab.take_rest f c k x)
@[simp] theorem Fab.take_ewsOutcome (f : Fab) (c k : Nat) (x : Exc) : (f.take c k x).ewsOutcome = f.ewsOutcome :=
  congrArg (·.ewsOutcome) (Fab.take_rest f c k x)
@[simp] theorem Fab.take_interrupts (f : Fab) (c k : Nat) (x : Exc) : (f.take c k x).interrupts = f.interrupts :=
  congrArg (·.interrupts) (Fab.take_rest f c k x)

/-- A cancelled stream leaves every other part of its cluster. -/
theorem Fab.cancelStream_cluster (f : Fab) (c k q met d : Nat) :
    ∃ l, (f.cancelStream c k q met).cluster d = { f.cluster d with streams := l } := by
  unfold Fab.cancelStream
  split
  · dsimp only
    have e : ∀ g : Fab, g.cluster = f.cluster → ∃ l, (g.onCluster c (fun cl => cl.onStream k q Stream.cancel)).cluster d =
        { f.cluster d with streams := l } := by
      intro g hg
      rw [Fab.cluster_onCluster]
      by_cases h : d = c
      · subst h; rw [if_pos rfl, hg]; exact ⟨_, rfl⟩
      · rw [if_neg h, hg]; exact ⟨_, rfl⟩
    split <;> split <;> split <;> exact e _ rfl
  · exact ⟨_, rfl⟩

theorem Fab.cancelAll_cluster (f : Fab) (c d : Nat) :
    ∃ l, (f.cancelAll c).cluster d = { f.cluster d with streams := l } := by
  unfold Fab.cancelAll
  generalize (f.cluster c).streams = ss
  induction ss generalizing f with
  | nil => exact ⟨_, rfl⟩
  | cons s ss ih =>
    rw [List.foldl_cons]
    obtain ⟨l, h⟩ := ih (f.cancelStream c s.strand s.handle)
    obtain ⟨l', h'⟩ := Fab.cancelStream_cluster f c s.strand s.handle 0 d
    rw [h, h']
    exact ⟨_, rfl⟩

/-- A fatal exception leaves its strand Faulted with the exception recorded, and its cluster terminating (R126). -/
theorem Fab.fatal_strand (f : Fab) (c k : Nat) (x : Exc) :
    (f.fatal c k x).strand c k = { (f.strand c k).record x with st := .faulted, waiting := none, busy := [], async := [] } ∧
    ((f.fatal c k x).cluster c).phase = .terminating := by
  obtain ⟨l, h⟩ := Fab.cancelAll_cluster f c c
  have hs : ((f.quell c).cluster c).strand k = f.strand c k := by
    change ((f.cancelAll c).cluster c).strand k = f.strand c k
    rw [h]; rfl
  constructor
  · rw [Fab.fatal, Fab.strand, Fab.cluster_onCluster, if_pos rfl, Cluster.terminate]
    dsimp only
    rw [Cluster.strand_onStrand, if_pos rfl, hs]
  · rw [Fab.fatal, Fab.cluster_onCluster, if_pos rfl]
    rfl

/-- A trappable exception of a Running or Blocked strand with a handler enters it (R125). -/
theorem Fab.take_handler (f : Fab) (c k : Nat) (x : Exc)
    (h : (x.cause.trappable && (f.strand c k).tvec != 0 && ((f.strand c k).st == .running || (f.strand c k).st == .blocked)) = true) :
    f.take c k x = f.onStrand c k (fun t => { t.record x with
      st := .trapped, pc := t.tvec, waiting := none, readyAt := f.cycle + 3 }) := by
  unfold Fab.take; dsimp only; rw [if_pos h]

/-- Any other exception is fatal (R125, R126). -/
theorem Fab.take_fatal (f : Fab) (c k : Nat) (x : Exc)
    (h : (x.cause.trappable && (f.strand c k).tvec != 0 && ((f.strand c k).st == .running || (f.strand c k).st == .blocked)) = false) :
    f.take c k x = f.fatal c k x := by
  unfold Fab.take; dsimp only; rw [h]; rfl

end Sys2Proof.Machine
end

