-- ==== Sys2Proof/Tests/Slice0.lean ====
section
/-! SUPPORT. The model's own tests: an ill-formed term for each check of well-formedness, and for each statement a
concrete state and operands that meet its hypotheses, most with what the command then does. -/

open Sys2Proof Sys2Proof.Machine Sys2Proof.Safety

set_option Elab.async false

namespace Sys2Proof.Tests

/-! ### Small states -/

/-- The state a command answers. -/
def after (c : Instr) (s : State) : State :=
  match exec c s with
  | .next t => t
  | _ => s

/-- An R-format word: opcode, rd, ra, rb, I, fn and immediate, under p0. -/
def rWord (op rd ra rb : Nat) (im : Bool) (fn imm : Nat) : Word :=
  BitVec.ofNat 64 (op * 2 ^ 56 + rd * 2 ^ 47 + ra * 2 ^ 42 + rb * 2 ^ 37 + (if im then 2 ^ 36 else 0) + fn * 2 ^ 32 + imm)

/-- A C-format word: opcode, rv, scope, counter, immediate. -/
def cWord (op rv scope ctr imm : Nat) : Word := BitVec.ofNat 64 (op * 2 ^ 56 + rv * 2 ^ 47 + scope * 2 ^ 45 + ctr * 2 ^ 32 + imm)

/-- An M-format word: opcode, tile register, base, m, w, k, scale register and the bits below. -/
def mWord (op th base m w k sx low : Nat) : Word :=
  BitVec.ofNat 64 (op * 2 ^ 56 + th * 2 ^ 48 + base * 2 ^ 40 + m * 2 ^ 31 + w * 2 ^ 24 + k * 2 ^ 16 + sx * 2 ^ 11 + low)

/-- A tile handle. -/
def handle (m : Fmt) (rows stride base : Nat) : Word := BitVec.ofNat 64 (fmtCode m * 2 ^ 58 + rows * 2 ^ 40 + stride * 2 ^ 24 + base)

/-- A running strand with a handler at 0x40. -/
def strand0 : Strand := { Strand.idleReset with st := .running, tvec := 0x40, s := [(1, 5), (2, 7)] }

/-- A running cluster with one instruction and one strand. -/
def cluster0 (w : Word) (t : Strand) : Cluster :=
  { Cluster.idleReset with phase := .running, launch := 1, imem := [w], strands := [(0, t)] }

/-- A device with some more state. -/
def device (f : Fab → Fab) : State := { State.reset with fab := f Fab.reset }

/-- A device that runs one cluster. -/
def onCluster (cl : Cluster) : State := device (fun f => { f with clusters := [(0, cl)] })

/-- A device whose cluster 0 is about to issue a word on strand 0. -/
def about (w : Word) (t : Strand := strand0) : State := onCluster (cluster0 w t)

/-- The issue of that word. -/
def on (w : Word) : Issue := ⟨0, 0, w⟩

/-- Strand 0 of cluster 0. -/
def lane (s : State) : Strand := s.fab.strand 0 0

/-! ### The block -/

/-- A state whose queue is not empty and one that idles. -/
theorem witness_step : step { State.reset with pending := [.coldReset] } = exec .coldReset State.reset ∧
    step State.reset = .next { State.reset with fab := { Fab.reset with cycle := 1 } } := by
  constructor <;> rfl

/-- A step that answers from a state whose memory is canonical. -/
theorem witness_step_kept : Memory.wf State.reset.mem = true ∧ step State.reset = .next (idle State.reset) :=
  ⟨by decide, rfl⟩

/-- A command outside the list of those that touch the security block, and one outside the list of those that need no firmware,
on a device that waits for its image. -/
theorem witness_security_and_phase : Claims.touchesSecurity .hourlyWindow = false ∧
    Claims.actsWithoutFirmware .hourlyWindow = false ∧ (device (fun f => { f with phase := .bootWait })).fab.phase ≠ .running := by
  decide

/-! ### A partition -/

/-- Partition 0 owns clusters 0 to 47 and Fine pair 0, granule 0 and 16 units of the first Inkwell. -/
def owned : Tbl Nat := [(0x211001, 0xB), (0xB10001, 0), (0xB10101, 0), (0xB10201, 0), (0xB11001, 16 * 65536)]

/-- A device with that partition and some more state. -/
def withOwner (f : Fab → Fab) : State := device (fun g => f { g with dict := owned })

/-- Bytes of an address on. -/
def bytesAt (s : State) (a n : Nat) : List Byte := (List.range n).map (fun i => Memory.read s.mem (a + i))

/-- The cells of a little-endian value of n bytes. -/
def cellsOf (a n v : Nat) : List Host.Cell := ((List.range n).map (fun i => (a + i, BitVec.ofNat 8 (v / 2 ^ (8 * i))))).filter (fun c => c.2 != 0)

/-- Partition 0 running, with a virtual function and some more state. -/
def running (g : Fab → Fab) (v : Vf) : State := device (fun f => g { f with dict := owned ++ [(0xB00101, 2)], vfs := [(0, v)] })

/-- An enabled ring of 64 entries. -/
def ring64 : Ring := { Ring.reset with enable := true }

/-- A function with submission ring 1 and its completion ring enabled. -/
def vf1 : Vf := { Vf.reset with sq := [(1, { ring64 with head := 63, doorbell := 2 })], cq := ring64 }

/-- An entry of partition 0 from ring 1. -/
def entry (op tag : Nat) (ws : List Nat) : Entry := ⟨0, 1, op, 0, tag, (List.range 7).map (fun i => ws.getD i 0), 0⟩

/-- Partition 0 running with that entry fetched and some more state. -/
def fetched (e : Entry) (g : Fab → Fab := id) : State := running g { vf1 with fetched := [e], openCmds := [(e, false)] }

/-- The queue of partition 0's function. -/
def answers (s : State) : List (Nat × Nat) := (s.fab.vf 0).queue.map (fun c => (c.opcode, c.status))

/-- A stream descriptor: direction, persistent, format, window, segments, base and segment table. -/
def streamDesc (out persistent : Bool) (m : Fmt) (kind window segs base table : Nat) : BitVec 512 :=
  BitVec.ofNat 512 ((if out then 2 ^ 63 else 0) + (if persistent then 2 ^ 62 else 0) + kind * 2 ^ 60 + fmtCode m * 2 ^ 54 + 3 * 2 ^ 52 +
    segs * 2 ^ 32 + window * 2 ^ 16 + base * 2 ^ 128 + table * 2 ^ 192)

/-- A segment: rows of units at an offset and a stride. -/
def segment (offset units rows stride : Nat) : BitVec 256 := BitVec.ofNat 256 (offset * 2 ^ 216 + units * 2 ^ 160 + rows * 2 ^ 144 + stride * 2 ^ 112)

/-- Sequence table at 0x100000000, folio table at 0x100001000, 4 entries each, entry size 2 for class 0. -/
def tables (f : Fab) : Fab := { f with
  inForce := [(0x702001, 0x100000000), (0x702101, 4), (0x702201, 0x100001000), (0x702301, 4), (0x703001, 2)] }

/-- A state with a sequence record 1 and a folio entry 3. -/
def withRecords (sq fo : Nat) (s : State) : State := { s with mem := cellsOf 0x100000040 64 sq ++ cellsOf 0x1000010C0 64 fo }

/-- A sequence record: committed length, attach, parked, moving, state, folios. -/
def seqRec (l attach parked moving st folios : Nat) : Nat :=
  l * 2 ^ 416 + attach * 2 ^ 368 + parked * 2 ^ 347 + moving * 2 ^ 343 + st * 2 ^ 341 + folios * 2 ^ 320

/-- A folio entry of sequence 1: address, expiry, tier; index 0, home 0, class 0. -/
def folioRec (a expiry tier : Nat) : Nat := a * 2 ^ 448 + expiry * 2 ^ 384 + 1 * 2 ^ 368 + tier * 2 ^ 327

/-- The state for a command on sequence 1 and folio 3. -/
def ledger (e : Entry) (sq fo : Nat) (g : Fab → Fab := id) : State := withRecords sq fo (fetched e (fun f => g (tables f)))

/-! ### Scribe instructions -/

/-- A word of each row of the table of scalar instructions. -/
def sWord (op : Nat) : Word :=
  if op = 0x1B ∨ op = 0x1C then rWord op 3 0 0 true 0 9
  else if op = 0x22 ∨ op = 0x24 then rWord op 3 1 0 false 0 0 else rWord op 3 1 2 false 0 0

theorem witness_scalar : ∀ row ∈ Claims.sRows, executes (about (sWord row.2.1)) (on (sWord row.2.1)) row.2.1 = true ∧
    (lane (after (row.1 (on (sWord row.2.1))) (about (sWord row.2.1)))).sreg 3 = row.2.2 (sWord row.2.1) strand0 := by
  decide +kernel

/-- R143: 5 + 7, 5 - 7 modulo 2^64, a shift by 7 of 5, minimum and maximum. -/
theorem test_scalar_values : (Claims.sRows.map (fun row => row.2.2 (sWord row.2.1) strand0)).take 11 =
    [12, 0xFFFFFFFFFFFFFFFE, 35, 5, 7, 2, 640, 0, 0, 5, 7] := by decide +kernel

/-- R143: a shift count is taken modulo 64, and ASR fills with the sign. -/
theorem test_shift_counts : (lane (after (.asr (on (rWord 0x18 3 1 0 true 0 65)))
    (about (rWord 0x18 3 1 0 true 0 65) { strand0 with s := [(1, 0x8000000000000000)] }))).sreg 3 = 0xC000000000000000 := by
  decide +kernel

/-- R145: LI sign-extends its immediate; LIH keeps the low half. -/
theorem test_li_lih : (lane (after (.li (on (rWord 0x1B 3 0 0 true 0 0xFFFFFFFF))) (about (rWord 0x1B 3 0 0 true 0 0xFFFFFFFF)))).sreg 3 =
      0xFFFFFFFFFFFFFFFF ∧
    (lane (after (.lih (on (rWord 0x1C 1 0 0 true 0 9))) (about (rWord 0x1C 1 0 0 true 0 9)))).sreg 1 = 0x900000005 := by
  decide +kernel

theorem witness_predicates : ∀ row ∈ Claims.pRows, ∀ fn, fn < 4 → ∀ d, d < 2 →
    let w := rWord row.2.1 d 1 2 false fn 0
    executes (about w) (on w) row.2.1 = true ∧ (lane (after (row.1 (on w)) (about w))).preg 0 = true := by decide +kernel

theorem witness_address : 
    (executes (about (rWord 0x20 3 1 2 false 0 0)) (on (rWord 0x20 3 1 2 false 0 0)) 0x20 = true ∧
      (lane (after (.aadd (on (rWord 0x20 3 1 2 false 0 0))) (about (rWord 0x20 3 1 2 false 0 0)))).areg 3 = 7) ∧
    (executes (about (rWord 0x21 3 1 0 false 0 0)) (on (rWord 0x21 3 1 0 false 0 0)) 0x21 = true ∧
      (lane (after (.amov (on (rWord 0x21 3 1 0 false 0 0))) (about (rWord 0x21 3 1 0 false 0 0)))).areg 3 = 5) ∧
    (executes (about (rWord 0x23 3 1 0 false 0 0)) (on (rWord 0x23 3 1 0 false 0 0)) 0x23 = true ∧
      (lane (after (.tset (on (rWord 0x23 3 1 0 false 0 0))) (about (rWord 0x23 3 1 0 false 0 0)))).treg 3 = 5) := by decide +kernel

/-- R87: the largest FP32 number doubled overflows. -/
def huge : Strand := { strand0 with s := [(1, 0x7F7FFFFF), (2, 0x7F7FFFFF)] }

theorem witness_float : (∀ fn, fn < 6 → executes (about (rWord 0x1E 3 1 (if fn = 5 then 0 else 2) false fn 0)) (on (rWord 0x1E 3 1 (if fn = 5 then 0 else 2) false fn 0)) 0x1E = true) ∧
    huge.flagTrap &&& (fopFn 0 (huge.sreg 1) ((huge.sreg 2).setWidth 32)).2.bits = 0 := by decide +kernel

theorem witness_float_trap : let t : Strand := { huge with flagTrap := 7 }
    let w := rWord 0x1E 3 1 2 false 0 0
    executes (about w t) (on w) 0x1E = true ∧ t.flagTrap &&& (fopFn 0 (t.sreg 1) ((t.sreg 2).setWidth 32)).2.bits ≠ 0 ∧
    t.st = .running ∧ t.tvec ≠ 0 ∧ (lane (after (.fop (on w)) (about w t))).cause = 0x12 ∧
    (lane (after (.fop (on w)) (about w t))).pc = 0x40 := by decide +kernel

theorem witness_branches :
    (executes (about (rWord 0x30 0 0 0 false 0 9)) (on (rWord 0x30 0 0 0 false 0 9)) 0x30 = true) ∧
    (executes (about (rWord 0x31 1 2 0 false 1 9)) (on (rWord 0x31 1 2 0 false 1 9)) 0x31 = true ∧
      condition 1 (strand0.sreg 1) (strand0.sreg 2) = true ∧
      (lane (after (.bcc (on (rWord 0x31 1 2 0 false 1 9))) (about (rWord 0x31 1 2 0 false 1 9)))).pc = 9) ∧
    (executes (about (rWord 0x31 1 2 0 false 0 9)) (on (rWord 0x31 1 2 0 false 0 9)) 0x31 = true ∧
      condition 0 (strand0.sreg 1) (strand0.sreg 2) = false) ∧
    (executes (about (rWord 0x32 1 0 0 false 0 9)) (on (rWord 0x32 1 0 0 false 0 9)) 0x32 = true ∧ strand0.sreg 1 ≠ 1) ∧
    (executes (about (rWord 0x32 1 0 0 false 0 9) { strand0 with s := [(1, 1)] }) (on (rWord 0x32 1 0 0 false 0 9)) 0x32 = true) ∧
    (executes (about (rWord 0x33 3 0 0 false 0 9)) (on (rWord 0x33 3 0 0 false 0 9)) 0x33 = true ∧
      (lane (after (.jal (on (rWord 0x33 3 0 0 false 0 9))) (about (rWord 0x33 3 0 0 false 0 9)))).sreg 3 = 1) ∧
    (executes (about (rWord 0x34 1 0 0 false 0 0)) (on (rWord 0x34 1 0 0 false 0 0)) 0x34 = true ∧
      (lane (after (.jr (on (rWord 0x34 1 0 0 false 0 0))) (about (rWord 0x34 1 0 0 false 0 0)))).pc = 5) := by decide +kernel

/-- A strand in its handler. -/
def inHandler : Strand := { strand0 with st := .trapped, epc := 6 }

/-- Cluster 0 about to issue a word on strand 0, while strand 1 stands at the same word. -/
def beside (w : Word) : State := onCluster { cluster0 w strand0 with strands := [(0, strand0), (1, strand0)] }

theorem witness_control :
    (executes (about 0) (on 0) 0x00 = true) ∧
    (executes (about (rWord 0x01 0 0 0 false 0 0)) (on (rWord 0x01 0 0 0 false 0 0)) 0x01 = true ∧
      (lane (after (.endStrand (on (rWord 0x01 0 0 0 false 0 0))) (about (rWord 0x01 0 0 0 false 0 0)))).st = .idle ∧
      ((after (.endStrand (on (rWord 0x01 0 0 0 false 0 0))) (about (rWord 0x01 0 0 0 false 0 0))).fab.cluster 0).phase = .idle) ∧
    (executes (beside (rWord 0x01 0 0 0 false 0 0)) (on (rWord 0x01 0 0 0 false 0 0)) 0x01 = true ∧
      (lane (after (.endStrand (on (rWord 0x01 0 0 0 false 0 0))) (beside (rWord 0x01 0 0 0 false 0 0)))).st = .ended) ∧
    (executes (about (rWord 0x02 0 0 0 false 0 0) inHandler) (on (rWord 0x02 0 0 0 false 0 0)) 0x02 = true ∧
      (lane (after (.eret (on (rWord 0x02 0 0 0 false 0 0))) (about (rWord 0x02 0 0 0 false 0 0) inHandler))).pc = 7) ∧
    (attempts (about (rWord 0x03 0 0 0 false 0 0xFFFF)) (on (rWord 0x03 0 0 0 false 0 0xFFFF)) 0x03 = true ∧
      (lane (after (.brk (on (rWord 0x03 0 0 0 false 0 0xFFFF))) (about (rWord 0x03 0 0 0 false 0 0xFFFF)))).einfo = 0xFFFF) ∧
    (attempts (about (rWord 0x03 0 0 0 false 0 1) inHandler) (on (rWord 0x03 0 0 0 false 0 1)) 0x03 = true ∧
      (lane (after (.brk (on (rWord 0x03 0 0 0 false 0 1))) (about (rWord 0x03 0 0 0 false 0 1) inHandler))).st = .faulted) ∧
    (attempts (about (rWord 0x03 0 0 0 false 0 1) { strand0 with tvec := 0 }) (on (rWord 0x03 0 0 0 false 0 1)) 0x03 = true) := by
  decide +kernel

theorem witness_system_registers :
    (∀ n, n ≤ 0x0E → let w := rWord 0x04 3 0 0 false 0 n
      executes (about w) (on w) 0x04 = true ∧ (lane (after (.sysr (on w)) (about w))).sreg 3 = Claims.sysValue (about w) (on w) (after (.sysr (on w)) (about w)).fab.cycle n) ∧
    (∀ n ∈ [0x07, 0x08, 0x09, 0x0D], executes (about (rWord 0x05 0 1 0 false 0 n)) (on (rWord 0x05 0 1 0 false 0 n)) 0x05 = true) ∧
    (lane (after (.sysw (on (rWord 0x05 0 1 0 false 0 7))) (about (rWord 0x05 0 1 0 false 0 7) { strand0 with s := [(1, 15)] }))).flags = 7 := by
  decide +kernel

/-- An annulled word of a row: its predicate p1 is false; SIGNAL has an immediate. -/
def annulledWord (op : Nat) : Word := BitVec.ofNat 64 (op * 2 ^ 56 + 2 ^ 53 +
  (if op = 0x40 then 1 else if op = 0x91 then 1 else if op = 0x1B ∨ op = 0x1C then 2 ^ 36 else if op = 0x05 then 7 else 0))

/-- The strand of an annulled word: ERET needs a handler. -/
def annulledStrand (op : Nat) : Strand := if op = 0x02 then inHandler else strand0

/-- A state on a Fine cluster. -/
def aboutFine (w : Word) (t : Strand) : State := device (fun f => { f with clusters := [(768, cluster0 w t)] })

theorem witness_annulled : ∀ row ∈ scribeRows, let w := annulledWord row.2
    let s := aboutFine w (annulledStrand row.2)
    annulled s ⟨768, 0, w⟩ row.2 = true ∧ Claims.legal s ⟨768, 0, w⟩ row.2 = true ∧
    (after (row.1 ⟨768, 0, w⟩) s).fab.strand 768 0 = { annulledStrand row.2 with pc := 1 } := by decide +kernel

/-- A reserved word of each row: bits below the operands, or fields no table gives a meaning. -/
def reservedWord (op : Nat) : Word := BitVec.ofNat 64 (op * 2 ^ 56 + 2 ^ 52 - 1)

theorem witness_illegal : ∀ row ∈ scribeRows, row.2 ≠ 0x10 → 
    let w := if (encOk (reservedWord row.2)) then BitVec.ofNat 64 (row.2 * 2 ^ 56 + 2 ^ 35 + 2 ^ 36 - 1) else reservedWord row.2
    presents (about w) (on w) row.2 = true ∧ encOk w = false ∧ (lane (after (row.1 (on w)) (about w))).cause = 1 ∧
    (lane (after (row.1 (on w)) (about w))).einfo = w := by decide +kernel

theorem witness_reserved_registers : ∀ row ∈ scribeRows, ∀ k ∈ Claims.narrowFields, k.1 = row.2 →
    let w := BitVec.ofNat 64 (k.1 * 2 ^ 56 + k.2.2.2 * 2 ^ k.2.2.1)
    presents (about w) (on w) row.2 = true ∧ fld w k.2.1 k.2.2.1 = k.2.2.2 ∧
    (lane (after (row.1 (on w)) (about w))).cause = 1 ∧ (lane (after (row.1 (on w)) (about w))).einfo = w := by decide +kernel

/-- A VOP word: function, dst, src1, src2, bc, sx. -/
def vWord (fn dst s1 s2 bc sx : Nat) : Word :=
  BitVec.ofNat 64 (0x60 * 2 ^ 56 + fn * 2 ^ 46 + dst * 2 ^ 41 + s1 * 2 ^ 36 + s2 * 2 ^ 31 + bc * 2 ^ 24 + 2 ^ 19 + sx * 2 ^ 14)

/-- A reserved VOP is presented, and its strand takes ILLEGAL with the word. -/
def vopIllegal (w : Word) : Bool := presents (about w) (on w) 0x60 && Claims.reservedVop w &&
  ((lane (after (.vop (on w)) (about w))).cause == 1 && (lane (after (.vop (on w)) (about w))).einfo == w)

theorem witness_reserved_vector : vopIllegal (vWord 0 1 2 0 1 0) = true ∧ vopIllegal (vWord 7 1 2 0 3 0) = true ∧
    vopIllegal (vWord 1 16 16 3 1 0) = true ∧ vopIllegal (vWord 6 23 16 3 2 0) = true := by decide +kernel

theorem witness_reserved_reductions : vopIllegal (vWord 0x20 1 16 0 0 0) = true ∧ vopIllegal (vWord 0x23 1 23 0 0 0) = true ∧
    vopIllegal (vWord 1 1 2 3 0 1) = true ∧ Claims.reservedVop (vWord 1 16 2 0x1F 3 1) = false ∧
    Claims.reservedVop (vWord 6 1 16 3 2 0) = false := by decide +kernel

theorem witness_illegal_by_state :
    (presents (about (rWord 0x02 0 0 0 false 0 0)) (on (rWord 0x02 0 0 0 false 0 0)) 0x02 = true ∧
      Claims.legal (about (rWord 0x02 0 0 0 false 0 0)) (on (rWord 0x02 0 0 0 false 0 0)) 0x02 = false) ∧
    Claims.legal (about (rWord 0x90 1 0 0 false 0 0)) (on (rWord 0x90 1 0 0 false 0 0)) 0x90 = false := by decide +kernel

/-! ### Operations of a cluster -/

/-- A strand with tiles: t1 BF16, t2 E4M3, t3 FP32, t4 MXFP6 and t0 no tile; s1 is 1.0 in FP32, s2 is 3. -/
def tiler : Strand := { strand0 with
  s := [(1, 0x3F800000), (2, 3)],
  t := [(1, handle .bf16 8 1 0x1000), (2, handle .e4m3 256 1 0x2000), (3, handle .fp32 4 4 0xF0000), (4, handle .mxE3m2 8 1 0)] }

/-- Cluster 0 with BF16 weights live: column 0 holds 2.0 in its first element. -/
def tileCluster (w : Word) : Cluster := { cluster0 w tiler with
  live := ⟨some .bf16, [(0, ⟨[0x00, 0x40] ++ List.replicate 62 0, 0⟩)]⟩ }

/-- That cluster with 1.5 in the first element of the tile at 0x1000 and a word to issue. -/
def tiles (w : Word) : State := { onCluster (tileCluster w) with mem := [⟨0x10001000, 0xC0⟩, ⟨0x10001001, 0x3F⟩] }

theorem witness_array_checks :
    (attempts (tiles (mWord 0x50 0 0 0 8 0 0 0)) (on (mWord 0x50 0 0 0 8 0 0 0)) 0x50 = true ∧ tileOf (tiler.treg 0) = none ∧
      (lane (after (.wload (on (mWord 0x50 0 0 0 8 0 0 0))) (tiles (mWord 0x50 0 0 0 8 0 0 0)))).cause = 2) ∧
    (∀ n ∈ [0, 65], attempts (tiles (mWord 0x50 1 0 0 n 0 0 0)) (on (mWord 0x50 1 0 0 n 0 0 0)) 0x50 = true ∧
      (tileOf (tiler.treg 1)).isSome ∧
      (lane (after (.wload (on (mWord 0x50 1 0 0 n 0 0 0))) (tiles (mWord 0x50 1 0 0 n 0 0 0)))).cause = 5) ∧
    (∀ bm ∈ [(0, 0), (0, 257), (255, 2)], attempts (tiles (mWord 0x53 0 bm.1 bm.2 0 0 0 0)) (on (mWord 0x53 0 bm.1 bm.2 0 0 0 0)) 0x53 = true ∧
      (lane (after (.aclr (on (mWord 0x53 0 bm.1 bm.2 0 0 0 0))) (tiles (mWord 0x53 0 bm.1 bm.2 0 0 0 0)))).einfo =
        BitVec.ofNat 64 (bm.1 * 65536 + bm.2)) ∧
    (let w := mWord 0x51 2 0 1 1 1 2 0
     attempts (tiles w) (on w) 0x51 = true ∧ mScale w tiler = 3 ∧ tileOf (tiler.treg 2) = some ⟨.e4m3, 256, 1, 0x2000⟩ ∧
     (tileCluster w).weightFmt false = some .bf16 ∧ dotLength .e4m3 .bf16 = none ∧
     (lane (after (.tmul (on w)) (tiles w))).cause = 7) ∧
    (∀ row ∈ [(mWord 0x51 1 0 1 1 1 3 0, ((.tmul : Issue → Instr), 0x51), (8 : Word)), (mWord 0x52 1 0 1 1 0 3 0, (.drain, 0x52), 0x80),
        (mWord 0x54 0 0 1 1 0 3 0, (.drainb, 0x54), 0x100000000)],
      let s := onCluster { tileCluster row.1 with strands := [(0, { tiler with s := [(3, row.2.2)] })] }
      attempts s (on row.1) row.2.1.2 = true ∧ (lane (after (row.2.1.1 (on row.1)) s)).cause = 1 ∧
      (lane (after (row.2.1.1 (on row.1)) s)).einfo = row.1) := by decide +kernel

/-- TMUL of one row, one column and one element, with scale 3, into row 255. -/
def oneByOne : TmulOp := { act := 0x1000, stride := 64, fmt := .bf16, base := 255, m := 1, w := 1, k := 1, e := 3, accumulate := false, swap := false, rp := false }

/-- The cluster of `tiles` with one operation in flight. -/
def flying (k : OpKind) (held : Bool := false) : State :=
  let cl := { tileCluster 0 with ops := [{ id := 4, strand := 0, epc := 9, kind := k, held := held, issued := 0, due := 9, late := false }], nextOp := 5 }
  { tiles 0 with fab := { Fab.reset with clusters := [(0, cl)] } }

/-- It with the weights it started on. -/
def started : TmulOp := { oneByOne with weights := (tileCluster 0).live }

/-- R57, R149: 1.5 times 2.0 times 2^3 is 24.0. -/
theorem witness_tile_multiply : (flying (.tmul started)).fab.phase = .running ∧
    ((flying (.tmul started)).fab.cluster 0).op? 4 = some { id := 4, strand := 0, epc := 9, kind := .tmul started, held := false, issued := 0, due := 9, late := false } ∧
    ((after (.tileMultiplyComplete ⟨0, 4⟩ []) (flying (.tmul started))).fab.cluster 0).acc.get 0 (64 * 255) = 0x41C00000 := by
  decide +kernel

theorem witness_weight_load : (let t := after (.weightLoadComplete ⟨0, 4⟩) (flying (.wload 0x1000 64 .bf16 1))
      (t.fab.cluster 0).shadow.fmt = some .bf16 ∧ ((t.fab.cluster 0).shadow.cols.find? 0).map (fun c => c.bytes.take 2) = some [0xC0, 0x3F] ∧
      (t.fab.cluster 0).shadow.cols.find? 1 = none ∧ (t.fab.cluster 0).live = (tileCluster 0).live ∧ (t.fab.cluster 0).ops = []) := by
  decide +kernel

theorem witness_hold_release :
    (((flying (.wload 0x1000 64 .bf16 1) true).fab.cluster 0).mustHold 0 4 (.wload 0x1000 64 .bf16 1) = false ∧
      (flying (.wload 0x1000 64 .bf16 1) true).fab.throttled ((flying (.wload 0x1000 64 .bf16 1) true).fab.cluster 0) (.wload 0x1000 64 .bf16 1) = false ∧
      (((after (.operationHoldRelease ⟨0, 4⟩) (flying (.wload 0x1000 64 .bf16 1) true)).fab.cluster 0).op? 4).map Op.held = some false) ∧
    (let s := fun k => device (fun f => { f with clusters := [(0, { tileCluster 0 with ops := [
        { id := 3, strand := 0, epc := 8, kind := k, held := false, issued := 0, due := 9, late := false },
        { id := 4, strand := 0, epc := 9, kind := .tmul { oneByOne with swap := true }, held := true, issued := 0, due := 9, late := false }] })] })
     let load := s (.wload 0x1000 64 .bf16 1)
     let multiply := s (.tmul { oneByOne with swap := true })
     (load.fab.cluster 0).mustHold 0 4 (.tmul { oneByOne with swap := true }) = true ∧ after (.operationHoldRelease ⟨0, 4⟩) load = load ∧
     (multiply.fab.cluster 0).mustHold 0 4 (.tmul { oneByOne with swap := true }) = false ∧
     (((after (.operationHoldRelease ⟨0, 4⟩) multiply).fab.cluster 0).op? 4).map Op.held = some false) := by
  decide +kernel

/-- Words that start an operation of the array, with what they name. -/
def starters : List (Word × Nat × (Issue → Instr) × OpKind) :=
  [(mWord 0x50 1 0 0 8 0 0 0, 0x50, .wload, .wload 0x1000 64 .bf16 8),
   (mWord 0x53 0 255 1 0 0 0 0, 0x53, .aclr, .aclr 255 1),
   (mWord 0x52 3 0 4 64 0 2 0x80, 0x52, .drain,
     .drain { addr := 0xF0000, stride := 256, fmt := .fp32, base := 0, m := 4, w := 64, e := 3, rp := false, z := true, got := none }),
   (mWord 0x54 0 0 256 64 0 2 0, 0x54, .drainb, .drainb 3 0 0 256 64 none),
   (mWord 0x51 1 255 1 1 32 2 0x600, 0x51, .tmul, .tmul { oneByOne with k := 32, accumulate := true, swap := true })]

theorem witness_starts : ∀ e ∈ starters,
    let s := if e.2.1 = 0x51 then device (fun f => { f with clusters := [(0, { tileCluster e.1 with shadow := ⟨some .bf16, []⟩ })] }) else tiles e.1
    executes s (on e.1) e.2.1 = true ∧ Claims.legal s (on e.1) e.2.1 = true ∧
    (s.fab.cluster 0).interlocked 0 e.2.2.2 = false ∧ (((after (e.2.2.1 (on e.1)) s).fab.cluster 0).ops.map Op.kind) = [Claims.begun (s.fab.cluster 0) e.2.2.2] ∧
    (lane (after (e.2.2.1 (on e.1)) s)).pc = 1 := by decide +kernel

theorem witness_start_operands : (tileOf (tiler.treg 1) = some ⟨.bf16, 8, 1, 0x1000⟩ ∧ (0x1000 + 7 * 64 + 64 ≤ 2 ^ 20)) ∧
    tileOf (tiler.treg 3) = some ⟨.fp32, 4, 4, 0xF0000⟩ ∧ drainFmt .fp32 = true ∧ drainRowBytes .fp32 64 = 256 ∧
    ({ tileCluster 0 with shadow := ⟨some .bf16, []⟩ }.weightFmt true = some .bf16) ∧ dotLength .bf16 .bf16 = some 32 := by
  decide +kernel

/-- VOP: dst t3, src1 t3, src2 the scalar s1, function ADD, 16 elements. -/
def vopWord (fn dst s1 s2 s3 bc n sx : Nat) : Word :=
  BitVec.ofNat 64 (0x60 * 2 ^ 56 + fn * 2 ^ 46 + dst * 2 ^ 41 + s1 * 2 ^ 36 + s2 * 2 ^ 31 + s3 * 2 ^ 26 + bc * 2 ^ 24 + n * 2 ^ 19 + sx * 2 ^ 14)

/-- Adds 1.0 to the first three elements of t3. -/
def addOne : VopOp := { fn := 1, dst := .tile 0xF0000 4 4 .fp32, src1 := .tile 0xF0000 4 4 .fp32, src2 := .scalar 0x3F800000, src3 := .unused,
                        bc := 3, count := 3, got1 := [], got2 := [], got3 := [] }

theorem witness_vop : (let w := vopWord 1 3 3 31 0 3 2 1
    executes (tiles w) (on w) 0x60 = true ∧ vopKind 0 w (tileCluster w) tiler = .ok (.vop addOne) ∧
    (tileCluster w).interlocked 0 (.vop addOne) = false ∧ ((OpKind.vop addOne).handles = []) ∧
    (((after (.vop (on w)) (tiles w)).fab.cluster 0).ops.map Op.kind) = [.vop addOne]) := by decide +kernel

/-- R180: 0.0 + 1.0 in three elements. -/
theorem witness_vop_complete : (let s := flying (.vop addOne)
    (s.fab.cluster 0).sliceHead 4 = true ∧ addOne.ready = true ∧ (s.fab.cluster 0).locked 4 addOne.dst.ranges = false ∧
    (let t := after (.vopComplete ⟨0, 4⟩) s
     (List.range 13).map (fun i => Memory.read t.mem (wellBase 0 + 0xF0000 + i)) = [0, 0, 0x80, 0x3F, 0, 0, 0x80, 0x3F, 0, 0, 0x80, 0x3F, 0] ∧
     (t.fab.cluster 0).ops = [])) := by decide +kernel

/-- Accumulator rows with 1.0 in rows 0 and 1 of column 0. -/
def withAcc (s : State) : State :=
  { s with fab := s.fab.onCluster 0 (fun cl => { cl with acc := [(0, 0x3F800000), (64, 0x3F800000)] }) }

theorem witness_drains :
    (let t := after (.drainComplete ⟨0, 4⟩) (withAcc (flying (.aclr 0 1)))
     (t.fab.cluster 0).acc.get 0 0 = 0x3F800000 ∧ (t.fab.cluster 0).ops = []) ∧
    (let d : DrainOp := { addr := 0xF0000, stride := 256, fmt := .fp32, base := 0, m := 1, w := 1, e := 3, rp := false, z := true,
                          got := some [(0, 0x3F800000)] }
     let s := withAcc (flying (.drain d))
     let cl := s.fab.cluster 0
     cl.locked 4 (OpKind.drain d).writes = false ∧ ((drainRun d d.e).getD 0 ([], [], .none)).1.length ≤ d.stride ∧
     (let t := after (.drainComplete ⟨0, 4⟩) s
      (List.range 4).map (fun i => Memory.read t.mem (wellBase 0 + 0xF0000 + i)) = [0, 0, 0, 0x41] ∧
      (t.fab.cluster 0).acc = cl.acc)) := by decide +kernel

/-! ### Counters, waits -/

/-- A strand with a store of its own in flight. -/
def storing (w : Word) : State := onCluster { cluster0 w strand0 with
  ops := [{ id := 4, strand := 0, epc := 9, kind := .store 0x100000000 1 0, held := false, issued := 0, due := 9, late := false }], nextOp := 5 }

theorem witness_signals : 
    (let w := cWord 0x40 0 0 31 0xFFFF
     executes (about w) (on w) 0x40 = true ∧ fCtr w < counterCount (fScope w) ∧ (cluster0 w strand0).writesPending 0 0 = false ∧
     (after (.signal (on w)) (about w)).fab.counter 0 0 31 = 0xFFFF ∧
     executes (storing w) (on w) 0x40 = true ∧ ((storing w).fab.cluster 0).writesPending 0 5 = true ∧
     (after (.signal (on w)) (storing w)).fab.counter 0 0 31 = 0) ∧
    (let w := cWord 0x41 1 2 63 0
     executes (about w) (on w) 0x41 = true ∧ fCtr w < counterCount (fScope w) ∧ executes (storing w) (on w) 0x41 = true ∧
     (after (.setCounter (on w)) (about w)).fab.counter 0 2 63 = 5) := by decide +kernel

/-- R118: a counter at its target, and one that has passed it by 2^31. -/
theorem witness_waits :
    (let w := cWord 0x42 1 0 3 0
     let s := fun v => device (fun f => { f with clusters := [(0, { cluster0 w strand0 with counters := [(3, v)] })] })
     executes (s 5) (on w) 0x42 = true ∧ (lane (after (.wait (on w)) (s 5))).pc = 1 ∧
     (lane (after (.wait (on w)) (s 4))).st = .blocked ∧ (lane (after (.wait (on w)) (s 0x80000004))).pc = 1 ∧
     (lane (after (.wait (on w)) (s 0x80000005))).st = .blocked) ∧
    (let w := cWord 0x43 1 1 15 0
     executes (about w) (on w) 0x43 = true ∧ fCtr w < counterCount (fScope w)) ∧
    (∀ row ∈ [((.signal : Issue → Instr), 0x40), (.setCounter, 0x41), (.wait, 0x42), (.cread, 0x43)],
      let w := cWord row.2 0 1 16 (if row.2 = 0x40 then 1 else 0)
      attempts (about w) (on w) row.2 = true ∧ counterCount (fScope w) ≤ fCtr w ∧
      (lane (after (row.1 (on w)) (about w))).einfo = 0x110) := by decide +kernel

theorem witness_fence : let w := rWord 0x06 0 0 0 false 0 0
    executes (about w) (on w) 0x06 = true ∧ (lane (after (.fence (on w)) (about w))).pc = 1 ∧
    executes (storing w) (on w) 0x06 = false ∧ (storing w).fab.illegal 0 0 w = false ∧ after (.fence (on w)) (storing w) = storing w := by decide +kernel

/-- A strand blocked on counter 3 at 5. -/
def blockedOn (v : W32) (limit : Word) (tvec : BitVec 16) : State :=
  device (fun f => { f with clusters := [(0, { cluster0 0 { strand0 with st := .blocked, waiting := some (.counter 0 3 5, 0), waitLimit := limit, tvec := tvec } with
    counters := [(3, v)] })] })

theorem witness_wakes : (lane (after (.counterWake 0 0) (blockedOn 5 0 0))).pc = 1 ∧ after (.counterWake 0 0) (blockedOn 4 0 0) = blockedOn 4 0 0 ∧
    after (.waitTimeout 0 0) (blockedOn 4 0 0) = blockedOn 4 0 0 ∧
    (lane (after (.waitTimeout 0 0) (blockedOn 4 9 0x40))).cause = 0x10 ∧ (lane (after (.waitTimeout 0 0) (blockedOn 4 9 0x40))).st = .trapped ∧
    (lane (after (.waitTimeout 0 0) (blockedOn 4 9 0))).st = .faulted := by decide +kernel

/-- A SIN on handle 2 in flight. -/
def sinFlying (late : Bool) : State := device (fun f => { f with clusters := [(0, { cluster0 0 { strand0 with waitLimit := 9 } with
  ops := [{ id := 4, strand := 0, epc := 9, kind := .sin 2 0 64 1 0, held := false, issued := 0, due := 9, late := late }], nextOp := 5 })] })

theorem witness_transfer_timeout : after (.transferWaitTimeout ⟨0, 4⟩) (sinFlying true) = sinFlying true ∧
    (lane (after (.transferWaitTimeout ⟨0, 4⟩) (sinFlying false))).einfo = 0x8002 ∧
    (lane (after (.transferWaitTimeout ⟨0, 4⟩) (sinFlying false))).epc = 9 := by decide +kernel

theorem witness_async : let s := about 0 { strand0 with async := [⟨.streamError, 3, 0xA0001⟩] }
    (lane s).st = .running ∧ (lane (after (.asyncExceptionTaken 0 0) s)).cause = 0x13 ∧
    (lane (after (.asyncExceptionTaken 0 0) s)).async = [] := by decide +kernel

/-! ### The issue rule -/

/-- Strands 0 and 1 of a cluster both ready in one cycle, strand 7 having issued last, with one more readiness for strand 0. -/
def twoReady (w : Word) (from0 : Nat) : State := onCluster { cluster0 w strand0 with
  strands := [(0, { strand0 with readyAt := from0 }), (1, strand0)], matrixFrom := 6 }

/-- Strand 0 goes before strand 1 in one cycle, and after it where its branch keeps it back; a tile multiply waits for the matrix
unit; the clock goes to the cycle of the issue. -/
theorem witness_turns : ((twoReady 0 0).fab.chosen 0 0 = some 0 ∧ (twoReady 0 0).fab.chosen 0 1 = none ∧
      (twoReady 0 0).fab.readyTime 0 1 = some 0 ∧ executes (twoReady 0 0) (on 0) 0 = true) ∧
    ((twoReady 0 3).fab.chosen 0 1 = some 0 ∧ (twoReady 0 3).fab.chosen 0 0 = none ∧ after (.nop (on 0)) (twoReady 0 3) = twoReady 0 3) ∧
    (let w := mWord 0x51 1 255 1 1 1 2 0
     let s := onCluster { tileCluster w with matrixFrom := 6 }
     s.fab.chosen 0 0 = some 6 ∧ s.fab.verdict 0 0 = .run ∧ (after (.tmul (on w)) s).fab.cycle = 6) := by decide +kernel

/-- A pending register, an earlier operation of the strand on the same rows, and a full unit keep an instruction back. -/
theorem witness_kept_back :
    (let w := rWord 0x10 3 1 2 false 0 0
     let s := about w { strand0 with busy := [.s 1] }
     s.fab.illegal 0 0 w = false ∧ (touches w).any (strandOf s (on w)).busy.contains = true ∧ after (.add (on w)) s = s) ∧
    (let w := mWord 0x50 1 0 0 8 0 0 0
     let d : DrainOp := { addr := 0x1000, stride := 256, fmt := .fp32, base := 0, m := 1, w := 1, e := 3, rp := false, z := true, got := none }
     let s := onCluster { tileCluster w with
       ops := [{ id := 4, strand := 0, epc := 9, kind := .drain d, held := false, issued := 0, due := 9, late := false }], nextOp := 5 }
     s.fab.kindAt 0 0 w = some (.ok (.wload 0x1000 64 .bf16 8)) ∧
     (s.fab.cluster 0).interlocked 0 (.wload 0x1000 64 .bf16 8) = true ∧ after (.wload (on w)) s = s) ∧
    (let w := mWord 0x51 1 0 1 1 1 2 0
     let s := onCluster { tileCluster w with
       ops := [{ id := 4, strand := 1, epc := 9, kind := .tmul oneByOne, held := true, issued := 0, due := 9, late := false }], nextOp := 5 }
     s.fab.unitBusy 0 0 w = true ∧
     s.fab.kindAt 0 0 w = some (.ok (.tmul { oneByOne with base := 0 })) ∧ after (.tmul (on w)) s = s) := by decide +kernel

/-! ### Streams -/

/-- A bound stream of strand 0 on handle 2: two units from 0x100000000 on. -/
def bound (out : Bool) : Stream :=
  { Stream.bound 0 0 2 7 5 (streamDesc out true .int8 0 4 1 0x100000000 0x100000800) with segs := some [segment 0 2 1 64] }

/-- A strand that holds it. -/
def holder (out : Bool) : Strand := { strand0 with q := [(2, boundHandle out 7)], s := [(1, 2), (2, 7)], a := [(1, 0x100000400)],
                                                   t := [(1, handle .int8 8 1 0x1000)] }

/-- Cluster 0 with that strand, a stream and a word to issue. -/
def streaming (w : Word) (st : Stream) (ops : List Op := []) : State := withOwner (fun f => { f with
  clusters := [(0, { cluster0 w (holder st.out) with streams := [st], ops := ops, nextOp := 5 })] })

/-- A transaction of partition 0 that stands at its memory. -/
def flight (id a n : Nat) (w : Option (List Byte)) (o : TxnFor) : Txn :=
  { id := id, tag := { partition := 0, bank := false, cls := if w.isSome then 1 else 0, sourceDie := 0, sourceUnit := 0, destDie := 16, seq := 0 },
    addr := a, len := n, more := [], write := w, origin := o, far := .package, heldPage := false, routeBank := false,
    route := [800, 896], behind := 896, ahead := [] }

/-- Cluster 0 with that stream, operations and one transaction in flight. -/
def landing (st : Stream) (t : Txn) (ops : List Op := []) : State :=
  { streaming 0 st ops with fab := { (streaming 0 st ops).fab with txns := [t], nextTxn := 9 } }

/-- It is the transaction's turn at a memory without errors, as the statements ask, and its partition may reach it. -/
def turnOk (s : State) (t : Txn) : Bool :=
  s.fab.txn? t.id == some t && !t.heldPage && s.fab.atTurn t && (s.fab.noivosOf t.tag.partition).running.isNone &&
  s.fab.badLines == [] && s.fab.softLines == [] && s.fab.answer t.tag t.ranges == .ok

/-- Nothing waits at a port, everything in flight has arrived, and no stream asks for anything, as the statements ask. -/
def portsQuiet (f : Fab) : Bool :=
  f.waiting == [] && f.txns.all (fun t => t.ahead == []) && f.clusters.all (fun e => e.2.streams.all (fun st =>
    ((st.segs != none || st.state != .armed) || st.fetching) && st.lines == [] && st.sendable == 0))

/-- BIND of stream 7, and a setup that has it. -/
def binding (live : Bool) (t : Strand) : State := withOwner (fun f => { f with
  scopes := [(0, { Scope.none with live := { Bank.none with
    streams := if live then [(7, streamDesc false true .int8 0 4 1 0x100000000 0x100000800)] else [] } })],
  clusters := [(0, { cluster0 (rWord 0x70 2 2 0 false 0 0) t with nextOp := 4 })] })

theorem witness_bind : let x := on (rWord 0x70 2 2 0 false 0 0)
    executes (binding true strand0) x 0x70 = true ∧ (cluster0 0 strand0).interlocked 0 (.bind 2 7) = false ∧
    ((binding true strand0).fab.scope ((binding true strand0).fab.clusterOwner 0)).live.streams.find? 7 ≠ none ∧
    (lane (after (.bind x) (binding true strand0))).busy = [.q 2] ∧
    attempts (binding false strand0) x 0x70 = true ∧ (lane (after (.bind x) (binding false strand0))).cause = 9 ∧
    (lane (after (.bind x) (binding false { strand0 with tvec := 0 }))).st = .faulted ∧
    (lane (after (.bind x) (binding false strand0))).einfo = 7 := by decide +kernel

theorem witness_bind_resolved : let x := on (rWord 0x70 2 2 0 false 0 0)
    let s := after (.bind x) (binding true strand0)
    ((s.fab.cluster 0).op? 4).map Op.kind = some (.bind 2 7) ∧ s.fab.streamBound 0 7 = false ∧ (s.fab.cluster 0).portUse = (0, 0) ∧
    s.fab.tableOk 0 (streamDesc false true .int8 0 4 1 0x100000000 0x100000800) = true ∧
    (lane (after (.bindResolved ⟨0, 4⟩) s)).qreg 2 = boundHandle false 7 ∧ (lane (after (.bindResolved ⟨0, 4⟩) s)).busy = [] ∧
    (let u := { s with fab := s.fab.onCluster 0 (fun cl => { cl with streams := [{ bound false with handle := 3 }] }) }
     u.fab.streamBound 0 7 = true ∧ u.fab.cycle < (u.fab.cluster 0).issueFrom ∧
     (lane (after (.bindResolved ⟨0, 4⟩) u)).qreg 2 = 0 ∧ (lane (after (.bindResolved ⟨0, 4⟩) u)).einfo = 0x70007) := by
  decide +kernel

/-- A stream with one unit landed. -/
def landed : Stream := { bound false with units := [(0, ⟨List.replicate 64 0x11, 0, 0x100000000, 0, false, false, false, 0⟩)] }

theorem witness_handles : handleValid ((holder false).qreg 2) = true ∧
    (let w := rWord 0x71 0 2 0 false 0 0
     executes (streaming w landed) (on w) 0x71 = true ∧ (lane (after (.unbind (on w)) (streaming w landed))).qreg 2 = 0) ∧
    (let w := rWord 0x77 3 2 0 false 0 0
     executes (streaming w landed) (on w) 0x77 = true ∧ (lane (after (.scred (on w)) (streaming w landed))).sreg 3 = 1) ∧
    (let w := rWord 0x74 0 2 3 false 0 0
     executes (streaming w landed) (on w) 0x74 = true ∧ ((holder false).sreg 3).toNat % 65536 ≤ landed.credits ∧
     (lane (after (.swait (on w)) (streaming w landed))).pc = 1) ∧
    (let w := rWord 0x74 0 2 1 false 0 0
     executes (streaming w landed) (on w) 0x74 = true ∧ landed.credits < ((holder false).sreg 1).toNat % 65536 ∧
     (lane (after (.swait (on w)) (streaming w landed))).st = .blocked) ∧
    (let w := rWord 0x75 0 2 1 false 0 0
     let spent := { bound false with state := .spent, cur := none, head := 2 }
     let s := streaming w spent
     executes s (on w) 0x75 = true ∧ descField spent.desc 62 62 = 1 ∧ s.fab.passOk (s.fab.clusterOwner 0) spent 0x100000400 = true ∧
     ((after (.sarm (on w)) s).fab.cluster 0).stream? 0 2 =
       some { spent with state := .armed, cur := some ⟨0x100000400, 2⟩, epc := 0, retired := 0 }) ∧
    (let w := rWord 0x76 0 2 0 false 0 0
     let s := { streaming w landed with fab := { (streaming w landed).fab with txns := [flight 3 0x100000040 64 none (.units 0 0 1 1)] } }
     executes s (on w) 0x76 = true ∧ landed.active = true ∧ (after (.scancel (on w)) s).fab.txns = [flight 3 0x100000040 64 none (.void 0)] ∧
     ((after (.scancel (on w)) s).fab.cluster 0).stream? 0 2 = some landed.cancel) := by decide +kernel

theorem witness_unit_lands : let x := flight 3 0x100000040 64 none (.units 0 0 1 1)
    let s := { landing (bound false) x with mem := [⟨0x100000041, 0x22⟩] }
    turnOk s x = true ∧ (bound false).placed 1 [] 0 = some ⟨[], 0, 0x100000040, 0x100000000, true, false, true, 0⟩ ∧
    (let t := after (.streamUnitLands ⟨0, 0, 2⟩ 1 [] .clean) s
     (((t.fab.cluster 0).stream? 0 2).bind (fun st => st.units.find? 1)).map (fun u => u.bytes.take 3) = some [0, 0x22, 0] ∧
     t.fab.txns.all (fun v => v.id != 3) = true) := by decide +kernel

/-- A SIN of two rows in flight. -/
def taking : Op := { id := 4, strand := 0, epc := 9, kind := .sin 2 0x1000 64 2 0, held := false, issued := 0, due := 9, late := false }

theorem witness_unit_lands_for_sin : let x := flight 3 0x100000000 64 none (.units 0 0 0 1)
    let st := { bound false with asked := 2 }
    let s := { landing st x [taking] with mem := [⟨0x100000001, 0x22⟩] }
    turnOk s x = true ∧ portsQuiet s.fab = true ∧ st.limit ≤ st.asked ∧
    st.placed 0 [] 0 = some ⟨[], 0, 0x100000000, 0x100000000, false, false, false, 0⟩ ∧
    (let t := after (.streamUnitLands ⟨0, 0, 2⟩ 0 [] .clean) s
     bytesAt t 0x10001000 3 = [0, 0x22, 0] ∧ (t.fab.cluster 0).op? 4 = some { taking with kind := .sin 2 0x1000 64 2 1 }) := by
  decide +kernel

theorem witness_out_write :
    let st := { bound true with head := 1, asked := 1, units := [(0, ⟨List.replicate 64 0x11, 0, 0x100000000, 0, false, false, false, 0⟩)] }
    let x := flight 3 0x100000000 64 (some (List.replicate 64 0x11)) (.out 0 0 0 1)
    let s := landing st x
    turnOk s x = true ∧ portsQuiet s.fab = true ∧ (lane s).over = false ∧
    (let t := after (.outWriteAccepted ⟨⟨0, 0, 2⟩, 3, .clean⟩) s
     bytesAt t 0x100000000 64 = List.replicate 64 0x11 ∧ t.mem.length = 64 ∧ ((t.fab.cluster 0).stream? 0 2).map Stream.written = some 1) := by
  decide +kernel

theorem witness_transfers : tileOf ((holder false).treg 1) = some ⟨.int8, 8, 1, 0x1000⟩ ∧
    (let w := rWord 0x72 1 2 1 false 0 0
     let s := streaming w (bound false)
     executes s (on w) 0x72 = true ∧ (bound false).units.find? 0 = none ∧ (s.fab.cluster 0).interlocked 0 (.sin 2 0x1000 64 2 0) = false ∧
     ((after (.sin (on w)) s).fab.cluster 0).ops.map Op.kind = [.sin 2 0x1000 64 2 0]) ∧
    (let w := rWord 0x73 1 2 1 false 0 0
     let st := { bound true with state := .spent, cur := none }
     let s := streaming w st
     executes s (on w) 0x73 = true ∧ st.credits = 0 ∧ ((after (.sout (on w)) s).fab.cluster 0).ops.map Op.kind = [.sout 2 0x1000 64 2 0]) ∧
    (∀ row ∈ [((.sin : Issue → Instr), 0x72), (.sout, 0x73), (.swait, 0x74), (.sarm, 0x75), (.scancel, 0x76), (.scred, 0x77)],
      attempts (about (rWord row.2 0 2 0 false 0 0)) (on (rWord row.2 0 2 0 false 0 0)) row.2 = true ∧
      (lane (after (row.1 (on (rWord row.2 0 2 0 false 0 0))) (about (rWord row.2 0 2 0 false 0 0)))).einfo = 18) := by decide +kernel

theorem witness_segment_batch : let st := { bound false with segs := none, fetching := true }
    let x := flight 3 0x100000800 32 none (.batch 0 0)
    let s := { landing st x with mem := [⟨0x100000812, 1⟩, ⟨0x100000814, 2⟩] }
    turnOk s x = true ∧ segOk .int8 false (segment 0 2 1 0) = true ∧
    s.fab.armOk 0 { st with segs := some [segment 0 2 1 0], fetching := false } 0x100000000 = true ∧
    (((after (.segmentBatchFetched ⟨0, 0, 2⟩ .clean) s).fab.cluster 0).stream? 0 2).map Stream.segs = some (some [segment 0 2 1 0]) := by
  decide +kernel

theorem witness_stream_ends :
    (let st := (bound false).cancel
     st.state = .cancelling ∧ ((after (.streamWindowReturn ⟨0, 0, 2⟩) (streaming 0 st)).fab.cluster 0).stream? 0 2 =
       some { st with state := .spent, cur := none, retired := 0 }) ∧
    (let st := { (bound false).cancel with pendingArm := some (0x100000400, 6) }
     (((after (.streamWindowReturn ⟨0, 0, 2⟩) (streaming 0 st)).fab.cluster 0).stream? 0 2).map (fun t => (t.state, t.cur, t.epc)) =
       some (.armed, some ⟨0x100000400, 0⟩, 6)) ∧
    (let x := flight 3 0x100000040 64 none (.void 0)
     let s := landing (bound false) x
     turnOk s x = true ∧ (after (.voidResponseDrop ⟨0, 3, .clean⟩) s).fab.txns.all (fun v => v.id != 3) = true ∧
     (after (.voidResponseDrop ⟨0, 3, .clean⟩) s).fab.dget 0x3C32 1 = 1) ∧
    (let st := { bound false with desc := streamDesc false true .int8 1 4 1 0x100000000 0x100000800, asked := 2 }
     let x := { flight 3 0x100000000 64 none (.units 0 0 0 2) with far := .host }
     let s := { landing st x with fab := (landing st x).fab.onCluster 0 (fun cl => { cl with issueFrom := 1 }) }
     s.fab.txn? 3 = some x ∧ s.fab.stalled x = false ∧
     ((after (.endpointDown ⟨⟨0, 0, 2⟩, 3⟩) s).fab.cluster 0).stream? 0 2 = some st.cancel ∧
     (lane (after (.endpointDown ⟨⟨0, 0, 2⟩, 3⟩) s)).einfo = 0xA0007 ∧ (lane (after (.endpointDown ⟨⟨0, 0, 2⟩, 3⟩) s)).cause = 0x13) := by decide +kernel

/-! ### Loads, stores and transactions -/

/-- A strand with an address in a1. -/
def pointing (a : Word) : Strand := { strand0 with s := [(1, 0x1122334455667788), (2, 7)], a := [(1, a)] }

/-- Cluster 0 of partition 0 about to issue a word with that strand. -/
def accessing (w : Word) (a : Word) : State := withOwner (fun f => { f with clusters := [(0, cluster0 w (pointing a))] })

theorem witness_well_access :
    (∀ fn, fn < 7 → let w := rWord 0x78 3 1 0 false fn 8
      executes (accessing w 0xFFFF0) (on w) 0x78 = true ∧ (accessing w 0xFFFF0).fab.locate (some 0) 0xFFFF8 = .well 0 0xFFFF8) ∧
    (let w := rWord 0x78 3 1 0 false 4 0
     (lane (after (.ld (on w)) { accessing w 0 with mem := [⟨0x10000000, 0x80⟩] })).sreg 3 = 0xFFFFFFFFFFFFFF80) ∧
    (let w := rWord 0x79 0 1 1 false 3 0
     executes (accessing w 0x10000008) (on w) 0x79 = true ∧ (accessing w 0x10000008).fab.locate (some 0) 0x10000008 = .well 0 8 ∧
     bytesAt (after (.st (on w)) (accessing w 0x10000008)) 0x10000008 8 = [0x88, 0x77, 0x66, 0x55, 0x44, 0x33, 0x22, 0x11]) := by
  decide +kernel

theorem witness_addr_range : (let w := rWord 0x78 3 1 0 false 1 0
     attempts (accessing w 0x10000001) (on w) 0x78 = true ∧ (0x10000001 % 2 ≠ 0) ∧
     (lane (after (.ld (on w)) (accessing w 0x10000001))).cause = 8 ∧ (lane (after (.ld (on w)) (accessing w 0x10000001))).einfo = 0x10000001) ∧
    (let w := rWord 0x79 0 1 1 false 1 0
     attempts (accessing w 0x200000) (on w) 0x79 = true ∧ (accessing w 0x200000).fab.locate (some 0) 0x200000 = .outside ∧
     (lane (after (.st (on w)) (accessing w 0x200000))).cause = 8) := by decide +kernel

theorem witness_transaction_sent :
    (let w := rWord 0x78 3 1 0 false 3 0
     let s := accessing w 0x100FFFFF8
     executes s (on w) 0x78 = true ∧ s.fab.locate (some 0) 0x100FFFFF8 = .inkwell 0 0xFFFFF8 ∧ s.fab.inkwellOwner 0 15 = s.fab.clusterOwner 0 ∧
     portsQuiet s.fab = true ∧
     s.fab.routeOf 0 .package 0x100FFFFF8 = some [800, 896] ∧ (lane (after (.ld (on w)) s)).busy = [.s 3] ∧ (after (.ld (on w)) s).fab.txns.map Txn.addr = [0x100FFFFF8]) ∧
    (let w := rWord 0x79 0 1 1 false 0 0
     let s := accessing w 0x100000000
     executes s (on w) 0x79 = true ∧ (after (.st (on w)) s).fab.txns.map Txn.write = [some [0x88]]) := by decide +kernel

/-- A store and a load of cluster 0, and the state in which the one transaction given is in flight. -/
def accesses (t : Txn) : State := { withOwner (fun f => { f with
    txns := [t], nextTxn := 9,
    clusters := [(0, { cluster0 0 { strand0 with busy := [.s 3] } with
      ops := [{ id := 4, strand := 0, epc := 9, kind := .load 3 0x100000000 2 true, held := false, issued := 0, due := 9, late := false },
        { id := 5, strand := 0, epc := 9, kind := .store t.addr 2 0x201, held := false, issued := 0, due := 9, late := false }], nextOp := 6 })] }) with
  mem := [⟨0x100000001, 0x80⟩] }

theorem witness_transactions : (∀ a ∈ [0x100000010, 0x10000000000], let x := flight 3 a 2 (some [1, 2]) (.op 0 5)
      turnOk (accesses x) x = true ∧ portsQuiet (accesses x).fab = true ∧
      bytesAt (after (.memoryTransaction 3 .clean) (accesses x)) a 3 = [1, 2, 0]) ∧
    (let x := flight 3 0x100000000 2 none (.op 0 4)
     turnOk (accesses x) x = true ∧ (lane (after (.memoryTransaction 3 .clean) (accesses x))).sreg 3 = 0xFFFFFFFFFFFF8000 ∧
     (lane (after (.memoryTransaction 3 .clean) (accesses x))).busy = []) := by decide +kernel

theorem witness_firewall : ∀ a ∈ [0x101000000, 0x10200000000], let x := flight 3 a 2 (some [1, 2]) (.op 0 5)
    let s := accesses x
    s.fab.txn? 3 = some x ∧ s.fab.pageHeld 0 a = false ∧ s.fab.atTurn x = true ∧ s.fab.placeOwner (s.fab.locate none a) ≠ 0 ∧
    (after (.memoryTransaction 3 .clean) s).mem = s.mem ∧ (after (.memoryTransaction 3 .clean) s).fab.txns = [] := by decide +kernel

/-! ### Rings and mailboxes -/

theorem witness_doorbells : Claims.hostUp (running id vf1) = true ∧ (vf1.ring 1).enable = true ∧ (vf1.ring 0).enable = false ∧
    (((after (.sqTailDoorbell 0 1 63) (running id vf1)).fab.vf 0).ring 1).doorbell = 63 ∧
    (((after (.sqTailDoorbell 0 1 64) (running id vf1)).fab.vf 0).ring 1).enable = false ∧
    ((after (.sqTailDoorbell 0 1 64) (running id vf1)).fab.vf 0).errors = 2 ∧
    (after (.sqTailDoorbell 0 0 1) (running id vf1)).fab.vf 0 = vf1 ∧
    ((after (.cqHeadDoorbell 0 0x8000003F) (running id vf1)).fab.vf 0).cq.doorbell = 63 ∧
    ((after (.cqHeadDoorbell 0 0x8000003F) (running id vf1)).fab.vf 0).msixArmed = true := by decide +kernel

theorem witness_ring_registers : (((after (.ringRegisterWrite 0 1 .base 9) (running id vf1)).fab.vf 0).ring 1).base = 0 ∧
    (((after (.ringRegisterWrite 0 0 .base 0x9FFF) (running id vf1)).fab.vf 0).ring 0).base = 0x9000 ∧
    (((after (.ringRegisterWrite 0 0 .sizeExponent 16) (running id vf1)).fab.vf 0).ring 0).sizeExp = 16 ∧
    (((after (.ringRegisterWrite 0 0 .sizeExponent 17) (running id vf1)).fab.vf 0).ring 0).sizeExp = 6 ∧
    (((after (.ringRegisterWrite 0 0 .enable 1) (running id { vf1 with errors := 1 })).fab.vf 0).ring 0).enable = true ∧
    ((after (.ringRegisterWrite 0 0 .enable 1) (running id { vf1 with errors := 1 })).fab.vf 0).errors = 0 ∧
    (((after (.ringRegisterWrite 0 1 .enable 0) (running id vf1)).fab.vf 0).ring 1).enable = false := by decide +kernel

theorem witness_host_window : ((after (.hostWindowTableWrite 0 15 0x1000 0x2000 3 0) (running id vf1)).fab.scope 0).shadow.hostWindows =
    [(15, 0x1000, 0x2000, 3)] := by decide +kernel

/-- The bits of a submission entry: opcode, tag and operand words. -/
def entryBits (op tag : Nat) (ws : List Nat) : BitVec 512 :=
  BitVec.ofNat 512 (op * 2 ^ 504 + tag * 2 ^ 448 + ((List.range 7).map (fun i => ws.getD i 0 * 2 ^ (384 - 64 * i))).sum)

theorem witness_fetch : (running id vf1).fab.fetches 0 = true ∧ ((running id vf1).fab.vf 0).next = some 1 ∧
    (running id vf1).fab.badEntry (entryOf 0 1 0 (entryBits 0x07 9 [63])) = false ∧
    ((after (.submissionFetch 0 (entryBits 0x07 9 [63])) (running id vf1)).fab.vf 0).fetched = [⟨0, 1, 0x07, 0, 9, [63, 0, 0, 0, 0, 0, 0], 0⟩] ∧
    (((after (.submissionFetch 0 (entryBits 0x07 9 [63])) (running id vf1)).fab.vf 0).ring 1).head = 0 ∧
    (running id vf1).fab.badEntry (entryOf 0 1 0 (entryBits 0x07 9 [64])) = true ∧
    ((after (.submissionFetch 0 (entryBits 0x07 9 [64])) (running id vf1)).fab.vf 0).queue = [⟨0x07, 3, 9, 0⟩] := by decide +kernel

theorem witness_completion_write : let v := { vf1 with cq := { ring64 with head := 63, doorbell := 5 }, queue := [⟨7, 0, 9, 0⟩], msixArmed := true }
    (let t := after (.completionWrite 0) (running id v)
     (t.fab.vf 0).written = [(63, true, ⟨7, 0, 9, 0⟩)] ∧ (t.fab.vf 0).cq.head = 0 ∧ (t.fab.vf 0).cq.phase = false ∧ t.fab.interrupts = [(1, 0)]) ∧
    after (.completionWrite 0) (running id { v with cq := { v.cq with doorbell := 0 } }) = running id { v with cq := { v.cq with doorbell := 0 } } ∧
    after (.completionWrite 0) (running id { v with queue := [] }) = running id { v with queue := [] } := by decide +kernel

/-- A mailbox of partition 0 with a message of the VF. -/
def mailed (m : Nat) : State := running (fun f => { f with mailboxes := [(m, { Mailbox.empty with slot := some (.vf, f.stamp .vf 0, 5), control := [(1, ⟨1, false⟩)] })] }) vf1

theorem witness_mailboxes : (∀ m ∈ [2, 63], (after (.mailboxSend .vf 0 m 5) (running id vf1)).fab.mailbox 0 m =
      { Mailbox.empty with slot := some (.vf, (running id vf1).fab.stamp .vf 0, 5), control := [(1, ⟨1, false⟩)] } ∧
      ((mailed m).fab.mailbox 0 m).holds .vf = true ∧
      (((after (.mailboxSend .vf 0 m 6) (mailed m)).fab.mailbox 0 m).ctl .vf).ignored = true ∧
      ((after (.mailboxRetract .vf 0 m) (mailed m)).fab.mailbox 0 m).slot = none ∧
      ((after (.mailboxTake ((mailed m).fab.receiver 0 m) 0 m) (mailed m)).fab.mailbox 0 m).slot = none ∧
      (((after (.mailboxTake ((mailed m).fab.receiver 0 m) 0 m) (mailed m)).fab.mailbox 0 m).ctl .vf).state = 2) := by decide +kernel

/-! ### Ring commands -/

theorem witness_counters : 
    (Claims.front (fetched (entry 0 9 [])) (entry 0 9 []) 0x00 = true ∧ answers (after (.nopCommand (entry 0 9 [])) (fetched (entry 0 9 []))) = [(0, 0)]) ∧
    (Claims.front (fetched (entry 7 9 [63])) (entry 7 9 [63]) 0x07 = true ∧
      ((after (.counterRead (entry 7 9 [63])) (fetched (entry 7 9 [63]) (fun f => { f with packageCtr := [(63, 8)] }))).fab.vf 0).queue = [⟨7, 0, 9, 8⟩]) ∧
    (Claims.front (fetched (entry 5 9 [63, 0xFFFF])) (entry 5 9 [63, 0xFFFF]) 0x05 = true ∧
      (after (.counterSignal (entry 5 9 [63, 0xFFFF])) (fetched (entry 5 9 [63, 0xFFFF]))).fab.packageCtr.get 0 63 = 0xFFFF) ∧
    (Claims.front (fetched (entry 5 9 [63, 0])) (entry 5 9 [63, 0]) 0x05 = true ∧
      answers (after (.counterSignal (entry 5 9 [63, 0])) (fetched (entry 5 9 [63, 0]))) = [(5, 3)]) ∧
    (Claims.front (fetched (entry 6 9 [63, 7])) (entry 6 9 [63, 7]) 0x06 = true ∧
      (after (.counterSet (entry 6 9 [63, 7])) (fetched (entry 6 9 [63, 7]))).fab.packageCtr.get 0 63 = 7) := by decide +kernel

/-! ### Launches -/

/-- The header of an image of one word for strand 0, at 0x100000000. -/
def imageBytes : List Host.Cell :=
  [(0x100000000, 0x49), (0x100000001, 0x52), (0x100000002, 0x43), (0x100000003, 0x53), (0x100000004, 1), (0x100000007, 1), (0x100000008, 1),
   (0x100000047, 0x01)]

/-- LAUNCH of that image on cluster 5. -/
def launchEntry : Entry := entry 1 9 [0x100000000, 0x5000, 0x5080, 0]

/-- Partition 0 with a host window for the side blocks. -/
def launching (g : Fab → Fab := id) : State := { fetched launchEntry (fun f => g { f with
  scopes := [(0, { Scope.none with live := { Bank.none with hostWindows := [(0, 0x5000, 0x1000, 1)] } })] }) with mem := imageBytes }

/-- The launch as it waits. -/
def waitingLaunch : Launch := ((Entry.launch launchEntry [] [5] [] []).withHeader (leNat (bytesAt (launching) 0x100000000 64)))

theorem witness_launch : Claims.front launching launchEntry 0x01 = true ∧ launching.fab.dget 0xB001 1 = 2 ∧ launching.fab.dget 0x3030 1 = 0 ∧
    launching.fab.inHostWindow 0 0x5080 128 false = true ∧ (Entry.launch launchEntry [] [5] [] []).clusters = [5] ∧
    (after (.launch launchEntry [] [5] [] []) launching).fab.launches = [{ waitingLaunch with phase := .waiting }] ∧
    answers (after (.launch launchEntry [] [400] [] []) launching) = [(1, 0x05)] ∧
    answers (after (.launch launchEntry [] [5] [] []) (launching (fun f => f.dset 0x3030 1 1))) = [(1, 0x0A)] ∧
    answers (after (.launch launchEntry [] [5] [] []) (launching (fun f => f.dset 0xB001 1 3))) = [(1, 0x0B)] := by decide +kernel

theorem witness_launch_checks : let g := fun c => { launching.fab with launches := [Entry.launch launchEntry [] [c] [] []] }
    (match (({ W.of launching with fab := g 5 } : W).checkLaunch (Entry.launch launchEntry [] [5] [] [])).2 with | .ok l => l == waitingLaunch | _ => false) = true ∧
    (match (({ W.of launching with fab := g 400 } : W).checkLaunch (Entry.launch launchEntry [] [400] [] [])).2 with
      | .error st => st == .notOwned | _ => false) = true := by decide +kernel

/-- A CANCEL of tag 9 at the front, with launches. -/
def cancelling (l : List Launch) (cl : Cluster) : State := running (fun f => { f with launches := l, clusters := [(5, cl)] })
  { vf1 with fetched := [entry 2 10 [9]], openCmds := if l = [] then [(entry 2 10 [9], false)] else [(launchEntry, false), (entry 2 10 [9], false)] }

theorem witness_cancel :
    (Claims.front (cancelling [] .idleReset) (entry 2 10 [9]) 0x02 = true ∧
      answers (after (.cancel (entry 2 10 [9])) (cancelling [] .idleReset)) = [(2, 0x0D)]) ∧
    (let l := { waitingLaunch with phase := .waiting }
     Claims.front (cancelling [l] .idleReset) (entry 2 10 [9]) 0x02 = true ∧
     answers (after (.cancel (entry 2 10 [9])) (cancelling [l] .idleReset)) = [(1, 2), (2, 0)] ∧
     (after (.cancel (entry 2 10 [9])) (cancelling [l] .idleReset)).fab.launches = []) ∧
    (let l := { waitingLaunch with phase := .running }
     let s := cancelling [l] (cluster0 0 strand0)
     Claims.front s (entry 2 10 [9]) 0x02 = true ∧ ((after (.cancel (entry 2 10 [9])) s).fab.cluster 5).phase = .terminating ∧
     (after (.cancel (entry 2 10 [9])) s).fab.launches = [{ l with phase := .aborting, cancels := [(10, 0)] }] ∧
     answers (after (.cancel (entry 2 10 [9])) s) = []) := by decide +kernel

/-- The launch in some phase on cluster 5. -/
def launched (ph : LaunchPhase) (cl : Cluster) : State := { running (fun f => { f with launches := [{ waitingLaunch with phase := ph, id := 3, digest := 4 }], clusters := [(5, cl)] })
  { vf1 with openCmds := [(launchEntry, false)] } with mem := imageBytes }

theorem witness_admit : let s := launched .waiting .idleReset
    s.fab.headLaunch 0 = some { waitingLaunch with phase := .waiting, id := 3, digest := 4 } ∧ s.fab.served 1 = true ∧ s.fab.ewsGraced = false ∧
    (∀ c ∈ [5], (s.fab.cluster c).phase = .idle) ∧ s.fab.recheck { waitingLaunch with phase := .waiting } = none ∧
    (W.rubricReach 0 [(0x100000000, 72, false)] (W.of s)).2 = .ok ∧
    ((after (.launchAdmit 0) s).fab.cluster 5).phase = .loading ∧ (after (.launchAdmit 0) s).fab.launches.map Launch.id = [1] := by decide +kernel

theorem witness_image_load : let s := launched .loading { Cluster.idleReset with phase := .loading }
    s.fab.launchOn 5 = some { waitingLaunch with phase := .loading, id := 3, digest := 4 } ∧ (s.fab.cluster 5).imemImage ≠ some (4, 0) ∧
    s.fab.halts 5 = false ∧ s.fab.resetWaits = [] ∧ ((W.of s).access (fun d => s.fab.clusterTag 5 d false) 0x100000000 72 false).2 = .ok ∧
    (let n := (after (.imageLoadComplete 5) s).fab.cluster 5
     n.phase = .running ∧ n.imem = [0x0100000000000000] ∧ (n.strand 0).st = .running ∧ (n.strand 1).st = .idle ∧ n.launch = 3) := by decide +kernel

theorem witness_launch_end : let s := launched .running (cluster0 0 { strand0 with st := .ended })
    s.fab.finished 5 = true ∧ s.fab.launchOn 5 = some { waitingLaunch with phase := .running, id := 3, digest := 4 } ∧
    waitingLaunch.clusters = [5] ∧ waitingLaunch.partition = 0 ∧
    (s.fab.vf 0).ordered = [] ∧ (s.fab.vf 0).openCmds.find? (isOpen 1 9 0) = some (launchEntry, false) ∧
    answers (after (.launchEnd 0 3) s) = [(1, 0)] ∧ ((after (.launchEnd 0 3) s).fab.cluster 5).phase = .idle := by decide +kernel

theorem witness_termination : let s := launched .running { cluster0 0 strand0 with phase := .terminating, fatal := some (2, ⟨.brk, 7, 8⟩) }
    let t := after (.terminationReport 5) s
    (s.fab.launchOn 5).isSome = true ∧ s.fab.clusterOwner 5 = 0 ∧ waitingLaunch.clusters = [5] ∧ t.fab.launches.map Launch.fault = [some (5, 2, ⟨.brk, 7, 8⟩)] ∧
    t.fab.launches.map Launch.phase = [.aborting] ∧ t.fab.dget 0x4010 6 = 1 ∧ (t.fab.cluster 5).phase = .terminating := by
  decide +kernel

theorem witness_termination_done : ∀ b,
    let s := launched .aborting { cluster0 0 strand0 with phase := .terminating, nibBad := b, fatal := some (2, ⟨.brk, 7, 8⟩) }
    let t := after (.clusterTerminationDone 5) s
    s.fab.quiet 5 = true ∧ s.fab.halts 5 = false ∧ (s.fab.launchOn 5).map Launch.partition = some 0 ∧
    (t.fab.cluster 5).phase = (if b then .awaitReset else .idle) ∧ (t.fab.strand 5 0).st = .idle ∧
    t.fab.launches.map Launch.clusters = [[]] ∧ t.fab.launches.map Launch.fault = [some (5, 2, ⟨.brk, 7, 8⟩)] := by decide +kernel

/-! ### Setup -/

/-- A good stream descriptor. -/
def goodStream : BitVec 512 := streamDesc false true .int8 0 16 1 0x100000000 0x100000800

/-- SETUP_WRITE of a kind and an index with its source in a host window. -/
def setupEntry (kind i : Nat) (source : Nat := 0x5000) : Entry := entry 8 9 [i * 65536 + kind, source]

/-- Partition 0 with a host window and that entry fetched. -/
def settingUp (e : Entry) (g : Fab → Fab := id) : State := fetched e (fun f => g { f with
  scopes := [(0, { Scope.none with live := { Bank.none with hostWindows := [(0, 0x5000, 0x1000, 1)] } })] })

theorem witness_setup_write : ∀ row ∈ Claims.setupRows,
    (let e := setupEntry row.2.1 (row.2.2.1 - 1)
     let s := settingUp e
     Claims.front s e 0x08 = true ∧ word e 0 % 8 = row.2.1 ∧ word e 0 / 65536 % 65536 < row.2.2.1 ∧ s.fab.inHostWindow 0 0x5000 64 false = true ∧
     s.fab.streamOk 0 goodStream = true ∧ answers (after (row.1 e goodStream) s) = [(8, 0)] ∧
     row.2.2.2 ((after (row.1 e goodStream) s).fab.scope 0).shadow = [(row.2.2.1 - 1, goodStream)]) ∧
    (answers (after (row.1 (setupEntry row.2.1 row.2.2.1) goodStream) (settingUp (setupEntry row.2.1 row.2.2.1))) = [(8, 3)]) ∧
    (answers (after (row.1 (setupEntry row.2.1 0 0x9000) goodStream) (settingUp (setupEntry row.2.1 0 0x9000))) = [(8, 4)]) ∧
    ((settingUp (setupEntry 0 0)).fab.streamOk 0 0 = false ∧ answers (after (row.1 (setupEntry row.2.1 0) 0) (settingUp (setupEntry row.2.1 0))) = [(8, if row.2.1 = 0 then 0x0C else 0)]) := by
  decide +kernel

/-- A scope whose shadow has a stream. -/
def shadowed (draining : Bool) : Scope := { Scope.none with shadow := { Bank.none with streams := [(7, goodStream)] }, draining := draining }

theorem witness_setup_commit : 
    (let s := fetched (entry 9 9 []) (fun f => { f with scopes := [(0, shadowed false)] })
     Claims.front s (entry 9 9 []) 0x09 = true ∧ s.fab.colls = [] ∧ ((after (.setupCommit (entry 9 9 [])) s).fab.scope 0).live.streams = [(7, goodStream)] ∧
     ((after (.setupCommit (entry 9 9 [])) s).fab.scope 0).draining = true ∧ answers (after (.setupCommit (entry 9 9 [])) s) = []) ∧
    answers (after (.setupCommit (entry 9 9 [])) (fetched (entry 9 9 []) (fun f => { f with scopes := [(0, shadowed true)] }))) = [(9, 0x0B)] := by
  decide +kernel

theorem witness_bank_freed : (∀ bad, let s := running (fun f => { f with scopes := [(0, { shadowed true with commit := some (entry 9 9 [], bad) })] }) { vf1 with openCmds := [(entry 9 9 [], false)] }
      s.fab.oldBank 0 = [] ∧ Claims.isOpen s (entry 9 9 []) = true ∧
      (((after (.commitBankFreed 0) s).fab.vf 0).queue = [⟨9, if bad then 0x0C else 0, 9, 1⟩])) ∧
    (let s := device (fun f => { f with routeDraining := true, routes := f.dget 0x1010 2 })
     s.fab.oldBank 16 = [] ∧ (after (.commitBankFreed 16) s).fab.dget 0x1010 3 = 1 ∧ (after (.commitBankFreed 16) s).fab.routeDraining = false) := by
  decide +kernel

/-- A read of the old bank of partition 0. -/
def oldRead : Txn := flight 5 0x100000000 2 none (.void 0)

theorem witness_drain_limit : let s := running (fun f => { f with scopes := [(0, { shadowed true with bank := true })], txns := [oldRead] }) vf1
    s.fab.oldBank 0 = s.fab.txns ∧ (after (.drainLimitExpiry 0) s).fab.txns = [] ∧ (after (.drainLimitExpiry 0) s).fab.dget 0x1010 4 = 1 ∧
    ((after (.drainLimitExpiry 0) s).fab.scope 0).draining = false := by decide +kernel

/-! ### Sequences and folios -/

theorem witness_sequences :
    (let e := entry 0x10 9 [1, 0xFFFFFFFFFFFFFFFF]
     Claims.front (ledger e 0 0) e 0x10 = true ∧ (ledger e 0 0).fab.seqTable 0 = (0x100000000, 4) ∧ Claims.readable (ledger e 0 0) 0 0x100000040 = true ∧
     (W.of (after (.seqOpen e) (ledger e 0 0))).seq 0 1 = 0xFFFFFFFFFFFFFFFF * 2 ^ 448 + 2 ^ 341 ∧
     answers (after (.seqOpen e) (ledger e (seqRec 0 0 0 0 2 0) 0)) = [(0x10, 0)] ∧ answers (after (.seqOpen e) (ledger e (seqRec 0 0 0 0 2 1) 0)) = [(0x10, 0x10)] ∧
     answers (after (.seqOpen (entry 0x10 9 [4])) (ledger (entry 0x10 9 [4]) 0 0)) = [(0x10, 3)]) ∧
    (let e := entry 0x11 9 [1]
     Claims.front (ledger e 0 0) e 0x11 = true ∧ answers (after (.seqClose e) (ledger e (seqRec 0 0 0 0 1 0) 0)) = [(0x11, 0)] ∧
     answers (after (.seqClose e) (ledger e (seqRec 0 1 0 0 1 0) 0)) = [(0x11, 0x14)] ∧ answers (after (.seqClose e) (ledger e (seqRec 0 0 0 0 1 1) 0)) = [(0x11, 0x10)] ∧
     answers (after (.seqClose e) (ledger e 0 0)) = [(0x11, 0x10)]) := by decide +kernel

theorem witness_folio_alloc :
    (let e := entry 0x12 9 [3, 1 + 1 * 2 ^ 38, 0x100800000]
     let s := ledger e (seqRec 0 0 0 0 1 0) 0
     Claims.front s e 0x12 = true ∧ s.fab.folioTable 0 = (0x100001000, 4) ∧ s.fab.entrySize 0 0 = 2 ∧ Claims.readable s 0 0x1000010C0 = true ∧
     s.fab.folioRange 0 0 1 0x100800000 128 = true ∧ answers (after (.folioAlloc e) s) = [(0x12, 0)] ∧
     folioTier ((W.of (after (.folioAlloc e) s)).folio 0 3) = 1 ∧ seqFolios ((W.of (after (.folioAlloc e) s)).seq 0 1) = 1 ∧
     answers (after (.folioAlloc e) (ledger e (seqRec 0 0 0 0 2 0) 0)) = [(0x12, 0x10)] ∧
     answers (after (.folioAlloc e) (ledger e (seqRec 0 0 0 0 1 0) (folioRec 0 0 5))) = [(0x12, 0x14)] ∧
     answers (after (.folioAlloc e) (ledger e (seqRec 0 0 0 0 1 0) (folioRec 0 0 1))) = [(0x12, 0x13)]) := by decide +kernel

theorem witness_folio_free :
    (let e := entry 0x16 9 [3]
     Claims.front (ledger e 0 0) e 0x16 = true ∧ answers (after (.folioFree e) (ledger e (seqRec 0 0 0 0 1 1) 0)) = [(0x16, 0x13)] ∧
     answers (after (.folioFree e) (ledger e (seqRec 0 0 0 0 1 1) (folioRec 0 0 5))) = [(0x16, 0x14)] ∧
     answers (after (.folioFree e) (ledger e (seqRec 0 1 0 0 1 1) (folioRec 0 0 1))) = [(0x16, 0x14)] ∧
     (let t := after (.folioFree e) (ledger e (seqRec 0 0 1 0 1 1) (folioRec 0x40 9 3))
      answers t = [(0x16, 0)] ∧ folioTier ((W.of t).folio 0 3) = 0 ∧ folioPlace ((W.of t).folio 0 3) = 0x40 ∧ seqParked ((W.of t).seq 0 1) = 0 ∧
      seqFolios ((W.of t).seq 0 1) = 0)) := by decide +kernel

/-- Moves of folio 3 to 0x100800000, to host address 0x5000, and back. -/
def moves : List (Entry × (Entry → Instr) × Nat) :=
  [(entry 0x13 9 [3, 1 * 2 ^ 38, 0x100800000], .folioMove, 1), (entry 0x14 9 [3, 0, 0x5000, 60], .folioPark, 2),
   (entry 0x15 9 [3, 1 * 2 ^ 38, 0x100800000], .folioUnpark, 3)]

/-- Partition 0 with tables and a host window for both directions. -/
def moving (e : Entry) (tier : Nat) (g : Fab → Fab := id) : State :=
  ledger e (seqRec 1 0 (if tier = 3 then 1 else 0) 0 1 1) (folioRec (if tier = 3 then 0x5000 else if tier = 2 then 0x10000000000 else 0x100900000) 99 tier)
    (fun f => g { f with scopes := [(0, { Scope.none with live := { Bank.none with hostWindows := [(0, 0x5000, 0x1000, 3)] } })] })

theorem witness_moves_start : ∀ x ∈ moves, let s := moving x.1 x.2.2
    Claims.front s x.1 x.1.opcode = true ∧ badMove x.1 s.fab = false ∧ folioTier ((W.of s).folio 0 3) = x.2.2 ∧
    s.fab.moveCheck x.1 ((W.of s).folio 0 3) ((W.of s).seq 0 1) = none ∧ (s.fab.ductusOf 0).move = none ∧
    folioTier ((W.of (after (x.2.1 x.1) s)).folio 0 3) = 5 ∧ seqMoving ((W.of (after (x.2.1 x.1) s)).seq 0 1) = 1 ∧
    ((after (x.2.1 x.1) s).fab.ductusOf 0).move = some (s.fab.moveOf x.1 ((W.of s).folio 0 3) ((W.of s).seq 0 1)) := by decide +kernel

/-- The move of folio 3 to a new tier. -/
def someMove (oldTier newTier : Nat) : FolioMove :=
  { entry := entry 0x13 9 [3], folio := 3, seq := 1, home := 0, oldTier := oldTier, oldAddr := 0x100900000, newTier := newTier, newAddr := 0x100800000,
    peerWindow := 0, ttl := 60, bytes := 64 }

theorem witness_moves_wait_and_fail : ∀ x ∈ moves,
    (let s := moving x.1 x.2.2 (fun f => { f with ductus := [(0, { Ductus.idle with move := some (someMove 1 2) })] })
     s.fab.moveCheck x.1 ((W.of s).folio 0 3) ((W.of s).seq 0 1) = none ∧ ((after (x.2.1 x.1) s).fab.ductusOf 0).moves = [x.1]) ∧
    (let s := moving x.1 6
     (s.fab.moveCheck x.1 ((W.of s).folio 0 3) ((W.of s).seq 0 1) = some .folioExpired) ∧ answers (after (x.2.1 x.1) s) = [(x.1.opcode, 0x16)]) ∧
    (let e := { x.1 with words := [4, 0, 0, 0, 0, 0, 0] }
     badMove e (moving e 1).fab = true ∧ answers (after (x.2.1 e) (moving e 1)) = [(e.opcode, 3)]) := by decide +kernel

/-- A move under way. -/
def midMove (m : FolioMove) : State := { withRecords (seqRec 1 0 0 1 1 1) (folioRec 0x100900000 0 5)
    (running (fun f => { tables f with ductus := [(0, { Ductus.idle with move := some m })] }) { vf1 with openCmds := [(m.entry, false)] }) with }

theorem witness_moves_end : ∀ tier ∈ [1, 2, 3, 4], let m := someMove 1 tier
    let s := midMove m
    Claims.isOpen s m.entry = true ∧ ((W.of s).moveReach m).2 = .ok ∧ s.fab.badIn m.newAddr 64 = none ∧
    (let t := after (.folioMoveComplete 0 3 [] .done) s
     answers t = [(0x13, 0)] ∧ folioTier ((W.of t).folio 0 3) = tier ∧ folioPlace ((W.of t).folio 0 3) = 0x100800000 ∧
     folioExpiry ((W.of t).folio 0 3) = (if 3 ≤ tier then 60000000000 else 0) ∧ seqMoving ((W.of t).seq 0 1) = 0) ∧
    (let t := after (.folioMoveComplete 0 3 [] .endpointDown) s
     answers t = [(0x13, 0x18)] ∧ folioTier ((W.of t).folio 0 3) = 1 ∧ folioPlace ((W.of t).folio 0 3) = 0x100900000) := by decide +kernel

theorem witness_expiry : (let s := withRecords (seqRec 1 0 1 0 1 1) (folioRec 0x5000 1 3) (running (fun f => { tables f with timeBase := 1 }) vf1)
     s.fab.now = 1 ∧ (let t := after (.folioExpiry 0 3) s
      folioTier ((W.of t).folio 0 3) = 6 ∧ seqState ((W.of t).seq 0 1) = 2 ∧ seqParked ((W.of t).seq 0 1) = 0 ∧ t.fab.dget 0x7052 1 = 1 ∧
      ((t.fab.vf 0).queue.map Completion.detail) = [2 ^ 176 + 3 * 2 ^ 128 + 1])) ∧
    (let s := withRecords (seqRec 1 0 1 0 1 1) (folioRec 0x5000 2 3) (running (fun f => { tables f with timeBase := 1 }) vf1)
     after (.folioExpiry 0 3) s = s) := by decide +kernel

/-! ### Versions and batches -/

/-- A version record of partition 0 with one area. -/
def verRec (v : Nat) (st : VersionState) (holds outstanding a : Nat) : VersionRec :=
  { VersionRec.free with version := v, state := st, areas := (a, 64) :: List.replicate 7 (0, 0), holds := holds, outstanding := outstanding }

/-- Version 6 Current and held once, version 7 in some state. -/
def versioned (e : Entry) (st : VersionState) (outstanding : Nat) (g : Fab → Fab := id) : State :=
  ledger e (seqRec 1 0 0 0 1 1) 0 (fun f => g { f with
    versions := [(0, verRec 6 .current 1 0 0x100002000), (1, verRec 7 st 0 outstanding 0x100003000)], versionTop := [(0, 7)],
    scopes := [(0, { Scope.none with live := { Bank.none with hostWindows := [(0, 0x5000, 0x1000, 3)] } })] })

/-- The areas of a new version. -/
def newAreas : List (Nat × Nat) := (0x100004000, 128) :: List.replicate 7 (0, 0)

theorem witness_version_open : (let e := entry 0x30 9 [8, 0x5000]
     let s := versioned e .loading 0
     Claims.front s e 0x30 = true ∧ s.fab.inHostWindow 0 0x5000 128 false = true ∧ s.fab.versionTop.get 0 0 < 8 ∧ usedAreas newAreas = [(0x100004000, 128)] ∧
     s.fab.inWindows 0 0x100004000 128 = true ∧ disjoint (usedAreas newAreas) = true ∧ (s.fab.version 0 2).state = .free ∧
     answers (after (.versionOpen e newAreas) s) = [(0x30, 0)] ∧
     (after (.versionOpen e newAreas) s).fab.version 0 2 = { VersionRec.free with version := 8, state := .loading, areas := newAreas }) ∧
    (let e := entry 0x30 9 [7, 0x5000]
     answers (after (.versionOpen e newAreas) (versioned e .loading 0)) = [(0x30, 0x0C)]) := by decide +kernel

theorem witness_version_switch : (let e := entry 0x31 9 [7]
     let s := versioned e .loading 0
     Claims.front s e 0x31 = true ∧ s.fab.versionNo 0 7 = some 1 ∧ s.fab.currentNo 0 = some 0 ∧
     (∀ k, k < 8 → (s.fab.version 0 k).state = .current → k = 0) ∧
     answers (after (.versionSwitch e) s) = [(0x31, 0)] ∧ ((after (.versionSwitch e) s).fab.version 0 1).state = .current ∧
     ((after (.versionSwitch e) s).fab.version 0 0).state = .retiring ∧ (after (.versionSwitch e) s).fab.dget 0x7061 1 = 7 ∧
     answers (after (.versionSwitch e) (versioned e .loading 1)) = [(0x31, 0x1D)]) ∧
    (let e := entry 0x31 9 [5]
     (versioned e .loading 0).fab.versionNo 0 5 = none ∧ answers (after (.versionSwitch e) (versioned e .loading 0)) = [(0x31, 0x1C)]) := by decide +kernel

theorem witness_version_free : (let e := entry 0x32 9 [7]
     let s := versioned e .loading 0
     Claims.front s e 0x32 = true ∧ s.fab.ductus = [] ∧ answers (after (.versionFree e) s) = [(0x32, 0)] ∧ (after (.versionFree e) s).fab.version 0 1 = .free) ∧
    (let e := entry 0x32 9 [5]
     answers (after (.versionFree e) (versioned e .loading 0)) = [(0x32, 0x1C)]) := by decide +kernel

theorem witness_batch_admit : (let e := entry 3 9 [0x100005000, 0x5000, 2]
     let s := versioned e .loading 0
     Claims.front s e 0x03 = true ∧ s.fab.dget 0xB001 1 = 2 ∧ s.fab.inHostWindow 0 0x5000 4 false = true ∧ Claims.readable s 0 (s.fab.seqAddr 0 1) = true ∧
     ((W.of s).admissionList 0 6 0 [1, 1]).2 = none ∧ s.fab.inWindows 0 0x100005000 128 = true ∧
     (let t := after (.batchAdmit e [1, 65537]) s
      answers t = [(3, 0)] ∧ bytesAt t 0x100005000 5 = [6, 0, 0, 0, 1] ∧ seqAttach ((W.of t).seq 0 1) = 2 ∧ seqVersion ((W.of t).seq 0 1) = 6 ∧
      (t.fab.version 0 0).holds = 2) ∧
     ((W.of s).admissionList 0 6 0 [1, 2]).2.isSome = true ∧ answers (after (.batchAdmit e [1, 2]) s) = [(3, 0x10)] ∧
     ((after (.batchAdmit e [1, 2]) s).fab.vf 0).queue.map Completion.detail = [2 ^ 32 + 2] ∧
     answers (after (.batchAdmit e [1, 1]) (versioned e .loading 0 (fun f => f.dset 0xB001 1 3))) = [(3, 0x0B)]) := by decide +kernel

theorem witness_batch_end : (let e := entry 4 9 [8]
     let s := versioned e .loading 0 (fun f => { f with batches := [⟨0, 8, 6, [1]⟩] })
     Claims.front s e 0x04 = true ∧ (∀ i ∈ [1], i < (s.fab.seqTable 0).2) ∧ Claims.readable s 0 (s.fab.seqAddr 0 1) = true ∧ s.fab.versionNo 0 6 = some 0 ∧
     answers (after (.batchEnd e) s) = [(4, 0)] ∧ (after (.batchEnd e) s).fab.batches = [] ∧ ((after (.batchEnd e) s).fab.version 0 0).holds = 0 ∧
     answers (after (.batchEnd e) (versioned e .loading 0)) = [(4, 0x0D)]) := by decide +kernel

/-! ### The Ductus -/

/-- A job descriptor: source, destination, version, length, kind and the other bits. -/
def jobDesc (source dest version length kind rest : Nat) : BitVec 512 :=
  BitVec.ofNat 512 (source * 2 ^ 448 + dest * 2 ^ 384 + version * 2 ^ 352 + length * 2 ^ 240 + kind * 2 ^ 216 + rest)

/-- COPY of 64 bytes into the area of version 7. -/
def copyJob : BitVec 512 := jobDesc 0x100006000 0x100003000 7 64 0 0

/-- DUCTUS_JOB with a descriptor at 0x100007000. -/
def jobState (e : Entry) (d : BitVec 512) : State :=
  let s := versioned e .loading 0
  { s with mem := s.mem ++ cellsOf 0x100007000 64 d.toNat }

theorem witness_ductus_job : (let e := entry 0x33 9 [0x100007000]
     let s := jobState e copyJob
     Claims.front s e 0x33 = true ∧ Claims.readable s 0 0x100007000 = true ∧ (W.of s).loadNat 0 0x100007000 64 = copyJob.toNat ∧
     s.fab.jobCheck 0 copyJob = none ∧ ((after (.ductusJob e) s).fab.ductusOf 0).queue.get [] 0 = [⟨e, 0, copyJob, 0, none, none, false, 0⟩] ∧
     ((after (.ductusJob e) s).fab.version 0 1).outstanding = 1) ∧
    (let e := entry 0x33 9 [0x100007020]
     answers (after (.ductusJob e) (jobState e copyJob)) = [(0x33, 3)]) ∧
    (let e := entry 0x33 9 [0x200007000]
     (jobState e copyJob).fab.inWindows 0 0x200007000 64 = false ∧ answers (after (.ductusJob e) (jobState e copyJob)) = [(0x33, 4)]) ∧
    (let e := entry 0x33 9 [0x100007000]
     let d := jobDesc 0x100006000 0x100003000 6 64 0 0
     (jobState e d).fab.jobCheck 0 d = some 6 ∧ answers (after (.ductusJob e) (jobState e d)) = [(0x33, 6)]) := by decide +kernel

/-- The Ductus of base die 0 with that job queued or active at a position. -/
def working (queued : Bool) (d : BitVec 512) (pos : Nat) : State :=
  let j : Job := ⟨entry 0x33 9 [0x100007000], 0, d, pos, none, none, false, 0⟩
  let s := running (fun f => { tables f with
    versions := [(1, verRec 7 .loading 0 1 0x100003000)],
    ductus := [(0, if queued then { Ductus.idle with queue := [(0, [j])] } else { Ductus.idle with active := [(0, j)] })] })
    { vf1 with openCmds := [(j.entry, false)] }
  { s with mem := [(0x100006001, 7)] }

/-- A LOAD of 64 bytes from endpoint 5. -/
def loadJob : BitVec 512 := jobDesc 0x40 0x100003000 7 64 2 (5 * 2 ^ 184)

theorem witness_ductus_run : jobBytes copyJob = 64 ∧ jobCasts copyJob = false ∧ jobKind copyJob = 0 ∧ jobKind loadJob = 2 ∧
    ((after (.ductusJobStart 0 0) (working true copyJob 0)).fab.ductusOf 0).active.map (·.1) = [0] ∧
    Claims.requests (after (.ductusJobStart 0 0) (working true loadJob 0)) 0 5 = [(0, 0x40, 64, none)] ∧
    (let j : Job := ⟨entry 0x33 9 [0x100007000], 0, copyJob, 0, none, none, false, 0⟩
     let s := working false copyJob 0
     s.fab.jobWorks j = true ∧ s.fab.jobFault j 64 = none ∧ s.fab.badIn 0x100003000 64 = none ∧
     bytesAt (after (.ductusTurn 0 []) s) 0x100003000 3 = [0, 7, 0] ∧ ((after (.ductusTurn 0 []) s).fab.ductusOf 0).client = 1) ∧
    (let s := running id vf1
     after (.ductusTurn 0 []) s = s) ∧
    (let s := working false copyJob 64
     Claims.isOpen s (entry 0x33 9 [0x100007000]) = true ∧ answers (after (.ductusJobComplete 0 0 .done) s) = [(0x33, 0)] ∧
     (after (.ductusJobComplete 0 0 .done) s).fab.dget 0x7064 1 = 1) ∧
    (let s := working false loadJob 0
     answers (after (.ductusJobComplete 0 0 .endpointDown) s) = [(0x33, 0x0A)] ∧ (after (.ductusJobComplete 0 0 .endpointDown) s).fab.dget 0x7065 1 = 1) := by
  decide +kernel

/-! ### Collectives -/

/-- A tree of n members seen from a rank: repair rank, headroom 2, agreement, step of a shift 1, lag limit 1 MiB, estimates at 0x100009000, member table at
0x10000A000. -/
def treeDesc (n rank repair : Nat) (agree : Bool) : BitVec 512 :=
  BitVec.ofNat 512 ((n - 1) * 2 ^ 208 + rank * 2 ^ 192 + repair * 2 ^ 176 + 1 * 2 ^ 160 + 2 * 2 ^ 150 + (if agree then 2 ^ 149 else 0) + 1 * 2 ^ 136 +
    0x100009000 * 2 ^ 384 + 0x10000A000 * 2 ^ 448)

/-- Operands of a collective of a kind. -/
def collOp (kind size : Nat) : CollOp :=
  { rd := 3, src := 0x100006000, dst := 0x100003000, size := size, tree := 9, kind := kind, fmt := 0, scope := 0, ctr := 5 }

/-- Flow to rank r. -/
def peer (r : Nat) : FlowKey := ⟨0, 100 + r, 0, 0⟩

/-- A collective of operation 4 of cluster 0. -/
def coll (kind size : Nat) (d : BitVec 512) : Coll :=
  { id := 8, partition := 0, die := 0, tree := 9, seq := 2, desc := d, limit := 4, peers := [peer 0, peer 1, peer 2, peer 3],
    op := collOp kind size, launcher := .op 0 4 0 9, slice := none, parts := [], sealed := [], slots := [], fallback := false,
    phase := .running, partners := [], blocks := [], ranges := [], cuts := [], repairs := [], pulls := [], pullsEnd := [],
    outbox := [], next := 2, nonzero := [], reports := [] }

/-- Cluster 0 with that operation in flight, the tree live, and collectives. -/
def collective (d : BitVec 512) (l : List Coll) (g : Fab → Fab := id) : State := running (fun f => g { f with
  dict := f.dict ++ [(0xB13001, 16 * 65536)],
  scopes := [(0, { Scope.none with live := { Bank.none with trees := [(9, d)] } })], treeSeq := [(9, 3)], colls := l, nextColl := 20,
  clusters := [(0, { cluster0 0 { strand0 with busy := [.s 3] } with
    issueFrom := 1, ops := [{ id := 4, strand := 0, epc := 9, kind := .coll (collOp 7 64), held := false, issued := 0, due := 9, late := false }], nextOp := 5 })] }) vf1

theorem witness_coll : (let w := BitVec.ofNat 64 (0x80 * 2 ^ 56 + 3 * 2 ^ 47 + 1 * 2 ^ 42 + 2 * 2 ^ 37 + 1 * 2 ^ 32 + 2 * 2 ^ 27 + 7 * 2 ^ 23 + 3 * 2 ^ 19)
    let s := withOwner (fun f => { f with
      clusters := [(0, cluster0 w { strand0 with s := [(1, 64), (2, 9)] })],
      scopes := [(0, { Scope.none with live := { Bank.none with trees := [(9, treeDesc 4 1 2 false)] } })] })
    executes s (on w) 0x80 = true ∧ (s.fab.cluster 0).interlocked 0 (.coll { collOp 7 64 with src := 0, dst := 0, scope := 3, ctr := 0 }) = false ∧
    ((after (.coll (on w)) s).fab.cluster 0).ops.map Op.kind = [.coll { collOp 7 64 with src := 0, dst := 0, scope := 3, ctr := 0 }] ∧
    (lane (after (.coll (on w)) s)).busy = [.s 3]) := by decide +kernel

/-- Four launches of tree 9 in flight. -/
def fourBefore : List Coll := (List.range 4).map (fun i => { coll 7 64 (treeDesc 4 1 2 false) with id := i, seq := i, launcher := .job 0 0 })

/-- What the device has sent on its flows: the message type and bytes of each. -/
def casts (s : State) : List (FlowKey × Nat × List Byte) := s.fab.netOut.filterMap (fun o => match o with
  | .kolas _ k t _ _ _ _ _ b => some (k, t, b)
  | _ => none)

theorem witness_claim : (let s := collective (treeDesc 4 1 2 false) fourBefore (fun f => { f with treeSeq := [(9, 4)] })
     (W.of s).collCheck 0 (baseDieOf 0) (treeDesc 4 1 2 false) (collOp 7 64) none false = .ok ([], false) ∧
     s.fab.colls.any (fun x => x.partition == 0 && x.tree == 9 && Nat.blt x.id s.fab.nextColl && Nat.ble (x.seq + 4) (s.fab.nextSeq 0 9)) = true ∧
     (W.reach (fun a write => s.fab.unitTag 0 0 4 a write) (s.fab.collReads 0 (treeDesc 4 1 2 false) (collOp 7 64)) (W.of s)).2 = .ok ∧
     (after (.claimResolved ⟨⟨0, 4⟩, []⟩) s).fab.colls.map (fun c => (c.id, c.phase == .held)) = [(0, false), (1, false), (2, false), (3, false), (20, true)] ∧
     (after (.claimResolved ⟨⟨0, 4⟩, []⟩) s).fab.nextSeq 0 9 = 5 ∧ (lane (after (.claimResolved ⟨⟨0, 4⟩, []⟩) s)).sreg 3 = 0) ∧
    (let s := collective (treeDesc 4 1 2 false + BitVec.ofNat 512 (2 ^ 146)) []
     (W.of s).collCheck 0 (baseDieOf 0) (treeDesc 4 1 2 false + BitVec.ofNat 512 (2 ^ 146)) (collOp 7 64) none false = .error 5 ∧
     (lane (after (.claimResolved ⟨⟨0, 4⟩, []⟩) s)).einfo = 0x905 ∧ (lane (after (.claimResolved ⟨⟨0, 4⟩, []⟩) s)).sreg 3 = 2 ∧
     (lane (after (.claimResolved ⟨⟨0, 4⟩, []⟩) s)).st = .trapped) := by decide +kernel

theorem witness_hold_and_complete : (let c := { coll 7 64 (treeDesc 4 1 2 false) with phase := .held }
     let s := collective c.desc [c]
     s.fab.coll? 8 = some c ∧ s.fab.collWaits c = false ∧ s.fab.inWindows 0 c.op.src 64 = true ∧ Claims.sound s c.op.src 64 = true ∧
     ((after (.collectiveHoldRelease ⟨8, []⟩) s).fab.colls.map Coll.outbox) =
       [[⟨2, 6, { c.dataMsg false 0 (List.replicate 64 0) with last := true, via := peer 2 }⟩]] ∧
     (let c := { c with seq := 4 }
      let s := collective c.desc (fourBefore ++ [c])
      s.fab.collWaits c = true ∧ after (.collectiveHoldRelease ⟨8, []⟩) s = s)) ∧
    (let c := { coll 7 64 (treeDesc 4 1 2 false) with ranges := [(0, 64)] }
     let s := collective c.desc [c]
     (W.of s).collFinished c = true ∧ (after (.collectiveComplete 8) s).fab.colls = [] ∧ (after (.collectiveComplete 8) s).fab.counter 0 0 5 = 1 ∧
     ((after (.collectiveComplete 8) s).fab.cluster 0).ops = [] ∧ lane (after (.collectiveComplete 8) s) = lane s) := by decide +kernel

/-- A message of the collective from a rank. -/
def message (c : Coll) (source offset count format attempt : Nat) (payload : List Byte) : CollMsg :=
  { c.msg false attempt offset count format payload with source := source }

theorem witness_abort : (let c := coll 7 64 (treeDesc 4 1 2 false)
     let s := collective c.desc [c]
     let m := message c 0 0 0 0 0 []
     s.fab.collFor m true = .ok c ∧ (after (.abortMsg m) s).fab.colls = [] ∧ (lane (after (.abortMsg m) s)).einfo = 0x90F ∧
     (lane (after (.abortMsg m) s)).cause = 0x14) := by decide +kernel

theorem witness_not_ready : (let c := coll 0 512 (treeDesc 4 1 2 false)
     let s := collective c.desc [c]
     let m := message c 0 0 1 0 0 [7]
     (∀ row ∈ Claims.messageRows, s.fab.collFor { m with sequence := 3 } false row.2 = .notReady ∧
       s.fab.collFor { m with epoch := 1 } false row.2 = .stale ∧ s.fab.collFor { m with reserved := 1 } false row.2 = .drop ∧
       casts (after (row.1 { m with sequence := 3 }) s) = [(m.via, 1, collBytes 0x0A { m with sequence := 3, payload := [], source := 1 })] ∧
       (after (row.1 { m with epoch := 1 }) s).fab.dget 0x6030 3 = 1 ∧ after (row.1 { m with reserved := 1 }) s = { s with fab := { s.fab with badMessages := 1 } })) := by decide +kernel

theorem witness_repeat : (let c := { coll 0 512 (treeDesc 4 1 2 false) with outbox := [⟨0, 1, message (coll 0 512 (treeDesc 4 1 2 false)) 1 0 1 0 0 [7]⟩] }
     let s := collective c.desc [c]
     (after (.notReady (message c 0 0 1 0 0 [])) s).fab.repeats = [⟨0, 8, ⟨0, 1, message (coll 0 512 (treeDesc 4 1 2 false)) 1 0 1 0 0 [7]⟩⟩] ∧
     (let s := collective c.desc [c] (fun f => { f with repeats := [⟨0, 8, ⟨0, 1, message c 1 0 1 0 0 [7]⟩⟩] })
      (s.fab.flow (peer 0)).waiting = [] ∧ (s.fab.flow (peer 0)).unacked.length < 512 ∧ (after (.notReadyRepeat 0) s).fab.repeats = [] ∧
      (after (.notReadyRepeat 0) s).fab.netOut.length = 1 ∧ (after (.notReadyRepeat 0) s).fab.dget 0x6024 1 = 1)) := by decide +kernel

/-- A zero KBX-48 block on scale 0. -/
def zeroKbx : Kbx := { x := 0, sat := false, nf := false, h := 0, k32 := false, rho := 0, q := List.replicate 64 (some 0) }

/-- A block on scale 3 whose own sum is zero. -/
def blockRec (got : List Nat) : BlockRec :=
  { attempt := 0, x := 0, eps := 0, pre := false, cmax := 0, agreed := [], low := some zeroKbx, upper := none, got := got, satReissues := 0,
    resReissues := 0, down := false, data := false, saturated := false, agreeSent := false, upSent := false }

/-- A reduction of two blocks at rank 1 of 4 (children 0 and 2, parent 3), with block 0. -/
def reducing (got : List Nat) : Coll := { coll 1 512 (treeDesc 4 1 2 false) with nextB := 1, blocks := [(0, blockRec got)] }

theorem witness_up : (let m := message (reducing []) 0 0 1 0 0 (List.replicate 392 0)
     let s := fun got => collective (reducing []).desc [reducing got]
     (s []).fab.collFor m = .ok (reducing []) ∧ ((reducing []).kids false).1 = [0, 2] ∧ kbxRead false m.payload = some zeroKbx ∧
     kbxAdd zeroKbx zeroKbx = .sum zeroKbx false ∧ narrows (reducing []).desc false 1 = false ∧ treeUp (reducing []).desc false 1 = some 3 ∧
     after (.upMsg { m with attempt := 1 } []) (s []) = s [] ∧
     ((after (.upMsg m []) (s [])).fab.coll? 8).bind (·.block? 0) = some (blockRec [0]) ∧ (after (.upMsg m []) (s [])).fab.netOut = [] ∧
     ((after (.upMsg m []) (s [2])).fab.coll? 8).bind (·.block? 0) = some { blockRec [2, 0] with upSent := true } ∧
     casts (after (.upMsg m []) (s [2])) = [(peer 3, 1, collBytes 0x01 { (reducing []).msg false 0 0 1 0 zeroKbx.wire with last := true })]) := by
  decide +kernel

theorem witness_down : (let m := { message (reducing []) 3 0 1 2 0 (List.replicate 255 0 ++ [5, 7] ++ List.replicate 7 0) with last := false }
     let s := collective (reducing []).desc [reducing []]
     m.payload.length = 264 ∧ (reducing []).op.wants 4 1 0 = true ∧ estimates (reducing []).desc (reducing []).op none = some (0x100009000, 2) ∧
     s.fab.inWindows 0 ((reducing []).blockAddr 0) 256 = true ∧ s.fab.inWindows 0 0x100009000 1 = true ∧
     (let t := after (.downMsg ⟨m, []⟩) s
      bytesAt t 0x1000030FC 4 = [5, 0, 0, 0] ∧ bytesAt t 0x100009000 2 = [7, 0] ∧
      ((t.fab.coll? 8).bind (·.block? 0)).map (fun r => (r.down, r.data)) = some (true, true))) := by decide +kernel

theorem witness_reissue_and_agree :
    (let m := { message (reducing []) 3 0 1 0 1 [] with newScale := 9 }
     let s := collective (reducing []).desc [reducing [2]]
     (((after (.reissue m) s).fab.coll? 8).bind (·.block? 0)).map (fun r => (r.attempt, r.x, r.got, r.satReissues)) = some (1, 9, [], 1) ∧ ((W.of s).sourceRanges (reducing [2]) 0).all (fun r => s.fab.inWindows 0 r.1 r.2.1) = true) ∧
    (let c := { reducing [] with blocks := [(0, { blockRec [] with pre := true, low := none, cmax := 4 })] }
     let s := collective c.desc [c]
     (treeDown c.desc false 1) = [0, 2] ∧
     (((after (.agreeUp (message c 0 0 1 0 0 [6, 0, 0, 0, 0, 0, 0, 0])) s).fab.coll? 8).bind (·.block? 0)).map (fun r => (r.agreed, r.cmax)) = some ([0], 6) ∧
     (((after (.agreeDown (message c 3 0 1 0 0 [150, 0, 0, 0, 0, 0, 0, 0])) s).fab.coll? 8).bind (·.block? 0)).map (fun r => (r.eps, r.pre, r.x)) =
       some (150, false, scaleOf 150 2)) := by decide +kernel

theorem witness_bytes : (let c := coll 7 64 (treeDesc 4 1 2 false)
     let s := collective c.desc [c]
     let m := message c 0 0 64 3 0 (List.replicate 64 9)
     s.fab.collFor m = .ok c ∧ c.has 0 64 = false ∧ c.pieceAddr 0 64 = some 0x100003000 ∧ c.writes = true ∧
     bytesAt (after (.dataMsg m) s) 0x100003000 2 = [9, 9] ∧ (after (.dataMsg m) s).fab.colls.map Coll.ranges = [[(0, 64)]]) ∧
    (let c := { coll 5 256 (treeDesc 4 0 2 false) with repairs := [false] }
     let s := collective c.desc [c]
     let m := message c 2 0 64 3 0 (List.replicate 64 9)
     treeDown c.desc (0 / 256 % 2 == 1) 0 = [] ∧ bytesAt (after (.pullData ⟨m, false⟩) s) 0x100003000 2 = [9, 9]) ∧
    (let c := coll 5 256 (treeDesc 4 0 2 false)
     let s := collective c.desc [c]
     treeUp c.desc false 0 = some 1 ∧ c.lacks false = [(0, 256)] ∧
     (after (.cut (message c 1 0 0 0 0 [])) s).fab.colls.map (fun x => (x.repairs, x.outbox.map OutMsg.type)) = [([false], [8])]) ∧
    (let c := { coll 5 256 (treeDesc 4 0 2 false) with ranges := [(0, 64)] }
     let s := collective c.desc [c]
     (after (.pull (message c 3 0 64 0 0 [])) s).fab.colls.map (fun x => x.outbox.map OutMsg.type) = [[9]] ∧
     (after (.pull (message c 3 0 65 0 0 [])) s).fab.colls.map Coll.pulls = [[(3, false, 0, 65)]]) := by decide +kernel

/-! ### The network -/

/-- Partition 0 running with engine 0's port 0 up, without MACsec, and the engine's own address 50. -/
def net (g : Fab → Fab := id) : State :=
  running (fun f => g { f with dict := f.dict ++ [(dictKey 0x5004 1, 50), (dictKey 0x5007 1, 2), (dictKey 0x5008 1, 0)] }) vf1

/-- A device of a role in group 5: manager 60, standby 61, engine 0 up with address 50. -/
def inGroup (role : Nat) (g : Fab → Fab := id) : State :=
  net (fun f => g (((((f.dset 0x5040 1 role).dset 0x5040 3 5).dset 0x5040 4 60).dset 0x5040 5 61).dset 0x9060 1 3))

/-- A Kolas packet of a type to engine 0, without payload. -/
def packet (type psn ackPsn : Nat) : Packet :=
  { port := 0, secured := none, intact := true, udpPort := Fab.reset.eff 0x5020 1, sourceAddr := 77, destAddr := 50, version := 1, type := type, destPartition := 0,
    sourcePartition := 3, channel := 0, ecnEcho := false, resent := false, reserved := 0, psn := psn, ackPsn := ackPsn, length := 0, ce := false,
    payload := [] }

/-- The flow of that packet. -/
def flowOf : FlowKey := ⟨0, 77, 0, 3⟩

/-- That flow with two packets sent and one received since the last ACK. -/
def flow0 : Flow :=
  { key := flowOf, nextPsn := 12, ackPsn := 10, unacked := [⟨10, 0, [1], none⟩, ⟨11, 0, [2], none⟩], waiting := [], expect := 4, sinceAck := 1,
    ecn := false, rate := 16, probing := false, down := false, lastNak := none, cls := 0 }

/-- What the device has sent on its flows: flow; type, PSN, acknowledged PSN and whether it is sent again; bytes. -/
def onFlows (s : State) : List (FlowKey × List Nat × List Byte) := s.fab.netOut.filterMap (fun o => match o with
  | .kolas _ k t _ n a _ r b => some (k, [t, n, a, r.toNat], b)
  | _ => none)

/-- What it has sent for RDMA: a number for the kind, the peer, and data. -/
def overRdma (s : State) : List (Nat × Nat × List Byte) := s.fab.netOut.filterMap (fun o => match o with
  | .rdmaData _ p _ _ b => some (0, p, b)
  | .rdmaAck _ p _ _ => some (1, p, [])
  | .rdmaNak _ p _ _ o => some (if o then 4 else 2, p, [])
  | .cnp _ p _ => some (3, p, [])
  | _ => none)

/-- A device with that flow. -/
def flowing (x : Flow) (g : Fab → Fab := id) : State := net (fun f => g { f with flows := [x] })

theorem witness_arrivals : (let s := flowing flow0
     let f := flowing flow0 (fun f => ((f.dset 0x5040 2 1).dset 0x5007 3 2).dset 0x5008 3 0)
     s.fab.arrival { packet 1 4 0 with intact := false } = .drop ∧ s.fab.arrival { packet 1 4 0 with version := 2 } = .bad ∧
     (after (.kolasData { packet 1 4 0 with version := 2 }) s).fab.badPackets = 1 ∧ s.fab.arrival (packet 1 4 0) = .mine ∧
     f.fab.arrival { packet 1 4 0 with destAddr := 51 } = .forward ∧
     (after (.kolasData { packet 1 4 0 with destAddr := 51 }) f).fab.netOut = [.forward 2 0 none { packet 1 4 0 with destAddr := 51 }] ∧
     (after (.kolasData { packet 1 4 0 with destAddr := 51 }) f).fab.dget 0x5021 4 = 1 ∧
     (flowing flow0 (fun f => f.dset 0x5008 1 1)).fab.arrival (packet 1 4 0) = .macsec ∧
     (after (.kolasData (packet 1 4 0)) (flowing flow0 (fun f => f.dset 0x5008 1 1))).fab.dget 0x5021 2 = 1) := by decide +kernel

theorem witness_kolas_data : (let s := flowing flow0
     let q := flowing { flow0 with sinceAck := 7 }
     (after (.kolasData (packet 1 4 0)) s).fab.flow flowOf = { flow0 with expect := 5, sinceAck := 2 } ∧
     onFlows (after (.kolasData (packet 1 4 0)) q) = [(flowOf, [2, 0, 5, 0], [])] ∧
     (after (.kolasData (packet 1 3 0)) s).fab.flow flowOf = { flow0 with sinceAck := 2 } ∧
     (after (.kolasData (packet 1 6 0)) s).fab.flow flowOf = { flow0 with lastNak := some 0 } ∧
     onFlows (after (.kolasData (packet 1 6 0)) s) = [(flowOf, [3, 0, 4, 0], [])]) := by decide +kernel

theorem witness_kolas_acks : (let s := flowing flow0
     (after (.kolasAck { packet 2 0 11 with ecnEcho := true }) s).fab.flow flowOf =
       { flow0 with ackPsn := 11, unacked := [⟨11, 0, [2], none⟩], rate := 8 } ∧
     onFlows (after (.probe (packet 4 0 0)) s) = [(flowOf, [5, 0, 4, 0], [])] ∧
     (after (.probeAck (packet 5 0 0)) (flowing { flow0 with probing := true })).fab.flow flowOf = flow0 ∧
     (∀ i, i < 8 → s.fab.dget (0x9010 + i) 6 = 0) ∧
     onFlows (after (.kolasNak (packet 3 0 10)) s) = [(flowOf, [1, 10, 4, 1], [1]), (flowOf, [1, 11, 4, 1], [2])] ∧
     (after (.kolasResend flowOf) s).fab.dget 0x5021 1 = 2) := by decide +kernel

theorem witness_flow_timers : (let s := flowing flow0
     (after (.ackTimer flowOf) s).fab.flow flowOf = { flow0 with sinceAck := 0 } ∧ after (.ackTimer (peer 0)) s = s ∧
     (W.of s).carriesTree flowOf = false ∧ after (.probeTimer flowOf) s = s ∧
     (let t := collective (treeDesc 4 1 2 false) []
      (W.of t).carriesTree ⟨0, 0, 0, 0⟩ = true ∧ onFlows (after (.probeTimer ⟨0, 0, 0, 0⟩) t) = [(⟨0, 0, 0, 0⟩, [4, 0, 0, 0], [])]) ∧
     after (.peerDown (peer 0)) s = s ∧ s.fab.dget 0x5040 1 ≠ 1 ∧ s.fab.colls = [] ∧ (s.fab.scope 0).live.endpoints = [] ∧
     (after (.peerDown flowOf) s).fab.flow flowOf = { flow0 with down := true, unacked := [], ackPsn := 12 } ∧
     (after (.peerDown flowOf) s).fab.log.queue.map EventRec.code = [0x0306]) := by decide +kernel

/-- Export entry 1 MiB at 0x100001000 under key 9, readable and writable by anyone; endpoint 1 over RoCEv2. -/
def exporting (g : Fab → Fab := id) : State :=
  net (fun f => g { f with scopes := [(0, { Scope.none with live := { Bank.none with
    exportTbl := [(0, BitVec.ofNat 512 (0x100001000 * 2 ^ 448 + 0x100000 * 2 ^ 408 + 9 * 2 ^ 360 + 3 * 2 ^ 358))],
    endpoints := [(1, BitVec.ofNat 512 (88 * 2 ^ 384 + 2 * 2 ^ 209 + 1 * 2 ^ 204))] } })] })

/-- A request of two bytes of that entry, in its place. -/
def request0 : RdmaReq :=
  { port := 0, secured := none, intact := true, ce := false, qp := 2, psn := 0, peer := 88, key := 9, address := 0x100001040, length := 2 }

theorem witness_rdma : let s := exporting
    let r := request0
    s.fab.portUp 0 = true ∧ s.fab.secureIn 0 none = true ∧ s.fab.atQp r = true ∧ (∀ w, s.fab.exports r w = true) ∧
    s.fab.calm = true ∧ s.fab.inWindows 0 r.address 2 = true ∧ (s.fab.wayTo [] (some 0) r.address).isSome = true ∧
    (s.fab.noivosOf 0).running = none ∧ overRdma (after (.roceReadRequest r) s) = [(0, 88, [0, 0])] ∧
    overRdma (after (.roceReadRequest { r with ce := true }) s) = [(3, 88, []), (0, 88, [0, 0])] ∧
    bytesAt (after (.roceWriteRequest r [7, 8]) s) 0x100001040 2 = [7, 8] ∧ overRdma (after (.roceWriteRequest r [7, 8]) s) = [(1, 88, [])] ∧
    s.fab.exports { r with key := 8 } false = false ∧ overRdma (after (.roceReadRequest { r with key := 8 }) s) = [(2, 88, [])] := by
  decide +kernel

theorem witness_rdma_order : let s := exporting
    let ahead := { request0 with psn := 1 }
    let again := { request0 with psn := 2 ^ 24 - 1 }
    s.fab.rdmaOrder request0 = .eq ∧ s.fab.rdmaOrder ahead = .gt ∧ s.fab.rdmaOrder again = .lt ∧
    ((after (.roceWriteRequest request0 [7, 8]) s).fab.qp 0 (rdmaEntry request0)).expect = 1 ∧
    overRdma (after (.roceReadRequest ahead) s) = [(4, 88, [])] ∧ overRdma (after (.roceWriteRequest again [7, 8]) s) = [(1, 88, [])] ∧
    bytesAt (after (.roceWriteRequest again [7, 8]) s) 0x100001040 2 = [0, 0] := by decide +kernel

theorem witness_queue_pairs : (let one := [⟨0, 0, 0x40, 64, none, 0⟩]
     let s := exporting (fun f => f.onQp 0 1 (fun q => { q with sent := one }))
     let q := exporting (fun f => f.onQp 0 1 (fun q => { q with retries := 7, sent := one }))
     let c := exporting (fun f => f.onQp 0 1 (fun q => { q with failed := true }))
     s.fab.hasQp 0 1 = true ∧ (s.fab.qp 0 1).failed = false ∧ ((after (.roceAckTimeout 0 1) s).fab.qp 0 1).retries = 1 ∧
     (after (.roceAckTimeout 0 1) s).fab.netOut.length = 1 ∧ ((after (.roceAckTimeout 0 1) q).fab.qp 0 1).failed = true ∧
     q.fab.clusters = [] ∧ q.fab.ductus = [] ∧ (q.fab.qp 0 1).retries = 7 ∧
     after (.roceAckTimeout 0 1) c = c ∧ ((after (.cnp ⟨0, 0, none⟩ 1) s).fab.qp 0 1).rate = 8 ∧
     (let m := exporting (fun f => f.dset 0x5008 1 1)
      m.fab.secureIn 0 none = false ∧ (after (.cnp ⟨0, 0, none⟩ 1) m).fab.dget 0x5021 2 = 1)) := by decide +kernel

theorem witness_neighbours : (let s := net (fun f => f.dset 0x5006 1 90)
     s.fab.portUp 0 = true ∧ s.fab.secureIn 0 none = true ∧ s.fab.protects 0 16 = true ∧ s.fab.engineAddress 0 = 50 ∧
     (after (.neighbourSolicitation ⟨0, none⟩ 50) s).fab.netOut = [.neighbourAdvert 0 90 50 none] ∧
     (after (.echoRequest ⟨0, none⟩ 50 9) s).fab.netOut = [.echoReply 0 90 50 9 none] ∧ after (.neighbourSolicitation ⟨0, none⟩ 51) s = s ∧
     (let own := (W.of s).managementAddress
      (after (.neighbourSolicitation ⟨32, none⟩ own) s).fab.netOut = [.neighbourAdvert 32 0 own none] ∧
      after (.echoRequest ⟨32, none⟩ (own + 1) 9) s = s) ∧
     (let m := net (fun f => f.dset 0x5008 1 1)
      m.fab.portUp 0 = true ∧ m.fab.secureIn 0 none = false ∧ (after (.echoRequest ⟨0, none⟩ 50 9) m).fab.netOut = [] ∧
      (after (.echoRequest ⟨0, none⟩ 50 9) m).fab.dget 0x5021 2 = 1)) := by decide +kernel

theorem witness_time : (let o := net (fun f => f.dset 0x5030 2 0)
     after (.ptpMessage ⟨0, 0, false⟩ 5 true) o = o ∧ after (.ptpMessage ⟨0, 0, true⟩ 5 true) o = o) ∧
    (let t := net (fun f => { f with timeBase := 9 })
     t.fab.dget 0x5030 2 = 1 ∧ t.fab.dget 0x5030 1 = 0 ∧ t.fab.ptpPort 0 = some 0 ∧ (after (.ptpMessage ⟨0, 0, false⟩ 5 true) t).fab.timeBase = 4 ∧
     (after (.ptpMessage ⟨0, 0, false⟩ (-1) false) t).fab.dget 0x5030 3 = 0xFFFFFFFF ∧
     (after (.ptpMessage ⟨0, 0, false⟩ (-1) true) t).fab.dget 0x5030 4 = 2 ∧
     (after (.ptpMessage ⟨0, 0, true⟩ 5 true) t).fab.netOut = [.ptp 0 0 .delayResponse] ∧
     after (.ptpMessage ⟨0, 1, true⟩ 5 true) t = t) := by decide +kernel

/-! ### Ports, lanes, laser, base links -/

/-- Port 2 in a state with lanes 4 to 7. -/
def port2 (st : Nat) (g : Fab → Fab := id) : State := net (fun f => g ((f.dset 0x5007 3 st).setPort 2 st 0xF0))

theorem witness_ports : ((port2 0).fab.portState 2 = 0 ∧ (port2 0).fab.lanesOf 2 = 0xF0 ∧ lanesMeet 0xF0 ((port2 0).fab.retiredLanes 0) = false ∧
     (after (.portLinkUp 2) (port2 0)).fab.portState 2 = 2 ∧ (after (.portLinkUp 2) (port2 0)).fab.dget 0x5002 1 = 0xF0 ∧
     (after (.portLinkDown 2) (port2 2)).fab.portState 2 = 0 ∧ after (.portLinkDown 2) (port2 1) = port2 1 ∧
     (after (.portFormed 2) (port2 1)).fab.portState 2 = 2 ∧ (after (.portFormed 2) (port2 1)).fab.log.queue.map EventRec.code = [0x0302] ∧
     (after (.portFormFailed 2) (port2 1)).fab.lanesOf 2 = 0 ∧ after (.portFormFailed 2) (port2 0) = port2 0) := by decide +kernel

theorem witness_lanes : (let s := net
     let b := net (fun f => { f with laneBad := [(3, 2)] })
     let e := s.fab.dget 0x5010 0x41 + 1
     bit (s.fab.retiredLanes 0) 3 = false ∧ (∀ k, k < 4 → bit (s.fab.lanesOf k) 3 = false) ∧
     bit ((after (.laneSignalLoss 3) s).fab.retiredLanes 0) 3 = true ∧ (after (.laneSignalLoss 3) s).fab.log.queue.map EventRec.code = [0x0301] ∧
     (after (.laneErrorWindow 3 ⟨0, 0, 0⟩) b).fab.laneBad.get 0 3 = 0 ∧ (after (.laneErrorWindow 3 ⟨e, 0, 0⟩) s).fab.laneBad = [(3, 1)] ∧
     bit ((after (.laneErrorWindow 3 ⟨e, 0, 0⟩) b).fab.retiredLanes 0) 3 = true) := by decide +kernel

theorem witness_laser : (let s := net
     let bank := s.fab.dget 0x5011 1
     bank < 2 ∧ bit (s.fab.laserBad.get 0 0) (1 - bank) = false ∧ (after (.laserLowLight 0) s).fab.dget 0x5011 1 = 1 - bank ∧
     (after (.laserFault bank) s).fab.dget 0x5011 1 = 1 - bank ∧ (after (.laserFault (1 - bank)) s).fab.dget 0x5011 1 = bank ∧
     (after (.laserPresent false) s).fab.inPins.laserPresent = true ∧ s.fab.pins.laserEnA = false ∧
     (after (.laserPresent true) s).fab.pins.laserEnB = true) := by decide +kernel

theorem witness_base_links : (let s := net
     let b := net (fun f => { f with linkReplays := [(3, List.replicate 15 0)] })
     s.fab.linkLives 3 = true ∧ s.fab.linkLives 10 = false ∧ s.fab.routeDraining = false ∧ (s.fab.replays 3).length < 15 ∧ (b.fab.replays 3).length = 15 ∧
     (after (.baseLinkCrcError 3) s).fab.linkReplays = [(3, [0])] ∧ (after (.baseLinkCrcError 3) b).fab.dget 0x1010 2 = 0x3F7 ∧
     (after (.baseLinkReplayTimeout 3) s).fab.routes = 0x3F7 ∧ (after (.baseLinkReplayTimeout 3) s).fab.log.queue.map EventRec.code = [0x0305] ∧
     after (.baseLinkCrcError 10) s = s) := by decide +kernel

/-! ### Membership and the cascade -/

/-- A member whose engines have the addresses a to a + 7. -/
def memberRec (a role st : Nat) : Member := { addresses := (List.range 8).map (a + ·), role := role, state := st, reserved := 0, epoch := 3, heardAt := 0 }

/-- A worker, a spare and another worker. -/
def table0 : Tbl Member := [(0, memberRec 100 0 0), (1, memberRec 200 1 0), (2, memberRec 300 0 0)]

/-- A membership message of group 5. -/
def memberMsg (epoch member sender : Nat) (pairs : List (Nat × Nat) := []) : MemberMsg :=
  { operator := true, group := 5, epoch := epoch, member := member, sequence := 0, timestamp := 0, sender := sender, pairs := pairs }

/-- The types and destinations of what was sent. -/
def sent (s : State) : List (Nat × Nat) :=
  s.fab.memberOut.map (fun m => (m.1, m.2.1))

theorem witness_heartbeats : (sent (after .heartbeatTimer (inGroup 1)) = [(60, 1), (61, 1)] ∧ sent (after .heartbeatTimer (inGroup 2)) = [(61, 1)] ∧
     after .heartbeatTimer (inGroup 0) = inGroup 0 ∧
     (let s := inGroup 2 (fun f => { f with members := table0 })
      let l := inGroup 2 (fun f => { f with members := table0, cycle := 10 ^ 12 })
      (inGroup 2).fab.role = 2 ∧ s.fab.inCascade = false ∧ (after (.heartbeat { memberMsg 7 2 0 with group := 6 }) s).fab.badPackets = 1 ∧
      (after (.heartbeat { memberMsg 7 2 0 with operator := false }) s).fab.dget 0x5021 2 = 1 ∧ (after .heartbeatTimer (inGroup 2)).fab.netOut.length = 1 ∧
      ((after (.heartbeat (memberMsg 7 2 0)) s).fab.member 2).epoch = 7 ∧ s.fab.now < 0 + s.fab.dget 0x9060 0x40 ∧
      (after (.loss (memberMsg 7 2 0)) s).fab.dget 0x9060 3 = 1 ∧ l.fab.dget 0x9060 0x40 ≤ l.fab.now ∧ after (.loss (memberMsg 7 2 0)) l = l)) := by
  decide +kernel

theorem witness_epoch_change : (let s := inGroup 2 (fun f => { f with members := table0 })
     let t := after (.workerLossTimeout 2) s
     s.fab.lossQueue = [] ∧ s.fab.epochChanges = [] ∧ s.fab.dget 0x5040 5 ≠ 0 ∧ (s.fab.setMemberState 2 2).idleSpare = some 1 ∧
     (t.fab.member 2).state = 2 ∧ (t.fab.member 1).state = 1 ∧ t.fab.epochChanges.map (fun c => (c.member, c.spare, c.epoch, c.published)) = [(2, some 1, 4, false)] ∧
     sent t = [(61, 6)] ∧ sent (after .epochAckTimeout t) = [(61, 6), (100, 3), (200, 5)] ∧ (after .epochAckTimeout t).fab.epoch = 4 ∧
     (after (.epochAck (memberMsg 4 0 61)) t).fab.epochChanges = [] ∧ sent (after .stateRepeat (after .epochAckTimeout t)) = [(61, 6), (100, 3), (200, 5), (61, 6)] ∧
     sent (after .stateRepeat t) = sent t) := by decide +kernel

/-- Old addresses 300 to 307 with their replacements 200 to 207. -/
def pairs0 : List (Nat × Nat) := (List.range 8).map (fun i => (300 + i, 200 + i))

theorem witness_state_message : (let s := inGroup 3 (fun f => { f with members := table0 })
     s.fab.members.find? 2 = some (memberRec 300 0 0) ∧
     sent (after (.stateMsg (memberMsg 4 2 60 pairs0)) s) = [(60, 4)] ∧ (after (.stateMsg (memberMsg 4 2 60 pairs0)) s).fab.epoch = 4 ∧
     ((after (.stateMsg (memberMsg 4 2 60 pairs0)) s).fab.member 1).state = 1 ∧ (after (.stateMsg (memberMsg 3 2 60 pairs0)) s).fab.members = table0) := by decide +kernel

/-- A Kolas endpoint of address 300. -/
def endpoint300 : BitVec 512 := BitVec.ofNat 512 (300 * 2 ^ 384 + 1 * 2 ^ 209)

theorem witness_epoch_message : (let s := inGroup 1
     let e := inGroup 1 (fun f => { f with scopes := [(0, { Scope.none with
       live := { Bank.none with endpoints := [(4, endpoint300)] }, shadow := { Bank.none with endpoints := [(4, endpoint300)] } })] })
     (∀ i, i < 8 → e.fab.dget (0x9010 + i) 6 = 0) ∧ e.fab.role = 1 ∧ e.fab.epoch = 3 ∧ (∀ q, q < 16 → (e.fab.folioTable q).2 = 0) ∧ e.fab.colls = [] ∧
     descField endpoint300 211 209 = 1 ∧ endpointOk [] 4 endpoint300 = true ∧ s.fab.scopes = [] ∧
     sent (after (.epoch (memberMsg 3 2 60)) s) = [(60, 4)] ∧ (after (.epoch (memberMsg 4 2 60)) s).fab.epoch = 4 ∧
     (after (.epoch (memberMsg 4 2 60 [(300, 200)])) e).fab.epoch = 4 ∧
     ((after (.epoch (memberMsg 4 2 60 [(300, 200)])) e).fab.scope 0).live.endpoints.map (fun x => (x.1, descField x.2 511 384)) = [(4, 200)] ∧
     (after (.assign (memberMsg 4 1 60)) s).fab.epoch = 4 ∧ (after (.assign (memberMsg 4 1 60)) s).fab.log.queue.map EventRec.code = [0x0603]) := by
  decide +kernel

theorem witness_manager_lost : (let s := inGroup 3
     let h := inGroup 3 (fun f => { f with members := [(0, { memberRec 100 0 0 with epoch := 4 })] })
     s.fab.heardEpoch ≤ s.fab.epoch ∧ (after .managerTimeout s).fab.role = 2 ∧ h.fab.epoch < h.fab.heardEpoch ∧ (after .managerTimeout h).fab.role = 3 ∧
     (after .managerTimeout h).fab.log.queue.map (fun r => (r.code, r.detailA)) = [(0x0604, 1)] ∧ after .managerTimeout (inGroup 1) = inGroup 1) := by
  decide +kernel

theorem witness_cascade : (let s := net (fun f => { f with inForce := [(dictKey 0x5050 1, 2)] })
     let k := net (fun f => { (f.dset 0x5050 3 2) with inForce := [(dictKey 0x5050 1, 2), (dictKey 0x5050 2, 1)] })
     s.fab.eff 0x5050 1 = 2 ∧ s.fab.eff 0x5050 2 = 0 ∧ (after (.cascadeLinkLoss 1) s).fab.log.queue.map EventRec.code = [0x0305] ∧
     k.fab.eff 0x5050 2 ≠ 0 ∧ after (.cascadeLinkLoss 1) k = k) := by decide +kernel

/-! ### Samplers, drains and learning steps -/

/-- A Fine cluster about to issue a sampler instruction, with room or none in its unit. -/
def aboutSample (op : Nat) (n : Nat) : State :=
  let w := rWord op 3 1 2 false 0 (if op = 0x91 then 2 else 0)
  withOwner (fun f => { f with
    clusters := [(768, cluster0 w { strand0 with a := [(1, 0x100006000), (2, 0x100005000)] })],
    samplers := [(0, ⟨List.replicate n ⟨768, 99, 0, 0, 0, none⟩, none⟩)] })

theorem witness_sample : (∀ row ∈ [((.sample : Issue → Instr), 0x90), (.saccept, 0x91)],
     let x : Issue := ⟨768, 0, rWord row.2 3 1 2 false 0 (if row.2 = 0x91 then 2 else 0)⟩
     executes (aboutSample row.2 0) x row.2 = true ∧ (aboutSample row.2 16).fab.illegal 768 0 x.word = false ∧
     (aboutSample row.2 16).fab.precise 768 0 x.word = none ∧
     (aboutSample row.2 0).fab.locate (some 768) 0x100006000 ≠ .outside ∧ (aboutSample row.2 0).fab.locate (some 768) 0x100005000 ≠ .outside ∧
     after (row.1 x) (aboutSample row.2 16) = aboutSample row.2 16 ∧
     ((after (row.1 x) (aboutSample row.2 0)).fab.sampler 0).queue =
       [⟨768, 0, 0, 0x100006000, 0x100005000, if row.2 = 0x91 then some 2 else none⟩]) := by decide +kernel

/-- A parameter block of two FP32 logits at temperature 0: top-p and repetition 1, position 2, sequence 1, commit. -/
def greedyBlock (vocabulary : Nat) : Nat :=
  0x3F800000 * 2 ^ 256 + 0x3F800000 * 2 ^ 192 + 2 * 2 ^ 96 + vocabulary * 2 ^ 72 + 1 * 2 ^ 31 + 2 ^ 24

/-- Sampler unit 0 with its item's operation in flight, sequence 1 in a state, the block and the logits 1 and 2. -/
def sampling (draft : Option Nat) (u : SamplerUnit) (pb st : Nat) : State :=
  let s := withRecords (seqRec 1 0 0 0 st 1) 0 (running (fun f => { (tables f) with
    samplers := [(0, u)],
    clusters := [(768, { cluster0 0 { strand0 with busy := [.s 3] } with
      ops := [{ id := 4, strand := 0, epc := 9, kind := .sample 3 0x100006000 0x100005000 draft, held := false, issued := 0, due := 9, late := false }] })] }) vf1)
  { s with mem := s.mem ++ cellsOf 0x100005000 64 pb ++ cellsOf 0x100006000 8 0x400000003F800000 }

/-- That operation's item. -/
def item (draft : Option Nat) : SamplerItem := ⟨768, 4, 0, 0x100006000, 0x100005000, draft⟩

theorem witness_sampler_start : (let s := sampling none ⟨[item none], none⟩ (greedyBlock 2) 1
     let r := sampling none ⟨[item none], none⟩ (greedyBlock 0) 1
     (s.fab.samplerOp (item none)).isSome = true ∧ ((W.of s).runSampler 0 (item none)).2 = .result 1 0 [(1, 2)] ∧ ((W.of r).runSampler 0 (item none)).2 = .reject ∧
     (after (.samplerStart 0) s).fab.sampler 0 = ⟨[], some ⟨item none, some (1, 0), [(1, 2)], false⟩⟩ ∧
     (after (.samplerStart 0) r).fab.sampler 0 = ⟨[], some ⟨item none, none, [], true⟩⟩) := by decide +kernel

theorem witness_sampler_commit : (let v : SamplerServe := ⟨item none, some (1, 0), [(1, 2)], false⟩
     let s := sampling none ⟨[], some v⟩ (greedyBlock 2) 1
     let c := sampling none ⟨[], some v⟩ (greedyBlock 2) 0
     Claims.readable s 0 (s.fab.seqAddr 0 1) = true ∧ 1 < (s.fab.seqTable 0).2 ∧ seqState ((W.of s).seq 0 1) = 1 ∧ seqMoving ((W.of s).seq 0 1) = 0 ∧
     seqParked ((W.of s).seq 0 1) = 0 ∧ seqL ((W.of (after (.samplerCommit 0) s)).seq 0 1) = 2 ∧
     seqState ((W.of c).seq 0 1) ≠ 1 ∧ (after (.samplerCommit 0) c).fab.sampler 0 = ⟨[], some { v with result := none, commit := [], committed := true }⟩) := by
  decide +kernel

theorem witness_sampler_complete : (let s := sampling none ⟨[], some ⟨item none, some (1, 0), [], true⟩⟩ 0 1
     let d := sampling (some 3) ⟨[], some ⟨item (some 3), some (1, 2), [], true⟩⟩ 0 1
     let r := sampling none ⟨[], some ⟨item none, none, [], true⟩⟩ 0 1
     (s.fab.strand 768 0).flagTrap &&& 1 = 0 ∧ (s.fab.strand 768 0).over = false ∧ ((after (.samplerComplete 0) s).fab.strand 768 0).sreg 3 = 1 ∧
     ((after (.samplerComplete 0) s).fab.strand 768 0).busy = [] ∧ ((after (.samplerComplete 0) d).fab.strand 768 0).sreg 3 = 0x100000002 ∧
     (after (.samplerComplete 0) d).fab.dget 0x7050 1 = 3 ∧ (after (.samplerComplete 0) d).fab.dget 0x7051 1 = 2 ∧
     ((after (.samplerComplete 0) r).fab.strand 768 0).sreg 3 = BitVec.allOnes 64 ∧ (after (.samplerComplete 0) r).fab.dget 0x7053 1 = 1) := by
  decide +kernel

/-- A slice of 4 units of Writer 0 in slot 5 of base die 0. -/
def slice0 (st : Nat) : Slice := { sliceOf 0 0 with state := st, units := 4, slot := 5 }

/-- An open step of two waves with one slice. -/
def step0 (wave : Nat) (sl : List Slice) (filling : Bool) : StepRec :=
  ⟨7, 3, wave, 2, sl, filling, sl.map Slice.number⟩

/-- A slice table of one entry at 0x100007000 and a scale table of one at 0x100008000, the slots of base die 0. -/
def learning (e : Entry) (sts : Tbl StepRec) (g : Fab → Fab := id) : State :=
  let s := fetched e (fun f => g { f with
    dict := f.dict ++ [(dictKey 0xB120 1, 16 * 65536)],
    inForce := [(dictKey 0x8010 1, 0x100007000), (dictKey 0x8011 1, 1), (dictKey 0x8012 1, 0x100008000), (dictKey 0x8013 1, 1)], steps := sts })
  { s with mem := cellsOf 0x100007000 64 (4 * 2 ^ 356 + 5 * 2 ^ 345) }

theorem witness_drainb_applied : (let r := { step0 0 [slice0 2] false with waves := 1 }
     let cl := { cluster0 0 strand0 with
      issueFrom := 1,
      ops := [{ id := 4, strand := 0, epc := 9, kind := .drainb 5 1 0 1 2 (some [(0, 0x3F800000)]), held := false, issued := 0, due := 9, late := false }] }
     let y := { flight 3 0 0 none (.op 0 4) with route := [800, 896] }
     let s := withOwner (fun f => { f with steps := [(0, r)], txns := [y], clusters := [(0, cl)], slots := [(5, ⟨.slice 0 0, [(64, 0x40000000)]⟩)] })
     let n := withOwner (fun f => { f with txns := [y], clusters := [(0, cl)] })
     s.fab.drainbSlice 0 0 5 0 = some (slice0 2) ∧ s.fab.stalled y = false ∧ portsQuiet s.fab = true ∧ 1 + 1 ≤ (slice0 2).units ∧ n.fab.drainbSlice 0 0 5 0 = none ∧
     ((after (.drainbApplied ⟨0, 4⟩) s).fab.slot 0 5).fp.get 0 64 = 0x40400000 ∧ ((after (.drainbApplied ⟨0, 4⟩) s).fab.cluster 0).ops = [] ∧ (after (.drainbApplied ⟨0, 4⟩) s).fab.txns = [] ∧
     after (.drainbApplied ⟨0, 4⟩) (withOwner (fun f => { f with clusters := [(0, cl)] })) = withOwner (fun f => { f with clusters := [(0, cl)] }) ∧
     (lane (after (.drainbApplied ⟨0, 4⟩) n)).cause = 0x14 ∧ (lane (after (.drainbApplied ⟨0, 4⟩) n)).einfo = 1) := by decide +kernel

theorem witness_step_open : (let e := entry 0x20 9 [7, 3]
     let s := learning e []
     let o := learning e [(0, step0 0 [] false)]
     let b := learning e [] (fun f => f.dset 0xB001 1 1)
     let n := learning e [] (fun f => { f with inForce := [] })
     Claims.front s e 0x20 = true ∧ s.fab.dget 0xB001 1 = 2 ∧ s.fab.sliceCount 0 = 1 ∧ s.fab.scaleCount 0 = 1 ∧ Claims.stepTables s 0 = true ∧
     answers (after (.stepOpen e) s) = [(0x20, 0)] ∧
     ((after (.stepOpen e) s).fab.steps.find? 0).map (fun r => (r.number, r.waveCounter, r.wave, r.waves, r.filling)) = some (7, 3, 0, 1, true) ∧
     answers (after (.stepOpen e) o) = [(0x20, 0x20)] ∧ answers (after (.stepOpen e) b) = [(0x20, 0x0B)] ∧ n.fab.sliceCount 0 = 0 ∧
     answers (after (.stepOpen e) n) = [(0x20, 3)]) := by decide +kernel

theorem witness_step_close : (let e := entry 0x21 9 []
     let s := learning e [(0, step0 0 [slice0 2] false)]
     let b := learning e [(0, step0 0 [slice0 3] false)]
     Claims.front s e 0x21 = true ∧ Claims.noChecks (step0 0 [slice0 2] false) ∧ (∀ x ∈ (step0 0 [slice0 2] false).slices, x.state ≠ 3) ∧
     Claims.stepTables s 0 = true ∧ answers (after (.stepClose e) s) = [(0x21, 0)] ∧ (after (.stepClose e) s).fab.steps.find? 0 = none ∧
     answers (after (.stepClose e) b) = [(0x21, 0x21)] ∧ answers (after (.stepClose e) (learning e [])) = [(0x21, 0x20)]) := by
  unfold Claims.noChecks; decide +kernel

theorem witness_waves : (let e := entry 0 0 []
     let s := learning e [(0, step0 0 [slice0 3] false)]
     let b := learning e [(0, step0 0 [slice0 2] false)]
     let f := learning e [(0, step0 0 [{ slice0 1 with onFallback := true, fallback := 0x100009000 }] true)]
     after (.waveOpen 0) b = b ∧ after (.waveOpen 0) f = f ∧ Claims.stepTables s 0 = true ∧
     ((after (.waveOpen 0) s).fab.steps.find? 0).map (fun r => (r.wave, r.filling)) = some (1, true) ∧
     after (.fallbackAreasWritten 0) s = s ∧ (0x100009000 % 64 = 0 ∧ 0x100007000 + 64 ≤ 0x100009000) ∧
     ((after (.fallbackAreasWritten 0) f).fab.steps.find? 0).map (fun r => (r.slices.map Slice.state, r.filling)) = some ([2], false) ∧
     (after (.fallbackAreasWritten 0) f).fab.packageCtr.get 0 3 = 1) := by decide +kernel

/-! ### The dictionary agent -/

/-- A request of firmware, of the manager, and of the virtual function of partition 0. -/
def firmwareRq : Requester := ⟨.internal, 0, 7, 0, .none⟩
/-- By the management port from address 9. -/
def mgmtRq : Requester := ⟨.management, 9, 7, 0, ⟨0, 1234, 77⟩⟩
/-- By the mailbox of partition 0's virtual function. -/
def tenantRq (reply : Nat) : Requester := ⟨.mailbox 0 1, 0, 7, reply, .none⟩

theorem witness_dictionary_write : (let s := running id vf1
     let p := running (fun f => f.dset 0x2040 1 1) vf1
     Claims.mayWriteNat s firmwareRq 0x3020 0x40 9 = true ∧ Claims.plainEntry 0x3020 = true ∧
     (after (.dictionaryWrite firmwareRq 0x3020 0x40 9) s).fab.dget 0x3020 0x40 = 9 ∧ (after (.dictionaryWrite firmwareRq 0x3020 0x40 9) s).fab.dget 0x1101 1 = 1 ∧
     Claims.mayWriteNat s firmwareRq 0x5001 1 1 = true ∧ (after (.portModeWrite firmwareRq 0 1) s).fab.dget 0x5001 1 = 1 ∧
     Claims.mayWriteNat s firmwareRq 0x5003 3 1 = true ∧ (after (.portEnableWrite firmwareRq 2 1) s).fab.dget 0x5003 3 = 1 ∧
     Claims.mayWriteNat s firmwareRq 0x9001 5 1 = true ∧ s.fab.log.traces + s.fab.log.logs = 0 ∧ s.fab.log.overflow = none ∧
     (after (.eventLogRelease firmwareRq 1) s).fab.log.queue = [] ∧
     s.fab.admits (tenantRq 1) = true ∧ s.fab.entryAccess (tenantRq 1) 0x3020 0x40 true = .error 4 ∧
     (after (.dictionaryWrite (tenantRq 1) 0x3020 0x40 9) s).fab.dget 0x1101 2 = 1 ∧ s.fab.admits (tenantRq 5) = false ∧
     (after (.dictionaryWrite (tenantRq 5) 0x3020 0x40 9) s).fab.dget 0x1101 3 = 1 ∧ p.fab.dget 0x2040 1 = 1 ∧
     (after (.dictionaryWrite firmwareRq 0x3020 0x40 9) p).fab.dget 0x2040 1 = 0) := by decide +kernel

/-- A frame of a kind to an entry. -/
def frame (kind i sub : Nat) (payload : List Byte := []) (sequence : Nat := 0) : Frame :=
  { version := 1, kind := kind, status := 0, requestId := 7, index := i, subindex := sub, device := 0, reply := 0, offset := 0,
    length := payload.length, last := true, type := 0, sequence := sequence, payload := payload }

/-- A device with the management key 5 whose agent holds some requests. -/
def agent (q : List (Requester × Frame)) (g : Fab → Fab := id) (k : Option Nat := some 5) : State :=
  { running (fun f => g { f with agent := { f.agent with queue := q } }) vf1 with sec := { Sec.reset with managementKey := k } }

theorem witness_management_frame : frameTag 5 9 (frame 1 0x1100 4) = frameTag 5 9 (frame 1 0x1100 4) ∧
    frameTag 5 9 (frame 1 0x1100 4) ≠ frameTag 5 9 (frame 1 0x1100 4) + 1 ∧ (agent []).sec.managementKey = some 5 ∧
    (agent [] id none).sec.managementKey = none ∧ (agent []).fab.agent.replay = [] ∧
    (agent [] (fun f => { f with agent := { f.agent with replay := [(9, 0)] } })).fab.agent.replay.any (fun x => x.1 == 9 && Nat.ble 0 x.2) = true ∧
    ((agent []).fab.agent.queue.filter (fun x => x.1.transport == .management || x.1.transport == .inBand)).length < 64 :=
  ⟨rfl, by omega, by decide +kernel⟩

theorem witness_in_band : (let s := net (fun f => f.dset 0x5040 4 9)
     let k := net (fun f => { f.dset 0x5008 1 1 with sas := [⟨16, 0, 2, 1, 0, 0, 0, 5⟩] })
     let udp := s.fab.eff 0x5020 2
     let fr := frame 1 0x1100 4
     s.fab.portUp 0 = true ∧ s.fab.portUp 1 = false ∧ s.fab.secureIn 0 none = true ∧ k.fab.secureIn 0 (some ⟨16, 2, 7⟩) = true ∧
     (after (.inBandRinayFrame 9 fr ⟨0, udp, 1234, true⟩ none) s).fab.agent.queue = [(⟨.inBand, 9, 7, 0, ⟨0, 1234, 50⟩⟩, fr)] ∧
     (after (.inBandRinayFrame 8 fr ⟨0, udp, 1234, true⟩ none) s).fab.dget 0x5021 2 = 1 ∧ after (.inBandRinayFrame 9 fr ⟨1, udp, 1234, true⟩ none) s = s ∧
     after (.inBandRinayFrame 9 fr ⟨0, udp, 1234, false⟩ none) s = s ∧ s.fab.isMember = false ∧
     after (.inBandRinayFrame 9 fr ⟨0, udp + 1, 1234, true⟩ none) s = s ∧ (after (.inBandRinayFrame 9 fr ⟨0, udp, 1234, true⟩ none) k).fab.dget 0x5021 2 = 1 ∧
     (after (.inBandRinayFrame 9 fr ⟨0, udp, 1234, true⟩ (some ⟨16, 2, 7⟩)) k).fab.agent.queue = [(⟨.inBand, 9, 7, 0, ⟨0, 1234, 50⟩⟩, fr)] ∧
     (after (.inBandRinayFrame 9 fr ⟨0, udp, 1234, true⟩ (some ⟨16, 2, 4⟩)) k).fab.dget 0x5021 2 = 1) := by
  decide +kernel

theorem witness_agent_reads : (let fr := frame 1 0x1100 4
     let s := agent [(mgmtRq, fr)]
     let n := agent [(mgmtRq, frame 1 0x1234 4)]
     badFrame mgmtRq fr 1 = false ∧ (∃ d, s.fab.entryAccess mgmtRq 0x1100 4 false = .ok d ∧ d.ty.width ≤ 48) ∧
     (after (.rinayRead mgmtRq fr) s).fab.agent.queue = [] ∧ (after (.rinayRead mgmtRq fr) s).fab.dget 0x1101 1 = 1 ∧
     n.fab.entryAccess mgmtRq 0x1234 4 false = .error 3 ∧ (after (.rinayRead mgmtRq (frame 1 0x1234 4)) n).fab.dget 0x1101 2 = 1) := by
  refine ⟨by decide +kernel, ⟨_, rfl, by decide +kernel⟩, by decide +kernel⟩

theorem witness_agent_writes : (let fr := frame 2 0x3020 0x40 [0, 9]
     let rq : Requester := ⟨.inBand, 9, 7, 0, ⟨0, 1234, 50⟩⟩
     let s := agent [(rq, fr)]
     badFrame rq fr 2 = false ∧ s.fab.serves? rq = true ∧ s.fab.admits rq = true ∧ Claims.fits s rq 0x3020 0x40 [0, 9] = true ∧ Claims.plainEntry 0x3020 = true ∧ (after (.rinayWrite rq fr) s).fab.dget 0x3020 0x40 = 9 ∧
     (after (.rinayWrite rq fr) s).fab.dget 0x1101 1 = 1 ∧
     (let t := agent [(rq, frame 3 0 0)]
      (after (.rinayStrayFrame (frame 3 0 0)) t).fab.dget 0x1101 3 = 1 ∧ (after (.rinayStrayFrame (frame 3 0 0)) t).fab.agent.queue = [])) := by
  decide +kernel

theorem witness_jtag : (let s := agent []
     let b := { s with sec := { s.sec with fuses := { s.sec.fuses with debugDisable := true } } }
     let fr := frame 1 0x1100 4
     s.sec.fuses.debugDisable = false ∧ badFrame ⟨.jtag, 0, 7, 0, .none⟩ fr 1 = false ∧ after (.jtagDictionaryAccess fr) b = b ∧ after .tapReset b = b ∧
     (after .tapReset s).sec.tapReset = true ∧ (∃ d, s.fab.entryAccess ⟨.jtag, 0, 7, 0, .none⟩ 0x1100 4 false = .ok d ∧ d.ty.width ≤ 48) ∧
     ((after (.jtagDictionaryAccess fr) s).fab.agent.given.map (fun r => (r.status, r.payload.length))) = [(0, 16)]) := by
  refine ⟨by decide +kernel, by decide +kernel, by decide +kernel, by decide +kernel, by decide +kernel, ⟨_, rfl, by decide +kernel⟩, by decide +kernel⟩

/-! ### Noivos and EWS -/

/-- A checkpoint of step 5 with pages due, some of them read. -/
def checkpoint (pages read : List Nat) : Checkpoint :=
  { number := 2, step := 5, copy := 0, pages := pages, read := read, failed := [], total := 2, start := 0 }

/-- Noivos with an area of one page at 0x10000000000 and something that runs. -/
def noivos0 (c : Option Checkpoint) (r : Option Nat) : Noivos :=
  { Noivos.none with areas := [(0x10000000000, 0x10000, 64)], running := c, restoring := r }

/-- Partition 0, stopped or running, with that Noivos. -/
def keeping (st : Nat) (v : Noivos) (g : Fab → Fab := id) : State :=
  running (fun f => g { (f.dset 0xB001 1 st) with noivos := [(0, v)] }) vf1

theorem witness_restore : (∀ row ∈ Claims.restoreRows, Claims.mayWriteNat (keeping 1 (noivos0 none none)) firmwareRq 0x9105 1 row.2 = true ∧
    ((after (row.1 firmwareRq 0) (keeping 1 (noivos0 none none))).fab.noivosOf 0).restoring = some row.2 ∧
    (after (row.1 firmwareRq 0) (keeping 1 (noivos0 none none))).fab.dget 0x9107 1 = 3) := by decide +kernel

/-- The records of a target whose first copy is complete, with step 5. -/
def records0 : List Byte := (keeping 1 Noivos.none).fab.checkpointRecord 0 (checkpoint [] []) 2 9 ++ List.replicate 64 0

theorem witness_restored : (let s := keeping 1 (noivos0 none (some 1))
     let d := keeping 1 { noivos0 none (some 2) with clean0 := [0x1000000] }
     (s.fab.noivosOf 0).running = none ∧ (noivos0 none (some 1)).restored 1 0 = [0x1000000] ∧ s.fab.inWindows 0 (0x1000000 * 65536) 65536 = true ∧
     s.fab.calm = true ∧ newestCopy records0 = some (0, 5) ∧ newestCopy [] = none ∧
     after (.restored 0 records0 [] false) (keeping 1 (noivos0 none none)) = keeping 1 (noivos0 none none) ∧
     ((after (.restored 0 [] [] false) s).fab.noivosOf 0).restoring = none ∧ (after (.restored 0 [] [] false) s).mem = s.mem ∧
     ((after (.restored 0 records0 [] true) s).fab.noivosOf 0).restoring = none ∧
     (d.fab.noivosOf 0).restored 2 0 = [] ∧ ((after (.restored 0 records0 [] false) d).fab.noivosOf 0).restoring = none ∧
     ((after (.restored 0 records0 [] false) d).fab.noivosOf 0).clean 0 = [0x1000000]) := by decide +kernel

theorem witness_checkpoint : (let s := keeping 2 (noivos0 (some (checkpoint [7, 8] [7, 8])) none)
     let l := keeping 2 (noivos0 (some (checkpoint [7] [7])) none)
     after (.checkpointPageAck 0 9) s = s ∧
     ((after (.checkpointPageAck 0 7) s).fab.noivosOf 0).running = some (checkpoint [8] [7, 8]) ∧
     ((after (.checkpointPageAck 0 7) s).fab.noivosOf 0).clean 0 = [7] ∧
     ((after (.checkpointPageAck 0 7) l).fab.noivosOf 0).running = none ∧ (after (.checkpointPageAck 0 7) l).fab.dget 0x9108 1 = 5) := by decide +kernel

theorem witness_checkpoint_failed : (let s := keeping 2 (noivos0 (some (checkpoint [7] [])) none)
     let r := keeping 2 (noivos0 (some (checkpoint [7] [])) none) (fun f => { f with inForce := [(dictKey 0x9102 1, 4)] })
     (keeping 2 (noivos0 none none)).fab.dget 0x9102 1 = 0xFFFF ∧ s.fab.eff 0x9102 1 = 0xFFFF ∧ r.fab.eff 0x9102 1 ≠ 0xFFFF ∧
     ((after (.checkpointFailed 0 0) s).fab.noivosOf 0).running = none ∧
     ((after (.checkpointFailed 0 1) r).fab.noivosOf 0).running = some { checkpoint [7] [] with failed := [1] }) := by decide +kernel

/-- A write of one byte of the store of cluster 0 that a checkpoint holds or not. -/
def heldTxn (held : Bool) : Txn := { flight 5 0x100001040 1 (some [7]) (.op 0 5) with heldPage := held }

/-- A partition that keeps checkpoints, with that store in flight. -/
def heldStore (held : Bool) (c : Option Checkpoint) : State := keeping 2 (noivos0 c none) (fun f => { f with
  txns := [heldTxn held], clusters := [(0, { cluster0 0 strand0 with
    ops := [{ id := 5, strand := 0, epc := 9, kind := .store 0x100001040 1 7, held := false, issued := 0, due := 9, late := false }], nextOp := 6 })] })

theorem witness_held_page : (let s := heldStore true (some (checkpoint [0x10000] []))
     let n := heldStore false none
     s.fab.txn? 5 = some (heldTxn true) ∧ s.fab.answer (heldTxn true).tag (heldTxn true).ranges = .ok ∧ s.fab.badLines = [] ∧ s.fab.softLines = [] ∧
     portsQuiet s.fab = true ∧ 0x100001040 / 65536 ∈ (checkpoint [0x10000] []).pages ∧
     bytesAt (after (.heldPageWriteRelease 5) s) 0x100001040 1 = [7] ∧
     ((after (.heldPageWriteRelease 5) s).fab.noivosOf 0).running.map Checkpoint.read = some [0x10000] ∧ after (.heldPageWriteRelease 5) n = n) := by
  decide +kernel

/-- The device in a state of the EWS sequence. -/
def ews (st : Nat) (g : Fab → Fab := id) : State := running (fun f => g (f.dset 0x9200 2 st)) vf1

theorem witness_ews : (ews 0).fab.dget 0x9200 2 = 0 ∧ (after .ewsAsserted (ews 0)).fab.dget 0x9200 2 = 1 ∧
    (after .ewsAsserted (ews 0)).fab.inPins.ewsHigh = false ∧ after .ewsAsserted (ews 1) = Claims.pinned (ews 1) false ∧
    (ews 1).fab.dget 0x2040 1 ≠ 1 ∧ after .ewsGraceExpiry (ews 0) = ews 0 ∧ (after .ewsGraceExpiry (ews 1)).fab.dget 0x9200 2 = 2 ∧
    (after .ewsGraceExpiry (ews 1)).fab.ewsGraced = true ∧ (ews 2).fab.noivos = [] ∧ (after .ewsHolding (ews 2)).fab.dget 0x9200 2 = 3 ∧
    after .ewsHolding (ews 1) = ews 1 := by decide +kernel

theorem witness_ews_resume : (let p := device (fun f => { f with phase := .warmHeld })
     after .ewsAsserted p = Claims.pinned p false) ∧
    Claims.serves (ews 3) firmwareRq = true ∧ (∃ d, (ews 3).fab.entryAccess firmwareRq 0x9200 3 true = .ok d) ∧
    (after (.ewsResume firmwareRq true) (ews 3)).fab.dget 0x9200 2 = 0 ∧
    (after (.ewsResume firmwareRq false) (ews 3)).fab.dget 0x9200 2 = 3 ∧ (after (.ewsResume firmwareRq false) (ews 3)).fab.dget 0x1101 2 = 1 ∧
    (after (.ewsResume firmwareRq true) (ews 2)).fab.dget 0x1101 2 = 1 := by
  refine ⟨by decide +kernel, by decide +kernel, ⟨_, rfl⟩, by decide +kernel⟩

theorem witness_ews_grace : let l := { waitingLaunch with phase := .running }
    let s := ews 1 (fun f => { f with launches := [l], clusters := [(5, { cluster0 0 strand0 with launch := l.id })] })
    s.fab.launches = [l] ∧ l.partition < 16 ∧ l.clusters = [5] ∧ (s.fab.cluster 5).phase = .running ∧ s.fab.ewsGraced = false ∧
    (s.fab.strand 5 0).over = false ∧ ((after .ewsGraceExpiry s).fab.cluster 5).phase = .terminating ∧
    (after .ewsGraceExpiry s).fab.launches.map Launch.phase = [.aborting] ∧ (after .ewsGraceExpiry s).fab.dget 0x9200 2 = 1 ∧
    (after .ewsGraceExpiry s).fab.ewsGraced = true := by decide +kernel

/-! ### Power, temperature and clocks -/

theorem witness_power : (let s := running id vf1
     let t := running (fun f => { (f.dset 0x2010 0x40 1) with budget := 10 ^ 9 }) vf1
     (after (.powerSample 4000000) (running (fun f => f.dset 0x2010 0x40 0) vf1)).fab.dget 0x2010 4 = 3000 ∧ (after (.powerSample 4000000) t).fab.budget = 999000000 ∧
     (after (.powerSample 4000000) t).fab.dget 0x2010 4 = 3600 ∧ t.fab.sprintHot = false ∧ t.fab.dget 0x2030 1 < 3600 * t.fab.dget 0x2030 0x40 ∧
     after (.dutyUpdate 65) s = s ∧ s.fab.junctionStop = false ∧ s.fab.dget 0xB000 1 ≠ 1 ∧ (after (.dutyUpdate 10) s).fab.dget 0x2010 3 = 10 ∧
     (let x := running (fun f => { f with junctionStop := true }) vf1
      (after (.dutyUpdate 10) x).fab.dget 0x2010 3 = 0) ∧
     (let x := running (fun f => f.dset 0xB000 1 1) vf1
      let y := running (fun f => (f.dset 0xB000 1 1).dset 0x2010 1 4000) vf1
      (after (.dutyUpdate 10) x).fab.dget 0x2010 3 = x.fab.dget 0xB000 2 ∧ y.fab.dget 0x2010 4 < 4000 ∧ 10 < y.fab.dget 0xB000 2 ∧
      (after (.dutyUpdate 10) y).fab.dget 0x2010 3 = 10 ∧ (after (.dutyUpdate 10) y).fab.dget 0xB000 3 = 1)) := by decide +kernel

theorem witness_heat : (let s := running id vf1
     let hot := running (fun f => { f with clamped := true, junctionStop := true }) vf1
     let k : Int := 10 * s.fab.dget 0x2020 0x41
     (after (.thermalCheck k) s).fab.clamped = true ∧ (after (.thermalCheck k) s).fab.dget 0x2020 2 = 1 ∧ (after (.thermalCheck (k - 1)) s).fab.clamped = false ∧
     (after (.thermalCheck (k - 20)) hot).fab.clamped = true ∧ (after (.thermalCheck (k - 21)) hot).fab.clamped = false ∧
     (after (.thermalCheck 1050) s).fab.junctionStop = true ∧ (after (.thermalCheck 1000) hot).fab.junctionStop = true ∧
     (after (.thermalCheck 999) hot).fab.junctionStop = false ∧ (after .thermalTrip s).fab.pins.thermtripN = false ∧
     (let o := device (fun f => { f with phase := .off })
      after .thermalTrip o = o) ∧
     after (.wearSecond 950) s = s ∧ (after (.wearSecond 951) s).fab.dget 0x2030 1 = 1 ∧
     (after (.wearSecond 951) (running (fun f => f.dset 0x2030 1 359999) vf1)).sec.fuses.wear = 1) := by decide +kernel

theorem witness_power_states : (let s := running (fun f => f.dset 0x2040 0x40 1) vf1
     let q := running (fun f => { (f.dset 0x2040 0x40 1) with launches := [waitingLaunch] }) vf1
     let p := running (fun f => f.dset 0x2040 1 1) vf1
     let i := running (fun f => f.dset 0xB001 1 1) vf1
     s.fab.dget 0x2040 0x40 = 1 ∧ s.fab.allIdle = true ∧ (after .idleGatingEntry s).fab.dget 0x2040 1 = 1 ∧
     q.fab.allIdle = false ∧ after .idleGatingEntry q = q ∧ (after (.wakeEvent .doorbell) p).fab.dget 0x2040 1 = 0 ∧ after (.wakeEvent .doorbell) s = s ∧
     Claims.mayWriteNat i firmwareRq 0x2040 2 2 = true ∧ (after (.powerStateRequestS1 firmwareRq) i).fab.dget 0x2040 1 = 2 ∧
     (let z := running (fun f => f.dset 0x2040 1 2) vf1
      Claims.mayWriteNat z firmwareRq 0x2040 2 0 = true ∧ (after (.powerStateRequestP0 firmwareRq) z).fab.dget 0x2040 1 = 0)) := by decide +kernel

/-- Island 904 in some condition. -/
def clocked (x : Island) (g : Fab → Fab := id) : State := running (fun f => g ((f.dset 0x2100 1 904).onIsland 904 (fun _ => x))) vf1

/-- On PLL A without its lock. -/
def islandSafe : Island := { Island.onA with readyA := false, lostA := true, safe := true }

theorem witness_islands : let s := clocked Island.onA
    let u := clocked islandSafe
    let a := clocked { islandSafe with readyB := false, asks := true }
    after (.pllReady 946 0) s = s ∧ (after (.pllReady 904 0) u).fab.island 904 = Claims.locked islandSafe false ∧
    (after (.pllLockLoss ⟨904, false⟩) s).fab.island 904 = islandSafe ∧ after (.pllLockLoss ⟨904, false⟩) u = u ∧
    ((after (.pllLockLoss ⟨904, true⟩) s).fab.island 904).readyB = false ∧ after (.hardwareClockSwitch 904) s = s ∧
    islandSafe.otherReady = true ∧ (after (.hardwareClockSwitch 904) u).fab.island 904 = islandSafe.onto true ∧
    (after (.pllReady 904 1) a).fab.island 904 = (Claims.locked { islandSafe with readyB := false, asks := true } true).onto true := by decide +kernel

theorem witness_clock_requests : let s := clocked Island.onA
    let u := clocked islandSafe
    Claims.serves s firmwareRq = true ∧ (∃ d, s.fab.entryAccess firmwareRq 0x2100 3 true = .ok d) ∧ Island.onA.ready true = true ∧
    ((after (.clockSourceRequestB firmwareRq) s).fab.island 904).liveB = true ∧ (after (.clockSourceRequestA firmwareRq) u).fab.islands = u.fab.islands ∧
    (after (.clockSourceRequestA firmwareRq) u).fab.dget 0x1101 1 = 1 ∧
    (let b := clocked { Island.onA with readyB := false }
     (after (.clockSourceRequestB firmwareRq) b).fab.dget 0x2100 4 = 1) := by
  refine ⟨by decide +kernel, ⟨_, rfl⟩, by decide +kernel⟩

theorem witness_references : (let s := running id vf1
     bit (s.fab.dget 0x2110 1) 0 = true ∧ (s.fab.island 0).liveB = false ∧ (s.fab.island 0).readyB = true ∧
     bit ((after .ppsEdge s).fab.dget 0x2110 1) 2 = true ∧ (after .ppsEdge s).fab.inPins.ppsSeen = true ∧ s.fab.dget 0x5030 2 ≠ 2 ∧
     (let g := running (fun f => f.dset 0x5030 2 2) vf1
      (after .ppsEdge g).fab.dget 0x5030 4 = 2 ∧ (after .ppsTimeout (after .ppsEdge g)).fab.dget 0x5030 4 = 0)) := by decide +kernel

/-! ### Boot and resets -/

/-- The device in a phase. -/
def inPhase (ph : DevPhase) (g : State → State := id) : State := g (device (fun f => { f with phase := ph }))

/-- An image whose key is in slot 0. -/
def image0 : FirmwareImage :=
  { magic := 0x4C584657, headerVersion := 1, keySlot := 0, securityVersion := 3, bodyLength := 2, build := 8, reserved := 0, publicKey := 77,
    body := [1, 2], signature := [3] }

/-- The device loading an image of that length, with a hash in slot 0 and a channel that failed its training. -/
def loadingWith (hash : Nat) : State :=
  inPhase .bootLoading (fun s => { s with fab := { s.fab with chanTraining := [(37, 3)] }, sec := { s.sec with
    bootLength := 30050, fuses := { s.sec.fuses with keyHashes := [(0, hash)] } } })

/-- With some hash. -/
def loading : State := loadingWith 5

theorem witness_boot : (inPhase .off).fab.phase = .off ∧ (after .powerLoss (inPhase .running)).fab.phase = .off ∧ after .powerLoss (inPhase .off) = inPhase .off ∧
    (after .coldReset (inPhase .off)).fab.phase = .bootWait ∧ after .coldReset (inPhase .running) = inPhase .running ∧
    (inPhase .bootWait).fab.inPins.linkUp = true ∧ (after (.bootGo 64 30050) (inPhase .bootWait)).sec.bootLength = 30050 ∧
    after (.bootGo 64 30050) (inPhase .running) = inPhase .running ∧
    loading.sec.bootCheck { image0 with magic := 0 } = some 0x11 ∧ loading.fab.sliceGone 1 = false ∧ loading.fab.retirement 1 = none ∧ loading.sec.bootCheck { image0 with keySlot := 4 } = some 0x12 ∧
    (after (.bootCheckFailed 0x11 { image0 with magic := 0 }) loading).sec.bootStatus = 0x11 ∧
    (after (.bootCheckFailed 0x10 image0) loading).fab.phase = .bootWait ∧
    after (.bootCheckFailed 0x13 { image0 with magic := 0 }) loading = loading ∧ after (.firmwareStart { image0 with magic := 0 }) loading = loading := by
  decide +kernel

-- The hash of a key and the verification of a signature are free values: where the one is not the value of an unblown slot and
-- the other succeeds, the image passes.
theorem witness_boot_passes (hash : Config.shake256 (leBytes 64 77) ≠ 0)
    (sign : Config.verifySignature 77 (signedBytes image0) "PENOM-FW" [3] = true) :
    (loadingWith (Config.shake256 (leBytes 64 77))).sec.bootCheck image0 = none := by
  have fused : ∀ h, h ≠ 0 → (loadingWith h).sec.fuses.fused 0 = true := fun h q => by
    show (h != 0) = true
    simpa using q
  have known : ∀ h, (loadingWith h).sec.fuses.keyHashes.get 0 0 = h := fun _ => rfl
  have revoked : ∀ h, (loadingWith h).sec.fuses.revoked.getLsbD 0 = false := fun _ => by
    show (0 : BitVec 4).getLsbD 0 = false
    decide
  have size : ∀ h, (loadingWith h).sec.bootLength = 30050 := fun _ => rfl
  have version : ∀ h, (loadingWith h).sec.fuses.versionMin = 0 := fun _ => rfl
  unfold Sec.bootCheck
  rw [if_neg (by rw [size]; decide), if_neg, if_neg (by rw [version]; decide), if_neg]
  · exact fun h => absurd (h.symm.trans (congrArg not sign)) (by decide)
  · rintro (h | h | h | h)
    · exact absurd h (by decide)
    · exact absurd (h.symm.trans (congrArg not (fused _ hash))) (by decide)
    · exact absurd (h.symm.trans (revoked _)) (by decide)
    · exact h (known _)

theorem witness_warm_resets : (let s := running id vf1
     let k := running (fun f => f.dset 0x2050 1 1) vf1
     (s.fab.dget 0x2050 1 ≠ 1 ∧ k.fab.dget 0x2050 1 = 1) ∧ after .warmResetPin (inPhase .off) = inPhase .off ∧
     (after .warmResetPin s).fab.phase = .warmHeld ∧ (after .warmResetPin s).fab.dget 0x2050 3 = 1 ∧ (after .warmResetPin k).fab.dget 0x2050 3 = 3 ∧
     Claims.mayWriteNat s firmwareRq 0x2050 2 1 = true ∧ (after (.warmReset firmwareRq) s).fab.dget 0x2050 3 = 2 ∧
     (after .rstNRelease (after .warmResetPin s)).fab.phase = .running ∧ s.fab.inPins.ewsHigh = true ∧
     (let l := inPhase .warmHeld (fun s => { s with fab := { s.fab with inPins := { s.fab.inPins with ewsHigh := false } } })
      l.fab.noivos = [] ∧ l.fab.dget 0x9200 2 = 0 ∧ (after .rstNRelease l).fab.phase = .running ∧
      (after .rstNRelease l).fab.dget 0x9200 2 = 1)) := by decide +kernel

/-- Cluster 3 in a phase. -/
def clusterIn (ph : ClusterPhase) : State := running (fun f => { f with clusters := [(3, { cluster0 0 strand0 with phase := ph, launch := 0 })] }) vf1

theorem witness_cluster_reset : (let s := clusterIn .running
     let r := clusterIn .resetting
     Claims.mayWriteNat s firmwareRq 0x2052 1 3 = true ∧ Claims.mayWriteNat r firmwareRq 0x2052 1 3 = true ∧ (r.fab.cluster 3).phase = .resetting ∧
     ((after (.clusterReset firmwareRq 3) s).fab.cluster 3).phase = .resetting ∧ ((after (.clusterReset firmwareRq 3) s).fab.cluster 3).imem = [] ∧
     (after (.clusterReset firmwareRq 3) r).fab.clusters = r.fab.clusters ∧ after (.clusterResetDone 3 1) s = s ∧
     ((after (.clusterResetDone 3 5) r).fab.cluster 3).phase = .idle ∧ (after (.clusterResetDone 3 5) r).fab.badNibs 3 = 5) := by decide +kernel

theorem witness_partition_reset : (let s := running id vf1
     let w := (Claims.narrowed s firmwareRq 0x2051 1).resetPartition 0
     Claims.mayWriteNat s firmwareRq 0x2051 1 1 = true ∧ s.fab.dget 0x3030 1 = 0 ∧ w.waits = false ∧ w.faults = []) := by decide +kernel

theorem witness_function_reset : (let s := running (fun f => { f with scopes := [(0, { Scope.none with live := { Bank.none with hostWindows := [(0, 1, 2, 3)] } })] }) { vf1 with errors := 3, openCmds := [(entry 1 2 [], false)], queue := [⟨1, 0, 9, 0⟩] }
     Claims.hostUp s = true ∧ s.fab.launches = [] ∧ s.fab.batches = [] ∧ ((after (.functionLevelReset 0) s).fab.vf 0).sq = [] ∧
     ((after (.functionLevelReset 0) s).fab.vf 0).openCmds = [(entry 1 2 [], true)] ∧ ((after (.functionLevelReset 0) s).fab.vf 0).queue = [] ∧
     ((after (.functionLevelReset 0) s).fab.scope 0).live.hostWindows = []) := by decide +kernel

theorem witness_pins : (let s := running id vf1
     let p := inPhase .running (fun s => { s with fab := { s.fab with inPins := { s.fab.inPins with perstN := false, linkUp := false } } })
     let c := { p with fab := { p.fab with inForce := [(dictKey 0x5050 1, 2), (dictKey 0x5050 2, 1)] } }
     (after .hpPerstAssert s).fab.inPins.linkUp = false ∧ (after .hpPerstAssert loading).sec.bootStatus = 0x10 ∧ p.fab.inPins.perstN = false ∧
     p.fab.isMember = false ∧ (after (.hpPerstRelease 4 32) p).fab.dget 0xC001 1 = 4 ∧ (after (.hpPerstRelease 3 32) p).fab.inPins.linkUp = false ∧ p.fab.inPins.linkUp = false ∧ c.fab.isMember = true ∧
     (after (.hpPerstRelease 4 32) c).fab.inPins.linkUp = false ∧ (after (.hpPerstRelease 4 32) c).fab.inPins.perstN = true ∧ after (.hpPerstRelease 4 32) s = s ∧
     (after .pcieRecoveryFailure s).fab.inPins.linkUp = false ∧ (after (.watchdog 3 100) s).fab.dget 0x9050 1 = 1 ∧ (after (.watchdog 3 100) s).fab.restarts.get 0 3 = s.fab.cycle + 190 ∧
     (after (.mgPhyInt true) s).fab.dget 0x1100 5 = 1) := by decide +kernel

/-! ### Partitions, isolation and security -/

/-- Partition 0 stopped, with some more state. -/
def stopped (g : Fab → Fab := id) : State := running (fun f => g (f.dset 0xB001 1 1)) vf1

theorem witness_map : (let s := stopped
     Claims.mayWriteNat s firmwareRq 0xB100 2 0 = true ∧ s.fab.mapOwners 0xB100 2 0 = [0] ∧ s.fab.dget 0xB001 1 ≠ 2 ∧ s.fab.mapRangeBad 0xB100 2 0 = false ∧
     s.fab.dget 0xB100 2 ≠ 0 ∧ (after (.partitionMapWrite firmwareRq 0xB100 2 0) s).fab.dget 0xB100 2 = 0 ∧
     ((after (.partitionMapWrite firmwareRq 0xB100 2 0) s).fab.cluster 95).phase = .resetting ∧
     (after (.partitionMapWrite firmwareRq 0xB100 2 0) s).fab.clearing = [(0, [(.computeDie 1, [])])] ∧
     (after (.partitionMapWrite firmwareRq 0xB100 2 5) s).fab.dget 0xB001 6 = 1 ∧ (after (.partitionMapWrite firmwareRq 0xB100 2 5) s).sec.keys = [(5, 1)] ∧
     (let r := running id vf1
      Claims.mayWriteNat r firmwareRq 0xB100 2 0 = true ∧ r.fab.mapOwners 0xB100 2 0 = [0] ∧ r.fab.dget 0xB001 1 = 2 ∧
      (after (.partitionMapWrite firmwareRq 0xB100 2 0) r).fab.dget 0x1101 2 = 1)) := by decide +kernel

theorem witness_start_stop : (let s := stopped
     let c := stopped (fun f => { f with clearing := [(0, [(.granules, [0])])] })
     let r := running id vf1
     let b := running (fun f => { f with launches := [waitingLaunch] }) vf1
     Claims.mayWriteNat s firmwareRq 0xB002 1 1 = true ∧ s.fab.startRefusal 0 = 0 ∧ (((Claims.narrowed s firmwareRq 0xB002 1).startPartition 0).2).waits = false ∧
     (((Claims.narrowed s firmwareRq 0xB002 1).startPartition 0).2).faults = [] ∧ (after (.partitionStart firmwareRq 0) s).fab.dget 0xB001 1 = 2 ∧
     Claims.mayWriteNat c firmwareRq 0xB002 1 1 = true ∧ c.fab.startRefusal 0 = 2 ∧ (after (.partitionStart firmwareRq 0) c).fab.dget 0xB003 1 = 2 ∧
     Claims.mayWriteNat r firmwareRq 0xB002 1 0 = true ∧ (after (.partitionStop firmwareRq 0) r).fab.dget 0xB001 1 = 1 ∧
     Claims.mayWriteNat b firmwareRq 0xB002 1 0 = true ∧ (after (.partitionStop firmwareRq 0) b).fab.dget 0x1101 2 = 1) := by decide +kernel

theorem witness_unit_clear : (let s := { stopped (fun f => { f with clearing := [(0, [(.inkwell 0, [3]), (.computeDie 0, [])])] }) with mem := cellsOf 0x100300000 1 9 }
     (s.fab.clearing.get [] 0).find? (fun x => x.1 == .inkwell 0) = some (.inkwell 0, [3]) ∧
     (s.fab.clearing.get [] 0).find? (fun x => x.1 == .computeDie 0) = some (.computeDie 0, []) ∧ s.fab.clusters = [] ∧
     (after (.unitClearDone 0 (.inkwell 0)) s).mem = [] ∧ (after (.unitClearDone 0 (.inkwell 0)) s).fab.clearing = [(0, [(.computeDie 0, [])])]) := by
  decide +kernel

theorem witness_isolation : (let s := stopped
     let t := stopped (fun f => f.dset 0xB000 1 1)
     Claims.mayWriteNat s firmwareRq 0xB000 1 1 = true ∧ (after (.strictIsolationWrite firmwareRq 1) s).fab.dget 0xB000 1 = 1 ∧
     (after (.strictIsolationWrite firmwareRq 1) s).fab.dget 0x3C20 2 = 0 ∧ Claims.mayWriteNat s firmwareRq 0x5008 2 0 = true ∧
     (after (.macsecModeWrite firmwareRq 1 0) s).fab.dget 0x5008 2 = 0 ∧ Claims.mayWriteNat t firmwareRq 0x5008 2 0 = true ∧
     (after (.macsecModeWrite firmwareRq 1 0) t).fab.dget 0x5008 2 = 1) := by decide +kernel

/-- Over the operator's channel, from address 9. -/
def operatorRq : Requester := ⟨.inBand, 9, 7, 0, ⟨0, 1234, 77⟩⟩

/-- A key record: port, association number, direction, action; zero keys. -/
def keyRecord (port an dir action : Nat) : List Byte := [port, an, dir, action].map (BitVec.ofNat 8) ++ List.replicate 60 0

/-- Partition 0 with ports 0 and 1, and the management port's partition of keys. -/
def keyed : State := running (fun f => f.dset 0xB140 1 3) vf1

theorem witness_keys : (let s := keyed
     Claims.mayWrite s firmwareRq 0xA110 1 (keyRecord 1 2 0 1) = true ∧ keyRecordOk s.fab.sas (s.fab.dget 0xB140 1) 0 (keyRecord 1 2 0 1) = true ∧
     keyRecordOk s.fab.sas (s.fab.dget 0xB140 1) 0 (keyRecord 2 2 0 1) = false ∧ Claims.mayWrite s firmwareRq 0xA110 1 (keyRecord 2 2 0 1) = true ∧
     (after (.macsecKeyInstall firmwareRq 0 (keyRecord 1 2 0 1)) s).fab.sas = [saOf 0 (keyRecord 1 2 0 1)] ∧
     (after (.macsecKeyDelete firmwareRq 0 (keyRecord 1 2 0 2)) (after (.macsecKeyInstall firmwareRq 0 (keyRecord 1 2 0 1)) s)).fab.sas = [] ∧
     (after (.macsecKeyInstall firmwareRq 0 (keyRecord 2 2 0 1)) s).fab.sas = [] ∧
     Claims.mayWrite s firmwareRq 0xA120 1 (keyRecord 31 0 1 1) = true ∧ keyRecordOk s.fab.sas (2 ^ 32 - 1) 16 (keyRecord 31 0 1 1) = true ∧
     (after (.operatorMacsecKeyInstall firmwareRq (keyRecord 31 0 1 1)) s).fab.sas.map Sa.channel = [16] ∧
     (after (.operatorMacsecKeyDelete firmwareRq (keyRecord 31 0 1 2)) s).fab.sas = [] ∧
     Claims.mayWrite s operatorRq 0xA010 1 (beBytes 32 (5 : BitVec 256).toNat) = true ∧
     Claims.mayWrite s firmwareRq 0xA010 1 (beBytes 32 (5 : BitVec 256).toNat) = false ∧
     (after (.managementKey operatorRq 5) s).sec.managementKey = some 5) := by decide +kernel

/-- An attestation record: nonce 0 and an address. -/
def attestRecord (a : Nat) : List Byte := List.replicate 32 0 ++ beBytes 8 a ++ List.replicate 8 0

/-- The virtual function's request by its mailbox. -/
def attesting (st : Nat) : State := { running (fun f => { (f.dset 0xA202 1 st) with
  scopes := [(0, { Scope.none with live := { Bank.none with hostWindows := [(0, 0x5000, 0x10000, 3)] } })] }) vf1 with
  sec := { Sec.reset with managementKey := some 5 } }

theorem witness_attestation : (let r := attestRecord 0x5000
     let s := attesting 0
     Claims.mayWrite s (tenantRq 1) 0xA200 1 r = true ∧ Claims.mayWrite s mgmtRq 0xA201 1 r = true ∧ Claims.mayWrite (attesting 1) (tenantRq 1) 0xA200 1 r = true ∧
     s.fab.inHostWindow 0 (beNat ((r.drop 32).take 8)) (256 + 29792) true = true ∧ (∀ k, k < 8 → octet r (40 + k) = 0) ∧
     (after (.attestationRequest (tenantRq 1) 0 r) s).fab.dget 0xA202 1 = 1 ∧ (after (.attestationRequest (tenantRq 1) 0 r) s).sec.attest = [(0, ⟨0, 0x5000⟩)] ∧
     (after (.attestationRequest (tenantRq 1) 0 r) (attesting 1)).fab.dget 0x1101 2 = 1 ∧
     (after (.deviceAttestationRequest mgmtRq r) s).fab.dget 0xA202 17 = 1 ∧ after (.attestationSigned 0) s = s ∧
     (after (.attestationSigned 0) (after (.attestationRequest (tenantRq 1) 0 r) s)).fab.dget 0xA202 1 = 2) := by decide +kernel

theorem witness_fuses : (let s := { running (fun f => f.dset 0xA000 3 9) vf1 with sec := { Sec.reset with fuses := { Fuses.shipped with keyHashes := [(0, 7), (1, 8)] } } }
     let o := { s with sec := { s.sec with fuses := { s.sec.fuses with keyHashes := [(0, 7)] } } }
     Claims.mayWriteNat s firmwareRq 0xA001 1 9 = true ∧ Claims.mayWriteNat s firmwareRq 0xA001 1 10 = true ∧
     (after (.securityVersionRaise firmwareRq 9) s).sec.fuses.versionMin = 9 ∧ (after (.securityVersionRaise firmwareRq 10) s).sec = s.sec ∧
     Claims.mayWriteNat s firmwareRq 0xA001 2 0 = true ∧ (after (.keyRevoke firmwareRq 0) s).sec.fuses.revoked = 1 ∧
     Claims.mayWriteNat o firmwareRq 0xA001 2 0 = true ∧ (after (.keyRevoke firmwareRq 0) o).sec = o.sec ∧
     Claims.mayWriteNat s firmwareRq 0xA001 3 1 = true ∧ (after (.debugDisable firmwareRq 1) s).sec.fuses.debugDisable = true) := by decide +kernel

/-! ### Memory maintenance -/

theorem witness_scrubs : (let s := running id vf1
     s.fab.badLines = [] ∧ after (.inkwellScrub 0 5 ⟨.clean, []⟩) s = s ∧ (after (.inkwellScrub 0 5 ⟨.corrected, []⟩) s).fab.dget 0x3020 3 = 1 ∧
     (after (.inkwellScrub 0 5 ⟨.uncorrectable, []⟩) s).fab.badLines = [0x100000140 / 64] ∧ (after (.inkwellScrub 0 5 ⟨.uncorrectable, []⟩) s).fab.dget 0x3020 4 = 0x100000140 ∧
     s.fab.offsetAt 1 5 7 = some (64 * lineAt 5 7) ∧ s.fab.locate none (lpddrBase 1 + 64 * lineAt 5 7) = .lpddr 1 (64 * lineAt 5 7) ∧
     s.fab.channelOf 1 (64 * lineAt 5 7) = 37 ∧ (after (.patrolScrub 37 7 ⟨.corrected, []⟩) s).fab.dget 0x3101 6 = 1 ∧
     (after (.patrolScrub 37 7 ⟨.uncorrectable, []⟩) s).fab.dget 0x3020 1 = 1 ∧ (after (.patrolScrub 37 7 ⟨.clean, []⟩) s).fab.badLines = [] ∧ s.fab.softLines = [] ∧
     s.fab.halts 896 = false ∧ s.fab.channelRuns 37 = true) := by decide +kernel

/-- No granule is owned, and some more state. -/
def unowned (g : Fab → Fab := id) : State := device g

theorem witness_hourly : (let near := fun (f : Fab) => { f with chanHour := [(37, f.eff 0x3020 0x40 - 1)] }
     let s := unowned near
     let o := running (fun f => (near f).dset 0xB102 62 0) vf1
     s.fab.offsetAt 1 5 7 = some (64 * lineAt 5 7) ∧ s.fab.channelOf 1 (64 * lineAt 5 7) = 37 ∧ s.fab.sliceGone 1 = false ∧
     s.fab.retirement 1 = none ∧ s.fab.ownedNext = 0 ∧ o.fab.ownedNext ≠ 0 ∧ s.fab.chanHour.get 0 37 + 1 = s.fab.eff 0x3020 0x40 ∧
     (after .hourlyWindow (unowned (fun f => (near f).dset 0x3020 0x40 9))).fab.eff 0x3020 0x40 = 9 ∧ (after .hourlyWindow s).fab.chanHour = [] ∧
     (let t := after (.patrolScrub 37 7 ⟨.corrected, []⟩) s
      t.fab.dget 0x3011 2 = 5 ∧ t.fab.dget 0x3012 2 = 2 ∧ t.fab.dget 0x3000 4 = 60) ∧
     (let t := after (.patrolScrub 37 7 ⟨.corrected, []⟩) o
      t.fab.dget 0x3012 2 = 1 ∧ t.fab.retirement 1 = some ⟨1, 5, 0, false⟩)) := by decide +kernel

theorem witness_dead_channels : (let s := unowned
     let d := unowned (fun f => { f with chanTimeouts := [(37, 1)], chanTraining := [(37, 2)] })
     let f := { d.fab with chanTimeouts := d.fab.chanTimeouts.clear (· == 37) }
     s.fab.colls = [] ∧ d.fab.sliceGone 1 = false ∧ d.fab.retirements = [] ∧ (((W.of d).map (fun _ => f)).endOwners 1).faults = [] ∧ d.fab.retirement 1 = none ∧ (after (.accessTimeout 37) s).fab.chanTimeouts = [(37, 1)] ∧
     (after (.accessTimeout 37) d).fab.dget 0x3012 2 = 3 ∧ (after (.retrainingFailure 37) s).fab.chanTraining.get 0 37 = 1 ∧
     (after (.retrainingFailure 37) d).fab.dget 0x3011 2 = 5) := by decide +kernel

/-- Slice 1 with channel 5 retired in some state, and the migration at a line. -/
def retired (st j : Nat) : State :=
  unowned (fun f => { ((f.dset 0x3012 2 st).dset 0x3013 2 j) with retirements := [⟨1, 5, 1, false⟩] })

theorem witness_migration : (let last := firstSpare 1 - 1
     (retired 2 0).fab.retirement 1 = some ⟨1, 5, 1, false⟩ ∧ (retired 2 0).fab.badLines = [] ∧ (retired 2 0).fab.softLines = [] ∧ (retired 2 0).fab.channelRuns 37 = true ∧ (after (.migrationLine 1 .clean) (retired 2 0)).fab.dget 0x3013 2 = 1 ∧
     (retired 2 last).fab.dget 0x3013 2 + 1 = firstSpare 1 ∧ (after (.migrationLine 1 .clean) (retired 2 last)).fab.dget 0x3012 2 = 4 ∧
     after (.migrationLine 1 .clean) (retired 4 0) = retired 4 0 ∧ (after (.homeFillDone 1) (retired 3 0)).fab.dget 0x3012 2 = 4 ∧
     after (.homeFillDone 1) (retired 4 0) = retired 4 0) := by decide +kernel

theorem witness_missed_refresh : (let s := unowned (fun f => f.onIsland 908 (fun _ => islandSafe))
     (s.fab.island 908).safe = true ∧ s.fab.sliceGone 1 = false ∧ s.fab.colls = [] ∧ (missedRefresh 908 (W.of s)).waits = false ∧
     (missedRefresh 908 (W.of s)).faults = [] ∧ (s.fab.island 904).safe = false ∧ (after (.missedRefreshTimeout 908) s).fab.sliceGone 1 = true ∧
     after (.missedRefreshTimeout 904) s = s) := by decide +kernel

/-! ### Well-formed commands: one ill-formed term for each check -/

/-- No term of a list is well formed. -/
def refusedAll {α : Type} (ok : α → Bool) (l : List α) : Bool := l.all (fun x => !ok x)

theorem ill_issue : Issue.wf 0x10 (on (rWord 0x10 1 2 3 false 0 0)) = true ∧
    refusedAll (Issue.wf 0x10) [⟨800, 0, rWord 0x10 1 2 3 false 0 0⟩, ⟨0, 8, rWord 0x10 1 2 3 false 0 0⟩, on (rWord 0x11 1 2 3 false 0 0)] = true := by
  decide +kernel

theorem ill_references : OpRef.wf ⟨799, 0⟩ = true ∧ OpRef.wf ⟨800, 0⟩ = false ∧ StreamRef.wf ⟨799, 15, 8199⟩ = true ∧
    refusedAll StreamRef.wf [⟨800, 0, 0⟩, ⟨0, 16, 0⟩, ⟨0, 0, 8200⟩] = true := by decide +kernel

theorem ill_entry : let e := entry 1 9 []
    e.wf = true ∧ refusedAll Entry.wf [{ e with partition := 16 }, { e with ring := 8 }, { e with opcode := 256 }, { e with reserved := 2 ^ 24 },
      { e with tag := 2 ^ 32 }, { e with words := [] }, { e with words := 2 ^ 64 :: List.replicate 6 0 }] = true := by decide +kernel

theorem ill_requester : (tenantRq 1).wf = true ∧
    refusedAll Requester.wf [⟨.mailbox 16 1, 0, 0, 0, .none⟩, ⟨.mailbox 0 256, 0, 0, 0, .none⟩, ⟨.management, 2 ^ 128, 0, 0, .none⟩,
      ⟨.inBand, 0, 65536, 0, .none⟩, ⟨.jtag, 0, 0, 64, .none⟩, ⟨.inBand, 0, 0, 0, ⟨32, 0, 0⟩⟩, ⟨.inBand, 0, 0, 0, ⟨0, 65536, 0⟩⟩,
      ⟨.management, 0, 0, 0, ⟨0, 0, 2 ^ 128⟩⟩] = true := by
  decide +kernel

theorem ill_frame : let f := frame 1 0x1100 4
    f.wf = true ∧ refusedAll Frame.wf [{ f with version := 16 }, { f with kind := 16 }, { f with status := 256 }, { f with requestId := 65536 },
      { f with index := 65536 }, { f with subindex := 256 }, { f with device := 4 }, { f with reply := 64 }, { f with offset := 65536 },
      { f with length := 128 }, { f with type := 256 }, { f with sequence := 2 ^ 32 }] = true := by decide +kernel

theorem ill_collective_message : let m := message (coll 7 64 (treeDesc 4 1 2 false)) 0 0 0 0 0 []
    m.wf = true ∧ refusedAll CollMsg.wf [{ m with via := { m.via with engine := 8 } }, { m with partition := 16 }, { m with attempt := 16 }, { m with kind := 16 }, { m with format := 4 }, { m with fmt := 4 },
      { m with tree := 65536 }, { m with source := 65536 }, { m with epoch := 2 ^ 32 }, { m with sequence := 2 ^ 32 }, { m with offset := 2 ^ 64 },
      { m with count := 65536 }, { m with size := 2 ^ 40 }, { m with newScale := 256 }] = true := by decide +kernel

theorem ill_packets : let k := packet 1 4 0
    let g := memberMsg 4 2 60
    let r : RdmaReq := { port := 0, secured := none, intact := true, ce := false, qp := 0, psn := 0, peer := 88, key := 9, address := 0, length := 2 }
    let sa : Secured := { channel := 0, an := 0, pn := 1 }
    flowOf.wf = true ∧ refusedAll FlowKey.wf [{ flowOf with engine := 8 }, { flowOf with peer := 2 ^ 128 }, { flowOf with localPartition := 16 },
      { flowOf with peerPartition := 16 }] = true ∧
    k.wf = true ∧ refusedAll Packet.wf [{ k with port := 32 }, { k with secured := some { sa with channel := 17 } }, { k with secured := some { sa with an := 4 } }, { k with secured := some { sa with pn := 2 ^ 64 } }, { k with udpPort := 65536 }, { k with sourceAddr := 2 ^ 128 },
      { k with destAddr := 2 ^ 128 }, { k with version := 16 }, { k with type := 16 }, { k with destPartition := 16 }, { k with sourcePartition := 16 },
      { k with channel := 16 }, { k with psn := 2 ^ 32 }, { k with ackPsn := 2 ^ 32 }, { k with length := 65536 }] = true ∧
    g.wf = true ∧ refusedAll MemberMsg.wf [{ g with group := 2 ^ 32 }, { g with epoch := 2 ^ 32 }, { g with member := 65536 }, { g with sequence := 2 ^ 32 },
      { g with timestamp := 2 ^ 64 }, { g with sender := 2 ^ 128 }, { g with pairs := List.replicate 9 (0, 0) }] = true ∧
    r.wf = true ∧ refusedAll RdmaReq.wf [{ r with port := 32 }, { r with secured := some { sa with channel := 17 } }, { r with peer := 2 ^ 128 }, { r with qp := 2 ^ 24 }, { r with psn := 2 ^ 24 },
      { r with key := 2 ^ 32 }, { r with address := 2 ^ 64 }, { r with length := 2 ^ 64 }] = true := by decide +kernel

theorem ill_outcomes : refusedAll Transfer.wf [.uncorrectable (2 ^ 43), .collective 256] = true ∧ Transfer.wf .done = true ∧
    refusedAll ClearUnit.wf [.computeDie 16, .finePair 16, .inkwell 8, .blotter 8] = true ∧ ClearUnit.wf .granules = true ∧
    image0.wf = true ∧ refusedAll FirmwareImage.wf [{ image0 with magic := 2 ^ 32 }, { image0 with headerVersion := 2 ^ 16 }, { image0 with keySlot := 256 },
      { image0 with securityVersion := 2 ^ 32 }, { image0 with bodyLength := 2 ^ 32 }, { image0 with build := 2 ^ 64 }, { image0 with publicKey := 2 ^ 512 }] = true := by
  decide +kernel

theorem ill_events : refusedAll Instr.wf [.counterWake 800 0, .counterWake 0 8, .waitTimeout 800 0, .waitTimeout 0 8, .asyncExceptionTaken 800 0,
    .asyncExceptionTaken 0 8, .clusterTerminationDone 800, .terminationReport 800, .launchAdmit 16, .imageLoadComplete 800, .launchEnd 16 0,
    .launchEnd 0 (2 ^ 32), .commitBankFreed 17, .drainLimitExpiry 17, .voidResponseDrop ⟨800, 0, .clean⟩, .drainComplete ⟨800, 0⟩, .outWriteAccepted ⟨⟨0, 16, 0⟩, 0, .clean⟩,
    .nop (on (rWord 1 0 0 0 false 0 0))] = true := by decide +kernel

theorem ill_host_commands : let e := entry 1 9 []
    refusedAll Instr.wf [.sqTailDoorbell 16 0 0, .sqTailDoorbell 0 8 0, .sqTailDoorbell 0 0 (2 ^ 32), .submissionFetch 16 0, .cqHeadDoorbell 16 0,
      .completionWrite 16, .ringRegisterWrite 16 0 .base 0, .ringRegisterWrite 0 9 .base 0, .ringRegisterWrite 0 0 .base (2 ^ 64),
      .hostWindowTableWrite 16 0 0 0 0 0, .hostWindowTableWrite 0 16 0 0 0 0, .hostWindowTableWrite 0 0 (2 ^ 64) 0 0 0, .hostWindowTableWrite 0 0 0 (2 ^ 64) 0 0,
      .hostWindowTableWrite 0 0 0 0 256 0, .hostWindowTableWrite 0 0 0 0 0 (2 ^ 56), .mailboxSend .pf 16 0 0, .mailboxSend .pf 0 64 0,
      .mailboxRetract .pf 16 0, .mailboxRetract .pf 0 64, .mailboxTake .pf 16 0, .mailboxTake .pf 0 64, .functionLevelReset 16, .cancel { e with ring := 8 },
      .launch e [] [] [] [], .launch e (List.replicate 16 0) [800] [] [], .launch e (List.replicate 16 0) [] [1024] [], .launch e (List.replicate 16 0) [] [] [256],
      .batchAdmit e (List.replicate 4097 0), .batchAdmit e [65536], .folioMoveComplete 16 0 [] .done, .folioMoveComplete 0 65536 [] .done, .folioMoveComplete 0 0 [] (.collective 256), .folioExpiry 16 0,
      .folioExpiry 0 65536, .samplerStart 8, .samplerCommit 8, .samplerComplete 8, .waveOpen 16, .fallbackAreasWritten 16, .ductusJobStart 8 0,
      .ductusJobStart 0 16, .ductusTurn 8 [], .ductusJobComplete 8 0 .done, .ductusJobComplete 0 16 .done] = true := by decide +kernel

theorem ill_network_events : refusedAll Instr.wf [.roceAckTimeout 16 0, .roceAckTimeout 0 4096, .cnp ⟨16, 0, none⟩ 0, .cnp ⟨0, 32, none⟩ 0,
    .cnp ⟨0, 0, some ⟨17, 0, 0⟩⟩ 0, .cnp ⟨0, 0, none⟩ 4096, .neighbourSolicitation ⟨33, none⟩ 0, .neighbourSolicitation ⟨0, some ⟨0, 4, 0⟩⟩ 0,
    .neighbourSolicitation ⟨0, none⟩ (2 ^ 128), .echoRequest ⟨33, none⟩ 0 0, .echoRequest ⟨0, none⟩ (2 ^ 128) 0, .echoRequest ⟨0, none⟩ 0 (2 ^ 128),
    .ptpMessage ⟨32, 0, false⟩ 0 false, .ptpMessage ⟨0, 256, false⟩ 0 false, .portLinkUp 32,
    .portLinkDown 32, .laneSignalLoss 64, .laneErrorWindow 64 ⟨0, 0, 0⟩, .portFormed 32, .portFormFailed 32, .laserLowLight 8, .laserFault 2, .baseLinkCrcError 10,
    .baseLinkReplayTimeout 10, .workerLossTimeout 65536, .cascadeLinkLoss 4] = true := by decide +kernel

theorem ill_agent_commands : let r := firmwareRq
    let f := frame 1 0 0
    refusedAll Instr.wf [.mgmtPortFrame ⟨2 ^ 128, 0, 0⟩ f 0, .mgmtPortFrame ⟨0, 65536, 0⟩ f 0, .mgmtPortFrame ⟨0, 0, 65536⟩ f 0,
      .mgmtPortFrame ⟨0, 0, 0⟩ f (2 ^ 256), .inBandRinayFrame (2 ^ 128) f ⟨0, 0, 0, true⟩ none, .inBandRinayFrame 0 f ⟨32, 0, 0, true⟩ none,
      .inBandRinayFrame 0 f ⟨0, 65536, 0, true⟩ none, .inBandRinayFrame 0 f ⟨0, 0, 65536, true⟩ none,
      .inBandRinayFrame 0 f ⟨0, 0, 0, true⟩ (some ⟨0, 0, 2 ^ 64⟩),
      .dictionaryWrite r 65536 0 0, .dictionaryWrite r 0 256 0, .portModeWrite r 8 0, .portModeWrite r 0 256, .portEnableWrite r 32 0, .portEnableWrite r 0 256,
      .eventLogRelease r 4097, .noivosFullRestoreLocal r 16, .noivosDeltaRestoreLocal r 16, .noivosFullRestoreRemote r 16, .noivosDeltaRestoreRemote r 16,
      .restored 16 [] [] false, .checkpointPageAck 16 0, .checkpointPageAck 0 (2 ^ 40), .checkpointFailed 16 0, .checkpointFailed 0 16,
      .ewsResume { r with reply := 64 } true] = true := by decide +kernel

theorem ill_device_commands : let r := firmwareRq
    refusedAll Instr.wf [.dutyUpdate 65, .pllReady 946 0, .pllReady 0 2, .pllLockLoss ⟨946, false⟩, .hardwareClockSwitch 946, .missedRefreshTimeout 946,
      .referenceLoss 2, .referenceReturn 2, .bootGo (2 ^ 64) 0, .bootGo 0 (2 ^ 64), .firmwareStart { image0 with keySlot := 256 },
      .bootCheckFailed 256 image0, .partitionReset r 16, .clusterReset r 800, .clusterResetDone 800 0, .hpPerstRelease 256 0, .hpPerstRelease 0 256,
      .watchdog 4 0, .partitionStart r 16, .partitionStop r 16, .partitionMapWrite r 65536 0 0, .partitionMapWrite r 0 256 0, .unitClearDone 16 .granules,
      .unitClearDone 0 (.inkwell 8), .strictIsolationWrite r 256, .macsecModeWrite r 32 0, .macsecModeWrite r 0 256, .macsecKeyInstall r 16 [],
      .macsecKeyDelete r 16 [], .attestationRequest r 16 [], .attestationSigned 17, .securityVersionRaise r 65536, .keyRevoke r 4, .debugDisable r 256,
      .inkwellScrub 8 0 ⟨.clean, []⟩, .inkwellScrub 0 (2 ^ 33) ⟨.clean, []⟩, .patrolScrub 256 0 ⟨.clean, []⟩, .patrolScrub 0 (2 ^ 33) ⟨.clean, []⟩, .accessTimeout 256,
      .retrainingFailure 256, .migrationLine 8 .clean, .homeFillDone 8] = true := by decide +kernel

end Sys2Proof.Tests
end

section
/-! PROOFS. Every command answers a next state, and neither reads nor changes the queue: shown of each lift, and so of every
command by its lift. -/

namespace Sys2Proof.Machine

open Sys2Proof

/-- A meaning that answers a next state in every state and does the same to the rest of the state whatever queue stands
behind it. -/
def IgnoresQueue (m : State → Host.Outcome State Fault Refusal) : Prop :=
  ∀ s q, ∃ t, m s = .next t ∧ m { s with pending := q } = .next { t with pending := q }

/-- The work on a state does not hold the queue. -/
@[simp] theorem W.of_pending (s : State) (q : List Instr) : W.of { s with pending := q } = W.of s := rfl

/-- A change made under a condition that does not read the queue. -/
theorem ignoresQueue_ite {cond : State → Prop} [DecidablePred cond] {effect : State → State}
    (hcond : ∀ s q, cond { s with pending := q } ↔ cond s)
    (heffect : ∀ s q, effect { s with pending := q } = { effect s with pending := q }) :
    IgnoresQueue (fun s => .next (if cond s then effect s else s)) := by
  intro s q
  refine ⟨_, rfl, ?_⟩
  by_cases h : cond s
  · simp only [if_pos h, if_pos ((hcond s q).2 h), heffect s q]
  · simp only [if_neg h, if_neg (mt (hcond s q).1 h)]

theorem onFab_ignoresQueue (f : Fab → Fab) : IgnoresQueue (fun s => onFab s f) :=
  ignoresQueue_ite (fun _ _ => Iff.rfl) (fun _ _ => rfl)

theorem onHost_ignoresQueue (f : Fab → Fab) : IgnoresQueue (fun s => onHost s f) :=
  onFab_ignoresQueue _

theorem onRead_ignoresQueue (f : W → Fab) : IgnoresQueue (fun s => onRead s f) :=
  ignoresQueue_ite (fun _ _ => Iff.rfl) (fun s q => by simp)

theorem onMem_ignoresQueue (f : W → W) : IgnoresQueue (fun s => onMem s f) :=
  ignoresQueue_ite (fun s q => by simp) (fun s q => by simp)

theorem onAll_ignoresQueue (f : W → W) : IgnoresQueue (fun s => onAll s f) :=
  ignoresQueue_ite (fun s q => by simp) (fun s q => by simp)

theorem onAny_ignoresQueue (f : W → W) : IgnoresQueue (fun s => onAny s f) :=
  fun s q => ⟨_, rfl, by simp [onAny]⟩

/-- Every lift answers and ignores the queue, whatever change it lifts. -/
theorem Lift.Is.ignoresQueue {l : Lift} {m : State → Host.Outcome State Fault Refusal} (h : l.Is m) : IgnoresQueue m := by
  cases l <;> obtain ⟨f, hf⟩ := h <;> rw [funext hf]
  case fab => exact onFab_ignoresQueue f
  case host => exact onHost_ignoresQueue f
  case read => exact onRead_ignoresQueue f
  case mem => exact onMem_ignoresQueue f
  case all => exact onAll_ignoresQueue f
  case any => exact onAny_ignoresQueue f

theorem exec_ignoresQueue (c : Instr) : IgnoresQueue (exec c) := (exec_lift c).ignoresQueue

/-- Every command answers a next state. -/
theorem exec_answers (c : Instr) (s : State) : ∃ t, exec c s = .next t := by
  obtain ⟨t, ht, -⟩ := exec_ignoresQueue c s s.pending
  exact ⟨t, ht⟩

/-- A command does the same to the rest of the state with any queue behind it. -/
theorem exec_pending {c : Instr} {s t : State} (h : exec c s = .next t) (q : List Instr) :
    exec c { s with pending := q } = .next { t with pending := q } := by
  obtain ⟨u, hu, hq⟩ := exec_ignoresQueue c s q
  cases hu.symm.trans h
  exact hq

/-- Settles O2: each command is its lift of some change (`exec_lift`), and every lift answers and ignores the queue. -/
theorem commandsAnswerAndLeaveTheQueue : Obligations.CommandsAnswerAndLeaveTheQueue :=
  ⟨exec_answers, fun _ _ _ q h => ⟨exec_pending h q, (exec_keeps h).1⟩⟩

end Sys2Proof.Machine
end

section
/-! PROOFS. DRAINB at the Blotter (O45): the ports that run at its end inject a DRAINB of another cluster that has started and not
been injected. -/

namespace Sys2Proof.Machine

open Sys2Proof

/-- A DRAINB of one row and two columns into row 1 of slot 5, started: it has read 1.0 in column 0 (R153). -/
def startedDrain : Op :=
  { id := 4, strand := 0, epc := 9, kind := .drainb 5 1 0 1 2 (some [(0, 0x3F800000)]), held := false, issued := 0, due := 9, late := false }

/-- A running cluster with one live strand and that DRAINB in flight. -/
def drainingCluster : Cluster :=
  { Cluster.idleReset with phase := .running, strands := [(0, { Strand.idleReset with st := .running })], ops := [startedDrain] }

/-- The transaction of cluster 0's DRAINB, at the Blotter of base die 0 (R19, R33). -/
def drainAtBlotter : Txn :=
  { id := 3, tag := { partition := 0, bank := false, cls := 4, sourceDie := 0, sourceUnit := 0, destDie := 16, seq := 0 },
    addr := 5, len := 256, more := [], write := some [], origin := .op 0 4, far := .slot 5, heldPage := false, routeBank := false,
    route := [800, 896], behind := 896, ahead := [] }

/-- An Accumulating slice of Writer 0 with four units, in slot 5 of base die 0 (R282). -/
def accumulatingSlice : Slice :=
  { number := 0, state := 2, fallback := 0, writer := 0, layer := 0, link := 0, linkKind := 0, wave := 0, units := 4, home := 0, slot := 5,
    kind := 0, frozen := false, onFallback := false }

/-- Clusters 0 and 1 have each started a DRAINB into slot 5 of their base die; only that of cluster 0 has been injected. -/
def twoDrains : State :=
  { State.reset with fab := { Fab.reset with
      clusters := [(0, drainingCluster), (1, drainingCluster)], txns := [drainAtBlotter], nextTxn := 4,
      steps := [(0, { number := 7, waveCounter := 3, wave := 0, waves := 1, slices := [accumulatingSlice], filling := false })],
      slots := [(5, ⟨.slice 0 0, [(64, 0x40000000)]⟩)] } }

/-- What a command that changes memory leaves of the device, with the firmware running and nothing to wait for. -/
theorem fab_of_onMem {s t : State} {f : W → W} (h : onMem s f = .next t) (hp : s.fab.phase = .running)
    (hw : (f (W.of s)).settled.waits = false) : t.fab = (f (W.of s)).settled.fab := by
  cases (onMem_running f hp hw).symm.trans h
  rfl

/-- DRAINB_APPLIED of cluster 0's DRAINB in `twoDrains`, as the work it does. -/
def appliedToTwoDrains : W := ((W.of twoDrains).atCluster 0 (drainbApplied ⟨0, 4⟩)).settled

/-- The end of cluster 0's DRAINB has the ports inject that of cluster 1, whose transaction is then in flight (R19, R235). -/
theorem appliedToTwoDrains_txns : appliedToTwoDrains.waits = false ∧ appliedToTwoDrains.fab.txns.map Txn.origin = [.op 1 4] := by
  decide +kernel

/-- Refutes O45: in `twoDrains` every hypothesis of the first clause holds and a transaction is left in flight, that of the DRAINB
that cluster 1 had started before; the statement asks that none is left. -/
theorem not_drainsAddToTheirSlice : ¬ Obligations.DrainsAddToTheirSlice := by
  unfold Obligations.DrainsAddToTheirSlice
  intro h
  have atWork : Claims.atWork twoDrains 0 := ⟨by decide, 0, rfl⟩
  have portsEmpty : Claims.portsEmpty twoDrains := ⟨rfl, by decide⟩
  obtain ⟨t, ht, -, -, htxns, -⟩ := (h twoDrains ⟨0, 4⟩ startedDrain drainAtBlotter 5 1 0 1 2 [(0, 0x3F800000)] rfl atWork rfl rfl rfl
    rfl rfl rfl (by decide) portsEmpty rfl (by decide)).1 accumulatingSlice (by decide) rfl (by decide)
  obtain ⟨hwaits, hleft⟩ := appliedToTwoDrains_txns
  have hfab : t.fab = appliedToTwoDrains.fab := 
    fab_of_onMem (f := fun w => w.atCluster 0 (drainbApplied ⟨0, 4⟩)) ht rfl hwaits
  rw [← hfab, htxns] at hleft
  exact absurd hleft (by simp)

end Sys2Proof.Machine
end

section
/-! PROOFS. What the ports and crossings do leaves the setup scopes (R22, R26, R225, R226, R235), one lemma per operation of the
model that `W.flow` reaches. -/

namespace Sys2Proof.Machine

open Sys2Proof

/-- What every step of a fold keeps, the fold keeps. -/
theorem foldl_keeps {σ α β : Type} {step : σ → α → σ} (g : σ → β) (h : ∀ s a, g (step s a) = g s) (l : List α) (s : σ) :
    g (l.foldl step s) = g s := by
  induction l generalizing s with
  | nil => rfl
  | cons a l ih => rw [List.foldl_cons, ih, h]

/-! ### Counters, operations and exceptions -/

@[simp] theorem Fab.dadd_scopes (f : Fab) (i j n : Nat) : (f.dadd i j n).scopes = f.scopes := rfl

@[simp] theorem Fab.applySignal_scopes (f : Fab) (c scope i : Nat) (n : Option W32) (v : W32) :
    (f.applySignal c scope i n v).scopes = f.scopes := by
  unfold Fab.applySignal Fab.setCounter
  split <;> rfl

theorem Fab.settleFuel_scopes (c n : Nat) (f : Fab) : (Fab.settleFuel c n f).scopes = f.scopes := by
  induction n generalizing f with
  | zero => rfl
  | succ n ih =>
    unfold Fab.settleFuel
    dsimp only
    split
    · split
      · rw [ih, Fab.applySignal_scopes, Fab.onCluster_scopes]
      · rfl
    · rfl

@[simp] theorem Fab.finish_scopes (f : Fab) (c id : Nat) : (f.finish c id).scopes = f.scopes := by
  rw [Fab.finish, Fab.settle, Fab.settleFuel_scopes, Fab.onCluster_scopes]

@[simp] theorem Fab.dropOp_scopes (f : Fab) (c : Nat) (o : Op) : (f.dropOp c o).scopes = f.scopes := by
  unfold Fab.dropOp
  rw [Fab.finish_scopes]
  split <;> rfl

@[simp] theorem Fab.raiseAsync_scopes (f : Fab) (c k : Nat) (x : Exc) : (f.raiseAsync c k x).scopes = f.scopes := by
  unfold Fab.raiseAsync
  split
  · rfl
  · rfl
  · split <;> simp
  · split <;> simp

@[simp] theorem Fab.countFlags_scopes (f : Fab) (r : Raise) : (f.countFlags r).scopes = f.scopes := by
  unfold Fab.countFlags
  dsimp only
  split <;> split <;> split <;> rfl

@[simp] theorem Fab.raiseFlags_scopes (f : Fab) (c k : Nat) (epc : BitVec 16) (r : Raise) :
    (f.raiseFlags c k epc r).scopes = f.scopes := by
  unfold Fab.raiseFlags
  dsimp only
  split
  · rfl
  · split <;> simp

/-! ### Queue pairs and hops -/

@[simp] theorem Fab.onQp_scopes (f : Fab) (p i : Nat) (g : Qp → Qp) : (f.onQp p i g).scopes = f.scopes := rfl

@[simp] theorem Fab.rdmaPacket_scopes (f : Fab) (p i : Nat) (r : RdmaOut) : (f.rdmaPacket p i r).scopes = f.scopes := rfl

theorem Fab.qpPump_scopes (p i n : Nat) (f : Fab) : (Fab.qpPump p i n f).scopes = f.scopes := by
  induction n generalizing f with
  | zero => rfl
  | succ n ih =>
    unfold Fab.qpPump
    dsimp only
    split
    · split
      · rfl
      · rw [ih, Fab.rdmaPacket_scopes, Fab.onQp_scopes]
    · rfl

@[simp] theorem Fab.rdmaSend_scopes (f : Fab) (p i : Nat) (r : RdmaOut) : (f.rdmaSend p i r).scopes = f.scopes := by
  rw [Fab.rdmaSend, Fab.qpPump_scopes, Fab.onQp_scopes]

@[simp] theorem Fab.rdmaWrite_scopes (f : Fab) (engine p i entry offset : Nat) (bytes : List Byte) :
    (f.rdmaWrite engine p i entry offset bytes).scopes = f.scopes := Fab.rdmaSend_scopes _ _ _ _

@[simp] theorem Fab.sendFar_scopes (f : Fab) (t : Txn) : (f.sendFar t).scopes = f.scopes := by
  unfold Fab.sendFar
  split
  · rfl
  · rfl
  · rfl
  · rfl
  · exact foldl_keeps Fab.scopes (fun _ _ => Fab.rdmaSend_scopes _ _ _ _) _ _
  · exact Fab.rdmaWrite_scopes _ _ _ _ _ _ _

theorem Fab.hopsFuel_scopes (n : Nat) (f : Fab) : (Fab.hopsFuel n f).scopes = f.scopes := by
  induction n generalizing f with
  | zero => rfl
  | succ n ih =>
    unfold Fab.hopsFuel
    dsimp only
    split
    · rw [ih]
      split <;> simp
    · rfl

@[simp] theorem Fab.hops_scopes (f : Fab) : f.hops.scopes = f.scopes := Fab.hopsFuel_scopes _ _

/-! ### Injections -/

@[simp] theorem Fab.refusedEvent_scopes (f : Fab) (x : Answer) (t : Tag) : (f.refusedEvent x t).scopes = f.scopes := by
  unfold Fab.refusedEvent
  split
  · exact Fab.raise_scopes _ _ _ _ _ _
  · exact Fab.raise_scopes _ _ _ _ _ _
  · rfl

/-- The device that an injection leaves, made or refused. -/
@[simp] def injected : Except (Fab × Tag) Fab → Fab
  | .ok g => g
  | .error (g, _) => g

theorem Fab.tryInject_scopes {f : Fab} {c a len : Nat} {far : Far} {write : Option (List Byte)} {origin : TxnFor}
    {more : List (Nat × Nat)} {r : Except (Fab × Tag) Fab} (h : f.tryInject c far a len write origin more = some r) :
    (injected r).scopes = f.scopes := by
  unfold Fab.tryInject at h
  extract_lets at h
  split at h
  · cases h
  · extract_lets at h
    split at h
    · cases h
      simp
    · obtain ⟨-, h⟩ := Option.ite_none_left_eq_some.1 h
      cases h
      rfl

theorem Fab.injectAccess_scopes {f g : Fab} {x : Waiting} (h : f.injectAccess x = some g) : g.scopes = f.scopes := by
  unfold Fab.injectAccess at h
  dsimp only at h
  split at h
  · cases h
  · next hr => cases h; exact Fab.tryInject_scopes hr
  · next hr =>
    have hr := Fab.tryInject_scopes hr
    split at h
    · cases h
      simpa using hr
    · cases h
      exact hr

theorem Fab.injectDrain_scopes {f g : Fab} {c : Nat} {o : Op} (h : f.injectDrain c o = some g) : g.scopes = f.scopes := by
  unfold Fab.injectDrain at h
  split at h
  · split at h
    · cases h
    · split at h
      · next hr => cases h; exact Fab.tryInject_scopes hr
      · cases h
  · cases h

@[simp] theorem Fab.onUid_scopes (f : Fab) (c uid : Nat) (g : Stream → Stream) : (f.onUid c uid g).scopes = f.scopes := rfl

theorem Fab.injectStream_scopes {f g : Fab} {c : Nat} {s : Stream} (h : f.injectStream c s = some g) : g.scopes = f.scopes := by
  have sent : ∀ {far : Far} {a len : Nat} {more : List (Nat × Nat)} {write : Option (List Byte)} {origin : TxnFor}
      {note : Stream → Stream}, (match f.tryInject c far a len write origin more with
        | none => none
        | some (.ok g) => some (g.onUid c s.uid note)
        | some (.error (g, t)) => some ((g.onUid c s.uid note).raiseAsync c (s.strand % 8) (noRouteExc s.epc t))) = some g →
      g.scopes = f.scopes := by
    intro far a len more write origin note h
    split at h
    · cases h
    · next hr => cases h; exact Fab.tryInject_scopes hr
    · next hr =>
      cases h
      rw [Fab.raiseAsync_scopes, Fab.onUid_scopes]
      exact Fab.tryInject_scopes hr
  unfold Fab.injectStream at h
  dsimp only at h
  split at h
  · split at h
    · exact sent h
    · cases h
  · split at h
    · exact sent h
    · split at h
      · split at h
        · cases h
        · split at h
          · exact sent h
          · exact sent h
      · cases h

theorem Fab.injectNext_scopes {f g : Fab} (h : f.injectNext = some g) : g.scopes = f.scopes := by
  unfold Fab.injectNext at h
  split at h
  · next hw =>
    cases h
    obtain ⟨x, -, hx⟩ := List.exists_of_findSome?_eq_some hw
    exact Fab.injectAccess_scopes hx
  · obtain ⟨e, -, he⟩ := List.exists_of_findSome?_eq_some h
    split at he
    · next hd =>
      cases he
      obtain ⟨o, -, ho⟩ := List.exists_of_findSome?_eq_some hd
      exact Fab.injectDrain_scopes ho
    · obtain ⟨s, -, hs⟩ := List.exists_of_findSome?_eq_some he
      exact Fab.injectStream_scopes hs

theorem Fab.pumpFuel_scopes (n : Nat) (f : Fab) : (Fab.pumpFuel n f).scopes = f.scopes := by
  induction n generalizing f with
  | zero => rfl
  | succ n ih =>
    unfold Fab.pumpFuel
    split
    · next h => rw [ih, Fab.hops_scopes, Fab.injectNext_scopes h]
    · rfl

@[simp] theorem Fab.pump_scopes (f : Fab) : f.pump.scopes = f.scopes := by
  rw [Fab.pump, Fab.pumpFuel_scopes, Fab.hops_scopes]

end Sys2Proof.Machine
end

section
/-! PROOFS. Memory errors, accesses, launches and collectives leave the setup scopes (R26, R205 to R212, R326), and so does all that
the ports and crossings do. -/

namespace Sys2Proof.Machine

open Sys2Proof

/-! ### Errors of memory and retired channels -/

@[simp] theorem Fab.memRecorded_scopes (f : Fab) (pl : Place) (part : Option Nat) : (f.memRecorded pl part).scopes = f.scopes := by
  unfold Fab.memRecorded
  rw [Fab.raise_scopes, Fab.dset_scopes]
  split <;> rfl

@[simp] theorem Fab.memUncorrectable_scopes (f : Fab) (pl : Place) (part : Option Nat) :
    (f.memUncorrectable pl part).scopes = f.scopes := Fab.memRecorded_scopes _ _ _

@[simp] theorem Fab.withdraw_scopes (f : Fab) (n : Nat) : (f.withdraw n).scopes = f.scopes := rfl

@[simp] theorem Fab.setRetirement_scopes (f : Fab) (r : Retirement) : (f.setRetirement r).scopes = f.scopes := rfl

@[simp] theorem Fab.migrate_scopes (f : Fab) (b : Nat) : (f.migrate b).scopes = f.scopes := by
  unfold Fab.migrate
  split
  · split <;> simp
  · rfl

@[simp] theorem Fab.resetEnds_scopes (f : Fab) (p : Nat) : (f.resetEnds p).scopes = f.scopes := by
  unfold Fab.resetEnds
  dsimp only
  split <;> rfl

@[simp] theorem Fab.finishWaits_scopes (f : Fab) : f.finishWaits.scopes = f.scopes := by
  unfold Fab.finishWaits
  split
  · rfl
  · exact foldl_keeps Fab.scopes Fab.resetEnds_scopes _ _

@[simp] theorem Fab.offline_scopes (f : Fab) (ch : Nat) (dead : Bool) : (f.offline ch dead).scopes = f.scopes := by
  unfold Fab.offline
  dsimp only
  rw [Fab.finishWaits_scopes, Fab.raise_scopes, Fab.dset_scopes]

@[simp] theorem Fab.predict_scopes (f : Fab) (ch : Nat) : (f.predict ch).scopes = f.scopes := by
  unfold Fab.predict
  dsimp only
  split
  · rfl
  · split
    · split <;> simp
    · split <;> simp

@[simp] theorem Fab.hourCount_scopes (f : Fab) (ch : Nat) : (f.hourCount ch).scopes = f.scopes := by
  unfold Fab.hourCount
  dsimp only
  split
  · rw [Fab.predict_scopes]
  · rfl

@[simp] theorem Fab.memCorrected_scopes (f : Fab) (pl : Place) (part : Option Nat) : (f.memCorrected pl part).scopes = f.scopes := by
  unfold Fab.memCorrected
  rw [Fab.raise_scopes]
  split <;> simp

@[simp] theorem Fab.wellCode_scopes (f : Fab) (c : Nat) (keys : List Nat) : (f.wellCode c keys).1.scopes = f.scopes := by
  unfold Fab.wellCode
  split
  · rfl
  · split
    · rfl
    · refine foldl_keeps Fab.scopes (fun g k => ?_) keys f
      split <;> simp

@[simp] theorem W.wellPut_scopes (w : W) (c off : Nat) (bytes : List Byte) : (w.wellPut c off bytes).fab.scopes = w.fab.scopes := by
  unfold W.wellPut
  split
  · rw [W.puts_fab]
  · dsimp only
    rw [W.map_fab, foldl_keeps Fab.scopes (fun _ _ => Fab.memRecorded_scopes _ _ _), Fab.wellCode_scopes]
    refine foldl_keeps (fun w : W => w.fab.scopes) (fun x i => ?_) _ w
    split <;> rfl

/-! ### Accesses -/

theorem Fab.drawSlot_scopes (ch : Nat) (s : SubShare) (n : Nat) (f : Fab) : (Fab.drawSlot ch s n f).scopes = f.scopes := by
  induction n generalizing f with
  | zero => rfl
  | succ n ih =>
    unfold Fab.drawSlot
    dsimp only
    split
    · rfl
    · split
      · rfl
      · rw [ih]

@[simp] theorem Fab.accessDone_scopes (f : Fab) (a : Nat) : (f.accessDone a).scopes = f.scopes := by
  unfold Fab.accessDone
  split
  · split <;> rfl
  · rfl

@[simp] theorem Fab.lineDone_scopes (f : Fab) (s : SubShare) (p l : Nat) (write part : Bool) :
    (f.lineDone s p l write part).scopes = f.scopes := by
  unfold Fab.lineDone
  split
  · dsimp only
    rw [foldl_keeps Fab.scopes (fun g _ => Fab.drawSlot_scopes _ s 16 g), Fab.accessDone_scopes]
  · rfl

@[simp] theorem Fab.rangeDone_scopes (f : Fab) (s : SubShare) (p a n : Nat) (write : Bool) :
    (f.rangeDone s p a n write).scopes = f.scopes :=
  foldl_keeps Fab.scopes (fun _ _ => Fab.lineDone_scopes _ _ _ _ _ _) _ _

@[simp] theorem Fab.corrects_scopes (f : Fab) (part : Option Nat) (a n : Nat) : (f.corrects part a n).scopes = f.scopes := by
  unfold Fab.corrects
  split
  · rfl
  · refine foldl_keeps Fab.scopes (fun g l => ?_) _ f
    split
    · exact Fab.memCorrected_scopes _ _ _
    · rfl

@[simp] theorem W.access_scopes (w : W) (tag : Nat → Tag) (a n : Nat) (write : Bool) :
    (w.access tag a n write).1.fab.scopes = w.fab.scopes := by
  unfold W.access
  dsimp only
  split
  · rfl
  · split
    · split
      · exact Fab.raise_scopes _ _ _ _ _ _
      · split
        · rfl
        · split
          · exact Fab.rangeDone_scopes _ _ _ _ _ _
          · split <;> simp
    · exact Fab.raise_scopes _ _ _ _ _ _
    · exact Fab.raise_scopes _ _ _ _ _ _
    · rfl

theorem W.reach_scopes (tag : Nat → Bool → Tag) (l : List (Nat × Nat × Bool)) (w : W) :
    (W.reach tag l w).1.fab.scopes = w.fab.scopes := by
  induction l generalizing w with
  | nil => rfl
  | cons x l ih =>
    obtain ⟨a, n, write⟩ := x
    unfold W.reach
    dsimp only
    split
    · rw [ih, W.access_scopes]
    · rw [W.access_scopes]

@[simp] theorem W.rubricReach_scopes (p : Nat) (l : List (Nat × Nat × Bool)) (w : W) :
    (W.rubricReach p l w).1.fab.scopes = w.fab.scopes := W.reach_scopes _ _ _

/-! ### Stores -/

@[simp] theorem Fab.endCheckpoint_scopes (f : Fab) (p : Nat) : (f.endCheckpoint p).scopes = f.scopes := rfl

@[simp] theorem Fab.setNoivos_scopes (f : Fab) (p : Nat) (v : Noivos) : (f.setNoivos p v).scopes = f.scopes := rfl

@[simp] theorem Fab.failTarget_scopes (f : Fab) (p target status : Nat) : (f.failTarget p target status).scopes = f.scopes := by
  unfold Fab.failTarget
  split
  · split
    · dsimp only
      split <;> simp
    · rfl
  · rfl

@[simp] theorem Fab.failCheckpoint_scopes (f : Fab) (p : Nat) : (f.failCheckpoint p).scopes = f.scopes :=
  foldl_keeps Fab.scopes (fun _ _ => Fab.failTarget_scopes _ _ _ _) _ _

/-- A change of the device within the work keeps the scopes that the change keeps. -/
theorem W.map_scopes {g : Fab → Fab} (hg : ∀ f, (g f).scopes = f.scopes) {w : W} {l : Tbl Scope} (hw : w.fab.scopes = l) :
    (w.map g).fab.scopes = l := (hg w.fab).trans hw

theorem W.withFaults_scopes {w : W} {l : Tbl Scope} (hw : w.fab.scopes = l) (x : List (Nat × Nat)) :
    ({ w with faults := x } : W).fab.scopes = l := hw

theorem W.checkpointFails_scopes {w : W} {l : Tbl Scope} (hw : w.fab.scopes = l) (p : Nat) :
    (w.map (fun f => f.failCheckpoint p)).fab.scopes = l := W.map_scopes (fun f => Fab.failCheckpoint_scopes f p) hw

theorem W.pageSent_scopes {w : W} {l : Tbl Scope} (hw : w.fab.scopes = l) {note : Fab → Fab}
    (hnote : ∀ f, (note f).scopes = f.scopes) (targets : List (Nat × Nat)) (engine p offset : Nat) (bytes : List Byte) :
    (w.map (fun f => targets.foldl (fun g e => g.rdmaWrite engine p e.2 (f.endpointEntry p e.2) offset bytes)
      (note f))).fab.scopes = l :=
  W.map_scopes (fun f => (foldl_keeps Fab.scopes (fun g _ => Fab.rdmaWrite_scopes g _ _ _ _ _ _) targets (note f)).trans (hnote f)) hw

-- The branches are closed by lemmas about any work: unfolding them here would have the kernel run the read of a page.
@[simp] theorem W.readPage_scopes (w : W) (p page : Nat) : (w.readPage p page).fab.scopes = w.fab.scopes := by
  have reached := W.access_scopes w (fun d => w.fab.unitTag p (d - 16) 6 d false) (page * 65536) 65536 false
  fun_cases W.readPage w p page
  case case1 => rfl
  case case2 c _ _ r note _ bytes off targets =>
    exact W.pageSent_scopes reached (note := note { c with read := c.read ++ [page] }) (fun _ => rfl) targets _ p off bytes
  case case3 => exact W.checkpointFails_scopes (W.withFaults_scopes reached _) p
  case case4 => exact reached
  case case5 => exact W.checkpointFails_scopes reached p
  case case6 => rfl

@[simp] theorem W.readPages_scopes (w : W) (p a n : Nat) : (w.readPages p a n).fab.scopes = w.fab.scopes := by
  unfold W.readPages
  split
  · rfl
  · exact foldl_keeps (fun w : W => w.fab.scopes) (fun x _ => W.readPage_scopes x _ _) _ w

@[simp] theorem W.rekey_scopes (w : W) (p l : Nat) : (w.rekey p l).fab.scopes = w.fab.scopes := by
  unfold W.rekey
  dsimp only
  split
  · rfl
  · rw [W.map_fab]
    dsimp only
    split
    · split
      · rfl
      · rw [W.puts_fab]
    · rfl

@[simp] theorem Fab.dirty_scopes (f : Fab) (p a n : Nat) : (f.dirty p a n).scopes = f.scopes := by
  unfold Fab.dirty
  dsimp only
  split <;> rfl

@[simp] theorem W.store_scopes (w : W) (p a : Nat) (bytes : List Byte) : (w.store p a bytes).fab.scopes = w.fab.scopes := by
  unfold W.store
  extract_lets n w0 ls bad whole w1 w2
  have h1 : w1.fab.scopes = w.fab.scopes :=
    (foldl_keeps (fun w : W => w.fab.scopes) (fun x l => W.rekey_scopes x p l) _ w0).trans (W.readPages_scopes w p a n)
  have h2 : w2.fab.scopes = w.fab.scopes := by
    refine Eq.trans ?_ h1
    simp only [w2]
    split
    · rw [W.puts_fab]
    · refine foldl_keeps (fun w : W => w.fab.scopes) (fun x i => ?_) _ w1
      split <;> rfl
  rw [W.map_fab, Fab.dirty_scopes]
  refine (foldl_keeps Fab.scopes (fun g l => Fab.memRecorded_scopes g (g.locate none (64 * l)) (some p)) bad _).trans ?_
  split
  · exact h2
  · refine (foldl_keeps Fab.scopes (fun g l => ?_) ls w2.fab).trans h2
    split
    · rfl
    · exact Fab.corrects_scopes _ _ _ _

@[simp] theorem W.putEntry_scopes (w : W) (p a v : Nat) : (w.putEntry p a v).fab.scopes = w.fab.scopes := by
  have reached := W.rubricReach_scopes p [(a, 64, true)] w
  unfold W.putEntry
  split
  · next h => rw [h] at reached; exact (W.store_scopes _ _ _ _).trans reached
  · next h => rw [h] at reached; exact reached

@[simp] theorem W.setField_scopes (w : W) (p a hi lo x : Nat) : (w.setField p a hi lo x).fab.scopes = w.fab.scopes := by
  have reached := W.rubricReach_scopes p [(a, 64, false)] w
  unfold W.setField
  split
  · next h => rw [h] at reached; exact (W.putEntry_scopes _ _ _ _).trans reached
  · next h => rw [h] at reached; exact reached
  · next h => rw [h] at reached; exact reached

/-! ### Launches -/

@[simp] theorem Fab.cancelAll_scopes (f : Fab) (c : Nat) : (f.cancelAll c).scopes = f.scopes :=
  congrArg (·.scopes) (Fab.cancelAll_keeps f c)

@[simp] theorem Fab.quell_scopes (f : Fab) (c : Nat) : (f.quell c).scopes = f.scopes := Fab.cancelAll_scopes f c

@[simp] theorem Fab.leave_scopes (f : Fab) (c : Nat) (phase : ClusterPhase) : (f.leave c phase).scopes = f.scopes := by
  unfold Fab.leave
  dsimp only
  split <;> exact Fab.cancelAll_scopes f c

@[simp] theorem Fab.ends_scopes (f : Fab) (c : Nat) : (f.ends c).scopes = f.scopes := by
  unfold Fab.ends
  split <;> simp

@[simp] theorem Fab.abortCluster_scopes (f : Fab) (c origin : Nat) : (f.abortCluster c origin).scopes = f.scopes := by
  unfold Fab.abortCluster
  split <;> simp

@[simp] theorem Fab.abortLaunch_scopes (f : Fab) (l : Launch) (origin : Nat) : (f.abortLaunch l origin).scopes = f.scopes := by
  have aborted := foldl_keeps Fab.scopes (fun g c => Fab.abortCluster_scopes g c origin) l.clusters f
  unfold Fab.abortLaunch
  split
  · exact aborted
  · exact aborted
  · rfl

@[simp] theorem Fab.completeLaunch_scopes (f : Fab) (l : Launch) (st : HostStatus) : (f.completeLaunch l st).scopes = f.scopes := by
  unfold Fab.completeLaunch Fab.ewsDrained
  dsimp only
  rw [foldl_keeps Fab.scopes (fun _ _ => Fab.complete_scopes _ _ _ _ _ _ _), Fab.complete_scopes]
  split <;> rfl

@[simp] theorem Fab.abortPartition_scopes (f : Fab) (p origin : Nat) (waiting : HostStatus) :
    (f.abortPartition p origin waiting).scopes = f.scopes := by
  refine foldl_keeps Fab.scopes (fun g l => ?_) _ f
  split <;> simp

/-! ### Collectives -/

@[simp] theorem Fab.onFlow_scopes (f : Fab) (k : FlowKey) (g : Flow → Flow) : (f.onFlow k g).scopes = f.scopes := by
  unfold Fab.onFlow
  split <;> rfl

theorem Fab.pumpFlow_scopes (k : FlowKey) (n : Nat) (f : Fab) : (Fab.pumpFlow k n f).scopes = f.scopes := by
  induction n generalizing f with
  | zero => rfl
  | succ n ih =>
    unfold Fab.pumpFlow
    dsimp only
    split
    · split
      · rw [ih]
        exact Fab.onFlow_scopes _ _ _
      · rfl
    · rfl

@[simp] theorem Fab.flowSend_scopes (f : Fab) (k : FlowKey) (channel : Nat) (bytes : List Byte)
    (multicast : Option (Nat × Nat × Bool)) : (f.flowSend k channel bytes multicast).scopes = f.scopes := by
  rw [Fab.flowSend, Fab.pumpFlow_scopes, Fab.onFlow_scopes]

@[simp] theorem Fab.setSlot_scopes (f : Fab) (b i : Nat) (s : Slot) : (f.setSlot b i s).scopes = f.scopes := rfl

@[simp] theorem Fab.dropColl_scopes (f : Fab) (c : Coll) : (f.dropColl c).scopes = f.scopes :=
  foldl_keeps Fab.scopes (fun g i => Fab.setSlot_scopes g c.die i _) c.slots f

@[simp] theorem Fab.onSlices_scopes (f : Fab) (p : Nat) (g : List Slice → List Slice) : (f.onSlices p g).scopes = f.scopes := by
  unfold Fab.onSlices
  split <;> rfl

@[simp] theorem Fab.releaseSlice_scopes (f : Fab) (p : Nat) (s : Slice) : (f.releaseSlice p s).scopes = f.scopes := by
  unfold Fab.releaseSlice
  split <;> rfl

@[simp] theorem W.markLayer_scopes (w : W) (p layer b : Nat) : (w.markLayer p layer b).fab.scopes = w.fab.scopes := by
  unfold W.markLayer
  split <;> simp

@[simp] theorem W.abandon_scopes (w : W) (p n : Nat) : (w.abandon p n).fab.scopes = w.fab.scopes := by
  unfold W.abandon
  split
  · split
    · simp [W.abandonSlice, W.finishSlice, W.moveSlice, W.setSliceState]
    · rfl
  · rfl

@[simp] theorem Fab.collLauncher_scopes (f : Fab) (c : Coll) (status block : Nat) :
    (f.collLauncher c status block).scopes = f.scopes := by
  unfold Fab.collLauncher
  split
  · split
    · dsimp only
      split <;> simp
    · rfl
  · split <;> rfl

@[simp] theorem W.failColl_scopes (w : W) (id status block : Nat) (but : Option Nat) :
    (w.failColl id status block but).fab.scopes = w.fab.scopes := by
  unfold W.failColl
  split
  · dsimp only
    rw [W.map_fab, Fab.collLauncher_scopes, foldl_keeps (fun w : W => w.fab.scopes) (fun x n => W.abandon_scopes x _ n), W.map_fab,
      Fab.dropColl_scopes]
    exact foldl_keeps Fab.scopes (fun _ _ => Fab.flowSend_scopes _ _ _ _ _) _ _
  · rfl

@[simp] theorem W.failColls_scopes (w : W) (q : Coll → Bool) (status : Nat) : (w.failColls q status).fab.scopes = w.fab.scopes := by
  unfold W.failColls
  exact foldl_keeps (fun w : W => w.fab.scopes) (fun x (c : Coll) => W.failColl_scopes x c.id status 0 none) _ w

@[simp] theorem W.endContext_scopes (w : W) (p : Nat) (met : Option Nat) (a : Nat) :
    (w.endContext p met a).fab.scopes = w.fab.scopes := by
  unfold W.endContext
  split <;> simp

@[simp] theorem W.memFault_scopes (w : W) (c k : Nat) (epc : BitVec 16) (a : Nat) (pl : Place) :
    (w.memFault c k epc a pl).fab.scopes = w.fab.scopes := by
  unfold W.memFault
  dsimp only
  rw [W.endContext_scopes, W.map_fab, Fab.raiseAsync_scopes]
  split <;> simp

/-! ### Streams, and all that the ports do -/

@[simp] theorem Fab.consume_scopes (f : Fab) (c k q : Nat) (s : Stream) (u : StreamUnit) : (f.consume c k q s u).scopes = f.scopes := by
  unfold Fab.consume Fab.segmentSignal
  split <;> simp

@[simp] theorem Fab.acceptUnit_scopes (f : Fab) (c k q id : Nat) (u : StreamUnit) : (f.acceptUnit c k q id u).scopes = f.scopes := rfl

@[simp] theorem Fab.setTag_scopes (f : Fab) (c row : Nat) (t : W32) : (f.setTag c row t).scopes = f.scopes := rfl

theorem W.moveOne_scopes {w w' : W} {c k q : Nat} (h : w.moveOne c k q = some w') : w'.fab.scopes = w.fab.scopes := by
  unfold W.moveOne at h
  dsimp only at h
  split at h
  · split at h
    · -- SIN: the row written, the unit consumed
      split at h
      · split at h
        · cases h
        · cases h
          simp only [W.map_fab]
          split <;> simp
      · cases h
    · -- VOP: the unit consumed
      split at h
      · cases h
      · split at h
        · split at h
          · cases h
            simp
          · cases h
        · cases h
    · -- SOUT: a word of its row is uncorrectable, or the unit is accepted
      split at h
      · cases h
      · split at h
        · cases h
          simp
        · cases h
          simp only [W.map_fab]
          split <;> simp
        · cases h
    · -- VOUT: the unit accepted, the flags at the end
      split at h
      · cases h
      · split at h
        · split at h
          · cases h
            simp only [W.map_fab]
            split <;> simp
          · cases h
        · cases h
    · cases h
  · cases h

theorem W.moves_scopes (c k q n : Nat) (w : W) : (W.moves c k q n w).fab.scopes = w.fab.scopes := by
  induction n generalizing w with
  | zero => rfl
  | succ n ih =>
    unfold W.moves
    split
    · next h => rw [ih, W.map_fab, Fab.pump_scopes, W.moveOne_scopes h]
    · rfl

@[simp] theorem Fab.wakeCredits_scopes (f : Fab) (c k : Nat) : (f.wakeCredits c k).scopes = f.scopes := by
  unfold Fab.wakeCredits
  split
  · split <;> rfl
  · rfl

@[simp] theorem W.progress_scopes (w : W) (c k q : Nat) : (w.progress c k q).fab.scopes = w.fab.scopes := by
  rw [W.progress, W.map_fab, Fab.wakeCredits_scopes, W.moves_scopes, W.map_fab, Fab.pump_scopes]

@[simp] theorem W.stir_scopes (w : W) (c : Nat) : (w.stir c).fab.scopes = w.fab.scopes := by
  have gives : ∀ (w : W) (o : Op), (o.kind.handles.foldl (fun w q => w.progress c o.strand q) w).fab.scopes = w.fab.scopes :=
    fun w o => foldl_keeps (fun w : W => w.fab.scopes) (fun w q => W.progress_scopes w c o.strand q) _ w
  exact (foldl_keeps Fab.scopes (fun g (e : Nat × Strand) => Fab.wakeCredits_scopes g c e.1) _ _).trans
    (foldl_keeps (fun w : W => w.fab.scopes) gives _ w)

/-- All that the ports and crossings do leaves the setup scopes. -/
theorem W.flow_scopes (w : W) : w.flow.fab.scopes = w.fab.scopes := by
  unfold W.flow
  dsimp only
  rw [foldl_keeps (fun w : W => w.fab.scopes) (fun x _ => W.stir_scopes x _), W.map_fab, Fab.pump_scopes]

end Sys2Proof.Machine
end

section
/-! PROOFS. DRAIN_LIMIT_EXPIRY (O32): where the ports that run after it reach an access that cannot be made, the whole command waits
and changes nothing (R22, R25), so that the drain does not end. -/

namespace Sys2Proof.Machine

open Sys2Proof

/-- A read of the old bank of partition 0, made void by a cancel (R28, R242). -/
def voidRead : Txn :=
  { id := 3, tag := { partition := 0, bank := false, cls := 0, sourceDie := 0, sourceUnit := 0, destDie := 16, seq := 0 },
    addr := inkwellBase 0, len := 64, more := [], write := none, origin := .void 0, far := .package, heldPage := false, routeBank := false,
    route := [800, 896], behind := 896, ahead := [] }

/-- An out-stream with one unit to take: a segment of one row of one unit, a window of 16 (R220, R225). -/
def openOutStream : Stream :=
  { uid := 0, strand := 0, handle := 0, number := 0, epc := 0, desc := BitVec.ofNat 512 (2 ^ 63 + 16 * 2 ^ 16),
    segs := some [BitVec.ofNat 256 (2 ^ 160 + 2 ^ 144)], state := .armed, cur := some ⟨0, 0⟩, pendingArm := none, units := [], head := 0,
    asked := 0, fetching := false, written := 0, acked := [], gather := [], lines := [], retired := 0 }

/-- A running cluster with a SOUT of Well row 0 in flight. -/
def storingCluster : Cluster :=
  { Cluster.idleReset with
    phase := .running, strands := [(0, { Strand.idleReset with st := .running })], streams := [openOutStream],
    ops := [{ id := 4, strand := 0, epc := 9, kind := .sout 0 0 64 1 0, held := false, issued := 0, due := 9, late := false }] }

/-- A Sealed slice of partition 0, entry 0 of its slice table (R278). -/
def sealedSlice : Slice :=
  { number := 0, state := 3, fallback := 0, writer := 0, layer := 0, link := 0, linkKind := 0, wave := 0, units := 4, home := 0, slot := 5,
    kind := 0, frozen := false, onFallback := false }

/-- A collective of partition 0 that a job launched, with that slice as its source (R285, R307). -/
def sealedColl : Coll :=
  { id := 0, partition := 0, die := 0, tree := 0, seq := 0, desc := 0, limit := 0, peers := [], op := ⟨0, 0, 0, 0, 0, 0, 0, 0, 0⟩,
    launcher := .job 0 0, slice := some 0, parts := [], sealed := [0], slots := [], fallback := false, phase := .running, partners := [],
    blocks := [], ranges := [], cuts := [], repairs := [], pulls := [], pullsEnd := [], outbox := [], next := 0, nonzero := [],
    reports := [] }

/-- The drain of partition 0 has one transaction left, a void one. The next Well row of a SOUT of its cluster 0 is uncorrectable, so
that the ports end the partition's context, which abandons the slice of its collective (R193, R206, R289); the slice's entry lies in
the Inkwell of base die 1, whose core is in its safe state (R25). -/
def blockedDrain : State :=
  { State.reset with fab := { Fab.reset with
      dict := [(dictKey 0xB100 1, 0), (dictKey 0xB111 1, 65536)], inForce := [(dictKey 0x8010 1, inkwellBase 1)],
      islands := [(897, { Island.onA with safe := true })],
      scopes := [(0, { Scope.none with bank := true, draining := true })], txns := [voidRead],
      clusters := [(0, storingCluster)], wellFaults := [(wellBase 0 / 8, true)],
      steps := [(0, { number := 7, waveCounter := 3, wave := 0, waves := 1, slices := [sealedSlice], filling := false })],
      colls := [sealedColl] } }

/-- The slice's entry cannot be reached, so that the whole work of DRAIN_LIMIT_EXPIRY waits. -/
theorem drainLimit_blockedDrain_waits : (drainLimit 0 (W.of blockedDrain)).settled.waits = true := by decide +kernel

theorem drainLimitExpiry_blockedDrain : exec (.drainLimitExpiry 0) blockedDrain = .next blockedDrain :=
  onMem_waits (drainLimit 0) drainLimit_blockedDrain_waits

/-- What the ports make of a state has the scopes of that state. -/
theorem scope_flowed (u : State) (p : Nat) : (Claims.flowed u).fab.scope p = u.fab.scope p :=
  congrArg (fun t : Tbl Scope => t.get .none p) (W.flow_scopes (W.of u))

/-- Refutes O32 in its clause on DRAIN_LIMIT_EXPIRY: at `blockedDrain` every hypothesis of the clause holds, and the command changes
nothing. The state that the clause asks for has ended the drain before the ports run, and they leave every scope. -/
theorem not_setupIsWrittenAndCommitted : ¬ Obligations.SetupIsWrittenAndCommitted := by
  unfold Obligations.SetupIsWrittenAndCommitted
  rintro ⟨-, -, -, -, expiry⟩
  obtain ⟨u, hu, -, -, ended, -⟩ :=
    expiry blockedDrain 0 voidRead rfl (by decide) rfl (by decide) rfl rfl ⟨0, rfl⟩
  have same : blockedDrain = Claims.flowed u := by
    have h := drainLimitExpiry_blockedDrain.symm.trans hu
    injection h
  have drains : (u.fab.scope 0).draining = true := by
    rw [← scope_flowed u 0, ← same]
    rfl
  exact absurd (drains.symm.trans ended) (by decide)

end Sys2Proof.Machine
end

section
/-! PROOFS. CLUSTER_RESET (O56): where the slice of one of the cluster's collectives has its entry behind a clock island in its safe
state, the command waits and changes nothing (R22, R25, R289), so that the cluster is not under reset. -/

namespace Sys2Proof.Machine

open Sys2Proof

/-- The firmware's own requests (R407). -/
def firmwareRequest : Requester := ⟨.internal, 0, 7, 0, .none⟩

/-- A collective that an operation of cluster 0 launched, with a Sealed slice of partition 0 as its source (R285, R307). -/
def launchedColl : Coll := { sealedColl with launcher := .op 0 4 0 9 }

/-- Cluster 0 runs the launch of that collective, and the slice's entry lies in the Inkwell of base die 1, whose core is in its safe
state (R25). -/
def blockedReset : State :=
  { blockedDrain with fab := { blockedDrain.fab with colls := [launchedColl], txns := [], wellFaults := [] } }

theorem mayWriteNat_blockedReset : Claims.mayWriteNat blockedReset firmwareRequest 0x2052 1 0 = true := by decide +kernel

/-- The end of the collective abandons the slice, whose entry cannot be reached: the whole work of CLUSTER_RESET waits. -/
theorem clusterReset_blockedReset_waits : ((W.of blockedReset).commandNat firmwareRequest 0x2052 1 0).settled.waits = true := by
  decide +kernel

theorem clusterReset_blockedReset : exec (.clusterReset firmwareRequest 0) blockedReset = .next blockedReset :=
  onAll_waits (fun w => w.commandNat firmwareRequest 0x2052 1 0) clusterReset_blockedReset_waits

/-- Refutes O56 in its clause on a CLUSTER_RESET that nothing absorbs: at `blockedReset` the command is written and has to wait, and
the cluster still runs. Only the clause on PARTITION_RESET is stated where no access has to wait. -/
theorem not_clusterAndPartitionResets : ¬ Obligations.ClusterAndPartitionResets := by
  unfold Obligations.ClusterAndPartitionResets
  rintro ⟨clusterReset, -, -⟩
  obtain ⟨t, ht, -, resetting, -⟩ :=
    (clusterReset blockedReset firmwareRequest 0 mayWriteNat_blockedReset).2 (by decide) (by decide)
  cases clusterReset_blockedReset.symm.trans ht
  exact absurd resetting (by decide)

end Sys2Proof.Machine
end

section
/-! PROOFS. How an operation of a cluster ends (R47, R100, R108, R119, R126): its signals go, its flags are raised, and a launch that it
ends leaves the cluster. None of this writes an accumulator, and no operation comes of it. -/

namespace Sys2Proof.Machine

open Sys2Proof

/-! ### Work on the own cluster -/

/-- A command of a cluster's own units, outside its safe state, whose work neither waits nor meets an uncorrectable line. -/
theorem onMem_atCluster {s : State} {c : Nat} {body : W → W} (hp : s.fab.phase = .running) (hh : s.fab.halts c = false)
    (hw : (body (W.of s)).waits = false) (hf : (body (W.of s)).faults = []) :
    onMem s (fun w => w.atCluster c body) = .next { s with
      mem := MemOp.applyAll s.mem (body (W.of s)).out, fab := (body (W.of s)).fab.ends c } := by
  have hb : (W.of s).atCluster c body = (body (W.of s)).map (fun f => f.ends c) := by
    unfold W.atCluster
    rw [show (W.of s).fab.halts c = false from hh]
    rfl
  have hs : ((W.of s).atCluster c body).settled = (body (W.of s)).map (fun f => f.ends c) := by
    rw [hb]
    exact settled_of_faults hf
  rw [onMem_running (fun w => w.atCluster c body) hp (by rw [hs]; exact hw), hs]
  rfl

/-- Without an error in the Wells a read of Well words meets none. -/
theorem W.wellRead_clean {w : W} (h : w.fab.wellFaults = []) (c k : Nat) (epc : BitVec 16) (op : Nat) (keys : List Nat)
    (body : W → W) : w.wellRead c k epc op keys body = body w := by
  simp [W.wellRead, Fab.wellCode, h]

/-- Without an error in the Wells bytes for a Well are stored as they are. -/
theorem W.wellPut_clean {w : W} (h : w.fab.wellFaults = []) (c off : Nat) (bytes : List Byte) :
    w.wellPut c off bytes = w.puts (wellBase c + off) bytes := by
  simp [W.wellPut, h]

/-- An operation found by its number has that number, and is one of the cluster's. -/
theorem Cluster.op?_spec {cl : Cluster} {id : Nat} {p : Op} (h : cl.op? id = some p) : p.id = id ∧ p ∈ cl.ops :=
  ⟨by simpa using List.find?_some h, List.mem_of_find?_eq_some h⟩

/-! ### Signals that go -/

theorem Fab.applySignal_cluster_ne (f : Fab) {c d : Nat} (h : d ≠ c) (scope i : Nat) (n : Option W32) (v : W32) :
    (f.applySignal c scope i n v).cluster d = f.cluster d := by
  unfold Fab.applySignal Fab.setCounter
  split
  · rw [Fab.cluster_onCluster, if_neg h]
  · rfl
  · rfl

/-- A signal changes nothing of its cluster but a counter. -/
theorem Fab.applySignal_cluster (f : Fab) (c scope i : Nat) (n : Option W32) (v : W32) :
    ∃ l, (f.applySignal c scope i n v).cluster c = { f.cluster c with counters := l } := by
  unfold Fab.applySignal Fab.setCounter
  split
  · exact ⟨_, Fab.cluster_onCluster_same _ _ _⟩
  · exact ⟨_, rfl⟩
  · exact ⟨_, rfl⟩

theorem Fab.settleFuel_cluster_ne {c d : Nat} (h : d ≠ c) (n : Nat) (f : Fab) : (Fab.settleFuel c n f).cluster d = f.cluster d := by
  induction n generalizing f with
  | zero => rfl
  | succ n ih =>
    unfold Fab.settleFuel
    dsimp only
    split
    · split
      · rw [ih, Fab.applySignal_cluster_ne _ h, Fab.cluster_onCluster, if_neg h]
      · rfl
    · rfl

/-- The signals of a cluster that go leave everything but its operations and counters, and no operation comes. -/
theorem Fab.settleFuel_cluster (c n : Nat) (f : Fab) : Claims.quiet ((Fab.settleFuel c n f).cluster c) = Claims.quiet (f.cluster c) ∧
    ((Fab.settleFuel c n f).cluster c).ops ⊆ (f.cluster c).ops := by
  induction n generalizing f with
  | zero => exact ⟨rfl, List.Subset.refl _⟩
  | succ n ih =>
    unfold Fab.settleFuel
    dsimp only
    split
    · next o _ =>
      split
      · next sc i d v _ =>
        let g := f.onCluster c (fun cl => { cl with ops := cl.ops.filter (fun p => p.id != o.id) })
        obtain ⟨quiet, ops⟩ := ih (g.applySignal c sc i d v)
        obtain ⟨l, hl⟩ := Fab.applySignal_cluster g c sc i d v
        have hg : g.cluster c = { f.cluster c with ops := (f.cluster c).ops.filter (fun p => p.id != o.id) } :=
          Fab.cluster_onCluster_same _ _ _
        rw [hl, hg] at quiet ops
        exact ⟨quiet, fun q hq => List.mem_of_mem_filter (ops hq)⟩
      · exact ⟨rfl, List.Subset.refl _⟩
    · exact ⟨rfl, List.Subset.refl _⟩

theorem Fab.finish_cluster_ne (f : Fab) {c d : Nat} (h : d ≠ c) (id : Nat) : (f.finish c id).cluster d = f.cluster d := by
  rw [Fab.finish, Fab.settle, Fab.settleFuel_cluster_ne h, Fab.cluster_onCluster, if_neg h]

/-- An operation that leaves flight leaves everything of its cluster but the operations and counters. -/
theorem Fab.finish_quiet (f : Fab) (c id : Nat) : Claims.quiet ((f.finish c id).cluster c) = Claims.quiet (f.cluster c) := by
  rw [Fab.finish, Fab.settle, (Fab.settleFuel_cluster c _ _).1, Fab.cluster_onCluster_same]
  rfl

/-- An operation that has left flight is no longer there, and none has come. -/
theorem Fab.mem_ops_finish {f : Fab} {c id : Nat} {q : Op} (h : q ∈ ((f.finish c id).cluster c).ops) :
    q ∈ (f.cluster c).ops ∧ q.id ≠ id := by
  rw [Fab.finish, Fab.settle] at h
  have h := (Fab.settleFuel_cluster c _ _).2 h
  rw [Fab.cluster_onCluster_same] at h
  simpa using List.mem_filter.1 h

theorem Fab.finish_strands (f : Fab) (c id : Nat) : ((f.finish c id).cluster c).strands = (f.cluster c).strands := by
  have h := congrArg (·.strands) (Fab.finish_quiet f c id)
  exact h

/-! ### Accumulators kept, no operation come -/

/-- From one device to another the accumulators of a cluster are as they were, and no operation of it has come. -/
structure Fab.WindsDown (c : Nat) (f g : Fab) : Prop where
  acc : (g.cluster c).acc = (f.cluster c).acc
  ops : (g.cluster c).ops ⊆ (f.cluster c).ops

theorem Fab.WindsDown.refl (c : Nat) (f : Fab) : Fab.WindsDown c f f := ⟨rfl, List.Subset.refl _⟩

theorem Fab.WindsDown.trans {c : Nat} {f g h : Fab} (a : Fab.WindsDown c f g) (b : Fab.WindsDown c g h) : Fab.WindsDown c f h :=
  ⟨b.acc.trans a.acc, List.Subset.trans b.ops a.ops⟩

/-- A change of a cluster that keeps accumulators and brings no operation. -/
theorem Fab.windsDown_onCluster {f : Fab} {c d : Nat} {g : Cluster → Cluster} (hacc : (g (f.cluster c)).acc = (f.cluster c).acc)
    (hops : (g (f.cluster c)).ops ⊆ (f.cluster c).ops) : Fab.WindsDown d f (f.onCluster c g) := by
  by_cases h : d = c
  · subst h
    exact ⟨by rw [Fab.cluster_onCluster_same, hacc], by rw [Fab.cluster_onCluster_same]; exact hops⟩
  · exact ⟨by rw [Fab.cluster_onCluster, if_neg h], by rw [Fab.cluster_onCluster, if_neg h]; exact List.Subset.refl _⟩

theorem Fab.windsDown_onStrand (f : Fab) (d c k : Nat) (g : Strand → Strand) : Fab.WindsDown d f (f.onStrand c k g) :=
  Fab.windsDown_onCluster rfl (List.Subset.refl _)

theorem Fab.windsDown_finish (f : Fab) (c id : Nat) : Fab.WindsDown c f (f.finish c id) :=
  have h := congrArg (·.acc) (Fab.finish_quiet f c id)
  ⟨h, fun _ hq => (Fab.mem_ops_finish hq).1⟩

theorem Fab.windsDown_cancelAll (f : Fab) (d c : Nat) : Fab.WindsDown d f (f.cancelAll c) := by
  obtain ⟨l, hl⟩ := Fab.cancelAll_cluster f c d
  exact ⟨by rw [hl], by rw [hl]; exact List.Subset.refl _⟩

/-- A cluster that terminates keeps its accumulators, and some of its operations (R126). -/
theorem Cluster.terminate_keeps (cl : Cluster) (origin : Nat) (first : Option (Nat × Exc)) :
    (cl.terminate origin first).acc = cl.acc ∧ (cl.terminate origin first).ops ⊆ cl.ops := by
  cases first <;> exact ⟨rfl, List.filter_subset_self _⟩

theorem Fab.windsDown_quell (f : Fab) (d c : Nat) : Fab.WindsDown d f (f.quell c) :=
  ⟨(Fab.windsDown_cancelAll f d c).acc, (Fab.windsDown_cancelAll f d c).ops⟩

theorem Fab.windsDown_fatal (f : Fab) (d c k : Nat) (x : Exc) : Fab.WindsDown d f (f.fatal c k x) := by
  obtain ⟨hacc, hops⟩ := Cluster.terminate_keeps ((f.quell c).cluster c) c (some (k, x))
  exact (Fab.windsDown_quell f d c).trans (Fab.windsDown_onCluster hacc hops)

theorem Fab.windsDown_take (f : Fab) (d c k : Nat) (x : Exc) : Fab.WindsDown d f (f.take c k x) := by
  unfold Fab.take
  dsimp only
  split
  · exact Fab.windsDown_onStrand _ _ _ _ _
  · exact Fab.windsDown_fatal _ _ _ _ _

theorem Fab.windsDown_raiseAsync (f : Fab) (d c k : Nat) (x : Exc) : Fab.WindsDown d f (f.raiseAsync c k x) := by
  unfold Fab.raiseAsync
  split
  · exact Fab.WindsDown.refl _ _
  · exact Fab.WindsDown.refl _ _
  · split
    · exact Fab.windsDown_onStrand _ _ _ _ _
    · exact Fab.windsDown_take _ _ _ _ _
  · split
    · exact Fab.windsDown_onStrand _ _ _ _ _
    · exact Fab.windsDown_take _ _ _ _ _

/-- Counts of flags change the dictionary only. -/
theorem Fab.countFlags_clusters (f : Fab) (r : Raise) : (f.countFlags r).clusters = f.clusters := by
  unfold Fab.countFlags
  dsimp only
  split <;> split <;> split <;> rfl

theorem Fab.windsDown_raiseFlags (f : Fab) (d c k : Nat) (epc : BitVec 16) (r : Raise) :
    Fab.WindsDown d f (f.raiseFlags c k epc r) := by
  have counted : Fab.WindsDown d f (f.countFlags r) := by
    have h : (f.countFlags r).cluster d = f.cluster d := congrArg (fun l : Tbl Cluster => l.get .idleReset d) (Fab.countFlags_clusters f r)
    exact ⟨by rw [h], by rw [h]; exact List.Subset.refl _⟩
  have noted := fun g => counted.trans (Fab.windsDown_onStrand (f.countFlags r) d c k g)
  unfold Fab.raiseFlags
  dsimp only
  split
  · exact Fab.WindsDown.refl _ _
  · split
    · exact noted _
    · exact (noted _).trans (Fab.windsDown_raiseAsync _ _ _ _ _)

theorem Fab.windsDown_wakeCredits (f : Fab) (d c k : Nat) : Fab.WindsDown d f (f.wakeCredits c k) := by
  unfold Fab.wakeCredits
  split
  · split
    · exact Fab.windsDown_onStrand _ _ _ _ _
    · exact Fab.WindsDown.refl _ _
  · exact Fab.WindsDown.refl _ _

theorem Fab.windsDown_leave (f : Fab) (d c : Nat) (phase : ClusterPhase) : Fab.WindsDown d f (f.leave c phase) := by
  have idle : Fab.WindsDown d f ((f.cancelAll c).onCluster c (fun cl => cl.toIdle phase)) :=
    (Fab.windsDown_cancelAll f d c).trans (Fab.windsDown_onCluster rfl (List.nil_subset _))
  unfold Fab.leave
  dsimp only
  split <;> exact ⟨idle.acc, idle.ops⟩

theorem Fab.windsDown_ends (f : Fab) (d c : Nat) : Fab.WindsDown d f (f.ends c) := by
  unfold Fab.ends
  split
  · exact Fab.windsDown_leave _ _ _ _
  · exact Fab.WindsDown.refl _ _

/-! ### A launch that has not ended -/

/-- A cluster with a live strand stays with its launch (R100). -/
theorem Fab.ends_of_live {f : Fab} {c k : Nat} (h : ((f.cluster c).strand k).over = false) : f.ends c = f := by
  have listed : ∀ {l : Tbl Strand}, (l.get .idleReset k).over = false → l.all (fun e => e.2.over) = false := by
    intro l
    induction l with
    | nil => intro h; cases h
    | cons e l ih =>
      intro h
      rw [List.all_cons]
      by_cases he : e.1 = k
      · have : e.2.over = false := by simpa [Tbl.get, Tbl.find?, he] using h
        rw [this]; rfl
      · rw [ih (by simpa [Tbl.get, Tbl.find?, he] using h), Bool.and_false]
  simp [Fab.ends, Fab.finished, listed h]

end Sys2Proof.Machine
end

section
/-! PROOFS. The tile multiply (O17): its run writes one entry for every row below m and column below w, each once (R47, R51, R149), and
nothing that comes after the run writes the accumulator file. -/

namespace Sys2Proof

/-- A table after several writes, at a key that none of them names. -/
theorem Tbl.get_foldl_set_of_notMem {α : Type} (l : List (Nat × α)) (t : Tbl α) (d : α) (k : Nat) (h : ∀ e ∈ l, e.1 ≠ k) :
    (l.foldl (fun a e => a.set e.1 e.2) t).get d k = t.get d k := by
  induction l generalizing t with
  | nil => rfl
  | cons e l ih =>
    rw [List.foldl_cons, ih _ (fun e' he' => h e' (List.mem_cons_of_mem _ he')),
      Tbl.get_set_ne _ _ _ (Ne.symm (h e List.mem_cons_self))]

/-- A table after several writes, at a key that some of them name, all with one value. -/
theorem Tbl.get_foldl_set_of_mem {α : Type} (l : List (Nat × α)) (t : Tbl α) (d : α) (k : Nat) (v : α) (hm : (k, v) ∈ l)
    (h : ∀ e ∈ l, e.1 = k → e.2 = v) : (l.foldl (fun a e => a.set e.1 e.2) t).get d k = v := by
  induction l generalizing t with
  | nil => cases hm
  | cons e l ih =>
    rw [List.foldl_cons]
    by_cases hl : (k, v) ∈ l
    · exact ih _ hl (fun e' he' => h e' (List.mem_cons_of_mem _ he'))
    · have he : e = (k, v) := by simpa [hl, eq_comm] using hm
      have absent : ∀ e' ∈ l, e'.1 ≠ k := by
        intro e' he' hk
        have hv := h e' (List.mem_cons_of_mem _ he') hk
        exact hl (by rw [← hk, ← hv]; exact he')
      rw [Tbl.get_foldl_set_of_notMem _ _ _ _ absent, he, Tbl.get_set_same]

end Sys2Proof

namespace Sys2Proof.Machine

open Sys2Proof

/-- What a run of a tile multiply computes for row m and column n of its tile (R51, R149). -/
def tmulEntry (w : W) (c : Nat) (t : TmulOp) (e : Int) (m n : Nat) : W32 × Raise :=
  nibRun (rowNums t.fmt (w.wellBytes c (t.act + m * t.stride) 64) (w.fab.tag c ((t.act + m * t.stride) / 64)) t.k)
    (t.weights.nums n t.k) e (if t.accumulate then some ((w.fab.cluster c).acc.get 0 (64 * (t.base + m) + n)) else none)

/-- The entries that a run of a tile multiply writes, row by row. -/
def tmulEntries (w : W) (c : Nat) (t : TmulOp) (e : Int) : List (Nat × W32) :=
  (List.range t.m).flatMap (fun m => (List.range t.w).map (fun n => (64 * (t.base + m) + n, (tmulEntry w c t e m n).1)))

/-- A fold that lists one entry for each number beside its flags. -/
theorem foldl_entries (l : List Nat) (key : Nat → Nat) (entry : Nat → W32 × Raise) (acc : List (Nat × W32) × Raise) :
    (l.foldl (fun acc n => (acc.1 ++ [(key n, (entry n).1)], acc.2.or (entry n).2)) acc).1 =
      acc.1 ++ l.map (fun n => (key n, (entry n).1)) := by
  induction l generalizing acc with
  | nil => simp
  | cons n l ih => rw [List.foldl_cons, ih]; simp

/-- A fold each of whose steps appends a list. -/
theorem foldl_appends {σ β : Type} (l : List Nat) (out : σ → List β) (step : σ → Nat → σ) (part : Nat → List β)
    (h : ∀ acc, ∀ m ∈ l, out (step acc m) = out acc ++ part m) (acc : σ) :
    out (l.foldl step acc) = out acc ++ l.flatMap part := by
  induction l generalizing acc with
  | nil => simp
  | cons m l ih =>
    rw [List.foldl_cons, ih (fun acc m' hm' => h acc m' (List.mem_cons_of_mem _ hm')), h acc m List.mem_cons_self]
    simp

theorem tmulRun_entries (w : W) (c : Nat) (t : TmulOp) (e : Int) : (tmulRun w c t e).1 = tmulEntries w c t e := by
  unfold tmulRun tmulEntries
  dsimp only
  rw [foldl_appends (out := Prod.fst)
    (part := fun m => (List.range t.w).map (fun n => (64 * (t.base + m) + n, (tmulEntry w c t e m n).1)))]
  · rfl
  · intro acc m _
    have column : ∀ n ∈ List.range t.w, ((List.range t.w).map (fun n => t.weights.nums n t.k)).getD n [] = t.weights.nums n t.k := by
      intro n hn
      simp [List.getD, List.mem_range.1 hn]
    rw [List.foldl_ext (g := fun acc n => (acc.1 ++ [(64 * (t.base + m) + n, (tmulEntry w c t e m n).1)], acc.2.or (tmulEntry w c t e m n).2))
      _ _ (fun acc n hn => by rw [column n hn]; rfl)]
    exact foldl_entries _ _ _ _

/-- The accumulator file with the entries of a run written: entry (base + i, n) for every row i below m and column n below w, and no
other (R47, R149). -/
theorem acc_tmulRun (w : W) (c : Nat) (t : TmulOp) (e : Int) (hw : t.w ≤ 64) (cl : Cluster) (r n : Nat) (hn : n < 64) :
    (cl.setAcc (tmulRun w c t e).1).acc.get 0 (64 * r + n) =
      if t.base ≤ r ∧ r < t.base + t.m ∧ n < t.w then (tmulEntry w c t e (r - t.base) n).1 else cl.acc.get 0 (64 * r + n) := by
  have mem : ∀ x : Nat × W32, x ∈ tmulEntries w c t e ↔
      ∃ i, i < t.m ∧ ∃ j, j < t.w ∧ (64 * (t.base + i) + j, (tmulEntry w c t e i j).1) = x := by
    intro x
    simp [tmulEntries, List.mem_flatMap]
  rw [tmulRun_entries, Cluster.setAcc]
  dsimp only
  split
  · next h =>
    obtain ⟨h1, h2, h3⟩ := h
    apply Tbl.get_foldl_set_of_mem
    · exact (mem _).2 ⟨r - t.base, by omega, n, h3, by rw [show t.base + (r - t.base) = r by omega]⟩
    · intro x hx hk
      obtain ⟨i, hi, j, hj, rfl⟩ := (mem x).1 hx
      have hj' : j = n := by dsimp only at hk; omega
      have hi' : i = r - t.base := by dsimp only at hk; omega
      rw [hi', hj']
  · next h =>
    apply Tbl.get_foldl_set_of_notMem
    intro x hx hk
    obtain ⟨i, hi, j, hj, rfl⟩ := (mem x).1 hx
    dsimp only at hk
    exact h ⟨by omega, by omega, by omega⟩

/-- A tile multiply that neither misses nor replays writes its run's entries, leaves flight and raises its flags. -/
theorem W.tmulRuns_once (w : W) (c : Nat) (p : Op) (t : TmulOp) (e : Int) (h : t.rp = false ∨ (tmulRun w c t e).2.ovf = false) :
    w.tmulRuns c p t 3 e [] = ((w.fab.onCluster c (fun cl => cl.setAcc (tmulRun w c t e).1)).finish c p.id).raiseFlags c p.strand p.epc
      (tmulRun w c t e).2 := by
  have once : (t.rp && (tmulRun w c t e).2.ovf && (w.fab.cluster c).phase == .running) = false := by
    rcases h with h | h <;> simp [h]
  unfold W.tmulRuns
  simp [Fab.residueRuns, once]

/-- TILE_MULTIPLY_COMPLETE of the oldest tile multiply, not held, without a mismatch or an error. -/
theorem tmulComplete_clean {w : W} {o : OpRef} {p : Op} {t : TmulOp} (hf : w.fab.wellFaults = [])
    (hp : (w.fab.cluster o.cluster).op? o.op = some p) (hh : p.held = false) (hk : p.kind = .tmul t)
    (ho : ∀ q ∈ (w.fab.cluster o.cluster).ops, q.id < p.id → q.kind.isTmul = false) :
    tmulComplete o [] w = { w with fab := w.tmulRuns o.cluster p t 3 t.e [] } := by
  have oldest : (w.fab.cluster o.cluster).ops.any (fun q => Nat.blt q.id p.id && q.kind.isTmul) = false := by
    simpa using ho
  unfold tmulComplete
  dsimp only
  rw [hp]
  dsimp only
  rw [hk]
  dsimp only
  rw [hh, oldest, if_neg (by simp), W.wellRead_clean hf]
  rfl

/-- Settles O17: the run's entries are written once (`acc_tmulRun`), and the end of the operation, its flags and the end of a launch
leave the accumulators (`Fab.WindsDown`). -/
theorem tileMultiplyWritesItsTile : Obligations.TileMultiplyWritesItsTile := by
  intro s o p t hrun cl hhalt hfaults hp hheld hkind hw oldest once
  have body := tmulComplete_clean (w := W.of s) hfaults hp hheld hkind oldest
  have run := W.tmulRuns_once (W.of s) o.cluster p t t.e once
  refine ⟨_, onMem_atCluster (body := tmulComplete o []) hrun hhalt (by rw [body]; rfl) (by rw [body]; rfl), ?_, ?_⟩
  · exact ⟨by rw [body]; rfl, rfl, rfl⟩
  · intro r n hn
    let written := s.fab.onCluster o.cluster (fun cl => cl.setAcc (tmulRun (W.of s) o.cluster t t.e).1)
    have kept : Fab.WindsDown o.cluster written ((tmulComplete o [] (W.of s)).fab.ends o.cluster) := by
      rw [body]
      dsimp only
      rw [run]
      exact ((Fab.windsDown_finish written o.cluster p.id).trans (Fab.windsDown_raiseFlags _ _ _ _ _ _)).trans (Fab.windsDown_ends _ _ _)
    dsimp only
    rw [kept.acc, Fab.cluster_onCluster_same, acc_tmulRun _ _ _ _ hw _ r n hn]
    refine if_ctx_congr Iff.rfl (fun h => ?_) (fun _ => rfl)
    rw [tmulEntry, show t.base + (r - t.base) = r by omega]
    rfl

end Sys2Proof.Machine
end

section
/-! PROOFS. The ports where they have nothing to ask for, and where nothing is bound to them (R22, R226, R235): they do nothing, or
change no cluster. -/

namespace Sys2Proof.Machine

open Sys2Proof

/-! ### Ports at rest -/

/-- Transactions that stand at their memories go nowhere. -/
theorem Fab.hops_of_arrived {f : Fab} (h : ∀ t ∈ f.txns, t.ahead = []) : f.hops = f := by
  have fuel : (f.txns.map (fun t => t.ahead.length)).sum = 0 := by
    simp only [List.sum_eq_zero_iff, List.mem_map, forall_exists_index, and_imp, forall_apply_eq_imp_iff₂]
    intro t ht
    rw [h t ht]
    rfl
  rw [Fab.hops, fuel]
  rfl

theorem Fab.pumpFuel_of_none {f : Fab} (n : Nat) (h : f.injectNext = none) : Fab.pumpFuel n f = f := by
  cases n with
  | zero => rfl
  | succ n =>
    unfold Fab.pumpFuel
    rw [h]

theorem Fab.pumpFuel_of_some {f g : Fab} (n : Nat) (h : f.injectNext = some g) :
    Fab.pumpFuel (n + 1) f = Fab.pumpFuel n g.hops := by
  rw [Fab.pumpFuel, h]

/-- Ports that have nothing to inject do nothing. -/
theorem Fab.pump_of_rest {f : Fab} (ha : ∀ t ∈ f.txns, t.ahead = []) (hn : f.injectNext = none) : f.pump = f := by
  rw [Fab.pump, Fab.hops_of_arrived ha, Fab.pumpFuel_of_none _ hn]

/-- A held operation is not injected. -/
theorem Fab.injectDrain_of_held (f : Fab) (c : Nat) {o : Op} (h : o.held = true) : f.injectDrain c o = none := by
  simp [Fab.injectDrain, h]

/-- No port has a request to make: no access waits, no operation and no stream of a cluster has one. -/
theorem Fab.injectNext_eq_none {f : Fab} (hw : f.waiting = []) (ho : ∀ e ∈ f.clusters, ∀ o ∈ e.2.ops, f.injectDrain e.1 o = none)
    (hs : ∀ e ∈ f.clusters, ∀ st ∈ e.2.streams, f.injectStream e.1 st = none) : f.injectNext = none := by
  have quiet : f.clusters.findSome? (fun e => match e.2.ops.findSome? (f.injectDrain e.1) with
      | some g => some g
      | none => e.2.streams.findSome? (f.injectStream e.1)) = none := by
    rw [List.findSome?_eq_none_iff]
    intro e he
    rw [List.findSome?_eq_none_iff.2 (ho e he)]
    exact List.findSome?_eq_none_iff.2 (hs e he)
  rw [Fab.injectNext, hw]
  exact quiet

/-! ### Ports that nothing is bound to -/

/-- What the ports work for: the clusters, and the accesses that wait. -/
def Fab.shore (f : Fab) : Tbl Cluster × List Waiting := (f.clusters, f.waiting)

theorem Fab.qpPump_shore (p i n : Nat) (f : Fab) : (Fab.qpPump p i n f).shore = f.shore := by
  induction n generalizing f with
  | zero => rfl
  | succ n ih =>
    unfold Fab.qpPump
    dsimp only
    split
    · split
      · rfl
      · exact ih _
    · rfl

theorem Fab.rdmaSend_shore (f : Fab) (p i : Nat) (r : RdmaOut) : (f.rdmaSend p i r).shore = f.shore := Fab.qpPump_shore _ _ _ _

theorem Fab.sendFar_shore (f : Fab) (t : Txn) : (f.sendFar t).shore = f.shore := by
  unfold Fab.sendFar
  split
  · rfl
  · rfl
  · rfl
  · rfl
  · exact foldl_keeps Fab.shore (fun _ _ => Fab.rdmaSend_shore _ _ _ _) _ _
  · exact Fab.rdmaSend_shore _ _ _ _

theorem Fab.hopsFuel_shore (n : Nat) (f : Fab) : (Fab.hopsFuel n f).shore = f.shore := by
  induction n generalizing f with
  | zero => rfl
  | succ n ih =>
    unfold Fab.hopsFuel
    dsimp only
    split
    · rw [ih]
      split
      · exact Fab.sendFar_shore _ _
      · rfl
    · rfl

/-- The injection of a request that is taken makes a transaction and nothing else. -/
theorem Fab.tryInject_ok {f g : Fab} {c a len : Nat} {far : Far} {write : Option (List Byte)} {origin : TxnFor}
    {more : List (Nat × Nat)} (h : f.tryInject c far a len write origin more = some (.ok g)) :
    ∃ x, g = { f with txns := f.txns ++ [x], nextTxn := f.nextTxn + 1 } := by
  unfold Fab.tryInject at h
  extract_lets at h
  split at h
  · cases h
  · extract_lets at h
    split at h
    · cases h
    · obtain ⟨-, h⟩ := Option.ite_none_left_eq_some.1 h
      cases h
      exact ⟨_, rfl⟩

theorem Fab.injectDrain_shore {f g : Fab} {c : Nat} {o : Op} (h : f.injectDrain c o = some g) : g.shore = f.shore := by
  unfold Fab.injectDrain at h
  split at h
  · split at h
    · cases h
    · split at h
      · next hr =>
        cases h
        obtain ⟨x, rfl⟩ := Fab.tryInject_ok hr
        rfl
      · cases h
  · cases h

/-- Where no access waits and no stream is bound, the ports inject DRAINBs alone, and these change no cluster (R153). -/
theorem Fab.pumpFuel_shore {f : Fab} (n : Nat) (hw : f.waiting = []) (hs : ∀ e ∈ f.clusters, e.2.streams = []) :
    (Fab.pumpFuel n f).shore = f.shore := by
  induction n generalizing f with
  | zero => rfl
  | succ n ih =>
    cases hg : f.injectNext with
    | none => rw [Fab.pumpFuel_of_none _ hg]
    | some g =>
      have injected : g.shore = f.shore := by
        rw [Fab.injectNext, hw] at hg
        obtain ⟨e, he, hg⟩ := List.exists_of_findSome?_eq_some hg
        rw [hs e he] at hg
        split at hg
        · next hd =>
          cases hg
          obtain ⟨o, -, ho⟩ := List.exists_of_findSome?_eq_some hd
          exact Fab.injectDrain_shore ho
        · cases hg
      have moved : g.hops.shore = f.shore := (Fab.hopsFuel_shore _ g).trans injected
      rw [Fab.pumpFuel_of_some n hg, ih ((congrArg Prod.snd moved).trans hw), moved]
      intro e he
      exact hs e (by rw [show g.hops.clusters = f.clusters from congrArg Prod.fst moved] at he; exact he)

theorem Fab.pump_clusters_of_portsEmpty {f : Fab} (hw : f.waiting = []) (hs : ∀ e ∈ f.clusters, e.2.streams = []) :
    f.pump.clusters = f.clusters := by
  have moved : f.hops.shore = f.shore := Fab.hopsFuel_shore _ f
  have clusters : f.hops.clusters = f.clusters := congrArg Prod.fst moved
  have pumped := Fab.pumpFuel_shore (f := f.hops) 4096 ((congrArg Prod.snd moved).trans hw) (by rw [clusters]; exact hs)
  exact (congrArg Prod.fst pumped).trans clusters

/-! ### A cluster with no transfer -/

/-- Where no operation of a cluster takes from or gives to a stream, its strands may wake and nothing moves. -/
theorem W.stir_of_noTransfers {w : W} {c : Nat} (h : Claims.noTransfers (w.fab.cluster c)) :
    w.stir c = w.map (fun f => (f.cluster c).strands.foldl (fun g e => g.wakeCredits c e.1) f) := by
  have still : ∀ (l : List Op), (∀ o ∈ l, o.kind.handles = []) → ∀ w : W,
      l.foldl (fun w o => o.kind.handles.foldl (fun w q => w.progress c o.strand q) w) w = w := by
    intro l hl
    induction l with
    | nil => exact fun _ => rfl
    | cons o l ih =>
      intro w
      rw [List.foldl_cons, hl o List.mem_cons_self]
      exact ih (fun o ho => hl o (List.mem_cons_of_mem _ ho)) w
  unfold W.stir
  rw [still _ h]

/-- Where, besides, none of its strands waits, nothing happens at all. -/
theorem W.stir_of_still {w : W} {c : Nat} (h : Claims.noTransfers (w.fab.cluster c))
    (hs : ∀ k, (w.fab.strand c k).waiting = none) : w.stir c = w := by
  have still : ∀ (l : Tbl Strand), l.foldl (fun g e => g.wakeCredits c e.1) w.fab = w.fab := by
    intro l
    induction l with
    | nil => rfl
    | cons e l ih => rw [List.foldl_cons, Fab.wakeCredits, hs e.1, ih]
  rw [W.stir_of_noTransfers h]
  exact congrArg (fun f => { w with fab := f }) (still _)

end Sys2Proof.Machine
end

section
/-! PROOFS. Weight loads and the end of a hold (O18): what an operation does to its cluster as it starts (R40, R49, R51 to R53, R151 to
R153). -/

namespace Sys2Proof

/-- A table after entries were cleared. -/
theorem Tbl.get_clear {α : Type} (t : Tbl α) (d : α) (p : Nat → Bool) (k : Nat) :
    (t.clear p).get d k = if p k then d else t.get d k := by
  induction t with
  | nil => simp [Tbl.clear, Tbl.get, Tbl.find?]
  | cons e t ih =>
    simp only [Tbl.clear, Tbl.get] at ih ⊢
    by_cases he : e.1 = k
    · subst he
      by_cases hp : p e.1 = true
      · simpa [hp] using ih
      · simp [hp, Tbl.find?]
    · by_cases hp : p e.1 = true
      · simpa [hp, Tbl.find?, he] using ih
      · simpa [hp, Tbl.find?, he] using ih

/-- A table that lists a value for each number below a bound. -/
theorem Tbl.find?_map_range {α : Type} (n : Nat) (v : Nat → α) (i : Nat) :
    Tbl.find? ((List.range n).map (fun j => (j, v j))) i = if i < n then some (v i) else none := by
  have upTo : ∀ l : List Nat, Tbl.find? (l.map (fun j => (j, v j))) i = if i ∈ l then some (v i) else none := by
    intro l
    induction l with
    | nil => rfl
    | cons j l ih =>
      by_cases h : j = i
      · simp [Tbl.find?, h]
      · simp [Tbl.find?, h, ih, Ne.symm h]
  rw [upTo]
  simp

/-- An entry found in a table is listed. -/
theorem Tbl.mem_of_find? {α : Type} {t : Tbl α} {k : Nat} {v : α} (h : t.find? k = some v) : (k, v) ∈ t := by
  induction t with
  | nil => cases h
  | cons e t ih =>
    obtain ⟨j, w⟩ := e
    by_cases hj : j = k
    · simp [Tbl.find?, hj] at h
      simp [hj, h]
    · exact List.mem_cons_of_mem _ (ih (by simpa [Tbl.find?, hj] using h))

/-- What a table lists after a write was there before, or is what was written. -/
theorem Tbl.mem_set {α : Type} {t : Tbl α} {k : Nat} {v : α} {e : Nat × α} (h : e ∈ t.set k v) : e ∈ t ∨ e = (k, v) := by
  induction t with
  | nil => exact .inr (List.mem_singleton.1 h)
  | cons d t ih =>
    obtain ⟨j, w⟩ := d
    unfold Tbl.set at h
    split at h
    · rcases List.mem_cons.1 h with rfl | h
      · exact .inr rfl
      · exact .inl (List.mem_cons_of_mem _ h)
    · rcases List.mem_cons.1 h with rfl | h
      · exact .inl List.mem_cons_self
      · exact (ih h).imp_left (List.mem_cons_of_mem _)

end Sys2Proof

namespace Sys2Proof.Machine

open Sys2Proof Sys2Proof.Safety

/-! ### An operation starts -/

/-- A started operation is as the statements have it: with the weights or accumulator rows of its start. -/
theorem Cluster.begin_kind (cl : Cluster) (f : Fab) (k : OpKind) : (cl.begin f k).2 = Claims.begun cl k := by
  unfold Cluster.begin
  cases k with
  | tmul o => cases hs : o.swap <;> simp [Claims.begun, OpKind.charge, Cluster.swapBuffers, hs]
  | drain o => rfl
  | _ => rfl

/-- Of the other operations, a swap alone changes any: it passes them. -/
theorem Cluster.begin_ops (cl : Cluster) (f : Fab) (k : OpKind) : (cl.begin f k).1.ops = Claims.passed cl k := by
  unfold Cluster.begin
  cases k with
  | tmul o => cases hs : o.swap <;> simp [Claims.passed, OpKind.charge, Cluster.swapBuffers, hs]
  | drain o => dsimp only; split <;> rfl
  | _ => rfl

/-- The start of an operation leaves strands and streams. -/
theorem Cluster.begin_keeps (cl : Cluster) (f : Fab) (k : OpKind) :
    (cl.begin f k).1.strands = cl.strands ∧ (cl.begin f k).1.streams = cl.streams := by
  unfold Cluster.begin
  cases k with
  | tmul o => dsimp only; split <;> exact ⟨rfl, rfl⟩
  | drain o => dsimp only; split <;> exact ⟨rfl, rfl⟩
  | _ => exact ⟨rfl, rfl⟩

/-- An accumulator entry after rows were cleared (R152). -/
theorem Cluster.acc_clearAcc (cl : Cluster) (base m r n : Nat) (hn : n < 64) :
    (cl.clearAcc base m).acc.get 0 (64 * r + n) = if base ≤ r ∧ r < base + m then 0 else cl.acc.get 0 (64 * r + n) := by
  have row : (Nat.ble (64 * base) (64 * r + n) && Nat.blt (64 * r + n) (64 * (base + m))) = true ↔ base ≤ r ∧ r < base + m := by
    simp only [Bool.and_eq_true, Nat.ble_eq, Nat.blt_eq]
    omega
  rw [Cluster.clearAcc, Tbl.get_clear]
  exact if_congr row rfl rfl

/-- The accumulator file as an operation starts: cleared rows of an ACLR, and of a DRAIN that clears and is not replayed (R151, R152). -/
theorem Cluster.begin_acc (cl : Cluster) (f : Fab) (k : OpKind) : (cl.begin f k).1.acc = match k with
    | .aclr b m => (cl.clearAcc b m).acc
    | .drain d => if d.z && !Claims.later cl d then (cl.clearAcc d.base d.m).acc else cl.acc
    | _ => cl.acc := by
  unfold Cluster.begin
  cases k with
  | tmul o => dsimp only; split <;> rfl
  | drain d => exact apply_ite (fun c : Cluster => c.acc) _ _ _
  | _ => rfl

/-- The rows that an operation clears as it starts read 0, every other row as before. -/
theorem Cluster.begin_acc_get (cl : Cluster) (f : Fab) (k : OpKind) (r n : Nat) (hn : n < 64) :
    (Claims.clears cl k r → (cl.begin f k).1.acc.get 0 (64 * r + n) = 0) ∧
    (¬Claims.clears cl k r → (cl.begin f k).1.acc.get 0 (64 * r + n) = cl.acc.get 0 (64 * r + n)) := by
  rw [Cluster.begin_acc]
  cases k with
  | aclr b m =>
    dsimp only
    rw [Cluster.acc_clearAcc _ _ _ _ _ hn]
    exact ⟨fun h => if_pos h, fun h => if_neg h⟩
  | drain d =>
    dsimp only
    split
    · next hz =>
      obtain ⟨hz, hl⟩ : d.z = true ∧ Claims.later cl d = false := by simpa using hz
      rw [Cluster.acc_clearAcc _ _ _ _ _ hn]
      exact ⟨fun h => if_pos h.2.2, fun h => if_neg (fun hr => h ⟨hz, hl, hr⟩)⟩
    · next hz => exact ⟨fun h => absurd (by simp [h.1, h.2.1]) hz, fun _ => rfl⟩
  | _ => exact ⟨False.elim, fun _ => rfl⟩

/-- The start of an operation does not change which streams it uses. -/
theorem Claims.begun_handles (cl : Cluster) (k : OpKind) : (Claims.begun cl k).handles = k.handles := by
  cases k <;> rfl

/-! ### The end of a hold -/

theorem Op.flipped_id (q : Op) : q.flipped.id = q.id := by
  unfold Op.flipped; split <;> rfl

theorem Op.flipped_of_held {q : Op} (h : q.held = true) : q.flipped = q := by
  simp [Op.flipped, h]

theorem Op.flipped_handles (q : Op) : q.flipped.kind.handles = q.kind.handles := by
  unfold Op.flipped
  split
  · next h => rw [h]; rfl
  · rfl

/-- A held operation is found among those that a start has passed. -/
theorem Claims.passed_find? {cl : Cluster} {id : Nat} {p : Op} (k : OpKind) (h : cl.op? id = some p) (hp : p.held = true) :
    (Claims.passed cl k).find? (fun q => q.id == id) = some p := by
  have flipped : (cl.ops.map Op.flipped).find? (fun q => q.id == id) = some p := by
    have found : cl.ops.find? ((fun q => q.id == id) ∘ Op.flipped) = some p := by
      rw [show ((fun q : Op => q.id == id) ∘ Op.flipped) = (fun q => q.id == id) from
        funext (fun q => by simp [Op.flipped_id])]
      exact h
    rw [List.find?_map, found]
    exact congrArg some (Op.flipped_of_held hp)
  unfold Claims.passed
  split
  · split
    · exact flipped
    · exact h
  · exact h

theorem Claims.passed_handles {cl : Cluster} (k : OpKind) (h : ∀ q ∈ cl.ops, q.kind.handles = []) :
    ∀ q ∈ Claims.passed cl k, q.kind.handles = [] := by
  have flipped : ∀ q ∈ cl.ops.map Op.flipped, q.kind.handles = [] := by
    intro q hq
    obtain ⟨q', hq', rfl⟩ := List.mem_map.1 hq
    rw [Op.flipped_handles, h q' hq']
  unfold Claims.passed
  split
  · split
    · exact flipped
    · exact h
  · exact h

/-- The element that an update finds is found again, changed, where the change keeps what is looked for. -/
theorem find?_updateFirst {α : Type} {p : α → Bool} {g : α → α} {l : List α} {a : α} (h : l.find? p = some a) (hg : p (g a) = true) :
    (updateFirst p g l).find? p = some (g a) := by
  induction l with
  | nil => cases h
  | cons b l ih =>
    by_cases hb : p b = true
    · cases (List.find?_cons_of_pos hb).symm.trans h
      simp [updateFirst, hb, hg]
    · rw [List.find?_cons_of_neg hb] at h
      simp [updateFirst, hb, ih h]

theorem mem_updateFirst {α : Type} {p : α → Bool} {g : α → α} {l : List α} {b : α} (h : b ∈ updateFirst p g l) :
    b ∈ l ∨ ∃ a, b = g a := by
  induction l with
  | nil => cases h
  | cons a l ih =>
    unfold updateFirst at h
    split at h
    · rcases List.mem_cons.1 h with rfl | h
      · exact .inr ⟨a, rfl⟩
      · exact .inl (List.mem_cons_of_mem _ h)
    · rcases List.mem_cons.1 h with rfl | h
      · exact .inl List.mem_cons_self
      · rcases ih h with h | h
        · exact .inl (List.mem_cons_of_mem _ h)
        · exact .inr h

/-- A held operation as it starts at a cycle (R113). -/
def Op.released (cl : Cluster) (k : OpKind) (cycle c : Nat) (q : Op) : Op :=
  { q with held := false, kind := Claims.begun cl k, due := cycle + k.latency (isBroad c) }

/-- A cluster whose held operation `id` of a kind starts. -/
def Cluster.released (cl : Cluster) (f : Fab) (id : Nat) (k : OpKind) (c : Nat) : Cluster :=
  { (cl.begin f k).1 with
    ops := updateFirst (fun q => q.id == id) (Op.released cl k f.cycle c) (Claims.passed cl k) }

/-- OPERATION_HOLD_RELEASE starts an operation, not a store, that nothing holds. -/
theorem holdRelease_starts {o : OpRef} {w : W} {p : Op} (hp : (w.fab.cluster o.cluster).op? o.op = some p) (hh : p.held = true)
    (hm : (w.fab.cluster o.cluster).mustHold w.fab.cycle p.id p.kind = false)
    (ht : w.fab.throttled (w.fab.cluster o.cluster) p.kind = false) (hs : ∀ a n v, p.kind ≠ .store a n v) :
    holdRelease o w = w.map (fun f => f.onCluster o.cluster (fun cl => cl.released f o.op p.kind o.cluster)) := by
  unfold holdRelease
  dsimp only
  rw [hp]
  dsimp only
  rw [hh, hm, ht, if_pos (show (true && !false && !false) = true from rfl)]
  split
  · next hk => exact absurd hk (hs _ _ _)
  · unfold Cluster.released Op.released
    simp only [Cluster.begin_ops, Cluster.begin_kind]

/-- OPERATION_HOLD_RELEASE leaves an operation that something holds. -/
theorem holdRelease_keeps {o : OpRef} {w : W} {p : Op} (hp : (w.fab.cluster o.cluster).op? o.op = some p)
    (hm : (w.fab.cluster o.cluster).mustHold w.fab.cycle p.id p.kind = true) : holdRelease o w = w := by
  unfold holdRelease
  dsimp only
  rw [hp]
  dsimp only
  rw [hm]
  simp

/-- A cluster with the shadow buffers that a weight load fills (R40, R49). -/
def W.shadowOf (w : W) (c a pitch : Nat) (m : Fmt) (n : Nat) : WBuf :=
  ⟨some m, (List.range n).map (fun i =>
    (i, ⟨w.wellBytes c (a + i * pitch) 64, w.fab.tag c ((a + i * pitch) / 64)⟩))⟩

/-- WEIGHT_LOAD_COMPLETE of a load that is not held, without an error in the Wells. -/
theorem weightLoad_clean {o : OpRef} {w : W} {p : Op} {a pitch n : Nat} {m : Fmt} (hf : w.fab.wellFaults = [])
    (hp : (w.fab.cluster o.cluster).op? o.op = some p) (hh : p.held = false) (hk : p.kind = .wload a pitch m n) :
    weightLoad o w = w.map (fun f =>
      (f.onCluster o.cluster (fun cl => { cl with shadow := w.shadowOf o.cluster a pitch m n })).finish o.cluster o.op) := by
  unfold weightLoad
  rw [hp]
  dsimp only
  rw [hh, hk]
  dsimp only
  rw [W.wellRead_clean hf]
  rfl

/-- The clause of O18 on WEIGHT_LOAD_COMPLETE. -/
theorem weightLoadComplete_fills {s : State} {o : OpRef} {p : Op} {a pitch n : Nat} {m : Fmt} (hrun : s.fab.phase = .running)
    (hwork : Claims.atWork s o.cluster) (hf : s.fab.wellFaults = []) (hp : (s.fab.cluster o.cluster).op? o.op = some p)
    (hh : p.held = false) (hk : p.kind = .wload a pitch m n) :
    ∃ t, exec (.weightLoadComplete o) s = .next t ∧ DeviceOnly s t ∧
      (t.fab.cluster o.cluster).shadow = (W.of s).shadowOf o.cluster a pitch m n ∧
      Claims.quiet { t.fab.cluster o.cluster with shadow := (s.fab.cluster o.cluster).shadow } =
        Claims.quiet (s.fab.cluster o.cluster) ∧
      (∀ q ∈ (t.fab.cluster o.cluster).ops, q.id ≠ o.op) ∧ ∀ d, d ≠ o.cluster → t.fab.cluster d = s.fab.cluster d := by
  obtain ⟨hhalt, k, hlive⟩ := hwork
  have body := weightLoad_clean (w := W.of s) hf hp hh hk
  let filled := s.fab.onCluster o.cluster (fun cl => { cl with shadow := (W.of s).shadowOf o.cluster a pitch m n })
  have hfilled : filled.cluster o.cluster =
      { s.fab.cluster o.cluster with shadow := (W.of s).shadowOf o.cluster a pitch m n } := Fab.cluster_onCluster_same _ _ _
  have quiet := Fab.finish_quiet filled o.cluster o.op
  rw [hfilled] at quiet
  have stays : (filled.finish o.cluster o.op).ends o.cluster = filled.finish o.cluster o.op := by
    refine Fab.ends_of_live (k := k) ?_
    have strands : ((filled.finish o.cluster o.op).cluster o.cluster).strands = (s.fab.cluster o.cluster).strands := by
      rw [Fab.finish_strands, hfilled]
    rw [Cluster.strand, strands]
    exact hlive
  have shadow := congrArg (·.shadow) quiet
  have rest := congrArg (fun cl : Cluster => { cl with shadow := (s.fab.cluster o.cluster).shadow }) quiet
  refine ⟨_, onMem_atCluster (body := weightLoad o) hrun hhalt (by rw [body]; rfl) (by rw [body]; rfl), ?_, ?_, ?_, ?_, ?_⟩
  · exact ⟨by rw [body]; rfl, rfl, rfl⟩
  all_goals
    rw [body]
    dsimp only [W.map_fab]
    rw [show (W.of s).fab.onCluster o.cluster _ = filled from rfl, stays]
  · exact shadow
  · exact rest
  · exact fun q hq => (Fab.mem_ops_finish hq).2
  · intro d hd
    rw [Fab.finish_cluster_ne _ hd, Fab.cluster_onCluster, if_neg hd]

/-- The whole work of OPERATION_HOLD_RELEASE at a cluster, before its launch may end. -/
def releaseWork (o : OpRef) (w : W) : W := ((holdRelease o w).map Fab.pump).stir o.cluster

/-- OPERATION_HOLD_RELEASE of an operation that something holds still, where no other has anything for the ports to do. -/
theorem operationHoldRelease_keeps {s : State} {o : OpRef} {p : Op} (hrun : s.fab.phase = .running) (hwork : Claims.atWork s o.cluster)
    (hp : (s.fab.cluster o.cluster).op? o.op = some p) (hn : Claims.noTransfers (s.fab.cluster o.cluster))
    (hw : ∀ j, (s.fab.strand o.cluster j).waiting = none) (hports : Claims.portsEmpty s)
    (hm : (s.fab.cluster o.cluster).mustHold s.fab.cycle p.id p.kind = true) (htxns : s.fab.txns = [])
    (hheld : ∀ e ∈ s.fab.clusters, ∀ q ∈ e.2.ops, q.held = true) : exec (.operationHoldRelease o) s = .next s := by
  obtain ⟨hhalt, k, hlive⟩ := hwork
  obtain ⟨hwaiting, hstreams⟩ := hports
  have pump : s.fab.pump = s.fab := by
    apply Fab.pump_of_rest
    · simp [htxns]
    · exact Fab.injectNext_eq_none hwaiting (fun e he q hq => Fab.injectDrain_of_held _ _ (hheld e he q hq))
        (fun e he st hst => by rw [hstreams e he] at hst; cases hst)
  have body : releaseWork o (W.of s) = W.of s := by
    rw [releaseWork, holdRelease_keeps (w := W.of s) hp hm,
      show (W.of s).map Fab.pump = W.of s from congrArg (fun f => { W.of s with fab := f }) pump]
    exact W.stir_of_still hn hw
  refine (onMem_atCluster (body := releaseWork o) hrun hhalt (by rw [body]; rfl) (by rw [body]; rfl)).trans ?_
  rw [body, show (W.of s).fab.ends o.cluster = s.fab from Fab.ends_of_live hlive]
  rfl

/-- Where no listed cluster has a stream, none has. -/
theorem Fab.streams_of_unbound {f : Fab} (h : ∀ e ∈ f.clusters, e.2.streams = []) (c : Nat) : (f.cluster c).streams = [] := by
  unfold Fab.cluster Tbl.get
  cases hc : f.clusters.find? c with
  | none => rfl
  | some cl => exact h _ (Tbl.mem_of_find? hc)

/-- The cluster of an operation as it starts: strands, streams, operations. -/
theorem Cluster.released_noTransfers {cl : Cluster} {f : Fab} {id c : Nat} {k : OpKind} (hn : Claims.noTransfers cl)
    (hk : k.handles = []) : Claims.noTransfers (cl.released f id k c) := by
  intro q hq
  rcases mem_updateFirst hq with hq | ⟨q', rfl⟩
  · exact Claims.passed_handles k hn q hq
  · exact (Claims.begun_handles cl k).trans hk

/-- OPERATION_HOLD_RELEASE of an operation that nothing holds any longer: its cluster is as `Cluster.released` says, and nothing else
of what the statement speaks of has changed. -/
theorem operationHoldRelease_starts {s : State} {o : OpRef} {p : Op} (hrun : s.fab.phase = .running) (hwork : Claims.atWork s o.cluster)
    (hp : (s.fab.cluster o.cluster).op? o.op = some p) (hh : p.held = true) (hn : Claims.noTransfers (s.fab.cluster o.cluster))
    (hw : ∀ j, (s.fab.strand o.cluster j).waiting = none) (hs : ∀ a n v, p.kind ≠ .store a n v) (hports : Claims.portsEmpty s)
    (hm : (s.fab.cluster o.cluster).mustHold s.fab.cycle p.id p.kind = false)
    (ht : s.fab.throttled (s.fab.cluster o.cluster) p.kind = false) :
    ∃ t, exec (.operationHoldRelease o) s = .next t ∧ DeviceOnly s t ∧
      t.fab.cluster o.cluster = (s.fab.cluster o.cluster).released s.fab o.op p.kind o.cluster ∧
      ∀ d, d ≠ o.cluster → t.fab.cluster d = s.fab.cluster d := by
  obtain ⟨hhalt, k, hlive⟩ := hwork
  obtain ⟨hwaiting, hstreams⟩ := hports
  let cl' := (s.fab.cluster o.cluster).released s.fab o.op p.kind o.cluster
  let f := s.fab.onCluster o.cluster (fun cl => cl.released s.fab o.op p.kind o.cluster)
  have strands : cl'.strands = (s.fab.cluster o.cluster).strands := (Cluster.begin_keeps _ _ _).1
  have unbound : ∀ e ∈ f.clusters, e.2.streams = [] := by
    intro e he
    rcases Tbl.mem_set he with he | rfl
    · exact hstreams e he
    · exact ((Cluster.begin_keeps _ _ _).2).trans (Fab.streams_of_unbound hstreams o.cluster)
  have clusters : ∀ d, f.pump.cluster d = f.cluster d := fun d =>
    congrArg (fun l : Tbl Cluster => l.get .idleReset d) (Fab.pump_clusters_of_portsEmpty hwaiting unbound)
  have own : f.pump.cluster o.cluster = cl' := (clusters _).trans (Fab.cluster_onCluster_same _ _ _)
  have body : releaseWork o (W.of s) = { W.of s with fab := f.pump } := by
    rw [releaseWork, holdRelease_starts (w := W.of s) hp hh hm ht hs]
    refine W.stir_of_still ?_ ?_
    · show Claims.noTransfers (f.pump.cluster o.cluster)
      rw [own]
      exact Cluster.released_noTransfers hn (hn p (Cluster.op?_spec hp).2)
    · intro j
      show ((f.pump.cluster o.cluster).strand j).waiting = none
      rw [own, Cluster.strand, strands]
      exact hw j
  have stays : f.pump.ends o.cluster = f.pump := by
    refine Fab.ends_of_live (k := k) ?_
    rw [own, Cluster.strand, strands]
    exact hlive
  refine ⟨_, onMem_atCluster (body := releaseWork o) hrun hhalt (by rw [body]; rfl) (by rw [body]; rfl), ?_, ?_, ?_⟩
  · exact ⟨by rw [body]; rfl, rfl, rfl⟩
  all_goals
    rw [body]
    dsimp only
    rw [stays]
  · exact own
  · intro d hd
    rw [clusters, Fab.cluster_onCluster, if_neg hd]

/-- Settles O18: a weight load by `weightLoadComplete_fills`, the end of a hold by what the start of an operation does to its cluster
(`Cluster.released`). -/
theorem weightsLoadAndHeldOperationsStart : Obligations.WeightsLoadAndHeldOperationsStart := by
  refine ⟨?_, ?_⟩
  · intro s o p a pitch m n hrun cl hwork hf hp hh hk
    obtain ⟨t, ht, only, shadow, rest, ops, others⟩ := weightLoadComplete_fills hrun hwork hf hp hh hk
    refine ⟨t, ht, only, ⟨?_, ?_, ?_, rest, ops⟩, others⟩
    · rw [shadow]; rfl
    · intro i hi
      rw [shadow, W.shadowOf, Tbl.find?_map_range, if_pos hi]
      rfl
    · intro i hi
      rw [shadow, W.shadowOf, Tbl.find?_map_range, if_neg (by omega)]
  · intro s o p hrun cl hwork hp hh hid hn hw hs hports
    refine ⟨fun hm htxns hheld => operationHoldRelease_keeps hrun hwork hp hn hw hports hm htxns hheld, fun hm ht => ?_⟩
    obtain ⟨t, hex, only, own, others⟩ := operationHoldRelease_starts hrun hwork hp hh hn hw hs hports hm ht
    refine ⟨t, hex, only, ?_, ?_, ?_, others⟩
    · rw [own]
      exact find?_updateFirst (Claims.passed_find? p.kind hp hh) (by simpa [Op.released] using hid)
    · intro r n hr hc
      rw [own]
      exact (Cluster.begin_acc_get cl s.fab p.kind r n hr).1 hc
    · intro r n hr hc
      rw [own]
      exact (Cluster.begin_acc_get cl s.fab p.kind r n hr).2 hc

end Sys2Proof.Machine
end

section
/-! PROOFS. Drains and vectors (O20): what their completion stores in a Well, and that nothing which comes after it writes memory (R48,
R53, R151, R152, R173, R180 to R182). -/

namespace Sys2Proof.Machine

open Sys2Proof Sys2Proof.Safety

/-! ### Bytes and tags put into a Well -/

/-- Work that has put bytes and scale tags into good Wells, and done nothing else that matters to the clusters. -/
structure W.PutsOnly (w w' : W) : Prop where
  mem : w'.mem = w.mem
  waits : w'.waits = w.waits
  faults : w'.faults = w.faults
  clusters : w'.fab.clusters = w.fab.clusters
  good : w'.fab.wellFaults = w.fab.wellFaults

theorem W.PutsOnly.refl (w : W) : W.PutsOnly w w := ⟨rfl, rfl, rfl, rfl, rfl⟩

theorem W.PutsOnly.trans {w w' w'' : W} (a : W.PutsOnly w w') (b : W.PutsOnly w' w'') : W.PutsOnly w w'' :=
  ⟨b.mem.trans a.mem, b.waits.trans a.waits, b.faults.trans a.faults, b.clusters.trans a.clusters, b.good.trans a.good⟩

theorem W.PutsOnly.cluster {w w' : W} (h : W.PutsOnly w w') (c : Nat) : w'.fab.cluster c = w.fab.cluster c :=
  congrArg (fun l : Tbl Cluster => l.get .idleReset c) h.clusters

theorem W.putsOnly_puts (w : W) (a : Nat) (l : List Byte) : W.PutsOnly w (w.puts a l) := by
  induction l generalizing w a with
  | nil => exact W.PutsOnly.refl w
  | cons b l ih => exact W.PutsOnly.trans (w' := w.put a b) ⟨rfl, rfl, rfl, rfl, rfl⟩ (ih (w.put a b) (a + 1))

/-- Scale tags put beside a good Well change the tags alone. -/
theorem Fab.putTags_keeps {f : Fab} (h : f.wellFaults = []) (c off : Nat) (m : Fmt) (tags : List Nat) :
    (f.putTags c off m tags).clusters = f.clusters ∧ (f.putTags c off m tags).wellFaults = f.wellFaults := by
  have kept : ∀ (l : List Nat) (row : Fab → Nat → Nat) (tag : Fab → Nat → W32) (g : Fab), g.wellFaults = [] →
      (l.foldl (fun g b => g.setTag c (row g b) (tag g b)) g).clusters = g.clusters ∧
      (l.foldl (fun g b => g.setTag c (row g b) (tag g b)) g).wellFaults = [] := by
    intro l row tag
    induction l with
    | nil => exact fun g hg => ⟨rfl, hg⟩
    | cons b l ih =>
      intro g hg
      have good : (g.setTag c (row g b) (tag g b)).wellFaults = [] := by simp [Fab.setTag, hg]
      obtain ⟨h1, h2⟩ := ih _ good
      exact ⟨h1, h2⟩
  obtain ⟨h1, h2⟩ := kept (List.range tags.length) (fun _ b => off / 64 + (off % 64 / (64 / blocksPerRow m) + b) / blocksPerRow m)
    (fun g b => tagWith (g.tag c (off / 64 + (off % 64 / (64 / blocksPerRow m) + b) / blocksPerRow m))
      ((off % 64 / (64 / blocksPerRow m) + b) % blocksPerRow m) (tags.getD b 0)) f h
  exact ⟨h1, h2.trans h.symm⟩

/-- A row put into a good Well with its tags. -/
theorem W.putsOnly_row {w : W} (h : w.fab.wellFaults = []) (c off : Nat) (m : Fmt) (bytes : List Byte) (tags : List Nat) :
    W.PutsOnly w ((w.wellPut c off bytes).map (fun f => f.putTags c off m tags)) := by
  rw [W.wellPut_clean h]
  have put := W.putsOnly_puts w (wellBase c + off) bytes
  obtain ⟨clusters, good⟩ := Fab.putTags_keeps (put.good.trans h) c off m tags
  exact put.trans ⟨rfl, rfl, rfl, clusters, good⟩

/-- The bytes of that row, and every other byte as before. -/
theorem W.byte_row {w : W} (h : w.fab.wellFaults = []) (c off b : Nat) (g : Fab → Fab) (bytes : List Byte) :
    ((w.wellPut c off bytes).map g).byte b =
      if wellBase c + off ≤ b ∧ b < wellBase c + off + bytes.length then bytes.getD (b - (wellBase c + off)) 0 else w.byte b := by
  rw [W.byte_map, W.wellPut_clean h, W.byte_puts]

/-! ### The rows of a drain -/

/-- The first k rows of a drain put into its tile. -/
def W.putFirstRows (w : W) (c : Nat) (d : DrainOp) (rows : List (List Byte × List Nat × Raise)) (k : Nat) : W :=
  (List.range k).foldl (fun w j =>
    (w.wellPut c (d.addr + j * d.stride) (rows.getD j ([], [], .none)).1).map (fun f =>
      f.putTags c (d.addr + j * d.stride) d.fmt (rows.getD j ([], [], .none)).2.1)) w

/-- An address is that of byte i of row j, among the first k rows of a drain. -/
def DrainOp.Covers (d : DrainOp) (c : Nat) (rows : List (List Byte × List Nat × Raise)) (k b : Nat) : Prop :=
  ∃ j i, j < k ∧ i < (rows.getD j ([], [], .none)).1.length ∧ b = wellBase c + (d.addr + j * d.stride) + i

/-- Rows no longer than their distance lie apart, so that each reads as put; every other byte is as before (R151). -/
theorem W.putFirstRows_spec {w : W} (hw : w.fab.wellFaults = []) (c : Nat) (d : DrainOp)
    (rows : List (List Byte × List Nat × Raise)) (k : Nat)
    (hl : ∀ j, j < k → (rows.getD j ([], [], .none)).1.length ≤ d.stride) :
    W.PutsOnly w (w.putFirstRows c d rows k) ∧
    (∀ j i, j < k → i < (rows.getD j ([], [], .none)).1.length →
      (w.putFirstRows c d rows k).byte (wellBase c + (d.addr + j * d.stride) + i) = (rows.getD j ([], [], .none)).1.getD i 0) ∧
    ∀ b, ¬d.Covers c rows k b → (w.putFirstRows c d rows k).byte b = w.byte b := by
  induction k with
  | zero => exact ⟨W.PutsOnly.refl w, fun j i hj => absurd hj (Nat.not_lt_zero j), fun _ _ => rfl⟩
  | succ k ih =>
    obtain ⟨only, bytes, others⟩ := ih (fun j hj => hl j (Nat.lt_succ_of_lt hj))
    have good := only.good.trans hw
    have next : w.putFirstRows c d rows (k + 1) =
        ((w.putFirstRows c d rows k).wellPut c (d.addr + k * d.stride) (rows.getD k ([], [], .none)).1).map (fun f =>
          f.putTags c (d.addr + k * d.stride) d.fmt (rows.getD k ([], [], .none)).2.1) := by
      rw [W.putFirstRows, List.range_succ, List.foldl_append]
      rfl
    rw [next]
    refine ⟨only.trans (W.putsOnly_row good _ _ _ _ _), ?_, ?_⟩
    · intro j i hj hi
      rw [W.byte_row good]
      rcases Nat.lt_succ_iff_lt_or_eq.1 hj with hj | rfl
      · have below : (j + 1) * d.stride ≤ k * d.stride := Nat.mul_le_mul_right _ hj
        have short := hl j (Nat.lt_succ_of_lt hj)
        rw [Nat.succ_mul] at below
        rw [if_neg (by omega), bytes j i hj hi]
      · rw [if_pos (by omega)]
        congr 1
        omega
    · intro b hb
      rw [W.byte_row good, if_neg, others b]
      · rintro ⟨j, i, hj, hi, rfl⟩
        exact hb ⟨j, i, Nat.lt_succ_of_lt hj, hi, rfl⟩
      · rintro ⟨h1, h2⟩
        exact hb ⟨k, b - (wellBase c + (d.addr + k * d.stride)), Nat.lt_succ_self k, by omega, by omega⟩

/-! ### DRAIN_COMPLETE -/

/-- DRAIN_COMPLETE of an ACLR that is not held. -/
theorem drainComplete_aclr {o : OpRef} {w : W} {p : Op} {b m : Nat} (hp : (w.fab.cluster o.cluster).op? o.op = some p)
    (hh : p.held = false) (hk : p.kind = .aclr b m) : drainComplete o w = w.map (fun f => f.finish o.cluster o.op) := by
  unfold drainComplete
  dsimp only
  rw [hp]
  dsimp only
  rw [hh, hk, if_neg (by simp)]

/-- A drain that is not replayed ends in the run it began with (R122). -/
theorem drainEnd_once {d : DrainOp} (h : d.rp = false) (running : Bool) (left : Nat) (e : Int) (n : Nat) :
    drainEnd running d left e n = (e, n, false) := by
  unfold drainEnd
  simp [h]

/-- What the completion of a drain with no replay does to the device before the operation leaves flight: rows it has still to clear
are cleared (R151). -/
def Fab.drained (f : Fab) (c k : Nat) (d : DrainOp) : Fab :=
  let f1 := f.onStrand c k (fun t => { t with replays := t.replays + BitVec.ofNat 32 0 })
  if d.later then f1.onCluster c (fun cl => cl.clearAcc d.base d.m) else f1

theorem Fab.acc_drained (f : Fab) (c k : Nat) (d : DrainOp) : ((f.drained c k d).cluster c).acc =
    if d.later then ((f.cluster c).clearAcc d.base d.m).acc else (f.cluster c).acc := by
  unfold Fab.drained
  dsimp only
  split
  · rw [Fab.cluster_onCluster_same, Cluster.clearAcc, Cluster.clearAcc, (Fab.windsDown_onStrand f c c k _).acc]
  · rw [(Fab.windsDown_onStrand f c c k _).acc]

/-- DRAIN_COMPLETE of a drain that is not held or locked and calls for no replay. -/
theorem drainComplete_drain {o : OpRef} {w : W} {p : Op} {d : DrainOp} (hp : (w.fab.cluster o.cluster).op? o.op = some p)
    (hh : p.held = false) (hk : p.kind = .drain d) (hl : (w.fab.cluster o.cluster).locked p.id p.kind.writes = false)
    (hr : d.rp = false) :
    drainComplete o w = (w.putFirstRows o.cluster d (drainRun d d.e) d.m).map (fun f =>
      ((f.drained o.cluster p.strand d).finish o.cluster o.op).raiseFlags o.cluster p.strand p.epc (drainFlags (drainRun d d.e))) := by
  have count : (drainRun d d.e).length = d.m := by simp [drainRun]
  rw [hk] at hl
  unfold drainComplete
  dsimp only
  rw [hp]
  dsimp only
  rw [hh, hk, if_neg (by simp)]
  dsimp only
  rw [hl, if_neg (by simp), drainEnd_once hr, W.putRows, count]
  rfl

/-! ### VOP_COMPLETE -/

/-- The bytes, tags and flags of a VOP's result in the format of its destination tile (R173, R180). -/
def VopOp.result (v : VopOp) (w : W) (c : Nat) (m : Fmt) : List Byte × List Nat × Raise :=
  convertRow m ((v.compute w c).1.map fp32)

/-- VOP_COMPLETE of a VOP whose turn it is, with a tile as its destination and without an error in the Wells. -/
theorem vopComplete_tile {o : OpRef} {w : W} {p : Op} {v : VopOp} {a rows st : Nat} {m : Fmt} (hf : w.fab.wellFaults = [])
    (hp : (w.fab.cluster o.cluster).op? o.op = some p) (hk : p.kind = .vop v) (hd : v.dst = .tile a rows st m) (hh : p.held = false)
    (hs : (w.fab.cluster o.cluster).sliceHead p.id = true) (hr : v.ready = true)
    (hl : (w.fab.cluster o.cluster).locked p.id v.dst.ranges = false) :
    vopComplete o w = ((w.wellPut o.cluster a (v.result w o.cluster m).1).map (fun f =>
      ((f.putTags o.cluster a m (v.result w o.cluster m).2.1).finish o.cluster o.op).raiseFlags o.cluster p.strand p.epc
        ((v.compute w o.cluster).2.or (v.result w o.cluster m).2.2))).stir o.cluster := by
  unfold vopComplete
  dsimp only
  rw [hp]
  dsimp only
  rw [hk]
  dsimp only
  rw [hh, hs, hr, hl, if_neg (by simp), W.wellRead_clean hf, hd]
  rfl

/-- Strands that wake change no accumulator and bring no operation. -/
theorem Fab.windsDown_wakes (d c : Nat) (l : Tbl Strand) (f : Fab) :
    Fab.WindsDown d f (l.foldl (fun g e => g.wakeCredits c e.1) f) := by
  induction l generalizing f with
  | nil => exact Fab.WindsDown.refl d f
  | cons e l ih => exact (Fab.windsDown_wakeCredits f d c e.1).trans (ih _)

/-! ### O20 -/

/-- What work on the present memory stores reads as the work's bytes. -/
theorem W.read_stored {s : State} {w : W} (h : w.mem = s.mem) (a : Nat) : Memory.read (MemOp.applyAll s.mem w.out) a = w.byte a := by
  rw [← h, W.read_applied]

/-- The completion of an ACLR leaves every accumulator, and takes the operation out of flight (R53, R151). -/
theorem drainComplete_ends_aclr {s : State} {o : OpRef} {p : Op} {b m : Nat} (hrun : s.fab.phase = .running)
    (hhalt : s.fab.halts o.cluster = false) (hp : (s.fab.cluster o.cluster).op? o.op = some p) (hh : p.held = false)
    (hk : p.kind = .aclr b m) :
    ∃ t, exec (.drainComplete o) s = .next t ∧ DeviceOnly s t ∧ (t.fab.cluster o.cluster).acc = (s.fab.cluster o.cluster).acc ∧
      ∀ q ∈ (t.fab.cluster o.cluster).ops, q.id ≠ o.op := by
  have body := drainComplete_aclr (w := W.of s) hp hh hk
  have ends := Fab.windsDown_ends (s.fab.finish o.cluster o.op) o.cluster o.cluster
  refine ⟨_, onMem_atCluster (body := drainComplete o) hrun hhalt (by rw [body]; rfl) (by rw [body]; rfl), ?_, ?_, ?_⟩
  · exact ⟨by rw [body]; rfl, rfl, rfl⟩
  · rw [body]
    exact ((Fab.windsDown_finish s.fab o.cluster o.op).trans ends).acc
  · rw [body]
    exact fun q hq => (Fab.mem_ops_finish (ends.ops hq)).2

/-- The completion of a drain stores its rows and nothing else, and clears what it has still to clear (R48, R53, R151, R152). -/
theorem drainComplete_stores {s : State} {o : OpRef} {p : Op} {d : DrainOp} (hrun : s.fab.phase = .running)
    (hhalt : s.fab.halts o.cluster = false) (hp : (s.fab.cluster o.cluster).op? o.op = some p) (hh : p.held = false)
    (hk : p.kind = .drain d) (hl : (s.fab.cluster o.cluster).locked p.id p.kind.writes = false) (hr : d.rp = false)
    (hf : s.fab.wellFaults = [])
    (fits : ∀ j, j < d.m → ((drainRun d d.e).getD j ([], [], .none)).1.length ≤ d.stride) :
    ∃ t, exec (.drainComplete o) s = .next t ∧ t.sec = s.sec ∧
      (∀ j i, j < d.m → i < ((drainRun d d.e).getD j ([], [], .none)).1.length →
        Memory.read t.mem (wellBase o.cluster + (d.addr + j * d.stride) + i) =
          ((drainRun d d.e).getD j ([], [], .none)).1.getD i 0) ∧
      (∀ a, ¬d.Covers o.cluster (drainRun d d.e) d.m a → Memory.read t.mem a = Memory.read s.mem a) ∧
      (t.fab.cluster o.cluster).acc =
        if d.later then ((s.fab.cluster o.cluster).clearAcc d.base d.m).acc else (s.fab.cluster o.cluster).acc := by
  have body := drainComplete_drain (w := W.of s) hp hh hk hl hr
  obtain ⟨only, bytes, others⟩ := W.putFirstRows_spec (w := W.of s) hf o.cluster d (drainRun d d.e) d.m fits
  refine ⟨_, onMem_atCluster (body := drainComplete o) hrun hhalt (by rw [body]; exact only.waits)
    (by rw [body]; exact only.faults), rfl, ?_, ?_, ?_⟩
  · intro j i hj hi
    rw [body, ← bytes j i hj hi]
    exact W.read_stored only.mem _
  · intro a ha
    rw [body]
    exact (W.read_stored only.mem a).trans (others a ha)
  · rw [body]
    have kept := fun f => ((Fab.windsDown_finish f o.cluster o.op).trans (Fab.windsDown_raiseFlags _ o.cluster o.cluster p.strand
      p.epc (drainFlags (drainRun d d.e)))).trans (Fab.windsDown_ends _ o.cluster o.cluster)
    exact (kept _).acc.trans (by rw [Fab.acc_drained, only.cluster]; rfl)

/-- The completion of a VOP with a tile as its destination stores its packed results and nothing else, and takes the operation out of
flight (R173, R180 to R182). -/
theorem vopComplete_stores {s : State} {o : OpRef} {p : Op} {v : VopOp} {a rows st : Nat} {m : Fmt} (hrun : s.fab.phase = .running)
    (hhalt : s.fab.halts o.cluster = false) (hf : s.fab.wellFaults = []) (hp : (s.fab.cluster o.cluster).op? o.op = some p)
    (hk : p.kind = .vop v) (hd : v.dst = .tile a rows st m) (hh : p.held = false)
    (hs : (s.fab.cluster o.cluster).sliceHead p.id = true) (hr : v.ready = true)
    (hl : (s.fab.cluster o.cluster).locked p.id v.dst.ranges = false) (quiet : Claims.noTransfers (s.fab.cluster o.cluster)) :
    ∃ t, exec (.vopComplete o) s = .next t ∧ t.sec = s.sec ∧
      (∀ b, Memory.read t.mem b = if wellBase o.cluster + a ≤ b ∧ b < wellBase o.cluster + a + (v.result (W.of s) o.cluster m).1.length
        then (v.result (W.of s) o.cluster m).1.getD (b - (wellBase o.cluster + a)) 0 else Memory.read s.mem b) ∧
      ∀ q ∈ (t.fab.cluster o.cluster).ops, q.id ≠ o.op := by
  have body := vopComplete_tile (w := W.of s) hf hp hk hd hh hs hr hl
  let r := v.result (W.of s) o.cluster m
  let stored := ((W.of s).wellPut o.cluster a r.1).map (fun f => f.putTags o.cluster a m r.2.1)
  have only : W.PutsOnly (W.of s) stored := W.putsOnly_row hf _ _ _ _ _
  have gone : ∀ q ∈ (((stored.fab.finish o.cluster o.op).raiseFlags o.cluster p.strand p.epc
      ((v.compute (W.of s) o.cluster).2.or r.2.2)).cluster o.cluster).ops, q ∈ (s.fab.cluster o.cluster).ops ∧ q.id ≠ o.op := by
    intro q hq
    obtain ⟨old, other⟩ := Fab.mem_ops_finish ((Fab.windsDown_raiseFlags _ _ _ _ _ _).ops hq)
    rw [only.cluster] at old
    exact ⟨old, other⟩
  rw [W.stir_of_noTransfers (fun q hq => quiet q (gone q hq).1)] at body
  refine ⟨_, onMem_atCluster (body := vopComplete o) hrun hhalt (by rw [body]; exact only.waits)
    (by rw [body]; exact only.faults), rfl, ?_, ?_⟩
  · intro b
    rw [body]
    exact (W.read_stored only.mem b).trans (W.byte_row hf o.cluster a b _ r.1)
  · rw [body]
    exact fun q hq => (gone q ((Fab.windsDown_wakes _ _ _ _).ops ((Fab.windsDown_ends _ _ _).ops hq))).2

/-- Settles O20: a completion puts the bytes of its tile, and what follows it, the flags, the waking strands and the end of the
cluster, stores nothing, touches no accumulator and brings no operation back. -/
theorem drainsAndVectorsWriteTheirTile : Obligations.DrainsAndVectorsWriteTheirTile := by
  constructor
  · intro s o p hrun cl hhalt hp hh
    refine ⟨fun b m hk _ => drainComplete_ends_aclr hrun hhalt hp hh hk, ?_⟩
    intro d hk hl hr hf fits
    obtain ⟨t, next, sec, bytes, others, acc⟩ := drainComplete_stores hrun hhalt hp hh hk hl hr hf fits
    refine ⟨t, next, sec, bytes, fun a ha => others a ?_, acc⟩
    rintro ⟨j, i, hj, hi, at_⟩
    exact ha j i hj hi at_
  · intro s o p v a rows st m hrun cl hhalt hf hp hk hd hh hs hr hl quiet bytes
    obtain ⟨t, next, sec, read, gone⟩ := vopComplete_stores hrun hhalt hf hp hk hd hh hs hr hl quiet
    refine ⟨t, next, sec, fun i hi => ?_, fun b hb => ?_, gone⟩
    · rw [read, if_pos ⟨Nat.le_add_right _ _, Nat.add_lt_add_left hi _⟩, Nat.add_sub_cancel_left]
      rfl
    · refine (read b).trans (if_neg (fun h => ?_))
      exact hb.elim (fun h' => absurd h.1 (Nat.not_le.2 h')) (fun h' => absurd h.2 (Nat.not_lt.2 h'))

end Sys2Proof.Machine
end

section
/-! PROOFS. The first request of all: alone in a package whose ports have nothing else to ask for, it goes at once, and stands at its
memory (R22, R33, R35, R187). -/

namespace Sys2Proof

/-- An entry read from a table is listed, or is the default. -/
theorem Tbl.get_mem {α : Type} (t : Tbl α) (d : α) (k : Nat) : t.get d k = d ∨ (k, t.get d k) ∈ t := by
  unfold Tbl.get
  cases h : t.find? k with
  | none => exact .inl rfl
  | some v => exact .inr (Tbl.mem_of_find? h)

end Sys2Proof

namespace Sys2Proof.Machine

open Sys2Proof Sys2Proof.Safety

/-! ### Places -/

/-- What an address in the Inkwell says of itself: it is its own package address, as any unit sees it (R187). -/
theorem Fab.locate_inkwell {f : Fab} {own : Option Nat} {a b off : Nat} (h : f.locate own a = .inkwell b off) (g : Fab) :
    g.locate none (inkwellBase b + off) = .inkwell b off := by
  unfold Fab.locate at h
  dsimp only at h
  split_ifs at h
  · cases own <;> cases h
  · next low well ink =>
    cases h
    have same : inkwellBase ((a - 0x100000000) / 0x20000000) + (a - 0x100000000) % 0x20000000 = a := by
      unfold inkwellBase
      omega
    rw [same, Fab.locate, if_neg low, if_neg well, if_pos ink]

/-! ### Requests alone in the package -/

/-- An operation that is no DRAINB under way: the ports ask for nothing on its behalf (R153). -/
def Op.Silent (o : Op) : Prop := o.held = true ∨ ∀ slot off b m w got, o.kind ≠ .drainb slot off b m w got

/-- A stream with no request to make (R219, R221, R225). -/
def Stream.Silent (st : Stream) : Prop :=
  (st.segs = none → st.state ≠ .armed ∨ st.fetching = true) ∧ st.lines = [] ∧ st.sendable = 0

def Cluster.Silent (cl : Cluster) : Prop := (∀ o ∈ cl.ops, o.Silent) ∧ ∀ st ∈ cl.streams, st.Silent

theorem Fab.injectDrain_of_silent (f : Fab) (c : Nat) {o : Op} (h : o.Silent) : f.injectDrain c o = none := by
  rcases h with held | other
  · exact f.injectDrain_of_held c held
  · unfold Fab.injectDrain
    split
    · next hk => exact absurd hk (other _ _ _ _ _ _)
    · rfl

theorem Fab.injectStream_of_silent (f : Fab) (c : Nat) {st : Stream} (h : st.Silent) : f.injectStream c st = none := by
  obtain ⟨asked, lines, sendable⟩ := h
  have run : st.nextRun = 0 := by
    rw [Stream.nextRun, sendable, Nat.zero_min]
    rfl
  unfold Fab.injectStream
  dsimp only
  by_cases segs : st.segs.isNone = true
  · rw [if_pos segs]
    refine if_neg (fun ready => ?_)
    obtain ⟨armed, free⟩ := ready
    rcases asked (Option.isNone_iff_eq_none.1 segs) with h | h
    · exact h armed
    · rw [h] at free
      cases free
  · rw [if_neg segs, lines]
    dsimp only
    split
    · exact if_pos run
    · rfl

/-- With no access waiting, silent clusters leave the ports nothing to do. -/
theorem Fab.injectNext_of_silent {f : Fab} (hw : f.waiting = []) (h : ∀ e ∈ f.clusters, e.2.Silent) : f.injectNext = none :=
  Fab.injectNext_eq_none hw (fun e he o ho => f.injectDrain_of_silent e.1 ((h e he).1 o ho))
    (fun e he st hs => f.injectStream_of_silent e.1 ((h e he).2 st hs))

theorem Fab.silent_of_portsQuiet {f : Fab} (h : Claims.PortsQuiet f) (ht : f.txns = []) : ∀ e ∈ f.clusters, e.2.Silent := by
  intro e he
  refine ⟨fun o ho => ?_, h.asked e he⟩
  rcases h.sent e he o ho with held | other | ⟨t, mem, -⟩
  · exact .inl held
  · refine .inr (fun slot off b m w got hk => ?_)
    rw [hk] at other
    cases other
  · rw [ht] at mem
    cases mem

theorem Fab.silent_onCluster {f : Fab} {c : Nat} {g : Cluster → Cluster} (h : ∀ e ∈ f.clusters, e.2.Silent)
    (hg : ∀ cl, Cluster.Silent cl → Cluster.Silent (g cl)) : ∀ e ∈ (f.onCluster c g).clusters, e.2.Silent := by
  intro e he
  rcases Tbl.mem_set he with old | rfl
  · exact h e old
  · refine hg _ ?_
    rcases Tbl.get_mem f.clusters .idleReset c with idle | listed
    · rw [Fab.cluster, idle]
      exact ⟨fun o ho => absurd ho List.not_mem_nil, fun st hs => absurd hs List.not_mem_nil⟩
    · exact h _ listed

/-- The request of cluster c to the memory of base die b, as it goes out with number 0 (R33, R35). -/
def Fab.request (f : Fab) (x : Waiting) (b : Nat) (r : List Nat) : Txn :=
  { id := f.nextTxn, tag := { f.clusterTag x.cluster (16 + b) x.write.isSome with seq := 0 }, addr := x.addr, len := x.len, more := [],
    write := x.write, origin := .op x.cluster x.op, far := .package, heldPage := false, routeBank := f.routeBank, window := 0,
    route := r, behind := x.cluster, ahead := r }

/-- With nothing in flight, no crossing is full (R22). -/
theorem Fab.crossingFull_of_few {f : Fab} (h : f.txns.length ≤ 1) (a b : Nat) : f.crossingFull a b = false := by
  have few := (List.length_filter_le (fun t : Txn => t.crossing == some (a, b)) f.txns).trans h
  rw [Fab.crossingFull]
  apply Bool.eq_false_iff.2
  rw [Ne, Nat.ble_eq]
  omega

/-- The first request of all is injected, with sequence number 0 (R33, R214). -/
theorem Fab.injectAccess_first {f : Fab} {x : Waiting} {b off : Nat} {r : List Nat} (ht : f.txns = []) (hw : f.waiting = [x])
    (hl : f.locate none x.addr = .inkwell b off) (hr : f.routeOf x.cluster .package x.addr = some r) (hh : f.halts x.cluster = false) :
    f.injectAccess x = some { f with waiting := [], txns := [f.request x b r], nextTxn := f.nextTxn + 1 } := by
  have seq : f.freeSeq (sourceOf x.cluster).1 (sourceOf x.cluster).2 = some 0 := by
    rw [Fab.freeSeq, ht]
    rfl
  have room := f.crossingFull_of_few (ht ▸ Nat.zero_le 1) x.cluster (r.headD 0)
  have queue : ∀ t, f.queueOf t .package x.addr x.write.isSome = none := fun t => by
    unfold Fab.queueOf
    rw [hl]
  have sent : f.tryInject x.cluster .package x.addr x.len x.write (.op x.cluster x.op) =
      some (.ok { f with txns := [f.request x b r], nextTxn := f.nextTxn + 1 }) := by
    unfold Fab.tryInject
    dsimp only
    rw [seq]
    dsimp only
    rw [hr]
    dsimp only
    rw [hh, room, queue, hl, ht]
    rfl
  unfold Fab.injectAccess
  dsimp only
  rw [sent]
  dsimp only
  rw [hw, removeFirst, if_pos (beq_self_eq_true x)]

/-- A transaction alone in the package goes all its way (R22, R23). -/
theorem Fab.hopsFuel_alone (r : List Nat) (f : Fab) (t : Txn) (ht : f.txns = [t]) (ha : t.ahead = r) (hf : t.far = .package)
    (hh : ∀ i ∈ r, f.halts i = false) :
    ∃ p, Fab.hopsFuel r.length f = { f with txns := [{ t with behind := p, ahead := [] }] } := by
  induction r generalizing f t with
  | nil =>
    have same : { t with behind := t.behind, ahead := [] } = t := by rw [← ha]
    exact ⟨t.behind, by rw [same, ← ht]; rfl⟩
  | cons i r ih =>
    have moves : f.mover f.txns [] = some t := by
      rw [ht]
      unfold Fab.mover
      rw [ha]
      dsimp only
      rw [hh i List.mem_cons_self]
      cases r with
      | nil => rfl
      | cons j r => simp [f.crossingFull_of_few (ht ▸ Nat.le_refl 1)]
    let next : Fab := { f with txns := [{ t with behind := i, ahead := r }] }
    have step : Fab.hopsFuel (r.length + 1) f = Fab.hopsFuel r.length next := by
      have far : ∀ g : Fab, g.sendFar t = g := fun g => by
        rw [Fab.sendFar, hf]
      rw [Fab.hopsFuel, moves]
      dsimp only
      rw [far, ite_self, ht, ha]
      simp [next]
    obtain ⟨p, hp⟩ := ih next { t with behind := i, ahead := r } rfl rfl hf (fun j hj => hh j (List.mem_cons_of_mem i hj))
    exact ⟨p, step.trans hp⟩

/-- An access that waits alone in a silent package, with a way open to it, stands at its memory once the ports have run
(R22, R33, R35). -/
theorem Fab.pump_alone {f : Fab} {x : Waiting} {b off : Nat} {r : List Nat} (ht : f.txns = []) (hw : f.waiting = [x])
    (hl : f.locate none x.addr = .inkwell b off) (hr : f.routeOf x.cluster .package x.addr = some r)
    (hh : ∀ i ∈ x.cluster :: r, f.halts i = false) (quiet : ∀ e ∈ f.clusters, e.2.Silent) :
    ∃ p, f.pump = { f with
      waiting := [], txns := [{ f.request x b r with behind := p, ahead := [] }], nextTxn := f.nextTxn + 1 } := by
  let sent : Fab := { f with waiting := [], txns := [f.request x b r], nextTxn := f.nextTxn + 1 }
  have first : f.injectNext = some sent := by
    rw [Fab.injectNext, hw, List.findSome?_cons, Fab.injectAccess_first ht hw hl hr (hh _ List.mem_cons_self)]
  obtain ⟨p, moved⟩ := Fab.hopsFuel_alone r sent (f.request x b r) rfl rfl rfl (fun i hi => hh i (List.mem_cons_of_mem _ hi))
  have fuel : sent.hops = Fab.hopsFuel r.length sent := by
    simp [Fab.hops, sent, Fab.request]
  refine ⟨p, ?_⟩
  rw [Fab.pump, Fab.hops_of_arrived (by rw [ht]; exact fun t h => absurd h List.not_mem_nil), Fab.pumpFuel_of_some 4095 first, fuel, moved]
  exact Fab.pumpFuel_of_none _ (Fab.injectNext_of_silent rfl quiet)

end Sys2Proof.Machine
end

section
/-! PROOFS. LD and ST (O26): the own Well is read and written at once, an address that no access reaches faults, and an access of
package memory waits at its port (R33, R48, R111, R156, R158, R188). -/

namespace Sys2Proof.Machine

open Sys2Proof Sys2Proof.Safety

/-! ### Bytes -/

/-- The little-endian bytes of a value (R9). -/
theorem leBytes_length (n v : Nat) : (leBytes n v).length = n := by
  induction n generalizing v with
  | zero => rfl
  | succ n ih => exact congrArg Nat.succ (ih (v / 256))

theorem leBytes_getD (n v i : Nat) (hi : i < n) : (leBytes n v).getD i 0 = BitVec.ofNat 8 (v / 2 ^ (8 * i)) := by
  induction n generalizing v i with
  | zero => exact absurd hi (Nat.not_lt_zero i)
  | succ n ih =>
    cases i with
    | zero => simp [leBytes]
    | succ i =>
      rw [leBytes, List.getD_cons_succ, ih (v / 256) i (Nat.lt_of_succ_lt_succ hi), Nat.div_div_eq_div_mul, Nat.mul_succ, Nat.pow_add,
        Nat.mul_comm]

/-- A byte below the width that a value is cut to is the value's own. -/
theorem byte_of_mod (v n i : Nat) (hi : i < n) :
    BitVec.ofNat 8 (v % 2 ^ (8 * n) / 2 ^ (8 * i)) = BitVec.ofNat 8 (v / 2 ^ (8 * i)) := by
  have split : 8 * n = 8 * i + 8 * (n - i) := by omega
  have wide : (2 : Nat) ^ 8 ∣ 2 ^ (8 * (n - i)) := Nat.pow_dvd_pow 2 (by omega)
  apply BitVec.eq_of_toNat_eq
  rw [BitVec.toNat_ofNat, BitVec.toNat_ofNat, split, Nat.pow_add, Nat.mod_mul_right_div_self, Nat.mod_mod_of_dvd _ wide]

/-! ### Issue -/

theorem onMem_clean {s : State} {f : W → W} (hp : s.fab.phase = .running) (hw : (f (W.of s)).waits = false)
    (hf : (f (W.of s)).faults = []) :
    onMem s f = .next { s with mem := MemOp.applyAll s.mem (f (W.of s)).out, fab := (f (W.of s)).fab } := by
  have settled := settled_of_faults hf
  rw [onMem_running f hp (by rw [settled]; exact hw), settled]

/-- Work that changes the device and nothing else. -/
theorem onMem_map {s : State} {f : W → W} {g : Fab → Fab} (hp : s.fab.phase = .running) (h : f (W.of s) = (W.of s).map g) :
    onMem s f = .next { s with fab := g s.fab } := by
  rw [onMem_clean hp (by rw [h]; rfl) (by rw [h]; rfl), h]
  rfl

theorem W.issue_of_executes {s : State} {x : Issue} {op : Nat} (body : W → W) (h : executes s x op = true) :
    (W.of s).issue x op body = body ((W.of s).map (·.issued x)) := by
  have goes : (W.of s).fab.goes x op = .run := goes_of_executes h
  rw [W.issue, goes]

theorem W.issue_of_raises {s : State} {x : Issue} {op : Nat} {e : Exc} (body : W → W) (h : attempts s x op = true)
    (he : s.fab.precise x.cluster x.strand x.word = some e) :
    (W.of s).issue x op body = (W.of s).map (fun f => (f.issued x).take x.cluster x.strand e) := by
  have goes : (W.of s).fab.goes x op = .fault e := goes_of_raises h he
  rw [W.issue, goes]

/-- The issue note changes no place. -/
theorem Fab.locate_issued (f : Fab) (x : Issue) (own : Option Nat) :
    (f.issued x).locate own (accessAddr x.word ((f.issued x).strand x.cluster x.strand)).toNat =
      f.locate own (accessAddr x.word (f.strand x.cluster x.strand)).toNat := by
  rw [Fab.strand_issued]
  rfl

/-- An issue note takes no operation number. -/
theorem Fab.nextOp_issued (f : Fab) (x : Issue) (c : Nat) : ((f.issued x).cluster c).nextOp = (f.cluster c).nextOp := by
  rw [Fab.cluster_issued]
  split <;> rfl

/-- An issue note gives no port anything to ask for. -/
theorem Fab.issued_silent {f : Fab} (quiet : ∀ e ∈ f.clusters, e.2.Silent) (x : Issue) : ∀ e ∈ (f.issued x).clusters, e.2.Silent :=
  Fab.silent_onCluster (c := x.cluster) (g := fun cl => { cl with lastIssued := x.strand, issueFrom := (f.issued x).cycle + 1 }) quiet
    (fun _ h => h)

/-! ### The own Well -/

/-- Where the access of an issue lies, as its cluster sees it. -/
def State.target (s : State) (x : Issue) : Place := s.fab.locate (some x.cluster) (accessAddr x.word (strandOf s x)).toNat

/-- The value that the ST of an issue stores, cut to its size. -/
def State.datum (s : State) (x : Issue) : Nat := ((strandOf s x).sreg (fRb x.word)).toNat % 2 ^ (8 * (accessSize (fFn x.word)).1)

/-- LD of the own Well: the register holds the bytes, and the strand moves on (R156, R158). -/
theorem load_ownWell {s : State} {x : Issue} {off : Nat} (hx : executes s x 0x78 = true) (hl : s.target x = .well x.cluster off)
    (hf : s.fab.wellFaults = []) :
    load x (W.of s) = (W.of s).map (fun f => (f.issued x).onStrand x.cluster x.strand (fun t => (t.setS (fRd x.word)
      (extendLoad (leNat ((W.of s).wellBytes x.cluster off (accessSize (fFn x.word)).1)) (accessSize (fFn x.word)).1
        (accessSize (fFn x.word)).2)).advance)) := by
  have place := (Fab.locate_issued s.fab x (some x.cluster)).trans hl
  have clean : ∀ keys, (s.fab.issued x).wellCode x.cluster keys = (s.fab.issued x, none) := fun keys => by
    rw [Fab.wellCode, show (s.fab.issued x).wellFaults = [] from hf]
    rfl
  unfold load
  rw [W.issue_of_executes _ hx]
  dsimp only [W.map, W.of]
  rw [place]
  dsimp only
  rw [clean]
  rfl

/-- ST of bytes of the own Well that are not locked: they are put there, and the strand moves on (R48, R156, R158). -/
theorem store_ownWell {s : State} {x : Issue} {off : Nat} (hx : executes s x 0x79 = true) (hl : s.target x = .well x.cluster off)
    (hf : s.fab.wellFaults = [])
    (free : (s.fab.cluster x.cluster).locked (s.fab.cluster x.cluster).nextOp [⟨0, off, (accessSize (fFn x.word)).1⟩] = false) :
    store x (W.of s) = (((W.of s).map (·.issued x)).puts (wellBase x.cluster + off)
      (leBytes (accessSize (fFn x.word)).1 (s.datum x))).map (fun f => f.onStrand x.cluster x.strand Strand.advance) := by
  have place := (Fab.locate_issued s.fab x (some x.cluster)).trans hl
  have unlocked : ((s.fab.issued x).cluster x.cluster).locked ((s.fab.issued x).cluster x.cluster).nextOp
      [⟨0, off, (accessSize (fFn x.word)).1⟩] = false := by
    rw [Fab.cluster_issued, if_pos rfl]
    exact free
  unfold store
  rw [W.issue_of_executes _ hx]
  dsimp only [W.map, W.of]
  rw [show ((s.fab.issued x).cluster x.cluster).strand x.strand = (s.fab.issued x).strand x.cluster x.strand from rfl, place]
  dsimp only
  rw [unlocked, if_neg (by simp), W.wellPut_clean (show (s.fab.issued x).wellFaults = [] from hf), Fab.strand_issued]
  rfl

/-! ### ADDR_RANGE -/

/-- A misaligned address, and one the map does not hold, raises ADDR_RANGE (R158). -/
theorem precise_of_misplaced {s : State} {x : Issue} {op : Nat} (hop : op = 0x78 ∨ op = 0x79) (hx : attempts s x op = true)
    (h : (accessAddr x.word (strandOf s x)).toNat % (accessSize (fFn x.word)).1 ≠ 0 ∨ s.target x = .outside) :
    s.fab.precise x.cluster x.strand x.word = some (addrRange (strandOf s x).pc (accessAddr x.word (strandOf s x))) := by
  have code : opcodeOf x.word = op := by
    simp only [attempts, presents, Bool.and_eq_true, beq_iff_eq] at hx
    exact hx.1.1.2
  have fails : (accessAddr x.word (strandOf s x)).toNat % (accessSize (fFn x.word)).1 ≠ 0 ∨
      (!s.fab.reaches x.cluster (opcodeOf x.word == 0x79) (s.target x)) = true := by
    refine h.imp_right (fun outside => ?_)
    rw [outside]
    rfl
  unfold Fab.precise
  dsimp only
  rcases hop with rfl | rfl <;> rw [code] <;> rw [code] at fails <;> exact if_pos fails

/-- An access that raises ADDR_RANGE ends its strand, and its cluster terminates (R125, R126, R158). -/
theorem fatal_addrRange {s : State} {x : Issue} {i : Instr} {op : Nat} {a : Word} {body : W → W} (hx : attempts s x op = true)
    (he : s.fab.precise x.cluster x.strand x.word = some (addrRange (strandOf s x).pc a))
    (hi : exec i s = onMem s (fun w => w.issue x op body)) :
    ∃ t, exec i s = .next t ∧ Claims.Fatal s t x.cluster x.strand 0x08 (strandOf s x).pc a := by
  have running : s.fab.phase = .running := by
    simp only [attempts, Bool.and_eq_true] at hx
    exact (presents_iff.1 hx.1.1).1
  obtain ⟨strand, phase⟩ := Fab.fatal_strand (s.fab.issued x) x.cluster x.strand (addrRange (strandOf s x).pc a)
  refine ⟨{ s with fab := (s.fab.issued x).fatal x.cluster x.strand (addrRange (strandOf s x).pc a) }, ?_, ⟨rfl, rfl, rfl⟩,
    congrArg Strand.st strand, congrArg Strand.cause strand, congrArg Strand.epc strand, congrArg Strand.einfo strand, phase⟩
  rw [hi, onMem_map running (W.issue_of_raises body hx he), Fab.take_fatal _ _ _ _ rfl]

/-! ### Accesses of package memory -/

/-- A cluster with one more operation, whose registers its strand waits for as it moves on (R111). -/
def Cluster.given (cl : Cluster) (f : Fab) (x : Issue) (kind : OpKind) (busy : List Dest) : Cluster :=
  (cl.start x.strand (cl.strand x.strand).pc kind f (isBroad x.cluster)).onStrand x.strand (fun t =>
    { t.advance with busy := t.busy ++ busy })

/-- An access that has been given to its port, which has not run since (R33, R111). -/
def Fab.atPort (f : Fab) (x : Issue) (kind : OpKind) (a len : Nat) (write : Option (List Byte)) (busy : List Dest) : Fab :=
  { f.onCluster x.cluster (fun cl => cl.given f x kind busy) with
    waiting := f.waiting ++ [⟨x.cluster, (f.cluster x.cluster).nextOp, a, len, write⟩] }

/-- An operation whose start changes nothing of its cluster, and which is no DRAINB. -/
structure OpKind.Plain (kind : OpKind) : Prop where
  begins : ∀ cl f, Cluster.begin cl f kind = (cl, kind)
  other : ∀ slot off b m w got, kind ≠ .drainb slot off b m w got

theorem OpKind.plain_load (rd a n : Nat) (sg : Bool) : (OpKind.load rd a n sg).Plain := ⟨fun _ _ => rfl, fun _ _ _ _ _ _ => nofun⟩

theorem OpKind.plain_store (a n v : Nat) : (OpKind.store a n v).Plain := ⟨fun _ _ => rfl, fun _ _ _ _ _ _ => nofun⟩

/-- A plain operation enters flight: it is one more, and the number after its own is next (R113). -/
theorem Cluster.start_plain {kind : OpKind} (h : kind.Plain) (cl : Cluster) (k : Nat) (epc : BitVec 16) (f : Fab) (broad : Bool) :
    ∃ o : Op, o.kind = kind ∧ cl.start k epc kind f broad = { cl with ops := cl.ops ++ [o], nextOp := cl.nextOp + 1 } := by
  unfold Cluster.start
  rw [h.begins]
  dsimp only
  rw [ite_self]
  exact ⟨_, rfl, rfl⟩

theorem Fab.atPort_cluster {kind : OpKind} (h : kind.Plain) (f : Fab) (x : Issue) (a len : Nat) (write : Option (List Byte))
    (busy : List Dest) :
    ((f.atPort x kind a len write busy).cluster x.cluster).nextOp = (f.cluster x.cluster).nextOp + 1 ∧
    (f.atPort x kind a len write busy).strand x.cluster x.strand =
      { (f.strand x.cluster x.strand).advance with busy := (f.strand x.cluster x.strand).busy ++ busy } := by
  obtain ⟨o, -, started⟩ := Cluster.start_plain h (f.cluster x.cluster) x.strand ((f.cluster x.cluster).strand x.strand).pc f
    (isBroad x.cluster)
  have cluster : (f.atPort x kind a len write busy).cluster x.cluster = (f.cluster x.cluster).given f x kind busy :=
    Fab.cluster_onCluster_same f x.cluster (fun cl => cl.given f x kind busy)
  rw [Fab.strand, cluster, Cluster.given, started, Cluster.strand_onStrand, if_pos rfl]
  exact ⟨rfl, rfl⟩

/-- Clusters, clock and accesses that wait have no part in the ways between the islands (R18, R25). -/
theorem Fab.ways_kept (f : Fab) (clusters : Tbl Cluster) (cycle : Nat) (waiting : List Waiting) :
    let g : Fab := { f with clusters := clusters, cycle := cycle, waiting := waiting }
    (∀ c far a, g.routeOf c far a = f.routeOf c far a) ∧ (∀ i, g.halts i = f.halts i) ∧
      ∀ c dest write, g.clusterTag c dest write = f.clusterTag c dest write :=
  ⟨fun _ _ _ => rfl, fun _ => rfl, fun _ _ _ => rfl⟩

/-- A silent cluster stays silent as a plain operation enters flight. -/
theorem Fab.atPort_silent {kind : OpKind} (h : kind.Plain) {f : Fab} (quiet : ∀ e ∈ f.clusters, e.2.Silent) (x : Issue) (a len : Nat)
    (write : Option (List Byte)) (busy : List Dest) : ∀ e ∈ (f.atPort x kind a len write busy).clusters, e.2.Silent := by
  refine Fab.silent_onCluster (g := fun cl => cl.given f x kind busy) quiet (fun cl hcl => ?_)
  obtain ⟨o, ho, started⟩ := Cluster.start_plain h cl x.strand (cl.strand x.strand).pc f (isBroad x.cluster)
  rw [Cluster.given, started]
  refine ⟨fun p hp => ?_, hcl.2⟩
  rcases List.mem_append.1 hp with old | new
  · exact hcl.1 p old
  · rw [List.mem_singleton.1 new]
    exact .inr (fun slot off b m w got hk => h.other slot off b m w got (ho.symm.trans hk))

/-- An access of package memory waits at its port and is in flight; alone in a quiet package it goes at once (R22, R33, R35, R111). -/
theorem access_atPort {s : State} {x : Issue} {i : Instr} {kind : OpKind} {b off n : Nat} {data : Option (List Byte)} {regs : List Dest}
    (plain : kind.Plain) (hl : s.target x = .inkwell b off)
    (hi : exec i s = .next { s with fab := (s.fab.issued x).toPort x kind (inkwellBase b + off) n data regs }) :
    ∃ u, exec i s = .next { u with fab := u.fab.pump } ∧ DeviceOnly s u ∧
      u.fab.waiting = s.fab.waiting ++ [⟨x.cluster, (s.fab.cluster x.cluster).nextOp, inkwellBase b + off, n, data⟩] ∧
      (strandOf u x).pc = (strandOf s x).pc + 1 ∧ (strandOf u x).busy = (strandOf s x).busy ++ regs ∧
      (u.fab.cluster x.cluster).nextOp = (s.fab.cluster x.cluster).nextOp + 1 ∧
      (∀ r, Claims.PortsQuiet s.fab → s.fab.txns = [] → s.fab.routeOf x.cluster .package (inkwellBase b + off) = some r → r ≠ [] →
        (∀ i ∈ x.cluster :: r, s.fab.halts i = false) →
        u.fab.pump.waiting = [] ∧
        u.fab.pump.txns.map (fun v => (v.id, v.tag, v.addr, v.len, v.write, v.origin, v.ahead)) =
          [(s.fab.nextTxn, { s.fab.clusterTag x.cluster (16 + b) data.isSome with seq := 0 }, inkwellBase b + off, n, data,
            .op x.cluster (s.fab.cluster x.cluster).nextOp, [])]) := by
  let g := (s.fab.issued x).atPort x kind (inkwellBase b + off) n data regs
  obtain ⟨nextOp, strand⟩ := (s.fab.issued x).atPort_cluster plain x (inkwellBase b + off) n data regs
  have number := s.fab.nextOp_issued x x.cluster
  rw [number] at nextOp
  rw [Fab.strand_issued] at strand
  have waiting : g.waiting = s.fab.waiting ++ [⟨x.cluster, (s.fab.cluster x.cluster).nextOp, inkwellBase b + off, n, data⟩] := by
    rw [← number]
    rfl
  refine ⟨{ s with fab := g }, hi, ⟨rfl, rfl, rfl⟩, waiting, congrArg Strand.pc strand, congrArg Strand.busy strand, nextOp, ?_⟩
  intro r quiet none way _ open_
  have silent : ∀ e ∈ g.clusters, e.2.Silent :=
    Fab.atPort_silent plain (Fab.issued_silent (Fab.silent_of_portsQuiet quiet none) x) x _ _ _ _
  obtain ⟨routes, halts, tags⟩ := Fab.ways_kept s.fab g.clusters g.cycle g.waiting
  rw [quiet.waiting] at waiting
  obtain ⟨p, gone⟩ := Fab.pump_alone (f := g) none waiting (Fab.locate_inkwell hl g) ((routes _ _ _).trans way)
    (fun i hi => (halts i).trans (open_ i hi)) silent
  dsimp only
  rw [gone]
  refine ⟨rfl, ?_⟩
  rw [← tags]
  rfl

/-- LD of the Inkwell is given to its port (R158, R188). -/
theorem load_inkwell {s : State} {x : Issue} {b off : Nat} (hx : executes s x 0x78 = true) (hl : s.target x = .inkwell b off) :
    load x (W.of s) = (W.of s).map (fun f => (f.issued x).toPort x
      (.load (fRd x.word) (inkwellBase b + off) (accessSize (fFn x.word)).1 (accessSize (fFn x.word)).2) (inkwellBase b + off)
      (accessSize (fFn x.word)).1 none [.s (fRd x.word)]) := by
  have place := (Fab.locate_issued s.fab x (some x.cluster)).trans hl
  unfold load
  rw [W.issue_of_executes _ hx]
  dsimp only [W.map, W.of]
  rw [place]
  rfl

/-- ST to the Inkwell is given to its port with its bytes (R158, R188). -/
theorem store_inkwell {s : State} {x : Issue} {b off : Nat} (hx : executes s x 0x79 = true) (hl : s.target x = .inkwell b off) :
    store x (W.of s) = (W.of s).map (fun f => (f.issued x).toPort x
      (.store (inkwellBase b + off) (accessSize (fFn x.word)).1 (s.datum x)) (inkwellBase b + off) (accessSize (fFn x.word)).1
      (some (leBytes (accessSize (fFn x.word)).1 (s.datum x))) []) := by
  have place := (Fab.locate_issued s.fab x (some x.cluster)).trans hl
  unfold store
  rw [W.issue_of_executes _ hx]
  dsimp only [W.map, W.of]
  rw [show ((s.fab.issued x).cluster x.cluster).strand x.strand = (s.fab.issued x).strand x.cluster x.strand from rfl, place,
    Fab.strand_issued]
  rfl

/-! ### O26 -/

/-- ST to the own Well stores its bytes and no other (R48, R156, R158). -/
theorem st_ownWell {s : State} {x : Issue} {off : Nat} (hx : executes s x 0x79 = true) (hl : s.target x = .well x.cluster off)
    (hf : s.fab.wellFaults = [])
    (free : (s.fab.cluster x.cluster).locked (s.fab.cluster x.cluster).nextOp [⟨0, off, (accessSize (fFn x.word)).1⟩] = false) :
    ∃ t, exec (.st x) s = .next t ∧ t.sec = s.sec ∧ Claims.MovedOn (strandOf s x) (strandOf t x) ∧
      (∀ i, i < (accessSize (fFn x.word)).1 → Memory.read t.mem (wellBase x.cluster + off + i) =
        BitVec.ofNat 8 (((strandOf s x).sreg (fRb x.word)).toNat / 2 ^ (8 * i))) ∧
      ∀ b, (b < wellBase x.cluster + off ∨ wellBase x.cluster + off + (accessSize (fFn x.word)).1 ≤ b) →
        Memory.read t.mem b = Memory.read s.mem b := by
  have body := store_ownWell hx hl hf free
  have put := W.putsOnly_puts ((W.of s).map (·.issued x)) (wellBase x.cluster + off)
    (leBytes (accessSize (fFn x.word)).1 (s.datum x))
  refine ⟨_, onMem_clean (f := store x) (running_of_executes hx) (by rw [body]; exact put.waits) (by rw [body]; exact put.faults),
    rfl, ?_, ?_, ?_⟩
  · rw [body]
    have moved : strandOf { s with fab := (s.fab.issued x).onStrand x.cluster x.strand Strand.advance } x = (strandOf s x).advance :=
      strandOf_issued s x Strand.advance
    dsimp only [W.map]
    rw [W.puts_fab]
    exact moved ▸ ⟨rfl, rfl⟩
  · intro i hi
    rw [body]
    refine (W.read_stored (s := s) put.mem _).trans ?_
    rw [W.byte_puts, leBytes_length, if_pos ⟨Nat.le_add_right _ _, Nat.add_lt_add_left hi _⟩, Nat.add_sub_cancel_left,
      leBytes_getD _ _ _ hi, State.datum, byte_of_mod _ _ _ hi]
  · intro b hb
    rw [body]
    refine (W.read_stored (s := s) put.mem b).trans ?_
    rw [W.byte_puts, leBytes_length]
    refine if_neg (fun h => ?_)
    exact hb.elim (fun h' => absurd h.1 (Nat.not_le.2 h')) (fun h' => absurd h.2 (Nat.not_lt.2 h'))

/-- Settles O26: each access does what its place says, once its strand's turn has come; only an access that is given to its port
goes on from there. -/
theorem loadsAndStoresReachTheirMemory : Obligations.LoadsAndStoresReachTheirMemory := by
  constructor
  · intro s x off c t0 cl a z
    refine ⟨fun hl hf => ⟨fun hx => ?_, fun hx free => st_ownWell hx hl hf free⟩, fun bad row hrow hx => ?_⟩
    · refine ⟨_, onMem_map (f := load x) (running_of_executes hx) (load_ownWell hx hl hf), strandOnly_issued s x _, ?_⟩
      rw [strandOf_issued]
      exact wroteS_setS _ _ _
    · obtain rfl | rfl : row = (.ld, 0x78) ∨ row = (.st, 0x79) := by simpa using hrow
      · exact fatal_addrRange hx (precise_of_misplaced (.inl rfl) hx bad) rfl
      · exact fatal_addrRange hx (precise_of_misplaced (.inr rfl) hx bad) rfl
  · intro s x b off c t0 cl a z goes _ hl
    constructor
    · intro hx
      exact access_atPort (OpKind.plain_load _ _ _ _) hl (onMem_map (f := load x) (running_of_executes hx) (load_inkwell hx hl))
    · intro hx
      exact access_atPort (OpKind.plain_store _ _ _) hl (onMem_map (f := store x) (running_of_executes hx) (store_inkwell hx hl))

end Sys2Proof.Machine
end

section
/-! PROOFS. FOP (O9): the flags it raises are counted and reach the strand that issued it, which takes FLAG_TRAP at once where one of
them is enabled, since the issue leaves no precise exception of the strand in that cycle (R87, R108, R124, R144, R165). -/

namespace Sys2Proof

/-- Of two writes at a key the later one stays. -/
theorem Tbl.set_set {α : Type} (t : Tbl α) (k : Nat) (u v : α) : (t.set k u).set k v = t.set k v := by
  induction t with
  | nil => simp [Tbl.set]
  | cons e r ih =>
    obtain ⟨j, w⟩ := e
    by_cases h : j = k <;> simp [Tbl.set, h, ih]

end Sys2Proof

namespace Sys2Proof.Machine

open Sys2Proof Sys2Proof.Safety

/-! ### No precise exception in the cycle of an issue -/

/-- A strand is ready no earlier than its cluster may issue (R111). -/
theorem Fab.issueFrom_le_of_readyTime {f : Fab} {c k u : Nat} (h : f.readyTime c k = some u) : (f.cluster c).issueFrom ≤ u := by
  unfold Fab.readyTime at h
  dsimp only at h
  split at h
  · split at h
    case h_1 => cases h
    case h_2 => cases h; split <;> omega
    case h_3 => split at h <;> cases h; omega
    case h_4 => split at h <;> cases h; split <;> omega
  · cases h

/-- The strand whose turn it is issues no earlier than its cluster may issue. -/
theorem Fab.issueFrom_le_of_chosen {f : Fab} {c k u : Nat} (h : f.chosen c k = some u) : (f.cluster c).issueFrom ≤ u := by
  unfold Fab.chosen at h
  split at h
  · split at h
    · next v ready =>
      split at h <;> cases h
      exact Fab.issueFrom_le_of_readyTime ready
    · cases h
  · cases h

/-- A cluster that may issue only later has no precise exception in this cycle (R111, R165). -/
theorem Fab.preciseNow_of_issueFrom {f : Fab} {c k : Nat} (h : f.cycle < (f.cluster c).issueFrom) : f.preciseNow c k = false := by
  have later : f.chosen c k ≠ some f.cycle := fun now => absurd (Fab.issueFrom_le_of_chosen now) (Nat.not_le.2 h)
  rw [Fab.preciseNow, beq_false_of_ne later, Bool.false_and]

/-- After an issue its cluster may issue only later. -/
theorem Fab.cycle_lt_issueFrom (f : Fab) (x : Issue) : (f.issued x).cycle < ((f.issued x).cluster x.cluster).issueFrom := by
  rw [Fab.cluster_issued, if_pos rfl]
  exact Nat.lt_succ_self _

/-! ### The counts of the flags -/

/-- The count of one flag, moved on where the flag was raised. -/
def Fab.countFlag (f : Fab) (raised : Bool) (j : Nat) : Fab := if raised then f.dadd 0x4004 j 1 else f

/-- The flags are counted one by one. -/
theorem Fab.countFlags_eq (f : Fab) (r : Raise) :
    f.countFlags r = ((f.countFlag r.nv 1).countFlag r.ovf 2).countFlag r.so 3 := rfl

/-- A count of flags is 32 bits wide. -/
theorem Dict.width_flagCount {j : Nat} (h : 1 ≤ j ∧ j ≤ 3) : ((Dict.row 0x4004 j).map (fun d => d.ty.width)).getD 4 = 4 := by
  obtain rfl | rfl | rfl : j = 1 ∨ j = 2 ∨ j = 3 := by omega
  all_goals decide +kernel

/-- An entry after a flag may have been counted. -/
theorem Fab.dget_countFlag (f : Fab) (raised : Bool) {j : Nat} (h : 1 ≤ j ∧ j ≤ 3) (a b : Nat) :
    (f.countFlag raised j).dget a b = if dictKey a b = dictKey 0x4004 j ∧ raised = true then
      min (f.dget 0x4004 j + 1) (2 ^ 32 - 1) else f.dget a b := by
  cases raised
  · simp [Fab.countFlag]
  · simp [Fab.countFlag, Fab.dget_dadd, Dict.width_flagCount h]

/-- Counting flags changes the dictionary only. -/
theorem Fab.countFlags_rest (f : Fab) (r : Raise) : { f.countFlags r with dict := [] } = { f with dict := [] } := by
  unfold Fab.countFlags
  dsimp only
  split <;> split <;> split <;> rfl

/-- Counting flags leaves every entry but the three counts. -/
theorem Fab.dget_countFlags_other (f : Fab) (r : Raise) {i j : Nat} (h : i ≠ 0x4004 ∨ j = 0 ∨ 3 < j) (hj : j < 256) :
    (f.countFlags r).dget i j = f.dget i j := by
  have other : ∀ n, 1 ≤ n ∧ n ≤ 3 → dictKey i j ≠ dictKey 0x4004 n := by
    intro n hn
    unfold dictKey
    omega
  simp [Fab.countFlags_eq, Fab.dget_countFlag, other]

/-- Each of the three counts moves on by one where its flag was raised, and no further than its greatest value (R87). -/
theorem Fab.dget_countFlags (f : Fab) (r : Raise) :
    (f.countFlags r).dget 0x4004 1 = (if r.nv then min (f.dget 0x4004 1 + 1) (2 ^ 32 - 1) else f.dget 0x4004 1) ∧
    (f.countFlags r).dget 0x4004 2 = (if r.ovf then min (f.dget 0x4004 2 + 1) (2 ^ 32 - 1) else f.dget 0x4004 2) ∧
    (f.countFlags r).dget 0x4004 3 = (if r.so then min (f.dget 0x4004 3 + 1) (2 ^ 32 - 1) else f.dget 0x4004 3) := by
  refine ⟨?_, ?_, ?_⟩ <;> simp [Fab.countFlags_eq, Fab.dget_countFlag, dictKey]

/-! ### Flags raised on a strand -/

/-- Of two changes of a strand one is made of both. -/
theorem Fab.onStrand_onStrand (f : Fab) (c k : Nat) (g h : Strand → Strand) :
    (f.onStrand c k g).onStrand c k h = f.onStrand c k (fun t => h (g t)) := by
  simp [Fab.onStrand, Fab.onCluster, Fab.cluster, Cluster.onStrand, Cluster.strand, Tbl.set_set]

/-- Counting flags does not read a strand. -/
theorem Fab.countFlags_onStrand (f : Fab) (c k : Nat) (g : Strand → Strand) (r : Raise) :
    (f.onStrand c k g).countFlags r = (f.countFlags r).onStrand c k g := by
  unfold Fab.countFlags
  dsimp only
  split <;> split <;> split <;> rfl

/-- A change of a strand is what it makes of that strand. -/
theorem Fab.onStrand_congr {f : Fab} {c k : Nat} {g h : Strand → Strand} (e : g (f.strand c k) = h (f.strand c k)) :
    f.onStrand c k g = f.onStrand c k h := by
  change g ((f.cluster c).strand k) = h ((f.cluster c).strand k) at e
  simp [Fab.onStrand, Fab.onCluster, Cluster.onStrand, e]

/-- A change of a strand leaves from when its cluster may issue. -/
theorem Fab.issueFrom_onStrand (f : Fab) (c k : Nat) (g : Strand → Strand) :
    ((f.onStrand c k g).cluster c).issueFrom = (f.cluster c).issueFrom := by
  rw [Fab.onStrand, Fab.cluster_onCluster_same, Cluster.onStrand_issueFrom]

/-- The strand that was changed. -/
theorem Fab.strand_onStrand_same (f : Fab) (c k : Nat) (g : Strand → Strand) :
    (f.onStrand c k g).strand c k = g (f.strand c k) := by
  rw [Fab.strand_onStrand, if_pos ⟨rfl, rfl⟩]

/-- A strand that enters its handler with FLAG_TRAP (R125). -/
def Strand.flagTrapped (t : Strand) (epc : BitVec 16) (cycle : Nat) : Strand :=
  { t.record ⟨.flagTrap, epc, t.flags.setWidth 64⟩ with st := .trapped, pc := t.tvec, waiting := none, readyAt := cycle + 3 }

/-- A strand with flags put into FLAGS. -/
def Strand.noteFlags (t : Strand) (r : Raise) : Strand := { t with flags := t.flags ||| r.bits }

/-- A strand after flags were raised on it: FLAGS, and FLAG_TRAP where one of them is enabled (R108). -/
def Strand.flagged (t : Strand) (epc : BitVec 16) (r : Raise) (cycle : Nat) : Strand :=
  if t.flagTrap &&& r.bits = 0 then t.noteFlags r else (t.noteFlags r).flagTrapped epc cycle

/-- No flag does nothing to a strand. -/
theorem Strand.flagged_none (t : Strand) (epc : BitVec 16) (cycle : Nat) : t.flagged epc .none cycle = t := by
  have bits : Raise.none.bits = 0 := rfl
  simp [Strand.flagged, Strand.noteFlags, bits]

/-- A strand on which a FLAG_TRAP raised now is not fatal: none of the flags is enabled, or it is Running and has a handler (R125). -/
def Strand.bears (t : Strand) (r : Raise) : Prop := t.flagTrap &&& r.bits = 0 ∨ (t.st = .running ∧ t.tvec ≠ 0)

/-- FLAG_TRAP of a Running strand with a handler, its cluster able to issue only later, enters the handler at once (R124, R125). -/
theorem Fab.raiseAsync_flagTrap {f : Fab} {c k : Nat} (epc : BitVec 16) (running : (f.strand c k).st = .running)
    (handler : (f.strand c k).tvec ≠ 0) (later : f.cycle < (f.cluster c).issueFrom) :
    f.raiseAsync c k ⟨.flagTrap, epc, (f.strand c k).flags.setWidth 64⟩ = f.onStrand c k (fun t => t.flagTrapped epc f.cycle) := by
  have quiet := Fab.preciseNow_of_issueFrom (k := k) later
  simp only [Fab.raiseAsync, running, quiet]
  exact Fab.take_handler f c k _ (by simpa [Cause.trappable, running] using handler)

/-- Flags counted and put into a strand's FLAGS. -/
def Fab.noteFlags (f : Fab) (c k : Nat) (r : Raise) : Fab := (f.countFlags r).onStrand c k (·.noteFlags r)

/-- What the raise of a flag is made of. -/
theorem Fab.raiseFlags_eq (f : Fab) (c k : Nat) (epc : BitVec 16) {r : Raise} (flag : r ≠ .none) :
    f.raiseFlags c k epc r = if ((f.noteFlags c k r).strand c k).flagTrap &&& r.bits = 0 then f.noteFlags c k r
      else (f.noteFlags c k r).raiseAsync c k ⟨.flagTrap, epc, ((f.noteFlags c k r).strand c k).flags.setWidth 64⟩ :=
  if_neg flag

/-- Counting flags leaves the clock. -/
theorem Fab.countFlags_cycle (f : Fab) (r : Raise) : (f.countFlags r).cycle = f.cycle :=
  congrArg (·.cycle) (Fab.countFlags_rest f r)

/-- Counting flags leaves each cluster. -/
theorem Fab.countFlags_cluster (f : Fab) (r : Raise) (c : Nat) : (f.countFlags r).cluster c = f.cluster c :=
  congrArg (fun l : Tbl Cluster => l.get .idleReset c) (Fab.countFlags_clusters f r)

/-- Counting flags leaves each strand. -/
theorem Fab.countFlags_strand (f : Fab) (r : Raise) (c k : Nat) : (f.countFlags r).strand c k = f.strand c k :=
  congrArg (fun cl : Cluster => cl.strand k) (Fab.countFlags_cluster f r c)

/-- The strand whose flags were noted. -/
theorem Fab.noteFlags_strand (f : Fab) (c k : Nat) (r : Raise) :
    (f.noteFlags c k r).strand c k = (f.strand c k).noteFlags r := by
  rw [Fab.noteFlags, Fab.strand_onStrand_same, Fab.countFlags_strand]

/-- Noting flags leaves the clock. -/
theorem Fab.noteFlags_cycle (f : Fab) (c k : Nat) (r : Raise) : (f.noteFlags c k r).cycle = f.cycle := Fab.countFlags_cycle f r

/-- Noting flags leaves from when the cluster may issue. -/
theorem Fab.noteFlags_issueFrom (f : Fab) (c k : Nat) (r : Raise) :
    ((f.noteFlags c k r).cluster c).issueFrom = (f.cluster c).issueFrom := by
  rw [Fab.noteFlags, Fab.issueFrom_onStrand, Fab.countFlags_cluster]

/-- A flag raised on a strand that bears it is counted and changes that strand. -/
theorem Fab.raiseFlags_of_bears {f : Fab} {c k : Nat} (epc : BitVec 16) {r : Raise} (flag : r ≠ .none)
    (later : f.cycle < (f.cluster c).issueFrom) (bears : (f.strand c k).bears r) :
    f.raiseFlags c k epc r = (f.countFlags r).onStrand c k (fun t => t.flagged epc r f.cycle) := by
  have strand := Fab.noteFlags_strand f c k r
  rw [Fab.raiseFlags_eq f c k epc flag]
  by_cases off : (f.strand c k).flagTrap &&& r.bits = 0
  · rw [if_pos (strand ▸ off)]
    exact Fab.onStrand_congr (by rw [Fab.countFlags_strand, Strand.flagged, if_pos off])
  · obtain ⟨running, handler⟩ := bears.resolve_left off
    rw [if_neg (strand ▸ off), Fab.raiseAsync_flagTrap epc (strand ▸ running) (strand ▸ handler)
      (by rw [Fab.noteFlags_cycle, Fab.noteFlags_issueFrom]; exact later), Fab.noteFlags_cycle, Fab.noteFlags, Fab.onStrand_onStrand]
    exact Fab.onStrand_congr (by rw [Fab.countFlags_strand, Strand.flagged, if_neg off])

/-- The same of a strand that an instruction has just changed, and of any flags. -/
theorem Fab.raiseFlags_onStrand {f : Fab} {c k : Nat} (g : Strand → Strand) (epc : BitVec 16) (r : Raise)
    (later : f.cycle < (f.cluster c).issueFrom) (bears : (g (f.strand c k)).bears r) :
    (f.onStrand c k g).raiseFlags c k epc r = (f.countFlags r).onStrand c k (fun t => (g t).flagged epc r f.cycle) := by
  by_cases flag : r = .none
  · subst flag
    simp only [Strand.flagged_none]
    rfl
  · rw [Fab.raiseFlags_of_bears epc flag (by rw [Fab.issueFrom_onStrand]; exact later) (by rw [Fab.strand_onStrand_same]; exact bears),
      Fab.countFlags_onStrand, Fab.onStrand_onStrand, Fab.cycle_onStrand]

/-! ### O9 -/

/-- The result of FOP and the flags it raises, on the registers of its strand. -/
def Strand.fop (t : Strand) (w : Word) : Word × Raise := fopFn (fFn w) (t.sreg (fRa w)) (operandF w t)

/-- What FOP does where it executes. -/
def fop (x : Issue) (f : Fab) : Fab :=
  (f.onStrand x.cluster x.strand (fun t => (t.setS (fRd x.word) ((f.strand x.cluster x.strand).fop x.word).1).advance)).raiseFlags
    x.cluster x.strand (f.strand x.cluster x.strand).pc ((f.strand x.cluster x.strand).fop x.word).2

theorem exec_fop (x : Issue) (s : State) : exec (.fop x) s = onFab s (fun f => f.issue x 0x1E (fop x)) := rfl

/-- A strand after FOP. -/
def Strand.afterFop (t : Strand) (w : Word) (cycle : Nat) : Strand :=
  (t.setS (fRd w) (t.fop w).1).advance.flagged t.pc (t.fop w).2 cycle

/-- The device after FOP. -/
def Fab.afterFop (f : Fab) (x : Issue) : Fab :=
  ((f.issued x).countFlags ((f.strand x.cluster x.strand).fop x.word).2).onStrand x.cluster x.strand
    (·.afterFop x.word (f.issued x).cycle)

/-- FOP that executes on a strand that bears its flags (R87, R108, R144). -/
theorem exec_fop_of_executes {s : State} {x : Issue} (hx : executes s x 0x1E = true)
    (bears : (strandOf s x).bears ((strandOf s x).fop x.word).2) :
    exec (.fop x) s = .next { s with fab := s.fab.afterFop x } := by
  have place : (s.fab.issued x).strand x.cluster x.strand = strandOf s x := Fab.strand_issued _ _ _ _
  rw [exec_fop, onFab_running _ (running_of_executes hx), issue_of_executes _ hx, fop,
    Fab.raiseFlags_onStrand _ _ _ (Fab.cycle_lt_issueFrom _ _) (by rw [place]; exact bears), place]
  refine congrArg (fun f => Host.Outcome.next { s with fab := f }) (Fab.onStrand_congr ?_)
  rw [Fab.countFlags_strand, place]
  rfl

/-- The s registers after FOP. -/
theorem Strand.sreg_afterFop (t : Strand) (w : Word) (cycle j : Nat) :
    (t.afterFop w cycle).sreg j = if j = fRd w then (t.fop w).1 else t.sreg j := by
  have kept : (t.afterFop w cycle).s = (t.setS (fRd w) (t.fop w).1).s := by
    unfold Strand.afterFop Strand.flagged
    split <;> rfl
  rw [← Strand.sreg_setS, Strand.sreg, kept, Strand.sreg]

/-- FLAGS after FOP. -/
theorem Strand.flags_afterFop (t : Strand) (w : Word) (cycle : Nat) :
    (t.afterFop w cycle).flags = t.flags ||| (t.fop w).2.bits := by
  unfold Strand.afterFop Strand.flagged
  split <;> rfl

/-- What FOP leaves of its strand where none of its flags is enabled. -/
theorem Strand.afterFop_of_off {t : Strand} {w : Word} (cycle : Nat) (off : t.flagTrap &&& (t.fop w).2.bits = 0) :
    { t.afterFop w cycle with s := [], flags := 0 } = { t with s := [], flags := 0, pc := t.pc + 1 } := by
  rw [show t.afterFop w cycle = (t.setS (fRd w) (t.fop w).1).advance.noteFlags (t.fop w).2 from if_pos off]
  rfl

/-- What FOP leaves of its strand where one of its flags is enabled (R125). -/
theorem Strand.afterFop_of_on {t : Strand} {w : Word} (cycle : Nat) (on : t.flagTrap &&& (t.fop w).2.bits ≠ 0) :
    { t.afterFop w cycle with s := [], flags := 0 } =
      { t with s := [], flags := 0, st := .trapped, pc := t.tvec, epc := t.pc, cause := 0x12,
               einfo := (t.flags ||| (t.fop w).2.bits).setWidth 64, waiting := none, readyAt := cycle + 3 } := by
  rw [show t.afterFop w cycle = ((t.setS (fRd w) (t.fop w).1).advance.noteFlags (t.fop w).2).flagTrapped t.pc cycle from if_neg on]
  rfl

/-- The strands after FOP. -/
theorem Fab.strand_afterFop (f : Fab) (x : Issue) (c k : Nat) :
    (f.afterFop x).strand c k = if c = x.cluster ∧ k = x.strand then
      (f.strand x.cluster x.strand).afterFop x.word (f.issued x).cycle else f.strand c k := by
  rw [Fab.afterFop, Fab.strand_onStrand, Fab.countFlags_strand, Fab.countFlags_strand, Fab.strand_issued, Fab.strand_issued]

/-- FOP leaves of each cluster all but its strands and what an issue notes. -/
theorem Fab.cluster_afterFop (f : Fab) (x : Issue) (d : Nat) :
    { (f.afterFop x).cluster d with strands := [], lastIssued := 0, issueFrom := 0 } =
      { f.cluster d with strands := [], lastIssued := 0, issueFrom := 0 } := by
  rw [Fab.afterFop, Fab.onStrand, Fab.cluster_onCluster, Fab.countFlags_cluster, Fab.countFlags_cluster, Fab.cluster_issued,
    Fab.cluster_issued, if_pos rfl]
  split
  · next same => subst same; rfl
  · rfl

/-- FOP leaves the clock where the issue put it. -/
theorem Fab.cycle_afterFop (f : Fab) (x : Issue) : (f.afterFop x).cycle = (f.issued x).cycle := Fab.countFlags_cycle _ _

/-- FOP changes clusters, the dictionary and the clock, and nothing else of the device. -/
theorem Fab.afterFop_rest (f : Fab) (x : Issue) :
    { f.afterFop x with clusters := [], dict := [], cycle := 0 } = { f with clusters := [], dict := [], cycle := 0 } :=
  congrArg (fun g : Fab => { g with clusters := [], cycle := 0 }) (Fab.countFlags_rest (f.issued x) _)

/-- An entry after FOP is as the counts of its flags leave it. -/
theorem Fab.dget_afterFop (f : Fab) (x : Issue) (i j : Nat) :
    (f.afterFop x).dget i j = ((f.issued x).countFlags ((f.strand x.cluster x.strand).fop x.word).2).dget i j := rfl

/-- Settles O9: FOP is the count of its flags and a change of its strand (`exec_fop_of_executes`), and of each the lemmas above say
what it does and what it leaves. -/
theorem floatInstructionRaisesItsFlags : Obligations.FloatInstructionRaisesItsFlags := by
  intro s x hx t0 r bears
  have strand : (s.fab.afterFop x).strand x.cluster x.strand = t0.afterFop x.word (s.fab.issued x).cycle := by
    rw [Fab.strand_afterFop, if_pos ⟨rfl, rfl⟩]
  have counts := Fab.dget_countFlags (s.fab.issued x) r.2
  refine ⟨_, exec_fop_of_executes hx bears, ⟨rfl, rfl, rfl⟩, ?_, ?_, ?_, ?_, ?_, Fab.cluster_afterFop _ _, Fab.afterFop_rest _ _,
    fun i j h hj => (Fab.dget_afterFop _ _ _ _).trans (Fab.dget_countFlags_other _ _ h hj), counts⟩
  · rw [strandOf, strand]
    exact Strand.sreg_afterFop _ _ _
  · rw [strandOf, strand]
    exact Strand.flags_afterFop _ _ _
  · rw [strandOf, strand]
    exact Strand.afterFop_of_off _
  · rw [strandOf, strand, Fab.cycle_afterFop]
    exact Strand.afterFop_of_on _
  · intro c k other
    rw [Fab.strand_afterFop, if_neg (fun same => other.elim (· same.1) (· same.2))]

end Sys2Proof.Machine
end

section
/-! PROOFS. Branches (O10): an instruction that executes as a change of its strand alone, and what a branch leaves (R110, R146). -/

namespace Sys2Proof.Machine

open Sys2Proof Sys2Proof.Safety

/-! ### Changes of one strand -/

/-- An instruction whose effect is a change of its strand, at the cycle of its issue. -/
theorem exec_strandChange {s : State} {x : Issue} {op : Nat} {i : Instr} (g : Nat → Strand → Strand) (hx : executes s x op = true)
    (hi : exec i s = onFab s (fun f => f.issue x op (fun f => f.onStrand x.cluster x.strand (g f.cycle)))) :
    ∃ t, exec i s = .next t ∧ StrandOnly s t x.cluster x.strand ∧ strandOf t x = g t.fab.cycle (strandOf s x) := by
  refine ⟨{ s with fab := (s.fab.issued x).onStrand x.cluster x.strand (g (s.fab.issued x).cycle) }, ?_, strandOnly_issued s x _,
    strandOf_issued s x _⟩
  rw [hi, onFab_running _ (running_of_executes hx), issue_of_executes _ hx]

/-- A branch leaves the s registers. -/
@[simp] theorem Strand.sreg_branch (t : Strand) (target cycle j : Nat) : (t.branch target cycle).sreg j = t.sreg j := rfl

/-- A branch with an s register written before it. -/
theorem branched_setS (t : Strand) (r : Nat) (v : Word) (target cycle : Nat) :
    Branched t ((t.setS r v).branch target cycle) target cycle := ⟨rfl, rfl, rfl⟩

/-- A branch that writes no register. -/
theorem branched_branch (t : Strand) (target cycle : Nat) : Branched t (t.branch target cycle) target cycle := ⟨rfl, rfl, rfl⟩

/-- The target field is the low half of the low word (R146). -/
theorem fTarget_eq (w : Word) : fTarget w = (w.setWidth 16).toNat := by
  simp [fTarget, fld, bitsOf]

/-- A register decremented is 0 where it was 1 (R146). -/
theorem decremented_eq_zero {v : Word} : v - 1 = 0 ↔ v = 1 := sub_eq_zero

/-! ### The branches that are taken, and those that are not -/

/-- The strand that BCC leaves (R146). -/
def Strand.bcc (t : Strand) (w : Word) (cycle : Nat) : Strand :=
  if condition (fFn w) (t.sreg (fRd w)) (t.sreg (fRa w)) then t.branch (fTarget w) cycle else t.advance

/-- The strand that BDEC leaves (R146). -/
def Strand.bdec (t : Strand) (w : Word) (cycle : Nat) : Strand :=
  if t.sreg (fRd w) - 1 = 0 then (t.setS (fRd w) (t.sreg (fRd w) - 1)).advance
  else (t.setS (fRd w) (t.sreg (fRd w) - 1)).branch (fTarget w) cycle

theorem exec_bcc {s : State} {x : Issue} (hx : executes s x 0x31 = true) :
    ∃ t, exec (.bcc x) s = .next t ∧ StrandOnly s t x.cluster x.strand ∧
      strandOf t x = (strandOf s x).bcc x.word t.fab.cycle :=
  exec_strandChange (fun cycle t => t.bcc x.word cycle) hx rfl

theorem exec_bdec {s : State} {x : Issue} (hx : executes s x 0x32 = true) :
    ∃ t, exec (.bdec x) s = .next t ∧ StrandOnly s t x.cluster x.strand ∧
      strandOf t x = (strandOf s x).bdec x.word t.fab.cycle :=
  exec_strandChange (fun cycle t => t.bdec x.word cycle) hx rfl

/-- Settles O10: each branch changes its strand alone (`exec_strandChange`), and where it goes is read off what it makes of it. -/
theorem branchesGoToTheirTargetOrGoOn : Obligations.BranchesGoToTheirTargetOrGoOn := by
  constructor
  · intro s x t0 go d target taken
    have place : target = fTarget x.word := (fTarget_eq x.word).symm
    refine ⟨fun hx => ?_, fun ht hx => ?_, fun hne hx => ?_, fun hx => ?_, fun hx => ?_⟩
    · obtain ⟨t, ht, only, strand⟩ := exec_strandChange (i := .br x) (fun cycle t => t.branch (fTarget x.word) cycle) hx rfl
      rw [place]
      exact ⟨t, ht, only, strand ▸ branched_branch _ _ _, fun j => by rw [strand]; rfl⟩
    · obtain ⟨t, hex, only, strand⟩ := exec_bcc hx
      rw [Strand.bcc, if_pos ht] at strand
      rw [place]
      exact ⟨t, hex, only, strand ▸ branched_branch _ _ _, fun j => by rw [strand]; rfl⟩
    · obtain ⟨t, hex, only, strand⟩ := exec_bdec hx
      rw [Strand.bdec, if_neg (fun h => hne (decremented_eq_zero.1 h))] at strand
      rw [place]
      exact ⟨t, hex, only, strand ▸ branched_setS _ _ _ _ _, fun j => by rw [strand, Strand.sreg_branch, Strand.sreg_setS]⟩
    · obtain ⟨t, hex, only, strand⟩ := exec_strandChange (i := .jal x)
        (fun cycle t => (t.setS (fRd x.word) (t.pc.setWidth 64 + 1)).branch (fTarget x.word) cycle) hx rfl
      rw [place]
      exact ⟨t, hex, only, strand ▸ branched_setS _ _ _ _ _, fun j => by rw [strand, Strand.sreg_branch, Strand.sreg_setS]⟩
    · obtain ⟨t, hex, only, strand⟩ := exec_strandChange (i := .jr x)
        (fun cycle t => t.branch (bitsOf (t.sreg (fRd x.word)).toNat 15 0) cycle) hx rfl
      have low : bitsOf (t0.sreg d).toNat 15 0 = (t0.sreg d).toNat % 65536 := by simp [bitsOf]
      exact ⟨t, hex, only, low ▸ strand ▸ branched_branch _ _ _, fun j => by rw [strand]; rfl⟩
  · intro s x t0
    constructor
    · intro off hx
      obtain ⟨t, hex, only, strand⟩ := exec_bcc hx
      rw [Strand.bcc, if_neg (by rw [off]; simp)] at strand
      exact ⟨t, hex, only, by rw [strand]; rfl, by rw [strand]; rfl⟩
    · intro one hx
      obtain ⟨t, hex, only, strand⟩ := exec_bdec hx
      have zero : t0.sreg (fRd x.word) - 1 = 0 := decremented_eq_zero.2 one
      rw [Strand.bdec, if_pos zero, zero] at strand
      exact ⟨t, hex, only, strand ▸ wroteS_setS _ _ _⟩

end Sys2Proof.Machine
end

section
/-! PROOFS. A false predicate (O12): DRAINB has the ports run at its issue, also where it is annulled, and they inject what another
cluster has started (R22, R134, R153). -/

namespace Sys2Proof.Machine

open Sys2Proof Sys2Proof.Safety

/-- DRAINB under predicate p1 (R133, R153). -/
def drainbUnderP1 : Word := BitVec.ofNat 64 (0x54 * 2 ^ 56 + 2 ^ 53)

/-- Strand 0 of cluster 0 at that word, p1 false; cluster 1 has started a DRAINB that its port has not injected yet. -/
def annulledBesideDrain : State :=
  { State.reset with fab := { Fab.reset with
      clusters := [(0, { Cluster.idleReset with
          phase := .running, imem := [drainbUnderP1], strands := [(0, { Strand.idleReset with st := .running })] }),
        (1, drainingCluster)] } }

/-- The issue of that word. -/
def drainbIssue : Issue := ⟨0, 0, drainbUnderP1⟩

theorem annulled_drainbIssue : annulled annulledBesideDrain drainbIssue 0x54 = true := by decide +kernel

/-- The annulled DRAINB has the DRAINB of cluster 1 injected. -/
theorem drainbIssue_injects :
    (((annulledBesideDrain.fab.issueOp drainbIssue 0x54 []).pump).txns.map Txn.origin) = [.op 1 4] := by decide +kernel

/-- Refutes O12 in its first clause: in `annulledBesideDrain` a DRAINB whose predicate is false leaves a transaction of another
cluster in flight, where the clause has nothing but the strand change. -/
theorem not_falsePredicateAnnulsAndReservedEncodingIsIllegal : ¬ Obligations.FalsePredicateAnnulsAndReservedEncodingIsIllegal := by
  unfold Obligations.FalsePredicateAnnulsAndReservedEncodingIsIllegal
  rintro ⟨annuls, -⟩
  obtain ⟨t, ht, only, -⟩ := annuls (.drainb, 0x54) (by simp [scribeRows]) annulledBesideDrain drainbIssue annulled_drainbIssue
  have ran : exec (.drainb drainbIssue) annulledBesideDrain = .next { annulledBesideDrain with
      fab := (annulledBesideDrain.fab.issueOp drainbIssue 0x54 []).pump } :=
    onFab_running (fun f => (f.issueOp drainbIssue 0x54 []).pump) rfl
  cases ran.symm.trans ht
  have none := congrArg (fun f : Fab => f.txns.map Txn.origin) only.fab
  exact absurd (drainbIssue_injects.symm.trans none) (by decide)

end Sys2Proof.Machine
end

section
/-! PROOFS. Precise exceptions that are fatal (R124 to R126, R136): the strand that raised one stays Faulted with it and its cluster
terminating, whatever the ports do afterwards. -/

namespace Sys2Proof

/-- An entry of a table whose values were all changed. -/
theorem Tbl.get_map {α : Type} (t : Tbl α) (d : α) (g : α → α) (hd : g d = d) (k : Nat) :
    Tbl.get (t.map (fun e => (e.1, g e.2))) d k = g (t.get d k) := by
  induction t with
  | nil => exact hd.symm
  | cons e t ih =>
    obtain ⟨j, v⟩ := e
    by_cases h : j = k
    · simp [Tbl.get, Tbl.find?, h]
    · simpa [Tbl.get, Tbl.find?, h] using ih

end Sys2Proof

namespace Sys2Proof.Machine

open Sys2Proof Sys2Proof.Safety

/-! ### A strand that has faulted -/

/-- What a strand records of an exception, and its state. -/
def Strand.crash (t : Strand) : StrandState × BitVec 8 × BitVec 16 × Word := (t.st, t.cause, t.epc, t.einfo)

/-- Strand k of cluster c is Faulted with an exception, and the cluster terminates (R126). -/
structure Fab.Fallen (f : Fab) (c k : Nat) (e : Exc) : Prop where
  crash : (f.strand c k).crash = (.faulted, BitVec.ofNat 8 e.cause.code, e.epc, e.einfo)
  phase : (f.cluster c).phase = .terminating

variable {f g : Fab} {c k : Nat} {e : Exc}

theorem Fab.fallen_fatal (f : Fab) (c k : Nat) (e : Exc) : (f.fatal c k e).Fallen c k e := by
  obtain ⟨strand, phase⟩ := Fab.fatal_strand f c k e
  exact ⟨by rw [strand]; rfl, phase⟩

/-- A fatal exception of a state is what the statements ask for. -/
theorem fatal_of_fallen {s t : State} (only : DeviceOnly s t) (h : t.fab.Fallen c k e) :
    Claims.Fatal s t c k e.cause.code e.epc e.einfo := by
  have crash := h.crash
  simp only [Strand.crash, Prod.mk.injEq] at crash
  obtain ⟨st, cause, epc, einfo⟩ := crash
  exact ⟨only, st, cause, epc, einfo, h.phase⟩

theorem Fab.Fallen.of_clusters (h : f.Fallen c k e) (hg : g.clusters = f.clusters) : g.Fallen c k e := by
  have same : g.cluster = f.cluster := funext (fun d => congrArg (fun l : Tbl Cluster => l.get .idleReset d) hg)
  exact ⟨by rw [Fab.strand, same]; exact h.crash, by rw [same]; exact h.phase⟩

/-- A change of a cluster that leaves what its strands have recorded, and its phase. -/
theorem Fab.Fallen.onCluster (h : f.Fallen c k e) (d : Nat) {u : Cluster → Cluster}
    (hs : d = c → ((u (f.cluster c)).strand k).crash = (f.strand c k).crash)
    (hp : d = c → (u (f.cluster c)).phase = (f.cluster c).phase) : (f.onCluster d u).Fallen c k e := by
  by_cases hd : c = d
  · subst hd
    exact ⟨by rw [Fab.strand, Fab.cluster_onCluster_same, hs rfl, h.crash], by rw [Fab.cluster_onCluster_same, hp rfl, h.phase]⟩
  · exact ⟨by rw [Fab.strand, Fab.cluster_onCluster, if_neg hd]; exact h.crash,
      by rw [Fab.cluster_onCluster, if_neg hd]; exact h.phase⟩

/-- A change of a strand that leaves what it has recorded. -/
theorem Fab.Fallen.onStrand (h : f.Fallen c k e) (d j : Nat) {u : Strand → Strand} (hu : ∀ t, (u t).crash = t.crash) :
    (f.onStrand d j u).Fallen c k e := by
  refine h.onCluster d (fun _ => ?_) (fun _ => rfl)
  rw [Cluster.strand_onStrand]
  split
  · next hk => subst hk; exact hu _
  · rfl

/-- A change of any other strand. -/
theorem Fab.Fallen.onOther (h : f.Fallen c k e) {d j : Nat} (other : d = c → j ≠ k) (u : Strand → Strand) :
    (f.onStrand d j u).Fallen c k e :=
  h.onCluster d (fun hd => by rw [Cluster.strand_onStrand, if_neg (other hd).symm]; rfl) (fun _ => rfl)

theorem Fab.Fallen.finish (h : f.Fallen c k e) (d id : Nat) : (f.finish d id).Fallen c k e := by
  by_cases hd : c = d
  · subst hd
    have quiet := Fab.finish_quiet f c id
    have strands : ((f.finish c id).cluster c).strands = (f.cluster c).strands := congrArg (·.strands) quiet
    have phase : ((f.finish c id).cluster c).phase = (f.cluster c).phase := congrArg (·.phase) quiet
    exact ⟨by rw [Fab.strand, Cluster.strand, strands]; exact h.crash, phase.trans h.phase⟩
  · have same := Fab.finish_cluster_ne f hd id
    exact ⟨by rw [Fab.strand, same]; exact h.crash, by rw [same]; exact h.phase⟩

/-- A Faulted strand is not aborted again. -/
theorem Strand.abort_of_faulted {t : Strand} (h : t.st = .faulted) (origin : Nat) : t.abort origin = t := by
  unfold Strand.abort
  rw [h]

/-- A fatal exception of another strand. -/
theorem Fab.Fallen.fatal (h : f.Fallen c k e) {d j : Nat} (other : d = c → j ≠ k) (y : Exc) : (f.fatal d j y).Fallen c k e := by
  obtain ⟨l, hl⟩ := Fab.cancelAll_cluster f d c
  have quelled : (f.quell d).cluster c = { f.cluster c with streams := l } := hl
  have fallen : (f.quell d).Fallen c k e := by
    exact ⟨by rw [Fab.strand, quelled]; exact h.crash, by rw [quelled]; exact h.phase⟩
  have st : ((f.quell d).strand c k).st = .faulted := congrArg Prod.fst fallen.crash
  refine fallen.onCluster d (fun hd => ?_) (fun _ => ?_)
  · have aborted : (((f.quell d).cluster c).terminate d (some (j, y))).strand k = (((f.quell d).cluster c).strand k).abort d := by
      unfold Cluster.terminate
      dsimp only
      rw [Cluster.strand_onStrand, if_neg (other hd).symm]
      exact Tbl.get_map _ _ (fun t : Strand => t.abort d) rfl k
    rw [aborted, show (((f.quell d).cluster c).strand k).abort d = (f.quell d).strand c k from Strand.abort_of_faulted st d]
  · exact fallen.phase.symm

theorem Fab.Fallen.take (h : f.Fallen c k e) {d j : Nat} (other : d = c → j ≠ k) (y : Exc) : (f.take d j y).Fallen c k e := by
  unfold Fab.take
  dsimp only
  split
  · exact h.onOther other _
  · exact h.fatal other y

/-- An asynchronous exception of any strand: a Faulted one takes none (R165). -/
theorem Fab.Fallen.raiseAsync (h : f.Fallen c k e) (d j : Nat) (y : Exc) : (f.raiseAsync d j y).Fallen c k e := by
  unfold Fab.raiseAsync
  split
  · exact h
  · exact h
  · next blocked =>
    have other : d = c → j ≠ k := by
      rintro rfl rfl
      cases blocked.symm.trans (show (f.strand d j).st = .faulted from congrArg Prod.fst h.crash)
    split
    · exact h.onOther other _
    · exact h.take other y
  · next notIdle notFaulted _ =>
    have other : d = c → j ≠ k := by
      rintro rfl rfl
      exact notFaulted (congrArg Prod.fst h.crash)
    split
    · exact h.onOther other _
    · exact h.take other y

/-! ### The ports beside it -/

theorem Fab.refusedEvent_clusters (f : Fab) (a : Answer) (t : Tag) : (f.refusedEvent a t).clusters = f.clusters := by
  unfold Fab.refusedEvent
  split
  · exact Fab.raise_clusters _ _ _ _ _ _
  · exact Fab.raise_clusters _ _ _ _ _ _
  · rfl

theorem Fab.tryInject_clusters {d a len : Nat} {far : Far} {write : Option (List Byte)} {origin : TxnFor}
    {more : List (Nat × Nat)} {r : Except (Fab × Tag) Fab} (h : f.tryInject d far a len write origin more = some r) :
    (injected r).clusters = f.clusters := by
  unfold Fab.tryInject at h
  extract_lets at h
  split at h
  · cases h
  · extract_lets at h
    split at h
    · cases h
      rw [injected, Fab.refusedEvent_clusters]
    · obtain ⟨-, h⟩ := Option.ite_none_left_eq_some.1 h
      cases h
      rfl

theorem Fab.Fallen.dropOp (h : f.Fallen c k e) (d : Nat) (o : Op) : (f.dropOp d o).Fallen c k e := by
  unfold Fab.dropOp
  refine Fab.Fallen.finish ?_ d o.id
  split
  · exact h.onStrand d o.strand (fun _ => rfl)
  · exact h

theorem Fab.Fallen.injectAccess (h : f.Fallen c k e) {x : Waiting} (hg : f.injectAccess x = some g) : g.Fallen c k e := by
  unfold Fab.injectAccess at hg
  dsimp only at hg
  split at hg
  · cases hg
  · next hr => cases hg; exact h.of_clusters (Fab.tryInject_clusters hr)
  · next refused t hr =>
    have rested : ({ refused with waiting := removeFirst (· == x) refused.waiting } : Fab).Fallen c k e :=
      h.of_clusters (Fab.tryInject_clusters hr)
    split at hg
    · next d o _ =>
      cases hg
      exact (rested.dropOp d o).raiseAsync d o.strand _
    · cases hg
      exact rested

theorem Fab.Fallen.injectDrain (h : f.Fallen c k e) {d : Nat} {o : Op} (hg : f.injectDrain d o = some g) : g.Fallen c k e :=
  h.of_clusters (congrArg Prod.fst (Fab.injectDrain_shore hg))

theorem Fab.Fallen.onUid (h : f.Fallen c k e) (d uid : Nat) (u : Stream → Stream) : (f.onUid d uid u).Fallen c k e :=
  h.onCluster d (fun _ => rfl) (fun _ => rfl)

theorem Fab.Fallen.injectStream (h : f.Fallen c k e) {d : Nat} {st : Stream} (hg : f.injectStream d st = some g) :
    g.Fallen c k e := by
  have sent : ∀ {far : Far} {a len : Nat} {more : List (Nat × Nat)} {write : Option (List Byte)} {origin : TxnFor}
      {note : Stream → Stream}, (match f.tryInject d far a len write origin more with
        | none => none
        | some (.ok g) => some (g.onUid d st.uid note)
        | some (.error (g, t)) => some ((g.onUid d st.uid note).raiseAsync d (st.strand % 8) (noRouteExc st.epc t))) = some g →
      g.Fallen c k e := by
    intro far a len more write origin note hg
    split at hg
    · cases hg
    · next hr => cases hg; exact (h.of_clusters (Fab.tryInject_clusters hr)).onUid _ _ _
    · next hr => cases hg; exact ((h.of_clusters (Fab.tryInject_clusters hr)).onUid _ _ _).raiseAsync _ _ _
  unfold Fab.injectStream at hg
  dsimp only at hg
  split at hg
  · split at hg
    · exact sent hg
    · cases hg
  · split at hg
    · exact sent hg
    · split at hg
      · split at hg
        · cases hg
        · split at hg
          · exact sent hg
          · exact sent hg
      · cases hg

theorem Fab.Fallen.injectNext (h : f.Fallen c k e) (hg : f.injectNext = some g) : g.Fallen c k e := by
  unfold Fab.injectNext at hg
  split at hg
  · next hw =>
    cases hg
    obtain ⟨x, -, hx⟩ := List.exists_of_findSome?_eq_some hw
    exact h.injectAccess hx
  · obtain ⟨cl, -, hcl⟩ := List.exists_of_findSome?_eq_some hg
    split at hcl
    · next hd =>
      cases hcl
      obtain ⟨o, -, ho⟩ := List.exists_of_findSome?_eq_some hd
      exact h.injectDrain ho
    · obtain ⟨st, -, hst⟩ := List.exists_of_findSome?_eq_some hcl
      exact h.injectStream hst

theorem Fab.Fallen.hops (h : f.Fallen c k e) : f.hops.Fallen c k e :=
  h.of_clusters (congrArg Prod.fst (Fab.hopsFuel_shore _ f))

theorem Fab.Fallen.pump (h : f.Fallen c k e) : f.pump.Fallen c k e := by
  have fuel : ∀ n (g : Fab), g.Fallen c k e → (Fab.pumpFuel n g).Fallen c k e := by
    intro n
    induction n with
    | zero => exact fun _ hg => hg
    | succ n ih =>
      intro g hg
      unfold Fab.pumpFuel
      split
      · next hn => exact ih _ (hg.injectNext hn).hops
      · exact hg
  exact fuel _ _ h.hops

end Sys2Proof.Machine
end

section
/-! PROOFS. Register fields past their file (O13): the word is a reserved encoding (R135), and every row raises ILLEGAL for it before
anything else of the instruction (R136). -/

namespace Sys2Proof.Machine

open Sys2Proof Sys2Proof.Safety

/-! ### Reserved encodings -/

/-- A field that lies in a wider one is no greater than it allows: where it is not 0, neither is the wider one. -/
theorem fld_ne_zero_of_within {w : Word} {hi lo a b : Nat} (hlo : lo ≤ b) (hhi : a ≤ hi) (hba : b ≤ a) (h : fld w a b ≠ 0) :
    fld w hi lo ≠ 0 := by
  intro zero
  apply h
  unfold fld bitsOf at zero ⊢
  have wide : 2 ^ (hi + 1 - lo) = 2 ^ (b - lo) * (2 ^ (a + 1 - b) * 2 ^ (hi - a)) := by
    rw [← Nat.pow_add, ← Nat.pow_add]
    congr 1
    omega
  have high : 2 ^ b = 2 ^ lo * 2 ^ (b - lo) := by
    rw [← Nat.pow_add]
    congr 1
    omega
  have div : 2 ^ (hi + 1 - lo) ∣ w.toNat / 2 ^ lo := Nat.dvd_of_mod_eq_zero zero
  rw [wide] at div
  have div' : 2 ^ (a + 1 - b) * 2 ^ (hi - a) ∣ w.toNat / 2 ^ b := by
    rw [high, ← Nat.div_div_eq_div_mul]
    exact Nat.dvd_div_of_mul_dvd div
  exact Nat.mod_eq_zero_of_dvd ((Nat.dvd_mul_right _ _).trans div')

theorem blt_eq_false_of_le {m n : Nat} (h : n ≤ m) : Nat.blt m n = false := by
  rw [Bool.eq_false_iff, Ne, Nat.blt_eq]
  exact Nat.not_lt.2 h

/-- A predicate field that PLOG's row allows no value of 8 or more: with an immediate ra and rb are 0 (R142). -/
theorem encOk_plog_of_wide {w : Word} (code : opcodeOf w = 0x07) (wide : 8 ≤ fRd w ∨ 8 ≤ fRa w ∨ 8 ≤ fRb w) : encOk w = false := by
  have ra : 8 ≤ fRa w → fld w 46 37 ≠ 0 := fun h =>
    fld_ne_zero_of_within (a := 46) (b := 42) (by omega) (by omega) (by omega) (Nat.ne_of_gt (Nat.lt_of_lt_of_le (by omega) h))
  have rb : 8 ≤ fRb w → fld w 46 37 ≠ 0 := fun h =>
    fld_ne_zero_of_within (a := 41) (b := 37) (by omega) (by omega) (by omega) (Nat.ne_of_gt (Nat.lt_of_lt_of_le (by omega) h))
  unfold encOk
  rw [code]
  dsimp only
  rcases wide with h | h | h
  · rw [blt_eq_false_of_le h]
    rfl
  · simp [blt_eq_false_of_le h, ra h]
  · simp [blt_eq_false_of_le h, rb h]

/-- A register field past its file makes the word a reserved encoding (R135). -/
theorem encOk_of_wide {w : Word} {k : Nat × Nat × Nat × Nat} (hk : k ∈ Claims.narrowFields) (code : opcodeOf w = k.1)
    (wide : k.2.2.2 ≤ fld w k.2.1 k.2.2.1) : encOk w = false := by
  fin_cases hk
  · exact encOk_plog_of_wide code (.inl wide)
  · exact encOk_plog_of_wide code (.inr (.inl wide))
  · exact encOk_plog_of_wide code (.inr (.inr wide))
  all_goals
    have past := blt_eq_false_of_le wide
    dsimp only at code past
    simp [encOk, code, fRd, fRa, fRb, past]

/-! ### ILLEGAL -/

/-- A command whose meaning is the issue of its row, with the device changed or memory too; the rows that start an operation move
stream units beside it. -/
inductive IssueForm (i : Issue → Instr) (op : Nat) : Prop
  | fab (body : Issue → Fab → Fab) (h : ∀ x s, exec (i x) s = onFab s (fun f => f.issue x op (body x)))
  | mem (body : Issue → W → W) (h : ∀ x s, exec (i x) s = onMem s (fun w => w.issue x op (body x)))
  | transfer (h : ∀ x s, exec (i x) s = onMem s (fun w => w.issueOp x op []))

/-- Every row of the Scribe but DRAINB, whose ports run besides. -/
theorem issueForm_of_scribeRow {row : (Issue → Instr) × Nat} (h : row ∈ scribeRows) (other : row.2 ≠ 0x54) :
    IssueForm row.1 row.2 := by
  fin_cases h
  iterate 42 exact .fab _ (fun _ _ => rfl)
  · exact absurd rfl other
  · exact .transfer (fun _ _ => rfl)
  · exact .fab _ (fun _ _ => rfl)
  · exact .mem _ (fun _ _ => rfl)
  iterate 2 exact .transfer (fun _ _ => rfl)
  · exact .fab _ (fun _ _ => rfl)
  iterate 5 exact .mem _ (fun _ _ => rfl)
  iterate 3 exact .fab _ (fun _ _ => rfl)

theorem W.issue_of_fault {w : W} {x : Issue} {op : Nat} {e : Exc} (body : W → W) (h : w.fab.goes x op = .fault e) :
    w.issue x op body = w.map (fun f => (f.issued x).take x.cluster x.strand e) := by
  rw [W.issue, h]

theorem Fab.issue_of_fault {f : Fab} {x : Issue} {op : Nat} {e : Exc} (body : Fab → Fab) (h : f.goes x op = .fault e) :
    f.issue x op body = (f.issued x).take x.cluster x.strand e := by
  rw [Fab.issue, h]

/-- An exception takes no operation number. -/
theorem Fab.nextOp_fatal (f : Fab) (c k : Nat) (e : Exc) : ((f.fatal c k e).cluster c).nextOp = (f.cluster c).nextOp := by
  obtain ⟨l, hl⟩ := Fab.cancelAll_cluster f c c
  rw [Fab.fatal, Fab.cluster_onCluster_same]
  change ((f.cancelAll c).cluster c).nextOp = _
  rw [hl]

/-- A row that raises a fatal exception leaves its strand Faulted and its cluster terminating (R125, R126). -/
theorem fatal_of_goes {s : State} {x : Issue} {row : (Issue → Instr) × Nat} {e : Exc} (form : IssueForm row.1 row.2)
    (running : s.fab.phase = .running) (goes : s.fab.goes x row.2 = .fault e) (fatal : e.cause.trappable = false) :
    ∃ t, exec (row.1 x) s = .next t ∧ Claims.Fatal s t x.cluster x.strand e.cause.code e.epc e.einfo := by
  have taken : (s.fab.issued x).take x.cluster x.strand e = (s.fab.issued x).fatal x.cluster x.strand e :=
    Fab.take_fatal _ _ _ _ (by rw [fatal]; rfl)
  refine ⟨{ s with fab := (s.fab.issued x).fatal x.cluster x.strand e }, ?_, fatal_of_fallen ⟨rfl, rfl, rfl⟩ (Fab.fallen_fatal _ _ _ _)⟩
  cases form with
  | fab body h => rw [h, onFab_running _ running, Fab.issue_of_fault _ goes, taken]
  | mem body h =>
    rw [h, onMem_map (g := fun f => (f.issued x).take x.cluster x.strand e) running (W.issue_of_fault (w := W.of s) _ goes), taken]
  | transfer h =>
    have still : (W.of s).issueOp x row.2 [] = (W.of s).map (fun f => (f.issued x).fatal x.cluster x.strand e) := by
      have issued : (W.of s).fab.issueOp x row.2 [] = (s.fab.issued x).fatal x.cluster x.strand e :=
        (Fab.issue_of_fault _ goes).trans taken
      unfold W.issueOp
      rw [issued]
      exact if_pos ((Fab.nextOp_fatal _ _ _ _).trans (Fab.nextOp_issued _ _ _))
    rw [h, onMem_map running still]

/-- Settles O13: the word is a reserved encoding (`encOk_of_wide`), so that its verdict is ILLEGAL, which is fatal. -/
theorem registerFieldsPastTheirFileAreIllegal : Obligations.RegisterFieldsPastTheirFileAreIllegal := by
  intro s x row hrow k hk op hp wide
  obtain ⟨running, -, -, code⟩ := presents_iff.1 hp
  have reserved : s.fab.illegal x.cluster x.strand x.word = true := by
    simp [Fab.illegal, encOk_of_wide hk (code.trans op.symm) wide]
  have other : row.2 ≠ 0x54 := by
    rw [← op]
    exact (by decide : ∀ k ∈ Claims.narrowFields, k.1 ≠ 0x54) k hk
  obtain ⟨t, ht, fatal⟩ := fatal_of_goes (issueForm_of_scribeRow hrow other) running (goes_of_illegal hp reserved) rfl
  exact ⟨t, ht, fatal.toDeviceOnly, fatal.st, fatal.cause, fatal.epc, fatal.einfo, fatal.phase⟩

end Sys2Proof.Machine
end

section
/-! PROOFS. The checks of array instructions (O16): each stops at the first that fails, and what it raises is fatal (R50, R124 to R126,
R148 to R153). -/

namespace Sys2Proof.Machine

open Sys2Proof Sys2Proof.Safety

/-! ### Checks in order -/

theorem check_false_bind {α : Type} {b : Bool} (e : Exc) (rest : Unit → Except Exc α) (h : b = false) :
    (check b e >>= rest) = .error e := by
  subst h; rfl

theorem check_true_bind {α : Type} {b : Bool} (e : Exc) (rest : Unit → Except Exc α) (h : b = true) :
    (check b e >>= rest) = rest () := by
  subst h; rfl

theorem needTile_some_bind {α : Type} {t : Strand} {r : Nat} {h : Tile} (rest : Tile → Except Exc α) (ht : tileOf (t.treg r) = some h) :
    (needTile t r >>= rest) = rest h := by
  rw [needTile, ht]; rfl

theorem needTile_none_bind {α : Type} {t : Strand} {r : Nat} (rest : Tile → Except Exc α) (ht : tileOf (t.treg r) = none) :
    (needTile t r >>= rest) = .error (badTile t.pc r) := by
  rw [needTile, ht]; rfl

/-- Columns outside 1 to the presented width (R50). -/
theorem columns_bad {n width : Nat} (h : n = 0 ∨ width < n) : (Nat.ble 1 n && Nat.ble n width) = false := by
  rw [Bool.eq_false_iff, Ne, Bool.and_eq_true, Nat.ble_eq, Nat.ble_eq]
  omega

theorem columns_good {n width : Nat} (h1 : 1 ≤ n) (h2 : n ≤ width) : (Nat.ble 1 n && Nat.ble n width) = true := by
  rw [Bool.and_eq_true, Nat.ble_eq, Nat.ble_eq]
  exact ⟨h1, h2⟩

/-- Accumulator rows outside the file (R50). -/
theorem accOk_eq_true {base m : Nat} : accOk base m = true ↔ 1 ≤ m ∧ m ≤ 256 ∧ base + m ≤ 256 := by
  simp [accOk, and_assoc]

/-- A one-bit field is its bit. -/
theorem fld_bit (w : Word) (i : Nat) : (decide (fld w i i = 1)) = w.getLsbD i := by
  rw [BitVec.getLsbD, Nat.testBit_eq_decide_div_mod_eq, fld, bitsOf, show i + 1 - i = 1 by omega]
  rfl

/-! ### Failing checks -/

variable {w : Word} {cl : Cluster} {t : Strand}

theorem wloadKind_badTile (h : tileOf (t.treg (mTh w)) = none) : wloadKind w cl t = .error (badTile t.pc (mTh w)) :=
  needTile_none_bind _ h

theorem wloadKind_tileWidth {h : Tile} (ht : tileOf (t.treg (mTh w)) = some h) (hw : mW w = 0 ∨ cl.pwidth < mW w) :
    wloadKind w cl t = .error (tileWidth t.pc (mW w)) := by
  unfold wloadKind
  rw [needTile_some_bind _ ht, check_false_bind _ _ (columns_bad hw)]

theorem aclrKind_accRange (h : mM w = 0 ∨ 256 < mM w ∨ 256 < mBase w + mM w) :
    aclrKind w t = .error (accRange t.pc (mBase w) (mM w)) := by
  refine check_false_bind _ _ ?_
  rw [Bool.eq_false_iff, Ne, accOk_eq_true]
  omega

theorem tmulKind_illegal (h : mScale w t < -14 ∨ 7 < mScale w t) : tmulKind w cl t = .error (illegalExc t.pc w) := by
  refine check_false_bind _ _ ?_
  rw [Bool.eq_false_iff, Ne, Bool.and_eq_true, decide_eq_true_eq, decide_eq_true_eq]
  omega

theorem drainKind_illegal (h : mScale w t = -128) : drainKind w cl t = .error (illegalExc t.pc w) :=
  check_false_bind _ _ (by simp [h])

theorem drainbKind_illegal (h : 2 ^ 32 ≤ (mSx w t).toNat) : drainbKind w cl t = .error (illegalExc t.pc w) := by
  refine check_false_bind _ _ ?_
  have bound := (mSx w t).isLt
  rw [beq_eq_false_iff_ne, bitsOf]
  omega

/-- A pair that the array does not multiply, after every check before it (R41, R149). -/
theorem tmulKind_formatPair {h : Tile} {g : Fmt} (low : -14 ≤ mScale w t) (high : mScale w t ≤ 7)
    (ht : tileOf (t.treg (mTh w)) = some h) (rows : mM w ≤ h.rows) (well : h.base + (mM w - 1) * h.pitch + 64 ≤ 2 ^ 20)
    (m1 : 1 ≤ mM w) (m2 : mM w ≤ 256) (acc : mBase w + mM w ≤ 256) (w1 : 1 ≤ mW w) (w2 : mW w ≤ cl.pwidth)
    (weights : cl.weightFmt (w.getLsbD 9) = some g) (pair : dotLength h.fmt g = none) :
    tmulKind w cl t = .error ⟨.formatPair, t.pc, BitVec.ofNat 64 (fmtCode h.fmt * 256 + fmtCode g)⟩ := by
  have tile : (Nat.ble (mM w) h.rows && Nat.ble (h.base + (mM w - 1) * h.pitch + 64) wellSize) = true := by
    rw [Bool.and_eq_true, Nat.ble_eq, Nat.ble_eq]
    exact ⟨rows, well⟩
  unfold tmulKind
  rw [check_true_bind _ _ (by simp [low, high]), needTile_some_bind _ ht]
  dsimp only
  rw [check_true_bind _ _ tile, check_true_bind _ _ (accOk_eq_true.2 ⟨m1, m2, acc⟩), check_true_bind _ _ (columns_good w1 w2), fld_bit,
    weights]
  dsimp only
  rw [pair]
  rfl

/-! ### What they raise -/

variable {s : State} {x : Issue} {op : Nat} {e : Exc}

/-- The precise exception of an array instruction is that of its operation. -/
theorem precise_of_kind (code : opcodeOf x.word = op) (array : op ∈ [0x50, 0x51, 0x52, 0x53, 0x54])
    (h : s.fab.kindAt x.cluster x.strand x.word = some (.error e)) : s.fab.precise x.cluster x.strand x.word = some e := by
  have other : s.fab.precise x.cluster x.strand x.word = match s.fab.kindAt x.cluster x.strand x.word with
      | some (.error e) => some e
      | _ => none := by
    unfold Fab.precise
    dsimp only
    rw [code]
    fin_cases array <;> rfl
  rw [other, h]

theorem attempts_spec (h : attempts s x op = true) : s.fab.phase = .running ∧ opcodeOf x.word = op := by
  simp only [attempts, Bool.and_eq_true] at h
  obtain ⟨running, -, -, code⟩ := presents_iff.1 h.1.1
  exact ⟨running, code⟩

/-- An array instruction whose check fails is fatal to its launch (R125, R126). -/
theorem fatal_of_check {i : Issue → Instr} (hx : attempts s x op = true) (row : (i, op) ∈ scribeRows)
    (array : op ∈ [0x50, 0x51, 0x52, 0x53]) (h : s.fab.kindAt x.cluster x.strand x.word = some (.error e))
    (fatal : e.cause.trappable = false) :
    ∃ t, exec (i x) s = .next t ∧ Claims.Fatal s t x.cluster x.strand e.cause.code e.epc e.einfo := by
  obtain ⟨running, code⟩ := attempts_spec hx
  have other : op ≠ 0x54 := by
    rintro rfl
    simp at array
  exact fatal_of_goes (row := (i, op)) (issueForm_of_scribeRow row other) running
    (goes_of_raises hx (precise_of_kind code (List.mem_append_left [0x54] array) h)) fatal

/-- DRAINB, after whose exception the ports run. -/
theorem drainb_fatal_of_check (hx : attempts s x 0x54 = true) (h : s.fab.kindAt x.cluster x.strand x.word = some (.error e))
    (fatal : e.cause.trappable = false) :
    ∃ t, exec (.drainb x) s = .next t ∧ Claims.Fatal s t x.cluster x.strand e.cause.code e.epc e.einfo := by
  obtain ⟨running, code⟩ := attempts_spec hx
  have issued : s.fab.issueOp x 0x54 [] = (s.fab.issued x).fatal x.cluster x.strand e :=
    (Fab.issue_of_fault _ (goes_of_raises hx (precise_of_kind code (by simp) h))).trans (Fab.take_fatal _ _ _ _ (by rw [fatal]; rfl))
  refine ⟨{ s with fab := ((s.fab.issued x).fatal x.cluster x.strand e).pump }, ?_,
    fatal_of_fallen ⟨rfl, rfl, rfl⟩ (Fab.fallen_fatal _ _ _ _).pump⟩
  rw [← issued]
  exact onFab_running (fun f => (f.issueOp x 0x54 []).pump) running

/-- The operation of an array instruction, by its row. -/
theorem Fab.kindAt_array (f : Fab) (c k : Nat) (w : Word) :
    (opcodeOf w = 0x50 → f.kindAt c k w = some (wloadKind w (f.cluster c) (f.strand c k))) ∧
    (opcodeOf w = 0x51 → f.kindAt c k w = some (tmulKind w (f.cluster c) (f.strand c k))) ∧
    (opcodeOf w = 0x52 → f.kindAt c k w = some (drainKind w (f.cluster c) (f.strand c k))) ∧
    (opcodeOf w = 0x53 → f.kindAt c k w = some (aclrKind w (f.strand c k))) ∧
    (opcodeOf w = 0x54 → f.kindAt c k w = some (drainbKind w (f.cluster c) (f.strand c k))) := by
  unfold Fab.kindAt
  refine ⟨?_, ?_, ?_, ?_, ?_⟩ <;> intro code <;> rw [code] <;> rfl

/-- Settles O16: the first check that fails is the operation's error, and that is fatal (`fatal_of_check`). -/
theorem arrayChecksRaiseTheirExceptions : Obligations.ArrayChecksRaiseTheirExceptions := by
  intro s x t0 cl w fails
  obtain ⟨wload, tmul, drain, aclr, drainb⟩ := s.fab.kindAt_array x.cluster x.strand w
  have illegal : ∀ i, (∃ t, exec i s = .next t ∧ Claims.Fatal s t x.cluster x.strand 0x01 t0.pc w) → fails i 0x01 w.toNat := by
    intro i h
    rwa [show w = BitVec.ofNat 64 w.toNat by simp] at h
  refine ⟨fun hx h => ?_, fun hx h => ?_, fun hx h => ?_, fun hx h => ?_, fun _ hx ht h => ?_, fun hx h => ?_, ?_⟩
  · have kind := (tmul (attempts_spec hx).2).trans (congrArg some (tmulKind_illegal h))
    exact illegal _ (fatal_of_check hx (by simp [scribeRows]) (by simp) kind rfl)
  · have kind := (drain (attempts_spec hx).2).trans (congrArg some (drainKind_illegal h))
    exact illegal _ (fatal_of_check hx (by simp [scribeRows]) (by simp) kind rfl)
  · have kind := (drainb (attempts_spec hx).2).trans (congrArg some (drainbKind_illegal h))
    exact illegal _ (drainb_fatal_of_check hx kind rfl)
  · have kind := (wload (attempts_spec hx).2).trans (congrArg some (wloadKind_badTile h))
    exact fatal_of_check hx (by simp [scribeRows]) (by simp) kind rfl
  · have kind := (wload (attempts_spec hx).2).trans (congrArg some (wloadKind_tileWidth ht h))
    exact fatal_of_check hx (by simp [scribeRows]) (by simp) kind rfl
  · have kind := (aclr (attempts_spec hx).2).trans (congrArg some (aclrKind_accRange h))
    exact fatal_of_check hx (by simp [scribeRows]) (by simp) kind rfl
  · intro _ _ hx low high ht rows well m1 m2 acc w1 w2 weights pair
    have kind := (tmul (attempts_spec hx).2).trans
      (congrArg some (tmulKind_formatPair low high ht rows well m1 m2 acc w1 w2 weights pair))
    exact fatal_of_check hx (by simp [scribeRows]) (by simp) kind rfl

end Sys2Proof.Machine
end

section
/-! PROOFS. An operation issued (R111, R113, R137): what an instruction that starts one leaves of its cluster, whatever the operation. -/

namespace Sys2Proof.Machine

open Sys2Proof Sys2Proof.Safety

/-- A cluster as the note of an issue leaves it (R111). -/
def Fab.noted (f : Fab) (x : Issue) : Cluster :=
  { f.cluster x.cluster with lastIssued := x.strand, issueFrom := (f.issued x).cycle + 1 }

/-- A device after an instruction that started an operation. -/
def Fab.entered (f : Fab) (x : Issue) (kind : OpKind) (regs : List Dest) : Fab :=
  (f.issued x).onCluster x.cluster (fun cl => cl.given (f.issued x) x kind regs)

variable {s t : State} {x : Issue} {op : Nat} {kind : OpKind} {regs : List Dest}

/-- The operation of an instruction does not depend on the note of its issue. -/
theorem Fab.kindAt_issued (f : Fab) (x : Issue) (c k : Nat) (w : Word) : (f.issued x).kindAt c k w = f.kindAt c k w := by
  by_cases hc : c = x.cluster
  · subst hc
    have noted : (f.issued x).cluster x.cluster = f.noted x := by rw [Fab.cluster_issued, if_pos rfl, Fab.noted]
    unfold Fab.kindAt
    dsimp only
    rw [noted]
    rfl
  · have same : (f.issued x).cluster c = f.cluster c := by rw [Fab.cluster_issued, if_neg hc]
    unfold Fab.kindAt
    dsimp only
    rw [same]
    rfl

theorem issueOp_of_executes (hx : executes s x op = true) (hk : s.fab.kindAt x.cluster x.strand x.word = some (.ok kind)) :
    s.fab.issueOp x op regs = s.fab.entered x kind regs := by
  rw [Fab.issueOp, issue_of_executes _ hx]
  dsimp only
  rw [Fab.kindAt_issued, hk]
  rfl

/-- Whether an operation is held does not depend on the note of its issue. -/
theorem Fab.held_noted (f : Fab) (x : Issue) (kind : OpKind) :
    ((f.noted x).mustHold (f.issued x).cycle (f.noted x).nextOp kind || (f.issued x).throttled (f.noted x) kind) =
      ((f.cluster x.cluster).mustHold (f.issued x).cycle (f.cluster x.cluster).nextOp kind ||
        ({ f with cycle := (f.issued x).cycle } : Fab).throttled (f.cluster x.cluster) kind) := rfl

theorem Claims.begun_noted (f : Fab) (x : Issue) (kind : OpKind) : Claims.begun (f.noted x) kind = Claims.begun (f.cluster x.cluster) kind := by
  cases kind <;> rfl

theorem Claims.passed_noted (f : Fab) (x : Issue) (kind : OpKind) :
    Claims.passed (f.noted x) kind = Claims.passed (f.cluster x.cluster) kind := by
  cases kind <;> rfl

theorem Claims.clears_noted (f : Fab) (x : Issue) (kind : OpKind) (r : Nat) :
    Claims.clears (f.noted x) kind r ↔ Claims.clears (f.cluster x.cluster) kind r := by
  cases kind <;> rfl

/-- What the start of an operation leaves of its cluster besides buffers, accumulator rows, and the operations a swap passes. -/
theorem Cluster.begin_rest (cl : Cluster) (f : Fab) (k : OpKind) :
    (cl.begin f k).1.counters = cl.counters ∧ (cl.begin f k).1.imem = cl.imem := by
  unfold Cluster.begin
  cases k with
  | tmul o => dsimp only; split <;> exact ⟨rfl, rfl⟩
  | drain o => dsimp only; split <;> exact ⟨rfl, rfl⟩
  | _ => exact ⟨rfl, rfl⟩

/-- The cluster and operation as an instruction has given them: held, or started. -/
def Cluster.taken (cl : Cluster) (f : Fab) (kind : OpKind) : Cluster × OpKind :=
  if cl.mustHold f.cycle cl.nextOp kind || f.throttled cl kind then (cl, kind) else cl.begin f kind

/-- The cluster after the instruction: one more operation, and its strand moved on. -/
theorem Fab.cluster_entered (f : Fab) (x : Issue) (kind : OpKind) (regs : List Dest) :
    (f.entered x kind regs).cluster x.cluster =
      ({ ((f.noted x).taken (f.issued x) kind).1 with
          ops := ((f.noted x).taken (f.issued x) kind).1.ops ++
            [⟨(f.cluster x.cluster).nextOp, x.strand, (f.strand x.cluster x.strand).pc, ((f.noted x).taken (f.issued x) kind).2,
              (f.noted x).mustHold (f.issued x).cycle (f.noted x).nextOp kind || (f.issued x).throttled (f.noted x) kind,
              (f.issued x).cycle, (f.issued x).cycle + kind.latency (isBroad x.cluster), false⟩]
          nextOp := (f.cluster x.cluster).nextOp + 1 } : Cluster).onStrand x.strand
        (fun t => { t.advance with busy := t.busy ++ regs }) := by
  rw [Fab.entered, Fab.cluster_onCluster_same, Fab.cluster_issued, if_pos rfl]
  rfl

theorem Fab.cluster_entered_ne (f : Fab) (x : Issue) (kind : OpKind) (regs : List Dest) {d : Nat} (hd : d ≠ x.cluster) :
    (f.entered x kind regs).cluster d = f.cluster d := by
  rw [Fab.entered, Fab.cluster_onCluster, if_neg hd, Fab.cluster_issued, if_neg hd]

/-- The cluster a held operation enters is as it was; one that starts is as its start makes it. -/
theorem Fab.taken_noted (s : State) (x : Issue) (kind : OpKind) :
    (s.fab.noted x).taken (s.fab.issued x) kind = if Claims.isHeld s x.cluster (s.fab.issued x).cycle kind then (s.fab.noted x, kind)
      else (s.fab.noted x).begin (s.fab.issued x) kind := by
  rw [Cluster.taken, Fab.held_noted]
  rfl

/-- A state whose clusters are those after the instruction is as the statements ask of an operation issued. -/
theorem issued_of_clusters (only : DeviceOnly s t) (clusters : t.fab.clusters = (s.fab.entered x kind regs).clusters)
    (cycle : t.fab.cycle = (s.fab.issued x).cycle) : Claims.Issued s t x kind regs := by
  have same : t.fab.cluster = (s.fab.entered x kind regs).cluster := funext (fun d => congrArg (fun l : Tbl Cluster => l.get .idleReset d) clusters)
  have own : t.fab.cluster x.cluster = _ := (congrFun same x.cluster).trans (s.fab.cluster_entered x kind regs)
  have held : ((s.fab.noted x).mustHold (s.fab.issued x).cycle (s.fab.noted x).nextOp kind ||
      (s.fab.issued x).throttled (s.fab.noted x) kind) = Claims.isHeld s x.cluster (s.fab.issued x).cycle kind := Fab.held_noted _ _ _
  rw [Fab.taken_noted, held] at own
  rw [← cycle] at own
  have strand : ∀ j, t.fab.strand x.cluster j = if j = x.strand then
      { (strandOf s x).advance with busy := (strandOf s x).busy ++ regs } else s.fab.strand x.cluster j := by
    intro j
    rw [Fab.strand, own, Cluster.strand_onStrand]
    cases Claims.isHeld s x.cluster t.fab.cycle kind with
    | false =>
      have strands := (Cluster.begin_keeps (s.fab.noted x) (s.fab.issued x) kind).1
      simp only [Bool.false_eq_true, if_false, Cluster.strand]
      rw [strands]
      rfl
    | true => rfl
  refine ⟨only, fun d hd => ?_, ?_, ?_, ?_, fun j hj => ?_, fun free r n hn clears => ?_, fun r n hn kept => ?_, ?_, ?_, ?_⟩
  · rw [same, Fab.cluster_entered_ne _ _ _ _ hd]
  · rw [own]
    cases Claims.isHeld s x.cluster t.fab.cycle kind with
    | false =>
      simp only [Bool.false_eq_true, if_false, Cluster.onStrand]
      rw [Cluster.begin_ops, Cluster.begin_kind, Claims.begun_noted, Claims.passed_noted]
    | true => rfl
  · rw [own]; rfl
  · exact (strand x.strand).trans (if_pos rfl)
  · exact (strand j).trans (if_neg hj)
  · rw [own, free]
    exact (Cluster.begin_acc_get _ _ kind r n hn).1 ((Claims.clears_noted _ _ _ _).2 clears)
  · rw [own]
    cases held : Claims.isHeld s x.cluster t.fab.cycle kind with
    | false =>
      rw [held] at kept
      exact (Cluster.begin_acc_get _ _ kind r n hn).2
        (fun h => kept.elim Bool.false_ne_true (fun not => not ((Claims.clears_noted _ _ _ _).1 h)))
    | true => rfl
  · rw [own]
    cases Claims.isHeld s x.cluster t.fab.cycle kind with
    | false => exact (Cluster.begin_rest _ _ kind).1
    | true => rfl
  · rw [own]
    cases Claims.isHeld s x.cluster t.fab.cycle kind with
    | false => exact (Cluster.begin_keeps _ _ kind).2
    | true => rfl
  · rw [own]
    cases Claims.isHeld s x.cluster t.fab.cycle kind with
    | false => exact (Cluster.begin_rest _ _ kind).2
    | true => rfl

theorem clusterOnly_entered (s : State) (x : Issue) (kind : OpKind) (regs : List Dest) :
    ClusterOnly s { s with fab := s.fab.entered x kind regs } x.cluster :=
  ⟨⟨rfl, rfl, rfl⟩, fun _ hd => Fab.cluster_entered_ne _ _ _ _ hd, rfl, Fab.cycle_issued _ _⟩

theorem issued_entered (s : State) (x : Issue) (kind : OpKind) (regs : List Dest) :
    Claims.Issued s { s with fab := s.fab.entered x kind regs } x kind regs :=
  issued_of_clusters ⟨rfl, rfl, rfl⟩ rfl rfl

end Sys2Proof.Machine
end

section
/-! PROOFS. The transaction of a DRAINB (R19, R22, R35, R153): what the ports change of a package in which nothing else asks for them,
and the one transaction in flight where nothing was. -/

namespace Sys2Proof.Machine

open Sys2Proof Sys2Proof.Safety

/-! ### What the crossings change -/

/-- The device but for its transactions, and the requests of queue pairs that leave the package with them. -/
def Fab.inland (f : Fab) : Fab := { f with txns := [], nextTxn := 0, qps := [], netOut := [] }

theorem Fab.qpPump_inland (p i n : Nat) (f : Fab) : (Fab.qpPump p i n f).inland = f.inland := by
  induction n generalizing f with
  | zero => rfl
  | succ n ih =>
    unfold Fab.qpPump
    dsimp only
    split
    · split
      · rfl
      · exact ih _
    · rfl

theorem Fab.rdmaSend_inland (f : Fab) (p i : Nat) (r : RdmaOut) : (f.rdmaSend p i r).inland = f.inland := Fab.qpPump_inland _ _ _ _

theorem Fab.sendFar_inland (f : Fab) (t : Txn) : (f.sendFar t).inland = f.inland := by
  unfold Fab.sendFar
  split
  · rfl
  · rfl
  · rfl
  · rfl
  · exact foldl_keeps Fab.inland (fun _ _ => Fab.rdmaSend_inland _ _ _ _) _ _
  · exact Fab.rdmaSend_inland _ _ _ _

theorem Fab.hopsFuel_inland (n : Nat) (f : Fab) : (Fab.hopsFuel n f).inland = f.inland := by
  induction n generalizing f with
  | zero => rfl
  | succ n ih =>
    unfold Fab.hopsFuel
    dsimp only
    split
    · rw [ih]
      split
      · exact Fab.sendFar_inland _ _
      · rfl
    · rfl

theorem Fab.injectDrain_inland {f g : Fab} {c : Nat} {o : Op} (h : f.injectDrain c o = some g) : g.inland = f.inland := by
  unfold Fab.injectDrain at h
  split at h
  · split at h
    · cases h
    · split at h
      · next hr =>
        cases h
        obtain ⟨x, rfl⟩ := Fab.tryInject_ok hr
        rfl
      · cases h
  · cases h

/-- Where no access waits and no stream is bound, the ports inject DRAINBs alone (R153). -/
theorem Fab.injectNext_inland {f g : Fab} (hw : f.waiting = []) (hs : ∀ e ∈ f.clusters, e.2.streams = [])
    (hg : f.injectNext = some g) : g.inland = f.inland := by
  rw [Fab.injectNext, hw] at hg
  obtain ⟨e, he, hg⟩ := List.exists_of_findSome?_eq_some hg
  rw [hs e he] at hg
  split at hg
  · next hd =>
    cases hg
    obtain ⟨o, -, ho⟩ := List.exists_of_findSome?_eq_some hd
    exact Fab.injectDrain_inland ho
  · cases hg

theorem Fab.pumpFuel_inland {f : Fab} (n : Nat) (hw : f.waiting = []) (hs : ∀ e ∈ f.clusters, e.2.streams = []) :
    (Fab.pumpFuel n f).inland = f.inland := by
  induction n generalizing f with
  | zero => rfl
  | succ n ih =>
    cases hg : f.injectNext with
    | none => rw [Fab.pumpFuel_of_none _ hg]
    | some g =>
      have moved : g.hops.inland = f.inland := (Fab.hopsFuel_inland _ g).trans (Fab.injectNext_inland hw hs hg)
      have waiting : g.hops.waiting = f.waiting := congrArg (·.waiting) moved
      have clusters : g.hops.clusters = f.clusters := congrArg (·.clusters) moved
      rw [Fab.pumpFuel_of_some n hg, ih (waiting.trans hw) (by rw [clusters]; exact hs), moved]

theorem Fab.pump_inland {f : Fab} (hw : f.waiting = []) (hs : ∀ e ∈ f.clusters, e.2.streams = []) : f.pump.inland = f.inland := by
  have moved : f.hops.inland = f.inland := Fab.hopsFuel_inland _ f
  have waiting : f.hops.waiting = f.waiting := congrArg (·.waiting) moved
  have clusters : f.hops.clusters = f.clusters := congrArg (·.clusters) moved
  rw [Fab.pump, Fab.pumpFuel_inland 4096 (waiting.trans hw) (by rw [clusters]; exact hs), moved]

/-! ### One transaction alone -/

/-- What a transaction keeps on its way: whom it serves, and its tag (R33). -/
def Txn.badge (t : Txn) : TxnFor × Tag := (t.origin, t.tag)

/-- The transaction that moves on is in flight. -/
theorem Fab.mem_of_mover {f : Fab} {l : List Txn} {seen : List (Nat × Nat)} {t : Txn} (h : f.mover l seen = some t) : t ∈ l := by
  induction l generalizing seen with
  | nil => cases h
  | cons u l ih =>
    unfold Fab.mover at h
    cases ahead : u.ahead with
    | nil =>
      rw [ahead] at h
      exact List.mem_cons_of_mem _ (ih h)
    | cons i r =>
      rw [ahead] at h
      rcases ite_eq_iff.1 h with ⟨-, later⟩ | ⟨-, found⟩
      · exact List.mem_cons_of_mem _ (ih later)
      · cases found
        exact List.mem_cons_self

/-- The transaction to a slot that is alone in the package stays so as it goes on. -/
theorem Fab.hopsFuel_slot (n : Nat) {f : Fab} {t : Txn} {slot : Nat} (ht : f.txns = [t]) (hf : t.far = .slot slot) :
    ∃ u, (Fab.hopsFuel n f).txns = [u] ∧ u.badge = t.badge := by
  induction n generalizing f t with
  | zero => exact ⟨t, ht, rfl⟩
  | succ n ih =>
    unfold Fab.hopsFuel
    dsimp only
    split
    · next v hv =>
      have same : v = t := List.mem_singleton.1 (ht ▸ Fab.mem_of_mover hv)
      subst same
      have far : ∀ g : Fab, g.sendFar v = g := fun g => by rw [Fab.sendFar, hf]
      rw [far, ite_self]
      refine ih (t := { v with behind := v.ahead.headD 0, ahead := v.ahead.tail }) ?_ hf
      simp [ht]
    · exact ⟨t, ht, rfl⟩

/-- In a calm package no island is in its safe state or without power (R456, R459). -/
theorem Fab.halts_of_calm {f : Fab} (calm : f.calm = true) (i : Nat) : f.halts i = false := by
  simp only [Fab.calm, Bool.and_eq_true, List.isEmpty_iff, bne_iff_ne] at calm
  obtain ⟨⟨islands, -⟩, powered⟩ := calm
  rw [Fab.halts, Fab.island, islands, Fab.unpowered, beq_false_of_ne powered]
  rfl

/-- In a calm package a request for a slot of the Blotter is injected at once, as a Blotter accumulate of its cluster's owner (R35). -/
theorem Fab.tryInject_slot {f : Fab} (calm : f.calm = true) (c slot a len : Nat) (write : Option (List Byte)) (origin : TxnFor) :
    ∃ x, f.tryInject c (.slot slot) a len write origin = some (.ok { f with txns := [x], nextTxn := f.nextTxn + 1 }) ∧
      x.origin = origin ∧ x.far = .slot slot ∧ x.tag.cls = 4 ∧ x.tag.partition = f.clusterOwner c := by
  have open_ := Fab.halts_of_calm calm c
  simp only [Fab.calm, Bool.and_eq_true, List.isEmpty_iff] at calm
  have txns := calm.1.2
  have seq : f.freeSeq (sourceOf c).1 (sourceOf c).2 = some 0 := by
    rw [Fab.freeSeq, txns]
    rfl
  have room := fun d => f.crossingFull_of_few (txns ▸ Nat.zero_le 1) c d
  have way : f.routeOf c (.slot slot) a = some ((if isBroad c then [800 + c / 8] else []) ++ [896 + baseDieOf c]) := rfl
  unfold Fab.tryInject
  dsimp only
  rw [seq]
  dsimp only
  rw [way]
  dsimp only
  rw [open_, room, txns]
  exact ⟨_, rfl, rfl, rfl, rfl, rfl⟩

/-- A search finds what every entry that finds anything finds. -/
theorem findSome?_of_only {α β : Type} {p : α → Option β} {l : List α} {v : β} {a : α} (ha : a ∈ l) (hv : p a = some v)
    (only : ∀ b ∈ l, b = a ∨ p b = none) : l.findSome? p = some v := by
  cases found : l.findSome? p with
  | none => exact absurd (List.findSome?_eq_none_iff.1 found a ha) (by rw [hv]; exact nofun)
  | some u =>
    obtain ⟨b, hb, hu⟩ := List.exists_of_findSome?_eq_some found
    rcases only b hb with rfl | none
    · exact hu.symm.trans hv
    · rw [none] at hu; cases hu

/-- In a calm package where one operation of one cluster is in flight, a DRAINB that has started, the ports send its transaction and no
other (R19, R35, R153). -/
theorem Fab.pump_drainb {f : Fab} (calm : f.calm = true) (hw : f.waiting = []) {c : Nat} {cl : Cluster} {o : Op}
    (mem : (c, cl) ∈ f.clusters) (ops : cl.ops = [o]) (hs : ∀ e ∈ f.clusters, e.2.streams = [])
    (only : ∀ e ∈ f.clusters, e = (c, cl) ∨ e.2.ops = []) (held : o.held = false) {slot off b m w : Nat} {rows : Tbl W32}
    (kind : o.kind = .drainb slot off b m w (some rows)) :
    f.pump.txns.map (fun y => (y.origin, y.tag.cls, y.tag.partition)) = [(.op c o.id, 4, f.clusterOwner c)] := by
  have txns : f.txns = [] := by
    simp only [Fab.calm, Bool.and_eq_true, List.isEmpty_iff] at calm
    exact calm.1.2
  obtain ⟨x, sent, origin, far, cls, owner⟩ := Fab.tryInject_slot calm c slot slot (256 * m) (some []) (.op c o.id)
  let g : Fab := { f with txns := [x], nextTxn := f.nextTxn + 1 }
  have drained : f.injectDrain c o = some g := by
    rw [Fab.injectDrain, held, kind]
    dsimp only
    rw [txns, sent]
    rfl
  have first : f.injectNext = some g := by
    rw [Fab.injectNext, hw]
    refine findSome?_of_only mem ?_ (fun e he => (only e he).imp_right (fun none => ?_))
    · rw [ops, List.findSome?_cons, drained]
    · rw [none, hs e he]
      rfl
  obtain ⟨u, alone, badge⟩ := Fab.hopsFuel_slot ((g.txns.map (fun t => t.ahead.length)).sum) (f := g) rfl far
  simp only [Txn.badge, Prod.mk.injEq] at badge
  obtain ⟨uorigin, utag⟩ := badge
  have inland : g.hops.inland = f.inland := Fab.hopsFuel_inland _ g
  have clusters : g.hops.clusters = f.clusters := congrArg (·.clusters) inland
  have done : g.hops.injectNext = none := by
    refine Fab.injectNext_eq_none ((congrArg (·.waiting) inland).trans hw) ?_ ?_
    · intro e he p hp
      rw [clusters] at he
      rcases only e he with rfl | none
      · rw [ops] at hp
        obtain rfl := List.mem_singleton.1 hp
        rw [Fab.injectDrain, held, kind]
        dsimp only
        rw [show g.hops.txns = [u] from alone, if_pos]
        simp [uorigin, origin]
      · rw [none] at hp
        exact absurd hp List.not_mem_nil
    · intro e he st hst
      rw [clusters] at he
      rw [hs e he] at hst
      exact absurd hst List.not_mem_nil
  rw [Fab.pump, Fab.hops_of_arrived (by rw [txns]; exact fun t h => absurd h List.not_mem_nil), Fab.pumpFuel_of_some 4095 first,
    Fab.pumpFuel_of_none _ done, show g.hops.txns = [u] from alone, List.map_singleton, uorigin, utag, origin, cls, owner]

end Sys2Proof.Machine
end

section
/-! PROOFS. Array and vector instructions start (O19): the operation that each one's checks let through, and the buffers as it starts
(R51, R57, R112, R148 to R155). -/

namespace Sys2Proof.Machine

open Sys2Proof Sys2Proof.Safety

/-! ### The operations that pass the checks -/

/-- A check that lets an operation through has passed. -/
theorem of_check_bind {α : Type} {b : Bool} {e : Exc} {rest : Unit → Except Exc α} {a : α} (h : (check b e >>= rest) = .ok a) :
    rest () = .ok a := by
  cases b
  · cases h
  · exact h

variable {w : Word} {cl : Cluster} {t : Strand} {kind : OpKind}

theorem wloadKind_ok {h : Tile} (ok : wloadKind w cl t = .ok kind) (ht : tileOf (t.treg (mTh w)) = some h) :
    kind = .wload h.base h.pitch h.fmt (mW w) := by
  unfold wloadKind at ok
  rw [needTile_some_bind _ ht] at ok
  cases of_check_bind (of_check_bind ok)
  rfl

theorem aclrKind_ok (ok : aclrKind w t = .ok kind) : kind = .aclr (mBase w) (mM w) := by
  cases of_check_bind ok
  rfl

theorem drainKind_ok {h : Tile} (ok : drainKind w cl t = .ok kind) (ht : tileOf (t.treg (mTh w)) = some h) :
    kind = .drain { addr := h.base, stride := h.pitch, fmt := h.fmt, base := mBase w, m := mM w, w := mW w, e := mScale w t,
                    rp := w.getLsbD 8, z := w.getLsbD 7, got := none } := by
  have ok := of_check_bind ok
  rw [needTile_some_bind _ ht] at ok
  cases of_check_bind (of_check_bind (of_check_bind (of_check_bind ok)))
  rw [fld_bit, fld_bit]

theorem drainbKind_ok (ok : drainbKind w cl t = .ok kind) :
    kind = .drainb ((mSx w t).toNat % 256) ((mSx w t).toNat / 256 % 2 ^ 24) (mBase w) (mM w) (mW w) none := by
  cases of_check_bind (of_check_bind (of_check_bind ok))
  simp [bitsOf]

theorem tmulKind_ok {h : Tile} (ok : tmulKind w cl t = .ok kind) (ht : tileOf (t.treg (mTh w)) = some h) :
    kind = .tmul { act := h.base, stride := h.pitch, fmt := h.fmt, base := mBase w, m := mM w, w := mW w, k := mK w,
                   e := mScale w t, accumulate := w.getLsbD 10, swap := w.getLsbD 9, rp := w.getLsbD 8 } := by
  have ok := of_check_bind ok
  rw [needTile_some_bind _ ht] at ok
  cases of_check_bind (of_check_bind (of_check_bind (of_check_bind (of_check_bind ok))))
  rw [fld_bit, fld_bit, fld_bit]

variable {s : State} {x : Issue} {op : Nat} {i : Instr} {regs : List Dest}

/-- The opcode of an instruction that executes. -/
theorem code_of_executes (hx : executes s x op = true) : opcodeOf x.word = op :=
  (presents_iff.1 (executes_iff.1 hx).1).2.2.2

/-- An array instruction that executes has an operation. -/
theorem kind_of_executes (hx : executes s x op = true) (starts : op ∈ [0x50, 0x51, 0x52, 0x53, 0x54])
    {r : Except Exc OpKind} (at_ : opcodeOf x.word = op → s.fab.kindAt x.cluster x.strand x.word = some r) : ∃ kind, r = .ok kind := by
  obtain ⟨-, -, -, clean⟩ := executes_iff.1 hx
  have code := code_of_executes hx
  cases r with
  | ok kind => exact ⟨kind, rfl⟩
  | error e =>
    rw [precise_of_kind code starts (at_ code)] at clean
    cases clean

/-! ### What an operation that starts leaves of its cluster -/

/-- An operation other than a tile multiply leaves the weight buffers. -/
theorem Cluster.begin_buffers (cl : Cluster) (f : Fab) {k : OpKind} (other : k.isTmul = false) :
    (cl.begin f k).1.live = cl.live ∧ (cl.begin f k).1.shadow = cl.shadow := by
  unfold Cluster.begin
  cases k with
  | tmul o => cases other
  | drain o => dsimp only; split <;> exact ⟨rfl, rfl⟩
  | _ => exact ⟨rfl, rfl⟩

/-- A tile multiply keeps the matrix unit for a cycle a row, and one that swaps exchanges the buffers (R51, R57, R112). -/
theorem Cluster.begin_tmul (cl : Cluster) (f : Fab) (o : TmulOp) :
    (cl.begin f (.tmul o)).1.matrixFrom = f.cycle + o.m ∧
    (cl.begin f (.tmul o)).1.live = (if o.swap then cl.shadow else cl.live) ∧
    (cl.begin f (.tmul o)).1.shadow = (if o.swap then cl.live else cl.shadow) := by
  unfold Cluster.begin
  cases hs : o.swap <;> simp [OpKind.charge, Cluster.swapBuffers, hs]

/-- The buffers and the matrix unit of a cluster. -/
def Cluster.bench (cl : Cluster) : Nat × WBuf × WBuf := (cl.matrixFrom, cl.live, cl.shadow)

/-- The buffers and the matrix unit after an instruction started an operation: as the start leaves them, or as they were. -/
theorem Fab.bench_entered (s : State) (x : Issue) (kind : OpKind) (regs : List Dest) :
    ((s.fab.entered x kind regs).cluster x.cluster).bench =
      if Claims.isHeld s x.cluster (s.fab.issued x).cycle kind then (s.fab.cluster x.cluster).bench
      else ((s.fab.noted x).begin (s.fab.issued x) kind).1.bench := by
  rw [Fab.cluster_entered, Fab.taken_noted]
  split <;> rfl

/-- The weight buffers after an instruction started an operation other than a tile multiply. -/
theorem Fab.buffers_entered (s : State) (x : Issue) {kind : OpKind} (regs : List Dest) (other : kind.isTmul = false) :
    ((s.fab.entered x kind regs).cluster x.cluster).live = (s.fab.cluster x.cluster).live ∧
    ((s.fab.entered x kind regs).cluster x.cluster).shadow = (s.fab.cluster x.cluster).shadow := by
  have bench := Fab.bench_entered s x kind regs
  obtain ⟨live, shadow⟩ := Cluster.begin_buffers (s.fab.noted x) (s.fab.issued x) other
  split at bench
  · exact ⟨congrArg (·.2.1) bench, congrArg (·.2.2) bench⟩
  · exact ⟨(congrArg (·.2.1) bench).trans live, (congrArg (·.2.2) bench).trans shadow⟩

/-- The matrix unit and the weight buffers after an instruction started a tile multiply (R51, R57, R112). -/
theorem Fab.tmul_entered (s : State) (x : Issue) (o : TmulOp) (regs : List Dest) :
    let c := (s.fab.entered x (.tmul o) regs).cluster x.cluster
    let cl := s.fab.cluster x.cluster
    let held := Claims.isHeld s x.cluster (s.fab.issued x).cycle (.tmul o)
    (c.matrixFrom = if held then cl.matrixFrom else (s.fab.issued x).cycle + o.m) ∧
    if o.swap = true ∧ held = false then c.live = cl.shadow ∧ c.shadow = cl.live else c.live = cl.live ∧ c.shadow = cl.shadow := by
  intro c cl held
  have bench : c.bench = _ := Fab.bench_entered s x (.tmul o) regs
  obtain ⟨interval, live, shadow⟩ := Cluster.begin_tmul (s.fab.noted x) (s.fab.issued x) o
  cases free : held with
  | true =>
    rw [if_pos free, Cluster.bench, Cluster.bench, Prod.mk.injEq, Prod.mk.injEq] at bench
    exact ⟨bench.1, by rw [if_neg (by simp)]; exact bench.2⟩
  | false =>
    rw [if_neg (ne_true_of_eq_false free), Cluster.bench, Cluster.bench, Prod.mk.injEq, Prod.mk.injEq, interval, live,
      shadow] at bench
    refine ⟨bench.1, ?_⟩
    cases swaps : o.swap <;> rw [swaps] at bench
    · rw [if_neg (by simp)]
      exact bench.2
    · rw [if_pos (by simp)]
      exact bench.2

/-! ### The instructions -/

/-- An instruction that starts its operation in the device alone. -/
theorem exec_entered (hx : executes s x op = true) (hk : s.fab.kindAt x.cluster x.strand x.word = some (.ok kind))
    (hi : exec i s = onFab s (fun f => f.issueOp x op [])) : exec i s = .next { s with fab := s.fab.entered x kind [] } := by
  rw [hi, onFab_running _ (running_of_executes hx), issueOp_of_executes hx hk]

/-- One that is no tile multiply leaves the weight buffers. -/
theorem exec_entered_array (hx : executes s x op = true) (hk : s.fab.kindAt x.cluster x.strand x.word = some (.ok kind))
    (hi : exec i s = onFab s (fun f => f.issueOp x op [])) (other : kind.isTmul = false) :
    ∃ t, exec i s = .next t ∧ Claims.Issued s t x kind [] ∧ ClusterOnly s t x.cluster ∧
      (t.fab.cluster x.cluster).live = (s.fab.cluster x.cluster).live ∧
      (t.fab.cluster x.cluster).shadow = (s.fab.cluster x.cluster).shadow :=
  ⟨_, exec_entered hx hk hi, issued_entered s x kind [], clusterOnly_entered s x kind [], Fab.buffers_entered s x [] other⟩

/-- The start of an operation binds no stream. -/
theorem Fab.streams_entered (f : Fab) (x : Issue) (kind : OpKind) (regs : List Dest) :
    ((f.entered x kind regs).cluster x.cluster).streams = (f.cluster x.cluster).streams := by
  rw [Fab.cluster_entered, Cluster.taken]
  split
  · rfl
  · exact (Cluster.begin_keeps _ _ _).2

/-- What the clusters list after an instruction: the cluster it changed, and others that were there. -/
theorem Fab.clusters_entered (f : Fab) (x : Issue) (kind : OpKind) (regs : List Dest) :
    (f.entered x kind regs).clusters = f.clusters.set x.cluster ((f.entered x kind regs).cluster x.cluster) := by
  rw [Fab.entered, Fab.cluster_onCluster_same]
  exact Tbl.set_set _ _ _ _

theorem Fab.streams_entered_empty {f : Fab} (h : ∀ e ∈ f.clusters, e.2.streams = []) (x : Issue) (kind : OpKind) (regs : List Dest) :
    ∀ e ∈ (f.entered x kind regs).clusters, e.2.streams = [] := by
  intro e he
  rw [Fab.clusters_entered] at he
  rcases Tbl.mem_set he with old | rfl
  · exact h e old
  · exact (Fab.streams_entered f x kind regs).trans (Fab.streams_of_unbound h x.cluster)

/-- Where no listed cluster has an operation, none has. -/
theorem Fab.ops_of_idle {f : Fab} (h : ∀ e ∈ f.clusters, e.2.ops = []) (c : Nat) : (f.cluster c).ops = [] := by
  rcases Tbl.get_mem f.clusters .idleReset c with idle | listed
  · rw [Fab.cluster, idle]
    rfl
  · exact h _ listed

/-- DRAINB starts its operation, and the ports run (R153). -/
theorem exec_drainb (hx : executes s x 0x54 = true) (hk : s.fab.kindAt x.cluster x.strand x.word = some (.ok kind)) :
    exec (.drainb x) s = .next { s with fab := (s.fab.entered x kind []).pump } := by
  refine (onFab_running (fun f => (f.issueOp x 0x54 []).pump) (running_of_executes hx)).trans ?_
  rw [issueOp_of_executes hx hk]

/-- The operation of an instruction that is not held, alone in its cluster. -/
theorem op_entered_alone (free : Claims.isHeld s x.cluster (s.fab.issued x).cycle kind = false)
    (idle : (s.fab.cluster x.cluster).ops = []) :
    ∃ o, ((s.fab.entered x kind regs).cluster x.cluster).ops = [o] ∧ o.id = (s.fab.cluster x.cluster).nextOp ∧ o.held = false ∧
      o.kind = Claims.begun (s.fab.cluster x.cluster) kind := by
  have op := (issued_entered s x kind regs).op
  dsimp only at op
  rw [show (s.fab.entered x kind regs).cycle = (s.fab.issued x).cycle from rfl, free] at op
  have passed : Claims.passed (s.fab.cluster x.cluster) kind = [] := by
    unfold Claims.passed
    rw [idle]
    split
    · exact ite_self _
    · rfl
  exact ⟨_, op.trans (congrArg (· ++ _) passed), rfl, rfl, rfl⟩

/-- In a calm package with no operation in flight, a DRAINB that is not held sends its transaction at once (R19, R35, R153). -/
theorem drainb_sends {slot off b m n : Nat} {got : Option (Tbl W32)} (calm : s.fab.calm = true) (ports : Claims.portsEmpty s)
    (idle : ∀ e ∈ s.fab.clusters, e.2.ops = [])
    (free : Claims.isHeld s x.cluster (s.fab.issued x).cycle (.drainb slot off b m n got) = false) :
    (s.fab.entered x (.drainb slot off b m n got) []).pump.txns.map (fun y => (y.origin, y.tag.cls, y.tag.partition)) =
      [(.op x.cluster (s.fab.cluster x.cluster).nextOp, 4, s.fab.clusterOwner x.cluster)] := by
  obtain ⟨waiting, streams⟩ := ports
  obtain ⟨o, ops, id, held, kind⟩ := op_entered_alone (regs := []) free (Fab.ops_of_idle idle x.cluster)
  have clusters := Fab.clusters_entered s.fab x (.drainb slot off b m n got) []
  rw [← id]
  refine Fab.pump_drainb (f := s.fab.entered x (.drainb slot off b m n got) []) calm waiting ?_ ops
    (Fab.streams_entered_empty streams x _ []) ?_ held kind
  · rw [clusters]
    exact Tbl.mem_of_find? (Tbl.find?_set_same _ _ _)
  · intro e he
    rw [clusters] at he
    exact (Tbl.mem_set he).symm.imp_right (idle e)

/-- VOP, whose cluster has no transfer and no strand that waits, starts its operation in the device alone (R155, R170). -/
theorem exec_vop (hx : executes s x 0x60 = true) (hk : s.fab.kindAt x.cluster x.strand x.word = some (.ok kind))
    (plain : kind.handles = []) (still : ∀ o ∈ (s.fab.cluster x.cluster).ops, o.kind.handles = [])
    (awake : ∀ j, (s.fab.strand x.cluster j).waiting = none) :
    exec (.vop x) s = .next { s with fab := s.fab.entered x kind [] } := by
  have entered := issued_entered s x kind []
  have ops : Claims.noTransfers ((s.fab.entered x kind []).cluster x.cluster) := by
    intro o ho
    rw [entered.op] at ho
    rcases List.mem_append.1 ho with old | new
    · split at old
      · exact still o old
      · exact Claims.passed_handles kind still o old
    · rw [List.mem_singleton.1 new]
      dsimp only
      split
      · exact plain
      · exact (Claims.begun_handles _ _).trans plain
  have strands : ∀ j, ((s.fab.entered x kind []).strand x.cluster j).waiting = none := by
    intro j
    by_cases hj : j = x.strand
    · subst hj
      exact (congrArg Strand.waiting entered.strand).trans (awake x.strand)
    · exact (congrArg Strand.waiting (entered.strands j hj)).trans (awake j)
  have body : (W.of s).issueOp x 0x60 [] = (W.of s).map (fun f => f.entered x kind []) := by
    have issued : (W.of s).fab.issueOp x 0x60 [] = s.fab.entered x kind [] := issueOp_of_executes hx hk
    have number : ((s.fab.entered x kind []).cluster x.cluster).nextOp ≠ (s.fab.cluster x.cluster).nextOp := by
      rw [entered.number]
      exact Nat.succ_ne_self _
    unfold W.issueOp
    rw [issued]
    refine (if_neg number).trans ?_
    exact W.stir_of_still (w := (W.of s).map (fun f => f.entered x kind [])) ops strands
  exact onMem_map (f := fun w => w.issueOp x 0x60 []) (g := fun f => f.entered x kind []) (running_of_executes hx) body

/-- Settles O19: the operation is the one its checks let through, and the cluster is as `Fab.cluster_entered` says. -/
theorem arrayAndVectorInstructionsStart : Obligations.ArrayAndVectorInstructionsStart := by
  refine ⟨fun s x => ?_, fun s x h => ?_, fun s x k => ?_⟩
  · intro t0 cl w starts
    obtain ⟨wload, -, drain, aclr, drainb⟩ := s.fab.kindAt_array x.cluster x.strand w
    refine ⟨fun h hx ht => ?_, fun hx => ?_, fun h hx ht => ?_, fun hx ports => ?_⟩
    · obtain ⟨kind, ok⟩ := kind_of_executes hx (by simp) wload
      obtain rfl := wloadKind_ok ok ht
      exact exec_entered_array hx ((wload (code_of_executes hx)).trans (congrArg some ok)) rfl rfl
    · obtain ⟨kind, ok⟩ := kind_of_executes hx (by simp) aclr
      obtain rfl := aclrKind_ok ok
      exact exec_entered_array hx ((aclr (code_of_executes hx)).trans (congrArg some ok)) rfl rfl
    · obtain ⟨kind, ok⟩ := kind_of_executes hx (by simp) drain
      obtain rfl := drainKind_ok ok ht
      exact exec_entered_array hx ((drain (code_of_executes hx)).trans (congrArg some ok)) rfl rfl
    · obtain ⟨kind, ok⟩ := kind_of_executes hx (by simp) drainb
      obtain rfl := drainbKind_ok ok
      intro k
      have inland := Fab.pump_inland (f := s.fab.entered x k []) ports.1 (Fab.streams_entered_empty ports.2 x k [])
      have clusters : (s.fab.entered x k []).pump.clusters = (s.fab.entered x k []).clusters := congrArg (·.clusters) inland
      have cycle : (s.fab.entered x k []).pump.cycle = (s.fab.issued x).cycle := congrArg (·.cycle) inland
      have own : (s.fab.entered x k []).pump.cluster x.cluster = (s.fab.entered x k []).cluster x.cluster :=
        congrArg (fun l : Tbl Cluster => l.get .idleReset x.cluster) clusters
      obtain ⟨live, shadow⟩ := Fab.buffers_entered s x (kind := k) [] rfl
      refine ⟨_, exec_drainb hx ((drainb (code_of_executes hx)).trans (congrArg some ok)),
        issued_of_clusters ⟨rfl, rfl, rfl⟩ clusters cycle, (congrArg (·.live) own).trans live, (congrArg (·.shadow) own).trans shadow,
        fun calm idle free => drainb_sends calm ports idle ?_⟩
      rwa [cycle] at free
  · intro t0 cl w o hx ht
    obtain ⟨-, tmul, -⟩ := s.fab.kindAt_array x.cluster x.strand w
    obtain ⟨kind, ok⟩ := kind_of_executes hx (by simp) tmul
    obtain rfl := tmulKind_ok ok ht
    exact ⟨_, exec_entered hx ((tmul (code_of_executes hx)).trans (congrArg some ok)) rfl, issued_entered s x _ [],
      clusterOnly_entered s x _ [], Fab.tmul_entered s x _ []⟩
  · intro cl hx ok plain still awake
    have hk : s.fab.kindAt x.cluster x.strand x.word = some (.ok k) := by
      unfold Fab.kindAt
      rw [code_of_executes hx]
      exact congrArg some ok
    exact ⟨_, exec_vop hx hk plain still awake, issued_entered s x k [], clusterOnly_entered s x k []⟩

end Sys2Proof.Machine
end

section
/-! PROOFS. Claims of collectives (O37): the reads of a claim correct errors, and one of them may take the slice offline in which the
operands lie, so that a check which held before the reads fails after them (R205, R209, R210, R307). -/

namespace Sys2Proof.Machine

open Sys2Proof Sys2Proof.Safety

/-- A tree of two members on base die 0, this member rank 0, its member table at the start of LPDDR5X slice 0 (Table "Tree descriptor"). -/
def pairTree : BitVec 512 := BitVec.ofNat 512 (lpddrBase 0 * 2 ^ 448 + 1 * 2 ^ 208)

/-- A shift of 64 bytes on tree 0, its source and destination in LPDDR5X slice 0 (R306). -/
def smallShift : CollOp :=
  { rd := 3, src := lpddrBase 0 + 0x1000, dst := lpddrBase 0 + 0x2000, size := 64, tree := 0, kind := 7, fmt := 0, scope := 3, ctr := 0 }

/-- The COLL of cluster 0 that launches it, in flight. -/
def shiftOp : Op :=
  { id := 6, strand := 0, epc := 9, kind := .coll smallShift, held := false, issued := 0, due := 120, late := false }

/-- The first launch of tree 0, still in flight, for a job of the Ductus. -/
def firstLaunch : Coll :=
  { id := 0, partition := 0, die := 0, tree := 0, seq := 0, desc := pairTree, limit := 0, peers := [], op := smallShift,
    launcher := .job 0 0, slice := none, parts := [], sealed := [], slots := [], fallback := false, phase := .running, partners := [],
    blocks := [], ranges := [], cuts := [], repairs := [], pulls := [], pullsEnd := [], outbox := [], next := 0, nonzero := [],
    reports := [] }

/-- Partition 0 owns cluster 0, granule 0 and eight collective contexts of base die 0. The first line of its member table holds an
error that the code corrects, and its channel is one short of its correctable limit in a slice where another channel waits for its
retirement (R209, R210). -/
def claimAtWornChannel : State :=
  { State.reset with fab := { Fab.reset with
      dict := [(dictKey 0xB100 1, 0), (dictKey 0xB102 1, 0), (dictKey 0xB130 1, 8 * 2 ^ 16)]
      clusters := [(0, { Cluster.idleReset with
          phase := .running, strands := [(0, { Strand.idleReset with st := .running, busy := [.s 3] })], ops := [shiftOp], nextOp := 7 })],
      scopes := [(0, { Scope.none with live := { Bank.none with trees := [(0, pairTree)] } })],
      colls := [firstLaunch], nextColl := 1, treeSeq := [(0, 4)],
      softLines := [lpddrBase 0 / 64], chanHour := [(0, Dict.default 0x3020 0x40 - 1)],
      retirements := [{ slice := 0, channel := 5, number := 0, dead := false }] } }

/-- Its claim, before anything is read: the shift passes every check, and needs no slot (R307). -/
theorem collCheck_claimAtWornChannel : (W.of claimAtWornChannel).collCheck 0 0 pairTree smallShift none false = .ok ([], false) := by
  decide +kernel

/-- The member table can be read, since its error is corrected (R205). -/
theorem tablesRead_claimAtWornChannel : Claims.tablesRead claimAtWornChannel 0 0 pairTree smallShift := by
  unfold Claims.tablesRead
  decide +kernel

/-- CLAIM_RESOLVED of that COLL, as the work it does. -/
def claimOfWornChannel : W := (claimResolved ⟨0, 6⟩ { W.of claimAtWornChannel with struck := [] }).settled

/-- The read takes slice 0 offline (R210). -/
theorem claimOfWornChannel_offline : claimOfWornChannel.waits = false ∧ claimOfWornChannel.fab.sliceGone 0 = true := by decide +kernel

/-- With its operands out of the map, the claim is refused: rd is 2 (R160, R307). -/
theorem claimOfWornChannel_refused : (claimOfWornChannel.fab.strand 0 0).sreg 3 = 2 := by decide +kernel

/-- Refutes O37 in its clause of a claim that succeeds: in `claimAtWornChannel` the checks hold, and the read of the member table, which the
clause grants, takes the slice of source and destination offline, so that the claim meets OUT_OF_MAP and rd is 2, not 0. -/
theorem not_collectivesClaimStartAndEnd : ¬ Obligations.CollectivesClaimStartAndEnd := by
  unfold Obligations.CollectivesClaimStartAndEnd
  rintro ⟨⟨-, claims⟩, -⟩
  obtain ⟨-, enters⟩ := claims claimAtWornChannel ⟨⟨0, 6⟩, []⟩ shiftOp smallShift pairTree rfl rfl rfl rfl rfl rfl rfl
  obtain ⟨t, ht, -, rd, -⟩ := enters [] false tablesRead_claimAtWornChannel collCheck_claimAtWornChannel
    ⟨firstLaunch, List.mem_singleton_self _, by decide +kernel⟩
  have fab : t.fab = claimOfWornChannel.fab :=
    fab_of_onMem (f := fun w => claimResolved ⟨0, 6⟩ { w with struck := [] }) ht rfl claimOfWornChannel_offline.1
  rw [fab] at rd
  exact absurd (claimOfWornChannel_refused.symm.trans rd) (by decide)

end Sys2Proof.Machine
end

section
/-! PROOFS. What an access by a block of package memory may change (R189, R205, R209 to R212, R231): the books of the memories, and
nothing of the clusters or of the units that work for them. -/

namespace Sys2Proof.Machine

open Sys2Proof Sys2Proof.Safety

/-- The device but for the books of its memories: events, dictionary, channels, correctable errors and retirements. -/
def Fab.afar (f : Fab) : Fab :=
  { f.hush with retirements := [], resetWaits := [], chans := [], chanTimeouts := [], chanHour := [], softLines := [] }

theorem Fab.afar_of_hush {f g : Fab} (h : g.hush = f.hush) : g.afar = f.afar :=
  congrArg (fun f : Fab =>
    { f with retirements := [], resetWaits := [], chans := [], chanTimeouts := [], chanHour := [], softLines := [] }) h

@[simp] theorem Fab.raise_afar (f : Fab) (source code : Nat) (part : Option Nat) (a b : Nat) :
    (f.raise source code part a b).afar = f.afar := Fab.afar_of_hush (Fab.raise_rest f source code part a b)

@[simp] theorem Fab.dset_afar (f : Fab) (i j v : Nat) : (f.dset i j v).afar = f.afar := rfl

@[simp] theorem Fab.dadd_afar (f : Fab) (i j n : Nat) : (f.dadd i j n).afar = f.afar := Fab.dset_afar _ _ _ _

/-! ### Corrected errors and retired channels -/

theorem Fab.withdraw_afar (f : Fab) (n : Nat) : (f.withdraw n).afar = f.afar := by
  unfold Fab.withdraw
  exact (Fab.dset_afar _ _ _ _).trans (foldl_keeps Fab.afar (fun _ _ => (Fab.dset_afar _ _ _ _).trans (Fab.dset_afar _ _ _ _)) _ f)

theorem Fab.setRetirement_afar (f : Fab) (r : Retirement) : (f.setRetirement r).afar = f.afar := rfl

theorem Fab.migrate_afar (f : Fab) (b : Nat) : (f.migrate b).afar = f.afar := by
  unfold Fab.migrate
  split
  · split
    · simp only [Fab.dset_afar, Fab.setRetirement_afar, Fab.withdraw_afar]
    · rfl
  · rfl

theorem Fab.resetEnds_afar (f : Fab) (p : Nat) : (f.resetEnds p).afar = f.afar := by
  unfold Fab.resetEnds
  dsimp only
  split <;> rfl

theorem Fab.finishWaits_afar (f : Fab) : f.finishWaits.afar = f.afar := by
  unfold Fab.finishWaits
  split
  · rfl
  · exact foldl_keeps Fab.afar Fab.resetEnds_afar _ _

theorem Fab.offline_afar (f : Fab) (ch : Nat) (dead : Bool) : (f.offline ch dead).afar = f.afar := by
  unfold Fab.offline
  dsimp only
  rw [Fab.finishWaits_afar, Fab.raise_afar]
  rfl

theorem Fab.predict_afar (f : Fab) (ch : Nat) : (f.predict ch).afar = f.afar := by
  unfold Fab.predict
  dsimp only
  split
  · rfl
  · split
    · split
      · rfl
      · exact Fab.offline_afar _ _ _
    · split
      · exact Fab.migrate_afar _ _
      · exact Fab.raise_afar _ _ _ _ _ _

theorem Fab.hourCount_afar (f : Fab) (ch : Nat) : (f.hourCount ch).afar = f.afar := by
  unfold Fab.hourCount
  dsimp only
  split
  · exact Fab.predict_afar _ _
  · rfl

theorem Fab.memCorrected_afar (f : Fab) (pl : Place) (part : Option Nat) : (f.memCorrected pl part).afar = f.afar := by
  unfold Fab.memCorrected
  rw [Fab.raise_afar]
  split
  · exact Fab.hourCount_afar _ _
  · rfl

theorem Fab.corrects_afar (f : Fab) (part : Option Nat) (a n : Nat) : (f.corrects part a n).afar = f.afar := by
  unfold Fab.corrects
  split
  · rfl
  · refine foldl_keeps Fab.afar (fun g l => ?_) _ f
    split
    · exact Fab.memCorrected_afar _ _ _
    · rfl

/-! ### Accesses -/

theorem Fab.drawSlot_afar (ch : Nat) (s : SubShare) (n : Nat) (f : Fab) : (Fab.drawSlot ch s n f).afar = f.afar := by
  induction n generalizing f with
  | zero => rfl
  | succ n ih =>
    unfold Fab.drawSlot
    dsimp only
    split
    · rfl
    · split
      · rfl
      · exact ih _

theorem Fab.accessDone_afar (f : Fab) (a : Nat) : (f.accessDone a).afar = f.afar := by
  unfold Fab.accessDone
  split
  · split <;> rfl
  · rfl

theorem Fab.lineDone_afar (f : Fab) (s : SubShare) (p l : Nat) (write part : Bool) : (f.lineDone s p l write part).afar = f.afar := by
  unfold Fab.lineDone
  split
  · dsimp only
    rw [foldl_keeps Fab.afar (fun g _ => Fab.drawSlot_afar _ s 16 g), Fab.accessDone_afar]
    rfl
  · rfl

theorem Fab.rangeDone_afar (f : Fab) (s : SubShare) (p a n : Nat) (write : Bool) : (f.rangeDone s p a n write).afar = f.afar :=
  foldl_keeps Fab.afar (fun _ _ => Fab.lineDone_afar _ _ _ _ _ _) _ _

/-- Work that has reached memory and stored nothing: what it may have changed are the books of the memories, and whether it waits. -/
structure W.Reached (w w' : W) : Prop where
  mem : w'.mem = w.mem
  out : w'.out = w.out
  sec : w'.sec = w.sec
  faults : w'.faults = w.faults
  afar : w'.fab.afar = w.fab.afar

theorem W.Reached.refl (w : W) : W.Reached w w := ⟨rfl, rfl, rfl, rfl, rfl⟩

theorem W.Reached.trans {w w' w'' : W} (h : W.Reached w w') (h' : W.Reached w' w'') : W.Reached w w'' :=
  ⟨h'.mem.trans h.mem, h'.out.trans h.out, h'.sec.trans h.sec, h'.faults.trans h.faults, h'.afar.trans h.afar⟩

/-- A change of the books alone. -/
theorem W.Reached.of_fab {w : W} {f : Fab} (h : f.afar = w.fab.afar) : W.Reached w { w with fab := f } := ⟨rfl, rfl, rfl, rfl, h⟩

theorem W.access_reached (w : W) (tag : Nat → Tag) (a n : Nat) (write : Bool) : W.Reached w (w.access tag a n write).1 := by
  unfold W.access
  dsimp only
  split
  · exact .refl w
  · split
    · split
      · exact .of_fab (Fab.raise_afar _ _ _ _ _ _)
      · split
        · exact ⟨rfl, rfl, rfl, rfl, rfl⟩
        · split
          · exact .of_fab (Fab.rangeDone_afar _ _ _ _ _ _)
          · split
            · exact .of_fab (Fab.rangeDone_afar _ _ _ _ _ _)
            · exact .of_fab ((Fab.corrects_afar _ _ _ _).trans (Fab.rangeDone_afar _ _ _ _ _ _))
    · exact .of_fab (Fab.raise_afar _ _ _ _ _ _)
    · exact .of_fab (Fab.raise_afar _ _ _ _ _ _)
    · exact .refl w

theorem W.reach_reached (tag : Nat → Bool → Tag) (l : List (Nat × Nat × Bool)) (w : W) : W.Reached w (W.reach tag l w).1 := by
  induction l generalizing w with
  | nil => exact .refl w
  | cons x l ih =>
    obtain ⟨a, n, write⟩ := x
    have first := W.access_reached w (fun d => tag d write) a n write
    unfold W.reach
    dsimp only
    split
    · exact first.trans (ih _)
    · exact first

/-! ### The reads of a sampler -/

theorem W.samplerReads_reached (p b : Nat) (l : List (Nat × Nat)) (w : W) : W.Reached w (W.samplerReads p b l w).1 := by
  induction l generalizing w with
  | nil => exact .refl w
  | cons r l ih =>
    have first := W.access_reached w (w.fab.samplerTag p b) r.1 r.2 false
    unfold W.samplerReads
    split
    · next h =>
      rw [h] at first
      exact first.trans (ih _)
    · exact first

theorem W.recordReads_reached (w : W) (p : Nat) (seqs : List Nat) : W.Reached w (w.recordReads p seqs).1 := W.reach_reached _ _ _

/-- A sampler instruction that runs reads, and stores nothing. -/
theorem W.runSampler_reached (w : W) (b : Nat) (x : SamplerItem) : W.Reached w (w.runSampler b x).1 := by
  unfold W.runSampler
  dsimp only
  split
  · exact .refl w
  · have block := W.samplerReads_reached x.partition b [(x.block, 64)] w
    generalize W.samplerReads x.partition b [(x.block, 64)] w = read at block ⊢
    obtain ⟨w1, r1⟩ := read
    cases r1 with
    | ok =>
      dsimp only at block ⊢
      split
      · exact block
      · have operands := W.samplerReads_reached x.partition b (samplerOperands (w.loadNat x.partition x.block 64) x.logits x.draft) w1
        generalize W.samplerReads x.partition b (samplerOperands (w.loadNat x.partition x.block 64) x.logits x.draft) w1 = read
          at operands ⊢
        obtain ⟨w2, r2⟩ := read
        cases r2 with
        | ok =>
          have records := W.recordReads_reached w2 x.partition (blockSequences (w.loadNat x.partition x.block 64) x.draft)
          dsimp only
          generalize w2.recordReads x.partition (blockSequences (w.loadNat x.partition x.block 64) x.draft) = read at records ⊢
          obtain ⟨w3, r3⟩ := read
          have all := (block.trans operands).trans records
          cases r3 <;> exact all
        | _ => exact block.trans operands
    | _ => exact block

end Sys2Proof.Machine
end

section
/-! PROOFS. Accesses that nothing stands in the way of (R22, R25, R189, R205, R231): a range in the partition's windows, without an
error, in a calm package. They draw their slots and change nothing that a later access asks for. -/

namespace Sys2Proof.Machine

open Sys2Proof Sys2Proof.Safety

/-! ### Places -/

/-- An LPDDR5X place lies in one of eight slices, below 512 GiB (R187, R198). -/
theorem Fab.locate_lpddr_bounds {f : Fab} {own : Option Nat} {a b o : Nat} (h : f.locate own a = .lpddr b o) : b < 8 ∧ o < 2 ^ 39 := by
  unfold Fab.locate at h
  dsimp only at h
  split_ifs at h
  · cases own <;> cases h
  · next upper gone =>
    cases h
    exact ⟨by omega, by omega⟩

/-- A line of a slice is on one of its 32 channels (R198). -/
theorem Fab.lineOf_lt (f : Fab) (b o : Nat) : (f.lineOf b o).1 < 32 := by
  have plain : (plainLine o).1 < 2 ^ 5 :=
    Nat.xor_lt_two_pow (Nat.xor_lt_two_pow (Nat.mod_lt _ (by decide)) (Nat.mod_lt _ (by decide))) (Nat.mod_lt _ (by decide))
  unfold Fab.lineOf
  dsimp only
  split
  · dsimp only
    have spread := Nat.mod_lt (plainLine o).2 (show 0 < 31 by decide)
    split <;> omega
  · exact plain

/-! ### What an access without an error changes -/

/-- The device but for its channels and its dictionary. -/
def Fab.unmetered (f : Fab) : Fab := { f with chans := [], chanTimeouts := [], dict := [] }

/-- What serving requests may change: channels, and in the dictionary the slot counts (0x3C40 to 0x3C47, R245). -/
structure Fab.Served (f g : Fab) : Prop where
  rest : g.unmetered = f.unmetered
  dget : ∀ i j, j < 256 → (i < 0x3C40 ∨ 0x3C48 ≤ i) → g.dget i j = f.dget i j

variable {f g h : Fab}

theorem Fab.Served.refl (f : Fab) : f.Served f := ⟨rfl, fun _ _ _ _ => rfl⟩

theorem Fab.Served.trans (first : f.Served g) (second : g.Served h) : f.Served h :=
  ⟨second.rest.trans first.rest, fun i j hj hi => (second.dget i j hj hi).trans (first.dget i j hj hi)⟩

/-- A slot counted for a channel of one of the eight base dies. -/
theorem Fab.Served.counted (served : f.Served g) {b j : Nat} (hb : b < 8) (hj : j < 256) (n : Nat) :
    f.Served (g.dadd (0x3C40 + b) j n) := by
  refine ⟨served.rest, fun i k hk hi => ?_⟩
  rw [Fab.dget_dadd, if_neg (dictKey_ne (by omega) hk hj)]
  exact served.dget i k hk hi

/-- A channel set. -/
theorem Fab.Served.onChan (served : f.Served g) (chans : Tbl Chan) : f.Served { g with chans := chans } :=
  ⟨served.rest, served.dget⟩

theorem SubShare.index_lt (s : SubShare) : s.index < 4 := by
  cases s <;> decide

theorem Fab.drawSlot_served {ch : Nat} (hch : ch < 256) (s : SubShare) (n : Nat) (f : Fab) : f.Served (Fab.drawSlot ch s n f) := by
  have die : ch / 32 < 8 := by omega
  have sub : s.index + 1 < 256 := by have := s.index_lt; omega
  induction n generalizing f with
  | zero => exact .refl f
  | succ n ih =>
    unfold Fab.drawSlot
    dsimp only
    have passed : f.Served { f with chans := f.chans.set ch ((f.chan ch).pass (f.planOf ch)) } := (Fab.Served.refl f).onChan _
    split
    · exact passed.counted die sub 1
    · split
      · exact ((passed.onChan _).counted die sub 1).counted die (by decide) 1
      · exact passed.trans (ih _)

theorem Fab.accessDone_served (f : Fab) (a : Nat) : f.Served (f.accessDone a) := by
  unfold Fab.accessDone
  split
  · split
    · exact .refl f
    · exact ⟨rfl, fun _ _ _ _ => rfl⟩
  · exact .refl f

theorem Fab.foldl_served {α : Type} {step : Fab → α → Fab} (hstep : ∀ (f : Fab) a, f.Served (step f a)) (l : List α) (f : Fab) :
    f.Served (l.foldl step f) := by
  induction l generalizing f with
  | nil => exact .refl f
  | cons a l ih => exact (hstep f a).trans (ih _)

theorem Fab.lineDone_served (f : Fab) (s : SubShare) (p l : Nat) (write part : Bool) : f.Served (f.lineDone s p l write part) := by
  unfold Fab.lineDone
  split
  · next b o at_ =>
    have ch : 32 * b + (f.lineOf b o).1 < 256 := by
      have := (Fab.locate_lpddr_bounds at_).1
      have := f.lineOf_lt b o
      omega
    dsimp only
    exact (((Fab.Served.refl f).onChan _).trans (Fab.accessDone_served _ _)).trans
      (Fab.foldl_served (fun g _ => Fab.drawSlot_served ch s 16 g) _ _)
  · exact .refl f

theorem Fab.rangeDone_served (f : Fab) (s : SubShare) (p a n : Nat) (write : Bool) : f.Served (f.rangeDone s p a n write) :=
  Fab.foldl_served (fun g _ => Fab.lineDone_served g s p _ write _) _ _

/-! ### What a later access asks for -/

/-- Requests served withdraw no granule and take no slice offline. -/
theorem Fab.Served.locate (served : f.Served g) (own : Option Nat) (a : Nat) : g.locate own a = f.locate own a := by
  have granules : ∀ n, g.granuleGone n = f.granuleGone n := fun n => by
    rw [Fab.granuleGone, Fab.granuleGone, served.dget 0x3010 1 (by decide) (by decide)]
  have slices : ∀ b, b < 8 → g.sliceGone b = f.sliceGone b := fun b hb => by
    rw [Fab.sliceGone, Fab.sliceGone, served.dget 0x3012 (b + 1) (by omega) (by decide)]
  unfold Fab.locate
  refine ite_congr rfl (fun _ => rfl) (fun _ => ite_congr rfl (fun _ => rfl) (fun _ => ite_congr rfl (fun _ => rfl)
    (fun _ => ite_congr rfl (fun upper => ?_) (fun _ => rfl))))
  dsimp only
  rw [granules, slices _ (by omega)]

theorem Fab.Served.placeOwner_inkwell (served : f.Served g) (b o : Nat) :
    g.placeOwner (.inkwell b o) = f.placeOwner (.inkwell b o) := by
  have ranges : ∀ p ∈ partitions, g.mapRange 0xB110 b p = f.mapRange 0xB110 b p := fun p hp => by
    have small : p < 16 := List.mem_range.1 hp
    rw [Fab.mapRange, Fab.mapRange, served.dget (0xB110 + b) (p + 1) (by omega) (by omega)]
  change g.inkwellOwner b _ = f.inkwellOwner b _
  unfold Fab.inkwellOwner
  rw [List.find?_congr (fun p hp => by rw [ranges p hp])]

/-- They leave every owner of package memory. -/
theorem Fab.Served.inWindows (served : f.Served g) (p a n : Nat) : g.inWindows p a n = f.inWindows p a n := by
  unfold Fab.inWindows
  refine congrArg (fun q => (checkpoints a n).all q) (funext (fun x => ?_))
  rw [served.locate]
  split
  · rw [served.placeOwner_inkwell]
  · next b o at_ =>
    have granule : o / 2 ^ 33 + 1 < 256 := by have := (Fab.locate_lpddr_bounds at_).2; omega
    rw [Fab.placeOwner, Fab.placeOwner, served.dget 0xB102 _ granule (by decide)]
  · rfl

theorem Fab.Served.calm (served : f.Served g) : g.calm = f.calm := by
  have islands : g.islands = f.islands := congrArg (·.islands) served.rest
  have txns : g.txns = f.txns := congrArg (·.txns) served.rest
  rw [Fab.calm, Fab.calm, islands, txns, served.dget 0x2040 1 (by decide) (by decide)]

/-! ### A record that can be reached -/

/-- No line of a range holds an error (R196, R206). -/
def Fab.faultless (f : Fab) (a n : Nat) : Prop := ∀ l ∈ linesOf a n, f.badLines.contains l = false ∧ f.softLines.contains l = false

theorem Fab.badIn_of_faultless {a n : Nat} (sound : f.faultless a n) : f.badIn a n = none := by
  rw [Fab.badIn, List.find?_eq_none.2 (fun l hl => by rw [(sound l hl).1]; exact Bool.false_ne_true)]
  rfl

theorem Fab.corrects_of_faultless {a n : Nat} (sound : f.faultless a n) (part : Option Nat) : f.corrects part a n = f := by
  have still : ∀ l : List Nat, (∀ x ∈ l, f.softLines.contains x = false) → l.foldl (fun g l =>
      if g.softLines.contains l then (g.memCorrected (g.locate none (64 * l)) part).repaired l else g) f = f := by
    intro l hl
    induction l with
    | nil => rfl
    | cons x l ih =>
      rw [List.foldl_cons, hl x List.mem_cons_self]
      exact ih (fun y hy => hl y (List.mem_cons_of_mem _ hy))
  unfold Fab.corrects
  split
  · rfl
  · exact still _ (fun l hl => (sound l hl).2)

theorem Fab.Served.faultless (served : f.Served g) {a n : Nat} (sound : f.faultless a n) : g.faultless a n := by
  have bad : g.badLines = f.badLines := congrArg (·.badLines) served.rest
  have soft : g.softLines = f.softLines := congrArg (·.softLines) served.rest
  intro l hl
  rw [bad, soft]
  exact sound l hl

/-- The first byte of a range is tested. -/
theorem mem_checkpoints {a n : Nat} (hn : n ≠ 0) : a ∈ checkpoints a n := by
  rw [checkpoints, if_neg hn, List.mem_map]
  exact ⟨0, List.mem_range.2 (Nat.succ_pos _), if_pos rfl⟩

/-- The firewall has nothing against a range in the windows of its partition (R189). -/
theorem Fab.guarded_of_inWindows {p a n : Nat} (inside : f.inWindows p a n = true) : f.guarded p a n = .ok := by
  have owned : (checkpoints a n).find? (fun x => f.placeOwner (f.locate none x) != p) = none := by
    rw [List.find?_eq_none]
    intro x hx
    have window := List.all_eq_true.1 inside x hx
    split at window
    · next at_ => simpa [at_] using window
    · next at_ => simpa [at_] using window
    · cases window
  rw [Fab.guarded, owned]

/-- From the Rubric die there is a way to every place of package memory (R16). -/
theorem Fab.wayTo_of_inWindows {p a n : Nat} (inside : f.inWindows p a n = true) (hn : n ≠ 0) (up : List Nat) :
    (f.wayTo up none a).isSome = true := by
  have window := List.all_eq_true.1 inside a (mem_checkpoints hn)
  unfold Fab.wayTo
  split at window
  · next at_ => rw [at_]; rfl
  · next at_ => rw [at_]; rfl
  · cases window

/-- An access by the Rubric die that nothing stands in the way of is done, and draws its slots. -/
theorem W.access_done {w : W} {tag : Nat → Tag} {p a n : Nat} (hp : ∀ d, (tag d).partition = p) (hs : ∀ d, (tag d).source.2 = none)
    (hn : n ≠ 0) (inside : w.fab.inWindows p a n = true) (sound : w.fab.faultless a n) (calm : w.fab.calm = true) (write : Bool) :
    ∃ f, w.access tag a n write = ({ w with fab := f }, .ok) ∧ w.fab.Served f := by
  have served := w.fab.rangeDone_served (shareOf (tag (w.fab.locate none a).die) ((w.fab.locate none a).die - 16) write) p a n write
  refine ⟨_, ?_, served⟩
  unfold W.access
  dsimp only
  rw [if_neg hn, hp, Fab.guarded_of_inWindows inside]
  dsimp only
  have way := Fab.wayTo_of_inWindows inside hn (tag (w.fab.locate none a).die).source.1
  have may : ∀ t, w.fab.mayAccess t a n write = true := fun t => by rw [Fab.mayAccess, calm]; rfl
  rw [hs, Option.isNone_eq_false_iff.2 way, may, if_neg Bool.false_ne_true, if_neg (by simp)]
  cases write with
  | true => rfl
  | false =>
    rw [if_neg Bool.false_ne_true, Fab.badIn_of_faultless sound]
    dsimp only
    rw [Fab.corrects_of_faultless (served.faultless sound)]

end Sys2Proof.Machine
end

section
/-! PROOFS. Stores to package memory under a partition's key (R200, R202, R204): what every read of the partition gives afterwards. -/

namespace Sys2Proof.Machine

open Sys2Proof Sys2Proof.Safety

/-! ### Little-endian values -/

theorem leNat_lt (l : List Byte) : leNat l < 256 ^ l.length := by
  induction l with
  | nil => exact Nat.one_pos
  | cons b l ih =>
    have byte := b.isLt
    rw [leNat, List.length_cons, Nat.pow_succ]
    omega

theorem leNat_leBytes (n v : Nat) : leNat (leBytes n v) = v % 256 ^ n := by
  induction n generalizing v with
  | zero => rw [Nat.pow_zero, Nat.mod_one]; rfl
  | succ n ih =>
    rw [leBytes, leNat, ih, BitVec.toNat_ofNat, Nat.pow_succ' (n := n), Nat.mod_mul]

/-! ### Lines -/

theorem mem_linesOf {a n l : Nat} : l ∈ linesOf a n ↔ n ≠ 0 ∧ a / 64 ≤ l ∧ l ≤ (a + n - 1) / 64 := by
  unfold linesOf
  by_cases hn : n = 0
  · simp [hn]
  · rw [if_neg hn, List.mem_map]
    constructor
    · rintro ⟨k, hk, rfl⟩
      have := List.mem_range.1 hk
      omega
    · rintro ⟨-, low, high⟩
      exact ⟨l - a / 64, List.mem_range.2 (by omega), by omega⟩

/-- Every byte of a range lies in one of its lines. -/
theorem line_mem_linesOf {a n x : Nat} (low : a ≤ x) (high : x < a + n) : x / 64 ∈ linesOf a n :=
  mem_linesOf.2 ⟨by omega, by omega, by omega⟩

/-! ### What a read delivers -/

variable {w w' : W} {p l a n x : Nat}

/-- A read depends on the bytes of its line, on the key that holds it, and on the keys of the partitions. -/
theorem W.load_congr (keys : w'.fab.keyOf (x / 64) = w.fab.keyOf (x / 64)) (sec : w'.sec = w.sec)
    (bytes : ∀ y, y / 64 = x / 64 → w'.byte y = w.byte y) : w'.load p x = w.load p x := by
  have block : w'.block x = w.block x := by
    unfold W.block
    congr 2
    refine List.map_congr_left (fun i hi => bytes _ ?_)
    have := List.mem_range.1 hi
    omega
  unfold W.load
  rw [keys, sec, bytes x rfl, block]

/-- A line reads under partition p as it is stored: it is not of LPDDR5X, held under no key, or held under that of p (R202). -/
def W.Plain (w : W) (p l : Nat) : Prop :=
  l * 64 < 0x10000000000 ∨ w.fab.keyOf l = none ∨ w.fab.keyOf l = some (w.sec.keys.get 0 p)

theorem W.load_of_plain (plain : w.Plain p (x / 64)) : w.load p x = w.byte x := by
  unfold W.load
  rcases plain with low | none | own
  · rw [if_pos low]
  · rw [none, ite_self]
  · rw [own]
    dsimp only
    rw [if_pos rfl, ite_self]

/-- Bytes put into plain lines are what reads deliver; every other byte reads as before. -/
theorem W.load_puts (bytes : List Byte) (plain : ∀ l ∈ linesOf a bytes.length, w.Plain p l) (x : Nat) :
    (w.puts a bytes).load p x = if a ≤ x ∧ x < a + bytes.length then bytes.getD (x - a) 0 else w.load p x := by
  by_cases touched : x / 64 ∈ linesOf a bytes.length
  · have after : (w.puts a bytes).Plain p (x / 64) := by
      unfold W.Plain
      rw [W.puts_fab, W.puts_sec]
      exact plain _ touched
    rw [W.load_of_plain after, W.load_of_plain (plain _ touched), W.byte_puts]
  · have outside : ∀ y, y / 64 = x / 64 → ¬(a ≤ y ∧ y < a + bytes.length) := fun y hy inside =>
      touched (hy ▸ line_mem_linesOf inside.1 inside.2)
    rw [if_neg (outside x rfl)]
    refine W.load_congr (by rw [W.puts_fab]) (W.puts_sec _ _ _) (fun y hy => ?_)
    rw [W.byte_puts, if_neg (outside y hy)]

/-! ### What a store leaves -/

/-- The device but for what a store notes of its lines: keys, errors made good or corrected, and dirty pages. -/
def Fab.unwritten (f : Fab) : Fab := { f.afar with lineKey := [], badLines := [], noivos := [] }

theorem Fab.unwritten_of_afar {f g : Fab} (h : g.afar = f.afar) : g.unwritten = f.unwritten :=
  congrArg (fun f : Fab => { f with lineKey := [], badLines := [], noivos := [] }) h

/-- What work that stores has of the rest: no faults, nothing to wait for, no change of memory before its end. -/
structure W.Stored (w w' : W) : Prop where
  mem : w'.mem = w.mem
  sec : w'.sec = w.sec
  faults : w'.faults = w.faults
  waits : w'.waits = w.waits
  rest : w'.fab.unwritten = w.fab.unwritten

theorem W.Stored.trans {u : W} (h : W.Stored w w') (h' : W.Stored w' u) : W.Stored w u :=
  ⟨h'.mem.trans h.mem, h'.sec.trans h.sec, h'.faults.trans h.faults, h'.waits.trans h.waits, h'.rest.trans h.rest⟩

theorem W.stored_puts (w : W) (a : Nat) (bytes : List Byte) : W.Stored w (w.puts a bytes) := by
  have put := W.putsOnly_puts w a bytes
  exact ⟨put.mem, W.puts_sec _ _ _, put.faults, put.waits, by rw [W.puts_fab]⟩

theorem W.stored_rekey (w : W) (p l : Nat) : W.Stored w (w.rekey p l) := by
  have same : W.Stored w w := ⟨rfl, rfl, rfl, rfl, rfl⟩
  have keyed : ∀ v : W, W.Stored w v → W.Stored w (v.map (fun f => { f with lineKey := f.lineKey.set l (w.sec.keys.get 0 p) })) :=
    fun v h => ⟨h.mem, h.sec, h.faults, h.waits, h.rest⟩
  unfold W.rekey
  split
  · exact same
  · dsimp only
    refine keyed _ ?_
    split
    · split
      · exact same
      · exact w.stored_puts _ _
    · exact same

theorem W.stored_rekeys (p : Nat) (ls : List Nat) (w : W) : W.Stored w (ls.foldl (fun x l => x.rekey p l) w) := by
  induction ls generalizing w with
  | nil => exact ⟨rfl, rfl, rfl, rfl, rfl⟩
  | cons l ls ih => exact (w.stored_rekey p l).trans (ih _)

/-! ### A line made ready for a write -/

theorem Fab.keyOf_setKey (f : Fab) (l key m : Nat) :
    ({ f with lineKey := f.lineKey.set l key } : Fab).keyOf m = if m = l then some key else f.keyOf m := by
  unfold Fab.keyOf
  by_cases h : m = l
  · subst h
    rw [if_pos rfl, Tbl.find?_set_same]
  · rw [if_neg h, Tbl.find?_set_ne _ _ h]

/-- A line held under p's key from now on, whose bytes are those a read of p delivered. -/
theorem W.load_setKey (key : w'.fab.keyOf l = some (w.sec.keys.get 0 p)) (other : ∀ m, m ≠ l → w'.fab.keyOf m = w.fab.keyOf m)
    (sec : w'.sec = w.sec) (own : ∀ y, y / 64 = l → w'.byte y = w.load p y) (rest : ∀ y, y / 64 ≠ l → w'.byte y = w.byte y) (x : Nat) :
    w'.load p x = w.load p x := by
  by_cases h : x / 64 = l
  · rw [W.load_of_plain (.inr (.inr (by rw [h, key, sec]))), own x h]
  · exact W.load_congr (other _ h) sec (fun y hy => rest y (hy ▸ h))

/-- What a line's rekeying does: nothing in SRAM; in LPDDR5X the line is held under p's key, with the bytes that p reads. -/
theorem W.rekey_spec (w : W) (p l : Nat) : (l * 64 < 0x10000000000 ∧ w.rekey p l = w) ∨
    ((w.rekey p l).fab.keyOf l = some (w.sec.keys.get 0 p) ∧ (∀ m, m ≠ l → (w.rekey p l).fab.keyOf m = w.fab.keyOf m) ∧
      (∀ y, y / 64 = l → (w.rekey p l).byte y = w.load p y) ∧ ∀ y, y / 64 ≠ l → (w.rekey p l).byte y = w.byte y) := by
  by_cases low : l * 64 < 0x10000000000
  · exact .inl ⟨low, if_pos low⟩
  · right
    rw [W.rekey, if_neg low]
    dsimp only
    cases held : w.fab.keyOf l with
    | none =>
      refine ⟨?_, fun m hm => ?_, fun y hy => ?_, fun y _ => rfl⟩
      · rw [W.map_fab, Fab.keyOf_setKey, if_pos rfl]
      · rw [W.map_fab, Fab.keyOf_setKey, if_neg hm]
      · rw [W.byte_map, W.load_of_plain (.inr (.inl (by rw [hy, held])))]
    | some k =>
      dsimp only
      by_cases own : k = w.sec.keys.get 0 p
      · rw [if_pos own]
        refine ⟨?_, fun m hm => ?_, fun y hy => ?_, fun y _ => rfl⟩
        · rw [W.map_fab, Fab.keyOf_setKey, if_pos rfl]
        · rw [W.map_fab, Fab.keyOf_setKey, if_neg hm]
        · rw [W.byte_map, W.load_of_plain (.inr (.inr (by rw [hy, held, own])))]
      · rw [if_neg own]
        have size : (w.loads p (l * 64) 64).length = 64 := by rw [W.loads, List.length_map, List.length_range]
        refine ⟨?_, fun m hm => ?_, fun y hy => ?_, fun y hy => ?_⟩
        · rw [W.map_fab, Fab.keyOf_setKey, if_pos rfl]
        · rw [W.map_fab, Fab.keyOf_setKey, if_neg hm, W.puts_fab]
        · have inside : l * 64 ≤ y ∧ y < l * 64 + 64 := by omega
          have place : y - l * 64 < 64 := by omega
          rw [W.byte_map, W.byte_puts, size, if_pos inside, W.loads, List.getD_eq_getElem?_getD, List.getElem?_map,
            List.getElem?_range place]
          show w.load p (l * 64 + (y - l * 64)) = _
          rw [Nat.add_sub_cancel' inside.1]
        · rw [W.byte_map, W.byte_puts, size, if_neg (by omega)]

theorem W.rekey_sec (w : W) (p l : Nat) : (w.rekey p l).sec = w.sec := (w.stored_rekey p l).sec

theorem W.load_rekey (w : W) (p l x : Nat) : (w.rekey p l).load p x = w.load p x := by
  rcases w.rekey_spec p l with ⟨-, same⟩ | ⟨key, other, own, rest⟩
  · rw [same]
  · exact W.load_setKey key other (w.rekey_sec p l) own rest x

theorem W.plain_rekey (w : W) (p l : Nat) : (w.rekey p l).Plain p l := by
  rcases w.rekey_spec p l with ⟨low, -⟩ | ⟨key, -⟩
  · exact .inl low
  · exact .inr (.inr (by rw [key, W.rekey_sec]))

theorem W.Plain.rekey {m : Nat} (plain : w.Plain p m) (l : Nat) : (w.rekey p l).Plain p m := by
  by_cases h : m = l
  · exact h ▸ w.plain_rekey p l
  · rcases w.rekey_spec p l with ⟨-, same⟩ | ⟨-, other, -, -⟩
    · rwa [same]
    · unfold W.Plain
      rw [other m h, W.rekey_sec]
      exact plain

/-- Lines made ready one after another: each is plain at the end, and reads are as before. -/
theorem W.rekeys_spec (p : Nat) (ls : List Nat) (w : W) :
    (∀ x, (ls.foldl (fun x l => x.rekey p l) w).load p x = w.load p x) ∧
    (∀ l, l ∈ ls ∨ w.Plain p l → (ls.foldl (fun x l => x.rekey p l) w).Plain p l) := by
  induction ls generalizing w with
  | nil => exact ⟨fun _ => rfl, fun l h => h.resolve_left List.not_mem_nil⟩
  | cons l ls ih =>
    obtain ⟨loads, plains⟩ := ih (w.rekey p l)
    refine ⟨fun x => (loads x).trans (w.load_rekey p l x), fun m hm => plains m ?_⟩
    rcases hm with listed | plain
    · rcases List.mem_cons.1 listed with rfl | later
      · exact .inr (w.plain_rekey p m)
      · exact .inl later
    · exact .inr (plain.rekey l)

/-! ### The store -/

/-- What a store notes of its lines once its bytes are put: errors made good by a whole line or corrected before a part of one, and
dirty pages (R200, R205, R208, R438). -/
def Fab.noteWrite (f : Fab) (p a n : Nat) : Fab :=
  let ls := linesOf a n
  let whole := ls.filter (fun l => Nat.ble a (l * 64) && Nat.ble (l * 64 + 64) (a + n))
  let f1 := if f.softLines.isEmpty then f else
    ls.foldl (fun g l => if whole.contains l then g.repaired l else g.corrects (some p) (64 * l) 64) f
  ({ f1 with badLines := f1.badLines.filter (fun l => !whole.contains l) } : Fab).dirty p a n

theorem Fab.dirty_unwritten (f : Fab) (p a n : Nat) : (f.dirty p a n).unwritten = f.unwritten ∧
    (f.dirty p a n).lineKey = f.lineKey ∧ (f.dirty p a n).fills = f.fills := by
  unfold Fab.dirty
  dsimp only
  split <;> exact ⟨rfl, rfl, rfl⟩

/-- It changes no key. -/
theorem Fab.noteWrite_keeps (f : Fab) (p a n : Nat) :
    (f.noteWrite p a n).unwritten = f.unwritten ∧ ∀ l, (f.noteWrite p a n).keyOf l = f.keyOf l := by
  let whole := (linesOf a n).filter (fun l => Nat.ble a (l * 64) && Nat.ble (l * 64 + 64) (a + n))
  have corrected : ((linesOf a n).foldl (fun g l => if whole.contains l then g.repaired l else g.corrects (some p) (64 * l) 64) f).afar =
      f.afar := by
    refine foldl_keeps Fab.afar (fun g l => ?_) _ f
    split
    · rfl
    · exact Fab.corrects_afar _ _ _ _
  unfold Fab.noteWrite
  extract_lets ls whole f1
  have afar : f1.afar = f.afar := by
    unfold f1
    split
    · rfl
    · exact corrected
  obtain ⟨rest, keys, fills⟩ := ({ f1 with badLines := f1.badLines.filter (fun l => !whole.contains l) } : Fab).dirty_unwritten p a n
  refine ⟨rest.trans (Fab.unwritten_of_afar (g := f1) afar), fun l => ?_⟩
  have keys' : f1.lineKey = f.lineKey := congrArg (·.lineKey) afar
  have fills' : f1.fills = f.fills := congrArg (·.fills) afar
  rw [Fab.keyOf, Fab.keyOf, keys, fills]
  dsimp only
  rw [keys', fills']

/-- A store to lines that are not bad, while no checkpoint runs (R200, R439). -/
theorem W.store_eq {bytes : List Byte} (idle : (w.fab.noivosOf p).running = none)
    (good : ∀ l ∈ linesOf a bytes.length, w.fab.badLines.contains l = false) :
    w.store p a bytes = (((linesOf a bytes.length).foldl (fun x l => x.rekey p l) w).puts a bytes).map
      (fun f => f.noteWrite p a bytes.length) := by
  have pages : w.readPages p a bytes.length = w := by rw [W.readPages, idle]; rfl
  have bad : (linesOf a bytes.length).filter (fun l => w.fab.badLines.contains l &&
      !(Nat.ble a (l * 64) && Nat.ble (l * 64 + 64) (a + bytes.length))) = [] :=
    List.filter_eq_nil_iff.2 (fun l hl => by rw [good l hl]; exact Bool.false_ne_true)
  unfold W.store
  dsimp only
  rw [bad, pages]
  have all : (linesOf a bytes.length).filter (fun l => !([] : List Nat).contains l) = linesOf a bytes.length :=
    List.filter_eq_self.2 (fun _ _ => rfl)
  rw [all]
  rfl

/-- After such a store a read under its partition delivers the bytes stored, and elsewhere what it delivered before; of the rest
nothing but the notes of the lines has changed. -/
theorem W.store_spec {bytes : List Byte} (idle : (w.fab.noivosOf p).running = none)
    (good : ∀ l ∈ linesOf a bytes.length, w.fab.badLines.contains l = false) :
    (∀ x, (w.store p a bytes).load p x = if a ≤ x ∧ x < a + bytes.length then bytes.getD (x - a) 0 else w.load p x) ∧
    W.Stored w (w.store p a bytes) := by
  obtain ⟨loads, plain⟩ := W.rekeys_spec p (linesOf a bytes.length) w
  have ready := W.stored_rekeys p (linesOf a bytes.length) w
  rw [W.store_eq idle good]
  generalize (linesOf a bytes.length).foldl (fun x l => x.rekey p l) w = v at loads plain ready ⊢
  have put := v.stored_puts a bytes
  obtain ⟨rest, keys⟩ := (v.puts a bytes).fab.noteWrite_keeps p a bytes.length
  refine ⟨fun x => ?_, ready.trans (put.trans ⟨rfl, rfl, rfl, rfl, rest⟩)⟩
  have noted : ((v.puts a bytes).map (fun f => f.noteWrite p a bytes.length)).load p x = (v.puts a bytes).load p x :=
    W.load_congr (keys _) rfl (fun _ _ => rfl)
  rw [noted, W.load_puts bytes (fun l hl => plain l (.inl hl)), loads]

end Sys2Proof.Machine
end

section
/-! PROOFS. SAMPLE, SACCEPT and SAMPLER_START (O44): an instruction enters the queue of its unit, and the unit computes the oldest
(R137, R161, R249, R267). -/

namespace Sys2Proof.Machine

open Sys2Proof Sys2Proof.Safety

variable {s : State} {x : Issue} {op : Nat}

/-! ### Issue -/

theorem Fab.sampler_onSampler (f : Fab) (b d : Nat) (g : SamplerUnit → SamplerUnit) :
    (f.onSampler b g).sampler d = if d = b then g (f.sampler b) else f.sampler d := by
  by_cases h : d = b
  · subst h
    rw [if_pos rfl]
    exact Tbl.get_set_same _ _ _ _
  · rw [if_neg h]
    exact Tbl.get_set_ne _ _ _ h

/-- The operation of a SAMPLE or SACCEPT, with the addresses of its strand as at issue (R137). -/
def State.sampleKind (s : State) (x : Issue) (draft : Option Nat) : OpKind :=
  .sample (fRd x.word) ((strandOf s x).areg (fRa x.word)).toNat ((strandOf s x).areg (fRb x.word)).toNat draft

/-- Its place in the queue of the sampler unit. -/
def State.sampleItem (s : State) (x : Issue) (draft : Option Nat) : SamplerItem :=
  ⟨x.cluster, (s.fab.cluster x.cluster).nextOp, s.fab.clusterOwner x.cluster, ((strandOf s x).areg (fRa x.word)).toNat,
    ((strandOf s x).areg (fRb x.word)).toNat, draft⟩

/-- SAMPLE or SACCEPT starts its operation and joins the queue (R161, R249). -/
theorem sampleIssue_of_executes (hx : executes s x op = true) (draft : Option Nat) :
    sampleIssue x op draft s.fab = (s.fab.entered x (s.sampleKind x draft) [.s (fRd x.word)]).onSampler (baseDieOf x.cluster)
      (fun u => { u with queue := u.queue ++ [s.sampleItem x draft] }) := by
  have strand : ((s.fab.issued x).cluster x.cluster).strand x.strand = strandOf s x := Fab.strand_issued _ _ _ _
  unfold sampleIssue
  rw [issue_of_executes _ hx]
  dsimp only
  rw [strand, Fab.nextOp_issued]
  have started : (s.fab.issued x).onCluster x.cluster (fun cl =>
      (cl.start x.strand (strandOf s x).pc (s.sampleKind x draft) (s.fab.issued x) false).onStrand x.strand (fun t =>
        { t.advance with busy := t.busy ++ [.s (fRd x.word)] })) = s.fab.entered x (s.sampleKind x draft) [.s (fRd x.word)] := by
    rw [← strand]
    rfl
  rw [← started]
  rfl

/-- While its queue is full, nothing is given to a unit: a strand that would is not ready (R112, R249). -/
theorem goes_of_full (at_ : Claims.atPc s x op) (sampler : op = 0x90 ∨ op = 0x91)
    (full : 16 ≤ (s.fab.sampler (baseDieOf x.cluster)).queue.length) : s.fab.goes x op = .skip := by
  obtain ⟨word, code, legal, pred⟩ := at_
  have busy : s.fab.unitBusy x.cluster x.strand x.word = true := by
    unfold Fab.unitBusy
    rw [code]
    rcases sampler with rfl | rfl <;> exact Nat.ble_eq_true_of_le full
  have verdict : s.fab.verdict x.cluster x.strand = .skip := by
    simp only [strandOf, Fab.strand] at word pred
    simp [Fab.verdict, word, legal, pred, busy]
  unfold Fab.goes
  rw [verdict, ite_self]

theorem sampleIssue_of_full (at_ : Claims.atPc s x op) (sampler : op = 0x90 ∨ op = 0x91)
    (full : 16 ≤ (s.fab.sampler (baseDieOf x.cluster)).queue.length) (draft : Option Nat) :
    onFab s (sampleIssue x op draft) = .next s := by
  have same : sampleIssue x op draft s.fab = s.fab := by
    rw [sampleIssue, Fab.issue, goes_of_full at_ sampler full]
  rw [onFab, same, ite_self]

/-- What SAMPLE or SACCEPT leaves, with its operation in flight and its item in the queue. -/
theorem sampleIssue_queues {draft : Option Nat} (hx : executes s x op = true) :
    let c := x.cluster
    let cl := s.fab.cluster c
    let t0 := strandOf s x
    let b := baseDieOf c
    let u := s.fab.sampler b
    let k := s.sampleKind x draft
    ∃ t, onFab s (sampleIssue x op draft) = .next t ∧ DeviceOnly s t ∧
      (t.fab.sampler b).queue = u.queue ++ [s.sampleItem x draft] ∧
      (t.fab.sampler b).serving = u.serving ∧ (∀ d, d ≠ b → t.fab.sampler d = s.fab.sampler d) ∧
      (t.fab.cluster c).ops = cl.ops ++
        [{ id := cl.nextOp, strand := x.strand, epc := t0.pc, kind := k, held := Claims.isHeld s c t.fab.cycle k, issued := t.fab.cycle,
           due := t.fab.cycle + OpKind.latency false k, late := false }] ∧
      (t.fab.cluster c).nextOp = cl.nextOp + 1 ∧ strandOf t x = { t0 with pc := t0.pc + 1, busy := t0.busy ++ [.s (fRd x.word)] } ∧
      (∀ j, j ≠ x.strand → t.fab.strand c j = s.fab.strand c j) ∧ (∀ d, d ≠ c → t.fab.cluster d = s.fab.cluster d) ∧
      { t.fab with clusters := [], samplers := [], cycle := 0 } = { s.fab with clusters := [], samplers := [], cycle := 0 } := by
  intro c cl t0 b u k
  let f := (s.fab.entered x k [.s (fRd x.word)]).onSampler b (fun u => { u with queue := u.queue ++ [s.sampleItem x draft] })
  have ran : onFab s (sampleIssue x op draft) = .next { s with fab := f } := by
    rw [onFab_running _ (running_of_executes hx), sampleIssue_of_executes hx]
  have issued : Claims.Issued s { s with fab := f } x k [.s (fRd x.word)] := issued_of_clusters ⟨rfl, rfl, rfl⟩ rfl rfl
  have unit_ : f.sampler b = { u with queue := u.queue ++ [s.sampleItem x draft] } :=
    (Fab.sampler_onSampler _ b b _).trans (if_pos rfl)
  refine ⟨_, ran, ⟨rfl, rfl, rfl⟩, congrArg SamplerUnit.queue unit_, congrArg SamplerUnit.serving (a₂ := { u with queue := _ }) unit_,
    fun d hd => (Fab.sampler_onSampler _ b d _).trans (if_neg hd), ?_, issued.number, issued.strand, issued.strands, issued.clusters, rfl⟩
  rw [issued.op, show Claims.passed cl k = cl.ops from rfl, show Claims.begun cl k = k from rfl, ite_self, ite_self]
  rfl

/-! ### The unit starts -/

/-- A unit that is idle takes its oldest instruction, which is in flight (R249). -/
theorem samplerStart_takes {w : W} {b : Nat} {x : SamplerItem} {r : List SamplerItem} (awake : w.fab.halts 944 = false)
    (idle : (w.fab.sampler b).serving = none) (queue : (w.fab.sampler b).queue = x :: r) (live : (w.fab.samplerOp x).isSome = true) :
    let y := (w.map (fun f => f.onSampler b (fun u => { u with queue := r }))).runSampler b x
    (∀ tok a cs, y.2 = .result tok a cs → samplerStart b w =
      y.1.map (fun f => f.onSampler b (fun u => { u with serving := some ⟨x, some (tok, a), cs, cs.isEmpty⟩ }))) ∧
    (y.2 = .reject → samplerStart b w =
      y.1.map (fun f => f.onSampler b (fun u => { u with serving := some ⟨x, none, [], true⟩ }))) := by
  intro y
  have oldest : (x :: r).dropWhile (fun x => (w.fab.samplerOp x).isNone) = x :: r :=
    List.dropWhile_cons_of_neg (by rw [Option.isNone_eq_false_iff.2 live]; exact Bool.false_ne_true)
  constructor
  · intro tok a cs result
    unfold samplerStart
    dsimp only
    rw [idle, awake, queue, oldest]
    dsimp only
    rw [if_neg (by simp), show ((w.map _).runSampler b x).2 = _ from result]
  · intro reject
    unfold samplerStart
    dsimp only
    rw [idle, awake, queue, oldest]
    dsimp only
    rw [if_neg (by simp), show ((w.map _).runSampler b x).2 = _ from reject]

/-- SAMPLER_START, where the unit then serves what it has computed and the reads it made need not wait. -/
theorem samplerStart_serves {s : State} {b : Nat} {r : List SamplerItem} {serve : SamplerServe}
    (running : s.fab.phase = .running) (y : W)
    (reached : W.Reached ((W.of s).map (fun f => f.onSampler b (fun u => { u with queue := r }))) y) (go : y.waits = false)
    (ran : samplerStart b (W.of s) = y.map (fun f => f.onSampler b (fun u => { u with serving := some serve }))) :
    ∃ t, exec (.samplerStart b) s = .next t ∧ DeviceOnly s t ∧ t.fab.sampler b = ⟨r, some serve⟩ ∧
      ∀ d, d ≠ b → t.fab.sampler d = s.fab.sampler d := by
  have out : y.out = [] := reached.out
  have samplers : y.fab.sampler = (s.fab.onSampler b (fun u => { u with queue := r })).sampler := by
    have same : y.fab.samplers = (s.fab.onSampler b (fun u => { u with queue := r })).samplers := congrArg (·.samplers) reached.afar
    exact funext (fun d => congrArg (fun l : Tbl SamplerUnit => l.get ⟨[], none⟩ d) same)
  refine ⟨_, onMem_clean (f := samplerStart b) running (by rw [ran]; exact go) (by rw [ran]; exact reached.faults), ⟨?_, rfl, rfl⟩, ?_, ?_⟩
  · rw [ran, W.map_out, out]
    rfl
  all_goals
    rw [ran]
    dsimp only [W.map_fab]
  · rw [Fab.sampler_onSampler, if_pos rfl, samplers, Fab.sampler_onSampler, if_pos rfl]
  · intro d hd
    rw [Fab.sampler_onSampler, if_neg hd, samplers, Fab.sampler_onSampler, if_neg hd]

end Sys2Proof.Machine
end

section
/-! PROOFS. SAMPLER_COMMIT (O44): a sequence record read and written by the Rubric die (R251, R256, R274). -/

namespace Sys2Proof.Machine

open Sys2Proof Sys2Proof.Safety

variable {s : State} {w w' : W} {f g : Fab} {p a i n b : Nat}

/-! ### A record that can be reached -/

/-- 64 bytes that the Rubric die can read and write: in the partition's windows, without an error or a checkpoint to read them
first, in a calm package (R22, R25, R206, R439). -/
structure Fab.Reachable (f : Fab) (p a : Nat) : Prop where
  inside : f.inWindows p a 64 = true
  faultless : f.faultless a 64
  idle : (f.noivosOf p).running = none
  calm : f.calm = true

theorem Fab.reachable_of_readable (readable : Claims.readable s p a = true) : s.fab.Reachable p a := by
  simp only [Claims.readable, Claims.sound, Bool.and_eq_true, Bool.not_eq_true', List.all_eq_true, Option.isNone_iff_eq_none] at readable
  obtain ⟨⟨⟨inside, sound⟩, idle⟩, calm⟩ := readable
  exact ⟨inside, sound, idle, calm⟩

theorem Fab.Served.reachable (served : f.Served g) (reach : f.Reachable p a) : g.Reachable p a := by
  have noivos : g.noivos = f.noivos := congrArg (·.noivos) served.rest
  exact ⟨(served.inWindows p a 64).trans reach.inside, served.faultless reach.faultless,
    by rw [Fab.noivosOf, noivos]; exact reach.idle, served.calm.trans reach.calm⟩

theorem Fab.Served.afar (served : f.Served g) : g.afar = f.afar :=
  congrArg (fun f : Fab => { f.hush with retirements := [], resetWaits := [], chans := [], chanTimeouts := [], chanHour := [], softLines := [] })
    (served.rest : g.unmetered = f.unmetered)

/-- One range read or written by the Rubric die. -/
theorem W.rubricReach_done (reach : w.fab.Reachable p a) (write : Bool) :
    ∃ f, W.rubricReach p [(a, 64, write)] w = ({ w with fab := f }, .ok) ∧ w.fab.Served f := by
  obtain ⟨f, access, served⟩ := W.access_done (tag := fun d => w.fab.rubricTag p 0 d) (fun _ => rfl) (fun _ => rfl) (by decide)
    reach.inside reach.faultless reach.calm write
  refine ⟨f, ?_, served⟩
  unfold W.rubricReach W.reach
  dsimp only
  rw [access, if_pos rfl]
  rfl

/-- The record of a sequence that its table holds, read. -/
theorem W.recordReads_done (reach : w.fab.Reachable p (w.fab.seqAddr p i)) (inTable : i < (w.fab.seqTable p).2) :
    ∃ f, w.recordReads p [i] = ({ w with fab := f }, .ok) ∧ w.fab.Served f := by
  have held : [i].filter (fun j => Nat.blt j (w.fab.seqTable p).2) = [i] :=
    List.filter_eq_self.2 (fun j hj => by rw [List.mem_singleton.1 hj]; exact Nat.ble_eq_true_of_le inTable)
  rw [W.recordReads, held]
  exact W.rubricReach_done reach false

/-! ### What serving requests leaves of the tables -/

theorem Fab.seqTable_of_inForce (h : g.inForce = f.inForce) (p : Nat) : g.seqTable p = f.seqTable p := by
  rw [Fab.seqTable, Fab.seqTable, Fab.eff, Fab.eff, Fab.eff, Fab.eff, h]

theorem Fab.seqAddr_of_inForce (h : g.inForce = f.inForce) (p i : Nat) : g.seqAddr p i = f.seqAddr p i := by
  rw [Fab.seqAddr, Fab.seqAddr, Fab.seqTable_of_inForce h]

theorem Fab.Served.inForce (served : f.Served g) : g.inForce = f.inForce := congrArg (·.inForce) served.rest

theorem W.load_served (served : w.fab.Served g) (x : Nat) : ({ w with fab := g } : W).load p x = w.load p x := by
  have keys : g.lineKey = w.fab.lineKey := congrArg (·.lineKey) served.rest
  have fills : g.fills = w.fab.fills := congrArg (·.fills) served.rest
  exact W.load_congr (by rw [Fab.keyOf, Fab.keyOf]; dsimp only; rw [keys, fills]) rfl (fun _ _ => rfl)

theorem W.loadNat_congr {c : Nat} (h : ∀ x, c ≤ x → x < c + n → w'.load p x = w.load p x) : w'.loadNat p c n = w.loadNat p c n := by
  rw [W.loadNat, W.loadNat, W.loads, W.loads]
  refine congrArg leNat (List.map_congr_left (fun j hj => h _ (Nat.le_add_right _ _) ?_))
  have := List.mem_range.1 hj
  omega

theorem W.seq_served (served : w.fab.Served g) : ({ w with fab := g } : W).seq p i = w.seq p i := by
  rw [W.seq, W.seq, Fab.seqAddr_of_inForce served.inForce]
  exact W.loadNat_congr (fun x _ _ => W.load_served served x)

/-! ### A record written -/

theorem W.loadNat_lt (w : W) (p a n : Nat) : w.loadNat p a n < 256 ^ n := by
  have bound := leNat_lt (w.loads p a n)
  rwa [W.loads, List.length_map, List.length_range] at bound

/-- What an entry written delivers afterwards, and what it leaves. -/
theorem W.putEntry_spec {v : Nat} (reach : w.fab.Reachable p a) (bound : v < 256 ^ 64) :
    (w.putEntry p a v).loadNat p a 64 = v ∧ (∀ x, x < a ∨ a + 64 ≤ x → (w.putEntry p a v).load p x = w.load p x) ∧
      W.Stored w (w.putEntry p a v) := by
  obtain ⟨g, done, served⟩ := W.rubricReach_done reach true
  have length : (leBytes 64 v).length = 64 := leBytes_length 64 v
  have reach' := served.reachable reach
  obtain ⟨loads, stored⟩ := W.store_spec (w := { w with fab := g }) (p := p) (a := a) (bytes := leBytes 64 v) reach'.idle
    (fun l hl => (reach'.faultless l (length ▸ hl)).1)
  have put : w.putEntry p a v = ({ w with fab := g } : W).store p a (leBytes 64 v) := by rw [W.putEntry, done]; rfl
  rw [put]
  rw [length] at loads
  refine ⟨?_, fun x hx => ?_, W.Stored.trans (w' := { w with fab := g }) ⟨rfl, rfl, rfl, rfl, Fab.unwritten_of_afar served.afar⟩ stored⟩
  · have bytes : (({ w with fab := g } : W).store p a (leBytes 64 v)).loads p a 64 = leBytes 64 v := by
      refine List.ext_getElem (by rw [W.loads, List.length_map, List.length_range, length]) (fun k hk _ => ?_)
      have small : k < 64 := by rwa [W.loads, List.length_map, List.length_range] at hk
      simp only [W.loads, List.getElem_map, List.getElem_range]
      rw [loads, if_pos (by omega), Nat.add_sub_cancel_left, List.getD_eq_getElem _ _ (by omega)]
    rw [W.loadNat, bytes, leNat_leBytes, Nat.mod_eq_of_lt bound]
  · rw [loads, if_neg (by omega)]
    exact W.load_served served x

/-- A field of a record replaced does not make it longer. -/
theorem setBits_lt {v hi lo x k : Nat} (bound : v < 2 ^ k) (order : lo ≤ hi) (room : hi < k) : setBits v hi lo x < 2 ^ k := by
  have width : 2 ^ (hi + 1) = 2 ^ lo * 2 ^ (hi + 1 - lo) := by rw [← Nat.pow_add, Nat.add_sub_cancel' (by omega)]
  have whole : 2 ^ k = 2 ^ lo * (2 ^ (hi + 1 - lo) * 2 ^ (k - (hi + 1))) := by
    rw [← Nat.mul_assoc, ← width, ← Nat.pow_add, Nat.add_sub_cancel' (by omega)]
  have high : v / 2 ^ lo / 2 ^ (hi + 1 - lo) + 1 ≤ 2 ^ (k - (hi + 1)) :=
    Nat.div_lt_of_lt_mul (Nat.div_lt_of_lt_mul (whole ▸ bound))
  have low := Nat.mod_lt v (Nat.two_pow_pos lo)
  have field : x % 2 ^ (hi + 1 - lo) + 1 ≤ 2 ^ (hi + 1 - lo) := Nat.mod_lt x (Nat.two_pow_pos _)
  have split := Nat.div_add_mod v (2 ^ lo)
  have split' := Nat.div_add_mod (v / 2 ^ lo) (2 ^ (hi + 1 - lo))
  rw [setBits, bitsOf, whole]
  generalize v / 2 ^ lo / 2 ^ (hi + 1 - lo) = d at high split'
  generalize v / 2 ^ lo % 2 ^ (hi + 1 - lo) = e at split' ⊢
  generalize v / 2 ^ lo = q at split split'
  generalize x % 2 ^ (hi + 1 - lo) = y at field ⊢
  generalize v % 2 ^ lo = r at low split
  generalize 2 ^ lo = L at *
  generalize 2 ^ (hi + 1 - lo) = M at *
  generalize 2 ^ (k - (hi + 1)) = K at *
  have rest : v - e * L = L * (M * d) + r := by
    rw [← split, ← split', Nat.mul_add, Nat.mul_comm e L]
    omega
  calc v - e * L + y * L = L * (M * d) + r + y * L := by rw [rest]
    _ < L * (M * d) + L + y * L := by omega
    _ = L * (M * d + (y + 1)) := by ring
    _ ≤ L * (M * d + M) := Nat.mul_le_mul_left _ (Nat.add_le_add_left field _)
    _ = L * (M * (d + 1)) := by ring
    _ ≤ L * (M * K) := Nat.mul_le_mul_left _ (Nat.mul_le_mul_left _ high)

/-! ### The commit -/

theorem setL_lt {v : Nat} (bound : v < 256 ^ 64) (x : Nat) : setL v x < 256 ^ 64 := by
  have bytes : 256 ^ 64 = 2 ^ (8 * 64) := by rw [Nat.pow_mul]
  rw [bytes] at bound ⊢
  exact setBits_lt bound (by decide) (by decide)

/-- A commit applied to a record that can be reached (R256). -/
theorem W.commitL_spec (reach : w.fab.Reachable p (w.fab.seqAddr p i)) (n : Nat) :
    (w.commitL p (i, n)).loadNat p (w.fab.seqAddr p i) 64 = setL (w.seq p i) (max (seqL (w.seq p i)) n) ∧
      (∀ x, x < w.fab.seqAddr p i ∨ w.fab.seqAddr p i + 64 ≤ x → (w.commitL p (i, n)).load p x = w.load p x) ∧
      W.Stored w (w.commitL p (i, n)) :=
  W.putEntry_spec reach (setL_lt (W.loadNat_lt w p _ 64) _)

/-- A commit of one sequence whose record can be reached and may be changed (R256, R274). -/
theorem samplerCommit_of_open {v : SamplerServe} (serving : (w.fab.sampler b).serving = some v) (fresh : v.committed = false)
    (commit : v.commit = [(i, n)]) (live : (w.fab.samplerOp v.item).isSome = true)
    (reach : w.fab.Reachable v.item.partition (w.fab.seqAddr v.item.partition i)) (inTable : i < (w.fab.seqTable v.item.partition).2) :
    ∃ f, w.fab.Served f ∧ samplerCommit b w =
      if seqState (w.seq v.item.partition i) = 1 ∧ seqMoving (w.seq v.item.partition i) = 0 ∧ seqParked (w.seq v.item.partition i) = 0 then
        (({ w with fab := f } : W).commitL v.item.partition (i, n)).map (fun f =>
          f.onSampler b (fun u => { u with serving := some { v with committed := true } }))
      else ({ w with fab := f } : W).map (fun f =>
        f.onSampler b (fun u => { u with serving := some { v with result := none, commit := [], committed := true } })) := by
  obtain ⟨f, read, served⟩ := W.recordReads_done reach inTable
  refine ⟨f, served, ?_⟩
  have record : ({ w with fab := f } : W).seq v.item.partition i = w.seq v.item.partition i := W.seq_served served
  have listed : Nat.blt i (f.seqTable v.item.partition).2 = true := by
    rw [Fab.seqTable_of_inForce served.inForce]
    exact Nat.ble_eq_true_of_le inTable
  unfold samplerCommit
  rw [serving]
  dsimp only
  rw [fresh, Fab.halts_of_calm reach.calm, commit, if_neg (by rw [Option.isNone_eq_false_iff.2 live]; decide)]
  simp only [List.map_cons, List.map_nil, read, List.all_cons, List.all_nil, W.seqOpenNow, record, listed]
  simp [and_assoc]

/-- A unit's change leaves what is read. -/
theorem W.load_onSampler (w : W) (g : SamplerUnit → SamplerUnit) (p x : Nat) :
    (w.map (fun f => f.onSampler b g)).load p x = w.load p x :=
  W.load_congr rfl rfl (fun _ _ => rfl)

/-- What work reads, its command's next state reads. -/
theorem W.load_next (mem : w.mem = s.mem) (sec : w.sec = s.sec) (p x : Nat) :
    (W.of { s with mem := MemOp.applyAll s.mem w.out, fab := w.fab }).load p x = w.load p x :=
  W.load_congr rfl sec.symm (fun y _ => W.read_stored mem y)

theorem Fab.sampler_of_unwritten (h : g.unwritten = f.unwritten) (d : Nat) : g.sampler d = f.sampler d :=
  congrArg (fun l : Tbl SamplerUnit => l.get ⟨[], none⟩ d) (congrArg (·.samplers) h : g.samplers = f.samplers)

/-- SAMPLER_COMMIT of a sequence that may be changed: L becomes the greater of the two, and nothing else in memory (R256). -/
theorem samplerCommit_applies {v : SamplerServe} (running : s.fab.phase = .running) (serving : (s.fab.sampler b).serving = some v)
    (fresh : v.committed = false) (commit : v.commit = [(i, n)]) (live : (s.fab.samplerOp v.item).isSome = true) :
    let p := v.item.partition
    let q := (W.of s).seq p i
    s.fab.Reachable p (s.fab.seqAddr p i) → i < (s.fab.seqTable p).2 → seqState q = 1 → seqMoving q = 0 → seqParked q = 0 →
    ∃ t, exec (.samplerCommit b) s = .next t ∧ t.sec = s.sec ∧ Claims.MemKept s t p [(s.fab.seqAddr p i, 64)] ∧
      (W.of t).seq p i = setL q (max (seqL q) n) ∧
      t.fab.sampler b = { s.fab.sampler b with serving := some { v with committed := true } } := by
  intro p q reach inTable opened unmoved unparked
  obtain ⟨f, served, ran⟩ := samplerCommit_of_open (w := W.of s) serving fresh commit live reach inTable
  rw [if_pos ⟨opened, unmoved, unparked⟩] at ran
  have place : f.seqAddr p i = s.fab.seqAddr p i := Fab.seqAddr_of_inForce served.inForce p i
  obtain ⟨record, rest, stored⟩ := W.commitL_spec (w := { W.of s with fab := f }) (served.reachable (place ▸ reach)) n
  rw [W.seq_served served, place] at record
  rw [place] at rest
  generalize ({ W.of s with fab := f } : W).commitL p (i, n) = y at *
  have loads : ∀ x, (W.of { s with
      mem := MemOp.applyAll s.mem (samplerCommit b (W.of s)).out, fab := (samplerCommit b (W.of s)).fab }).load p x =
        y.load p x := fun x => by
    rw [W.load_next (by rw [ran]; exact stored.mem) (by rw [ran]; exact stored.sec), ran, W.load_onSampler]
  have unwritten : y.fab.unwritten = s.fab.unwritten := stored.rest.trans (Fab.unwritten_of_afar served.afar)
  refine ⟨_, onMem_clean (f := samplerCommit b) running (by rw [ran]; exact stored.waits) (by rw [ran]; exact stored.faults), rfl,
    fun x hx => ?_, ?_, ?_⟩
  · exact (loads x).trans ((rest x (hx _ (List.mem_singleton.2 rfl))).trans (W.load_served served x))
  · have inForce : (samplerCommit b (W.of s)).fab.inForce = s.fab.inForce := by
      rw [ran]
      exact congrArg (·.inForce) unwritten
    exact (congrArg (fun a => W.loadNat _ p a 64) (Fab.seqAddr_of_inForce inForce p i)).trans
      ((W.loadNat_congr (fun x _ _ => loads x)).trans record)
  · dsimp only
    rw [ran, W.map_fab, Fab.sampler_onSampler, if_pos rfl, Fab.sampler_of_unwritten unwritten]

/-- SAMPLER_COMMIT of a sequence that may not be changed: the instruction is rejected, and nothing is stored (R267, R274). -/
theorem samplerCommit_rejects {v : SamplerServe} (running : s.fab.phase = .running) (serving : (s.fab.sampler b).serving = some v)
    (fresh : v.committed = false) (commit : v.commit = [(i, n)]) (live : (s.fab.samplerOp v.item).isSome = true) :
    let p := v.item.partition
    let q := (W.of s).seq p i
    s.fab.Reachable p (s.fab.seqAddr p i) → i < (s.fab.seqTable p).2 → (seqState q ≠ 1 ∨ seqMoving q ≠ 0 ∨ seqParked q ≠ 0) →
    ∃ t, exec (.samplerCommit b) s = .next t ∧ DeviceOnly s t ∧
      t.fab.sampler b = { s.fab.sampler b with serving := some { v with result := none, commit := [], committed := true } } := by
  intro p q reach inTable barred
  obtain ⟨f, served, ran⟩ := samplerCommit_of_open (w := W.of s) serving fresh commit live reach inTable
  rw [if_neg (fun ⟨opened, unmoved, unparked⟩ => barred.elim (· opened) (·.elim (· unmoved) (· unparked)))] at ran
  refine ⟨_, onMem_clean (f := samplerCommit b) running (by rw [ran]; rfl) (by rw [ran]; rfl), ⟨by rw [ran]; rfl, rfl, rfl⟩, ?_⟩
  have units : f.sampler b = s.fab.sampler b := Fab.sampler_of_unwritten (Fab.unwritten_of_afar served.afar) b
  dsimp only
  rw [ran, W.map_fab, Fab.sampler_onSampler, if_pos rfl]
  dsimp only
  rw [units]

end Sys2Proof.Machine
end

section
/-! PROOFS. SAMPLER_COMPLETE (O44): sd written, the unit free, the counts and NV (R161, R267, R275); and O44 from its parts. -/

namespace Sys2Proof.Machine

open Sys2Proof Sys2Proof.Safety

variable {s : State} {f g : Fab} {b c k id rd : Nat} {v : SamplerServe} {o : Op}

/-! ### An operation that leaves flight -/

/-- Operations that leave flight, with the signals that waited for them, change clusters and counters (R118, R119). -/
theorem Fab.settleFuel_rest (c n : Nat) (f : Fab) :
    { Fab.settleFuel c n f with clusters := [], regionCtr := [], packageCtr := [] } =
      { f with clusters := [], regionCtr := [], packageCtr := [] } := by
  induction n generalizing f with
  | zero => rfl
  | succ n ih =>
    unfold Fab.settleFuel
    dsimp only
    split
    · split
      · rw [ih]
        unfold Fab.applySignal Fab.setCounter
        split <;> rfl
      · rfl
    · rfl

theorem Fab.finish_rest (f : Fab) (c id : Nat) :
    { f.finish c id with clusters := [], regionCtr := [], packageCtr := [] } = { f with clusters := [], regionCtr := [], packageCtr := [] } :=
  Fab.settleFuel_rest _ _ _

/-- A strand's pending s register written, as its operation leaves flight. -/
def Fab.writeBack (f : Fab) (c id k rd : Nat) (value : Word) : Fab :=
  (f.onStrand c k (fun t => (t.setS rd value).unbusy (.s rd))).finish c id

theorem Fab.writeBack_rest (f : Fab) (c id k rd : Nat) (value : Word) :
    { f.writeBack c id k rd value with clusters := [], regionCtr := [], packageCtr := [] } =
      { f with clusters := [], regionCtr := [], packageCtr := [] } :=
  Fab.finish_rest _ _ _

theorem Fab.strand_writeBack (f : Fab) (c id k rd : Nat) (value : Word) (j : Nat) :
    (f.writeBack c id k rd value).strand c j =
      if j = k then ((f.strand c k).setS rd value).unbusy (.s rd) else f.strand c j := by
  have strands := Fab.finish_strands (f.onStrand c k (fun t => (t.setS rd value).unbusy (.s rd))) c id
  refine (congrArg (fun l : Tbl Strand => l.get .idleReset j) strands).trans ((Fab.strand_onStrand f c k c j _).trans ?_)
  by_cases same : j = k
  · rw [if_pos ⟨rfl, same⟩, if_pos same]
  · rw [if_neg (fun both => same both.2), if_neg same]

theorem Fab.ops_writeBack {value : Word} {q : Op} (h : q ∈ ((f.writeBack c id k rd value).cluster c).ops) : q.id ≠ id :=
  (Fab.mem_ops_finish h).2

/-! ### NV without a trap -/

/-- NV raised where its trap is not enabled: it is counted and stands in FLAGS (R87, R108). -/
theorem Fab.raiseFlags_invalid (epc : BitVec 16) (quiet : Claims.quietNv (f.strand c k)) :
    f.raiseFlags c k epc .invalid = f.noteFlags c k .invalid := by
  rw [Fab.raiseFlags_eq f c k epc (by decide), if_pos]
  rw [Fab.noteFlags_strand]
  exact quiet

/-! ### The completion -/

/-- The unit free, with what a completion counts: a rejection, or the drafts tested and accepted (R161, R275). -/
def Fab.sampleCounted (f : Fab) (b : Nat) (v : SamplerServe) : Fab :=
  let g := f.onSampler b (fun u => { u with serving := none })
  let p := v.item.partition
  match v.result, v.item.draft with
  | none, _ => g.dadd 0x7053 (p + 1) 1
  | some (_, a), some d => (g.dadd 0x7050 (p + 1) d).dadd 0x7051 (p + 1) a
  | _, _ => g

theorem Fab.sampleCounted_rest (f : Fab) (b : Nat) (v : SamplerServe) :
    { f.sampleCounted b v with dict := [] } = { f.onSampler b (fun u => { u with serving := none }) with dict := [] } := by
  unfold Fab.sampleCounted
  dsimp only
  split <;> rfl

/-- The device after sd was written. -/
def Fab.sampleWritten (f : Fab) (b : Nat) (v : SamplerServe) (o : Op) (rd : Nat) : Fab :=
  (f.sampleCounted b v).writeBack v.item.cluster v.item.op o.strand rd (samplerValue v.item.draft v.result)

theorem Fab.strand_sampleWritten (f : Fab) (b : Nat) (v : SamplerServe) (o : Op) (rd j : Nat) :
    (f.sampleWritten b v o rd).strand v.item.cluster j = if j = o.strand then
      ((f.strand v.item.cluster o.strand).setS rd (samplerValue v.item.draft v.result)).unbusy (.s rd)
      else f.strand v.item.cluster j := by
  have clusters : (f.sampleCounted b v).clusters = f.clusters := congrArg (·.clusters) (Fab.sampleCounted_rest f b v)
  have strands : ∀ i, (f.sampleCounted b v).strand v.item.cluster i = f.strand v.item.cluster i := fun i =>
    congrArg (fun l : Tbl Cluster => (l.get .idleReset v.item.cluster).strand i) clusters
  rw [Fab.sampleWritten, Fab.strand_writeBack, strands, strands]

theorem Fab.sampler_sampleWritten (f : Fab) (b : Nat) (v : SamplerServe) (o : Op) (rd : Nat) :
    (f.sampleWritten b v o rd).sampler b = { f.sampler b with serving := none } := by
  have written : (f.sampleWritten b v o rd).samplers = (f.sampleCounted b v).samplers :=
    congrArg (·.samplers) (Fab.writeBack_rest (f.sampleCounted b v) _ _ _ _ _)
  have counted : (f.sampleCounted b v).samplers = (f.onSampler b (fun u => { u with serving := none })).samplers :=
    congrArg (·.samplers) (Fab.sampleCounted_rest f b v)
  refine (congrArg (fun l : Tbl SamplerUnit => l.get ⟨[], none⟩ b) (written.trans counted)).trans ?_
  exact (Fab.sampler_onSampler f b b _).trans (if_pos rfl)

theorem Fab.dget_sampleWritten (f : Fab) (b : Nat) (v : SamplerServe) (o : Op) (rd i j : Nat) :
    (f.sampleWritten b v o rd).dget i j = (f.sampleCounted b v).dget i j := by
  have written : (f.sampleWritten b v o rd).dict = (f.sampleCounted b v).dict :=
    congrArg (·.dict) (Fab.writeBack_rest (f.sampleCounted b v) _ _ _ _ _)
  rw [Fab.dget, Fab.dget, written]

/-- The counts of drafts tested and accepted are 64 bits wide, that of rejections 32 (R161, R275). -/
theorem Dict.width_sampler {p : Nat} (hp : p < 16) :
    ((Dict.row 0x7050 (p + 1)).map (fun d => d.ty.width)).getD 4 = 8 ∧
    ((Dict.row 0x7051 (p + 1)).map (fun d => d.ty.width)).getD 4 = 8 ∧
    ((Dict.row 0x7053 (p + 1)).map (fun d => d.ty.width)).getD 4 = 4 := by
  revert p
  decide +kernel

/-- An accepting completion counts its drafts. -/
theorem Fab.dget_sampleCounted_drafts {tok a d : Nat} (hp : v.item.partition < 16) (result : v.result = some (tok, a))
    (draft : v.item.draft = some d) :
    (f.sampleCounted b v).dget 0x7050 (v.item.partition + 1) = min (f.dget 0x7050 (v.item.partition + 1) + d) (2 ^ 64 - 1) ∧
    (f.sampleCounted b v).dget 0x7051 (v.item.partition + 1) = min (f.dget 0x7051 (v.item.partition + 1) + a) (2 ^ 64 - 1) := by
  obtain ⟨tested, accepted, -⟩ := Dict.width_sampler hp
  have sub : v.item.partition + 1 < 256 := by omega
  have apart : dictKey 0x7051 (v.item.partition + 1) ≠ dictKey 0x7050 (v.item.partition + 1) := dictKey_ne (by decide) sub sub
  rw [Fab.sampleCounted, result, draft]
  dsimp only
  rw [Fab.dget_dadd, if_neg apart.symm, Fab.dget_dadd, if_pos rfl, tested, Fab.dget_dadd, if_pos rfl, accepted, Fab.dget_dadd,
    if_neg apart]
  exact ⟨rfl, rfl⟩

/-- A rejection is counted. -/
theorem Fab.dget_sampleCounted_reject (hp : v.item.partition < 16) (result : v.result = none) :
    (f.sampleCounted b v).dget 0x7053 (v.item.partition + 1) = min (f.dget 0x7053 (v.item.partition + 1) + 1) (2 ^ 32 - 1) := by
  rw [Fab.sampleCounted, result]
  dsimp only
  rw [Fab.dget_dadd, if_pos rfl, (Dict.width_sampler hp).2.2]
  rfl

section
variable {aa ab : Nat} {dr : Option Nat} (serving : (f.sampler b).serving = some v) (committed : v.committed = true)
  (op : f.samplerOp v.item = some o) (kind : o.kind = .sample rd aa ab dr)
include serving committed op kind

theorem samplerComplete_eq : samplerComplete b f = (f.sampleWritten b v o rd).raiseFlags v.item.cluster o.strand o.epc
    (if v.result.isNone then .invalid else .none) := by
  unfold samplerComplete
  rw [serving]
  dsimp only
  rw [op]
  dsimp only
  rw [committed, kind]
  rfl

theorem samplerComplete_of_result {r : Nat × Nat} (result : v.result = some r) : samplerComplete b f = f.sampleWritten b v o rd := by
  rw [samplerComplete_eq serving committed op kind, result]
  rfl

theorem samplerComplete_of_reject (result : v.result = none) (quiet : Claims.quietNv (f.strand v.item.cluster o.strand)) :
    samplerComplete b f = (f.sampleWritten b v o rd).noteFlags v.item.cluster o.strand .invalid := by
  rw [samplerComplete_eq serving committed op kind, result]
  refine Fab.raiseFlags_invalid _ ?_
  rw [Fab.strand_sampleWritten, if_pos rfl]
  exact quiet

end

/-! ### What a completion leaves -/

/-- A sampler instruction that has ended: its unit is free, its operation gone, and sd written and no longer pending. -/
structure Fab.SampleEnds (f h : Fab) (b : Nat) (v : SamplerServe) (o : Op) (rd : Nat) : Prop where
  unit : h.sampler b = { f.sampler b with serving := none }
  ops : ∀ q ∈ (h.cluster v.item.cluster).ops, q.id ≠ v.item.op
  busy : (h.strand v.item.cluster o.strand).busy = removeFirst (· == .s rd) (f.strand v.item.cluster o.strand).busy
  written : (h.strand v.item.cluster o.strand).sreg rd = samplerValue v.item.draft v.result
  kept : ∀ j, j ≠ rd → (h.strand v.item.cluster o.strand).sreg j = (f.strand v.item.cluster o.strand).sreg j
  live : ∀ j, (h.strand v.item.cluster j).over = (f.strand v.item.cluster j).over

theorem Fab.sampleEnds_sampleWritten (f : Fab) (b : Nat) (v : SamplerServe) (o : Op) (rd : Nat) :
    f.SampleEnds (f.sampleWritten b v o rd) b v o rd := by
  have strand := (Fab.strand_sampleWritten f b v o rd o.strand).trans (if_pos rfl)
  refine ⟨Fab.sampler_sampleWritten f b v o rd, fun q hq => Fab.ops_writeBack hq, by rw [strand]; rfl, ?_, fun j hj => ?_, fun j => ?_⟩
  · rw [strand]
    exact (Strand.sreg_setS _ rd rd _).trans (if_pos rfl)
  · rw [strand]
    exact (Strand.sreg_setS _ rd j _).trans (if_neg hj)
  · rw [Fab.strand_sampleWritten]
    split
    · next same => rw [same]; rfl
    · rfl

/-- Flags noted end no instruction and revive none. -/
theorem Fab.SampleEnds.noteFlags {h : Fab} (ends : f.SampleEnds h b v o rd) (r : Raise) :
    f.SampleEnds (h.noteFlags v.item.cluster o.strand r) b v o rd := by
  have strand := Fab.noteFlags_strand h v.item.cluster o.strand r
  have samplers : (h.noteFlags v.item.cluster o.strand r).samplers = h.samplers :=
    (congrArg (·.samplers) (Fab.countFlags_rest h r) : (h.countFlags r).samplers = h.samplers)
  refine ⟨(congrArg (fun l : Tbl SamplerUnit => l.get ⟨[], none⟩ b) samplers).trans ends.unit, fun q hq => ends.ops q ?_,
    by rw [strand]; exact ends.busy, by rw [strand]; exact ends.written, fun j hj => by rw [strand]; exact ends.kept j hj, fun j => ?_⟩
  · rw [Fab.noteFlags, Fab.onStrand, Fab.cluster_onCluster_same, Fab.countFlags_cluster] at hq
    exact hq
  · rw [← ends.live j, Fab.noteFlags, Fab.strand_onStrand, Fab.countFlags_strand, Fab.countFlags_strand]
    split
    · next same => rw [same.2]; rfl
    · rfl

/-- SAMPLER_COMPLETE on a cluster at work leaves what its unit made of the device. -/
theorem exec_samplerComplete (running : s.fab.phase = .running) (atWork : Claims.atWork s v.item.cluster)
    (serving : (s.fab.sampler b).serving = some v) (ends : s.fab.SampleEnds (samplerComplete b s.fab) b v o rd) :
    exec (.samplerComplete b) s = .next { s with fab := samplerComplete b s.fab } := by
  obtain ⟨open_, j, live⟩ := atWork
  have goes : s.fab.atCluster v.item.cluster (samplerComplete b) = samplerComplete b s.fab := by
    rw [Fab.atCluster, open_, if_neg Bool.false_ne_true]
    exact Fab.ends_of_live ((ends.live j).trans live)
  change execSamplerComplete b s = _
  unfold execSamplerComplete
  rw [onFab_running _ running, serving]
  dsimp only
  rw [goes]

end Sys2Proof.Machine
end

section
/-! PROOFS. O44 from its parts: the queue, the start, the commit and the completion of a sampler unit. -/

namespace Sys2Proof.Machine

open Sys2Proof Sys2Proof.Safety

variable {s : State} {b : Nat}

/-- SACCEPT's draft count is the low field of its word (R161). -/
theorem fld_drafts (w : Word) : fld w 4 0 = (w.setWidth 5).toNat := by
  simp [fld, bitsOf]

/-- SAMPLER_START on the queue of a state (R249, R267). -/
theorem exec_samplerStart {x : SamplerItem} {r : List SamplerItem} :
    let y := ((W.of s).map (fun f => f.onSampler b (fun u => { u with queue := r }))).runSampler b x
    s.fab.phase = .running → s.fab.halts 944 = false → (s.fab.sampler b).serving = none → (s.fab.sampler b).queue = x :: r →
    (s.fab.samplerOp x).isSome = true → y.1.waits = false →
    (∀ tok a cs, y.2 = .result tok a cs → ∃ t, exec (.samplerStart b) s = .next t ∧ DeviceOnly s t ∧
      t.fab.sampler b = ⟨r, some ⟨x, some (tok, a), cs, cs.isEmpty⟩⟩ ∧ ∀ d, d ≠ b → t.fab.sampler d = s.fab.sampler d) ∧
    (y.2 = .reject → ∃ t, exec (.samplerStart b) s = .next t ∧ DeviceOnly s t ∧
      t.fab.sampler b = ⟨r, some ⟨x, none, [], true⟩⟩ ∧ ∀ d, d ≠ b → t.fab.sampler d = s.fab.sampler d) := by
  intro y running awake idle queue live go
  obtain ⟨computed, rejected⟩ := samplerStart_takes (w := W.of s) awake idle queue live
  have reached := W.runSampler_reached ((W.of s).map (fun f => f.onSampler b (fun u => { u with queue := r }))) b x
  exact ⟨fun tok a cs result => samplerStart_serves running y.1 reached go (computed tok a cs result),
    fun reject => samplerStart_serves running y.1 reached go (rejected reject)⟩

/-- Settles O44: each command is what its lemma above makes of it. -/
theorem samplersQueueAndRun : Obligations.SamplersQueueAndRun := by
  refine ⟨fun row hrow s x => ?_, fun s b x r => exec_samplerStart, fun s b v i n => ?_, fun s b v o rd aa ab dr => ?_⟩
  · rcases List.mem_cons.1 hrow with rfl | hrow
    · exact ⟨fun at_ _ full => sampleIssue_of_full at_ (.inl rfl) full none, fun hx => sampleIssue_queues (draft := none) hx⟩
    · obtain rfl := List.mem_singleton.1 hrow
      have drafts : some (fld x.word 4 0) = some (x.word.setWidth 5).toNat := congrArg some (fld_drafts x.word)
      have ran : exec (.saccept x) s = onFab s (sampleIssue x 0x91 (some (x.word.setWidth 5).toNat)) :=
        congrArg (fun d => onFab s (sampleIssue x 0x91 d)) drafts
      refine ⟨fun at_ _ full => ran.trans (sampleIssue_of_full at_ (.inr rfl) full _), fun hx => ?_⟩
      dsimp only
      rw [ran]
      exact sampleIssue_queues hx
  · intro u p q running serving fresh commit _ live readable inTable
    have reach := Fab.reachable_of_readable readable
    exact ⟨samplerCommit_applies running serving fresh commit live reach inTable,
      samplerCommit_rejects running serving fresh commit live reach inTable⟩
  · intro u p t0 starts running atWork hp serving committed op kind quiet
    have written := s.fab.sampleEnds_sampleWritten b v o rd
    have result : ∀ r, v.result = some r → samplerComplete b s.fab = s.fab.sampleWritten b v o rd := fun r hr =>
      samplerComplete_of_result serving committed op kind hr
    have done : ∀ h : Fab, samplerComplete b s.fab = h → s.fab.SampleEnds h b v o rd →
        exec (.samplerComplete b) s = .next { s with fab := h } ∧ starts { s with fab := h } := fun h ran ends => by
      subst ran
      exact ⟨exec_samplerComplete running atWork serving ends, ⟨rfl, rfl, rfl⟩, ends.unit, ends.ops, ends.busy, ends.kept⟩
    refine ⟨fun tok res draft => ?_, fun tok a d res draft => ?_, fun res => ?_⟩
    · obtain ⟨ran, left_⟩ := done _ (result _ res) written
      exact ⟨_, ran, left_, written.written.trans (by rw [draft, res]; rfl)⟩
    · obtain ⟨ran, left_⟩ := done _ (result _ res) written
      obtain ⟨tested, accepted⟩ := Fab.dget_sampleCounted_drafts (f := s.fab) (b := b) hp res draft
      exact ⟨_, ran, left_, written.written.trans (by rw [draft, res]; rfl), (Fab.dget_sampleWritten _ _ _ _ _ _ _).trans tested,
        (Fab.dget_sampleWritten _ _ _ _ _ _ _).trans accepted⟩
    · have noted := written.noteFlags .invalid
      obtain ⟨ran, left_⟩ := done _ (samplerComplete_of_reject serving committed op kind res quiet) noted
      refine ⟨_, ran, left_, noted.written.trans (by rw [res]; rfl), ?_, ?_⟩
      · dsimp only
        rw [Fab.noteFlags_strand, Fab.strand_sampleWritten, if_pos rfl]
        rfl
      · have other : p + 1 < 256 := by omega
        exact (Fab.dget_countFlags_other _ .invalid (.inl (by decide)) other).trans
          ((Fab.dget_sampleWritten _ _ _ _ _ _ _).trans (Fab.dget_sampleCounted_reject hp res))

end Sys2Proof.Machine
end

section
/-! PROOFS. The reserved combinations of a VOP (O14): each of R178 fails one of the encoding rules of VOP, and a word that fails them
raises ILLEGAL before anything else of the instruction (R136). -/

namespace Sys2Proof.Machine

open Sys2Proof Sys2Proof.Safety

/-! ### The combinations of R178 -/

section
variable {w : Word}

theorem vopEncOk_of_broadcast_without_src2 (broadcast : fld w 25 24 ≠ 0) (unused : vopUses2 (fld w 51 46) = false) :
    vopEncOk w = false := by
  simp [vopEncOk, unused, broadcast]

theorem vopEncOk_of_broadcast_without_shape (broadcast : fld w 25 24 = 1 ∨ fld w 25 24 = 2) (src1 : specTile (fld w 40 36) = false)
    (dst : specTile (fld w 45 41) = false) : vopEncOk w = false := by
  rcases broadcast with h | h <;> simp [vopEncOk, h, src1, dst]

theorem vopEncOk_of_reduction_without_tile (reduces : vopReduces (fld w 51 46) = true) (src1 : specTile (fld w 40 36) = false) :
    vopEncOk w = false := by
  simp [vopEncOk, reduces, src1]

theorem vopEncOk_of_stray_scalar (scalar : fld w 18 14 ≠ 0) (src2 : fld w 35 31 ≠ 31) : vopEncOk w = false := by
  simp [vopEncOk, scalar, src2]

/-- A specifier of 16 or more names no tile handle (R138). -/
theorem specTile_of_le {s : Nat} (h : Nat.ble 16 s = true) : specTile s = false :=
  blt_eq_false_of_le (Nat.le_of_ble_eq_true h)

/-- A combination of R178 is a reserved encoding. -/
theorem vopEncOk_of_reserved (h : Claims.reservedVop w = true) : vopEncOk w = false := by
  simp only [Claims.reservedVop, Bool.or_eq_true, Bool.and_eq_true, bne_iff_ne, beq_iff_eq, Bool.not_eq_true', and_assoc, or_assoc] at h
  rcases h with ⟨broadcast, unused⟩ | ⟨broadcast, src1, dst⟩ | ⟨reduces, -, src1⟩ | ⟨scalar, src2⟩
  · exact vopEncOk_of_broadcast_without_src2 broadcast unused
  · exact vopEncOk_of_broadcast_without_shape broadcast (specTile_of_le src1) (specTile_of_le dst)
  · exact vopEncOk_of_reduction_without_tile reduces (specTile_of_le src1)
  · exact vopEncOk_of_stray_scalar scalar src2

end

/-! ### ILLEGAL -/

/-- A reserved encoding raises ILLEGAL with its word, which is fatal, whatever the predicate (R136, R125, R126). -/
theorem takesIllegal_of_encOk {s : State} {x : Issue} {row : (Issue → Instr) × Nat} (form : IssueForm row.1 row.2)
    (hp : presents s x row.2 = true) (reserved : encOk x.word = false) : Claims.TakesIllegal s x (row.1 x) := by
  have illegal : s.fab.illegal x.cluster x.strand x.word = true := by simp [Fab.illegal, reserved]
  obtain ⟨t, ht, fatal⟩ := fatal_of_goes form (presents_iff.1 hp).1 (goes_of_illegal hp illegal) rfl
  exact ⟨t, ht, fatal.toDeviceOnly, fatal.st, fatal.cause, fatal.epc, fatal.einfo, fatal.phase⟩

/-- Settles O14: each combination is a reserved encoding (`vopEncOk_of_reserved`), which VOP's row raises ILLEGAL for. -/
theorem reservedVectorCombinationsAreIllegal : Obligations.ReservedVectorCombinationsAreIllegal := by
  intro s x hp combination
  obtain ⟨-, -, -, code⟩ := presents_iff.1 hp
  have reserved : encOk x.word = false := by
    unfold encOk
    rw [code]
    exact vopEncOk_of_reserved combination
  have row : (.vop, 0x60) ∈ scribeRows := by simp [scribeRows]
  exact takesIllegal_of_encOk (issueForm_of_scribeRow row (by decide)) hp reserved

end Sys2Proof.Machine
end

section
/-! PROOFS. Package memory stays in its canonical form (O3). -/

namespace Sys2Proof.Machine

open Sys2Proof Sys2Proof.Safety

/-- A command keeps the canonical form of memory: all it does to memory is a list of changes. -/
theorem exec_memoryOk {c : Instr} {s t : State} (ok : MemoryOk s) (h : exec c s = .next t) : MemoryOk t := by
  obtain ⟨-, changes, -⟩ := exec_keeps h
  exact wf_of_changes changes ok

/-- Settles O3: an idle cycle leaves memory, and a command changes it by writes and clears alone (`exec_keeps`), each of which keeps
the canonical form (`MemOp.wf_applyAll`). -/
theorem stepKeepsMemoryCanonical : Obligations.StepKeepsMemoryCanonical := by
  intro s t ok h
  unfold step at h
  split at h
  case h_1 => cases h; exact ok
  case h_2 c r _ => exact exec_memoryOk (s := { s with pending := r }) ok h

end Sys2Proof.Machine
end

section
/-! PROOFS. MEMORY_TRANSACTION at the firewall (O27): where the ports that run after the refusal reach an access that cannot be made,
the whole command waits and changes nothing (R22, R25), so that a cluster whose launch is over does not return to Idle. -/

namespace Sys2Proof.Machine

open Sys2Proof

/-- A cluster that leaves its launch stands in the phase it is given. -/
theorem Fab.leave_phase (f : Fab) (c : Nat) (phase : ClusterPhase) : ((f.leave c phase).cluster c).phase = phase := by
  have left : (((f.cancelAll c).onCluster c (fun cl => cl.toIdle phase)).cluster c).phase = phase := by
    rw [Fab.cluster_onCluster_same]
    rfl
  unfold Fab.leave
  dsimp only
  split <;> exact left

/-- No launch of a cluster is over once `Fab.ends` has looked at it (R100). -/
theorem Fab.ends_not_finished (f : Fab) (c : Nat) : (f.ends c).finished c = false := by
  unfold Fab.ends
  split
  · simp [Fab.finished, Fab.leave_phase]
  · next h => simpa using h

/-- A cluster that runs a launch whose only strand has ended, with nothing left to do (R100). -/
def doneCluster : Cluster :=
  { Cluster.idleReset with phase := .running, strands := [(0, { Strand.idleReset with st := .ended })] }

/-- A read of the Inkwell of base die 0 for an LD of cluster 0 that is no longer in flight (R207). -/
def strayRead : Txn := { voidRead with origin := .op 0 4 }

/-- The stray read stands at its memory, none of which partition 0 owns. The next Well row of a SOUT of cluster 1 is uncorrectable, and
the slice that the end of the context abandons has its entry behind a core in its safe state, as in `blockedDrain`. -/
def blockedRefusal : State :=
  { blockedDrain with fab := { blockedDrain.fab with
      txns := [strayRead], clusters := [(0, doneCluster), (1, storingCluster)], wellFaults := [(wellBase 1 / 8, true)] } }

/-- The slice's entry cannot be reached, so that the whole work of MEMORY_TRANSACTION waits. -/
theorem memoryTransaction_blockedRefusal_waits : (memoryTransaction 3 .clean (W.of blockedRefusal)).settled.waits = true := by
  decide +kernel

theorem memoryTransaction_blockedRefusal : exec (.memoryTransaction 3 .clean) blockedRefusal = .next blockedRefusal :=
  onMem_waits (memoryTransaction 3 .clean) memoryTransaction_blockedRefusal_waits

/-- Refutes O27 in its clause on the firewall: at `blockedRefusal` every hypothesis of the clause holds, and the command changes
nothing. The state that the clause asks for has had the end of cluster 0's launch looked at, which in `blockedRefusal` is still due. -/
theorem not_transactionsAreServedOrDropped : ¬ Obligations.TransactionsAreServedOrDropped := by
  unfold Obligations.TransactionsAreServedOrDropped
  rintro ⟨-, firewall⟩
  obtain ⟨u, hu, -, -⟩ := firewall blockedRefusal strayRead 0 4 .clean rfl (by decide) rfl rfl rfl (by decide) (by decide +kernel)
    (by decide) (by decide +kernel)
  have same : blockedRefusal = Claims.ended (Claims.flowed u) 0 := by
    have h := memoryTransaction_blockedRefusal.symm.trans hu
    injection h
  have due : blockedRefusal.fab.finished 0 = true := by decide
  rw [same] at due
  exact Bool.false_ne_true ((Fab.ends_not_finished _ 0).symm.trans due)

end Sys2Proof.Machine
end

section
/-! PROOFS. PATROL_SCRUB (O60): a corrected error that takes a slice offline ends the partition resets that waited, each by a write to
0x3030 at the subindex of its partition (R210, R212, R403). The list of those that wait may hold any number. -/

namespace Sys2Proof.Machine

open Sys2Proof

/-- The device that PATROL_SCRUB leaves while the firmware runs. -/
theorem fab_of_patrolScrub {s t : State} {ch j : Nat} {found : ScrubRead} (hp : s.fab.phase = .running)
    (h : exec (.patrolScrub ch j found) s = .next t) : t.fab = patrolScrub ch j found.ecc found.arisen s.fab := by
  cases (onFab_running (patrolScrub ch j found.ecc found.arisen) hp).symm.trans h
  rfl

/-- Channel 1 of slice 0 is retired, one corrected error in an hour retires a channel, and the list of partition resets that wait holds
0xD000: 0x3030 at subindex 0xD001 has the key of the count of channel 0 (0x3100:01). -/
def strayWait : State :=
  { State.reset with fab := { Fab.reset with
      dict := [(dictKey 0x3011 1, 1), (dictKey 0x3012 1, 4)], inForce := [(dictKey 0x3020 0x40, 1)],
      retirements := [⟨0, 1, 1, false⟩], resetWaits := [0xD000] } }

/-- Channel 0 is the second of its slice to retire; the reset that waited ends, and with it the count reads 0 again. -/
theorem patrolScrub_strayWait : (patrolScrub 0 0 .corrected [] strayWait.fab).dget 0x3100 1 = 0 := by decide +kernel

/-- Refutes O60 in its clause on a corrected error that PATROL_SCRUB finds: at `strayWait` every hypothesis of the clause holds, and the
count of the channel reads 0 afterwards, not 1. The clause does not ask that the numbers in the list be those of partitions. -/
theorem not_scrubsAndRetirement : ¬ Obligations.ScrubsAndRetirement := by
  unfold Obligations.ScrubsAndRetirement
  rintro ⟨⟨-, patrol⟩, -⟩
  obtain ⟨-, ⟨t, ht, -, -, -, counted⟩, -⟩ := patrol strayWait 0 0 0 0 0 rfl (by decide) (by decide) (by decide +kernel)
    (by decide +kernel) rfl rfl (by decide +kernel)
  have count : t.fab.dget 0x3100 1 = 1 := counted (by decide +kernel)
  rw [fab_of_patrolScrub rfl ht] at count
  exact absurd (patrolScrub_strayWait.symm.trans count) (by decide)

end Sys2Proof.Machine
end

section
/-! PROOFS. OUT_WRITE_ACCEPTED (O24): the end of a write takes every transaction with its number out of flight, and with it here the
request of a DRAINB, which the ports send again under the next number (R19, R33, R227, R235). -/

namespace Sys2Proof.Machine

open Sys2Proof

/-- The bytes of a unit on its way to memory. -/
def unitOnTheWay : List Byte := List.replicate 64 0x11

/-- An out-stream whose pass is over, with one unit injected and not yet acknowledged (R222, R227). -/
def writingStream : Stream :=
  { openOutStream with
    state := .spent, cur := none, units := [(0, ⟨unitOnTheWay, 0, inkwellBase 0, 0, false, false, true, 4⟩)], head := 1, asked := 1 }

/-- A running cluster with one live strand and that stream. -/
def writingCluster : Cluster :=
  { Cluster.idleReset with
    phase := .running, strands := [(0, { Strand.idleReset with st := .running })], streams := [writingStream] }

/-- The write of that unit, at the Inkwell of base die 0 (R33, R221). -/
def unitWrite : Txn :=
  { id := 3, tag := { partition := 0, bank := false, cls := 1, sourceDie := 0, sourceUnit := 0, destDie := 16, seq := 1 },
    addr := inkwellBase 0, len := 64, more := [], write := some unitOnTheWay, origin := .out 0 0 0 1, far := .package, heldPage := false,
    routeBank := false, route := [800, 896], behind := 896, ahead := [] }

/-- The write of a unit for cluster 0 and the DRAINB of cluster 1 are in flight under one number, which is also the next that the
ports give out. Partition 0 owns the memory that the unit goes to. -/
def sharedNumber : State :=
  { State.reset with fab := { Fab.reset with
      dict := [(dictKey 0xB100 1, 0), (dictKey 0xB110 1, 65536)],
      clusters := [(0, writingCluster), (1, drainingCluster)],
      txns := [unitWrite, { drainAtBlotter with origin := .op 1 4, tag := { drainAtBlotter.tag with sourceUnit := 1 } }], nextTxn := 3 } }

/-- The ports have nothing to ask for: both of their requests are in flight. -/
theorem sharedNumber_portsQuiet : Claims.PortsQuiet sharedNumber.fab where
  waiting := rfl
  arrived := by decide
  asked := by decide +kernel
  sent := by decide

/-- The write is the first transaction with its number, and it is its turn. -/
theorem sharedNumber_atTurn : Claims.AtTurn sharedNumber unitWrite where
  listed := by decide
  free := rfl
  turn := by decide +kernel
  unread := rfl
  good := rfl
  soft := rfl

/-- Neither transaction writes scale bytes. -/
theorem sharedNumber_noScales : ∀ v ∈ sharedNumber.fab.txns, ∀ d u n, v.origin ≠ .scale d u n := by
  have origins : ∀ v ∈ sharedNumber.fab.txns, v.origin = .out 0 0 0 1 ∨ v.origin = .op 1 4 := by decide
  intro v hv d u n
  rcases origins v hv with h | h <;> rw [h] <;> nofun

/-- A DRAINB is the only operation in flight. -/
theorem sharedNumber_noTransfers : ∀ e ∈ sharedNumber.fab.clusters, Claims.noTransfers (sharedNumber.fab.cluster e.1) := by
  unfold Claims.noTransfers
  decide +kernel

/-- OUT_WRITE_ACCEPTED of the unit in `sharedNumber`, as the work it does. -/
def acceptedAtSharedNumber : W := (outWritten ⟨0, 0, 0⟩ 3 .clean (W.of sharedNumber)).settled

/-- Once the write is over the ports send the DRAINB of cluster 1 again, as transaction 3 (R33, R235). -/
theorem acceptedAtSharedNumber_txns : acceptedAtSharedNumber.waits = false ∧
    acceptedAtSharedNumber.fab.txns.map (fun v => (v.id, v.origin)) = [(3, .op 1 4)] := by decide +kernel

/-- Refutes O24 in its clause on OUT_WRITE_ACCEPTED: at `sharedNumber` every hypothesis of the clause holds, and a transaction with
the number of the write is in flight afterwards. The clause asks neither that the numbers of transactions differ nor that the next
one be free. -/
theorem not_unitsLandAndAreWritten : ¬ Obligations.UnitsLandAndAreWritten := by
  unfold Obligations.UnitsLandAndAreWritten
  rintro ⟨-, -, accepted⟩
  have atWork : Claims.atWork sharedNumber 0 := ⟨by decide, 0, rfl⟩
  obtain ⟨t, ht, -, -, -, -, gone⟩ := accepted sharedNumber ⟨0, 0, 0⟩ writingStream unitWrite unitOnTheWay rfl rfl rfl (by decide) rfl
    rfl rfl rfl sharedNumber_atTurn (by decide +kernel) rfl (by decide) sharedNumber_noScales sharedNumber_portsQuiet atWork
    sharedNumber_noTransfers
  obtain ⟨hwaits, hleft⟩ := acceptedAtSharedNumber_txns
  have hfab : t.fab = acceptedAtSharedNumber.fab := fab_of_onMem (f := outWritten ⟨0, 0, 0⟩ 3 .clean) ht rfl hwaits
  rw [← hfab] at hleft
  obtain ⟨v, hv, number⟩ := List.mem_map.1 (hleft ▸ List.mem_singleton_self _)
  exact gone v hv (congrArg Prod.fst number)

end Sys2Proof.Machine
end

section
/-! PROOFS. Fields of a 64-byte record or entry (R252 to R255): what a field reads after it, or another one, is replaced. -/

namespace Sys2Proof.Machine

open Sys2Proof

/-! ### Bits -/

theorem testBit_bitsOf (v hi lo i : Nat) : (bitsOf v hi lo).testBit i = (decide (i < hi + 1 - lo) && v.testBit (lo + i)) := by
  rw [bitsOf, Nat.testBit_mod_two_pow, Nat.testBit_div_two_pow, Nat.add_comm i]

/-- The bits of a number with a field replaced. -/
theorem testBit_setBits {v hi lo x : Nat} (order : lo ≤ hi) (i : Nat) :
    (setBits v hi lo x).testBit i = if lo ≤ i ∧ i ≤ hi then x.testBit (i - lo) else v.testBit i := by
  have low := Nat.mod_lt v (Nat.two_pow_pos lo)
  have field := Nat.mod_lt x (Nat.two_pow_pos (hi + 1 - lo))
  have whole : v = 2 ^ lo * (2 ^ (hi + 1 - lo) * (v / 2 ^ lo / 2 ^ (hi + 1 - lo)) + bitsOf v hi lo) + v % 2 ^ lo := by
    rw [bitsOf, Nat.div_add_mod, Nat.div_add_mod]
  have replaced : setBits v hi lo x =
      2 ^ lo * (2 ^ (hi + 1 - lo) * (v / 2 ^ lo / 2 ^ (hi + 1 - lo)) + x % 2 ^ (hi + 1 - lo)) + v % 2 ^ lo := by
    rw [setBits, Nat.mul_comm (bitsOf v hi lo), Nat.mul_comm (x % _)]
    conv_lhs => rw [whole]
    rw [Nat.mul_add, Nat.mul_add]
    have same : bitsOf (2 ^ lo * (2 ^ (hi + 1 - lo) * (v / 2 ^ lo / 2 ^ (hi + 1 - lo))) + 2 ^ lo * bitsOf v hi lo + v % 2 ^ lo) hi lo =
        bitsOf v hi lo := by rw [← Nat.mul_add, ← whole]
    rw [same]
    omega
  rw [replaced, Nat.testBit_two_pow_mul_add _ low]
  split
  · next below => rw [if_neg (by omega), Nat.testBit_mod_two_pow, decide_eq_true below, Bool.true_and]
  · next above =>
    rw [Nat.testBit_two_pow_mul_add _ field]
    split
    · rw [if_pos (by omega), Nat.testBit_mod_two_pow, decide_eq_true (by assumption), Bool.true_and]
    · rw [if_neg (by omega), Nat.testBit_div_two_pow, Nat.testBit_div_two_pow]
      congr 1
      omega

/-- A field replaced reads as its new value. -/
theorem bitsOf_setBits {v hi lo x : Nat} (order : lo ≤ hi) : bitsOf (setBits v hi lo x) hi lo = x % 2 ^ (hi + 1 - lo) := by
  refine Nat.eq_of_testBit_eq (fun i => ?_)
  rw [testBit_bitsOf, testBit_setBits order, Nat.testBit_mod_two_pow]
  by_cases inside : i < hi + 1 - lo
  · rw [if_pos (by omega), Nat.add_sub_cancel_left]
  · rw [decide_eq_false inside, Bool.false_and, Bool.false_and]

/-- Every other field reads as before. -/
theorem bitsOf_setBits_apart {v hi lo x a b : Nat} (order : lo ≤ hi) (other : a < lo ∨ hi < b) :
    bitsOf (setBits v hi lo x) a b = bitsOf v a b := by
  refine Nat.eq_of_testBit_eq (fun i => ?_)
  rw [testBit_bitsOf, testBit_bitsOf, testBit_setBits order]
  by_cases inside : i < a + 1 - b
  · rw [if_neg (by omega)]
  · rw [decide_eq_false inside, Bool.false_and, Bool.false_and]

/-- A field of 64 bytes replaced leaves 64 bytes. -/
theorem setBits_lt_entry {v hi lo : Nat} (bound : v < 256 ^ 64) (order : lo ≤ hi) (room : hi < 512) (x : Nat) :
    setBits v hi lo x < 256 ^ 64 := by
  have bytes : 256 ^ 64 = 2 ^ 512 := by rw [show (512 : Nat) = 8 * 64 from rfl, Nat.pow_mul]
  rw [bytes] at bound ⊢
  exact setBits_lt bound order room

/-! ### Sequence records -/

variable {v x y : Nat}

@[simp] theorem seqMoving_setMoving : seqMoving (setMoving v x) = x % 16 := bitsOf_setBits (by decide)

@[simp] theorem seqParked_setParked : seqParked (setParked v x) = x % 2 ^ 21 := bitsOf_setBits (by decide)

@[simp] theorem seqMoving_setParked : seqMoving (setParked v x) = seqMoving v := bitsOf_setBits_apart (by decide) (by decide)

@[simp] theorem seqParked_setMoving : seqParked (setMoving v x) = seqParked v := bitsOf_setBits_apart (by decide) (by decide)

@[simp] theorem seqParked_setFolios : seqParked (setFolios v x) = seqParked v := bitsOf_setBits_apart (by decide) (by decide)

theorem seqMoving_lt (v : Nat) : seqMoving v < 16 := Nat.mod_lt _ (by decide)

theorem seqParked_lt (v : Nat) : seqParked v < 2 ^ 21 := Nat.mod_lt _ (by decide)

theorem setParked_lt (bound : v < 256 ^ 64) (x : Nat) : setParked v x < 256 ^ 64 := setBits_lt_entry bound (by decide) (by decide) x

theorem setMoving_lt (bound : v < 256 ^ 64) (x : Nat) : setMoving v x < 256 ^ 64 := setBits_lt_entry bound (by decide) (by decide) x

theorem setSeqState_lt (bound : v < 256 ^ 64) (x : Nat) : setSeqState v x < 256 ^ 64 :=
  setBits_lt_entry bound (by decide) (by decide) x

theorem setFolios_lt (bound : v < 256 ^ 64) (x : Nat) : setFolios v x < 256 ^ 64 := setBits_lt_entry bound (by decide) (by decide) x

/-! ### Folio entries -/

theorem setTier_lt (bound : v < 256 ^ 64) (x : Nat) : setTier v x < 256 ^ 64 := setBits_lt_entry bound (by decide) (by decide) x

variable {tier addr window expiry : Nat}

theorem setPlace_lt (bound : v < 256 ^ 64) : setPlace v tier addr window expiry < 256 ^ 64 := by
  refine setBits_lt_entry (setBits_lt_entry (setBits_lt_entry (setBits_lt_entry bound ?_ ?_ _) ?_ ?_ _) ?_ ?_ _) ?_ ?_ _ <;> decide

@[simp] theorem folioTier_setPlace : folioTier (setPlace v tier addr window expiry) = tier % 8 := by
  rw [folioTier, setPlace, bitsOf_setBits_apart (by decide) (by decide), bitsOf_setBits_apart (by decide) (by decide),
    bitsOf_setBits_apart (by decide) (by decide), bitsOf_setBits (by decide)]
  rfl

@[simp] theorem folioPlace_setPlace : folioPlace (setPlace v tier addr window expiry) = addr % 2 ^ 64 := by
  rw [folioPlace, setPlace, bitsOf_setBits_apart (by decide) (by decide), bitsOf_setBits_apart (by decide) (by decide),
    bitsOf_setBits (by decide)]

@[simp] theorem folioWindow_setPlace : folioWindow (setPlace v tier addr window expiry) = window % 65536 := by
  rw [folioWindow, setPlace, bitsOf_setBits_apart (by decide) (by decide), bitsOf_setBits (by decide)]
  rfl

@[simp] theorem folioExpiry_setPlace : folioExpiry (setPlace v tier addr window expiry) = expiry % 2 ^ 64 := by
  rw [folioExpiry, setPlace, bitsOf_setBits (by decide)]

@[simp] theorem folioSeq_setPlace : folioSeq (setPlace v tier addr window expiry) = folioSeq v := by
  rw [folioSeq, setPlace, bitsOf_setBits_apart (by decide) (by decide), bitsOf_setBits_apart (by decide) (by decide),
    bitsOf_setBits_apart (by decide) (by decide), bitsOf_setBits_apart (by decide) (by decide)]
  rfl

theorem folioPlace_lt (v : Nat) : folioPlace v < 2 ^ 64 := Nat.mod_lt _ (by decide)

/-- An entry made of its fields. -/
def folioOf (addr q index home cls tier : Nat) : Nat :=
  addr * 2 ^ 448 + q * 2 ^ 368 + index * 2 ^ 352 + home * 2 ^ 333 + cls * 2 ^ 330 + tier * 2 ^ 327

/-- It reads as those fields, with no expiry and no peer window. -/
theorem folioOf_fields {q index home cls : Nat} (ha : addr < 2 ^ 64) (hq : q < 65536) (hi : index < 65536) (hh : home < 8)
    (hc : cls < 8) (ht : tier < 8) :
    let x := folioOf addr q index home cls tier
    x < 256 ^ 64 ∧ folioPlace x = addr ∧ folioExpiry x = 0 ∧ folioSeq x = q ∧ folioIndex x = index ∧ folioWindow x = 0 ∧
      folioHome x = home ∧ folioClass x = cls ∧ folioTier x = tier := by
  simp only [folioOf, folioPlace, folioExpiry, folioSeq, folioIndex, folioWindow, folioHome, folioClass, folioTier, bitsOf]
  norm_num only at *
  omega

end Sys2Proof.Machine
end

section
/-! PROOFS. The Rubric die's work on the tables of a partition (R251): records read and written where nothing stands in the way. It
draws slots, notes the keys of lines and dirty pages, and changes nothing that a later access asks for. -/

namespace Sys2Proof.Machine

open Sys2Proof Sys2Proof.Safety

variable {s : State} {w w' : W} {f g h : Fab} {p a n i : Nat}

/-! ### Slots drawn, and the dictionary above the slot counts -/

/-- The entries above the slot counts of the channels (0x3C40 to 0x3C47). -/
def Fab.SameUpper (f g : Fab) : Prop := ∀ i j, 0x3C48 ≤ i → g.dget i j = f.dget i j

theorem Fab.SameUpper.of_dict (same : g.dict = f.dict) : f.SameUpper g := fun i j _ => by rw [Fab.dget, Fab.dget, same]

theorem Fab.SameUpper.trans (first : f.SameUpper g) (second : g.SameUpper h) : f.SameUpper h :=
  fun i j hi => (second i j hi).trans (first i j hi)

theorem Fab.SameUpper.counted (same : f.SameUpper g) {b j : Nat} (hb : b < 8) (hj : j < 256) (n : Nat) :
    f.SameUpper (g.dadd (0x3C40 + b) j n) := by
  intro i k hi
  have other : dictKey i k ≠ dictKey (0x3C40 + b) j := by unfold dictKey; omega
  rw [Fab.dget_dadd, if_neg other, same i k hi]

theorem Fab.SameUpper.foldl {α : Type} {step : Fab → α → Fab} (hstep : ∀ (f : Fab) a, f.SameUpper (step f a)) (l : List α) (f : Fab) :
    f.SameUpper (l.foldl step f) := by
  induction l generalizing f with
  | nil => exact .of_dict rfl
  | cons a l ih => exact (hstep f a).trans (ih _)

theorem Fab.drawSlot_upper {ch : Nat} (hch : ch < 256) (s : SubShare) (n : Nat) (f : Fab) : f.SameUpper (Fab.drawSlot ch s n f) := by
  have die : ch / 32 < 8 := by omega
  have sub : s.index + 1 < 256 := by have := s.index_lt; omega
  induction n generalizing f with
  | zero => exact .of_dict rfl
  | succ n ih =>
    have passed : f.SameUpper { f with chans := f.chans.set ch ((f.chan ch).pass (f.planOf ch)) } := .of_dict rfl
    unfold Fab.drawSlot
    dsimp only
    split
    · exact passed.counted die sub 1
    · split
      · exact (SameUpper.counted (g := { f with chans := _ }) (.of_dict rfl) die sub 1).counted die (by decide) 1
      · exact passed.trans (ih _)

theorem Fab.rangeDone_upper (f : Fab) (s : SubShare) (p a n : Nat) (write : Bool) : f.SameUpper (f.rangeDone s p a n write) := by
  refine Fab.SameUpper.foldl (fun g l => ?_) _ f
  unfold Fab.lineDone
  split
  · next b o at_ =>
    have ch : 32 * b + (g.lineOf b o).1 < 256 := by
      have := (Fab.locate_lpddr_bounds at_).1
      have := g.lineOf_lt b o
      omega
    refine Fab.SameUpper.trans (.of_dict ?_) (Fab.SameUpper.foldl (fun g _ => Fab.drawSlot_upper ch s 16 g) _ _)
    unfold Fab.accessDone
    split
    · split <;> rfl
    · rfl
  · exact .of_dict rfl

/-- An access that is done, with no error to correct on its lines, draws its slots and does nothing else. -/
theorem W.access_of_ok {tag : Nat → Tag} {write : Bool} (ok : (w.access tag a n write).2 = .ok)
    (still : ∀ g part, w.fab.Served g → g.corrects part a n = g) :
    ∃ f, w.access tag a n write = ({ w with fab := f }, .ok) ∧ w.fab.Served f ∧ w.fab.SameUpper f := by
  have drawn := fun s q => And.intro (w.fab.rangeDone_served s q a n write) (w.fab.rangeDone_upper s q a n write)
  revert ok
  fun_cases W.access w tag a n write
  case case1 => exact fun _ => ⟨w.fab, rfl, .refl _, .of_dict rfl⟩
  case case4 => exact fun _ => ⟨_, rfl, drawn _ _⟩
  case case6 => exact fun _ => ⟨_, by rw [still _ _ (drawn _ _).1], drawn _ _⟩
  case case9 refused _ _ => exact fun ok => (refused ok).elim
  all_goals exact fun ok => nomatch ok

/-! ### A device whose tables are as they were -/

/-- The device but for what work on tables notes of its lines, its functions, the moves of its Ducti, its queue pairs and what goes
out. -/
def Fab.steady (f : Fab) : Fab := { f with lineKey := [], noivos := [], vfs := [], ductus := [], qps := [], netOut := [] }

/-- What work on tables leaves of what a later access asks for: it draws slots, and starts no checkpoint. -/
structure Fab.Tended (f g : Fab) : Prop where
  steady : f.steady.Served g.steady
  upper : f.SameUpper g
  idle : ∀ p, (f.noivosOf p).running = none → (g.noivosOf p).running = none

theorem Fab.Tended.trans (first : f.Tended g) (second : g.Tended h) : f.Tended h :=
  ⟨first.steady.trans second.steady, first.upper.trans second.upper, fun p idle => second.idle p (first.idle p idle)⟩

theorem Fab.Tended.of_served (served : f.Served g) (upper : f.SameUpper g) : f.Tended g where
  steady := ⟨congrArg Fab.steady served.rest, served.dget⟩
  upper := upper
  idle p idle := by
    have noivos : g.noivos = f.noivos := congrArg (·.noivos) served.rest
    rw [Fab.noivosOf, noivos]
    exact idle

/-- Notes of lines, functions, Ducti, queue pairs and what goes out are nothing an access asks for. -/
theorem Fab.Tended.of_steady (same : g.steady = f.steady) (idle : ∀ p, (f.noivosOf p).running = none → (g.noivosOf p).running = none) :
    f.Tended g where
  steady := same ▸ .refl _
  upper := .of_dict (congrArg (·.dict) same)
  idle := idle

theorem Fab.Tended.inForce (tended : f.Tended g) : g.inForce = f.inForce := congrArg (·.inForce) tended.steady.rest

theorem Fab.Tended.seqAddr (tended : f.Tended g) (p i : Nat) : g.seqAddr p i = f.seqAddr p i := Fab.seqAddr_of_inForce tended.inForce p i

theorem Fab.folioTable_of_inForce (h : g.inForce = f.inForce) (p : Nat) : g.folioTable p = f.folioTable p := by
  rw [Fab.folioTable, Fab.folioTable, Fab.eff, Fab.eff, Fab.eff, Fab.eff, h]

theorem Fab.folioAddr_of_inForce (h : g.inForce = f.inForce) (p i : Nat) : g.folioAddr p i = f.folioAddr p i := by
  rw [Fab.folioAddr, Fab.folioAddr, Fab.folioTable_of_inForce h]

theorem Fab.Tended.folioAddr (tended : f.Tended g) (p i : Nat) : g.folioAddr p i = f.folioAddr p i :=
  Fab.folioAddr_of_inForce tended.inForce p i

theorem Fab.Tended.now (tended : f.Tended g) : g.now = f.now := by
  have base : g.timeBase = f.timeBase := congrArg (·.timeBase) tended.steady.rest
  have cycle : g.cycle = f.cycle := congrArg (·.cycle) tended.steady.rest
  rw [Fab.now, Fab.now, base, cycle]

theorem Fab.Tended.locate (tended : f.Tended g) (own : Option Nat) (a : Nat) : g.locate own a = f.locate own a :=
  tended.steady.locate own a

theorem Fab.Tended.inWindows (tended : f.Tended g) (p a n : Nat) : g.inWindows p a n = f.inWindows p a n :=
  tended.steady.inWindows p a n

theorem Fab.Tended.faultless (tended : f.Tended g) (sound : f.faultless a n) : g.faultless a n :=
  tended.steady.faultless (f := f.steady) sound

theorem Fab.Tended.reachable (tended : f.Tended g) (reach : f.Reachable p a) : g.Reachable p a :=
  ⟨(tended.inWindows p a 64).trans reach.inside, tended.faultless reach.faultless, tended.idle p reach.idle,
    tended.steady.calm.trans reach.calm⟩

/-! ### A store to lines without an error -/

/-- A store whose lines hold no error makes none good: it notes the pages it makes dirty. -/
theorem Fab.noteWrite_of_faultless (sound : f.faultless a n) (p : Nat) : f.noteWrite p a n = f.dirty p a n := by
  have clean : ∀ l ∈ linesOf a n, f.repaired l = f ∧ f.corrects (some p) (64 * l) 64 = f := by
    intro l hl
    have soft : f.softLines.contains l = false := (sound l hl).2
    constructor
    · have kept : f.softLines.filter (· != l) = f.softLines := List.filter_eq_self.2 (fun x hx => by
        refine bne_iff_ne.2 (fun same => ?_)
        rw [← same, List.contains_iff_mem.2 hx] at soft
        cases soft)
      rw [Fab.repaired, kept]
    · refine Fab.corrects_of_faultless (fun k hk => ?_) _
      have line : k = l := by have := mem_linesOf.1 hk; omega
      exact line ▸ sound l hl
  have still : ∀ (ls whole : List Nat), (∀ l ∈ ls, l ∈ linesOf a n) →
      ls.foldl (fun g l => if whole.contains l then g.repaired l else g.corrects (some p) (64 * l) 64) f = f := by
    intro ls whole inside
    induction ls with
    | nil => rfl
    | cons l ls ih =>
      obtain ⟨repaired, corrected⟩ := clean l (inside l List.mem_cons_self)
      rw [List.foldl_cons, repaired, corrected, ite_self]
      exact ih (fun k hk => inside k (List.mem_cons_of_mem _ hk))
  have good : ∀ whole : List Nat, (∀ l ∈ whole, l ∈ linesOf a n) → f.badLines.filter (fun l => !whole.contains l) = f.badLines := by
    intro whole inside
    refine List.filter_eq_self.2 (fun x hx => ?_)
    cases held : whole.contains x with
    | false => rfl
    | true =>
      have bad := (sound x (inside x (List.contains_iff_mem.1 held))).1
      rw [List.contains_iff_mem.2 hx] at bad
      cases bad
  unfold Fab.noteWrite
  dsimp only
  rw [still _ _ (fun _ hl => hl), ite_self, good _ (fun _ hl => List.mem_of_mem_filter hl)]

theorem Fab.dirty_tended (f : Fab) (p a n : Nat) : (f.dirty p a n).steady = f.steady ∧
    ∀ q, ((f.dirty p a n).noivosOf q).running = (f.noivosOf q).running := by
  unfold Fab.dirty
  dsimp only
  split
  · exact ⟨rfl, fun _ => rfl⟩
  · refine ⟨rfl, fun q => ?_⟩
    rw [Fab.noivosOf, Tbl.get_set]
    split
    · next same => rw [same]
    · rfl

theorem W.rekeys_fab (p : Nat) (ls : List Nat) (w : W) :
    { (ls.foldl (fun x l => x.rekey p l) w).fab with lineKey := [] } = { w.fab with lineKey := [] } := by
  refine foldl_keeps (fun w : W => { w.fab with lineKey := [] }) (fun w l => ?_) ls w
  unfold W.rekey
  split
  · rfl
  · dsimp only [W.map]
    split
    · split
      · rfl
      · rw [W.puts_fab]
    · rfl

/-- A store to such lines changes keys and dirty pages of the device, and nothing else of it. -/
theorem W.store_fab {bytes : List Byte} (idle : (w.fab.noivosOf p).running = none) (sound : w.fab.faultless a bytes.length) :
    w.fab.Tended (w.store p a bytes).fab ∧ (w.store p a bytes).fab.vfs = w.fab.vfs ∧
      (w.store p a bytes).fab.ductus = w.fab.ductus := by
  have keyed := W.rekeys_fab p (linesOf a bytes.length) w
  rw [W.store_eq idle (fun l hl => (sound l hl).1)]
  generalize (linesOf a bytes.length).foldl (fun x l => x.rekey p l) w = v at keyed
  have bad : v.fab.badLines = w.fab.badLines := congrArg (·.badLines) keyed
  have soft : v.fab.softLines = w.fab.softLines := congrArg (·.softLines) keyed
  have noivos : v.fab.noivos = w.fab.noivos := congrArg (·.noivos) keyed
  have steady : v.fab.steady = w.fab.steady := (congrArg Fab.steady keyed :)
  have sound' : v.fab.faultless a bytes.length := fun l hl => by rw [bad, soft]; exact sound l hl
  obtain ⟨same, running⟩ := v.fab.dirty_tended p a bytes.length
  rw [W.map_fab, W.puts_fab, Fab.noteWrite_of_faultless sound']
  obtain ⟨vfs, ductus⟩ : (v.fab.dirty p a bytes.length).vfs = v.fab.vfs ∧ (v.fab.dirty p a bytes.length).ductus = v.fab.ductus := by
    unfold Fab.dirty
    dsimp only
    split <;> exact ⟨rfl, rfl⟩
  refine ⟨.of_steady (same.trans steady) (fun q idle => ?_), vfs.trans (congrArg (·.vfs) keyed),
    ductus.trans (congrArg (·.ductus) keyed)⟩
  rw [running, Fab.noivosOf, noivos]
  exact idle

end Sys2Proof.Machine
end

section
/-! PROOFS. Work on the records of a partition as a command does it (R251, R259): what it has read and written of the tables so far,
and what its command's next state shows of that. -/

namespace Sys2Proof.Machine

open Sys2Proof Sys2Proof.Safety

variable {s t : State} {w w' : W} {f g : Fab} {l : List (Nat × Nat)} {p a n i q v v' : Nat} {e : Entry}

/-! ### Records -/

theorem outside_of_apart {m x : Nat} (h : Claims.apart a n q m) (low : a ≤ x) (high : x < a + n) : x < q ∨ q + m ≤ x := by
  unfold Claims.apart at h
  omega

theorem outside_of_apart_right {m x : Nat} (h : Claims.apart a n q m) (low : q ≤ x) (high : x < q + m) : x < a ∨ a + n ≤ x :=
  outside_of_apart (Or.symm h) low high

theorem W.seq_lt (w : W) (p i : Nat) : w.seq p i < 256 ^ 64 := w.loadNat_lt p _ 64

theorem W.folio_lt (w : W) (p i : Nat) : w.folio p i < 256 ^ 64 := w.loadNat_lt p _ 64

/-- Work that began at state `s` with the functions and Ducti of `f`, and has written the ranges `l` of the tables of partition `p`:
every other byte reads as it did. -/
structure W.Tends (s : State) (f : Fab) (p : Nat) (l : List (Nat × Nat)) (w : W) : Prop where
  mem : w.mem = s.mem
  sec : w.sec = s.sec
  faults : w.faults = []
  waits : w.waits = false
  fab : s.fab.Tended w.fab
  vfs : w.fab.vfs = f.vfs
  ductus : w.fab.ductus = f.ductus
  out : l = [] → w.out = []
  kept : ∀ x, (∀ r ∈ l, x < r.1 ∨ r.1 + r.2 ≤ x) → w.load p x = (W.of s).load p x

/-- Work before it has read or written anything. -/
theorem W.tends_of (s : State) (p : Nat) : W.Tends s s.fab p [] (W.of s) where
  mem := rfl
  sec := rfl
  faults := rfl
  waits := rfl
  fab := .of_steady rfl (fun _ idle => idle)
  vfs := rfl
  ductus := rfl
  out _ := rfl
  kept _ _ := rfl

/-- A change of functions, Ducti, queue pairs and what goes out is nothing that tables ask for. -/
theorem W.Tends.map {k : Fab → Fab} (h : W.Tends s f p l w) (steady : (k w.fab).steady = w.fab.steady)
    (keys : (k w.fab).lineKey = w.fab.lineKey) (noivos : (k w.fab).noivos = w.fab.noivos) (vfs : (k w.fab).vfs = g.vfs)
    (ductus : (k w.fab).ductus = g.ductus) : W.Tends s g p l (w.map k) ∧ ∀ x, (w.map k).load p x = w.load p x := by
  have fills : (k w.fab).fills = w.fab.fills := congrArg (·.fills) steady
  have loads : ∀ x, (w.map k).load p x = w.load p x := fun x =>
    W.load_congr (by rw [Fab.keyOf, Fab.keyOf, W.map_fab, keys, fills]) rfl (fun _ _ => rfl)
  exact ⟨⟨h.mem, h.sec, h.faults, h.waits,
    h.fab.trans (.of_steady steady (fun p idle => by rw [Fab.noivosOf, W.map_fab, noivos]; exact idle)), vfs, ductus, h.out,
    fun x hx => (loads x).trans (h.kept x hx)⟩, loads⟩

theorem W.Tends.served (h : W.Tends s f p l w) (served : w.fab.Served g) (upper : w.fab.SameUpper g) :
    W.Tends s f p l { w with fab := g } where
  mem := h.mem
  sec := h.sec
  faults := h.faults
  waits := h.waits
  fab := h.fab.trans (.of_served served upper)
  vfs := (congrArg (·.vfs) served.rest : g.vfs = w.fab.vfs).trans h.vfs
  ductus := (congrArg (·.ductus) served.rest : g.ductus = w.fab.ductus).trans h.ductus
  out := h.out
  kept x hx := (W.load_served served x).trans (h.kept x hx)

/-- More ranges than were written may be named. -/
theorem W.Tends.mono {l' : List (Nat × Nat)} (h : W.Tends s f p l w) (sub : l ⊆ l') : W.Tends s f p l' w :=
  { h with
    out := fun none => h.out (List.eq_nil_of_subset_nil (none ▸ sub))
    kept := fun x hx => h.kept x (fun r hr => hx r (sub hr)) }

/-- A range apart from all that was written reads as it did. -/
theorem W.Tends.record (h : W.Tends s f p l w) (away : ∀ r ∈ l, Claims.apart r.1 r.2 a n) : w.loadNat p a n = (W.of s).loadNat p a n := by
  exact W.loadNat_congr (fun x low high => h.kept x (fun r hr => outside_of_apart_right (away r hr) low high))

/-- A range read or written by the Rubric die. -/
theorem W.Tends.rubricReach (h : W.Tends s f p l w) (reach : s.fab.Reachable p a) (write : Bool) :
    ∃ g, W.rubricReach p [(a, 64, write)] w = ({ w with fab := g }, .ok) ∧ W.Tends s f p l { w with fab := g } ∧
      ∀ x, ({ w with fab := g } : W).load p x = w.load p x := by
  have reach' := h.fab.reachable reach
  obtain ⟨_, done, _⟩ := W.access_done (w := w) (tag := fun d => w.fab.rubricTag p 0 d) (fun _ => rfl) (fun _ => rfl) (by decide)
    reach'.inside reach'.faultless reach'.calm write
  obtain ⟨g, access, served, upper⟩ := W.access_of_ok (congrArg (·.2) done)
    (fun _ part served => Fab.corrects_of_faultless (served.faultless reach'.faultless) part)
  refine ⟨g, ?_, h.served served upper, fun x => W.load_served served x⟩
  unfold W.rubricReach W.reach
  dsimp only
  rw [access, if_pos rfl]
  rfl

theorem W.Tends.readEntry (h : W.Tends s f p l w) (reach : s.fab.Reachable p a) :
    ∃ g, w.readEntry p a = ({ w with fab := g }, none) ∧ W.Tends s f p l { w with fab := g } ∧
      ∀ x, ({ w with fab := g } : W).load p x = w.load p x := by
  obtain ⟨g, read, tends, loads⟩ := h.rubricReach reach false
  refine ⟨g, ?_, tends, loads⟩
  rw [W.readEntry, if_pos (h.fab.reachable reach).inside, W.rubric, read]

theorem W.Tends.onSeq (h : W.Tends s f p l w) (reach : s.fab.Reachable p (s.fab.seqAddr p i))
    (away : ∀ r ∈ l, Claims.apart r.1 r.2 (s.fab.seqAddr p i) 64) :
    ∃ w', W.Tends s f p l w' ∧ (∀ x, w'.load p x = w.load p x) ∧ ∀ body, w.onSeq p i body = body ((W.of s).seq p i) w' := by
  obtain ⟨g, read, tends, loads⟩ := h.readEntry reach
  refine ⟨_, tends, loads, fun body => ?_⟩
  have record : ({ w with fab := g } : W).seq p i = (W.of s).seq p i := by
    rw [W.seq, tends.fab.seqAddr]; exact tends.record away
  rw [W.onSeq, h.fab.seqAddr, read]
  dsimp only
  rw [record]

theorem W.Tends.onFolio (h : W.Tends s f p l w) (reach : s.fab.Reachable p (s.fab.folioAddr p i))
    (away : ∀ r ∈ l, Claims.apart r.1 r.2 (s.fab.folioAddr p i) 64) :
    ∃ w', W.Tends s f p l w' ∧ (∀ x, w'.load p x = w.load p x) ∧ ∀ body, w.onFolio p i body = body ((W.of s).folio p i) w' := by
  obtain ⟨g, read, tends, loads⟩ := h.readEntry reach
  refine ⟨_, tends, loads, fun body => ?_⟩
  have record : ({ w with fab := g } : W).folio p i = (W.of s).folio p i := by
    rw [W.folio, tends.fab.folioAddr]; exact tends.record away
  rw [W.onFolio, h.fab.folioAddr, read]
  dsimp only
  rw [record]

/-- A command's read of a record that succeeds is the Rubric die's own. -/
theorem W.Tends.withSeq (h : W.Tends s f e.partition l w) (reach : s.fab.Reachable e.partition (s.fab.seqAddr e.partition i))
    (away : ∀ r ∈ l, Claims.apart r.1 r.2 (s.fab.seqAddr e.partition i) 64) :
    ∃ w', W.Tends s f e.partition l w' ∧ (∀ x, w'.load e.partition x = w.load e.partition x) ∧
      ∀ body, w.withSeq e i body = body ((W.of s).seq e.partition i) w' := by
  obtain ⟨g, read, -⟩ := h.readEntry reach
  obtain ⟨w', tends, loads, done⟩ := h.onSeq reach away
  refine ⟨w', tends, loads, fun body => ?_⟩
  rw [← done body, W.withSeq, W.onSeq, h.fab.seqAddr, read]

theorem W.Tends.withFolio (h : W.Tends s f e.partition l w) (reach : s.fab.Reachable e.partition (s.fab.folioAddr e.partition i))
    (away : ∀ r ∈ l, Claims.apart r.1 r.2 (s.fab.folioAddr e.partition i) 64) :
    ∃ w', W.Tends s f e.partition l w' ∧ (∀ x, w'.load e.partition x = w.load e.partition x) ∧
      ∀ body, w.withFolio e i body = body ((W.of s).folio e.partition i) w' := by
  obtain ⟨g, read, -⟩ := h.readEntry reach
  obtain ⟨w', tends, loads, done⟩ := h.onFolio reach away
  refine ⟨w', tends, loads, fun body => ?_⟩
  rw [← done body, W.withFolio, W.onFolio, h.fab.folioAddr, read]

/-- Bytes stored to lines without an error. -/
theorem W.Tends.store {bytes : List Byte} (h : W.Tends s f p l w) (idle : (s.fab.noivosOf p).running = none)
    (sound : s.fab.faultless a bytes.length) :
    W.Tends s f p (l ++ [(a, bytes.length)]) (w.store p a bytes) ∧
      ∀ x, (w.store p a bytes).load p x = if a ≤ x ∧ x < a + bytes.length then bytes.getD (x - a) 0 else w.load p x := by
  have idle' := h.fab.idle p idle
  have sound' := h.fab.faultless sound
  obtain ⟨loads, stored⟩ := W.store_spec (a := a) (bytes := bytes) idle' (fun k hk => (sound' k hk).1)
  obtain ⟨tended, vfs, ductus⟩ := W.store_fab idle' sound'
  refine ⟨⟨stored.mem.trans h.mem, stored.sec.trans h.sec, stored.faults.trans h.faults, stored.waits.trans h.waits,
    h.fab.trans tended, vfs.trans h.vfs, ductus.trans h.ductus, fun none => ?_, fun x hx => ?_⟩, loads⟩
  · exact absurd none (by simp)
  · have outside := hx (a, bytes.length) (by simp)
    rw [loads, if_neg (by dsimp only at outside; omega)]
    exact h.kept x (fun r hr => hx r (List.mem_append_left _ hr))

/-- An entry of a table written. -/
theorem W.Tends.putEntry (h : W.Tends s f p l w) (reach : s.fab.Reachable p a) (bound : v < 256 ^ 64) :
    W.Tends s f p (l ++ [(a, 64)]) (w.putEntry p a v) ∧ (w.putEntry p a v).loadNat p a 64 = v ∧
      ∀ x, x < a ∨ a + 64 ≤ x → (w.putEntry p a v).load p x = w.load p x := by
  obtain ⟨record, rest, -⟩ := W.putEntry_spec (h.fab.reachable reach) bound
  obtain ⟨g, done, tends, -⟩ := h.rubricReach reach true
  have length : (leBytes 64 v).length = 64 := leBytes_length 64 v
  obtain ⟨stored, -⟩ := tends.store (a := a) (bytes := leBytes 64 v) reach.idle (length ▸ reach.faultless)
  have put : w.putEntry p a v = ({ w with fab := g } : W).store p a (leBytes 64 v) := by rw [W.putEntry, done]; rfl
  rw [length, ← put] at stored
  exact ⟨stored, record, rest⟩

/-- The record of a sequence written. -/
theorem W.Tends.putSeq (h : W.Tends s f p l w) (reach : s.fab.Reachable p (s.fab.seqAddr p q)) (bound : v < 256 ^ 64) :
    W.Tends s f p (l ++ [(s.fab.seqAddr p q, 64)]) (w.putSeq p q v) ∧ (w.putSeq p q v).loadNat p (s.fab.seqAddr p q) 64 = v := by
  obtain ⟨tends, record, -⟩ := h.putEntry reach bound
  rw [W.putSeq, h.fab.seqAddr]
  exact ⟨tends, record⟩

/-- A folio entry written, and then the record of a sequence: both read as written. -/
theorem W.Tends.putRecords (h : W.Tends s f p l w) (reach : s.fab.Reachable p (s.fab.folioAddr p i))
    (reach' : s.fab.Reachable p (s.fab.seqAddr p q)) (apart : Claims.apart (s.fab.folioAddr p i) 64 (s.fab.seqAddr p q) 64)
    (bound : v < 256 ^ 64) (bound' : v' < 256 ^ 64) :
    W.Tends s f p (l ++ [(s.fab.folioAddr p i, 64), (s.fab.seqAddr p q, 64)]) ((w.putFolio p i v).putSeq p q v') ∧
      ((w.putFolio p i v).putSeq p q v').loadNat p (s.fab.folioAddr p i) 64 = v ∧
      ((w.putFolio p i v).putSeq p q v').loadNat p (s.fab.seqAddr p q) 64 = v' ∧
      ∀ x, (x < s.fab.folioAddr p i ∨ s.fab.folioAddr p i + 64 ≤ x) → (x < s.fab.seqAddr p q ∨ s.fab.seqAddr p q + 64 ≤ x) →
        ((w.putFolio p i v).putSeq p q v').load p x = w.load p x := by
  obtain ⟨first, folio, rest⟩ := h.putEntry reach bound
  obtain ⟨second, seq, rest'⟩ := first.putEntry reach' bound'
  have place : (w.putEntry p (s.fab.folioAddr p i) v).fab.seqAddr p q = s.fab.seqAddr p q := first.fab.seqAddr p q
  rw [W.putFolio, h.fab.folioAddr, W.putSeq, place]
  rw [List.append_assoc] at second
  refine ⟨second, ?_, seq, fun x hx hx' => (rest' x hx').trans (rest x hx)⟩
  exact (W.loadNat_congr (fun x low high => rest' x (outside_of_apart apart low high))).trans folio

/-! ### The next state -/

/-- What a command leaves of the tables of a partition: bytes outside the ranges it wrote read as they did, memory is as it was
where it wrote none, and records read as its work left them. -/
structure W.Leaves (w : W) (s t : State) (p : Nat) (l : List (Nat × Nat)) : Prop where
  mem : l = [] → t.mem = s.mem
  kept : Claims.MemKept s t p l
  load : ∀ x, (W.of t).load p x = w.load p x
  inForce : t.fab.inForce = s.fab.inForce

theorem W.Leaves.seq (h : W.Leaves w s t p l) (i : Nat) : (W.of t).seq p i = w.loadNat p (s.fab.seqAddr p i) 64 :=
  (congrArg (fun a => W.loadNat _ p a 64) (Fab.seqAddr_of_inForce h.inForce p i)).trans (W.loadNat_congr (fun x _ _ => h.load x))

theorem W.Leaves.folio (h : W.Leaves w s t p l) (i : Nat) : (W.of t).folio p i = w.loadNat p (s.fab.folioAddr p i) 64 :=
  (congrArg (fun a => W.loadNat _ p a 64) (Fab.folioAddr_of_inForce h.inForce p i)).trans (W.loadNat_congr (fun x _ _ => h.load x))

/-- A command whose work on tables ends with a change of the device that is nothing to memory. -/
theorem W.Tends.next {body : W → W} {g : Fab → Fab} (running : s.fab.phase = .running) (h : W.Tends s f p l w)
    (keys : (g w.fab).lineKey = w.fab.lineKey) (fills : (g w.fab).fills = w.fab.fills) (inForce : (g w.fab).inForce = w.fab.inForce)
    (ran : body (W.of s) = w.map g) :
    ∃ t, onMem s body = .next t ∧ t.fab = g w.fab ∧ t.sec = s.sec ∧ t.pending = s.pending ∧ W.Leaves w s t p l := by
  have loads : ∀ x, (W.of { s with mem := MemOp.applyAll s.mem w.out, fab := g w.fab }).load p x = w.load p x := fun x =>
    (W.load_next (w := w.map g) h.mem h.sec p x).trans
      (W.load_congr (by rw [Fab.keyOf, Fab.keyOf, W.map_fab, keys, fills]) rfl (fun _ _ => rfl))
  refine ⟨{ s with mem := MemOp.applyAll s.mem w.out, fab := g w.fab }, ?_, rfl, rfl, rfl, fun none => ?_, fun x hx => ?_, loads,
    inForce.trans h.fab.inForce⟩
  · rw [onMem_clean running (by rw [ran]; exact h.waits) (by rw [ran]; exact h.faults), ran]
    rfl
  · dsimp only
    rw [h.out none]
    rfl
  · exact (loads x).trans (h.kept x hx)

end Sys2Proof.Machine
end

section
/-! PROOFS. The completion of a ring command that is the next of its function (R391, R393, R395): what it leaves of its function, and
what it leaves alone. -/

namespace Sys2Proof.Machine

open Sys2Proof Sys2Proof.Safety

variable {s t : State} {w : W} {f g : Fab} {l : List (Nat × Nat)} {e : Entry} {op d : Nat} {st : HostStatus} {c : Instr} {body : W → W}

/-! ### The entry taken -/

/-- The device with the next fetched entry of a function taken. -/
def Fab.withTaken (f : Fab) (e : Entry) : Fab := f.onVf e.partition (fun v => { v with fetched := v.fetched.tail })

@[simp] theorem Fab.vf_onVf_same (f : Fab) (p : Nat) (k : Vf → Vf) : (f.onVf p k).vf p = k (f.vf p) := Tbl.get_set_same _ _ _ _

theorem Fab.vf_onVf_ne (f : Fab) {p q : Nat} (k : Vf → Vf) (h : q ≠ p) : (f.onVf p k).vf q = f.vf q := Tbl.get_set_ne _ _ _ h

theorem Fab.vf_of_vfs (h : g.vfs = f.vfs) (p : Nat) : g.vf p = f.vf p := congrArg (fun l : Tbl Vf => l.get .reset p) h

/-- The command of an entry is open, its completion will find room, and no counter entry waits for it (R393, R395). -/
structure Fab.Opened (f : Fab) (e : Entry) : Prop where
  room : (f.vf e.partition).queue.length < 4096
  free : (f.vf e.partition).ordered = []
  mine : (f.vf e.partition).openCmds.find? (isOpen e.opcode e.tag e.serial) = some (e, false)

theorem Fab.opened_of_isOpen (h : Claims.isOpen s e = true) : s.fab.Opened e := by
  simp only [Claims.isOpen, Bool.and_eq_true, List.isEmpty_iff, beq_iff_eq] at h
  obtain ⟨⟨room, free⟩, mine⟩ := h
  exact ⟨Nat.le_of_ble_eq_true room, free, mine⟩

theorem Fab.Opened.of_vfs (h : f.Opened e) (same : g.vfs = f.vfs) : g.Opened e := by
  have vf := Fab.vf_of_vfs same e.partition
  exact ⟨vf ▸ h.room, vf ▸ h.free, vf ▸ h.mine⟩

theorem Fab.Opened.withTaken (h : f.Opened e) : (f.withTaken e).Opened e := by
  obtain ⟨room, free, mine⟩ := h
  constructor <;> rw [Fab.withTaken, Fab.vf_onVf_same] <;> assumption

/-- An entry that is the next of its function is taken, and its command is open. -/
theorem front_spec (front : Claims.front s e op = true) :
    s.fab.phase = .running ∧ e.opcode = op ∧ s.fab.pop e = some (s.fab.withTaken e) ∧ s.fab.Opened e := by
  simp only [Claims.front, Bool.and_eq_true, beq_iff_eq] at front
  obtain ⟨⟨⟨⟨⟨⟨running, served⟩, code⟩, head⟩, room⟩, free⟩, mine⟩ := front
  refine ⟨running, code, ?_, Fab.opened_of_isOpen (by simp only [Claims.isOpen, room, free, mine, beq_self_eq_true, Bool.and_self])⟩
  obtain ⟨r, fetched⟩ : ∃ r, (s.fab.vf e.partition).fetched = e :: r := List.head?_eq_some_iff.1 head
  simp [Fab.pop, Fab.withTaken, Fab.onVf, served, fetched]

/-- The work of a ring command as it begins: its entry is taken. -/
def W.begun (s : State) (e : Entry) : W := { W.of s with fab := s.fab.withTaken e }

theorem W.tends_begun (s : State) (e : Entry) : W.Tends s (s.fab.withTaken e) e.partition [] (W.begun s e) :=
  ((W.tends_of s _).map (k := fun f => f.withTaken e) rfl rfl rfl rfl rfl).1

/-- The next entry of a served function, applied. -/
theorem W.ring_of_front (front : Claims.front s e op = true) (body : W → W) : (W.of s).ring e op body = body (W.begun s e) := by
  obtain ⟨-, code, pop, -⟩ := front_spec front
  have pop' : (W.of s).fab.pop e = some (s.fab.withTaken e) := pop
  rw [W.ring, if_pos code, pop']
  rfl

/-! ### The completion -/

/-- The completion of an open command is queued, and a BAD_COMMAND counted. -/
theorem Fab.Opened.completeEntry (h : f.Opened e) (st : HostStatus) (d : Nat) :
    f.completeEntry e st d = (if st = .badCommand then f.dadd 0xC011 (e.partition + 1) 1 else f).onVf e.partition (fun v =>
      { v with openCmds := removeFirst (isOpen e.opcode e.tag e.serial) v.openCmds,
               queue := v.queue ++ [⟨e.opcode, st.code, e.tag, d⟩] }) := by
  rw [Fab.completeEntry]
  have opened : (if st = .badCommand then f.dadd 0xC011 (e.partition + 1) 1 else f).Opened e := h.of_vfs (by split <;> rfl)
  generalize (if st = .badCommand then f.dadd 0xC011 (e.partition + 1) 1 else f) = g at opened ⊢
  rw [Fab.complete, opened.free, List.length_nil, Fab.flushOrdered, Fab.close, opened.mine]
  rw [Fab.queueCompletion]
  dsimp only
  rw [Fab.vf_onVf_same, if_pos opened.room]
  unfold Fab.onVf
  dsimp only
  rw [Tbl.set_set]
  congr 2
  rw [show Fab.vf { g with vfs := _ } e.partition = _ from Tbl.get_set_same _ _ _ _]

theorem Fab.Opened.completeEntry_vf (h : f.Opened e) (st : HostStatus) (d : Nat) :
    (f.completeEntry e st d).vf e.partition = { f.vf e.partition with
      openCmds := removeFirst (isOpen e.opcode e.tag e.serial) (f.vf e.partition).openCmds,
      queue := (f.vf e.partition).queue ++ [⟨e.opcode, st.code, e.tag, d⟩] } ∧
    ∀ q, q ≠ e.partition → (f.completeEntry e st d).vf q = f.vf q := by
  have same : (if st = .badCommand then f.dadd 0xC011 (e.partition + 1) 1 else f).vfs = f.vfs := by split <;> rfl
  rw [h.completeEntry st d]
  refine ⟨?_, fun q other => ?_⟩
  · rw [Fab.vf_onVf_same, Fab.vf_of_vfs same]
  · rw [Fab.vf_onVf_ne _ _ other, Fab.vf_of_vfs same]

/-- It changes functions and the count of bad commands, and nothing else. -/
theorem Fab.Opened.completeEntry_rest (h : f.Opened e) (st : HostStatus) (d : Nat) :
    { f.completeEntry e st d with vfs := [], dict := [] } = { f with vfs := [], dict := [] } := by
  rw [h.completeEntry st d]
  split <;> rfl

/-- Work on tables that its command ends with a status. -/
theorem W.Tends.ends {p : Nat} (running : s.fab.phase = .running) (opened : f.Opened e) (h : W.Tends s f p l w)
    (ran : body (W.of s) = w.ends e st d) :
    ∃ t, onMem s body = .next t ∧ t.fab = w.fab.completeEntry e st d ∧ t.sec = s.sec ∧ w.fab.Opened e ∧ W.Leaves w s t p l := by
  have opened' := opened.of_vfs h.vfs
  have rest := opened'.completeEntry_rest st d
  obtain ⟨t, next, fab, sec, -, leaves⟩ := h.next (g := fun f => f.completeEntry e st d) running (congrArg (·.lineKey) rest :)
    (congrArg (·.fills) rest :) (congrArg (·.inForce) rest :) ran
  exact ⟨t, next, fab, sec, opened', leaves⟩

/-- A command of the ring that ends with a status. -/
theorem W.Tends.completes (front : Claims.front s e op = true) (h : W.Tends s (s.fab.withTaken e) e.partition l w)
    (lift : exec c s = onMem s body) (ran : body (W.of s) = w.ends e st) :
    ∃ t, exec c s = .next t ∧ Claims.Completed s t e st.code 0 ∧ W.Leaves w s t e.partition l := by
  obtain ⟨running, -, -, opened⟩ := front_spec front
  obtain ⟨t, next, fab, sec, opened', leaves⟩ := h.ends running opened.withTaken ran
  obtain ⟨own, others⟩ := opened'.completeEntry_vf st 0
  rw [← fab, Fab.vf_of_vfs h.vfs, Fab.withTaken, Fab.vf_onVf_same] at own
  refine ⟨t, lift.trans next, ⟨by rw [own], by rw [own], by rw [own], fun q other => ?_, sec⟩, leaves⟩
  rw [fab, others q other, Fab.vf_of_vfs h.vfs, Fab.withTaken, Fab.vf_onVf_ne _ _ other]

/-- A command of the ring that is refused before it has written anything. -/
theorem W.Tends.refuses (front : Claims.front s e op = true) (h : W.Tends s (s.fab.withTaken e) e.partition [] w)
    (lift : exec c s = onMem s body) (ran : body (W.of s) = w.ends e st) :
    ∃ t, exec c s = .next t ∧ Claims.Completed s t e st.code 0 ∧ t.mem = s.mem := by
  obtain ⟨t, next, completed, leaves⟩ := h.completes front lift ran
  exact ⟨t, next, completed, leaves.mem rfl⟩

/-- An open command that its completion answers. -/
theorem W.Tends.answers {p : Nat} (running : s.fab.phase = .running) (mine : Claims.isOpen s e = true)
    (h : W.Tends s f p l w) (vfs : f.vfs = s.fab.vfs) (ran : body (W.of s) = w.ends e st) :
    ∃ t, onMem s body = .next t ∧ Claims.Answered s t e st.code 0 ∧ t.fab.ductus = w.fab.ductus ∧ W.Leaves w s t p l := by
  obtain ⟨t, next, fab, sec, opened, leaves⟩ := h.ends running ((Fab.opened_of_isOpen mine).of_vfs vfs) ran
  obtain ⟨own, others⟩ := opened.completeEntry_vf st 0
  have same := h.vfs.trans vfs
  rw [← fab, Fab.vf_of_vfs same] at own
  refine ⟨t, next, ⟨by rw [own], by rw [own], by rw [own], fun q other => ?_, sec⟩, ?_, leaves⟩
  · rw [fab, others q other, Fab.vf_of_vfs same]
  · rw [fab]
    exact (congrArg (·.ductus) (opened.completeEntry_rest st 0) :)

end Sys2Proof.Machine
end

section
/-! PROOFS. Sequences open and close, folios are allocated and freed (O33): what each command makes of the records it reads (R251,
R253, R255, R259, R260). -/

namespace Sys2Proof.Machine

open Sys2Proof Sys2Proof.Safety

variable {s : State} {e : Entry} {f g : Fab} {p n : Nat}

/-! ### Operands -/

theorem bitsOf_zero (v hi : Nat) : bitsOf v hi 0 = v % 2 ^ (hi + 1) := by rw [bitsOf, Nat.pow_zero, Nat.div_one]; rfl

theorem entrySeq_eq (v : Nat) : bitsOf v 15 0 = v % 65536 := bitsOf_zero v 15

theorem entryFolio_eq (e : Entry) : entryFolio e = word e 0 % 2 ^ 32 := bitsOf_zero _ _

theorem parked_iff {t : Nat} : parked t = true ↔ t = 3 ∨ t = 4 := by simp [parked]

theorem W.begun_seqTable (s : State) (e : Entry) (p : Nat) : (W.begun s e).fab.seqTable p = s.fab.seqTable p := rfl

theorem W.begun_folioTable (s : State) (e : Entry) (p : Nat) : (W.begun s e).fab.folioTable p = s.fab.folioTable p := rfl

theorem W.begun_entrySize (s : State) (e : Entry) (p c : Nat) : (W.begun s e).fab.entrySize p c = s.fab.entrySize p c := rfl

theorem Fab.Tended.folioRange (tended : f.Tended g) (p b tier a n : Nat) : g.folioRange p b tier a n = f.folioRange p b tier a n := by
  rw [Fab.folioRange, Fab.folioRange, tended.inWindows, tended.locate, tended.locate]

/-! ### Sequences -/

theorem seqOpen_past (front : Claims.front s e 0x10 = true) (past : (s.fab.seqTable e.partition).2 ≤ word e 0 % 65536) :
    seqOpen e (W.of s) = (W.begun s e).ends e .badCommand := by
  rw [seqOpen, W.ring_of_front front]
  dsimp only
  rw [entrySeq_eq, W.begun_seqTable, if_pos past]

/-- SEQ_OPEN of a record that can be reached. -/
theorem seqOpen_of_front (front : Claims.front s e 0x10 = true) :
    let p := e.partition
    let i := word e 0 % 65536
    let v := (W.of s).seq p i
    i < (s.fab.seqTable p).2 → s.fab.Reachable p (s.fab.seqAddr p i) →
    ∃ w, W.Tends s (s.fab.withTaken e) p [] w ∧ seqOpen e (W.of s) =
      if seqState v = 0 ∨ (seqState v = 2 ∧ seqFolios v = 0) then
        (w.putSeq p i (word e 1 % 2 ^ 64 * 2 ^ 448 + 2 ^ 341)).ends e .done
      else w.ends e .seqState := by
  intro p i v inTable reach
  obtain ⟨w, tends, -, read⟩ := (W.tends_begun s e).withSeq reach (fun _ none => nomatch none)
  refine ⟨w, tends, ?_⟩
  rw [seqOpen, W.ring_of_front front]
  dsimp only
  rw [entrySeq_eq, W.begun_seqTable, if_neg (Nat.not_le.2 inTable), read]

/-- SEQ_CLOSE of a record that can be reached. -/
theorem seqClose_of_front (front : Claims.front s e 0x11 = true) :
    let p := e.partition
    let i := word e 0 % 65536
    let v := (W.of s).seq p i
    i < (s.fab.seqTable p).2 → s.fab.Reachable p (s.fab.seqAddr p i) →
    ∃ w, W.Tends s (s.fab.withTaken e) p [] w ∧ seqClose e (W.of s) =
      if ¬((seqState v = 1 ∨ seqState v = 2) ∧ seqFolios v = 0) then w.ends e .seqState
      else if seqAttach v ≠ 0 then w.ends e .folioBusy
      else (w.putSeq p i (setSeqState v 0)).ends e .done := by
  intro p i v inTable reach
  obtain ⟨w, tends, -, read⟩ := (W.tends_begun s e).withSeq reach (fun _ none => nomatch none)
  refine ⟨w, tends, ?_⟩
  rw [seqClose, W.ring_of_front front]
  dsimp only
  rw [entrySeq_eq, W.begun_seqTable, if_neg (Nat.not_le.2 inTable), read]
  refine if_congr ?_ rfl rfl
  simp [imp_iff_not_or]
  rfl

/-! ### Folios -/

/-- FOLIO_ALLOC of an entry and a record that can be reached, with operands that are no BAD_COMMAND. -/
theorem folioAlloc_of_front (front : Claims.front s e 0x12 = true) :
    let p := e.partition
    let i := word e 0 % 2 ^ 32
    let q := word e 1 % 65536
    let home := word e 1 / 2 ^ 32 % 8
    let cls := word e 1 / 2 ^ 35 % 8
    let tier := word e 1 / 2 ^ 38 % 8
    let v := (W.of s).folio p i
    let r := (W.of s).seq p q
    i < (s.fab.folioTable p).2 → q < (s.fab.seqTable p).2 → (tier = 1 ∨ tier = 2) → s.fab.entrySize p cls ≠ 0 → word e 2 % 64 = 0 →
    s.fab.Reachable p (s.fab.folioAddr p i) → s.fab.Reachable p (s.fab.seqAddr p q) →
    ∃ w, W.Tends s (s.fab.withTaken e) p [] w ∧ folioAlloc e (W.of s) =
      if seqState r ≠ 1 then w.ends e .seqState
      else if folioTier v = 5 then w.ends e .folioBusy
      else if folioTier v ≠ 0 then w.ends e .folioState
      else if !s.fab.folioRange p home tier (word e 2) (64 * s.fab.entrySize p cls) then w.ends e .outOfMap
      else ((w.putFolio p i (folioOf (word e 2) q (word e 1 / 65536 % 65536) home cls tier)).putSeq p q
        (setFolios r (seqFolios r + 1))).ends e .done := by
  intro p i q home cls tier v r inTable inTable' hot size aligned reach reach'
  obtain ⟨w, tends, -, read⟩ := (W.tends_begun s e).withFolio reach (fun _ none => nomatch none)
  obtain ⟨w', tends', -, read'⟩ := tends.withSeq reach' (fun _ none => nomatch none)
  refine ⟨w', tends', ?_⟩
  have stays : resident (entryTier e) = true := by
    change (tier == 1 || tier == 2) = true
    rcases hot with hot | hot <;> rw [hot] <;> rfl
  have good : ¬((s.fab.folioTable p).2 ≤ i ∨ (s.fab.seqTable p).2 ≤ q ∨ (!resident (entryTier e)) = true ∨
      s.fab.entrySize p (bitsOf (word e 1) 37 35) = 0 ∨ word e 2 % 64 ≠ 0) := by
    rintro (past | past | other | zero | odd)
    · omega
    · omega
    · rw [stays] at other; cases other
    · exact size zero
    · exact odd aligned
  rw [folioAlloc, W.ring_of_front front]
  dsimp only
  rw [entrySeq_eq, entryFolio_eq, W.begun_seqTable, W.begun_folioTable, W.begun_entrySize, if_neg good, read, read',
    tends'.fab.folioRange]
  rfl

/-- FOLIO_FREE of an entry that can be reached. -/
theorem folioFree_of_front (front : Claims.front s e 0x16 = true) :
    let p := e.partition
    let i := word e 0 % 2 ^ 32
    let v := (W.of s).folio p i
    let r := (W.of s).seq p (folioSeq v)
    i < (s.fab.folioTable p).2 → s.fab.Reachable p (s.fab.folioAddr p i) →
    (folioTier v = 0 → ∃ w, W.Tends s (s.fab.withTaken e) p [] w ∧ folioFree e (W.of s) = w.ends e .folioState) ∧
    (folioTier v ≠ 0 → folioTier v ≠ 7 → s.fab.Reachable p (s.fab.seqAddr p (folioSeq v)) →
      ∃ w, W.Tends s (s.fab.withTaken e) p [] w ∧ folioFree e (W.of s) =
        if folioTier v = 5 ∨ seqAttach r ≠ 0 then w.ends e .folioBusy
        else ((w.putFolio p i (setPlace v 0 (folioPlace v) (folioWindow v) 0)).putSeq p (folioSeq v)
          (if folioTier v = 3 ∨ folioTier v = 4 then setParked (setFolios r (seqFolios r - 1)) (seqParked r - 1)
            else setFolios r (seqFolios r - 1))).ends e .done) := by
  intro p i v r inTable reach
  obtain ⟨w, tends, -, read⟩ := (W.tends_begun s e).withFolio reach (fun _ none => nomatch none)
  rw [folioFree, W.ring_of_front front]
  dsimp only
  rw [entryFolio_eq, W.begun_folioTable, if_neg (Nat.not_le.2 inTable), read]
  refine ⟨fun free => ⟨w, tends, if_pos (.inl free)⟩, fun held known reach' => ?_⟩
  obtain ⟨w', tends', -, read'⟩ := tends.withSeq reach' (fun _ none => nomatch none)
  refine ⟨w', tends', ?_⟩
  rw [if_neg (not_or.2 ⟨held, known⟩), read', seqParked_setFolios]
  simp only [parked_iff]
  rfl

/-! ### The statement -/

/-- FOLIO_ALLOC that goes through: the entry reads as its operands, and the sequence has one folio more. -/
theorem exec_folioAlloc (front : Claims.front s e 0x12 = true) (bound : word e 2 < 2 ^ 64) {w : W} :
    let p := e.partition
    let i := word e 0 % 2 ^ 32
    let q := word e 1 % 65536
    let home := word e 1 / 2 ^ 32 % 8
    let cls := word e 1 / 2 ^ 35 % 8
    let tier := word e 1 / 2 ^ 38 % 8
    let fa := s.fab.folioAddr p i
    let sa := s.fab.seqAddr p q
    let r := (W.of s).seq p q
    s.fab.Reachable p fa → s.fab.Reachable p sa → Claims.apart fa 64 sa 64 → W.Tends s (s.fab.withTaken e) p [] w →
    folioAlloc e (W.of s) = ((w.putFolio p i (folioOf (word e 2) q (word e 1 / 65536 % 65536) home cls tier)).putSeq p q
      (setFolios r (seqFolios r + 1))).ends e .done →
    ∃ t, exec (.folioAlloc e) s = .next t ∧ Claims.Completed s t e 0 0 ∧ Claims.MemKept s t p [(fa, 64), (sa, 64)] ∧
      (let x := (W.of t).folio p i
       folioPlace x = word e 2 ∧ folioExpiry x = 0 ∧ folioSeq x = q ∧ folioIndex x = word e 1 / 65536 % 65536 ∧
       folioWindow x = 0 ∧ folioHome x = home ∧ folioClass x = cls ∧ folioTier x = tier) ∧
      (W.of t).seq p q = setFolios r (seqFolios r + 1) := by
  intro p i q home cls tier fa sa r reach reach' apart tends ran
  obtain ⟨short, fields⟩ := folioOf_fields bound (Nat.mod_lt _ (by decide) : q < 65536)
    (Nat.mod_lt _ (by decide) : word e 1 / 65536 % 65536 < 65536) (Nat.mod_lt _ (by decide) : home < 8)
    (Nat.mod_lt _ (by decide) : cls < 8) (Nat.mod_lt _ (by decide) : tier < 8)
  obtain ⟨tends', entry, record, -⟩ := tends.putRecords reach reach' apart short (setFolios_lt (W.seq_lt _ _ _) (seqFolios r + 1))
  obtain ⟨t, next, completed, leaves⟩ := tends'.completes front (c := .folioAlloc e) rfl ran
  refine ⟨t, next, completed, leaves.kept, ?_, (leaves.seq q).trans record⟩
  dsimp only
  rw [(leaves.folio i).trans entry]
  exact fields

/-- FOLIO_FREE that goes through: the entry is free where it stood, and its sequence's counts fall. -/
theorem exec_folioFree (front : Claims.front s e 0x16 = true) {w : W} {r : Nat} :
    let p := e.partition
    let i := word e 0 % 2 ^ 32
    let v := (W.of s).folio p i
    let q := folioSeq v
    let fa := s.fab.folioAddr p i
    let sa := s.fab.seqAddr p q
    s.fab.Reachable p fa → s.fab.Reachable p sa → Claims.apart fa 64 sa 64 → r < 256 ^ 64 → W.Tends s (s.fab.withTaken e) p [] w →
    folioFree e (W.of s) = ((w.putFolio p i (setPlace v 0 (folioPlace v) (folioWindow v) 0)).putSeq p q r).ends e .done →
    ∃ t, exec (.folioFree e) s = .next t ∧ Claims.Completed s t e 0 0 ∧ Claims.MemKept s t p [(fa, 64), (sa, 64)] ∧
      (let x := (W.of t).folio p i
       folioTier x = 0 ∧ folioExpiry x = 0 ∧ folioPlace x = folioPlace v ∧ folioSeq x = q) ∧
      (W.of t).seq p q = r := by
  intro p i v q fa sa reach reach' apart bound tends ran
  obtain ⟨tends', entry, record, -⟩ := tends.putRecords reach reach' apart (setPlace_lt (W.folio_lt _ _ _)) bound
  obtain ⟨t, next, completed, leaves⟩ := tends'.completes front (c := .folioFree e) rfl ran
  refine ⟨t, next, completed, leaves.kept, ?_, (leaves.seq q).trans record⟩
  dsimp only
  rw [(leaves.folio i).trans entry, folioTier_setPlace, folioExpiry_setPlace, folioPlace_setPlace, folioSeq_setPlace,
    Nat.mod_eq_of_lt (folioPlace_lt v)]
  exact ⟨rfl, rfl, rfl, rfl⟩

/-- Settles O33: each command ends as its lemma above says, on records that its work leaves readable (`W.Tends.completes`). -/
theorem sequencesAndFoliosAreOpenedAndFreed : Obligations.SequencesAndFoliosAreOpenedAndFreed := by
  unfold Obligations.SequencesAndFoliosAreOpenedAndFreed
  refine ⟨fun s e => ⟨fun front => ⟨fun past => ?seqOpenPast, fun inTable readable => ?seqOpen⟩,
    fun front inTable readable => ?seqClose⟩, fun s e inTable readable =>
    ⟨fun front inTable' hot size aligned bound readable' apart => ?folioAlloc, fun front => ?folioFree⟩⟩
  case seqOpenPast => exact (W.tends_begun s e).refuses front (c := .seqOpen e) rfl (seqOpen_past front past)
  case seqOpen =>
    have reach := Fab.reachable_of_readable readable
    obtain ⟨w, tends, ran⟩ := seqOpen_of_front front inTable reach
    refine ⟨fun free => ?_, fun held => ?_⟩
    · rw [if_pos free] at ran
      obtain ⟨tends', record⟩ := tends.putSeq reach (v := word e 1 % 2 ^ 64 * 2 ^ 448 + 2 ^ 341) (by omega)
      obtain ⟨t, next, completed, leaves⟩ := tends'.completes front (c := .seqOpen e) rfl ran
      exact ⟨t, next, completed, leaves.kept, (leaves.seq _).trans record⟩
    · rw [if_neg held] at ran
      exact tends.refuses front (c := .seqOpen e) rfl ran
  case seqClose =>
    have reach := Fab.reachable_of_readable readable
    obtain ⟨w, tends, ran⟩ := seqClose_of_front front inTable reach
    refine ⟨fun known empty idle => ?_, fun other => ?_, fun known empty busy => ?_⟩
    · rw [if_neg (not_not.2 ⟨known, empty⟩), if_neg (not_not.2 idle)] at ran
      obtain ⟨tends', record⟩ := tends.putSeq reach (setSeqState_lt (W.seq_lt _ _ _) 0)
      obtain ⟨t, next, completed, leaves⟩ := tends'.completes front (c := .seqClose e) rfl ran
      exact ⟨t, next, completed, leaves.kept, (leaves.seq _).trans record⟩
    · rw [if_pos (fun known => by omega)] at ran
      exact tends.refuses front (c := .seqClose e) rfl ran
    · rw [if_neg (not_not.2 ⟨known, empty⟩), if_pos busy] at ran
      exact tends.refuses front (c := .seqClose e) rfl ran
  case folioAlloc =>
    have reach := Fab.reachable_of_readable readable
    have reach' := Fab.reachable_of_readable readable'
    obtain ⟨w, tends, ran⟩ := folioAlloc_of_front front inTable inTable' hot size aligned reach reach'
    refine ⟨fun opened free inside => ?_, fun other => ?_, fun opened moving => ?_, fun opened held still => ?_⟩
    · rw [if_neg (not_not.2 opened), if_neg (by rw [free]; decide), if_neg (not_not.2 free), inside, if_neg (by decide)] at ran
      exact exec_folioAlloc front bound reach reach' apart tends ran
    · rw [if_pos other] at ran
      exact tends.refuses front (c := .folioAlloc e) rfl ran
    · rw [if_neg (not_not.2 opened), if_pos moving] at ran
      exact tends.refuses front (c := .folioAlloc e) rfl ran
    · rw [if_neg (not_not.2 opened), if_neg still, if_pos held] at ran
      exact tends.refuses front (c := .folioAlloc e) rfl ran
  case folioFree =>
    have reach := Fab.reachable_of_readable readable
    obtain ⟨free, held⟩ := folioFree_of_front front inTable reach
    refine ⟨fun tier => ?_, fun tier known readable' apart => ?_⟩
    · obtain ⟨w, tends, ran⟩ := free tier
      exact tends.refuses front (c := .folioFree e) rfl ran
    · have reach' := Fab.reachable_of_readable readable'
      obtain ⟨w, tends, ran⟩ := held tier known reach'
      refine ⟨fun busy => ?_, fun still idle => ?_⟩
      · rw [if_pos busy] at ran
        exact tends.refuses front (c := .folioFree e) rfl ran
      · rw [if_neg (not_or.2 ⟨still, not_not.2 idle⟩)] at ran
        refine exec_folioFree front reach reach' apart ?_ tends ran
        split
        · exact setParked_lt (setFolios_lt (W.seq_lt _ _ _) _) _
        · exact setFolios_lt (W.seq_lt _ _ _) _

end Sys2Proof.Machine
end

section
/-! PROOFS. Moves of folios start (O34): the checks of R260 and what a move leaves as it starts or waits (R261, R332). -/

namespace Sys2Proof.Machine

open Sys2Proof Sys2Proof.Safety

variable {s : State} {w : W} {f g : Fab} {e : Entry} {c : Instr} {body : W → W} {l : List (Nat × Nat)} {op : Nat}

/-! ### What the checks ask for -/

theorem Fab.Tended.entrySize (tended : f.Tended g) (p c : Nat) : g.entrySize p c = f.entrySize p c := by
  rw [Fab.entrySize, Fab.entrySize, Fab.eff, Fab.eff, tended.inForce]

theorem Fab.Tended.parkRange (tended : f.Tended g) (p : Nat) (peer : Bool) (window a n : Nat) (write : Bool) :
    g.parkRange p peer window a n write = f.parkRange p peer window a n write := by
  have scopes : g.scopes = f.scopes := congrArg (·.scopes) tended.steady.rest
  rw [Fab.parkRange, Fab.parkRange, Fab.inHostWindow, Fab.inHostWindow, Fab.scope, Fab.scope, scopes]

theorem Fab.Tended.moveCheck (tended : f.Tended g) (e : Entry) (v r : Nat) : g.moveCheck e v r = f.moveCheck e v r := by
  simp only [Fab.moveCheck, tended.entrySize, tended.parkRange, tended.folioRange, tended.now]

theorem Fab.Tended.moveOf (tended : f.Tended g) (e : Entry) (v r : Nat) : g.moveOf e v r = f.moveOf e v r := by
  simp only [Fab.moveOf, tended.entrySize, tended.upper 0x7040 (e.partition + 1) (by decide)]

/-! ### Ducti -/

@[simp] theorem Fab.ductusOf_onDuctus_same (f : Fab) (b : Nat) (k : Ductus → Ductus) :
    (f.onDuctus b k).ductusOf b = k (f.ductusOf b) := Tbl.get_set_same _ _ _ _

theorem Fab.ductusOf_of_ductus (h : g.ductus = f.ductus) (b : Nat) : g.ductusOf b = f.ductusOf b :=
  congrArg (fun l : Tbl Ductus => l.get .idle b) h

/-- A change of a Ductus in the course of work on tables. -/
theorem W.Tends.onDuctus {p : Nat} (h : W.Tends s f p l w) (b : Nat) (k : Ductus → Ductus) :
    W.Tends s (f.onDuctus b k) p l (w.map (fun f => f.onDuctus b k)) ∧
      ∀ x, (w.map (fun f => f.onDuctus b k)).load p x = w.load p x :=
  h.map rfl rfl rfl h.vfs (by rw [Fab.onDuctus, Fab.onDuctus, Fab.ductusOf_of_ductus h.ductus, h.ductus])

/-! ### Requests that go out -/

/-- The device but for its queue pairs and what goes out. -/
def Fab.unwired (f : Fab) : Fab := { f with qps := [], netOut := [] }

theorem Fab.ductus_of_unwired (h : g.unwired = f.unwired) : g.ductus = f.ductus := congrArg (·.ductus) h

theorem Fab.qpPump_unwired (p i n : Nat) (f : Fab) : (Fab.qpPump p i n f).unwired = f.unwired := by
  induction n generalizing f with
  | zero => rfl
  | succ n ih =>
    unfold Fab.qpPump
    dsimp only
    split
    · split
      · rfl
      · exact ih _
    · rfl

theorem Fab.rdmaSend_unwired (f : Fab) (p i : Nat) (r : RdmaOut) : (f.rdmaSend p i r).unwired = f.unwired := Fab.qpPump_unwired _ _ _ _

theorem Fab.qpDone_unwired (f : Fab) (p i offset : Nat) (write : Bool) : (f.qpDone p i offset write).unwired = f.unwired :=
  Fab.qpPump_unwired _ _ _ _

/-- Work on tables goes on beside what goes out. -/
theorem W.Tends.mapUnwired {k : Fab → Fab} {p : Nat} (h : W.Tends s f p l w) (same : (k w.fab).unwired = w.fab.unwired) :
    W.Tends s f p l (w.map k) ∧ ∀ x, (w.map k).load p x = w.load p x :=
  h.map (congrArg Fab.steady same :) (congrArg (·.lineKey) same :) (congrArg (·.noivos) same :)
    ((congrArg (·.vfs) same : (k w.fab).vfs = w.fab.vfs).trans h.vfs) ((Fab.ductus_of_unwired same).trans h.ductus)

/-- The read that a move asks of a peer or of the host, for a folio parked there. -/
def Fab.fetchFor (f : Fab) (m : FolioMove) : Fab :=
  if m.oldTier = 4 then f.rdmaRead m.home m.entry.partition m.peerWindow (f.endpointEntry m.entry.partition m.peerWindow) m.oldAddr m.bytes
  else if m.oldTier = 3 then { f with netOut := f.netOut ++ [.hostRead m.entry.partition m.oldAddr m.bytes] }
  else f

theorem Fab.fetchFor_unwired (f : Fab) (m : FolioMove) : (f.fetchFor m).unwired = f.unwired := by
  unfold Fab.fetchFor
  split
  · exact Fab.rdmaSend_unwired _ _ _ _
  · split <;> rfl

/-! ### The start of a move -/

/-- The record of a sequence as a move of a folio of a tier starts. -/
def recordMoving (tier r : Nat) : Nat :=
  let r' := setMoving r (seqMoving r + 1)
  if parked tier then setParked r' (seqParked r' - 1) else r'

theorem recordMoving_lt {tier r : Nat} (bound : r < 256 ^ 64) : recordMoving tier r < 256 ^ 64 := by
  unfold recordMoving
  dsimp only
  split
  · exact setParked_lt (setMoving_lt bound _) _
  · exact setMoving_lt bound _

theorem recordMoving_fields (tier r : Nat) : seqMoving (recordMoving tier r) = (seqMoving r + 1) % 16 ∧
    seqParked (recordMoving tier r) = if tier = 3 ∨ tier = 4 then seqParked r - 1 else seqParked r := by
  have parks := @parked_iff tier
  unfold recordMoving
  dsimp only
  split
  · next yes =>
    have small := seqParked_lt r
    rw [if_pos (parks.1 yes), seqMoving_setParked, seqMoving_setMoving, seqParked_setParked, seqParked_setMoving,
      Nat.mod_eq_of_lt (by omega : seqParked r - 1 < 2 ^ 21)]
    exact ⟨rfl, rfl⟩
  · next no =>
    rw [if_neg (fun h => no (parks.2 h)), seqMoving_setMoving, seqParked_setMoving]
    exact ⟨rfl, rfl⟩

theorem W.startMove_eq (w : W) (e : Entry) (v r : Nat) :
    w.startMove e v r = ((w.putFolio e.partition (entryFolio e) (setTier v 5)).putSeq e.partition (folioSeq v)
      (recordMoving (folioTier v) r)).map (fun f =>
        (f.onDuctus (folioHome v) (fun d => { d with move := some (w.fab.moveOf e v r) })).fetchFor (w.fab.moveOf e v r)) := by
  rw [W.startMove]
  rfl

/-! ### The commands -/

theorem folioMove_of_badMove (front : Claims.front s e op = true) (bad : badMove e s.fab = true) :
    folioMove e op (W.of s) = (W.begun s e).ends e .badCommand := by
  have bad' : badMove e (W.begun s e).fab = true := bad
  rw [folioMove, W.ring_of_front front]
  dsimp only
  rw [if_pos bad']

/-- A move whose records can be reached is checked as they stand (R260). -/
theorem folioMove_of_front (front : Claims.front s e op = true) (good : badMove e s.fab = false) :
    let p := e.partition
    let i := word e 0 % 2 ^ 32
    let v := (W.of s).folio p i
    let r := (W.of s).seq p (folioSeq v)
    s.fab.Reachable p (s.fab.folioAddr p i) → s.fab.Reachable p (s.fab.seqAddr p (folioSeq v)) → folioTier v ≠ 0 → folioTier v ≠ 7 →
    ∃ w, W.Tends s (s.fab.withTaken e) p [] w ∧
      (∀ st, s.fab.moveCheck e v r = some st → folioMove e op (W.of s) = w.ends e st) ∧
      (s.fab.moveCheck e v r = none → folioMove e op (W.of s) =
        if (s.fab.ductusOf (folioHome v)).move.isSome then
          w.map (fun f => f.onDuctus (folioHome v) (fun d => { d with moves := d.moves ++ [e] }))
        else w.startMove e v r) := by
  intro p i v r reach reach' held known
  obtain ⟨w, tends, -, read⟩ := (W.tends_begun s e).withFolio reach (fun _ none => nomatch none)
  obtain ⟨w', tends', -, read'⟩ := tends.withSeq reach' (fun _ none => nomatch none)
  have good' : badMove e (W.begun s e).fab = false := good
  have ducti : w'.fab.ductusOf (folioHome v) = s.fab.ductusOf (folioHome v) := Fab.ductusOf_of_ductus tends'.ductus _
  rw [folioMove, W.ring_of_front front]
  dsimp only
  rw [good', if_neg Bool.false_ne_true, entryFolio_eq, read, if_neg (not_or.2 ⟨held, known⟩), read', tends'.fab.moveCheck, ducti]
  exact ⟨w', tends', fun st check => by rw [check], fun check => by rw [check]⟩

/-- A command of the ring that stays open. -/
theorem W.Tends.takes {k : Fab → Fab} (front : Claims.front s e op = true) (h : W.Tends s (s.fab.withTaken e) e.partition l w)
    (lift : exec c s = onMem s body) (keys : (k w.fab).lineKey = w.fab.lineKey) (fills : (k w.fab).fills = w.fab.fills)
    (inForce : (k w.fab).inForce = w.fab.inForce) (vfs : (k w.fab).vfs = w.fab.vfs) (ran : body (W.of s) = w.map k) :
    ∃ t, exec c s = .next t ∧ Claims.Taken s t e ∧ t.fab = k w.fab ∧ W.Leaves w s t e.partition l := by
  obtain ⟨running, -, -, -⟩ := front_spec front
  obtain ⟨t, next, fab, sec, -, leaves⟩ := h.next running keys fills inForce ran
  have vf : ∀ p, t.fab.vf p = (s.fab.withTaken e).vf p := Fab.vf_of_vfs (by rw [fab, vfs, h.vfs])
  refine ⟨t, lift.trans next, ⟨?_, fun q other => ?_, sec⟩, fab, leaves⟩
  · rw [vf, Fab.withTaken, Fab.vf_onVf_same]
  · rw [vf, Fab.withTaken, Fab.vf_onVf_ne _ _ other]

/-- A move waits for its Ductus. -/
theorem folioMove_waits (front : Claims.front s e op = true) (lift : exec c s = onMem s (folioMove e op)) {b : Nat}
    (tends : W.Tends s (s.fab.withTaken e) e.partition [] w)
    (ran : folioMove e op (W.of s) = w.map (fun f => f.onDuctus b (fun d => { d with moves := d.moves ++ [e] }))) :
    ∃ t, exec c s = .next t ∧ Claims.Taken s t e ∧ t.mem = s.mem ∧
      t.fab.ductusOf b = { s.fab.ductusOf b with moves := (s.fab.ductusOf b).moves ++ [e] } := by
  obtain ⟨t, next, taken, fab, leaves⟩ := tends.takes front lift rfl rfl rfl rfl ran
  refine ⟨t, next, taken, leaves.mem rfl, ?_⟩
  have ducti : w.fab.ductusOf b = s.fab.ductusOf b := Fab.ductusOf_of_ductus tends.ductus b
  rw [fab, Fab.ductusOf_onDuctus_same, ducti]

/-- A move starts. -/
theorem folioMove_starts (front : Claims.front s e op = true) (lift : exec c s = onMem s (folioMove e op)) :
    let p := e.partition
    let i := word e 0 % 2 ^ 32
    let fa := s.fab.folioAddr p i
    let v := (W.of s).folio p i
    let q := folioSeq v
    let sa := s.fab.seqAddr p q
    let r := (W.of s).seq p q
    let d := s.fab.ductusOf (folioHome v)
    s.fab.Reachable p fa → s.fab.Reachable p sa → Claims.apart fa 64 sa 64 → W.Tends s (s.fab.withTaken e) p [] w →
    folioMove e op (W.of s) = w.startMove e v r →
    ∃ t, exec c s = .next t ∧ Claims.Taken s t e ∧ Claims.MemKept s t p [(fa, 64), (sa, 64)] ∧ (W.of t).folio p i = setTier v 5 ∧
      seqMoving ((W.of t).seq p q) = (seqMoving r + 1) % 16 ∧
      seqParked ((W.of t).seq p q) = (if folioTier v = 3 ∨ folioTier v = 4 then seqParked r - 1 else seqParked r) ∧
      t.fab.ductusOf (folioHome v) = { d with move := some (s.fab.moveOf e v r) } := by
  intro p i fa v q sa r d reach reach' apart tends ran
  rw [W.startMove_eq, tends.fab.moveOf, entryFolio_eq] at ran
  obtain ⟨tends', entry, record, -⟩ := tends.putRecords reach reach' apart (v := setTier v 5) (v' := recordMoving (folioTier v) r)
    (setTier_lt (W.folio_lt _ p i) 5) (recordMoving_lt (W.seq_lt _ p q))
  generalize (w.putFolio p i (setTier v 5)).putSeq p q (recordMoving (folioTier v) r) = y at *
  have wired := (y.fab.onDuctus (folioHome v) (fun d => { d with move := some (s.fab.moveOf e v r) })).fetchFor_unwired
    (s.fab.moveOf e v r)
  obtain ⟨t, next, taken, fab, leaves⟩ := tends'.takes front lift (congrArg (·.lineKey) wired :) (congrArg (·.fills) wired :)
    (congrArg (·.inForce) wired :) (congrArg (·.vfs) wired :) ran
  obtain ⟨moving, parks⟩ := recordMoving_fields (folioTier v) r
  refine ⟨t, next, taken, leaves.kept, (leaves.folio i).trans entry, ?_, ?_, ?_⟩
  · rw [(leaves.seq q).trans record, moving]
  · rw [(leaves.seq q).trans record, parks]
  · rw [fab, Fab.ductusOf_of_ductus (Fab.ductus_of_unwired wired), Fab.ductusOf_onDuctus_same,
      Fab.ductusOf_of_ductus tends'.ductus]
    rfl

end Sys2Proof.Machine
end

section
/-! PROOFS. Moves of folios end (O34): the copy, the entry and record afterwards, and the completion (R261, R262). -/

namespace Sys2Proof.Machine

open Sys2Proof Sys2Proof.Safety

variable {s : State} {w : W} {f g : Fab} {l : List (Nat × Nat)} {m : FolioMove} {b a n p : Nat}

/-! ### The entry and the record -/

/-- The entry of a folio whose move ends, done or not. -/
def FolioMove.entryAfter (m : FolioMove) (done : Bool) (now v : Nat) : Nat :=
  if !done then setTier v m.oldTier
  else if parked m.newTier then
    setPlace v m.newTier m.newAddr (if m.newTier = 4 then m.peerWindow else 0) ((now + m.ttl * 10 ^ 9) % 2 ^ 64)
  else setPlace v m.newTier m.newAddr 0 0

/-- The record of its sequence. -/
def FolioMove.recordAfter (m : FolioMove) (done : Bool) (r : Nat) : Nat :=
  let r' := setMoving r (seqMoving r - 1)
  if parked (if done then m.newTier else m.oldTier) then setParked r' (seqParked r' + 1) else r'

theorem FolioMove.entryAfter_lt {done : Bool} {now v : Nat} (bound : v < 256 ^ 64) : m.entryAfter done now v < 256 ^ 64 := by
  unfold FolioMove.entryAfter
  split
  · exact setTier_lt bound _
  · split <;> exact setPlace_lt bound

theorem FolioMove.recordAfter_lt {done : Bool} {r : Nat} (bound : r < 256 ^ 64) : m.recordAfter done r < 256 ^ 64 := by
  unfold FolioMove.recordAfter
  dsimp only
  generalize parked _ = parks
  split
  · exact setParked_lt (setMoving_lt bound _) _
  · exact setMoving_lt bound _

theorem FolioMove.seqMoving_recordAfter (m : FolioMove) (done : Bool) (r : Nat) :
    seqMoving (m.recordAfter done r) = seqMoving r - 1 := by
  have small := seqMoving_lt r
  have fewer : (seqMoving r - 1) % 16 = seqMoving r - 1 := Nat.mod_eq_of_lt (by omega)
  unfold FolioMove.recordAfter
  dsimp only
  generalize parked _ = parks
  split
  · rw [seqMoving_setParked, seqMoving_setMoving, fewer]
  · rw [seqMoving_setMoving, fewer]

/-- The entry of a move that is done names its new place; a parked one has the expiry that the move gives it. -/
theorem FolioMove.entryAfter_done (now v : Nat) (place : m.newAddr < 2 ^ 64) (tier : m.newTier < 5) (low : 1 ≤ m.newTier) :
    let x := m.entryAfter true now v
    folioTier x = m.newTier ∧ folioPlace x = m.newAddr ∧
      folioWindow x = (if m.newTier = 4 then m.peerWindow % 65536 else 0) ∧
      folioExpiry x = (if 3 ≤ m.newTier then (now + m.ttl * 10 ^ 9) % 2 ^ 64 else 0) := by
  intro x
  have tier' : m.newTier % 8 = m.newTier := Nat.mod_eq_of_lt (by omega)
  by_cases parks : m.newTier = 3 ∨ m.newTier = 4
  · have entry : x = setPlace v m.newTier m.newAddr (if m.newTier = 4 then m.peerWindow else 0) ((now + m.ttl * 10 ^ 9) % 2 ^ 64) := by
      unfold x FolioMove.entryAfter
      rw [Bool.not_true, if_neg Bool.false_ne_true, if_pos (parked_iff.2 parks)]
    have window : (if m.newTier = 4 then m.peerWindow else 0) % 65536 = if m.newTier = 4 then m.peerWindow % 65536 else 0 := by
      split
      · rfl
      · rw [Nat.zero_mod]
    rw [entry, folioTier_setPlace, folioPlace_setPlace, folioWindow_setPlace, folioExpiry_setPlace, tier', Nat.mod_eq_of_lt place,
      Nat.mod_mod, if_pos (by omega : 3 ≤ m.newTier), window]
    exact ⟨rfl, rfl, rfl, rfl⟩
  · have entry : x = setPlace v m.newTier m.newAddr 0 0 := by
      unfold x FolioMove.entryAfter
      rw [Bool.not_true, if_neg Bool.false_ne_true, if_neg (fun h => parks (parked_iff.1 h))]
    rw [entry, folioTier_setPlace, folioPlace_setPlace, folioWindow_setPlace, folioExpiry_setPlace, tier', Nat.mod_eq_of_lt place,
      Nat.zero_mod, Nat.zero_mod, if_neg (by omega : ¬m.newTier = 4), if_neg (by omega : ¬3 ≤ m.newTier)]
    exact ⟨rfl, rfl, rfl, rfl⟩

/-! ### The end of a move -/

/-- No move waits at a Ductus whose move's command has just completed, and so none starts. -/
theorem W.Tends.nextMove_ends (h : W.Tends s g p l w) {e : Entry} (opened : g.Opened e) (idle : (g.ductusOf b).moves = [])
    (st : HostStatus) : W.nextMove b ((w.ends e st).fab.ductusOf b).moves.length (w.ends e st) = w.ends e st := by
  have rest : (w.ends e st).fab.ductus = w.fab.ductus := (congrArg (·.ductus) ((opened.of_vfs h.vfs).completeEntry_rest st 0) :)
  rw [Fab.ductusOf_of_ductus rest, Fab.ductusOf_of_ductus h.ductus, idle]
  rfl

/-- The only move of a Ductus ends: the Ductus is free, and the move's command completes with its status. -/
theorem W.Tends.endMove (h : W.Tends s f m.entry.partition l w) (opened : f.Opened m.entry)
    (active : f.ductusOf b = { Ductus.idle with move := some m }) (st : HostStatus) :
    let p := m.entry.partition
    let fa := s.fab.folioAddr p m.folio
    let sa := s.fab.seqAddr p m.seq
    s.fab.Reachable p fa → s.fab.Reachable p sa → Claims.apart fa 64 sa 64 → (∀ r ∈ l, Claims.apart r.1 r.2 fa 64) →
    (∀ r ∈ l, Claims.apart r.1 r.2 sa 64) →
    ∃ y, W.Tends s (f.onDuctus b (fun d => { d with move := none })) p (l ++ [(fa, 64), (sa, 64)]) y ∧
      w.endMove b st = y.ends m.entry st ∧
      y.loadNat p fa 64 = m.entryAfter (st == .done) s.fab.now ((W.of s).folio p m.folio) ∧
      y.loadNat p sa 64 = m.recordAfter (st == .done) ((W.of s).seq p m.seq) ∧
      ∀ x, (x < fa ∨ fa + 64 ≤ x) → (x < sa ∨ sa + 64 ≤ x) → y.load p x = w.load p x := by
  intro p fa sa reach reach' apart away away'
  obtain ⟨tends, loads⟩ := h.onDuctus b (fun d => { d with move := none })
  obtain ⟨w1, tends1, loads1, read1⟩ := tends.withFolio reach away
  obtain ⟨w2, tends2, loads2, read2⟩ := tends1.withSeq reach' away'
  obtain ⟨tends3, entry, record, rest⟩ := tends2.putRecords reach reach' apart
    (v := m.entryAfter (st == .done) s.fab.now ((W.of s).folio p m.folio)) (v' := m.recordAfter (st == .done) ((W.of s).seq p m.seq))
    (FolioMove.entryAfter_lt (W.folio_lt _ _ _)) (FolioMove.recordAfter_lt (W.seq_lt _ _ _))
  refine ⟨_, tends3, ?_, entry, record, fun x hx hx' =>
    (rest x hx hx').trans ((loads2 x).trans ((loads1 x).trans (loads x)))⟩
  unfold W.endMove
  rw [Fab.ductusOf_of_ductus h.ductus, active]
  dsimp only
  rw [read1, read2, h.fab.now]
  exact tends3.nextMove_ends (opened.of_vfs rfl) (by rw [Fab.ductusOf_onDuctus_same, active]; rfl) st

end Sys2Proof.Machine
end

section
/-! PROOFS. FOLIO_MOVE_COMPLETE (O34): the source is read and the copy written (R261), and the move that was under way ends. -/

namespace Sys2Proof.Machine

open Sys2Proof Sys2Proof.Safety

variable {s : State} {w w' : W} {f g : Fab} {m : FolioMove} {b a n p : Nat}

/-! ### Bytes -/

/-- A range in which no line is bad, in a package without correctable errors. -/
theorem Fab.faultless_of_badIn (good : f.badIn a n = none) (soft : f.softLines = []) : f.faultless a n := by
  intro l hl
  rw [Fab.badIn, Option.map_eq_none_iff, List.find?_eq_none] at good
  exact ⟨Bool.eq_false_iff.2 (good l hl), by rw [soft]; rfl⟩

theorem W.loads_congr (h : ∀ x, a ≤ x → x < a + n → w'.load p x = w.load p x) : w'.loads p a n = w.loads p a n :=
  List.map_congr_left (fun j hj => h _ (Nat.le_add_right _ _) (by have := List.mem_range.1 hj; omega))

/-- Bytes that each address of their range reads. -/
theorem W.loads_eq {bytes : List Byte} (h : ∀ x, a ≤ x → x < a + bytes.length → w.load p x = bytes.getD (x - a) 0) :
    w.loads p a bytes.length = bytes := by
  refine List.ext_getElem (by rw [W.loads, List.length_map, List.length_range]) (fun k hk hk' => ?_)
  simp only [W.loads, List.getElem_map, List.getElem_range]
  rw [h _ (Nat.le_add_right _ _) (by omega), Nat.add_sub_cancel_left, List.getD_eq_getElem _ _ hk']

theorem W.moveBytes_length (w : W) (m : FolioMove) (remote : List Byte) : (w.moveBytes m remote).length = m.bytes := by
  unfold W.moveBytes
  split
  · rw [List.length_take, List.length_append, List.length_replicate]
    omega
  · rw [W.loads, List.length_map, List.length_range]

theorem W.moveBytes_congr (h : ∀ x, w'.load m.entry.partition x = w.load m.entry.partition x) (remote : List Byte) :
    w'.moveBytes m remote = w.moveBytes m remote := by
  rw [W.moveBytes, W.moveBytes, W.loads_congr (fun x _ _ => h x)]

/-! ### The accesses -/

/-- An access that need not be made, or is done in a package without correctable errors. -/
theorem W.access_unless_of_ok {tag : Nat → Tag} {write : Bool} {c : Prop} [Decidable c] (soft : w.fab.softLines = [])
    (ok : (if c then (w, Reach.ok) else w.access tag a n write).2 = .ok) :
    ∃ g, (if c then (w, Reach.ok) else w.access tag a n write) = ({ w with fab := g }, .ok) ∧ w.fab.Served g ∧ w.fab.SameUpper g := by
  split at ok
  · next skipped => exact ⟨w.fab, if_pos skipped, .refl _, .of_dict rfl⟩
  · next made =>
    rw [if_neg made]
    refine W.access_of_ok ok (fun g part served => ?_)
    have soft' : g.softLines = [] := (congrArg (·.softLines) served.rest : g.softLines = w.fab.softLines).trans soft
    rw [Fab.corrects, soft']
    rfl

/-- A move whose accesses are done has drawn their slots. -/
theorem W.Tends.moveReach {l : List (Nat × Nat)} (h : W.Tends s f p l w) (soft : w.fab.softLines = []) (ok : (w.moveReach m).2 = .ok) :
    ∃ w', w.moveReach m = (w', .ok) ∧ W.Tends s f p l w' := by
  revert ok
  unfold W.moveReach
  dsimp only
  split
  · next g first =>
    obtain ⟨f1, one, served, upper⟩ := W.access_unless_of_ok soft (congrArg (·.2) first)
    obtain rfl : { w with fab := f1 } = g := congrArg (·.1) (one.symm.trans first)
    intro ok
    have soft' : f1.softLines = [] := (congrArg (·.softLines) served.rest : f1.softLines = w.fab.softLines).trans soft
    obtain ⟨f2, two, served', upper'⟩ := W.access_unless_of_ok (w := { w with fab := f1 }) soft' ok
    exact ⟨_, two, (h.served served upper).served served' upper'⟩
  · next other => exact fun ok => (other _ (Prod.ext rfl ok)).elim

/-! ### The copy -/

/-- The bytes of package memory that a move writes: those of a folio that becomes hot or warm. -/
def FolioMove.stores (m : FolioMove) : Nat := if m.newTier = 1 ∨ m.newTier = 2 then m.bytes else 0

/-- The copy lies in its new place, in package memory or on its way to the host or the peer. -/
theorem W.Tends.moveCopy (h : W.Tends s f m.entry.partition [] w) (idle : (s.fab.noivosOf m.entry.partition).running = none)
    (sound : s.fab.faultless m.newAddr m.stores) (tier : m.newTier < 5) (low : 1 ≤ m.newTier) (remote : List Byte) :
    W.Tends s f m.entry.partition [(m.newAddr, m.stores)] (w.moveCopy m remote) ∧
      (w.moveCopy m remote).loads m.entry.partition m.newAddr m.stores = ((W.of s).moveBytes m remote).take m.stores := by
  have bytes := W.moveBytes_congr (fun x => h.kept x (fun _ none => nomatch none)) remote
  have length := W.moveBytes_length w m remote
  rw [← bytes]
  unfold W.moveCopy
  dsimp only
  have away : m.newTier = 3 ∨ m.newTier = 4 → m.stores = 0 := fun parks => if_neg (by omega)
  split
  · next peer =>
    rw [away (.inr peer)]
    exact ⟨(h.mapUnwired (Fab.rdmaSend_unwired _ _ _ _)).1.mono (List.nil_subset _), rfl⟩
  · split
    · next host =>
      rw [away (.inl host)]
      exact ⟨(h.mapUnwired rfl).1.mono (List.nil_subset _), rfl⟩
    · next peer host =>
      have stores : m.stores = m.bytes := if_pos (by omega)
      rw [stores, ← length] at sound ⊢
      obtain ⟨tends, loads⟩ := h.store idle sound
      rw [List.take_length]
      exact ⟨tends, W.loads_eq (fun x low high => by rw [loads, if_pos ⟨low, high⟩])⟩

/-! ### The command -/

theorem find?_range_of_only {q : Nat → Bool} (hb : b < n) (own : q b = true) (other : ∀ d, d < n → d ≠ b → q d = false) :
    (List.range n).find? q = some b :=
  List.find?_range_eq_some.2 ⟨own, List.mem_range.2 hb, fun j hj => by rw [other j (by omega) (by omega)]; rfl⟩

/-- What becomes of the queue pair of a peer whose bytes have come or gone. -/
def Fab.settlePeer (f : Fab) (m : FolioMove) : Fab :=
  if m.oldTier = 4 then f.qpDone m.entry.partition m.peerWindow m.oldAddr false
  else if m.newTier = 4 then f.qpDone m.entry.partition m.peerWindow m.newAddr true
  else f

theorem Fab.settlePeer_unwired (f : Fab) (m : FolioMove) : (f.settlePeer m).unwired = f.unwired := by
  unfold Fab.settlePeer
  split
  · exact Fab.qpDone_unwired _ _ _ _ _
  · split
    · exact Fab.qpDone_unwired _ _ _ _ _
    · rfl

/-- The completion of the one move of a folio is that of its Ductus. -/
theorem folioMoveComplete_of_active (hb : b < 8) (active : (w.fab.ductusOf b).move = some m)
    (only : ∀ d m', d < 8 → d ≠ b → (w.fab.ductusOf d).move = some m' →
      m'.entry.partition ≠ m.entry.partition ∨ m'.folio ≠ m.folio) (remote : List Byte) :
    folioMoveComplete m.entry.partition m.folio remote .endpointDown w = w.endMove b .endpointDown ∧
    ∀ g, w.moveReach m = (g, .ok) → folioMoveComplete m.entry.partition m.folio remote .done w =
      ((g.moveCopy m remote).map (fun f => f.settlePeer m)).endMove b .done := by
  unfold folioMoveComplete
  dsimp only
  rw [find?_range_of_only hb]
  · dsimp only
    rw [active]
    exact ⟨rfl, fun g reach => by dsimp only; rw [reach]; rfl⟩
  · rw [active]
    dsimp only
    rw [beq_self_eq_true, beq_self_eq_true]
    rfl
  · intro d hd ne
    split
    · next m' move =>
      rcases only d m' hd ne move with other | other
      · rw [beq_false_of_ne other, Bool.false_and]
      · rw [beq_false_of_ne other, Bool.and_false]
    · rfl

/-- A move that cannot reach its endpoint ends with the folio in its old tier and place (R262). -/
theorem exec_folioMoveComplete_down (running : s.fab.phase = .running) (hb : b < 8)
    (active : s.fab.ductusOf b = { Ductus.idle with move := some m })
    (only : ∀ d m', d < 8 → d ≠ b → (s.fab.ductusOf d).move = some m' →
      m'.entry.partition ≠ m.entry.partition ∨ m'.folio ≠ m.folio)
    (mine : Claims.isOpen s m.entry = true) (remote : List Byte) :
    let p := m.entry.partition
    let fa := s.fab.folioAddr p m.folio
    let sa := s.fab.seqAddr p m.seq
    s.fab.Reachable p fa → s.fab.Reachable p sa → Claims.apart fa 64 sa 64 →
    ∃ t, exec (.folioMoveComplete p m.folio remote .endpointDown) s = .next t ∧ Claims.Answered s t m.entry 0x18 0 ∧
      Claims.MemKept s t p [(fa, 64), (sa, 64)] ∧ (W.of t).folio p m.folio = setTier ((W.of s).folio p m.folio) m.oldTier ∧
      seqMoving ((W.of t).seq p m.seq) = seqMoving ((W.of s).seq p m.seq) - 1 ∧ (t.fab.ductusOf b).move = none := by
  intro p fa sa reach reach' apart
  have active' : ((W.of s).fab.ductusOf b).move = some m := congrArg (·.move) active
  obtain ⟨y, tends, ends, entry, record, -⟩ := (W.tends_of s p).endMove (Fab.opened_of_isOpen mine) active .endpointDown reach reach'
    apart (fun _ none => nomatch none) (fun _ none => nomatch none)
  obtain ⟨t, next, answered, ductus, leaves⟩ := tends.answers running mine rfl
    ((folioMoveComplete_of_active hb active' only remote).1.trans ends)
  refine ⟨t, next, answered, leaves.kept, (leaves.folio _).trans entry, ?_, ?_⟩
  · rw [(leaves.seq _).trans record, FolioMove.seqMoving_recordAfter]
  · rw [Fab.ductusOf_of_ductus (ductus.trans tends.ductus), Fab.ductusOf_onDuctus_same]

/-- A move whose accesses are done ends with the folio in its new tier and place (R261). -/
theorem exec_folioMoveComplete_done (running : s.fab.phase = .running) (hb : b < 8)
    (active : s.fab.ductusOf b = { Ductus.idle with move := some m })
    (only : ∀ d m', d < 8 → d ≠ b → (s.fab.ductusOf d).move = some m' →
      m'.entry.partition ≠ m.entry.partition ∨ m'.folio ≠ m.folio)
    (mine : Claims.isOpen s m.entry = true) (good : s.fab.badIn m.newAddr m.stores = none) (soft : s.fab.softLines = [])
    (place : m.newAddr < 2 ^ 64) (tier : m.newTier < 5) (low : 1 ≤ m.newTier) (remote : List Byte) :
    let p := m.entry.partition
    let fa := s.fab.folioAddr p m.folio
    let sa := s.fab.seqAddr p m.seq
    s.fab.Reachable p fa → s.fab.Reachable p sa → Claims.apart fa 64 sa 64 → Claims.apart m.newAddr m.stores fa 64 →
    Claims.apart m.newAddr m.stores sa 64 → ((W.of s).moveReach m).2 = .ok →
    ∃ t, exec (.folioMoveComplete p m.folio remote .done) s = .next t ∧ Claims.Answered s t m.entry 0 0 ∧
      Claims.MemKept s t p [(m.newAddr, m.stores), (fa, 64), (sa, 64)] ∧
      (W.of t).loads p m.newAddr m.stores = ((W.of s).moveBytes m remote).take m.stores ∧
      (let x := (W.of t).folio p m.folio
       folioTier x = m.newTier ∧ folioPlace x = m.newAddr ∧
       folioWindow x = (if m.newTier = 4 then m.peerWindow % 65536 else 0) ∧
       folioExpiry x = (if 3 ≤ m.newTier then (s.fab.now + m.ttl * 10 ^ 9) % 2 ^ 64 else 0)) ∧
      seqMoving ((W.of t).seq p m.seq) = seqMoving ((W.of s).seq p m.seq) - 1 ∧ (t.fab.ductusOf b).move = none := by
  intro p fa sa reach reach' apart apartFa apartSa ok
  have active' : ((W.of s).fab.ductusOf b).move = some m := congrArg (·.move) active
  obtain ⟨g, reached, tends1⟩ := (W.tends_of s p).moveReach soft ok
  obtain ⟨tends2, copied⟩ := tends1.moveCopy reach.idle (Fab.faultless_of_badIn good soft) tier low remote
  obtain ⟨tends3, loads3⟩ := tends2.mapUnwired (k := fun f => f.settlePeer m) (Fab.settlePeer_unwired _ m)
  obtain ⟨y, tends, ends, entry, record, rest⟩ := tends3.endMove (Fab.opened_of_isOpen mine) active .done reach reach' apart
    (fun r hr => List.mem_singleton.1 hr ▸ apartFa) (fun r hr => List.mem_singleton.1 hr ▸ apartSa)
  obtain ⟨t, next, answered, ductus, leaves⟩ := tends.answers running mine rfl
    (((folioMoveComplete_of_active hb active' only remote).2 g reached).trans ends)
  refine ⟨t, next, answered, leaves.kept, ?_, ?_, ?_, ?_⟩
  · refine (W.loads_congr (fun x low high => ?_)).trans copied
    exact (leaves.load x).trans ((rest x (outside_of_apart apartFa low high) (outside_of_apart apartSa low high)).trans (loads3 x))
  · dsimp only
    rw [(leaves.folio _).trans entry]
    exact FolioMove.entryAfter_done _ _ place tier low
  · rw [(leaves.seq _).trans record, FolioMove.seqMoving_recordAfter]
  · rw [Fab.ductusOf_of_ductus (ductus.trans tends.ductus), Fab.ductusOf_onDuctus_same]

end Sys2Proof.Machine
end

section
/-! PROOFS. Parked folios expire (O34): FOLIO_EXPIRY at and before the time of the entry (R264); and O34 from its parts. -/

namespace Sys2Proof.Machine

open Sys2Proof Sys2Proof.Safety

variable {s : State} {w : W} {f : Fab} {p i d : Nat} {st : HostStatus}

/-! ### The notification and the count -/

/-- The notification of an expiry, and the count of expired folios. -/
def Fab.expiryTold (f : Fab) (p status detail : Nat) : Fab := (f.notify p status detail).dadd 0x7052 (p + 1) 1

/-- Where the queue has room, the notification is its newest entry. -/
theorem Fab.expiryTold_of_room {status : Nat} (room : (f.vf p).queue.length < 4096) :
    f.expiryTold p status d = (f.onVf p (fun v => { v with queue := v.queue ++ [⟨0xFF, status, 0, d⟩] })).dadd 0x7052 (p + 1) 1 := by
  rw [Fab.expiryTold, Fab.notify, if_pos room]

theorem Fab.expiryTold_queue {status : Nat} (room : (f.vf p).queue.length < 4096) :
    ((f.expiryTold p status d).vf p).queue = (f.vf p).queue ++ [⟨0xFF, status, 0, d⟩] := by
  rw [Fab.expiryTold_of_room room]
  exact congrArg (·.queue) (Fab.vf_onVf_same f p (fun v => { v with queue := v.queue ++ [⟨0xFF, status, 0, d⟩] }))

/-- The count of expired folios is 32 bits wide (R264). -/
theorem Dict.width_expired (hp : p < 16) : ((Dict.row 0x7052 (p + 1)).map (fun d => d.ty.width)).getD 4 = 4 := by
  revert p
  decide +kernel

/-! ### The command -/

/-- FOLIO_EXPIRY of an entry that can be reached looks at the entry as it stands. -/
theorem folioExpiry_of_reachable (hp : p < 16) (inTable : i < (s.fab.folioTable p).2)
    (reach : s.fab.Reachable p (s.fab.folioAddr p i)) :
    let v := (W.of s).folio p i
    ∃ w, W.Tends s s.fab p [] w ∧ folioExpiry' p i (W.of s) =
      if (folioTier v = 3 ∨ folioTier v = 4) ∧ folioExpiry v ≤ s.fab.now then w.expire p i v .folioExpired else w := by
  intro v
  obtain ⟨w, tends, -, read⟩ := (W.tends_of s p).onFolio reach (fun _ none => nomatch none)
  have table : ¬(16 ≤ p ∨ ((W.of s).fab.folioTable p).2 ≤ i) := not_or.2 ⟨Nat.not_le.2 hp, Nat.not_le.2 inTable⟩
  refine ⟨w, tends, ?_⟩
  rw [folioExpiry', if_neg table, read, tends.fab.now]
  simp only [parked_iff]
  rfl

/-- A folio that is not parked, or not yet at its expiry, is left alone. -/
theorem exec_folioExpiry_early (running : s.fab.phase = .running) (hp : p < 16) (inTable : i < (s.fab.folioTable p).2)
    (reach : s.fab.Reachable p (s.fab.folioAddr p i)) :
    let v := (W.of s).folio p i
    ¬((folioTier v = 3 ∨ folioTier v = 4) ∧ folioExpiry v ≤ s.fab.now) →
    ∃ t, exec (.folioExpiry p i) s = .next t ∧ DeviceOnly s t ∧ t.fab.vfs = s.fab.vfs ∧
      t.fab.dget 0x7052 (p + 1) = s.fab.dget 0x7052 (p + 1) := by
  intro v early
  obtain ⟨w, tends, ran⟩ := folioExpiry_of_reachable hp inTable reach
  rw [if_neg early] at ran
  obtain ⟨t, next, fab, sec, pending, leaves⟩ := tends.next (g := id) running rfl rfl rfl ran
  exact ⟨t, next, ⟨leaves.mem rfl, sec, pending⟩, by rw [fab]; exact tends.vfs, by rw [fab]; exact tends.fab.upper _ _ (by decide)⟩

/-- A parked folio at its expiry expires with its sequence, and the host is told. -/
theorem exec_folioExpiry_due (running : s.fab.phase = .running) (hp : p < 16) (inTable : i < (s.fab.folioTable p).2) :
    let fa := s.fab.folioAddr p i
    let v := (W.of s).folio p i
    let q := folioSeq v
    let sa := s.fab.seqAddr p q
    let r := (W.of s).seq p q
    s.fab.Reachable p fa → (folioTier v = 3 ∨ folioTier v = 4) → folioExpiry v ≤ s.fab.now → s.fab.Reachable p sa →
    Claims.apart fa 64 sa 64 → (s.fab.vf p).queue.length < 4096 →
    ∃ t, exec (.folioExpiry p i) s = .next t ∧ Claims.MemKept s t p [(fa, 64), (sa, 64)] ∧ t.sec = s.sec ∧
      folioTier ((W.of t).folio p i) = 6 ∧ (W.of t).seq p q = setSeqState (setParked r (seqParked r - 1)) 2 ∧
      (t.fab.vf p).queue = (s.fab.vf p).queue ++ [⟨0xFF, 0x16, 0, q * 2 ^ 176 + i * 2 ^ 128 + folioExpiry v⟩] ∧
      t.fab.dget 0x7052 (p + 1) = min (s.fab.dget 0x7052 (p + 1) + 1) (2 ^ 32 - 1) := by
  intro fa v q sa r reach parks due reach' apart room
  obtain ⟨w, tends, ran⟩ := folioExpiry_of_reachable hp inTable reach
  obtain ⟨w', tends', -, read⟩ := tends.onSeq reach' (fun _ none => nomatch none)
  rw [if_pos ⟨parks, due⟩, W.expire, read] at ran
  obtain ⟨told, entry, record, -⟩ := tends'.putRecords reach reach' apart (v := setPlace v 6 (folioPlace v) (folioWindow v) 0)
    (v' := setSeqState (setParked r (seqParked r - 1)) 2) (setPlace_lt (W.folio_lt _ p i))
    (setSeqState_lt (setParked_lt (W.seq_lt _ p q) _) _)
  generalize (w'.putFolio p i (setPlace v 6 (folioPlace v) (folioWindow v) 0)).putSeq p q
    (setSeqState (setParked r (seqParked r - 1)) 2) = y at *
  have vf : y.fab.vf p = s.fab.vf p := Fab.vf_of_vfs told.vfs p
  rw [← vf] at room ⊢
  have tell := Fab.expiryTold_of_room (status := 0x16) (d := q * 2 ^ 176 + i * 2 ^ 128 + folioExpiry v) room
  obtain ⟨t, next, fab, sec, -, leaves⟩ := told.next
    (g := fun f => f.expiryTold p 0x16 (q * 2 ^ 176 + i * 2 ^ 128 + folioExpiry v)) running
    (by rw [tell]; rfl) (by rw [tell]; rfl) (by rw [tell]; rfl) ran
  refine ⟨t, next, leaves.kept, sec, ?_, (leaves.seq q).trans record, ?_, ?_⟩
  · rw [(leaves.folio i).trans entry, folioTier_setPlace]
  · rw [fab]
    exact Fab.expiryTold_queue room
  · rw [fab, tell, Fab.dget_dadd, if_pos rfl, Dict.width_expired hp]
    exact congrArg (fun n => min (n + 1) (2 ^ 32 - 1)) (told.fab.upper 0x7052 (p + 1) (by decide))

/-! ### The statement -/

/-- The commands of a move, each with its opcode, and the work it is. -/
theorem exec_of_moveRows {row : (Entry → Instr) × Nat} (listed : row ∈ Claims.moveRows) (e : Entry) (s : State) :
    exec (row.1 e) s = onMem s (folioMove e row.2) := by
  simp only [Claims.moveRows, List.mem_cons, List.not_mem_nil, or_false] at listed
  rcases listed with rfl | rfl | rfl <;> rfl

/-- Settles O34: a move's command by its check, its start or its wait; the end of a move by its outcome; an expiry by its time. -/
theorem foliosMoveAndExpire : Obligations.FoliosMoveAndExpire := by
  unfold Obligations.FoliosMoveAndExpire
  refine ⟨fun s e row listed front => ⟨fun bad => ?refused, fun good readable readable' held known apart => ?checked⟩,
    fun s b m remote running hb active only mine readable readable' apart apartFa apartSa good soft place tier low => ?ended,
    fun s p i running hp inTable readable => ?expiry⟩
  case refused =>
    exact (W.tends_begun s e).refuses front (exec_of_moveRows listed e s) (folioMove_of_badMove front bad)
  case checked =>
    have lift := exec_of_moveRows listed e s
    have reach := Fab.reachable_of_readable readable
    have reach' := Fab.reachable_of_readable readable'
    obtain ⟨w, tends, refused, passed⟩ := folioMove_of_front front good reach reach' held known
    refine ⟨fun st check => tends.refuses front lift (refused st check), fun check busy => ?_, fun check free => ?_⟩
    · have ran := passed check
      rw [if_pos (Option.isSome_iff_ne_none.2 busy)] at ran
      exact folioMove_waits front lift tends ran
    · have ran := passed check
      rw [if_neg (by rw [free]; exact Bool.false_ne_true)] at ran
      exact folioMove_starts front lift reach reach' apart tends ran
  case ended =>
    have reach := Fab.reachable_of_readable readable
    have reach' := Fab.reachable_of_readable readable'
    exact ⟨exec_folioMoveComplete_done running hb active only mine good soft place tier low remote reach reach' apart apartFa apartSa,
      exec_folioMoveComplete_down running hb active only mine remote reach reach' apart⟩
  case expiry =>
    have reach := Fab.reachable_of_readable readable
    exact ⟨exec_folioExpiry_early running hp inTable reach, fun parks due readable' apart room =>
      exec_folioExpiry_due running hp inTable reach parks due (Fab.reachable_of_readable readable') apart room⟩

end Sys2Proof.Machine
end

section
/-! PROOFS. STEP_CLOSE (O46): where a slice of the open step has its entry behind a clock island in its safe state, the command waits
and changes nothing (R22, R25, R290), so that it does not complete. -/

namespace Sys2Proof.Machine

open Sys2Proof

/-- A STEP_CLOSE of partition 0 (R290). -/
def closeCommand : Entry := { partition := 0, ring := 1, opcode := 0x21, reserved := 0, tag := 9, words := [] }

/-- The open step of partition 0, with one Accumulating gradient slice (R278). -/
def fillingStep : StepRec :=
  { number := 7, waveCounter := 3, wave := 0, waves := 1, slices := [accumulatingSlice], filling := false }

/-- A STEP_CLOSE is the next entry of partition 0, whose slice and scale tables have no entry. Where the entry of the open step's slice
would be lies in the Inkwell of base die 1, whose core is in its safe state (R25). -/
def blockedClose : State :=
  { State.reset with fab := { Fab.reset with
      dict := [(dictKey 0xB111 1, 65536)], inForce := [(dictKey 0x8010 1, inkwellBase 1)],
      islands := [(897, { Island.onA with safe := true })],
      vfs := [(0, { Vf.reset with fetched := [closeCommand], openCmds := [(closeCommand, false)] })],
      steps := [(0, fillingStep)] } }

/-- Tables without entries are reached whatever the clock islands do. -/
theorem stepTables_blockedClose : Claims.stepTables blockedClose 0 = true := by decide +kernel

/-- The slice is abandoned, and its entry cannot be reached: the whole work of STEP_CLOSE waits. -/
theorem stepClose_blockedClose_waits : (stepClose closeCommand (W.of blockedClose)).settled.waits = true := by decide +kernel

theorem stepClose_blockedClose : exec (.stepClose closeCommand) blockedClose = .next blockedClose :=
  onMem_waits (stepClose closeCommand) stepClose_blockedClose_waits

/-- Refutes O46 in its clause on a STEP_CLOSE of a step with nothing Sealed: at `blockedClose` every hypothesis of the clause holds,
and the command has to wait, so that its entry is not taken. The clause asks that the entries of the slice table can be reached, and
not that the slices of the open step are among them. -/
theorem not_learningStepsOpenFillAndClose : ¬ Obligations.LearningStepsOpenFillAndClose := by
  unfold Obligations.LearningStepsOpenFillAndClose
  rintro ⟨commands, -⟩
  obtain ⟨-, close⟩ := commands blockedClose closeCommand (by decide)
  obtain ⟨-, -, closes⟩ := close (by decide +kernel)
  have noChecks : Claims.noChecks fillingStep := by
    unfold Claims.noChecks
    decide
  obtain ⟨t, ht, completed, -⟩ := closes fillingStep rfl (by decide) noChecks stepTables_blockedClose
  cases stepClose_blockedClose.symm.trans ht
  exact absurd completed.fetched (by decide)

end Sys2Proof.Machine
end

section
/-! PROOFS. What the work of a command stands on, one lemma per operation of the model: the memory it found and the security block. No
access, no end of a launch, a collective, a job or a move changes either (R206, R326, R462). -/

namespace Sys2Proof.Machine

open Sys2Proof

/-- The memory that the work found, and the security block. -/
def W.ground (w : W) : List Host.Cell × Sec := (w.mem, w.sec)

@[simp] theorem W.map_ground (w : W) (g : Fab → Fab) : (w.map g).ground = w.ground := rfl

@[simp] theorem W.put_ground (w : W) (a : Nat) (v : Byte) : (w.put a v).ground = w.ground := rfl

@[simp] theorem W.zero_ground (w : W) (a n key : Nat) : (w.zero a n key).ground = w.ground := rfl

@[simp] theorem W.zeroFor_ground (w : W) (p a n : Nat) : (w.zeroFor p a n).ground = w.ground := rfl

@[simp] theorem W.puts_ground (w : W) (a : Nat) (l : List Byte) : (w.puts a l).ground = w.ground := by simp [W.ground]

/-- A fold of work whose steps keep its ground keeps it. -/
theorem foldl_ground {α : Type} {body : W → α → W} (h : ∀ w x, (body w x).ground = w.ground) (l : List α) (w : W) :
    (l.foldl body w).ground = w.ground := foldl_keeps W.ground h l w

/-! ### Accesses and stores -/

@[simp] theorem W.access_ground (w : W) (tag : Nat → Tag) (a n : Nat) (write : Bool) : (w.access tag a n write).1.ground = w.ground := by
  unfold W.access
  dsimp only
  split
  · rfl
  · split
    · split
      · rfl
      · split
        · rfl
        · split
          · rfl
          · split <;> rfl
    all_goals rfl

theorem W.reach_ground (tag : Nat → Bool → Tag) (l : List (Nat × Nat × Bool)) (w : W) :
    (W.reach tag l w).1.ground = w.ground := by
  induction l generalizing w with
  | nil => rfl
  | cons x l ih =>
    unfold W.reach
    dsimp only
    split
    · rw [ih, W.access_ground]
    · rw [W.access_ground]

@[simp] theorem W.rubricReach_ground (p : Nat) (l : List (Nat × Nat × Bool)) (w : W) : (W.rubricReach p l w).1.ground = w.ground :=
  W.reach_ground _ _ _

-- The branches are closed by a lemma about any access: unfolding them here would have the kernel run the read of a page.
@[simp] theorem W.readPage_ground (w : W) (p page : Nat) : (w.readPage p page).ground = w.ground := by
  have reached := W.access_ground w (fun d => w.fab.unitTag p (d - 16) 6 d false) (page * 65536) 65536 false
  fun_cases W.readPage w p page
  case case1 => rfl
  case case2 => exact reached
  case case3 => exact reached
  case case4 => exact reached
  case case5 => exact reached
  case case6 => rfl

@[simp] theorem W.readPages_ground (w : W) (p a n : Nat) : (w.readPages p a n).ground = w.ground := by
  unfold W.readPages
  split
  · rfl
  · exact foldl_ground (fun x _ => W.readPage_ground x _ _) _ w

@[simp] theorem W.rekey_ground (w : W) (p l : Nat) : (w.rekey p l).ground = w.ground := by
  unfold W.rekey
  dsimp only
  split
  · rfl
  · rw [W.map_ground]
    split
    · split
      · rfl
      · exact W.puts_ground _ _ _
    · rfl

@[simp] theorem W.store_ground (w : W) (p a : Nat) (bytes : List Byte) : (w.store p a bytes).ground = w.ground := by
  unfold W.store
  extract_lets n w0 ls bad whole w1 w2
  have keyed : w1.ground = w.ground := (foldl_ground (fun x l => W.rekey_ground x p l) _ w0).trans (W.readPages_ground w p a n)
  rw [W.map_ground]
  simp only [w2]
  split
  · rw [W.puts_ground, keyed]
  · refine (foldl_ground (fun x i => ?_) _ w1).trans keyed
    split <;> rfl

@[simp] theorem W.putEntry_ground (w : W) (p a v : Nat) : (w.putEntry p a v).ground = w.ground := by
  have reached := W.rubricReach_ground p [(a, 64, true)] w
  unfold W.putEntry
  split
  · next h => rw [h] at reached; exact (W.store_ground _ _ _ _).trans reached
  · next h => rw [h] at reached; exact reached

@[simp] theorem W.setField_ground (w : W) (p a hi lo x : Nat) : (w.setField p a hi lo x).ground = w.ground := by
  have reached := W.rubricReach_ground p [(a, 64, false)] w
  unfold W.setField
  split
  · next h => rw [h] at reached; exact (W.putEntry_ground _ _ _ _).trans reached
  · next h => rw [h] at reached; exact reached
  · next h => rw [h] at reached; exact reached

/-! ### Slices, collectives and contexts -/

@[simp] theorem W.abandonSlice_ground (w : W) (p : Nat) (s : Slice) : (w.abandonSlice p s).ground = w.ground := by
  unfold W.abandonSlice W.markLayer W.finishSlice W.moveSlice W.setSliceState
  split <;> simp

@[simp] theorem W.abandon_ground (w : W) (p n : Nat) : (w.abandon p n).ground = w.ground := by
  unfold W.abandon
  split
  · split <;> simp
  · rfl

@[simp] theorem W.failColl_ground (w : W) (id status block : Nat) (but : Option Nat) :
    (w.failColl id status block but).ground = w.ground := by
  unfold W.failColl
  split
  · dsimp only
    rw [W.map_ground, foldl_ground (fun x n => W.abandon_ground x _ n), W.map_ground]
  · rfl

@[simp] theorem W.failColls_ground (w : W) (q : Coll → Bool) (status : Nat) : (w.failColls q status).ground = w.ground :=
  foldl_ground (fun x (c : Coll) => W.failColl_ground x c.id status 0 none) _ w

@[simp] theorem W.endContext_ground (w : W) (p : Nat) (met : Option Nat) (a : Nat) : (w.endContext p met a).ground = w.ground := by
  unfold W.endContext
  split <;> simp

@[simp] theorem W.contextFault_ground (w : W) (p a : Nat) : (w.contextFault p a).ground = w.ground := by simp [W.contextFault]

@[simp] theorem W.settled_ground (w : W) : w.settled.ground = w.ground := by
  unfold W.settled
  exact foldl_ground (fun x (e : Nat × Nat) => W.contextFault_ground x e.1 e.2) w.faults w

@[simp] theorem W.rubric_ground (p : Nat) (l : List (Nat × Nat × Bool)) (w : W) : (W.rubric p l w).1.ground = w.ground := by
  have reached := W.rubricReach_ground p l w
  unfold W.rubric
  split
  · next h => rw [h] at reached; exact reached
  · next h => rw [h] at reached; exact (W.contextFault_ground _ _ _).trans reached
  · next h => rw [h] at reached; exact reached

/-! ### Launches -/

@[simp] theorem W.evict_ground (w : W) (c origin : Nat) : (w.evict c origin).ground = w.ground := by simp [W.evict]

@[simp] theorem W.clusterReset_ground (w : W) (c : Nat) : (w.clusterReset c).ground = w.ground := by
  unfold W.clusterReset
  split <;> simp

@[simp] theorem W.endLaunches_ground (w : W) (p : Nat) : (w.endLaunches p).ground = w.ground := by
  unfold W.endLaunches
  dsimp only
  rw [W.map_ground, foldl_ground (fun x c => ?_), W.map_ground]
  split <;> simp

@[simp] theorem W.refuseLaunch_ground (w : W) (l : Launch) (st : HostStatus) : (w.refuseLaunch l st).ground = w.ground := by
  unfold W.refuseLaunch
  dsimp only
  split <;> simp

@[simp] theorem W.checkLaunch_ground (w : W) (l : Launch) : (w.checkLaunch l).1.ground = w.ground := by
  have reached := W.rubricReach_ground l.partition [(l.image, 64, false)] w
  unfold W.checkLaunch
  dsimp only
  split
  · rfl
  · split
    · rfl
    · split
      · rfl
      · split
        · rfl
        · split
          · next h => rw [h] at reached; exact reached
          · next h => rw [h] at reached; exact reached
          · next h => rw [h] at reached; exact reached
          · next h => rw [h] at reached; exact reached
          · next h =>
            rw [h] at reached
            split
            · exact reached
            · split
              · exact reached
              · split <;> exact reached

theorem W.checkHead_ground (p n : Nat) (w : W) : (W.checkHead p n w).ground = w.ground := by
  induction n generalizing w with
  | zero => rfl
  | succ n ih =>
    unfold W.checkHead
    split
    · next l _ =>
      split
      · have checked := W.checkLaunch_ground w l
        split
        · next h => rw [h] at checked; exact checked
        · next h => rw [h] at checked; rw [ih, W.refuseLaunch_ground]; exact checked
      · rfl
    · rfl

@[simp] theorem W.nextLaunch_ground (w : W) (p : Nat) : (w.nextLaunch p).ground = w.ground := W.checkHead_ground _ _ _

/-! ### Jobs, folio moves, batches and steps -/

@[simp] theorem W.breakJob_ground (w : W) (j : Job) : (w.breakJob j).ground = w.ground := by
  unfold W.breakJob
  split <;> simp

@[simp] theorem W.cancelJobs_ground (w : W) (p b : Nat) (q : Job → Bool) : (w.cancelJobs p b q).ground = w.ground := by
  unfold W.cancelJobs
  dsimp only
  split
  · split <;> simp
  · rfl

@[simp] theorem W.endRunningJob_ground (w : W) (b p : Nat) : (w.endRunningJob b p).ground = w.ground := by
  unfold W.endRunningJob
  split <;> simp

@[simp] theorem W.endJobs_ground (w : W) (p : Nat) : (w.endJobs p).ground = w.ground := foldl_ground (fun x b => by simp) _ w

@[simp] theorem W.readEntry_ground (w : W) (p a : Nat) : (w.readEntry p a).1.ground = w.ground := by
  unfold W.readEntry
  split <;> simp

theorem W.withFolio_ground {body : Nat → W → W} (h : ∀ v w, (body v w).ground = w.ground) (w : W) (e : Entry) (i : Nat) :
    (w.withFolio e i body).ground = w.ground := by
  have read := W.readEntry_ground w e.partition (w.fab.folioAddr e.partition i)
  unfold W.withFolio
  split
  · next r => rw [r] at read; exact read
  · next r => rw [r] at read; rw [h]; exact read

theorem W.withSeq_ground {body : Nat → W → W} (h : ∀ v w, (body v w).ground = w.ground) (w : W) (e : Entry) (i : Nat) :
    (w.withSeq e i body).ground = w.ground := by
  have read := W.readEntry_ground w e.partition (w.fab.seqAddr e.partition i)
  unfold W.withSeq
  split
  · next r => rw [r] at read; exact read
  · next r => rw [r] at read; rw [h]; exact read

theorem W.onSeq_ground {body : Nat → W → W} (h : ∀ v w, (body v w).ground = w.ground) (w : W) (p i : Nat) :
    (w.onSeq p i body).ground = w.ground := by
  have read := W.readEntry_ground w p (w.fab.seqAddr p i)
  unfold W.onSeq
  split
  · next r => rw [r] at read; exact read
  · next r => rw [r] at read; rw [h]; exact read

@[simp] theorem W.putFolio_ground (w : W) (p i v : Nat) : (w.putFolio p i v).ground = w.ground := W.putEntry_ground _ _ _ _

@[simp] theorem W.putSeq_ground (w : W) (p i v : Nat) : (w.putSeq p i v).ground = w.ground := W.putEntry_ground _ _ _ _

@[simp] theorem W.ends_ground (w : W) (e : Entry) (st : HostStatus) (detail : Nat) : (w.ends e st detail).ground = w.ground := rfl

@[simp] theorem W.startMove_ground (w : W) (e : Entry) (v s : Nat) : (w.startMove e v s).ground = w.ground := by simp [W.startMove]

theorem W.nextMove_ground (b n : Nat) (w : W) : (W.nextMove b n w).ground = w.ground := by
  induction n generalizing w with
  | zero => rfl
  | succ n ih =>
    unfold W.nextMove
    dsimp only
    split
    · rw [ih]
      refine W.withFolio_ground (fun v w => W.withSeq_ground (fun s w => ?_) w _ _) _ _ _
      split <;> simp
    · rfl

@[simp] theorem W.endMove_ground (w : W) (b : Nat) (st : HostStatus) : (w.endMove b st).ground = w.ground := by
  unfold W.endMove
  split
  · dsimp only
    rw [W.nextMove_ground]
    exact W.withFolio_ground (fun v w => W.withSeq_ground (fun s w => by simp) w _ _) _ _ _
  · rfl

@[simp] theorem W.endMoves_ground (w : W) (p : Nat) : (w.endMoves p).ground = w.ground := by
  refine foldl_ground (fun x b => ?_) _ w
  dsimp only
  split
  · split <;> simp
  · rfl

@[simp] theorem W.endBatch_ground (w : W) (b : Batch) : (w.endBatch b).ground = w.ground :=
  foldl_ground (fun x i => W.onSeq_ground (fun _ _ => W.putSeq_ground _ _ _ _) x b.partition i) b.seqs w

@[simp] theorem W.endBatches_ground (w : W) (p : Nat) : (w.endBatches p).ground = w.ground :=
  foldl_ground (fun x b => W.endBatch_ground x b) _ w

@[simp] theorem W.endStep_ground (w : W) (p : Nat) : (w.endStep p).ground = w.ground := by
  unfold W.endStep W.abandonRest
  rw [W.map_ground]
  split
  · exact foldl_ground (fun x s => W.abandonSlice_ground x p s) _ w
  · rfl

/-! ### Resets -/

@[simp] theorem W.zeroWindows_ground (w : W) (p : Nat) : (w.zeroWindows p).ground = w.ground := by
  unfold W.zeroWindows
  dsimp only
  rw [foldl_ground (fun x b => W.zero_ground x _ _ _), W.map_ground, foldl_ground (fun x c => W.zero_ground x _ _ _)]

@[simp] theorem W.zeroSram_ground (w : W) : w.zeroSram.ground = w.ground := rfl

@[simp] theorem W.leaveS1_ground (w : W) : w.leaveS1.ground = w.ground := rfl

@[simp] theorem W.functionReset_ground (w : W) (p : Nat) : (w.functionReset p).ground = w.ground := by simp [W.functionReset]

@[simp] theorem W.clearTables_ground (w : W) (p : Nat) : (w.clearTables p).ground = w.ground := rfl

@[simp] theorem W.startNoivos_ground (w : W) (p : Nat) : (w.startNoivos p).ground = w.ground := by
  unfold W.startNoivos
  dsimp only
  rw [W.map_ground]
  split <;> simp

@[simp] theorem W.written_ground (w : W) (t : Txn) (bytes : List Byte) (ecc : Ecc) : (w.written t bytes ecc).ground = w.ground := by
  unfold W.written
  dsimp only
  split <;> simp

@[simp] theorem W.landWrites_ground (w : W) : w.landWrites.ground = w.ground := by
  refine foldl_ground (fun x t => ?_) _ w
  split <;> simp

@[simp] theorem W.endOwners_ground (w : W) (b : Nat) : (w.endOwners b).ground = w.ground :=
  foldl_ground (fun x p => W.endContext_ground x p none (lpddrBase b)) _ w

@[simp] theorem W.loseChannel_ground (w : W) (b c : Nat) : (w.loseChannel b c).ground = w.ground :=
  foldl_ground (fun x a => W.put_ground x a 0) _ w

end Sys2Proof.Machine
end

section
/-! PROOFS. Frames of the other commands (O5): their lift leaves the security block, and all but the lift of resets and pins find no device
outside the running phase. -/

namespace Sys2Proof.Machine

open Sys2Proof Sys2Proof.Safety

/-- Work that meets no uncorrectable line and leaves the security block, under the lift of resets and pins. -/
theorem onAny_sec {s t : State} {f : W → W} (clean : (f (W.of s)).faults = []) (sec : (f (W.of s)).sec = s.sec)
    (h : onAny s f = .next t) : t.sec = s.sec := by
  unfold onAny at h
  rw [settled_of_faults clean] at h
  cases h
  exact sec

/-- The lift of a command that leaves the security block: none that may change it, but for the mailboxes, THERMTRIP_N and EWS_N. -/
theorem lift_of_leavesSecurity {c : Instr} (h : Claims.touchesSecurity c = false) :
    (liftOf c ≠ .all ∧ liftOf c ≠ .any) ∨ ∃ g : Fab → Fab, ∀ s, exec c s = onAny s (fun w => w.map g) := by
  cases c with
  | mailboxSend | mailboxRetract | mailboxTake | thermalTrip | ewsAsserted => exact .inr ⟨_, fun _ => rfl⟩
  | _ => simp [Claims.touchesSecurity, liftOf] at h ⊢

/-- The lift of a command that acts on a running device alone. -/
theorem lift_of_needsFirmware {c : Instr} (h : Claims.actsWithoutFirmware c = false) : liftOf c ≠ .any := by
  cases c <;> simp [Claims.actsWithoutFirmware, liftOf] at h ⊢

/-- Only the lift of resets and pins acts on a device whose firmware does not run. -/
theorem exec_absent {c : Instr} {s : State} (h : liftOf c ≠ .any) (hp : s.fab.phase ≠ .running) : exec c s = .next s := by
  have lifted := exec_lift c
  cases hk : liftOf c <;> rw [hk] at lifted <;> obtain ⟨f, hf⟩ := lifted
  case fab => rw [hf, onFab_down f hp]
  case host => rw [hf, onHost_down f hp]
  case read => rw [hf, onRead_down f hp]
  case mem => rw [hf, onMem_down f hp]
  case all => rw [hf, onAll_down f hp]
  case any => exact absurd hk h

/-- Settles O5: the security block by the command's lift, and the absent device by the phase that each lift but one asks for. -/
theorem otherCommandsLeaveSecurityAndAbsentDevices : Obligations.OtherCommandsLeaveSecurityAndAbsentDevices := by
  unfold Obligations.OtherCommandsLeaveSecurityAndAbsentDevices
  refine ⟨fun c s t leaves ht => ?_, fun c s needs hp => exec_absent (lift_of_needsFirmware needs) hp⟩
  obtain ⟨hall, hany⟩ | ⟨g, hg⟩ := lift_of_leavesSecurity leaves
  · obtain ⟨-, -, -, sec⟩ := exec_keeps ht
    exact sec hall hany
  · rw [hg] at ht
    exact onAny_sec rfl rfl ht

end Sys2Proof.Machine
end

section
/-! PROOFS. Fuses (O4): the wear count, a raise of the security version, a revoked key and the debug fuse are the only writes of the fuse
array, and each of them blows (R451, R491 to R493). -/

namespace Sys2Proof.Machine

open Sys2Proof Sys2Proof.Safety

theorem fusesKept_refl (a : Fuses) : FusesKept a a :=
  ⟨le_rfl, le_rfl, BitVec.and_self, id, rfl, rfl, rfl, rfl, rfl⟩

theorem fusesKept_of_eq {a b : Fuses} (h : b = a) : FusesKept a b := h ▸ fusesKept_refl a

/-- Work on the same security block has the same fuses. -/
theorem W.fuses_of_ground {w x : W} (h : w.ground = x.ground) : w.sec.fuses = x.sec.fuses := congrArg (fun g => g.2.fuses) h

/-! ### Work that leaves the fuses -/

theorem W.settleOwner_fuses (w : W) (p : Nat) : (w.settleOwner p).sec.fuses = w.sec.fuses := by
  unfold W.settleOwner
  dsimp only
  split
  · split <;> rfl
  · split <;> rfl

theorem W.settleOwners_fuses (l : List Nat) (w : W) : (l.foldl (fun (x : W) p => x.settleOwner p) w).sec.fuses = w.sec.fuses :=
  foldl_keeps (fun w : W => w.sec.fuses) W.settleOwner_fuses l w

theorem W.rekeyAll_fuses (w : W) : w.rekeyAll.sec.fuses = w.sec.fuses := by
  unfold W.rekeyAll
  refine foldl_keeps (fun w : W => w.sec.fuses) (fun x p => ?_) _ w
  rfl

theorem W.warmReset_fuses (w : W) (cause : Nat) : (w.warmReset cause).sec.fuses = w.sec.fuses := by
  unfold W.warmReset
  dsimp only
  split
  · rfl
  · rw [W.rekeyAll_fuses]
    rfl

theorem Sec.clearPartition_fuses (s : Sec) (p : Nat) : (s.clearPartition p).fuses = s.fuses := rfl

theorem W.resetPartition_fuses (w : W) (p : Nat) : (w.resetPartition p).sec.fuses = w.sec.fuses := by
  unfold W.resetPartition
  extract_lets lost w1 w2 w3
  have kept : w2.sec.fuses = w.sec.fuses := W.fuses_of_ground (by simp [w2, w1])
  have cleared : w3.sec.fuses = w2.sec.fuses := Sec.clearPartition_fuses w2.sec p
  exact (congrArg Sec.fuses (W.map_sec w3 _)).trans (cleared.trans kept)

theorem W.begins_fuses {commit : W → Nat → W} (h : ∀ w n, (commit w n).sec.fuses = w.sec.fuses) (w : W) :
    (W.dead.begins w commit).sec.fuses = w.sec.fuses := by
  unfold W.dead.begins
  dsimp only
  rw [W.map_sec, W.settleOwners_fuses, h, W.map_sec]

theorem W.dead_fuses (w : W) (ch : Nat) : (w.dead ch).sec.fuses = w.sec.fuses := by
  have lost : (((w.endOwners (ch / 32)).loseChannel (ch / 32) (ch % 32))).sec.fuses = w.sec.fuses :=
    W.fuses_of_ground (by simp)
  unfold W.dead
  extract_lets b c w1 commit
  have commits : ∀ w n, (commit w n).sec.fuses = w.sec.fuses := fun _ _ => rfl
  split
  · rfl
  · split
    · split
      · exact lost
      · split
        · exact (W.begins_fuses commits w1).trans lost
        · split
          · exact (commits w1 _).trans lost
          · rfl
    · exact (W.begins_fuses commits w1).trans lost

theorem missedRefresh_fuses (i : Nat) (w : W) : (missedRefresh i w).sec.fuses = w.sec.fuses := by
  unfold missedRefresh
  dsimp only
  split
  · exact (W.fuses_of_ground (foldl_ground (fun x k => W.loseChannel_ground x _ _) _ _)).trans
      (foldl_keeps (fun w : W => w.sec.fuses) (fun x k => W.dead_fuses x _) _ w)
  · rfl

theorem accessTimeout_fuses (ch : Nat) (w : W) : (accessTimeout ch w).sec.fuses = w.sec.fuses := by
  unfold accessTimeout
  split
  · rfl
  · split
    · rfl
    · exact W.dead_fuses _ _

theorem retrainingFailure_fuses (ch : Nat) (w : W) : (retrainingFailure ch w).sec.fuses = w.sec.fuses := by
  unfold retrainingFailure
  split
  · rfl
  · split
    · rfl
    · dsimp only
      split
      · exact W.dead_fuses _ _
      · rfl

theorem W.admitLaunch_fuses (w : W) (l : Launch) : (w.admitLaunch l).sec.fuses = w.sec.fuses := rfl

theorem launchAdmit_fuses (p : Nat) (w : W) : (launchAdmit p w).sec.fuses = w.sec.fuses := by
  unfold launchAdmit
  split
  · next l _ =>
    dsimp only
    split
    · split
      · exact W.fuses_of_ground (by simp)
      · have reached := W.rubricReach_ground p [(l.image, 64 + 8 * l.count, false)] (w.map (fun f => f.leaveFinished l.clusters))
        split
        · next h =>
          rw [h] at reached
          rw [W.fuses_of_ground (W.nextLaunch_ground _ _), W.admitLaunch_fuses]
          exact W.fuses_of_ground reached
        · next h => rw [h] at reached; exact W.fuses_of_ground (by simpa using reached)
        · next h => rw [h] at reached; exact W.fuses_of_ground (by simpa using reached)
    · rfl
  · rfl

theorem perstAssert_fuses (w : W) : (perstAssert w).sec.fuses = w.sec.fuses := by
  unfold perstAssert
  dsimp only
  split
  · rfl
  · rfl
  · exact W.fuses_of_ground (foldl_ground (fun x p => W.functionReset_ground x p) partitions _)
  · rfl

theorem powerLoss_fuses (w : W) : (powerLoss w).sec.fuses = w.sec.fuses := by
  unfold powerLoss
  split <;> rfl

theorem warmResetPin_fuses (w : W) : (warmResetPin w).sec.fuses = w.sec.fuses := by
  unfold warmResetPin
  dsimp only
  split
  · rfl
  · exact W.warmReset_fuses _ _
  · rfl

theorem perstRelease_fuses (width rate : Nat) (w : W) : (perstRelease width rate w).sec.fuses = w.sec.fuses := by
  unfold perstRelease
  split
  · rfl
  · dsimp only
    split <;> rfl

theorem coldReset_fuses (w : W) : (coldReset w).sec.fuses = w.sec.fuses := by
  unfold coldReset
  split <;> rfl

theorem bootGo_fuses (address length : Nat) (w : W) : (bootGo address length w).sec.fuses = w.sec.fuses := by
  unfold bootGo
  split <;> rfl

theorem bootCheckFailed_fuses (code : Nat) (i : FirmwareImage) (w : W) : (bootCheckFailed code i w).sec.fuses = w.sec.fuses := by
  unfold bootCheckFailed
  split <;> rfl

theorem firmwareStart_fuses (i : FirmwareImage) (w : W) : (firmwareStart i w).sec.fuses = w.sec.fuses := by
  unfold firmwareStart
  split <;> rfl

theorem rstRelease_fuses (w : W) : (rstRelease w).sec.fuses = w.sec.fuses := by
  unfold rstRelease
  dsimp only
  split <;> rfl

theorem attestSigned_fuses (who : Nat) (w : W) : (attestSigned who w).sec.fuses = w.sec.fuses := by
  unfold attestSigned
  split
  · split <;> rfl
  · rfl

/-! ### Writes of dictionary entries -/

theorem W.versionRaise_fuses (w : W) (v : Nat) : FusesKept w.sec.fuses (w.versionRaise v).2.sec.fuses := by
  unfold W.versionRaise
  split
  · exact fusesKept_refl _
  · next h => exact { fusesKept_refl w.sec.fuses with versionMin := by show w.sec.fuses.versionMin ≤ v; omega }

theorem W.revokeKey_fuses (w : W) (k : Nat) : FusesKept w.sec.fuses (w.revokeKey k).2.sec.fuses := by
  unfold W.revokeKey
  dsimp only
  split
  · exact fusesKept_refl _
  · exact { fusesKept_refl w.sec.fuses with
      revoked := by show w.sec.fuses.revoked &&& (w.sec.fuses.revoked ||| _) = _; ext i; simp +contextual }

theorem W.disableDebug_fuses (w : W) (v : Nat) : FusesKept w.sec.fuses (w.disableDebug v).2.sec.fuses := by
  unfold W.disableDebug
  split
  · exact fusesKept_refl _
  · exact { fusesKept_refl w.sec.fuses with debugDisable := fun _ => rfl }

theorem W.keyWrite_fuses (w : W) (ch : Nat) (r : List Byte) : (w.keyWrite ch r).2.sec.fuses = w.sec.fuses := by
  unfold W.keyWrite
  extract_lets ports
  split <;> rfl

theorem W.attestRequest_fuses (w : W) (who : Nat) (r : List Byte) : (w.attestRequest who r).2.sec.fuses = w.sec.fuses := by
  unfold W.attestRequest
  extract_lets addr size
  split
  · rfl
  · split <;> rfl

theorem W.startPartition_fuses (w : W) (p : Nat) : (w.startPartition p).2.sec.fuses = w.sec.fuses := by
  unfold W.startPartition
  dsimp only
  split
  · rfl
  · split
    · rfl
    · split
      · rfl
      · exact W.fuses_of_ground (by simp)

theorem W.mapWrite_fuses (w : W) (i s v : Nat) : (w.mapWrite i s v).2.sec.fuses = w.sec.fuses := by
  unfold W.mapWrite
  dsimp only
  split
  · rfl
  · split
    · rfl
    · exact W.settleOwners_fuses _ _

theorem W.powerRequest_fuses (w : W) (v : Nat) : (w.powerRequest v).sec.fuses = w.sec.fuses := by
  unfold W.powerRequest
  dsimp only
  split
  · split
    · rfl
    · exact W.fuses_of_ground (by simp)
  · split
    · exact W.fuses_of_ground (W.leaveS1_ground w)
    · rfl

theorem W.switchClock_fuses (w : W) (i : Nat) (b : Bool) : (w.switchClock i b).sec.fuses = w.sec.fuses := by
  unfold W.switchClock
  dsimp only
  split
  · exact W.fuses_of_ground (W.clusterReset_ground _ _)
  · rfl

/-- The entries whose writes reach the fuses are those of 0xA001 (R492, R493). -/
theorem W.entryWrite_fuses (w : W) (i s v : Nat) (b : List Byte) : FusesKept w.sec.fuses (w.entryWrite i s v b).2.sec.fuses := by
  unfold W.entryWrite
  dsimp only
  split
  case h_1 => split; exacts [fusesKept_of_eq (W.powerRequest_fuses w v), fusesKept_refl _]
  case h_2 =>
    split
    · refine fusesKept_of_eq ?_
      show (if v = 1 then w.warmCommand else w).sec.fuses = _
      split; exacts [W.warmReset_fuses w 2, rfl]
    · exact fusesKept_refl _
  case h_3 =>
    refine fusesKept_of_eq ?_
    show (if v = 1 then w.resetPartition (s - 1) else w).sec.fuses = _
    split; exacts [W.resetPartition_fuses w _, rfl]
  case h_4 => exact fusesKept_of_eq (W.fuses_of_ground (W.clusterReset_ground w v))
  case h_5 =>
    split
    · exact fusesKept_of_eq (W.switchClock_fuses w _ _)
    · split <;> exact fusesKept_refl _
  case h_13 =>
    split
    · exact W.versionRaise_fuses w v
    · split; exacts [W.revokeKey_fuses w v, W.disableDebug_fuses w v]
  case h_15 => exact fusesKept_of_eq (W.keyWrite_fuses w _ b)
  case h_16 => exact fusesKept_of_eq (W.keyWrite_fuses w _ b)
  case h_17 => exact fusesKept_of_eq (W.attestRequest_fuses w _ b)
  case h_18 => exact fusesKept_of_eq (W.attestRequest_fuses w _ b)
  case h_20 => split; exacts [fusesKept_of_eq (W.startPartition_fuses w _), fusesKept_refl _]
  case h_21 =>
    split
    · refine fusesKept_of_eq ?_
      dsimp only
      split; exacts [W.mapWrite_fuses w i s v, W.mapWrite_fuses w i s v]
    · exact fusesKept_refl _
  case h_6 | h_7 | h_10 | h_14 => exact fusesKept_refl _
  case h_8 | h_9 | h_12 | h_19 => split <;> exact fusesKept_refl _
  case h_11 =>
    split
    · split <;> exact fusesKept_refl _
    · exact fusesKept_refl _

theorem W.applyWrite_fuses (w : W) (rq : Requester) (d : Desc) (i s : Nat) (b : List Byte) :
    FusesKept w.sec.fuses (w.applyWrite rq d i s b).2.sec.fuses := by
  unfold W.applyWrite
  extract_lets v w1
  split
  · exact fusesKept_refl _
  · split
    · dsimp only
      split <;> exact fusesKept_refl _
    · split
      · exact fusesKept_refl _
      · exact W.entryWrite_fuses w1 i s v b

theorem W.command_fuses (w : W) (rq : Requester) (i s : Nat) (b : List Byte) : FusesKept w.sec.fuses (w.command rq i s b).sec.fuses := by
  unfold W.command
  extract_lets fr answer g
  split
  · split <;> exact fusesKept_refl _
  · split
    · exact fusesKept_refl _
    · split
      · exact fusesKept_refl _
      · split
        · exact fusesKept_refl _
        · next d _ =>
          split
          · exact fusesKept_refl _
          · exact W.applyWrite_fuses g rq d i s b

theorem rinayWrite_fuses (rq : Requester) (fr : Frame) (w : W) : FusesKept w.sec.fuses (rinayWrite rq fr w).sec.fuses := by
  unfold rinayWrite
  split
  · exact fusesKept_refl _
  · split
    · exact fusesKept_refl _
    · split
      · exact fusesKept_refl _
      · extract_lets g answer
        split
        · exact fusesKept_refl _
        · exact fusesKept_refl _
        · next d _ =>
          extract_lets r x
          split
          · next b _ => exact W.applyWrite_fuses x rq d fr.index fr.subindex b
          · exact fusesKept_refl _

theorem jtagAccess_fuses (fr : Frame) (w : W) : FusesKept w.sec.fuses (jtagAccess fr w).sec.fuses := by
  unfold jtagAccess
  split
  · exact fusesKept_refl _
  · extract_lets rq g sec w1
    split
    · exact fusesKept_refl _
    · split
      · exact rinayWrite_fuses rq fr w1
      · split <;> exact fusesKept_refl _

theorem wearSecond_fuses (tenths : Int) (w : W) : FusesKept w.sec.fuses (wearSecond tenths w).sec.fuses := by
  unfold wearSecond
  dsimp only
  split
  · split
    · exact { fusesKept_refl w.sec.fuses with wear := Nat.le_succ _ }
    · exact fusesKept_refl _
  · exact fusesKept_refl _

/-! ### Commands -/

/-- The command's work, and the end of the contexts that it met, keep the fuses. -/
theorem onAll_fuses {s t : State} {f : W → W} (kept : FusesKept s.sec.fuses (f (W.of s)).sec.fuses) (h : onAll s f = .next t) :
    FusesKept s.sec.fuses t.sec.fuses := by
  unfold onAll at h
  cases h
  split
  · have settled := W.fuses_of_ground (W.settled_ground (f (W.of s)))
    exact settled ▸ kept
  · exact fusesKept_refl _

theorem onAny_fuses {s t : State} {f : W → W} (kept : FusesKept s.sec.fuses (f (W.of s)).sec.fuses) (h : onAny s f = .next t) :
    FusesKept s.sec.fuses t.sec.fuses := by
  unfold onAny at h
  cases h
  have settled := W.fuses_of_ground (W.settled_ground (f (W.of s)))
  exact settled ▸ kept

/-- A write that its record's operation selects. -/
theorem selectedWrite_fuses (w : W) (q : Prop) [Decidable q] (rq : Requester) (i s : Nat) (b : List Byte) :
    FusesKept w.sec.fuses (if q then w.command rq i s b else w).sec.fuses := by
  split
  · exact W.command_fuses w rq i s b
  · exact fusesKept_refl _

/-- A command that may change the security block is work that keeps the fuses, under the lift of everything but the queue or that of
resets and pins. -/
theorem exec_touching {c : Instr} (touches : Claims.touchesSecurity c = true) :
    ∃ f, ((∀ s, exec c s = onAll s f) ∨ ∀ s, exec c s = onAny s f) ∧ ∀ w : W, FusesKept w.sec.fuses (f w).sec.fuses := by
  cases c with
  | dictionaryWrite | portModeWrite | portEnableWrite | eventLogRelease | noivosFullRestoreLocal | noivosDeltaRestoreLocal
  | noivosFullRestoreRemote | noivosDeltaRestoreRemote | powerStateRequestS1 | powerStateRequestP0 | clockSourceRequestA
  | clockSourceRequestB | warmReset | partitionReset | clusterReset | partitionStart | partitionStop | strictIsolationWrite
  | macsecModeWrite | managementKey | attestationRequest | deviceAttestationRequest | securityVersionRaise | keyRevoke
  | debugDisable => exact ⟨_, .inl fun _ => rfl, fun w => W.command_fuses w _ _ _ _⟩
  | ewsResume rq pinHigh => exact ⟨_, .inl fun _ => rfl, fun w => W.command_fuses (w.map _) _ _ _ _⟩
  | partitionMapWrite | macsecKeyInstall | macsecKeyDelete | operatorMacsecKeyInstall | operatorMacsecKeyDelete =>
    exact ⟨_, .inl fun _ => rfl, fun w => selectedWrite_fuses w _ _ _ _ _⟩
  | rinayWrite rq fr => exact ⟨_, .inl fun _ => rfl, rinayWrite_fuses rq fr⟩
  | jtagDictionaryAccess fr => exact ⟨_, .inl fun _ => rfl, jtagAccess_fuses fr⟩
  | wearSecond tenths => exact ⟨_, .inl fun _ => rfl, wearSecond_fuses tenths⟩
  | attestationSigned who => exact ⟨_, .inl fun _ => rfl, fun w => fusesKept_of_eq (attestSigned_fuses who w)⟩
  | launchAdmit p => exact ⟨_, .inl fun _ => rfl, fun w => fusesKept_of_eq (launchAdmit_fuses p w)⟩
  | accessTimeout ch => exact ⟨_, .inl fun _ => rfl, fun w => fusesKept_of_eq (accessTimeout_fuses ch w)⟩
  | missedRefreshTimeout i => exact ⟨_, .inl fun _ => rfl, fun w => fusesKept_of_eq (missedRefresh_fuses i w)⟩
  | retrainingFailure ch => exact ⟨_, .inr fun _ => rfl, fun w => fusesKept_of_eq (retrainingFailure_fuses ch w)⟩
  | hpPerstAssert => exact ⟨_, .inr fun _ => rfl, fun w => fusesKept_of_eq (perstAssert_fuses w)⟩
  | hpPerstRelease width rate => exact ⟨_, .inr fun _ => rfl, fun w => fusesKept_of_eq (perstRelease_fuses width rate w)⟩
  | powerLoss => exact ⟨_, .inr fun _ => rfl, fun w => fusesKept_of_eq (powerLoss_fuses w)⟩
  | coldReset => exact ⟨_, .inr fun _ => rfl, fun w => fusesKept_of_eq (coldReset_fuses w)⟩
  | bootGo address length => exact ⟨_, .inr fun _ => rfl, fun w => fusesKept_of_eq (bootGo_fuses address length w)⟩
  | bootCheckFailed code image => exact ⟨_, .inr fun _ => rfl, fun w => fusesKept_of_eq (bootCheckFailed_fuses code image w)⟩
  | firmwareStart image => exact ⟨_, .inr fun _ => rfl, fun w => fusesKept_of_eq (firmwareStart_fuses image w)⟩
  | warmResetPin => exact ⟨_, .inr fun _ => rfl, fun w => fusesKept_of_eq (warmResetPin_fuses w)⟩
  | rstNRelease => exact ⟨_, .inr fun _ => rfl, fun w => fusesKept_of_eq (rstRelease_fuses w)⟩
  | tapReset =>
    refine ⟨fun w => if w.fab.phase = .off ∨ w.sec.fuses.debugDisable then w else { w with sec := { w.sec with tapReset := true } },
      .inr fun _ => rfl, fun w => fusesKept_of_eq ?_⟩
    dsimp only
    split <;> rfl
  | _ => exact absurd touches Bool.noConfusion

/-- What a command that may change the security block does to the fuses. -/
theorem exec_touching_fuses {c : Instr} {s t : State} (touches : Claims.touchesSecurity c = true) (h : exec c s = .next t) :
    FusesKept s.sec.fuses t.sec.fuses := by
  obtain ⟨f, hf | hf, kept⟩ := exec_touching touches
  · exact onAll_fuses (kept (W.of s)) (hf s ▸ h)
  · exact onAny_fuses (kept (W.of s)) (hf s ▸ h)

/-- Settles O4: the fuses change by the writes of 0xA001 and by WEAR_SECOND, each of which blows; a command that touches no part of the
security block is O5's. -/
theorem stepKeepsFuses : Obligations.StepKeepsFuses := by
  unfold Obligations.StepKeepsFuses
  intro s t h
  unfold step at h
  split at h
  · cases h
    exact fusesKept_refl _
  · next c r _ =>
    cases touches : Claims.touchesSecurity c with
    | true => exact exec_touching_fuses (s := { s with pending := r }) touches h
    | false =>
      obtain ⟨leaves, -⟩ := otherCommandsLeaveSecurityAndAbsentDevices
      exact fusesKept_of_eq (congrArg (·.fuses) (leaves c _ t touches h))

end Sys2Proof.Machine
end

section
/-! PROOFS. The state after reset (O6): the only entries of the dictionary that a reset writes are Reference state and the PCIe link's, so
that every other entry reads its default. -/

namespace Sys2Proof.Machine

open Sys2Proof Sys2Proof.Safety

/-- After reset no unit of the partition map has an owner (R470, R476). -/
theorem reset_unowned :
    (∀ d < 16, Fab.reset.dget 0xB100 (d + 1) = 0xFF) ∧ (∀ i < 16, Fab.reset.dget 0xB101 (i + 1) = 0xFF) ∧
    (∀ g < 62, Fab.reset.dget 0xB102 (g + 1) = 0xFF) ∧ ∀ p < 16, Fab.reset.dget 0xB001 (p + 1) = 0 := by
  decide +kernel

/-- After reset no cluster has an owner: it takes that of its compute die, or of its Fine pair (R17, R470). -/
theorem clusterOwner_reset {c : Nat} (h : c < 800) : Fab.reset.clusterOwner c = 0xFF := by
  obtain ⟨dies, pairs, -, -⟩ := reset_unowned
  unfold Fab.clusterOwner
  split
  · exact dies (c / 48) (by omega)
  · exact pairs ((c - 768) / 2) (by omega)

/-- Settles O6: every entry that it names reads its default (`reset_unowned`), and every table is empty. -/
theorem resetState : Obligations.ResetState := by
  unfold Obligations.ResetState
  obtain ⟨-, -, granules, states⟩ := reset_unowned
  exact ⟨⟨rfl, rfl, by decide +kernel, by decide +kernel, states, fun c => clusterOwner_reset, granules, rfl, rfl, fun _ => rfl, rfl, rfl,
    rfl, rfl⟩, rfl⟩

end Sys2Proof.Machine
end

section
/-! PROOFS. Mailbox messages, and the ring commands of the counters (O29): what a message leaves of its mailbox, and what a ring command
that reads no memory leaves (R118, R120, R391, R395 to R400). -/

namespace Sys2Proof.Machine

open Sys2Proof Sys2Proof.Safety

variable {s : State} {f g : Fab} {e : Entry} {op p m : Nat} {st : HostStatus} {c : Instr} {who : Party}

/-! ### Mailboxes -/

@[simp] theorem Fab.mailbox_setMailbox (f : Fab) (p m : Nat) (b : Mailbox) : (f.setMailbox p m b).mailbox p m = b :=
  Tbl.get_set_same _ _ _ _

@[simp] theorem Fab.receiver_setMailbox (f : Fab) (p m q n : Nat) (b : Mailbox) :
    (f.setMailbox p m b).receiver q n = f.receiver q n := rfl

@[simp] theorem Fab.interrupts_setMailbox (f : Fab) (p m : Nat) (b : Mailbox) : (f.setMailbox p m b).interrupts = f.interrupts := rfl

@[simp] theorem Fab.mailbox_interrupt (f : Fab) (who : Party) (q v p m : Nat) : (f.interrupt who q v).mailbox p m = f.mailbox p m := by
  cases who <;> rfl

/-- The interrupts of a host party, and none of the firmware's. -/
theorem Fab.interrupts_interrupt (f : Fab) (who : Party) (p v : Nat) :
    (f.interrupt who p v).interrupts = f.interrupts ++ (match who with | .pf => [(0, v)] | .vf => [(p + 1, v)] | .firmware => []) := by
  cases who <;> simp [Fab.interrupt]

@[simp] theorem Mailbox.ctl_setCtl (b : Mailbox) (who : Party) (x : SendCtl) : (b.setCtl who x).ctl who = x := Tbl.get_set_same _ _ _ _

/-- A mailbox with nothing waiting lands nothing. -/
theorem Fab.land_of_waiting (quiet : (f.mailbox p m).waiting = []) : f.land p m = f := by
  rw [Fab.land, quiet]
  cases (f.mailbox p m).slot <;> rfl

/-- A message waiting before an empty slot lands. -/
theorem Fab.land_of_slot {x : Party × W32 × BitVec 512} (empty : (f.mailbox p m).slot = none) (one : (f.mailbox p m).waiting = [x]) :
    f.land p m = (f.setMailbox p m { f.mailbox p m with slot := some x, waiting := [] }).interrupt (f.receiver p m) p 2 := by
  rw [Fab.land, empty, one]

/-- A party that may speak to mailboxes of the 16 partitions, with the firmware running and the link up. -/
theorem Fab.mailboxesFor_of_running (running : f.phase = .running) (who : Party) : f.mailboxesFor who = true := by
  simp [Fab.mailboxesFor, running]

theorem Fab.partyReaches_of_link (up : f.inPins.linkUp = true) (who : Party) : f.partyReaches who = true := by
  simp [Fab.partyReaches, up]

theorem mailboxOk_of_lt (hp : p < 16) (hm : m < 64) : mailboxOk p m = true := by simp [mailboxOk, hp, hm]

/-- Work on the device alone, in whatever phase. -/
theorem onAny_map (s : State) (k : Fab → Fab) : onAny s (fun w => w.map k) = .next { s with fab := k s.fab } := rfl

theorem exec_mailboxSend (running : s.fab.phase = .running) (up : s.fab.inPins.linkUp = true) (hp : p < 16) (hm : m < 64)
    (msg : BitVec 512) : exec (.mailboxSend who p m msg) s = .next { s with fab := s.fab.send who p m msg } := by
  refine (onAny_map s _).trans ?_
  rw [if_pos]
  simp [Fab.mailboxesFor_of_running running, Fab.partyReaches_of_link up, mailboxOk_of_lt hp hm]

theorem exec_mailboxRetract (running : s.fab.phase = .running) :
    exec (.mailboxRetract who p m) s = .next { s with fab := mailboxRetract who p m s.fab } := by
  refine (onAny_map s _).trans ?_
  rw [if_pos (Fab.mailboxesFor_of_running running who)]

theorem exec_mailboxTake (running : s.fab.phase = .running) :
    exec (.mailboxTake who p m) s = .next { s with fab := mailboxTake who p m s.fab } := by
  refine (onAny_map s _).trans ?_
  rw [if_pos (Fab.mailboxesFor_of_running running who)]

/-- The first message to an empty mailbox. -/
theorem Fab.send_of_empty (empty : (f.mailbox p m).slot = none) (quiet : (f.mailbox p m).waiting = []) (msg : BitVec 512) :
    f.send who p m msg = (((f.setMailbox p m
      { (f.mailbox p m).setCtl who ⟨1, false⟩ with waiting := [(who, f.stamp who p, msg)] }).setMailbox p m
        { (f.mailbox p m).setCtl who ⟨1, false⟩ with slot := some (who, f.stamp who p, msg), waiting := [] }).interrupt
          (f.receiver p m) p 2) := by
  have free : (f.mailbox p m).holds who = false := by simp [Mailbox.holds, empty, quiet]
  rw [Fab.send, free, quiet]
  refine (Fab.land_of_slot (x := (who, f.stamp who p, msg)) ?_ ?_).trans ?_
  · simpa [Mailbox.setCtl] using empty
  · simp
  · simp

/-- A message of a sender that has one there. -/
theorem Fab.send_of_holds (has : (f.mailbox p m).holds who = true) (msg : BitVec 512) :
    f.send who p m msg = f.setMailbox p m ((f.mailbox p m).setCtl who { (f.mailbox p m).ctl who with ignored := true }) := by
  rw [Fab.send, if_pos has]

/-- A host's message taken back from a slot behind which nothing waits. -/
theorem mailboxRetract_of_slot {stamp : W32} {msg : BitVec 512} (up : f.inPins.linkUp = true) (hp : p < 16) (hm : m < 64)
    (host : who ≠ .firmware) (slot : (f.mailbox p m).slot = some (who, stamp, msg)) (quiet : (f.mailbox p m).waiting = []) :
    mailboxRetract who p m f = f.setMailbox p m
      { (f.mailbox p m).setCtl who { (f.mailbox p m).ctl who with state := 3 } with slot := none, waiting := [] } := by
  have has : (f.mailbox p m).holds who = true := by simp [Mailbox.holds, slot]
  rw [mailboxRetract]
  dsimp only
  rw [if_neg (by simp [host, mailboxOk_of_lt hp hm, Fab.partyReaches_of_link up, has]), slot, quiet]
  dsimp only
  rw [if_pos rfl,
    Fab.land_of_waiting (by simp)]
  rfl

/-- A host's message taken by its receiver from a slot behind which nothing waits. -/
theorem mailboxTake_of_slot {stamp : W32} {msg : BitVec 512} (up : f.inPins.linkUp = true) (hp : p < 16) (hm : m < 64) (hm2 : 2 ≤ m)
    (host : who ≠ .firmware) (slot : (f.mailbox p m).slot = some (who, stamp, msg)) (quiet : (f.mailbox p m).waiting = []) :
    mailboxTake (f.receiver p m) p m f = (f.setMailbox p m
      { (f.mailbox p m).setCtl who { (f.mailbox p m).ctl who with state := 2 } with slot := none }).interrupt who p 1 := by
  rw [mailboxTake]
  dsimp only
  rw [slot]
  dsimp only
  rw [if_neg (by simp [mailboxOk_of_lt hp hm, Fab.partyReaches_of_link up]), if_neg (by omega), if_neg host,
    Fab.land_of_waiting (by simpa [Mailbox.setCtl] using quiet)]

/-! ### Ring commands that reach no memory -/

/-- A ring command of the device that is the next of its function. -/
theorem exec_ring_of_front (front : Claims.front s e op = true) (body : Fab → Fab)
    (lift : exec c s = onFab s (fun f => f.ring e op body)) :
    exec c s = .next { s with fab := body (s.fab.withTaken e) } := by
  obtain ⟨running, code, pop, -⟩ := front_spec front
  rw [lift, onFab_running _ running, Fab.ring, if_pos code, pop]

/-- The completion of a ring command, on a device whose functions differ by the entry taken alone. -/
theorem completed_of_taken (front : Claims.front s e op = true) (vfs : g.vfs = (s.fab.withTaken e).vfs) (st : HostStatus) (d : Nat) :
    Claims.Completed s { s with fab := g.completeEntry e st d } e st.code d := by
  obtain ⟨-, -, -, opened⟩ := front_spec front
  obtain ⟨own, others⟩ := (opened.withTaken.of_vfs vfs).completeEntry_vf st d
  rw [Fab.vf_of_vfs vfs, Fab.withTaken, Fab.vf_onVf_same] at own
  refine ⟨by rw [own], by rw [own], by rw [own], fun q other => ?_, rfl⟩
  exact (others q other).trans ((Fab.vf_of_vfs vfs q).trans (Fab.vf_onVf_ne _ _ other))

/-- A completion that is no BAD_COMMAND changes functions alone. -/
theorem Fab.Opened.completeEntry_vfs (h : f.Opened e) (good : st ≠ .badCommand) (d : Nat) :
    { f.completeEntry e st d with vfs := [] } = { f with vfs := [] } := by
  rw [h.completeEntry st d, if_neg good]
  rfl

/-! ### Counter entries -/

/-- The device with a counter entry joined to the line of those that wait, and let go. -/
def Fab.lined (f : Fab) (e : Entry) : Fab :=
  (f.onVf e.partition (fun v => { v with ordered := v.ordered ++ [e] })).onVf e.partition
    (fun v => { v with ordered := removeFirst (· == e) v.ordered })

/-- Where none waited, each function is as it was. -/
theorem Fab.vf_lined (free : (f.vf e.partition).ordered = []) (q : Nat) : (f.lined e).vf q = f.vf q := by
  rw [Fab.lined]
  by_cases own : q = e.partition
  · subst own
    rw [Fab.vf_onVf_same, Fab.vf_onVf_same, free]
    simp only [List.nil_append, removeFirst, beq_self_eq_true, if_true]
    rw [← free]
  · rw [Fab.vf_onVf_ne _ _ own, Fab.vf_onVf_ne _ _ own]

/-- A counter entry of a ring with no earlier command open takes effect and completes. -/
theorem Fab.Opened.orderCounter (h : f.Opened e)
    (first : ∀ y, (f.vf e.partition).openCmds.find? (fun x => x.1.ring == e.ring) = some y → y.1 = e) :
    f.orderCounter e = ((f.lined e).counterEntry e).completeEntry e .done := by
  have mayGo : (f.vf e.partition).first e = true := by
    unfold Vf.first
    split
    · next x found => exact beq_iff_eq.2 (first x found)
    · rfl
  have free : (((f.lined e).counterEntry e).vf e.partition).ordered = [] :=
    (congrArg Vf.ordered (Fab.vf_lined h.free e.partition)).trans h.free
  have goes : ({ f.vf e.partition with ordered := [e] } : Vf).first e = true := mayGo
  rw [Fab.orderCounter]
  rw [Fab.vf_onVf_same, h.free, List.nil_append, List.length_singleton, Fab.flushOrdered, Fab.vf_onVf_same, h.free, List.nil_append,
    List.find?_cons, goes]
  dsimp only
  rw [Fab.flushOrdered, Fab.completeEntry, if_neg (by decide), Fab.complete, free]
  rfl

/-- The functions of a device with a counter entry in effect. -/
theorem Fab.Opened.counted (h : f.Opened e) : ((f.lined e).counterEntry e).Opened e := by
  have vf : ((f.lined e).counterEntry e).vf e.partition = f.vf e.partition := Fab.vf_lined h.free e.partition
  exact ⟨vf ▸ h.room, vf ▸ h.free, vf ▸ h.mine⟩

/-- A counter entry that is the next of its function, with no earlier command of its ring open. -/
theorem exec_counterEntry (front : Claims.front s e op = true)
    (lift : exec c s = .next { s with fab := (s.fab.withTaken e).orderCounter e })
    (first : ∀ y, (s.fab.vf e.partition).openCmds.find? (fun x => x.1.ring == e.ring) = some y → y.1 = e) :
    ∃ t, exec c s = .next t ∧ Claims.Completed s t e 0 0 ∧ DeviceOnly s t ∧ ∀ k, t.fab.packageCtr.get 0 k =
      if k = 64 * e.partition + word e 0 % 64 then
        (if op = 0x05 then s.fab.packageCtr.get 0 (64 * e.partition + word e 0 % 64) + BitVec.ofNat 32 (word e 1 % 65536)
          else BitVec.ofNat 32 (word e 1))
      else s.fab.packageCtr.get 0 k := by
  obtain ⟨-, code, -, opened⟩ := front_spec front
  have taken := opened.withTaken
  have vf : ((s.fab.withTaken e).vf e.partition) = { s.fab.vf e.partition with fetched := (s.fab.vf e.partition).fetched.tail } :=
    Fab.vf_onVf_same _ _ _
  have ran := taken.orderCounter (fun y found => first y (by rw [vf] at found; exact found))
  generalize hg : ((s.fab.withTaken e).lined e).counterEntry e = g at ran
  have same : ∀ q, g.vf q = (s.fab.withTaken e).vf q := fun q => by rw [← hg]; exact Fab.vf_lined taken.free q
  have opened' : g.Opened e := hg ▸ taken.counted
  obtain ⟨own, others⟩ := opened'.completeEntry_vf .done 0
  rw [same, Fab.withTaken, Fab.vf_onVf_same] at own
  refine ⟨_, lift, ⟨?_, ?_, ?_, fun q other => ?_, rfl⟩, ⟨rfl, rfl, rfl⟩, fun k => ?_⟩
  · rw [ran, own]; rfl
  · rw [ran, own]
  · rw [ran, own]
  · rw [ran]
    exact (others q other).trans ((same q).trans (Fab.vf_onVf_ne _ _ other))
  · have counts : (g.completeEntry e .done).packageCtr = g.packageCtr :=
      (congrArg (·.packageCtr) (opened'.completeEntry_rest .done 0) :)
    rw [ran]
    dsimp only
    rw [counts, ← hg, Fab.counterEntry]
    dsimp only
    rw [Tbl.get_set, bitsOf_zero, bitsOf_zero, code]
    rfl

/-! ### The obligation -/

/-- Settles O29: the mailboxes by what a send, a retraction and a taking leave of the mailbox, and the ring commands by their completion
on the device whose entry was taken. -/
theorem mailboxesAndCounterCommands : Obligations.MailboxesAndCounterCommands := by
  unfold Obligations.MailboxesAndCounterCommands
  refine ⟨fun s who p m msg running up hp hm2 hm => ⟨fun empty quiet => ?_, fun has => ?_, fun stamp slot quiet =>
    ⟨fun host => ?_, fun host => ?_⟩⟩, fun s e => ⟨fun front => ?_, fun front => ?_, fun front first some => ?_, fun front none => ?_,
    fun front first => ?_⟩⟩
  · refine ⟨_, exec_mailboxSend running up hp hm msg, ⟨rfl, rfl, rfl⟩, ?_⟩
    dsimp only
    rw [Fab.send_of_empty empty quiet, Fab.mailbox_interrupt, Fab.mailbox_setMailbox, Fab.interrupts_interrupt]
    exact ⟨rfl, rfl, Mailbox.ctl_setCtl _ _ _, rfl⟩
  · refine ⟨_, exec_mailboxSend running up hp hm msg, ⟨rfl, rfl, rfl⟩, ?_⟩
    dsimp only
    rw [Fab.send_of_holds has, Fab.mailbox_setMailbox]
    exact ⟨rfl, rfl, Mailbox.ctl_setCtl _ _ _⟩
  · refine ⟨_, exec_mailboxRetract running, ⟨rfl, rfl, rfl⟩, ?_⟩
    dsimp only
    rw [mailboxRetract_of_slot up hp hm host slot quiet, Fab.mailbox_setMailbox]
    exact ⟨rfl, congrArg SendCtl.state (Mailbox.ctl_setCtl _ _ _)⟩
  · refine ⟨_, exec_mailboxTake running, ⟨rfl, rfl, rfl⟩, ?_⟩
    dsimp only
    rw [mailboxTake_of_slot up hp hm hm2 host slot quiet, Fab.mailbox_interrupt, Fab.mailbox_setMailbox, Fab.interrupts_interrupt]
    refine ⟨rfl, congrArg SendCtl.state (Mailbox.ctl_setCtl _ _ _), ?_⟩
    cases who with
    | pf => rfl
    | vf => rfl
    | firmware => exact absurd rfl host
  · obtain ⟨-, -, -, opened⟩ := front_spec front
    exact ⟨_, exec_ring_of_front front _ rfl, completed_of_taken front rfl .done 0, ⟨rfl, rfl, rfl⟩,
      opened.withTaken.completeEntry_vfs (by decide) 0⟩
  · obtain ⟨-, -, -, opened⟩ := front_spec front
    exact ⟨_, exec_ring_of_front front _ rfl, completed_of_taken front rfl .done _, ⟨rfl, rfl, rfl⟩,
      opened.withTaken.completeEntry_vfs (by decide) _⟩
  · refine exec_counterEntry front ((exec_ring_of_front front _ rfl).trans ?_) first
    rw [if_neg (Nat.pos_iff_ne_zero.1 some)]
  · obtain ⟨-, -, -, opened⟩ := front_spec front
    refine ⟨_, exec_ring_of_front front _ rfl, ?_⟩
    rw [if_pos none]
    exact ⟨completed_of_taken front rfl .badCommand 0, ⟨rfl, rfl, rfl⟩,
      (congrArg (·.packageCtr) (opened.withTaken.completeEntry_rest .badCommand 0) :)⟩
  · exact exec_counterEntry front (exec_ring_of_front front (fun f => f.orderCounter e) rfl) first

end Sys2Proof.Machine
end

section
/-! PROOFS. Rings, the window table and completions (O28): what each doorbell, register write, fetch and completion leaves of its
function (R388 to R394). -/

namespace Sys2Proof.Machine

open Sys2Proof Sys2Proof.Safety

variable {s : State} {f g : Fab} {e : Entry} {p n ring value : Nat} {c : Instr}

/-! ### The host's commands -/

theorem hostUp_spec (up : Claims.hostUp s = true) : s.fab.phase = .running ∧ s.fab.inPins.linkUp = true := by
  simpa [Claims.hostUp] using up

/-- A command of the host, with the link up. -/
theorem exec_host (up : Claims.hostUp s = true) (k : Fab → Fab) (lift : exec c s = onHost s k) :
    exec c s = .next { s with fab := k s.fab } := by
  obtain ⟨running, link⟩ := hostUp_spec up
  rw [lift, onHost_running _ running link]

/-- A change of one function is nothing else. -/
theorem vfOnly_onVf (s : State) (p : Nat) (k : Vf → Vf) : Claims.VfOnly s { s with fab := s.fab.onVf p k } p :=
  ⟨⟨rfl, rfl, rfl⟩, fun _ other => Fab.vf_onVf_ne _ _ other, rfl⟩

theorem vfOnly_refl (s : State) (p : Nat) : Claims.VfOnly s s p := ⟨⟨rfl, rfl, rfl⟩, fun _ _ => rfl, rfl⟩

/-- A host's command that changes one function. -/
theorem exec_onVf (up : Claims.hostUp s = true) {k : Fab → Fab} {h : Vf → Vf} (lift : exec c s = onHost s k)
    (ran : k s.fab = s.fab.onVf p h) :
    ∃ t, exec c s = .next t ∧ Claims.VfOnly s t p ∧ t.fab.vf p = h (s.fab.vf p) :=
  ⟨_, exec_host up k lift, ran ▸ vfOnly_onVf s p h, by rw [ran, Fab.vf_onVf_same]⟩

/-- A host's command that does nothing. -/
theorem exec_idle (up : Claims.hostUp s = true) {k : Fab → Fab} (lift : exec c s = onHost s k) (ran : k s.fab = s.fab) :
    exec c s = .next s := by rw [exec_host up k lift, ran]

/-! ### Submission rings -/

/-- A submission ring of a function with one set. -/
theorem Vf.ring_set {v w : Vf} {r : Ring} (sq : w.sq = v.sq.set ring r) : w.ring ring = r ∧ ∀ n, n ≠ ring → w.ring n = v.ring n := by
  simp only [Vf.ring, sq]
  exact ⟨Tbl.get_set_same _ _ _ _, fun n other => Tbl.get_set_ne _ _ _ other⟩

theorem sqTail_of_disabled (off : ((f.vf p).ring ring).enable = false) : sqTail p ring value f = f := by
  rw [sqTail]
  exact if_pos (Or.inr (Or.inr (by rw [off]; rfl)))

theorem sqTail_of_enabled (hp : p < 16) (hr : ring < 8) (on : ((f.vf p).ring ring).enable = true) :
    sqTail p ring value f = f.onVf p (fun v => if value % 65536 < ((f.vf p).ring ring).size
      then { v with sq := v.sq.set ring { (f.vf p).ring ring with doorbell := value % 65536 } }
      else { v with sq := v.sq.set ring { (f.vf p).ring ring with enable := false }, errors := setBit v.errors ring true }) := by
  rw [sqTail]
  dsimp only
  rw [if_neg (by simp [on]; omega)]
  by_cases inside : value % 65536 < ((f.vf p).ring ring).size
  · rw [if_neg (Nat.not_le.2 inside)]
    simp only [if_pos inside]
  · rw [if_pos (Nat.not_lt.1 inside)]
    simp only [if_neg inside]

theorem ringRegister_of_submission (hp : p < 16) (hr : ring < 8) (field : RingField) :
    ringRegister p ring field value f = f.onVf p (fun v =>
      { v with
        sq := v.sq.set ring ((v.ring ring).write field value),
        errors := if ((v.ring ring).write field value).enable && !(v.ring ring).enable then setBit v.errors ring false else v.errors }) := by
  rw [ringRegister, if_neg (by omega), if_neg (by omega)]

/-- A register of a submission ring written. -/
theorem exec_ringRegister (up : Claims.hostUp s = true) (hp : p < 16) (hr : ring < 8) (field : RingField) {q : Ring}
    (wrote : ((s.fab.vf p).ring ring).write field value = q) :
    ∃ t, exec (.ringRegisterWrite p ring field value) s = .next t ∧ Claims.VfOnly s t p ∧ (t.fab.vf p).ring ring = q ∧
      (∀ n, n ≠ ring → (t.fab.vf p).ring n = (s.fab.vf p).ring n) ∧
      (q.enable = true → ((s.fab.vf p).ring ring).enable = false → bit (t.fab.vf p).errors ring = false) := by
  obtain ⟨t, next, only, own⟩ := exec_onVf (c := .ringRegisterWrite p ring field value) up rfl
    (ringRegister_of_submission (f := s.fab) (value := value) hp hr field)
  obtain ⟨mine, others⟩ := Vf.ring_set (congrArg Vf.sq own)
  refine ⟨t, next, only, mine.trans wrote, others, fun on off => ?_⟩
  rw [own, wrote, on, off]
  simp [bit_setBit]

/-! ### The fetch -/

/-- The function with the entry at the head of ring n fetched. -/
def Vf.withFetched (v : Vf) (n : Nat) (e : Entry) : Vf :=
  { v with
    sq := v.sq.set n { v.ring n with head := ((v.ring n).head + 1) % (v.ring n).size }, nextRing := (n + 1) % 8,
    openCmds := v.openCmds ++ [(e, false)], nextSerial := v.nextSerial + 1 }

theorem Vf.head_withFetched (v : Vf) (n : Nat) (e : Entry) :
    ((v.withFetched n e).ring n).head = ((v.ring n).head + 1) % (v.ring n).size :=
  congrArg Ring.head (Vf.ring_set (v := v) (w := v.withFetched n e) rfl).1

theorem submissionFetch_of_next (fetches : f.fetches p = true) (next : (f.vf p).next = some n) (bits : BitVec 512) :
    let e := entryOf p n (f.vf p).nextSerial bits
    submissionFetch p bits f = if f.badEntry e then (f.onVf p (fun v => v.withFetched n e)).completeEntry e .badCommand
      else (f.onVf p (fun v => v.withFetched n e)).onVf p (fun v => { v with fetched := v.fetched ++ [e] }) := by
  rw [submissionFetch, fetches, next]
  rfl

theorem exec_submissionFetch_good (up : Claims.hostUp s = true) (fetches : s.fab.fetches p = true) (next : (s.fab.vf p).next = some n)
    (bits : BitVec 512) (good : s.fab.badEntry (entryOf p n (s.fab.vf p).nextSerial bits) = false) :
    let v := s.fab.vf p
    let e := entryOf p n v.nextSerial bits
    ∃ t, exec (.submissionFetch p bits) s = .next t ∧ Claims.VfOnly s t p ∧ (t.fab.vf p).fetched = v.fetched ++ [e] ∧
      (t.fab.vf p).openCmds = v.openCmds ++ [(e, false)] ∧
      ((t.fab.vf p).ring n).head = ((v.ring n).head + 1) % 2 ^ (v.ring n).sizeExp := by
  intro v e
  refine ⟨_, exec_host up _ rfl, ?_⟩
  rw [submissionFetch_of_next fetches next, good, if_neg (by decide)]
  have own : (((s.fab.onVf p (fun v => v.withFetched n e)).onVf p (fun v => { v with fetched := v.fetched ++ [e] })).vf p) =
      { v.withFetched n e with fetched := v.fetched ++ [e] } := by rw [Fab.vf_onVf_same, Fab.vf_onVf_same]; rfl
  refine ⟨⟨⟨rfl, rfl, rfl⟩, fun q other => ?_, rfl⟩, ?_, ?_, ?_⟩
  · exact (Fab.vf_onVf_ne _ _ other).trans (Fab.vf_onVf_ne _ _ other)
  · exact congrArg Vf.fetched own
  · exact congrArg Vf.openCmds own
  · exact (congrArg (fun w : Vf => (w.ring n).head) own).trans (Vf.head_withFetched v n e)

theorem exec_submissionFetch_bad (up : Claims.hostUp s = true) (fetches : s.fab.fetches p = true) (next : (s.fab.vf p).next = some n)
    (bits : BitVec 512) (bad : s.fab.badEntry (entryOf p n (s.fab.vf p).nextSerial bits) = true) :
    let v := s.fab.vf p
    let e := entryOf p n v.nextSerial bits
    v.openCmds = [] → v.ordered = [] → v.queue.length < 4096 →
    ∃ t, exec (.submissionFetch p bits) s = .next t ∧ DeviceOnly s t ∧ (t.fab.vf p).fetched = v.fetched ∧
      (t.fab.vf p).queue = v.queue ++ [⟨e.opcode, 0x03, e.tag, 0⟩] ∧
      ((t.fab.vf p).ring n).head = ((v.ring n).head + 1) % 2 ^ (v.ring n).sizeExp := by
  intro v e alone free room
  refine ⟨_, exec_host up _ rfl, ⟨rfl, rfl, rfl⟩, ?_⟩
  rw [submissionFetch_of_next fetches next, bad, if_pos rfl]
  have own : (s.fab.onVf p (fun v => v.withFetched n e)).vf e.partition = v.withFetched n e := Fab.vf_onVf_same _ _ _
  have opened : (s.fab.onVf p (fun v => v.withFetched n e)).Opened e := by
    refine ⟨own ▸ room, own ▸ free, ?_⟩
    rw [own]
    simp [Vf.withFetched, alone, isOpen]
  have after := (opened.completeEntry_vf .badCommand 0).1
  rw [own] at after
  refine ⟨(congrArg Vf.fetched after :), (congrArg Vf.queue after :), ?_⟩
  exact (congrArg (fun w : Vf => (w.ring n).head) after).trans (Vf.head_withFetched v n e)

/-! ### Completions written -/

/-- The function with a completion written at the head of its ring. -/
def Vf.withWritten (v : Vf) (c : Completion) : Vf :=
  { v with
    written := v.written ++ [(v.cq.head, v.cq.phase, c)],
    cq := { v.cq with
      head := (v.cq.head + 1) % v.cq.size, phase := if (v.cq.head + 1) % v.cq.size = 0 then !v.cq.phase else v.cq.phase },
    msixArmed := false }

theorem Fab.writeCompletion_spec (f : Fab) (p : Nat) (c : Completion) :
    (f.writeCompletion p c).vf p = (f.vf p).withWritten c ∧
      (f.writeCompletion p c).interrupts = f.interrupts ++ if (f.vf p).msixArmed then [(p + 1, 0)] else [] := by
  rw [Fab.writeCompletion]
  dsimp only
  split
  · exact ⟨Tbl.get_set_same _ _ _ _, rfl⟩
  · exact ⟨Tbl.get_set_same _ _ _ _, (List.append_nil _).symm⟩

theorem room_iff {v : Vf} : v.room = true ↔ (v.cq.head + 1) % v.cq.size ≠ v.cq.doorbell := by simp [Vf.room]

theorem completionWrite_of_queue {d : Completion} {r : List Completion} (hp : p < 16) (on : (f.vf p).cq.enable = true)
    (room : (f.vf p).room = true) (none : (f.vf p).lost = 0) (queue : (f.vf p).queue = d :: r) :
    completionWrite p f = (f.onVf p (fun v => { v with queue := r })).writeCompletion p d := by
  rw [completionWrite]
  rw [if_neg (by simp [on, room, hp]), if_neg (by simp [none]), queue]

theorem completionWrite_of_shut (shut : (f.vf p).cq.enable = false ∨ (f.vf p).room = false) : completionWrite p f = f := by
  rw [completionWrite]
  refine if_pos ?_
  rcases shut with off | full
  · simp [off]
  · simp [full]

theorem completionWrite_of_nothing (none : (f.vf p).lost = 0) (empty : (f.vf p).queue = []) : completionWrite p f = f := by
  rw [completionWrite]
  rw [if_neg (show ¬0 < (f.vf p).lost by omega), empty]
  exact ite_self _

/-! ### The window table -/

theorem hostWindow_of_length {i base length flags : Nat} (hp : p < 16) (hi : i < 16) (some : 4096 ≤ length) :
    hostWindow p i base length flags f = f.setScope p { f.scope p with shadow := { (f.scope p).shadow with
      hostWindows := (f.scope p).shadow.hostWindows.set i (base, length / 4096 * 4096, flags % 4) } } := by
  rw [hostWindow, if_neg (by omega)]
  dsimp only
  rw [if_neg (by omega)]

theorem Tbl.find?_set {α : Type} (t : Tbl α) (k j : Nat) (v : α) : (t.set k v).find? j = if j = k then some v else t.find? j := by
  by_cases h : j = k
  · rw [h, if_pos rfl, Tbl.find?_set_same]
  · rw [if_neg h, Tbl.find?_set_ne t v h]

/-! ### The obligation -/

/-- Settles O28, clause by clause of its commands. -/
theorem ringsAreRungWrittenAndFetched : Obligations.RingsAreRungWrittenAndFetched := by
  unfold Obligations.RingsAreRungWrittenAndFetched
  refine ⟨fun s p ring value up hp hr => ⟨fun on => ?_, fun off => ?_, fun w => ?_⟩,
    fun s p ring value up hp hr small => ⟨fun on => ⟨?_, ?_⟩, fun off => ⟨?_, fun low high => ?_, fun one => ⟨?_, ?_⟩⟩, fun zero => ?_⟩,
    fun s p i base length flags reserved up hp hi some => ?_,
    fun s p bits n up fetches next => ⟨exec_submissionFetch_good up fetches next bits, exec_submissionFetch_bad up fetches next bits⟩,
    fun s p up hp => ⟨fun d r on room none queue => ?_, fun shut => ?_⟩⟩
  · obtain ⟨t, next, only, own⟩ := exec_onVf (c := .sqTailDoorbell p ring value) up rfl (sqTail_of_enabled (value := value) hp hr on)
    refine ⟨t, next, only, ?_⟩
    by_cases inside : value % 65536 < ((s.fab.vf p).ring ring).size
    · rw [if_pos inside] at own
      obtain ⟨mine, others⟩ := Vf.ring_set (v := s.fab.vf p) (congrArg Vf.sq own :)
      rw [if_pos (show value % 65536 < 2 ^ ((s.fab.vf p).ring ring).sizeExp from inside)]
      exact ⟨⟨mine, (congrArg Vf.errors own :)⟩, others, by rw [own]⟩
    · rw [if_neg inside] at own
      obtain ⟨mine, others⟩ := Vf.ring_set (v := s.fab.vf p) (congrArg Vf.sq own :)
      rw [if_neg (show ¬value % 65536 < 2 ^ ((s.fab.vf p).ring ring).sizeExp from inside)]
      exact ⟨⟨mine, by rw [own]; simp [bit_setBit]⟩, others, by rw [own]⟩
  · exact ⟨s, exec_idle up rfl (sqTail_of_disabled off), vfOnly_refl s p, rfl⟩
  · obtain ⟨t, next, only, own⟩ := exec_onVf (c := .cqHeadDoorbell p w) up rfl (if_neg (Nat.not_le.2 hp))
    exact ⟨t, next, only, own⟩
  · obtain ⟨t, next, only, own, others, -⟩ := exec_ringRegister (value := value) up hp hr .base (if_pos on)
    exact ⟨t, next, only, own, others⟩
  · obtain ⟨t, next, only, own, others, -⟩ := exec_ringRegister (value := value) up hp hr .sizeExponent (if_pos (Or.inl on))
    exact ⟨t, next, only, own, others⟩
  · obtain ⟨t, next, only, own, others, -⟩ := exec_ringRegister (value := value) up hp hr .base (if_neg (by simp [off]))
    rw [Nat.mod_eq_of_lt small] at own
    exact ⟨t, next, only, own, others⟩
  · obtain ⟨t, next, only, own, others, -⟩ := exec_ringRegister (value := value) up hp hr .sizeExponent (if_neg (by simp [off]; omega))
    exact ⟨t, next, only, own, others⟩
  · obtain ⟨t, next, only, own, others, -⟩ := exec_ringRegister (value := value) up hp hr .enable
      ((if_neg (by omega)).trans (if_neg (by simp [off])))
    exact ⟨t, next, only, own, others⟩
  · obtain ⟨t, next, -, -, -, clear⟩ := exec_ringRegister (value := value) up hp hr .enable
      ((if_neg (by omega)).trans (if_neg (by simp [off])))
    exact ⟨t, next, clear rfl off⟩
  · obtain ⟨t, next, only, own, others, -⟩ := exec_ringRegister (value := value) up hp hr .enable (if_pos (by omega))
    exact ⟨t, next, only, own, others⟩
  · refine ⟨_, exec_host up _ rfl, ⟨rfl, rfl, rfl⟩, ?_⟩
    rw [hostWindow_of_length hp hi some]
    have own : ∀ x, (s.fab.setScope p x).scope p = x := fun x => Tbl.get_set_same _ _ _ _
    refine ⟨fun j => ?_, ?_, fun q other => Tbl.get_set_ne _ _ _ other, rfl⟩
    · dsimp only
      rw [own]
      exact Tbl.find?_set _ _ _ _
    · dsimp only
      rw [own]
  · obtain ⟨own, told⟩ := Fab.writeCompletion_spec (s.fab.onVf p (fun v => { v with queue := r })) p d
    refine ⟨_, exec_host up _ rfl, ⟨rfl, rfl, rfl⟩, ?_⟩
    rw [completionWrite_of_queue hp on (room_iff.2 room) none queue, told, own, Fab.vf_onVf_same]
    exact ⟨rfl, rfl, rfl, rfl, rfl, rfl⟩
  · rcases shut with off | full | ⟨none, empty⟩
    · exact exec_idle up rfl (completionWrite_of_shut (.inl off))
    · exact exec_idle up rfl (completionWrite_of_shut (.inr (by simpa [Vf.room, Ring.size] using full)))
    · exact exec_idle up rfl (completionWrite_of_nothing none empty)

end Sys2Proof.Machine
end

section
/-! PROOFS. KOLAS_ACK of a packet that no rule takes (O40): the command still carries on what the multicasts of its members' own
sources have room for (R324), so that it is not without effect. -/

namespace Sys2Proof.Machine

open Sys2Proof

/-- Work of a running device that need not wait, and that changes some part of the device, changes the state. -/
theorem onMem_moves {α : Type} {s : State} (f : W → W) (part : Fab → α) (up : s.fab.phase = .running)
    (goes : (f (W.of s)).settled.waits = false) (moved : part (f (W.of s)).settled.fab ≠ part s.fab) : onMem s f ≠ .next s := by
  intro same
  have same := (onMem_running f up goes).symm.trans same
  injection same with same
  exact moved (congrArg (fun t : State => part t.fab) same :)

/-- The broadcast of 16 bytes of its root in a group of one, at the piece to be multicast first: the piece has no destination, so that
the window is open (R306, R324). -/
def castingColl : Coll := { sealedColl with launcher := .op 0 4 0 9, slice := none, sealed := [], op := ⟨0, 0, 0, 16, 0, 3, 0, 0, 0⟩ }

/-- A running device with that collective alone. -/
def castingState : State := { State.reset with fab := { Fab.reset with colls := [castingColl] } }

/-- An ACK that came to a port that is not up (R369, R370). -/
def strayAck : Packet :=
  { port := 0, secured := none, intact := true, udpPort := 0, sourceAddr := 0, destAddr := 0, version := 1, type := 2, destPartition := 0,
    sourcePartition := 0, channel := 0, ecnEcho := false, resent := false, reserved := 0, psn := 0, ackPsn := 0, length := 0, ce := false,
    payload := [] }

theorem arrival_strayAck : castingState.fab.arrival strayAck = .drop := by decide +kernel

/-- The work of the command at that state: the packet is dropped, and the multicast goes on to a piece whose source lies outside the
map, which ends the collective (R324, R326). -/
theorem castAll_castingState :
    ((W.of castingState).map (kolasAck strayAck)).castAll.settled.waits = false ∧
      ((W.of castingState).map (kolasAck strayAck)).castAll.settled.fab.colls = [] := by decide +kernel

/-- Refutes O40 in its clause on a packet that no rule takes, at the row of KOLAS_ACK: the clause asks that nothing change, and has no
hypothesis on the multicasts that the command carries on. -/
theorem not_kolasPacketsAreForwardedAndReliable : ¬ Obligations.KolasPacketsAreForwardedAndReliable := by
  unfold Obligations.KolasPacketsAreForwardedAndReliable
  rintro ⟨rows, -⟩
  obtain ⟨dropped, -⟩ := rows castingState strayAck (.kolasAck, 2) (by simp [Claims.packetRows]) rfl rfl
  obtain ⟨goes, ended⟩ := castAll_castingState
  refine onMem_moves (fun w => (w.map (kolasAck strayAck)).castAll) (fun f => f.colls) rfl goes ?_ (dropped arrival_strayAck)
  exact fun same => absurd (ended.symm.trans same) (List.cons_ne_nil castingColl []).symm

end Sys2Proof.Machine
end

section
/-! PROOFS. A partition number that is not below 16 (O43, O50, O57): the count of the stream segments that an abort discards, entry
(0x3C30, partition + 1), then lies on another entry of the dictionary. -/

namespace Sys2Proof.Machine

open Sys2Proof

/-- What the device is after work that need not wait. -/
theorem onMem_fab {s t : State} (f : W → W) (up : s.fab.phase = .running) (goes : (f (W.of s)).settled.waits = false)
    (h : onMem s f = .next t) : t.fab = (f (W.of s)).settled.fab := by
  rw [onMem_running f up goes] at h
  injection h with h
  exact h ▸ rfl

/-- What the device is after work in any phase. -/
theorem onAny_fab {s t : State} (f : W → W) (h : onAny s f = .next t) : t.fab = (f (W.of s)).settled.fab := by
  injection h with h
  exact h ▸ rfl

/-- An out-stream of strand 0 with one segment that is not retired (R220, R228). -/
def liveStream : Stream := { openOutStream with uid := 1 }

/-- A running cluster of launch 1 with that stream. -/
def streamingCluster : Cluster :=
  { Cluster.idleReset with
    phase := .running, launch := 1, strands := [(0, { Strand.idleReset with st := .running })], streams := [liveStream] }

/-- The running launch of partition 0 on cluster 5. -/
def streamingLaunch : Launch :=
  { id := 1, partition := 0, tag := 0, image := 0, count := 0, width := 0, mask := 1, entries := [0], digest := 0, args := [],
    clusters := [5], streams := [0], trees := [], phase := .running, fault := none, cancels := [] }

/-- The dictionary's Owner entry of cluster 5's die names the partition whose count of discarded segments (0x3C30) is entry (i, k). -/
def discardsTo (i k : Nat) : Nat × Nat := (dictKey 0xB100 1, dictKey i k - dictKey 0x3C30 1)

/-- A running device with the launch and its cluster. -/
def discardingFab (dict : Tbl Nat) : Fab :=
  { Fab.reset with dict, launches := [streamingLaunch], clusters := [(5, streamingCluster)] }

/-- The EWS grace runs (R443). -/
def gracedState : State := { State.reset with fab := discardingFab [discardsTo 0x9200 2, (dictKey 0x9200 2, 1)] }

/-- PERST_N is about to be asserted. -/
def perstState : State := { State.reset with fab := discardingFab [discardsTo 0xC001 1] }

/-- The master of a cascade of two, where partition 0 owns memory of member 1 (R381). -/
def lostLinkState : State :=
  { State.reset with fab := { discardingFab [discardsTo 0x5050 3, (dictKey 0x5050 3, 1)] with
      inForce := [(dictKey 0x5050 1, 2)], memberOwners := [(64, 0)] } }

/-- The end of the grace aborts the launch, and the segment discarded counts in the state of the sequence. -/
theorem ewsGrace_gracedState :
    (ewsGrace (W.of gracedState)).settled.waits = false ∧ (ewsGrace (W.of gracedState)).settled.fab.dget 0x9200 2 = 2 := by decide +kernel

/-- Refutes O50 in its clause on the end of the grace with one running launch: at `gracedState` the state of the sequence (0x9200:02)
does not stay 1. -/
theorem not_ewsRunsItsSequence : ¬ Obligations.EwsRunsItsSequence := by
  unfold Obligations.EwsRunsItsSequence
  rintro ⟨-, sequence⟩
  obtain ⟨-, -, grace, -⟩ := sequence gracedState rfl
  obtain ⟨t, ht, -, -, -, aborted⟩ := grace (by decide) rfl rfl
  obtain ⟨-, -, stays⟩ := aborted streamingLaunch 5 rfl (by decide) rfl rfl rfl ⟨0, by decide⟩
  obtain ⟨goes, counted⟩ := ewsGrace_gracedState
  rw [onMem_fab ewsGrace rfl goes ht, counted] at stays
  exact absurd stays (by decide)

/-- The function reset of partition 0 aborts the launch, and the segment discarded counts in the link's width. -/
theorem perstAssert_perstState : (perstAssert (W.of perstState)).settled.fab.dget 0xC001 1 = 1 := by decide +kernel

/-- Refutes O57 in its clause on HP_PERST_ASSERT of a running device: at `perstState` the width of the link that went down (0xC001:01)
is not 0. -/
theorem not_pinsFunctionResetAndWatchdog : ¬ Obligations.PinsFunctionResetAndWatchdog := by
  unfold Obligations.PinsFunctionResetAndWatchdog
  rintro ⟨-, pins⟩
  obtain ⟨t, ht, -, ⟨-, width, -⟩, -⟩ := (pins perstState).1 rfl
  rw [onAny_fab perstAssert ht, perstAssert_perstState] at width
  exact absurd width (by decide)

/-- The end of partition 0's memory context aborts the launch, and the segment discarded counts in the map of the links that are up. -/
theorem cascadeLost_lostLinkState :
    (cascadeLost 1 (W.of lostLinkState)).settled.waits = false ∧
      bit ((cascadeLost 1 (W.of lostLinkState)).settled.fab.dget 0x5050 3) 1 = true := by decide +kernel

/-- Refutes O43 in its clause on a lost member of a cascade: at `lostLinkState` bit 1 of 0x5050:03 reads 1. -/
theorem not_membershipFollowsTheManager : ¬ Obligations.MembershipFollowsTheManager := by
  unfold Obligations.MembershipFollowsTheManager
  rintro ⟨-, -, -, -, -, cascade⟩
  obtain ⟨lost, -⟩ := cascade lostLinkState 1 rfl
  obtain ⟨t, ht, -, down, -⟩ := lost (by decide) (by decide) (by decide) rfl
  obtain ⟨goes, up⟩ := cascadeLost_lostLinkState
  rw [onMem_fab (cascadeLost 1) rfl goes ht, up] at down
  exact absurd down (by decide)

end Sys2Proof.Machine
end

section
/-! PROOFS. CLOCK_SOURCE_REQUEST_B (O53): where the switch recovers a cluster whose reset reaches an access that cannot be made, the
command waits and changes nothing (R22, R25, R454). -/

namespace Sys2Proof.Machine

open Sys2Proof

/-- The state in which CLUSTER_RESET of cluster 0 has to wait, with the island of cluster 0 in its safe state on PLL A as well, PLL B
ready and the island selected (R454 to R456). -/
def blockedSwitch : State :=
  { blockedReset with fab := { blockedReset.fab with
      islands := [(0, { Island.onA with safe := true }), (897, { Island.onA with safe := true })] } }

theorem clockSourceRequestB_blockedSwitch_waits : ((W.of blockedSwitch).commandNat firmwareRequest 0x2100 3 1).settled.waits = true := by
  decide +kernel

theorem clockSourceRequestB_blockedSwitch : exec (.clockSourceRequestB firmwareRequest) blockedSwitch = .next blockedSwitch :=
  onAll_waits (fun w => w.commandNat firmwareRequest 0x2100 3 1) clockSourceRequestB_blockedSwitch_waits

theorem serves_blockedSwitch : Claims.serves blockedSwitch firmwareRequest = true := by decide +kernel

theorem selectsCluster_blockedSwitch : blockedSwitch.fab.dget 0x2100 1 = 0 := by decide +kernel

/-- Refutes O53 in its clause on a request of a ready source: at `blockedSwitch` the request is allowed and nothing of it happens, so
that no write is counted. -/
theorem not_clockIslandsSwitch : ¬ Obligations.ClockIslandsSwitch := by
  unfold Obligations.ClockIslandsSwitch
  rintro ⟨-, requests, -⟩
  obtain ⟨-, -, -, ready⟩ := requests (.clockSourceRequestB, true) (by simp) blockedSwitch firmwareRequest _ serves_blockedSwitch
    (by decide +kernel) rfl
  rw [selectsCluster_blockedSwitch] at ready
  obtain ⟨t, ht, -, ok, -⟩ := ready (by decide) (by decide) (by decide)
  cases clockSourceRequestB_blockedSwitch.symm.trans ht
  exact absurd ok.accepted (by decide +kernel)

end Sys2Proof.Machine
end

section
/-! PROOFS. HELD_PAGE_WRITE_RELEASE (O49): a write that crosses into a second page that the checkpoint has still to read reads that page
as well; where it cannot be read yet, the command waits and changes nothing (R22, R25, R439). -/

namespace Sys2Proof.Machine

open Sys2Proof

/-- A held store of two bytes, the last of one page of the Inkwell of base die 1 and the first of the next. -/
def crossingTxn : Txn :=
  { voidRead with addr := inkwellBase 1 + 65535, len := 2, write := some [7, 7], origin := .op 0 5, heldPage := true }

/-- The store of that transaction. -/
def crossingOp : Op :=
  { id := 5, strand := 0, epc := 9, kind := .store (inkwellBase 1 + 65535) 2 7, held := false, issued := 0, due := 9, late := false }

/-- A checkpoint of the second of the two pages. -/
def crossedCheckpoint : Checkpoint :=
  { number := 0, step := 0, copy := 0, pages := [inkwellBase 1 / 65536 + 1], read := [], failed := [], total := 1, start := 0 }

/-- A device whose base die 1 has its core in the safe state, with that transaction and that checkpoint of partition 0. -/
def crossingState : State :=
  { State.reset with fab := { Fab.reset with
      dict := [(dictKey 0xB111 1, 65536)], islands := [(897, { Island.onA with safe := true })], txns := [crossingTxn],
      clusters := [(0, { Cluster.idleReset with phase := .running, ops := [crossingOp] })],
      noivos := [(0, { Noivos.none with running := some crossedCheckpoint })] } }

theorem heldRelease_crossingState_waits : (heldRelease 3 (W.of crossingState)).settled.waits = true := by decide +kernel

theorem heldPageWriteRelease_crossingState : exec (.heldPageWriteRelease 3) crossingState = .next crossingState :=
  onMem_waits (heldRelease 3) heldRelease_crossingState_waits

/-- The first of the two pages is not the checkpoint's. -/
theorem crossingTxn_page : crossingTxn.addr / 65536 ∉ crossedCheckpoint.pages := by decide +kernel

theorem portsQuiet_crossingState : Claims.PortsQuiet crossingState.fab where
  waiting := rfl
  arrived := by decide
  asked := by decide
  sent := by decide

theorem noTransfers_crossingState : ∀ e ∈ crossingState.fab.clusters, Claims.noTransfers (crossingState.fab.cluster e.1) := by
  unfold Claims.noTransfers
  decide

/-- Refutes O49 in its clause on HELD_PAGE_WRITE_RELEASE: at `crossingState` every hypothesis holds, and the transaction stays in
flight. The clause asks of the first page of the write alone that it can be read. -/
theorem not_noivosCopiesAndRestores : ¬ Obligations.NoivosCopiesAndRestores := by
  unfold Obligations.NoivosCopiesAndRestores
  rintro ⟨-, -, -, -, held⟩
  obtain ⟨-, release⟩ := held crossingState crossingTxn 0 crossingOp [7, 7] rfl rfl
  obtain ⟨t, ht, -, -, -, gone, -⟩ := release rfl rfl rfl rfl (by decide +kernel) rfl rfl rfl
    (fun c runs due => by cases runs; exact absurd due crossingTxn_page) noTransfers_crossingState portsQuiet_crossingState
  cases heldPageWriteRelease_crossingState.symm.trans ht
  exact gone crossingTxn (List.mem_singleton.mpr rfl) rfl

end Sys2Proof.Machine
end

section
/-! PROOFS. DUCTUS_JOB_COMPLETE of a job whose partition's number is not below 16 (O36): the version that is current (0x7061, partition
+ 1) then has the key of the Ductus's count of jobs done (0x7064, base die + 1), and the record of the job's version sets it. -/

namespace Sys2Proof.Machine

open Sys2Proof

/-- The partition whose entry 0x7061 has the key of the count of base die 0. -/
def strayTenant : Nat := dictKey 0x7064 0 - dictKey 0x7061 0

/-- The command of the job. -/
def strayJobEntry : Entry := { partition := strayTenant, ring := 1, opcode := 0x33, reserved := 0, tag := 9, words := [] }

/-- A COPY of 64 bytes to address 64 for version 1, all of them written (R340). -/
def strayJob : Job :=
  { entry := strayJobEntry, partition := strayTenant, desc := BitVec.ofNat 512 (64 * 2 ^ 384 + 1 * 2 ^ 352 + 64 * 2 ^ 240), pos := 64,
    coll := none, broken := none, cancelled := false, flags := 0 }

/-- That job active at base die 0, which has done 5 jobs; its version is Loading. -/
def strayJobState : State :=
  { State.reset with fab := { Fab.reset with
      dict := [(dictKey 0x7064 1, 5)], ductus := [(0, { Ductus.idle with active := [(strayTenant, strayJob)] })],
      versions := [(8 * strayTenant, { VersionRec.free with version := 1, state := .loading, outstanding := 1 })],
      vfs := [(strayTenant, { Vf.reset with openCmds := [(strayJobEntry, false)] })] } }

/-- The version's record sets the count to 0, and the job then counts. -/
theorem ductusJobComplete_strayJobState :
    (ductusJobComplete 0 strayTenant .done (W.of strayJobState)).settled.waits = false ∧
      (ductusJobComplete 0 strayTenant .done (W.of strayJobState)).settled.fab.dget 0x7064 1 = 1 := by decide +kernel

theorem not_freeing_strayJobState : ∀ r, r < 8 → (strayJobState.fab.version strayTenant r).freeing = [] := by decide +kernel

/-- Refutes O36 in its clause on DUCTUS_JOB_COMPLETE of a job that has written everything: at `strayJobState` the count of jobs done
(0x7064) is not one more than it was. -/
theorem not_ductusJobsAreQueuedAndRun : ¬ Obligations.DuctusJobsAreQueuedAndRun := by
  unfold Obligations.DuctusJobsAreQueuedAndRun
  rintro ⟨-, -, -, -, complete⟩
  obtain ⟨written, -⟩ := complete strayJobState 0 strayTenant strayJob rfl (by decide) rfl rfl rfl rfl (by decide +kernel) rfl rfl rfl
    not_freeing_strayJobState
  obtain ⟨t, ht, -, -, -, counted⟩ := written (by decide +kernel)
  obtain ⟨goes, count⟩ := ductusJobComplete_strayJobState
  rw [onMem_fab (ductusJobComplete 0 strayTenant .done) rfl goes ht, count] at counted
  exact absurd counted (by decide +kernel)

end Sys2Proof.Machine
end

section
/-! PROOFS. Entries of the dictionary told apart by index and subindex (R403). -/

namespace Sys2Proof.Machine

open Sys2Proof

theorem Fab.dget_dset_same (f : Fab) (i j v : Nat) : (f.dset i j v).dget i j = v := by
  rw [Fab.dget_dset, if_pos rfl]

theorem Fab.dget_dset_ne (f : Fab) {i j v a b : Nat} (h : dictKey a b ≠ dictKey i j) : (f.dset i j v).dget a b = f.dget a b := by
  rw [Fab.dget_dset, if_neg h]

theorem Fab.dget_dadd_ne (f : Fab) {i j n a b : Nat} (h : dictKey a b ≠ dictKey i j) : (f.dadd i j n).dget a b = f.dget a b := by
  rw [Fab.dget_dadd, if_neg h]

/-- A count of one more stops at the largest value of its entry's type. -/
theorem Fab.dget_dadd_same (f : Fab) (i j n : Nat) :
    (f.dadd i j n).dget i j = min (f.dget i j + n) (2 ^ (8 * (((Dict.row i j).map (fun d => d.ty.width)).getD 4)) - 1) := by
  rw [Fab.dget_dadd, if_pos rfl]

/-- Different entries have different keys. -/
theorem dictKey_ne_of_pair {i j a b : Nat} (h : (i, j) ≠ (a, b)) (hj : j < 256) (hb : b < 256) : dictKey i j ≠ dictKey a b := by
  have h : ¬(i = a ∧ j = b) := fun same => h (by rw [same.1, same.2])
  unfold dictKey
  omega

/-- An entry that is none of a list's has the key of none. -/
theorem dictKey_ne_of_notMem {i j a b : Nat} {l : List (Nat × Nat)} (h : (i, j) ∉ l) (listed : (a, b) ∈ l) (hj : j < 256) (hb : b < 256) :
    dictKey i j ≠ dictKey a b :=
  dictKey_ne_of_pair (fun same => h (same ▸ listed)) hj hb

end Sys2Proof.Machine
end

section
/-! PROOFS. Power, heat and wear (O51): the entries that a sample, the duty controller and a temperature set (R447 to R451). -/

namespace Sys2Proof.Machine

open Sys2Proof Sys2Proof.Safety

variable {s : State} {f : Fab} {i j v : Nat}

/-! ### The issue duty -/

theorem Fab.dget_setDuty_same (f : Fab) (d : Nat) : (f.setDuty d).dget 0x2010 3 = d := Fab.dget_dset_same _ _ _ _

theorem Fab.dget_setDuty_ne (f : Fab) (d : Nat) (h : dictKey i j ≠ dictKey 0x2010 3) : (f.setDuty d).dget i j = f.dget i j :=
  Fab.dget_dset_ne _ h

/-- DUTY_UPDATE that only sets the duty. -/
theorem sets_of_dutyUpdate {d : Nat} (up : s.fab.phase = .running) (h : dutyUpdate d s.fab = s.fab.setDuty v) :
    ∃ t, exec (.dutyUpdate d) s = .next t ∧ DeviceOnly s t ∧ t.fab.dget 0x2010 3 = v ∧ Claims.EntriesKept s t [(0x2010, 3)] := by
  refine ⟨_, onFab_running (dutyUpdate d) up, ⟨rfl, rfl, rfl⟩, ?_, fun j k hk away => ?_⟩
  · dsimp only
    rw [h, Fab.dget_setDuty_same]
  · dsimp only
    rw [h, Fab.dget_setDuty_ne _ _ (dictKey_ne_of_notMem away (by simp) hk (by decide))]

theorem overC_iff (f : Fab) : f.overC = true ↔ f.dget 0x2010 4 < f.dget 0x2010 1 := by
  simp [Fab.overC]

theorem dutyUpdate_claims (s : State) (up : s.fab.phase = .running) (d : Nat) :
    let fixed := s.fab.dget 0xB000 2
    let before := s.fab.dget 0x2010 3
    let hot := s.fab.dget 0x2010 4 < s.fab.dget 0x2010 1
    let sets := fun (v : Nat) => ∃ t, exec (.dutyUpdate d) s = .next t ∧ DeviceOnly s t ∧ t.fab.dget 0x2010 3 = v ∧
      Claims.EntriesKept s t [(0x2010, 3)]
    (64 < d → exec (.dutyUpdate d) s = .next s) ∧
    (d ≤ 64 → s.fab.junctionStop = true → sets 0) ∧
    (d ≤ 64 → s.fab.junctionStop = false → s.fab.dget 0xB000 1 ≠ 1 → sets (if hot then min d (before - 1) else d)) ∧
    (d ≤ 64 → s.fab.junctionStop = false → s.fab.dget 0xB000 1 = 1 → ¬(hot ∧ d < fixed) → sets fixed) ∧
    (d ≤ 64 → s.fab.junctionStop = false → s.fab.dget 0xB000 1 = 1 → hot → d < fixed →
      ∃ t, exec (.dutyUpdate d) s = .next t ∧ DeviceOnly s t ∧ t.fab.dget 0x2010 3 = d ∧
        t.fab.dget 0xB000 3 = min (s.fab.dget 0xB000 3 + 1) (2 ^ 32 - 1)) := by
  intro fixed before hot sets
  refine ⟨fun high => ?_, fun low stop => ?_, fun low go open_ => ?_, fun low go strict stays => ?_, fun low go strict hot below => ?_⟩
  · refine (onFab_running (dutyUpdate d) up).trans ?_
    rw [dutyUpdate, if_pos high]
  · refine sets_of_dutyUpdate up ?_
    rw [dutyUpdate, if_neg (by omega), if_pos stop]
  · refine sets_of_dutyUpdate up ?_
    rw [dutyUpdate, if_neg (by omega), if_neg (by simp [go]), if_pos open_]
    simp only [overC_iff]
    rfl
  · refine sets_of_dutyUpdate up ?_
    rw [dutyUpdate, if_neg (by omega), if_neg (by simp [go]), if_neg (by simp [strict]), if_neg (by rw [overC_iff]; exact stays)]
  · have counts : dutyUpdate d s.fab = (s.fab.dadd 0xB000 3 1).setDuty d := by
      rw [dutyUpdate, if_neg (by omega), if_neg (by simp [go]), if_neg (by simp [strict]), if_pos ⟨(overC_iff _).2 hot, below⟩]
    refine ⟨_, onFab_running (dutyUpdate d) up, ⟨rfl, rfl, rfl⟩, ?_, ?_⟩
    · dsimp only
      rw [counts, Fab.dget_setDuty_same]
    · dsimp only
      rw [counts, Fab.dget_setDuty_ne _ _ (by decide), Fab.dget_dadd_same]
      rfl

/-! ### The power sample -/

theorem powerSample_claims (s : State) (up : s.fab.phase = .running) (p : Nat) :
    let b := if 3000000 < p then s.fab.budget - (p - 3000000)
      else min (s.fab.budget + min (3000000 - p) (1000 * s.fab.dget 0x2010 0x41)) 30000000000
    let sprint := s.fab.dget 0x2010 0x40 = 1 ∧ 0 < b ∧ s.fab.sprintHot = false ∧
      s.fab.dget 0x2030 1 < 3600 * s.fab.dget 0x2030 0x40
    ∃ t, exec (.powerSample p) s = .next t ∧ DeviceOnly s t ∧ t.fab.budget = b ∧ t.fab.dget 0x2010 2 = b / 1000000 ∧
      t.fab.powerWindow = (p :: s.fab.powerWindow).take 10 ∧
      (sprint → t.fab.dget 0x2010 4 = min 3600 s.fab.thermalCeiling) ∧
      (¬sprint → t.fab.dget 0x2010 4 = min 3000 s.fab.thermalCeiling) ∧
      Claims.EntriesKept s t [(0x2010, 1), (0x2010, 2), (0x2010, 4)] := by
  intro b sprint
  have sprints : (s.fab.dget 0x2010 0x40 == 1 && Nat.blt 0 (s.fab.budgetStep p) && !s.fab.sprintHot && !s.fab.worn) = true ↔ sprint := by
    have same : s.fab.budgetStep p = b := rfl
    simp [Fab.worn, same, sprint, and_assoc, ← Bool.not_eq_true]
  have ceiling : (powerSample p s.fab).dget 0x2010 4 = min (if sprint then 3600 else 3000) s.fab.thermalCeiling := by
    unfold powerSample
    extract_lets window budget fast c
    rw [Fab.dget_dset_same]
    simp only [c, fast, budget, sprints]
  refine ⟨_, onFab_running (powerSample p) up, ⟨rfl, rfl, rfl⟩, rfl, ?_, rfl, fun yes => ?_, fun no => ?_, fun j k hk away => ?_⟩
  · dsimp only
    rw [powerSample, Fab.dget_dset_ne _ (by decide), Fab.dget_dset_same]
    rfl
  · dsimp only
    rw [ceiling, if_pos yes]
  · dsimp only
    rw [ceiling, if_neg no]
  · dsimp only
    rw [powerSample, Fab.dget_dset_ne _ (dictKey_ne_of_notMem away (by simp) hk (by decide)),
      Fab.dget_dset_ne _ (dictKey_ne_of_notMem away (by simp) hk (by decide)),
      Fab.dget_dset_ne _ (dictKey_ne_of_notMem away (by simp) hk (by decide))]
    rfl

/-! ### Temperature -/

/-- The clamp after a temperature (R450). -/
def clampAt (t : Int) (f : Fab) : Bool := hysteresis f.clamped t (10 * f.dget 0x2020 0x41) (10 * f.dget 0x2020 0x41 - 20)

/-- The temperature shown, and the clamp counted where it begins. -/
def clampCounted (t : Int) (f : Fab) : Fab :=
  if clampAt t f && !f.clamped then (f.dset 0x2020 1 (BitVec.ofInt 16 t).toNat).dadd 0x2020 2 1
  else f.dset 0x2020 1 (BitVec.ofInt 16 t).toNat

/-- What THERMAL_CHECK does before it stops the issue. -/
def thermalLimits (t : Int) (f : Fab) : Fab :=
  { clampCounted t f with
    sprintHot := hysteresis f.sprintHot t (10 * f.dget 0x2020 0x40) (10 * f.dget 0x2020 0x40 - 20), clamped := clampAt t f,
    junctionStop := hysteresis f.junctionStop t 1050 1000,
    thermalCeiling := if clampAt t f then max 1500 (f.thermalCeiling - 50) else min 3600 (f.thermalCeiling + 50) }

theorem thermalCheck_eq (t : Int) (f : Fab) :
    thermalCheck t f = if hysteresis f.junctionStop t 1050 1000 then (thermalLimits t f).setDuty 0 else thermalLimits t f := rfl

/-- A condition with a hysteresis holds from its threshold on, and once it does, from its lower one. -/
theorem hysteresis_eq (was : Bool) (t on off : Int) :
    hysteresis was t on off = if was then decide (off ≤ t) else decide (on ≤ t) := by
  unfold hysteresis
  split
  · simp [← decide_not]
  · rfl

/-- The entries that a temperature sets. -/
theorem dget_clampCounted (t : Int) (f : Fab) (i j : Nat) :
    (clampCounted t f).dget i j =
      if dictKey i j = dictKey 0x2020 2 ∧ clampAt t f = true ∧ f.clamped = false then min (f.dget 0x2020 2 + 1) (2 ^ 32 - 1)
      else if dictKey i j = dictKey 0x2020 1 then (BitVec.ofInt 16 t).toNat else f.dget i j := by
  have keys : dictKey 0x2020 2 ≠ dictKey 0x2020 1 := by decide
  unfold clampCounted
  by_cases begins : clampAt t f = true ∧ f.clamped = false
  · rw [if_pos (by simp [begins]), Fab.dget_dadd, Fab.dget_dset_ne _ keys, Fab.dget_dset]
    simp only [begins, and_self, and_true]
    rfl
  · rw [if_neg (by simpa using begins), if_neg (fun h => begins h.2), Fab.dget_dset]

theorem thermalCheck_claims (s : State) (x : Int) (up : s.fab.phase = .running) :
    ∃ t, exec (.thermalCheck x) s = .next t ∧ DeviceOnly s t ∧ t.fab.dget 0x2020 1 = (BitVec.ofInt 16 x).toNat ∧
      t.fab.clamped = clampAt x s.fab ∧ t.fab.thermalCeiling = (thermalLimits x s.fab).thermalCeiling ∧
      t.fab.dget 0x2020 2 = (clampCounted x s.fab).dget 0x2020 2 ∧
      t.fab.junctionStop = hysteresis s.fab.junctionStop x 1050 1000 ∧
      (t.fab.junctionStop = true → t.fab.dget 0x2010 3 = 0) ∧
      Claims.EntriesKept s t [(0x2020, 1), (0x2020, 2), (0x2010, 3)] := by
  have limits : ∀ i j, (thermalLimits x s.fab).dget i j = (clampCounted x s.fab).dget i j := fun _ _ => rfl
  have stopped : (thermalCheck x s.fab).junctionStop = hysteresis s.fab.junctionStop x 1050 1000 := by
    rw [thermalCheck_eq]
    split <;> rfl
  have dict : ∀ i j, dictKey i j ≠ dictKey 0x2010 3 → (thermalCheck x s.fab).dget i j = (clampCounted x s.fab).dget i j := by
    intro i j away
    rw [thermalCheck_eq]
    split
    · rw [Fab.dget_setDuty_ne _ _ away, limits]
    · exact limits i j
  refine ⟨_, onFab_running (thermalCheck x) up, ⟨rfl, rfl, rfl⟩, ?_, ?_, ?_, dict _ _ (by decide), stopped, fun stop => ?_,
    fun j k hk away => ?_⟩
  · dsimp only
    rw [dict _ _ (by decide), dget_clampCounted, if_neg (fun h => absurd h.1 (by decide)), if_pos rfl]
  · dsimp only
    rw [thermalCheck_eq]
    split <;> rfl
  · dsimp only
    rw [thermalCheck_eq]
    split <;> rfl
  · dsimp only at stop ⊢
    rw [stopped] at stop
    rw [thermalCheck_eq, if_pos stop, Fab.dget_setDuty_same]
  · dsimp only
    rw [dict _ _ (dictKey_ne_of_notMem away (by simp) hk (by decide)), dget_clampCounted,
      if_neg (fun h => dictKey_ne_of_notMem away (by simp) hk (by decide) h.1), if_neg (dictKey_ne_of_notMem away (by simp) hk (by decide))]

/-! ### Wear -/

/-- WEAR_SECOND above 95 °C: the second counted, and a wear fuse blown at each multiple of 360,000. -/
theorem wearSecond_hot (x : Int) (s : State) (hot : 950 < x) :
    wearSecond x (W.of s) =
      { W.of s with
        fab := s.fab.dadd 0x2030 1 1
        sec := { s.sec with fuses := { s.sec.fuses with
          wear := if (s.fab.dadd 0x2030 1 1).dget 0x2030 1 % 360000 = 0 ∧ s.sec.fuses.wear < 1024 then s.sec.fuses.wear + 1
            else s.sec.fuses.wear } } } := by
  rw [wearSecond, if_pos hot]
  by_cases blows : (s.fab.dadd 0x2030 1 1).dget 0x2030 1 % 360000 = 0 ∧ s.sec.fuses.wear < 1024
  · rw [if_pos blows]
    exact if_pos blows
  · rw [if_neg blows]
    exact if_neg blows

/-- Settles O51: each command's effect on the entries, the budget and the limits, clause by clause. -/
theorem powerAndHeatLimitTheDevice : Obligations.PowerAndHeatLimitTheDevice := by
  unfold Obligations.PowerAndHeatLimitTheDevice
  refine ⟨fun s up => ⟨powerSample_claims s up, dutyUpdate_claims s up⟩, fun s x up => ?_, fun s => ⟨fun off => ?_, fun on => ?_⟩,
    fun s x up => ?_⟩
  · intro clamp
    obtain ⟨t, next, only, shown, clamped, ceiling, counted, stopped, rest⟩ := thermalCheck_claims s x up
    refine ⟨t, next, only, shown, ?_, ?_, ?_, ?_, rest⟩
    · rw [clamped, clampAt, hysteresis_eq]
    · rw [ceiling, clamped]
      rfl
    · rw [counted, clamped, dget_clampCounted, if_neg (show ¬dictKey 0x2020 2 = dictKey 0x2020 1 by decide)]
      simp only [true_and]
    · rw [stopped, hysteresis_eq]
  · exact (onAny_map s _).trans (by rw [if_pos off])
  · refine ⟨_, onAny_map s _, ⟨rfl, rfl, rfl⟩, ?_⟩
    dsimp only
    rw [if_neg on]
  · intro n
    refine ⟨fun cool => ?_, fun hot => ?_⟩
    · have idle : wearSecond x (W.of s) = W.of s := by rw [wearSecond, if_neg (by omega)]
      refine (onAll_running (wearSecond x) up (by rw [idle]; rfl)).trans ?_
      rw [idle]
      rfl
    · have count : (s.fab.dadd 0x2030 1 1).dget 0x2030 1 = n := Fab.dget_dadd_same _ _ _ _
      refine ⟨_, onAll_running (wearSecond x) up (by rw [wearSecond_hot x s hot]; rfl), ?_, ?_, fun j k hk away => ?_, ?_⟩
      all_goals rw [wearSecond_hot x s hot]
      · rfl
      · exact count
      · exact Fab.dget_dadd_ne _ (dictKey_ne_of_notMem away (by simp) hk (by decide))
      · rw [count]
        rfl

end Sys2Proof.Machine
end

section
/-! PROOFS. A command that is a write of a dictionary entry (R406 to R422): what its entry allows, the value it brings, its effect, and the
response, which changes nothing but what goes out and the counts of the agent. -/

namespace Sys2Proof.Machine

open Sys2Proof Sys2Proof.Safety

variable {s t : State} {rq : Requester} {i sub v : Nat} {b : List Byte} {f g : Fab} {d : Desc} {c : Instr}

/-! ### Entries that may be written -/

/-- An entry that a request may reach is there. -/
theorem Fab.entry_of_entryAccess {write : Bool} (h : f.entryAccess rq i sub write = .ok d) : Dict.entry i sub = some d := by
  unfold Fab.entryAccess at h
  split at h
  · cases h
  · next e entry =>
    rw [entry]
    iterate 5 (split at h; · cases h)
    cases h
    rfl

/-- An entry that a write may reach is one of the table's rows that hold its index and subindex. -/
theorem Fab.row_of_entryAccess (h : f.entryAccess rq i sub true = .ok d) :
    Dict.row i sub = some d ∧ d ∈ Dict.table ∧ d.holds i sub = true ∧ d.access ≠ .const ∧ d.access ≠ .ro := by
  unfold Fab.entryAccess at h
  split at h
  · cases h
  · next e entry =>
    split at h
    · cases h
    · split at h
      · cases h
      · split at h
        · cases h
        · split at h
          · cases h
          · next may =>
            simp at may
            obtain ⟨const, ro⟩ := may
            split at h
            · next wo => simp at wo
            · cases h
              unfold Dict.entry at entry
              split at entry
              · obtain ⟨n, -, rfl⟩ := Option.map_eq_some_iff.1 entry
                exact absurd rfl const
              · split at entry
                · cases entry
                · exact ⟨entry, List.mem_of_find?_eq_some entry, by simpa using List.find?_some entry, const, ro⟩

/-- Rows lie below subindex 256, no value is empty, and no write reaches the counts of the agent (Table "Agent entries"). -/
theorem Dict.table_rows : ∀ d ∈ Dict.table, d.sub + d.subs ≤ 256 ∧ 0 < d.ty.width ∧
    (d.index ≤ 0x1101 → 0x1101 < d.index + d.indices → d.access = .ro ∨ d.access = .const) := by decide +kernel

theorem Fab.sub_lt_of_entryAccess (h : f.entryAccess rq i sub true = .ok d) : sub < 256 ∧ 0 < d.ty.width ∧ i ≠ 0x1101 := by
  obtain ⟨-, mem, holds, const, ro⟩ := Fab.row_of_entryAccess h
  obtain ⟨top, wide, counts⟩ := Dict.table_rows d mem
  simp only [Desc.holds, Bool.and_eq_true, Nat.ble_eq, Nat.blt_eq] at holds
  obtain ⟨⟨⟨low, high⟩, -⟩, below⟩ := holds
  refine ⟨by omega, wide, fun same => ?_⟩
  subst same
  exact (counts low high).elim ro const

/-! ### The value -/

/-- A number that fits its entry is the value of its bytes. -/
theorem beNat_valueBytes (entry : Dict.entry i sub = some d) (width : (valueBytes i sub v).length = d.ty.width) (wide : 0 < d.ty.width) :
    beNat (valueBytes i sub v) = v := by
  unfold valueBytes at width ⊢
  rw [entry] at width ⊢
  dsimp only at width ⊢
  split at width
  · next small =>
    rw [if_pos small, beNat, beBytes, List.reverse_reverse, leNat_leBytes]
    exact Nat.mod_eq_of_lt (by rwa [show (256 : Nat) = 2 ^ 8 from rfl, ← Nat.pow_mul])
  · rw [List.length_nil] at width
    omega

/-! ### The response -/

/-- The device without what a response changes: what goes out, the mailboxes and their interrupts, the responses, and the counts in the
dictionary. -/
def Fab.unanswered (f : Fab) : Fab :=
  { f with netOut := [], mailboxes := [], interrupts := [], dict := [], agent := { f.agent with responses := [], given := [] } }

theorem Fab.interrupt_unanswered (f : Fab) (who : Party) (p n : Nat) : (f.interrupt who p n).unanswered = f.unanswered := by
  cases who <;> rfl

theorem Fab.send_unanswered (f : Fab) (who : Party) (p m : Nat) (msg : BitVec 512) : (f.send who p m msg).unanswered = f.unanswered := by
  unfold Fab.send
  dsimp only
  split
  · rfl
  · unfold Fab.land
    dsimp only
    split
    · rw [Fab.interrupt_unanswered]
      rfl
    · rfl

theorem Fab.sendResponse_spec (f : Fab) (p m : Nat) :
    (f.sendResponse p m).unanswered = f.unanswered ∧ (f.sendResponse p m).dict = f.dict := by
  unfold Fab.sendResponse
  split
  · exact ⟨rfl, rfl⟩
  · dsimp only
    split
    · exact ⟨Fab.send_unanswered _ _ _ _ _, (Fab.send_keeps _ _ _ _ _).1⟩
    · exact ⟨rfl, rfl⟩

/-- The count of a response: those that were OK, and the others (R422). -/
def answerCount (status : Nat) : Nat := if status = rinayOk then 1 else 2

/-- A response changes nothing but what goes out and its count. -/
theorem Fab.respond_spec (f : Fab) (rq : Requester) (fr : Frame) (key : Option Nat) (status type : Nat) (last : Bool) (payload : List Byte) :
    (f.respond rq fr key status type last payload).unanswered = f.unanswered ∧
      (f.respond rq fr key status type last payload).dict = (f.dadd 0x1101 (answerCount status) 1).dict := by
  have count : (if status = rinayOk then f.dadd 0x1101 1 1 else f.dadd 0x1101 2 1) = f.dadd 0x1101 (answerCount status) 1 := by
    unfold answerCount
    split <;> rfl
  unfold Fab.respond
  rw [count]
  extract_lets g frame response way
  split
  · exact ⟨rfl, rfl⟩
  · exact ⟨rfl, rfl⟩
  · exact ⟨rfl, rfl⟩
  · split
    · exact ⟨rfl, rfl⟩
    · exact Fab.sendResponse_spec _ _ _
  · exact ⟨rfl, rfl⟩

theorem Fab.dget_of_dict (h : g.dict = f.dict) (i j : Nat) : g.dget i j = f.dget i j := by
  unfold Fab.dget
  rw [h]

/-! ### A write that its entry allows -/

theorem serves_spec (serves : Claims.serves s rq = true) : s.fab.phase = .running ∧ s.fab.serves? rq = true ∧ s.fab.admits rq = true ∧
    s.fab.agent.queue = [] ∧ (W.of s).reachesAgent rq = true := by
  simp only [Claims.serves, Bool.and_eq_true, beq_iff_eq, List.isEmpty_iff] at serves
  obtain ⟨⟨⟨⟨up, runs⟩, admits⟩, first⟩, reaches⟩ := serves
  exact ⟨up, runs, admits, first, reaches⟩

theorem fits_spec (fits : Claims.fits s rq i sub b = true) : ∃ d, s.fab.entryAccess rq i sub true = .ok d ∧ b.length = d.ty.width ∧
    ¬(i = 0xA010 ∧ (W.of s).keyShut rq = true) ∧ (W.of s).entryBusy d i sub (beNat b) = false ∧
    s.fab.rangeBad d i sub (beNat b) b = false := by
  unfold Claims.fits at fits
  split at fits
  · next d access =>
    simp only [Bool.and_eq_true, Bool.not_eq_true', beq_iff_eq, Bool.and_eq_false_iff] at fits
    obtain ⟨⟨⟨width, open_⟩, idle⟩, range⟩ := fits
    exact ⟨d, access, width, fun shut => by simp [shut] at open_, idle, range⟩
  · cases fits

/-- The device with another state of its dictionary agent. -/
def Fab.withAgent (f : Fab) (a : Agent) : Fab := { f with agent := a }

/-- The work as a command's write meets its entry, with what its requester had staged gone. -/
theorem narrowed_eq (s : State) (rq : Requester) (i sub : Nat) :
    Claims.narrowed s rq i sub = (W.of s).map (fun f => f.withAgent (s.fab.agent.narrow (requesterKey rq) i sub)) := rfl

/-- No entry but those of the clock islands and of EWS_N is busy by what the agent would make of it. -/
theorem W.entryBusy_withAgent (w : W) (a : Agent) (d : Desc) (sub v : Nat) (clock : i ≠ 0x2100) (ews : i ≠ 0x9200) :
    (w.map (fun f => f.withAgent a)).entryBusy d i sub v = w.entryBusy d i sub v := by
  unfold W.entryBusy
  simp only [clock, ews, false_and, if_false]
  rfl

/-- A value that fits its entry has its entry's effect. -/
theorem W.applyWrite_of_fits (w : W) (awake : w.fab.dget 0x2040 1 ≠ 1) (mine : ¬(i = 0xA010 ∧ w.keyShut rq = true))
    (idle : w.entryBusy d i sub (beNat b) = false) (range : w.fab.rangeBad d i sub (beNat b) b = false) :
    w.applyWrite rq d i sub b = w.entryWrite i sub (beNat b) b := by
  have stays : w.map (fun f => if f.dget 0x2040 1 = 1 then f.dset 0x2040 1 0 else f) = w :=
    congrArg (fun g => { w with fab := g }) (if_neg awake)
  unfold W.applyWrite
  extract_lets v w1
  have same : w1 = w := stays
  rw [same, if_neg mine, if_neg (Bool.eq_false_iff.1 idle), if_neg (Bool.eq_false_iff.1 range)]

/-- What a command's value of its entry's width comes to: the status and what it leaves (R419). -/
def W.effectOf (s : State) (rq : Requester) (d : Desc) (i sub : Nat) (b : List Byte) : Nat × W :=
  (Claims.narrowed s rq i sub).applyWrite rq d i sub b

/-- A command that the agent serves at once and whose entry a write may reach: the value's effect, and then its response. -/
theorem W.command_of_access (serves : Claims.serves s rq = true) (access : s.fab.entryAccess rq i sub true = .ok d)
    (width : b.length = d.ty.width) :
    (W.of s).command rq i sub b = (W.effectOf s rq d i sub b).2.map (fun h =>
      h.respond rq (commandFrame rq i sub [] 0) s.sec.managementKey (W.effectOf s rq d i sub b).1 d.ty.code false []) := by
  obtain ⟨-, runs, admits, first, reaches⟩ := serves_spec serves
  have queue : (W.of s).fab.agent.queue.isEmpty = true := List.isEmpty_iff.2 first
  have runs' : (W.of s).fab.serves? rq = true := runs
  have admits' : (W.of s).fab.admits rq = true := admits
  have access' : (Claims.narrowed s rq i sub).fab.entryAccess rq i sub true = .ok d := access
  unfold W.command
  extract_lets fr answer w1
  have same : w1 = Claims.narrowed s rq i sub := rfl
  rw [if_neg (by simp [reaches]), if_neg (by simp [queue, runs']), if_neg (by simp [admits']), same, access']
  dsimp only
  rw [if_neg (by simp [width])]
  rfl

/-- What a command leaves: memory, the security block and the device as its effect does, with the response counted. -/
structure Wrote (s t : State) (y : Nat × W) : Prop where
  mem : t.mem = MemOp.applyAll s.mem y.2.out
  sec : t.sec = y.2.sec
  pending : t.pending = s.pending
  rest : t.fab.unanswered = y.2.fab.unanswered
  dict : t.fab.dict = (y.2.fab.dadd 0x1101 (answerCount y.1) 1).dict

theorem exec_of_access (serves : Claims.serves s rq = true) (access : s.fab.entryAccess rq i sub true = .ok d)
    (width : b.length = d.ty.width) (lift : exec c s = onAll s (fun w => w.command rq i sub b)) {y : Nat × W}
    (effect : W.effectOf s rq d i sub b = y) (goes : y.2.waits = false) (clean : y.2.faults = []) :
    ∃ t, exec c s = .next t ∧ Wrote s t y := by
  have ran := W.command_of_access serves access width
  rw [effect] at ran
  have settled : ((W.of s).command rq i sub b).settled = (W.of s).command rq i sub b := by
    rw [ran]
    exact settled_of_faults clean
  obtain ⟨rest, dict⟩ := Fab.respond_spec y.2.fab rq (commandFrame rq i sub [] 0) s.sec.managementKey y.1 d.ty.code false []
  refine ⟨_, lift.trans (onAll_running _ (serves_spec serves).1 (by rw [settled, ran]; exact goes)), ?_, ?_, rfl, ?_, ?_⟩
  all_goals rw [settled, ran]
  · rfl
  · rfl
  · exact rest
  · exact dict

/-- A command that is a write which its entry allows has its entry's effect. -/
theorem exec_of_mayWrite (may : Claims.mayWrite s rq i sub b = true) (clock : i ≠ 0x2100) (ews : i ≠ 0x9200)
    (lift : exec c s = onAll s (fun w => w.command rq i sub b)) {y : Nat × W}
    (effect : (Claims.narrowed s rq i sub).entryWrite i sub (beNat b) b = y) (goes : y.2.waits = false) (clean : y.2.faults = []) :
    ∃ t, exec c s = .next t ∧ Wrote s t y := by
  simp only [Claims.mayWrite, Bool.and_eq_true, bne_iff_ne, ne_eq] at may
  obtain ⟨⟨serves, awake⟩, fits⟩ := may
  obtain ⟨d, access, width, mine, idle, range⟩ := fits_spec fits
  have idle' : (Claims.narrowed s rq i sub).entryBusy d i sub (beNat b) = false :=
    (W.entryBusy_withAgent (W.of s) _ d sub _ clock ews).trans idle
  exact exec_of_access serves access width lift
    ((W.applyWrite_of_fits (Claims.narrowed s rq i sub) awake mine idle' range).trans effect) goes clean

/-- A number that a command may write is the value of the bytes it writes. -/
theorem beNat_of_mayWriteNat (may : Claims.mayWriteNat s rq i sub v = true) : beNat (valueBytes i sub v) = v := by
  simp only [Claims.mayWriteNat, Claims.mayWrite, Bool.and_eq_true] at may
  obtain ⟨d, access, width, -⟩ := fits_spec may.2
  obtain ⟨low, wide, -⟩ := Fab.sub_lt_of_entryAccess access
  exact beNat_valueBytes (Fab.entry_of_entryAccess access) width wide

/-! ### What a write leaves of the dictionary -/

theorem Wrote.dget {st : Nat} {w : W} (h : Wrote s t (st, w)) {j k : Nat} (index : j ≠ 0x1101) (low : k < 256) :
    t.fab.dget j k = w.fab.dget j k := by
  have small : answerCount st < 256 := by
    unfold answerCount
    split <;> decide
  rw [Fab.dget_of_dict h.dict, Fab.dget_dadd_ne _ (dictKey_ne index low small)]

/-- The same after an answer OK, of the agent's other counts as well. -/
theorem Wrote.dget_ok {w : W} (h : Wrote s t (rinayOk, w)) {j k : Nat} (low : k < 256) (away : j ≠ 0x1101 ∨ k ≠ 1) :
    t.fab.dget j k = w.fab.dget j k := by
  have dict : t.fab.dict = (w.fab.dadd 0x1101 1 1).dict := h.dict
  rw [Fab.dget_of_dict dict, Fab.dget_dadd_ne _ (dictKey_ne_of_pair (fun same => ?_) low (by decide))]
  injection same with first second
  omega

/-- An answer OK is counted. -/
theorem Wrote.ok {w : W} (h : Wrote s t (rinayOk, w)) (good : w.fab.dget 0x1101 1 = s.fab.dget 0x1101 1)
    (bad : w.fab.dget 0x1101 2 = s.fab.dget 0x1101 2) : Claims.WriteOk s t where
  accepted := by
    have dict : t.fab.dict = (w.fab.dadd 0x1101 1 1).dict := h.dict
    rw [Fab.dget_of_dict dict, Fab.dget_dadd_same, good]
    rfl
  refused := by
    have dict : t.fab.dict = (w.fab.dadd 0x1101 1 1).dict := h.dict
    rw [Fab.dget_of_dict dict, Fab.dget_dadd_ne _ (by decide), bad]

/-- A refusal is counted. -/
theorem Wrote.refused {st : Nat} {w : W} (h : Wrote s t (st, w)) (bad : st ≠ rinayOk) (out : w.out = []) (sec : w.sec = s.sec)
    (entries : ∀ j k, k < 256 → w.fab.dget j k = s.fab.dget j k) : Claims.WriteRefused s t := by
  have count : answerCount st = 2 := if_neg bad
  have dict := h.dict
  dsimp only at dict
  rw [count] at dict
  refine ⟨?_, fun j k hk away => ?_, ?_, h.sec.trans sec⟩
  · rw [Fab.dget_of_dict dict, Fab.dget_dadd_same, entries _ _ (by decide)]
    rfl
  · rw [Fab.dget_of_dict dict, Fab.dget_dadd_ne _ (dictKey_ne_of_pair (fun same => ?_) hk (by decide)), entries _ _ hk]
    injection same with first second
    omega
  · rw [h.mem]
    dsimp only
    rw [out]
    rfl

end Sys2Proof.Machine
end

section
/-! PROOFS. Dictionary writes (O47): an entry that a write only sets, ports enabled and disabled (R357), records released (R430), and the
requests that are refused, counted or queued. -/

namespace Sys2Proof.Machine

open Sys2Proof Sys2Proof.Safety

variable {s t : State} {rq : Requester} {i sub v n port : Nat} {b : List Byte} {f g : Fab} {d : Desc} {c : Instr}

/-! ### An entry that a write only sets -/

/-- An entry whose write does nothing but set it (R406). -/
theorem W.entryWrite_of_plain (w : W) (plain : Claims.plainEntry i = true) :
    w.entryWrite i sub v b = (rinayOk, w.map (fun f => f.dset i sub v)) := by
  have apart := plain
  unfold Claims.plainEntry at apart
  rw [Bool.and_eq_true] at apart
  obtain ⟨listed, below⟩ := apart
  have high : ¬(0xB100 ≤ i ∧ i ≤ 0xB140) := by
    rintro ⟨low, up⟩
    simp [← Bool.not_eq_true] at below
    omega
  unfold W.entryWrite
  extract_lets f p store
  split
  case h_21 => rw [if_neg high]; rfl
  all_goals exact absurd listed (by decide)

theorem ne_of_plain (plain : Claims.plainEntry i = true) : i ≠ 0x2100 ∧ i ≠ 0x9200 ∧ i ≠ 0x2040 ∧ i ≠ 0xA010 := by
  refine ⟨?_, ?_, ?_, ?_⟩ <;> rintro rfl <;> exact absurd plain (by decide)

theorem exec_dictionaryWrite_plain (may : Claims.mayWriteNat s rq i sub v = true) (plain : Claims.plainEntry i = true)
    (lift : exec c s = onAll s (fun w => w.commandNat rq i sub v)) :
    ∃ t, exec c s = .next t ∧ t.mem = s.mem ∧ t.sec = s.sec ∧ t.fab.dget i sub = v ∧ Claims.WriteOk s t ∧
      ∀ j k, k < 256 → (j ≠ i ∨ k ≠ sub) → (j ≠ 0x1101 ∨ k ≠ 1) → t.fab.dget j k = s.fab.dget j k := by
  obtain ⟨clock, ews, -, -⟩ := ne_of_plain plain
  obtain ⟨t, next, wrote⟩ := exec_of_mayWrite may clock ews lift
    (y := (rinayOk, (Claims.narrowed s rq i sub).map (fun f => f.dset i sub v)))
    (by rw [beNat_of_mayWriteNat may]; exact W.entryWrite_of_plain _ plain) rfl rfl
  simp only [Claims.mayWriteNat, Claims.mayWrite, Bool.and_eq_true] at may
  obtain ⟨d, access, -⟩ := fits_spec may.2
  obtain ⟨low, -, agent⟩ := Fab.sub_lt_of_entryAccess access
  have counts : ∀ k, k < 256 → ((Claims.narrowed s rq i sub).map (fun f => f.dset i sub v)).fab.dget 0x1101 k = s.fab.dget 0x1101 k :=
    fun k hk => Fab.dget_dset_ne _ (Ne.symm (dictKey_ne agent low hk))
  refine ⟨t, next, wrote.mem, wrote.sec, ?_, wrote.ok (counts 1 (by decide)) (counts 2 (by decide)), fun j k hk away unlike => ?_⟩
  · rw [wrote.dget agent low]
    exact Fab.dget_dset_same _ _ _ _
  · rw [wrote.dget_ok hk unlike]
    exact Fab.dget_dset_ne _ (dictKey_ne_of_pair (fun same => by injection same with first second; omega) hk low)

end Sys2Proof.Machine
end

section
/-! PROOFS. What enabling and disabling a port does to the dictionary (R356, R357, R361): it shows the states of ports, lanes and cascade
links, and no other entry changes but that of the port itself. -/

namespace Sys2Proof.Machine

open Sys2Proof Sys2Proof.Safety

variable {i j : Nat} {f : Fab}

/-- The entries that show lanes (0x5002), port states (0x5007) and cascade links (0x5050:03). -/
def showsPorts (i : Nat) : Bool := [0x5002, 0x5007, 0x5050].contains i

theorem ne_of_showsPorts (away : showsPorts i = false) : i ≠ 0x5002 ∧ i ≠ 0x5007 ∧ i ≠ 0x5050 := by
  refine ⟨?_, ?_, ?_⟩ <;> rintro rfl <;> exact absurd away (by decide)

theorem Fab.dget_showCascade (f : Fab) (port : Nat) (up : Bool) (away : showsPorts i = false) (hj : j < 256) :
    (f.showCascade port up).dget i j = f.dget i j := by
  unfold Fab.showCascade
  split
  · exact Fab.dget_dset_ne _ (dictKey_ne (ne_of_showsPorts away).2.2 hj (by decide))
  · rfl

theorem Fab.dget_setPort (f : Fab) {port : Nat} (state lanes : Nat) (low : port < 32) (away : showsPorts i = false) (hj : j < 256) :
    (f.setPort port state lanes).dget i j = f.dget i j :=
  (Fab.dget_showCascade _ _ _ away hj).trans (Fab.dget_dset_ne _ (dictKey_ne (ne_of_showsPorts away).2.1 hj (by omega)))

theorem Fab.dget_showLanes (f : Fab) {n : Nat} (lanes : Nat) (up : Bool) (low : n < 32) (away : showsPorts i = false) (hj : j < 256) :
    (f.showLanes n lanes up).dget i j = f.dget i j :=
  Fab.dget_dset_ne _ (dictKey_ne (ne_of_showsPorts away).1 hj (by omega))

theorem Fab.dget_dropPort (f : Fab) {port : Nat} (state lanes : Nat) (low : port < 32) (away : showsPorts i = false) (hj : j < 256) :
    (f.dropPort port state lanes).dget i j = f.dget i j :=
  (Fab.dget_setPort _ _ _ low away hj).trans (Fab.dget_showLanes _ _ _ (by omega) away hj)

/-- The ports that a port's remaining lanes form are ports of its engine. -/
theorem fallbackPorts_lt {lanes retired : Nat} : ∀ q ∈ fallbackPorts lanes retired, q.1 < 4 := by
  intro q hq
  unfold fallbackPorts at hq
  extract_lets groups pairs at hq
  rcases List.mem_append.1 hq with hq | hq
  · simp only [groups] at hq
    split at hq
    · exact (by decide : ∀ q ∈ [(0, 0x0F), (2, 0xF0)], q.1 < 4) q (List.mem_of_mem_filter hq)
    · cases hq
  · simp only [pairs] at hq
    split at hq
    · cases hq
    · exact (by decide : ∀ q ∈ [(0, 0x03), (1, 0x0C), (2, 0x30), (3, 0xC0)], q.1 < 4) q (List.mem_of_mem_filter hq)

/-- What every step of a fold over the members of a list keeps, the fold keeps. -/
theorem foldl_keeps_of_mem {σ α β : Type} {step : σ → α → σ} (g : σ → β) {l : List α} (h : ∀ s, ∀ a ∈ l, g (step s a) = g s) (s : σ) :
    g (l.foldl step s) = g s := by
  induction l generalizing s with
  | nil => rfl
  | cons a l ih =>
    rw [List.foldl_cons, ih (fun s a ha => h s a (List.mem_cons_of_mem _ ha)), h s a (List.mem_cons_self ..)]

theorem Fab.dget_reform (f : Fab) {port : Nat} (lanes : Nat) (low : port < 32) (away : showsPorts i = false) (hj : j < 256) :
    (f.reform port lanes).dget i j = f.dget i j := by
  unfold Fab.reform
  extract_lets n
  split
  · exact Fab.dget_dropPort _ _ _ low away hj
  · refine (foldl_keeps_of_mem (fun g : Fab => g.dget i j) (fun g q hq => ?_) _).trans (Fab.dget_dropPort _ _ _ low away hj)
    have := fallbackPorts_lt q hq
    exact Fab.dget_setPort g 1 q.2 (by omega) away hj

theorem Fab.dget_takeMode (f : Fab) {n : Nat} (low : n < 8) (away : showsPorts i = false) (hj : j < 256) :
    (f.takeMode n).dget i j = f.dget i j := by
  unfold Fab.takeMode
  extract_lets f1
  refine foldl_keeps_of_mem (fun g : Fab => g.dget i j) (fun g k hk => ?_) f1
  have := List.mem_range.1 hk
  exact Fab.dget_dropPort g _ _ (by omega) away hj

theorem Fab.dget_layPort (f : Fab) {port : Nat} (low : port < 32) (away : showsPorts i = false) (hj : j < 256) :
    (f.layPort port).dget i j = f.dget i j := by
  unfold Fab.layPort
  split
  · split
    · exact Fab.dget_reform _ _ low away hj
    · exact Fab.dget_setPort _ _ _ low away hj
  · rfl

/-- A port enabled: its own entry reads 1. -/
theorem Fab.dget_enablePort (f : Fab) {port : Nat} (low : port < 32) (away : showsPorts i = false) (hj : j < 256) :
    (f.enablePort port).dget i j = (f.dset 0x5003 (port + 1) 1).dget i j := by
  unfold Fab.enablePort
  rw [Fab.dget_layPort _ low away hj, Fab.dget_dset, Fab.dget_dset]
  split
  · rfl
  · split
    · rfl
    · exact Fab.dget_takeMode _ (by omega) away hj

/-- A port disabled: its own entry reads 0. -/
theorem Fab.dget_disablePort (f : Fab) {port : Nat} (low : port < 32) (away : showsPorts i = false) (hj : j < 256) :
    (f.disablePort port).dget i j = (f.dset 0x5003 (port + 1) 0).dget i j := by
  unfold Fab.disablePort
  extract_lets n f1
  split
  · refine foldl_keeps_of_mem (fun g : Fab => g.dget i j) (fun g k hk => ?_) f1
    dsimp only
    split
    · have := List.mem_range.1 hk
      exact Fab.dget_dropPort g _ _ (by omega) away hj
    · rfl
  · rfl

end Sys2Proof.Machine
end

section
/-! PROOFS. The clauses on dictionary writes put together (O47). -/

namespace Sys2Proof.Machine

open Sys2Proof Sys2Proof.Safety

variable {s t : State} {rq : Requester} {i sub v n port : Nat} {b : List Byte} {f g : Fab} {d : Desc} {c : Instr}

/-! ### Ports -/

/-- A value in the range of an entry of numbers is at most the entry's highest (R405). -/
theorem Fab.le_hi_of_rangeBad (range : f.rangeBad d i sub v b = false) (unsigned : d.ty.signed = false)
    (number : ∀ n, d.ty ≠ .octets n ∧ d.ty ≠ .text n) : (v : Int) ≤ d.hi := by
  unfold Fab.rangeBad at range
  extract_lets n generic at range
  have inside : generic = false := by
    cases h : generic
    · rfl
    · rw [h] at range
      cases range
  simp only [generic, n, unsigned] at inside
  split at inside
  · next h => exact absurd h (number _).1
  · next h => exact absurd h (number _).2
  · simp at inside
    exact inside.2

/-- The entries of the ports' enables are booleans of subindexes 1 to 32 (0x5003, Table "Port entries"). -/
theorem Dict.table_portEnable : ∀ d ∈ Dict.table, d.index ≤ 0x5003 → 0x5003 < d.index + d.indices →
    d.ty = .bool ∧ d.hi = 1 ∧ d.sub + d.subs ≤ 33 := by decide +kernel

theorem portEnable_of_mayWriteNat (may : Claims.mayWriteNat s rq 0x5003 (port + 1) v = true) : port < 32 ∧ v ≤ 1 := by
  have value := beNat_of_mayWriteNat may
  simp only [Claims.mayWriteNat, Claims.mayWrite, Bool.and_eq_true] at may
  obtain ⟨d, access, -, -, -, range⟩ := fits_spec may.2
  rw [value] at range
  obtain ⟨-, mem, holds, -, -⟩ := Fab.row_of_entryAccess access
  simp only [Desc.holds, Bool.and_eq_true, Nat.ble_eq, Nat.blt_eq] at holds
  obtain ⟨⟨⟨low, high⟩, -⟩, below⟩ := holds
  obtain ⟨ty, hi, top⟩ := Dict.table_portEnable d mem low high
  have le := Fab.le_hi_of_rangeBad range (by rw [ty]; rfl) (fun n => by rw [ty]; exact ⟨nofun, nofun⟩)
  rw [hi] at le
  exact ⟨by omega, by omega⟩

/-- The effect of a write of a port's enable. -/
def Fab.portEnabled (f : Fab) (port v : Nat) : Fab :=
  if v = 1 then (if f.dget 0x5003 (port + 1) = 1 then f else f.enablePort port)
  else if f.dget 0x5003 (port + 1) = 0 then f else f.disablePort port

/-- The port's entry reads the value, and no other entry but those that show the ports changes. -/
theorem Fab.dget_portEnabled (f : Fab) (low : port < 32) (bool : v ≤ 1) :
    (f.portEnabled port v).dget 0x5003 (port + 1) = v ∧
      ∀ k, k < 256 → (f.portEnabled port v).dget 0x1101 k = f.dget 0x1101 k := by
  have away : ∀ x k, k < 256 → (f.dset 0x5003 (port + 1) x).dget 0x1101 k = f.dget 0x1101 k := fun x k hk =>
    Fab.dget_dset_ne _ (dictKey_ne (by decide) hk (by omega))
  unfold Fab.portEnabled
  by_cases on : v = 1
  · rw [if_pos on]
    split
    · next already => exact ⟨by rw [already, on], fun _ _ => rfl⟩
    · refine ⟨?_, fun k hk => (Fab.dget_enablePort f low rfl hk).trans (away _ _ hk)⟩
      rw [Fab.dget_enablePort f low rfl (by omega), Fab.dget_dset_same, on]
  · have off : v = 0 := by omega
    rw [if_neg on]
    split
    · next already => exact ⟨by rw [already, off], fun _ _ => rfl⟩
    · refine ⟨?_, fun k hk => (Fab.dget_disablePort f low rfl hk).trans (away _ _ hk)⟩
      rw [Fab.dget_disablePort f low rfl (by omega), Fab.dget_dset_same, off]

theorem exec_portEnableWrite (may : Claims.mayWriteNat s rq 0x5003 (port + 1) v = true) :
    ∃ t, exec (.portEnableWrite rq port v) s = .next t ∧ t.mem = s.mem ∧ t.sec = s.sec ∧
      t.fab.dget 0x5003 (port + 1) = v ∧ Claims.WriteOk s t := by
  obtain ⟨low, bool⟩ := portEnable_of_mayWriteNat may
  obtain ⟨set, rest⟩ := Fab.dget_portEnabled (Claims.narrowed s rq 0x5003 (port + 1)).fab low bool
  obtain ⟨t, next, wrote⟩ := exec_of_mayWrite (c := .portEnableWrite rq port v) may (by decide) (by decide) rfl
    (y := (rinayOk, (Claims.narrowed s rq 0x5003 (port + 1)).map (fun f => f.portEnabled port v)))
    (by rw [beNat_of_mayWriteNat may]; rfl) rfl rfl
  refine ⟨t, next, wrote.mem, wrote.sec, (wrote.dget (by decide) (by omega)).trans set, wrote.ok ?_ ?_⟩
  · exact rest 1 (by decide)
  · exact rest 2 (by decide)

/-! ### The event log -/

/-- A path with nothing discarded and no overflow record places nothing. -/
theorem EventPath.settle_of_quiet (q : EventPath) (cap now source : Nat) (part : Option Nat) (sync : Bool)
    (kept : q.traces + q.logs = 0) (whole : q.overflow = none) : q.settle cap now source part sync = q := by
  have place : EventPath.place cap now source part sync q = q := by
    unfold EventPath.place
    simp [kept, whole]
  unfold EventPath.settle
  simp only [place]

theorem exec_eventLogRelease (may : Claims.mayWriteNat s rq 0x9001 5 n = true) (kept : s.fab.log.traces + s.fab.log.logs = 0)
    (whole : s.fab.log.overflow = none) :
    ∃ t, exec (.eventLogRelease rq n) s = .next t ∧ t.mem = s.mem ∧ t.sec = s.sec ∧
      t.fab.log.queue = s.fab.log.queue.drop n ∧ Claims.WriteOk s t := by
  obtain ⟨t, next, wrote⟩ := exec_of_mayWrite (c := .eventLogRelease rq n) may (by decide) (by decide) rfl
    (y := (rinayOk, (Claims.narrowed s rq 0x9001 5).map (fun f => f.releaseLog n)))
    (by rw [beNat_of_mayWriteNat may]; rfl) rfl rfl
  have log : t.fab.log = { s.fab.log with queue := s.fab.log.queue.drop n } :=
    (congrArg (·.log) wrote.rest).trans (EventPath.settle_of_quiet { s.fab.log with queue := s.fab.log.queue.drop n } _ _ _ _ _ kept whole)
  exact ⟨t, next, wrote.mem, wrote.sec, by rw [log], wrote.ok rfl rfl⟩

/-! ### Requests that no write answers -/

theorem ne_ok_of_entryAccess {write : Bool} {st : Nat} (h : f.entryAccess rq i sub write = .error st) : st ≠ rinayOk := by
  unfold Fab.entryAccess at h
  split at h
  · cases h
    decide
  · iterate 5 (split at h; · cases h; decide)
    cases h

/-- A write that the right, the level or the entry's access forbids. -/
theorem exec_dictionaryWrite_refused {st : Nat} (serves : Claims.serves s rq = true) (access : s.fab.entryAccess rq i sub true = .error st) :
    ∃ t, exec (.dictionaryWrite rq i sub v) s = .next t ∧ Claims.WriteRefused s t := by
  obtain ⟨up, runs, admits, first, reaches⟩ := serves_spec serves
  have queue : (W.of s).fab.agent.queue.isEmpty = true := List.isEmpty_iff.2 first
  have runs' : (W.of s).fab.serves? rq = true := runs
  have admits' : (W.of s).fab.admits rq = true := admits
  have access' : (Claims.narrowed s rq i sub).fab.entryAccess rq i sub true = .error st := access
  have ran : (W.of s).commandNat rq i sub v = (Claims.narrowed s rq i sub).map (fun h =>
      h.respond rq (commandFrame rq i sub [] 0) s.sec.managementKey st (entryCode i sub) false []) := by
    unfold W.commandNat W.command
    extract_lets fr answer w1
    have same : w1 = Claims.narrowed s rq i sub := rfl
    rw [if_neg (by simp [reaches]), if_neg (by simp [queue, runs']), if_neg (by simp [admits']), same, access']
    rfl
  have settled : ((W.of s).commandNat rq i sub v).settled = (W.of s).commandNat rq i sub v := by
    rw [ran]
    rfl
  obtain ⟨-, dict⟩ := Fab.respond_spec (Claims.narrowed s rq i sub).fab rq (commandFrame rq i sub [] 0) s.sec.managementKey st
    (entryCode i sub) false []
  have runs : exec (.dictionaryWrite rq i sub v) s = _ :=
    onAll_running (fun w => w.commandNat rq i sub v) up (by rw [settled, ran]; rfl)
  rw [settled, ran] at runs
  refine ⟨_, runs, ?_⟩
  have count : answerCount st = 2 := if_neg (ne_ok_of_entryAccess access)
  rw [count] at dict
  refine ⟨?_, fun j k hk away => ?_, rfl, rfl⟩
  · exact (Fab.dget_of_dict dict _ _).trans (Fab.dget_dadd_same _ _ _ _)
  · exact (Fab.dget_of_dict dict _ _).trans (Fab.dget_dadd_ne _ (dictKey_ne_of_pair (fun same => by injection same; omega) hk (by decide)))

/-- A command that only counts. -/
theorem exec_counts {k m : Nat} (up : s.fab.phase = .running) (ran : (W.of s).commandNat rq i sub v = (W.of s).map (fun f => f.dadd k m 1)) :
    ∃ t, exec (.dictionaryWrite rq i sub v) s = .next t ∧ DeviceOnly s t ∧
      t.fab.dget k m = min (s.fab.dget k m + 1) (2 ^ (8 * (((Dict.row k m).map (fun d => d.ty.width)).getD 4)) - 1) := by
  have settled : ((W.of s).commandNat rq i sub v).settled = (W.of s).commandNat rq i sub v := by
    rw [ran]
    rfl
  have runs : exec (.dictionaryWrite rq i sub v) s = _ :=
    onAll_running (fun w => w.commandNat rq i sub v) up (by rw [settled, ran]; rfl)
  rw [settled, ran] at runs
  exact ⟨_, runs, ⟨rfl, rfl, rfl⟩, Fab.dget_dadd_same _ _ _ _⟩

theorem exec_dictionaryWrite_dropped (up : s.fab.phase = .running) (reaches : (W.of s).reachesAgent rq = true)
    (first : s.fab.agent.queue = []) (runs : s.fab.serves? rq = true) (full : s.fab.admits rq = false) :
    ∃ t, exec (.dictionaryWrite rq i sub v) s = .next t ∧ DeviceOnly s t ∧
      t.fab.dget 0x1101 3 = min (s.fab.dget 0x1101 3 + 1) (2 ^ 32 - 1) := by
  have queue : (W.of s).fab.agent.queue.isEmpty = true := List.isEmpty_iff.2 first
  have runs' : (W.of s).fab.serves? rq = true := runs
  have full' : (W.of s).fab.admits rq = false := full
  refine exec_counts up ?_
  unfold W.commandNat W.command
  extract_lets fr answer w1
  rw [if_neg (by simp [reaches]), if_neg (by simp [queue, runs']), if_pos (by simp [full'])]
  rfl

theorem exec_dictionaryWrite_queued (up : s.fab.phase = .running) (reaches : (W.of s).reachesAgent rq = true)
    (later : s.fab.agent.queue ≠ [] ∨ s.fab.serves? rq = false) :
    exec (.dictionaryWrite rq i sub v) s = .next { s with fab := { s.fab with
      agent := { s.fab.agent with
        queue := s.fab.agent.queue ++ (commandFrames rq i sub (valueBytes i sub v)).map (fun fr => (rq, fr)) } } } := by
  have ran : (W.of s).commandNat rq i sub v = (W.of s).map (fun f => f.enqueue rq (commandFrames rq i sub (valueBytes i sub v))) := by
    have waits : (!(W.of s).fab.agent.queue.isEmpty || !(W.of s).fab.serves? rq) = true := by
      rw [show (W.of s).fab = s.fab from rfl]
      rcases later with busy | stopped
      · simp [busy]
      · simp [stopped]
    unfold W.commandNat W.command
    extract_lets fr answer w1
    rw [if_neg (by simp [reaches]), if_pos waits]
  have settled : ((W.of s).commandNat rq i sub v).settled = (W.of s).commandNat rq i sub v := by
    rw [ran]
    rfl
  refine (onAll_running (fun w => w.commandNat rq i sub v) up (by rw [settled, ran]; rfl)).trans ?_
  rw [settled, ran]
  rfl

theorem exec_dictionaryWrite_unreached (up : s.fab.phase = .running) (cut : (W.of s).reachesAgent rq = false) :
    (rq.transport = .jtag → exec (.dictionaryWrite rq i sub v) s = .next s) ∧
    (rq.transport = .management → ∃ t, exec (.dictionaryWrite rq i sub v) s = .next t ∧ DeviceOnly s t ∧
      t.fab.dget 0x1101 4 = min (s.fab.dget 0x1101 4 + 1) (2 ^ 32 - 1)) := by
  have ran : (W.of s).commandNat rq i sub v =
      if rq.transport = .management then (W.of s).map (fun f => f.dadd 0x1101 4 1) else W.of s := by
    unfold W.commandNat W.command
    extract_lets fr answer w1
    rw [if_pos (by simp [cut])]
  refine ⟨fun tap => ?_, fun port => exec_counts up (by rw [ran, if_pos port])⟩
  rw [tap, if_neg (by decide)] at ran
  have settled : ((W.of s).commandNat rq i sub v).settled = W.of s := by
    rw [ran]
    rfl
  refine (onAll_running (fun w => w.commandNat rq i sub v) up (by rw [settled]; rfl)).trans ?_
  rw [settled]
  rfl

/-- A value of its type's size has its entry's width. -/
theorem length_valueBytes (entry : Dict.entry i sub = some d) (small : v < 2 ^ (8 * d.ty.width)) :
    (valueBytes i sub v).length = d.ty.width := by
  unfold valueBytes
  rw [entry]
  dsimp only
  rw [if_pos small, beBytes, List.length_reverse, leBytes_length]

/-- The work after the device has left P1 (R460). -/
def W.woken (w : W) : W := w.map (fun f => if f.dget 0x2040 1 = 1 then f.dset 0x2040 1 0 else f)

/-- A write of an entry that it only sets wakes the device, whatever else becomes of it. -/
theorem W.applyWrite_woken (w : W) (plain : Claims.plainEntry i = true) (low : sub < 256) (asleep : w.fab.dget 0x2040 1 = 1) :
    (w.applyWrite rq d i sub b).2.fab.dget 0x2040 1 = 0 ∧ (w.applyWrite rq d i sub b).2.waits = w.waits ∧
      (w.applyWrite rq d i sub b).2.faults = w.faults := by
  obtain ⟨clock, -, power, key⟩ := ne_of_plain plain
  have awake : w.woken.fab.dget 0x2040 1 = 0 := by
    have woken : w.woken.fab = w.fab.dset 0x2040 1 0 := if_pos asleep
    rw [woken, Fab.dget_dset_same]
  unfold W.applyWrite
  rw [← W.woken]
  extract_lets v
  rw [if_neg (fun h => key h.1), if_neg clock]
  split
  · exact ⟨awake, rfl, rfl⟩
  · split
    · exact ⟨awake, rfl, rfl⟩
    · rw [W.entryWrite_of_plain _ plain]
      exact ⟨(Fab.dget_dset_ne _ (dictKey_ne (Ne.symm power) (by decide) low)).trans awake, rfl, rfl⟩

theorem exec_dictionaryWrite_wakes (serves : Claims.serves s rq = true) (access : s.fab.entryAccess rq i sub true = .ok d)
    (small : v < 2 ^ (8 * d.ty.width)) (plain : Claims.plainEntry i = true) (asleep : s.fab.dget 0x2040 1 = 1) :
    ∃ t, exec (.dictionaryWrite rq i sub v) s = .next t ∧ t.fab.dget 0x2040 1 = 0 := by
  obtain ⟨low, -⟩ := Fab.sub_lt_of_entryAccess access
  obtain ⟨awake, goes, clean⟩ := W.applyWrite_woken (rq := rq) (d := d) (b := valueBytes i sub v) (Claims.narrowed s rq i sub) plain low asleep
  obtain ⟨t, next, wrote⟩ := exec_of_access (c := .dictionaryWrite rq i sub v) serves access
    (length_valueBytes (Fab.entry_of_entryAccess access) small) rfl rfl goes clean
  exact ⟨t, next, (wrote.dget (by decide) (by decide)).trans awake⟩

/-- Settles O47: the clauses one by one. -/
theorem dictionaryWritesAreCheckedAndApplied : Obligations.DictionaryWritesAreCheckedAndApplied := by
  unfold Obligations.DictionaryWritesAreCheckedAndApplied
  refine ⟨fun s rq i sub v may plain => exec_dictionaryWrite_plain may plain rfl, fun s rq engine v may => ?_,
    fun s rq port v may => exec_portEnableWrite may, fun s rq n may kept whole => exec_eventLogRelease may kept whole,
    fun s rq i sub v st up => ⟨fun serves access => exec_dictionaryWrite_refused serves access, fun reaches =>
      ⟨fun first runs full => exec_dictionaryWrite_dropped up reaches first runs full,
        fun later => exec_dictionaryWrite_queued up reaches later⟩, fun cut => exec_dictionaryWrite_unreached up cut⟩,
    fun s rq i sub v d serves access small plain asleep => exec_dictionaryWrite_wakes serves access small plain asleep⟩
  obtain ⟨t, next, mem, sec, set, ok, -⟩ := exec_dictionaryWrite_plain (c := .portModeWrite rq engine v) may (by decide) rfl
  exact ⟨t, next, mem, sec, set, ok⟩

end Sys2Proof.Machine
end

section
/-! PROOFS. Strict isolation, keys, attestation and fuses (O59): each command is a write of its entry, whose effect is stated once
(R477 to R493). -/

namespace Sys2Proof.Machine

open Sys2Proof Sys2Proof.Safety

variable {s t : State} {rq : Requester} {i sub v p who : Nat} {b record : List Byte} {c : Instr}

/-! ### The ranges of their entries -/

/-- A number that a command may write lies in the range of its entry (R405). -/
theorem range_of_mayWriteNat (may : Claims.mayWriteNat s rq i sub v = true) : ∃ d ∈ Dict.table, d.holds i sub = true ∧
    s.fab.rangeBad d i sub v (valueBytes i sub v) = false := by
  have value := beNat_of_mayWriteNat may
  simp only [Claims.mayWriteNat, Claims.mayWrite, Bool.and_eq_true] at may
  obtain ⟨d, access, -, -, -, range⟩ := fits_spec may.2
  obtain ⟨-, mem, holds, -, -⟩ := Fab.row_of_entryAccess access
  rw [value] at range
  exact ⟨d, mem, holds, range⟩

/-- The same of an entry of a range of unsigned numbers. -/
theorem inRange_of_mayWriteNat {low high : Nat} (may : Claims.mayWriteNat s rq i sub v = true)
    (row : ∀ d ∈ Dict.table, d.holds i sub = true →
      d.ty.signed = false ∧ (match d.ty with | .octets _ | .text _ => false | _ => true) = true ∧ d.lo = low ∧ d.hi = high) :
    low ≤ v ∧ v ≤ high := by
  obtain ⟨d, mem, holds, range⟩ := range_of_mayWriteNat may
  obtain ⟨unsigned, number, lo, hi⟩ := row d mem holds
  unfold Fab.rangeBad at range
  extract_lets n generic at range
  have inside : generic = false := by
    cases h : generic
    · rfl
    · rw [h] at range
      cases range
  simp only [generic, n, unsigned] at inside
  split at inside
  · next h => simp [h] at number
  · next h => simp [h] at number
  · simp [lo, hi] at inside
    omega

theorem running_of_mayWrite (may : Claims.mayWrite s rq i sub b = true) : s.fab.phase = .running := by
  simp only [Claims.mayWrite, Bool.and_eq_true] at may
  exact (serves_spec may.1.1).1

/-- A write whose effect is refused. -/
theorem exec_refused {st : Nat} (may : Claims.mayWrite s rq i sub b = true) (clock : i ≠ 0x2100) (ews : i ≠ 0x9200)
    (lift : exec c s = onAll s (fun w => w.command rq i sub b))
    (effect : (Claims.narrowed s rq i sub).entryWrite i sub (beNat b) b = (st, Claims.narrowed s rq i sub)) (bad : st ≠ rinayOk) :
    ∃ t, exec c s = .next t ∧ Claims.WriteRefused s t ∧ t.fab.sas = s.fab.sas := by
  obtain ⟨t, next, wrote⟩ := exec_of_mayWrite may clock ews lift effect rfl rfl
  exact ⟨t, next, wrote.refused bad rfl rfl (fun _ _ _ => rfl), (congrArg (·.sas) wrote.rest :)⟩

/-- A write whose effect changes the security block alone. -/
theorem exec_sec {sec : Sec} (may : Claims.mayWrite s rq i sub b = true) (clock : i ≠ 0x2100) (ews : i ≠ 0x9200)
    (lift : exec c s = onAll s (fun w => w.command rq i sub b))
    (effect : (Claims.narrowed s rq i sub).entryWrite i sub (beNat b) b = (rinayOk, { Claims.narrowed s rq i sub with sec := sec })) :
    ∃ t, exec c s = .next t ∧ t.mem = s.mem ∧ t.sec = sec ∧ Claims.WriteOk s t := by
  obtain ⟨t, next, wrote⟩ := exec_of_mayWrite may clock ews lift effect rfl rfl
  exact ⟨t, next, wrote.mem, wrote.sec, wrote.ok rfl rfl⟩

/-! ### Isolation and keys -/

/-- Strict isolation may be written only while no partition runs (R477). -/
theorem noneRuns_of_mayWriteNat (may : Claims.mayWriteNat s rq 0xB000 1 v = true) :
    partitions.any (fun p => s.fab.dget 0xB001 (p + 1) == 2) = false := by
  simp only [Claims.mayWriteNat, Claims.mayWrite, Bool.and_eq_true] at may
  obtain ⟨d, access, -, -, idle, -⟩ := fits_spec may.2
  obtain ⟨-, mem, holds, -, -⟩ := Fab.row_of_entryAccess access
  have row : ∀ d ∈ Dict.table, d.holds 0xB000 1 = true → d.access ≠ .rws := by decide +kernel
  unfold W.entryBusy at idle
  rw [if_neg (row d mem holds)] at idle
  exact idle

theorem exec_strictIsolationWrite (may : Claims.mayWriteNat s rq 0xB000 1 v = true) :
    ∃ t, exec (.strictIsolationWrite rq v) s = .next t ∧ t.mem = s.mem ∧ t.sec = s.sec ∧ Claims.WriteOk s t ∧
      t.fab.dget 0xB000 1 = v ∧ (v = 1 → t.fab.dget 0x3C20 2 = 0) := by
  have value := beNat_of_mayWriteNat may
  have idle : partitions.any (fun p => (Claims.narrowed s rq 0xB000 1).fab.dget 0xB001 (p + 1) == 2) = false :=
    noneRuns_of_mayWriteNat may
  have effect : (Claims.narrowed s rq 0xB000 1).entryWrite 0xB000 1 (beNat (valueBytes 0xB000 1 v)) (valueBytes 0xB000 1 v) =
      (rinayOk, (Claims.narrowed s rq 0xB000 1).map (fun f => if v = 1 then (f.dset 0xB000 1 v).dset 0x3C20 2 0 else f.dset 0xB000 1 v)) := by
    rw [value]
    show W.withFab _ (Fab.setStrict _ v) = _
    unfold Fab.setStrict Fab.strictWrite
    rw [idle]
    by_cases on : v = 1
    · simp [on, W.withFab, W.map]
    · simp [on, W.withFab, W.map]
  obtain ⟨t, next, wrote⟩ := exec_of_mayWrite (c := .strictIsolationWrite rq v) may (by decide) (by decide) rfl effect rfl rfl
  have entries : ∀ j k, k < 256 → (Fab.dget (if v = 1 then (Fab.dset (Claims.narrowed s rq 0xB000 1).fab 0xB000 1 v).dset 0x3C20 2 0
      else Fab.dset (Claims.narrowed s rq 0xB000 1).fab 0xB000 1 v) j k) =
      if dictKey j k = dictKey 0x3C20 2 ∧ v = 1 then 0 else (s.fab.dset 0xB000 1 v).dget j k := by
    intro j k _
    by_cases on : v = 1
    · rw [if_pos on, Fab.dget_dset]
      simp only [on, and_true]
      rfl
    · rw [if_neg on, if_neg (fun h => on h.2)]
      rfl
  refine ⟨t, next, wrote.mem, wrote.sec, wrote.ok ?_ ?_, ?_, fun on => ?_⟩
  · exact (entries _ _ (by decide)).trans ((if_neg (fun h => absurd h.1 (by decide))).trans (Fab.dget_dset_ne _ (by decide)))
  · exact (entries _ _ (by decide)).trans ((if_neg (fun h => absurd h.1 (by decide))).trans (Fab.dget_dset_ne _ (by decide)))
  · rw [wrote.dget (by decide) (by decide)]
    exact (entries _ _ (by decide)).trans ((if_neg (fun h => absurd h.1 (by decide))).trans (Fab.dget_dset_same _ _ _ _))
  · rw [wrote.dget (by decide) (by decide)]
    exact (entries _ _ (by decide)).trans (if_pos ⟨rfl, on⟩)

/-- The effect of a MACsec mode (R478). -/
theorem exec_macsecModeWrite {port : Nat} (may : Claims.mayWriteNat s rq 0x5008 (port + 1) v = true) :
    (v = 0 ∧ s.fab.dget 0xB000 1 = 1 → ∃ t, exec (.macsecModeWrite rq port v) s = .next t ∧ Claims.WriteRefused s t) ∧
    (¬(v = 0 ∧ s.fab.dget 0xB000 1 = 1) → ∃ t, exec (.macsecModeWrite rq port v) s = .next t ∧ t.mem = s.mem ∧ t.sec = s.sec ∧
      Claims.WriteOk s t ∧ t.fab.dget 0x5008 (port + 1) = v) := by
  have value := beNat_of_mayWriteNat may
  have low : port + 1 < 256 := by
    have writes := may
    simp only [Claims.mayWriteNat, Claims.mayWrite, Bool.and_eq_true] at writes
    obtain ⟨d, access, -⟩ := fits_spec writes.2
    exact (Fab.sub_lt_of_entryAccess access).1
  refine ⟨fun refused => ?_, fun allowed => ?_⟩
  · obtain ⟨t, next, bad, -⟩ := exec_refused (c := .macsecModeWrite rq port v) (st := rinayRange) may (by decide) (by decide) rfl
      (by rw [value]; exact congrArg (W.withFab _) (if_pos refused)) (by decide)
    exact ⟨t, next, bad⟩
  · obtain ⟨t, next, wrote⟩ := exec_of_mayWrite (c := .macsecModeWrite rq port v) may (by decide) (by decide) rfl
      (y := (rinayOk, (Claims.narrowed s rq 0x5008 (port + 1)).map (fun f => f.dset 0x5008 (port + 1) v)))
      (by rw [value]; exact congrArg (W.withFab _) (if_neg allowed)) rfl rfl
    refine ⟨t, next, wrote.mem, wrote.sec, wrote.ok ?_ ?_, ?_⟩
    · exact Fab.dget_dset_ne _ (dictKey_ne (by decide) (by decide) low)
    · exact Fab.dget_dset_ne _ (dictKey_ne (by decide) (by decide) low)
    · exact (wrote.dget (by decide) low).trans (Fab.dget_dset_same _ _ _ _)

/-- A key record that R481 allows, of either entry. -/
theorem exec_keyRecord {ch : Nat} {sas : List Sa} (may : Claims.mayWrite s rq i sub record = true) (clock : i ≠ 0x2100) (ews : i ≠ 0x9200)
    (lift : exec c s = onAll s (fun w => w.command rq i sub record))
    (writes : (Claims.narrowed s rq i sub).entryWrite i sub (beNat record) record = (Claims.narrowed s rq i sub).keyWrite ch record)
    (ok : keyRecordOk s.fab.sas (if ch = 16 then 2 ^ 32 - 1 else s.fab.dget 0xB140 (ch + 1)) ch record = true)
    (left : (if octet record 3 = 1 then otherSas s.fab.sas (saOf ch record) ++ [saOf ch record]
      else otherSas s.fab.sas (saOf ch record)) = sas) :
    ∃ t, exec c s = .next t ∧ t.mem = s.mem ∧ t.sec = s.sec ∧ t.fab.sas = sas ∧ Claims.WriteOk s t := by
  have effect : (Claims.narrowed s rq i sub).entryWrite i sub (beNat record) record =
      (rinayOk, (Claims.narrowed s rq i sub).map (fun f => { f with sas := sas })) := by
    rw [writes, ← left]
    exact if_neg (fun h => Bool.false_ne_true (((Bool.not_eq_true' _).mp h).symm.trans ok))
  obtain ⟨t, next, wrote⟩ := exec_of_mayWrite may clock ews lift effect rfl rfl
  exact ⟨t, next, wrote.mem, wrote.sec, (congrArg (·.sas) wrote.rest :), wrote.ok rfl rfl⟩

theorem exec_managementKey {key : BitVec 256} (may : Claims.mayWrite s rq 0xA010 1 (beBytes 32 key.toNat) = true) :
    ∃ t, exec (.managementKey rq key) s = .next t ∧ t.mem = s.mem ∧ t.sec = { s.sec with managementKey := some key.toNat } ∧
      t.fab.agent.replay = [] := by
  have value : beNat (beBytes 32 key.toNat) = key.toNat := by
    rw [beNat, beBytes, List.reverse_reverse, leNat_leBytes]
    exact Nat.mod_eq_of_lt key.isLt
  obtain ⟨t, next, wrote⟩ := exec_of_mayWrite (c := .managementKey rq key) may (by decide) (by decide) rfl
    (y := (Claims.narrowed s rq 0xA010 1).managementKeyWrite key.toNat) (by rw [value]; rfl) rfl rfl
  exact ⟨t, next, wrote.mem, wrote.sec, (congrArg (fun f => f.agent.replay) wrote.rest :)⟩

/-! ### Attestation -/

/-- A request for a report, of a partition or of the device (R489). -/
theorem exec_attestRequest (low : who < 17) (may : Claims.mayWrite s rq i sub record = true) (clock : i ≠ 0x2100) (ews : i ≠ 0x9200)
    (lift : exec c s = onAll s (fun w => w.command rq i sub record))
    (writes : (Claims.narrowed s rq i sub).entryWrite i sub (beNat record) record = (Claims.narrowed s rq i sub).attestRequest who record) :
    let addr := beNat ((record.drop 32).take 8)
    let size := 256 + 32 * (if who = 16 then 0 else (s.sec.log who).digests.length) + 29792
    (s.fab.dget 0xA202 (who + 1) = 1 → ∃ t, exec c s = .next t ∧ Claims.WriteRefused s t) ∧
    (s.fab.dget 0xA202 (who + 1) ≠ 1 → (∀ b ∈ (record.drop 40).take 8, b = 0) →
      (who ≠ 16 → s.fab.inHostWindow who addr size true = true) →
      ∃ t, exec c s = .next t ∧ t.mem = s.mem ∧ Claims.WriteOk s t ∧ t.fab.dget 0xA202 (who + 1) = 1 ∧
        t.sec = { s.sec with attest := t.sec.attest } ∧ t.sec.attest.find? who = some ⟨beNat (record.take 32), addr⟩) := by
  intro addr size
  refine ⟨fun signing => ?_, fun free zero window => ?_⟩
  · obtain ⟨t, next, bad, -⟩ := exec_refused may clock ews lift (st := rinayBusy) (writes.trans (if_pos signing)) (by decide)
    exact ⟨t, next, bad⟩
  · have good : ¬((!((record.drop 40).take 8).all (· == 0) || (who != 16 && !s.fab.inHostWindow who addr size true)) = true) := by
      have zero' : ((record.drop 40).take 8).all (· == 0) = true := List.all_eq_true.2 (fun b hb => beq_iff_eq.2 (zero b hb))
      rw [zero']
      by_cases device : who = 16
      · simp [device]
      · simp [window device]
    obtain ⟨t, next, wrote⟩ := exec_of_mayWrite may clock ews lift
      (writes.trans ((if_neg free).trans (if_neg good))) rfl rfl
    have sec : t.sec = { s.sec with attest := s.sec.attest.set who ⟨beNat (record.take 32), addr⟩ } := wrote.sec
    refine ⟨t, next, wrote.mem, wrote.ok ?_ ?_, ?_, by rw [sec], ?_⟩
    · exact Fab.dget_dset_ne _ (dictKey_ne (by decide) (by decide) (by omega))
    · exact Fab.dget_dset_ne _ (dictKey_ne (by decide) (by decide) (by omega))
    · exact (wrote.dget (by decide) (by omega)).trans (Fab.dget_dset_same _ _ _ _)
    · rw [sec]
      exact Tbl.find?_set_same _ _ _

/-- What was cleared of a table is not found. -/
theorem Tbl.find?_clear_same {α : Type} (x : Tbl α) (k : Nat) : (x.clear (· == k)).find? k = none := by
  induction x with
  | nil => rfl
  | cons e x ih =>
    obtain ⟨j, a⟩ := e
    by_cases same : j = k
    · simpa [Tbl.clear, same] using ih
    · simpa [Tbl.clear, same, Tbl.find?] using ih

theorem attestationSigned_claims (up : s.fab.phase = .running) :
    (s.sec.attest.find? who = none → exec (.attestationSigned who) s = .next s) ∧
    (∀ a, s.sec.attest.find? who = some a → who ≤ 16 → ∃ t, exec (.attestationSigned who) s = .next t ∧ t.mem = s.mem ∧
      t.sec.reports = s.sec.reports ++ [(who, a.address, (W.of s).report who a)] ∧ t.sec.attest.find? who = none ∧
      Claims.EntriesKept s t [(0xA202, who + 1)] ∧ t.fab.dget 0xA202 (who + 1) = 2) := by
  refine ⟨fun idle => ?_, fun a signing low => ?_⟩
  · have ran : attestSigned who (W.of s) = W.of s := by
      unfold attestSigned
      rw [show (W.of s).sec = s.sec from rfl, idle]
    refine (onAll_running (attestSigned who) up (by rw [ran]; rfl)).trans ?_
    rw [ran]
    rfl
  · have ran : attestSigned who (W.of s) = { W.of s with
        sec := { s.sec with
          reports := s.sec.reports ++ [(who, a.address, (W.of s).report who a)], attest := s.sec.attest.clear (· == who) }
        fab := s.fab.dset 0xA202 (who + 1) 2 } := by
      unfold attestSigned
      rw [show (W.of s).sec = s.sec from rfl, signing]
      dsimp only
      rw [if_neg (by omega)]
      rfl
    refine ⟨_, onAll_running (attestSigned who) up (by rw [ran]; rfl), ?_, ?_, ?_, fun j k hk away => ?_, ?_⟩
    all_goals rw [ran]
    · rfl
    · rfl
    · exact Tbl.find?_clear_same _ _
    · exact Fab.dget_dset_ne _ (dictKey_ne_of_notMem away (by simp) hk (by omega))
    · exact Fab.dget_dset_same _ _ _ _

/-! ### Fuses -/

theorem exec_securityVersionRaise (may : Claims.mayWriteNat s rq 0xA001 1 v = true) :
    (s.sec.fuses.versionMin < v ∧ v ≤ s.fab.dget 0xA000 3 ∧ v ≤ 64 → ∃ t, exec (.securityVersionRaise rq v) s = .next t ∧ t.mem = s.mem ∧
      t.sec = { s.sec with fuses := { s.sec.fuses with versionMin := v } } ∧ Claims.WriteOk s t) ∧
    (v ≤ s.sec.fuses.versionMin ∨ s.fab.dget 0xA000 3 < v → ∃ t, exec (.securityVersionRaise rq v) s = .next t ∧
      Claims.WriteRefused s t) := by
  have value := beNat_of_mayWriteNat may
  refine ⟨fun ⟨above, image, low⟩ => ?_, fun refused => ?_⟩
  · refine exec_sec (c := .securityVersionRaise rq v) may (by decide) (by decide) rfl ?_
    rw [value]
    refine if_neg ?_
    rw [show (Claims.narrowed s rq 0xA001 1).fab.dget 0xA000 3 = s.fab.dget 0xA000 3 from rfl,
      show (Claims.narrowed s rq 0xA001 1).sec = s.sec from rfl]
    omega
  · obtain ⟨t, next, bad, -⟩ := exec_refused (c := .securityVersionRaise rq v) (st := rinayRange) may (by decide) (by decide) rfl
      (by
        rw [value]
        refine if_pos ?_
        rw [show (Claims.narrowed s rq 0xA001 1).fab.dget 0xA000 3 = s.fab.dget 0xA000 3 from rfl,
          show (Claims.narrowed s rq 0xA001 1).sec = s.sec from rfl]
        omega) (by decide)
    exact ⟨t, next, bad⟩

/-- A slot is revoked once slot k is, if it was or is slot k (R492). -/
theorem Fuses.getLsbD_revoking (x : Fuses) {k j : Nat} (slot : k ≤ 3) (low : j < 4) :
    (x.revoking k).getLsbD j = (x.revoked.getLsbD j || decide (j = k)) := by
  have mask : ∀ k' < 4, ∀ j' < 4, (BitVec.ofNat 4 (2 ^ k')).getLsbD j' = decide (j' = k') := by decide
  rw [Fuses.revoking, BitVec.getLsbD_or, mask k (by omega) j low]

/-- Another fused slot stays when slot k is revoked (R492). -/
theorem Fuses.another_iff (x : Fuses) {k : Nat} (slot : k ≤ 3) :
    (List.range 4).any (fun j => x.fused j && !(x.revoking k).getLsbD j) = true ↔
      ∃ j, j < 4 ∧ j ≠ k ∧ x.keyHashes.get 0 j ≠ 0 ∧ x.revoked.getLsbD j = false := by
  rw [List.any_eq_true]
  constructor
  · rintro ⟨j, mem, stays⟩
    have low := List.mem_range.1 mem
    rw [x.getLsbD_revoking slot low] at stays
    simp only [Fuses.fused, Bool.and_eq_true, bne_iff_ne, Bool.not_eq_true', Bool.or_eq_false_iff, decide_eq_false_iff_not] at stays
    exact ⟨j, low, stays.2.2, stays.1, stays.2.1⟩
  · rintro ⟨j, low, other, fused, kept⟩
    refine ⟨j, List.mem_range.2 low, ?_⟩
    rw [x.getLsbD_revoking slot low, kept]
    simp [Fuses.fused, fused, other]

theorem exec_keyRevoke (may : Claims.mayWriteNat s rq 0xA001 2 v = true) :
    let other := ∃ j, j < 4 ∧ j ≠ v ∧ s.sec.fuses.keyHashes.get 0 j ≠ 0 ∧ s.sec.fuses.revoked.getLsbD j = false
    (other → ∃ t, exec (.keyRevoke rq v) s = .next t ∧ t.mem = s.mem ∧
      t.sec = { s.sec with fuses := { s.sec.fuses with revoked := s.sec.fuses.revoked ||| BitVec.ofNat 4 (2 ^ v) } } ∧
      Claims.WriteOk s t) ∧
    (¬other → ∃ t, exec (.keyRevoke rq v) s = .next t ∧ Claims.WriteRefused s t) := by
  intro other
  have value := beNat_of_mayWriteNat may
  obtain ⟨-, low⟩ := inRange_of_mayWriteNat (low := 0) (high := 3) may (by decide +kernel)
  refine ⟨fun stays => ?_, fun last => ?_⟩
  · refine exec_sec (c := .keyRevoke rq v) may (by decide) (by decide) rfl ?_
    rw [value]
    refine if_neg ?_
    rintro (high | gone)
    · omega
    · exact Bool.false_ne_true (((Bool.not_eq_true' _).mp gone).symm.trans ((Fuses.another_iff s.sec.fuses low).2 stays))
  · obtain ⟨t, next, bad, -⟩ := exec_refused (c := .keyRevoke rq v) (st := rinayRange) may (by decide) (by decide) rfl
      (by
        rw [value]
        refine if_pos (.inr ?_)
        exact (Bool.not_eq_true' _).mpr (Bool.eq_false_iff.2 (fun h => last ((Fuses.another_iff s.sec.fuses low).1 h)))) (by decide)
    exact ⟨t, next, bad⟩

theorem exec_debugDisable (may : Claims.mayWriteNat s rq 0xA001 3 v = true) :
    v = 1 ∧ ∃ t, exec (.debugDisable rq v) s = .next t ∧ t.mem = s.mem ∧
      t.sec = { s.sec with fuses := { s.sec.fuses with debugDisable := true } } ∧ Claims.WriteOk s t := by
  have value := beNat_of_mayWriteNat may
  obtain ⟨least, most⟩ := inRange_of_mayWriteNat (low := 1) (high := 1) may (by decide +kernel)
  have one : v = 1 := by omega
  refine ⟨one, exec_sec (c := .debugDisable rq v) may (by decide) (by decide) rfl ?_⟩
  rw [value]
  exact if_neg (fun h => h one)

/-! ### Key records by channel -/

/-- A partition's key record is one of 16 partitions. -/
theorem partition_of_keyRecord (may : Claims.mayWrite s rq 0xA110 (p + 1) record = true) : p < 16 := by
  simp only [Claims.mayWrite, Bool.and_eq_true] at may
  obtain ⟨d, access, -⟩ := fits_spec may.2
  obtain ⟨-, mem, holds, -, -⟩ := Fab.row_of_entryAccess access
  have row : ∀ d ∈ Dict.table, Nat.ble d.index 0xA110 && Nat.blt 0xA110 (d.index + d.indices) → d.sub + d.subs ≤ 17 := by decide +kernel
  simp only [Desc.holds, Bool.and_eq_true] at holds
  have bound := row d mem (Bool.and_eq_true_iff.2 holds.1.1)
  have below := Nat.blt_eq.mp holds.2
  omega

/-- A command that only a record of its action makes. -/
theorem onAll_of_guard {P : Prop} [Decidable P] (holds : P) (g : W → W) : onAll s (fun w => if P then g w else w) = onAll s g := by
  simp only [if_pos holds]

theorem partitionKeys_claims (may : Claims.mayWrite s rq 0xA110 (p + 1) record = true) :
    let action := octet record 3
    let ends := fun (i : Instr) (sas : List Sa) => ∃ t, exec i s = .next t ∧ t.mem = s.mem ∧ t.sec = s.sec ∧ t.fab.sas = sas ∧
      Claims.WriteOk s t
    let ok := keyRecordOk s.fab.sas (s.fab.dget 0xB140 (p + 1)) p record
    let rest := otherSas s.fab.sas (saOf p record)
    (action = 1 → ok = true → ends (.macsecKeyInstall rq p record) (rest ++ [saOf p record])) ∧
    (action = 2 → ok = true → ends (.macsecKeyDelete rq p record) rest) ∧
    (action = 1 → ok = false → ∃ t, exec (.macsecKeyInstall rq p record) s = .next t ∧ Claims.WriteRefused s t ∧
      t.fab.sas = s.fab.sas) := by
  have channel : p ≠ 16 := by have := partition_of_keyRecord may; omega
  have ports : (if p = 16 then 2 ^ 32 - 1 else s.fab.dget 0xB140 (p + 1)) = s.fab.dget 0xB140 (p + 1) := if_neg channel
  refine ⟨fun action ok => ?_, fun action ok => ?_, fun action bad => ?_⟩
  · exact exec_keyRecord (ch := p) may (by decide) (by decide) (onAll_of_guard action (fun w => w.command rq _ _ record)) rfl
      (by rw [ports]; exact ok) (if_pos action)
  · exact exec_keyRecord (ch := p) may (by decide) (by decide) (onAll_of_guard action (fun w => w.command rq _ _ record)) rfl
      (by rw [ports]; exact ok) (if_neg (by omega))
  · refine exec_refused (st := rinayRange) may (by decide) (by decide) (onAll_of_guard action (fun w => w.command rq _ _ record))
      (if_pos ?_) (by decide)
    exact (Bool.not_eq_true' _).mpr ((congrArg (keyRecordOk s.fab.sas · p record) ports).trans bad)

theorem operatorKeys_claims (may : Claims.mayWrite s rq 0xA120 1 record = true)
    (ok : keyRecordOk s.fab.sas (2 ^ 32 - 1) 16 record = true) :
    let action := octet record 3
    let ends := fun (i : Instr) (sas : List Sa) => ∃ t, exec i s = .next t ∧ t.mem = s.mem ∧ t.sec = s.sec ∧ t.fab.sas = sas ∧
      Claims.WriteOk s t
    let rest := otherSas s.fab.sas (saOf 16 record)
    (action = 1 → ends (.operatorMacsecKeyInstall rq record) (rest ++ [saOf 16 record])) ∧
    (action = 2 → ends (.operatorMacsecKeyDelete rq record) rest) := by
  refine ⟨fun action => ?_, fun action => ?_⟩
  · exact exec_keyRecord (ch := 16) may (by decide) (by decide) (onAll_of_guard action (fun w => w.command rq _ _ record)) rfl
      ok (if_pos action)
  · exact exec_keyRecord (ch := 16) may (by decide) (by decide) (onAll_of_guard action (fun w => w.command rq _ _ record)) rfl
      ok (if_neg (by omega))

/-- Settles O59: the commands one by one. -/
theorem isolationKeysAndFuses : Obligations.IsolationKeysAndFuses := by
  unfold Obligations.IsolationKeysAndFuses
  refine ⟨⟨fun s rq v may => exec_strictIsolationWrite may, fun s rq port v may => exec_macsecModeWrite may,
    fun s rq record => ⟨fun p may => partitionKeys_claims may, fun may ok => operatorKeys_claims may ok⟩,
    fun s rq key may => exec_managementKey may⟩, fun s who request record asks => ?_, fun s who up => attestationSigned_claims up,
    fun s rq v => ⟨fun may => exec_securityVersionRaise may, fun may => exec_keyRevoke may, fun may => exec_debugDisable may⟩⟩
  rcases asks with ⟨rq, rfl, low, may⟩ | ⟨rq, rfl, rfl, may⟩
  · exact exec_attestRequest (by omega) may (by decide) (by decide) rfl rfl
  · exact exec_attestRequest (by decide) may (by decide) (by decide) rfl rfl

end Sys2Proof.Machine
end

section
/-! PROOFS. Power states (O52): idle gating, P1, S1 and the way back to P0 (R459 to R461, R468). -/

namespace Sys2Proof.Machine

open Sys2Proof Sys2Proof.Safety

variable {s t : State} {rq : Requester} {c i : Nat}

/-! ### P1 -/

/-- What idle gating needs: it is enabled, the device is in P0 and everything is idle (R460). -/
theorem idleGating_claims (up : s.fab.phase = .running) :
    let gates := s.fab.dget 0x2040 0x40 = 1 ∧ s.fab.dget 0x2040 1 = 0 ∧ s.fab.allIdle = true
    (gates → ∃ t, exec .idleGatingEntry s = .next t ∧ DeviceOnly s t ∧ t.fab.dget 0x2040 1 = 1 ∧ Claims.EntriesKept s t [(0x2040, 1)]) ∧
    (¬gates → exec .idleGatingEntry s = .next s) := by
  refine ⟨fun gates => ?_, fun awake => ?_⟩
  · have ran : idleGating s.fab = s.fab.dset 0x2040 1 1 := if_pos ⟨up, gates⟩
    refine ⟨_, onFab_running idleGating up, ⟨rfl, rfl, rfl⟩, ?_, fun j k low away => ?_⟩ <;> rw [ran]
    · exact Fab.dget_dset_same _ _ _ _
    · exact Fab.dget_dset_ne _ (dictKey_ne_of_notMem away (by simp) low (by decide))
  · have ran : idleGating s.fab = s.fab := if_neg (fun h => awake h.2)
    exact (onFab_running idleGating up).trans (by rw [ran])

theorem wakeEvent_claims (up : s.fab.phase = .running) (w : Wake) :
    (s.fab.dget 0x2040 1 = 1 → ∃ t, exec (.wakeEvent w) s = .next t ∧ DeviceOnly s t ∧ t.fab.dget 0x2040 1 = 0 ∧
      Claims.EntriesKept s t [(0x2040, 1)]) ∧
    (s.fab.dget 0x2040 1 ≠ 1 → exec (.wakeEvent w) s = .next s) := by
  have ran := onFab_running (fun f => if f.dget 0x2040 1 = 1 then f.dset 0x2040 1 0 else f) up
  refine ⟨fun gated => ?_, fun awake => ?_⟩
  · refine ⟨_, ran, ⟨rfl, rfl, rfl⟩, ?_, fun j k low away => ?_⟩ <;> dsimp only <;> rw [if_pos gated]
    · exact Fab.dget_dset_same _ _ _ _
    · exact Fab.dget_dset_ne _ (dictKey_ne_of_notMem away (by simp) low (by decide))
  · exact ran.trans (by rw [if_neg awake])

/-! ### S1 and back to P0 -/

theorem W.landWrites_of_none {w : W} (quiet : w.fab.txns = []) : w.landWrites = w := by
  unfold W.landWrites
  rw [quiet]
  rfl

/-- Clusters are read from their table. -/
theorem Fab.cluster_of_clusters {f g : Fab} (same : f.clusters = g.clusters) (c : Nat) : f.cluster c = g.cluster c := by
  rw [Fab.cluster, same]
  rfl

theorem Wrote.cluster {st : Nat} {w : W} (h : Wrote s t (st, w)) (c : Nat) : t.fab.cluster c = w.fab.cluster c :=
  Fab.cluster_of_clusters (congrArg (·.clusters) h.rest :) c

/-- S1 leaves every cluster idle with nothing in it (R461). -/
theorem Fab.cluster_enterS1 (f : Fab) (c : Nat) :
    (f.enterS1.cluster c).phase = .idle ∧ (f.enterS1.cluster c).imem = [] ∧ (f.enterS1.cluster c).ops = [] := by
  have off : f.enterS1.cluster c = { (f.cluster c).reset with phase := .idle } :=
    Tbl.get_map f.clusters .idleReset (fun cl => { cl.reset with phase := .idle }) rfl c
  rw [off]
  exact ⟨rfl, rfl, rfl⟩

theorem exec_powerStateRequestS1 (may : Claims.mayWriteNat s rq 0x2040 2 2 = true) (awake : s.fab.dget 0x2040 1 ≠ 2)
    (quiet : s.fab.txns = []) :
    ∃ t, exec (.powerStateRequestS1 rq) s = .next t ∧ t.mem = s.mem ∧ t.sec = s.sec ∧ t.fab.dget 0x2040 1 = 2 ∧ t.fab.regionCtr = [] ∧
      t.fab.log = .empty ∧ t.fab.budget = State.reset.fab.budget ∧
      ∀ c, (t.fab.cluster c).phase = .idle ∧ (t.fab.cluster c).imem = [] ∧ (t.fab.cluster c).ops = [] := by
  have effect : (Claims.narrowed s rq 0x2040 2).entryWrite 0x2040 2 (beNat (valueBytes 0x2040 2 2)) (valueBytes 0x2040 2 2) =
      (rinayOk, (Claims.narrowed s rq 0x2040 2).map (fun f => f.enterS1)) := by
    have lands : (Claims.narrowed s rq 0x2040 2).landWrites = Claims.narrowed s rq 0x2040 2 := W.landWrites_of_none quiet
    rw [beNat_of_mayWriteNat may]
    refine congrArg (Prod.mk rinayOk) ?_
    exact (if_neg awake).trans (congrArg (W.map · (fun f => f.enterS1)) lands)
  obtain ⟨t, next, wrote⟩ := exec_of_mayWrite (c := .powerStateRequestS1 rq) may (by decide) (by decide) rfl effect rfl rfl
  refine ⟨t, next, wrote.mem, wrote.sec, (wrote.dget (by decide) (by decide)).trans (Fab.dget_dset_same _ _ _ _),
    (congrArg (·.regionCtr) wrote.rest :), (congrArg (·.log) wrote.rest :), (congrArg (·.budget) wrote.rest :), fun c => ?_⟩
  rw [wrote.cluster]
  exact Fab.cluster_enterS1 _ c

/-- Every cluster is under reset after a reset of all of them (R466). -/
theorem Fab.phase_resetClusters (f : Fab) (low : c < 800) : (f.resetClusters.cluster c).phase = .resetting := by
  have listed : f.resetClusters.cluster c = (f.cluster c).reset := by
    show Tbl.get _ _ c = _
    rw [Tbl.get, Fab.resetClusters, Tbl.find?_map_range, if_pos low]
    rfl
  rw [listed]
  rfl

/-- The clusters after S1 was left. -/
theorem Fab.cluster_relock (f : Fab) (c : Nat) : ((f.dset 0x2040 1 0).relock).cluster c = f.cluster c :=
  Fab.cluster_of_clusters rfl c

theorem W.dget_leaveS1 (w : W) (j k : Nat) : w.leaveS1.fab.dget j k = (w.fab.dset 0x2040 1 0).dget j k := by
  refine Fab.dget_of_dict (?_ : w.leaveS1.fab.dict = (w.fab.dset 0x2040 1 0).dict) j k
  unfold W.leaveS1
  rfl

/-- The zeroing of the on-chip memories leaves zero in every Well (R461). -/
theorem W.byte_zeroSram_well (w : W) (low : c < 800) (inside : i < 2 ^ 20) : w.zeroSram.byte (wellBase c + i) = 0 := by
  have zeroed : wellBase 0 ≤ wellBase c + i ∧ wellBase c + i < wellBase 0 + 800 * 0x100000 := by
    simp only [wellBase]
    omega
  have above : ¬(inkwellBase 0 ≤ wellBase c + i ∧ wellBase c + i < inkwellBase 0 + 8 * 0x20000000) := by
    simp only [wellBase, inkwellBase]
    omega
  exact (if_neg above).trans (if_pos zeroed)

theorem exec_powerStateRequestP0 (may : Claims.mayWriteNat s rq 0x2040 2 0 = true) (off : s.fab.dget 0x2040 1 = 2) :
    ∃ t, exec (.powerStateRequestP0 rq) s = .next t ∧ t.sec = s.sec ∧ t.fab.dget 0x2040 1 = 0 ∧ Claims.WriteOk s t ∧
      (∀ c, c < 800 → (t.fab.cluster c).phase = .resetting) ∧
      ∀ c i, c < 800 → i < 2 ^ 20 → Memory.read t.mem (wellBase c + i) = 0 := by
  have effect : (Claims.narrowed s rq 0x2040 2).entryWrite 0x2040 2 (beNat (valueBytes 0x2040 2 0)) (valueBytes 0x2040 2 0) =
      (rinayOk, (Claims.narrowed s rq 0x2040 2).leaveS1) := by
    rw [beNat_of_mayWriteNat may]
    exact congrArg (Prod.mk rinayOk) (if_pos off)
  obtain ⟨t, next, wrote⟩ := exec_of_mayWrite (c := .powerStateRequestP0 rq) may (by decide) (by decide) rfl effect rfl rfl
  have entries : ∀ j k, (Claims.narrowed s rq 0x2040 2).leaveS1.fab.dget j k = (s.fab.dset 0x2040 1 0).dget j k :=
    fun j k => (Claims.narrowed s rq 0x2040 2).dget_leaveS1 j k
  refine ⟨t, next, wrote.sec, ?_,
    wrote.ok ?_ ?_, fun c low => ?_, fun c i low inside => ?_⟩
  · rw [wrote.dget (by decide) (by decide), entries, Fab.dget_dset_same]
  · rw [entries, Fab.dget_dset_ne _ (by decide)]
  · rw [entries, Fab.dget_dset_ne _ (by decide)]
  · rw [wrote.cluster, W.leaveS1, W.map, Fab.cluster_relock]
    exact Fab.phase_resetClusters (Claims.narrowed s rq 0x2040 2).zeroSram.fab low
  · rw [wrote.mem, MemOp.read_applyAll]
    exact W.byte_zeroSram_well (Claims.narrowed s rq 0x2040 2) low inside

/-- Settles O52: idle gating, waking, and the two requests of a power state. -/
theorem powerStatesAreEnteredAndLeft : Obligations.PowerStatesAreEnteredAndLeft := by
  unfold Obligations.PowerStatesAreEnteredAndLeft
  intro s up
  obtain ⟨gates, stays⟩ := idleGating_claims up
  exact ⟨gates, stays, wakeEvent_claims up, fun rq may awake quiet => exec_powerStateRequestS1 may awake quiet,
    fun rq may off => exec_powerStateRequestP0 may off⟩

end Sys2Proof.Machine
end

section
/-! PROOFS. Warm resets (O55): what a warm reset leaves of the device, of memory and of the security block, once for the pin and the
command (R464, R467, R468), and the sample of EWS_N at its end. -/

namespace Sys2Proof.Machine

open Sys2Proof Sys2Proof.Safety

variable {s t : State} {rq : Requester} {f : Fab} {w : W} {c i a cause : Nat}

/-! ### The sample of EWS_N -/

theorem Fab.abortPartition_of_none (quiet : f.launches = []) (p origin : Nat) : f.abortPartition p origin = f := by
  unfold Fab.abortPartition
  rw [quiet]
  rfl

theorem Fab.noivosOf_of_none (quiet : f.noivos = []) (p : Nat) : f.noivosOf p = .none := by
  unfold Fab.noivosOf
  rw [quiet]
  rfl

/-- With no Noivos set up nothing is flushed (R443). -/
theorem Fab.flush_of_none (quiet : f.noivos = []) : f.flush = { f with ewsOutcome := (0, 0) } := by
  have running : partitions.filterMap (fun p => (f.noivosOf p).running) = [] :=
    List.filterMap_eq_nil_iff.2 (fun p _ => by rw [Fab.noivosOf_of_none quiet p]; rfl)
  have due : partitions.filterMap (fun p => (f.flushStep p).map (fun s => (p, s))) = [] := by
    refine List.filterMap_eq_nil_iff.2 (fun p _ => ?_)
    have nothing : f.flushStep p = none := by
      unfold Fab.flushStep
      split
      · rfl
      · rw [Fab.noivosOf_of_none quiet p]
        rfl
    rw [nothing]
    rfl
  unfold Fab.flush
  simp only [running, due]

theorem Fab.foldl_abortPartition_of_none (quiet : f.launches = []) (l : List Nat) (origin : Nat) :
    l.foldl (fun g p => g.abortPartition p origin) f = f := by
  induction l with
  | nil => rfl
  | cons p l ih => rw [List.foldl_cons, Fab.abortPartition_of_none quiet, ih]

/-- The device when EWS_N was asserted, before anything is aborted or flushed. -/
def Fab.ewsNoted (f : Fab) : Fab := (Fab.dset { f with ewsGraced := false } 0x9200 2 1).raise 0x000D 0x0605 none 0 0

theorem Fab.ewsNoted_phase (f : Fab) : f.ewsNoted.phase = f.phase := by
  rw [Fab.ewsNoted, Fab.raise_phase]
  rfl

theorem Fab.ewsNoted_clusters (f : Fab) : f.ewsNoted.clusters = f.clusters := by
  rw [Fab.ewsNoted, Fab.raise_clusters]
  rfl

theorem Fab.dget_ewsNoted (f : Fab) : f.ewsNoted.dget 0x9200 2 = 1 := by
  rw [Fab.ewsNoted, Fab.dget_raise _ _ _ _ _ _ _ _ (by decide) (by decide), Fab.dget_dset_same]

/-- The assertion of EWS_N with nothing to abort and nothing to flush (R443). -/
theorem ewsAsserted_of_quiet (rest : f.dget 0x9200 2 = 0) (launches : f.launches = []) (noivos : f.noivos = []) :
    ewsAsserted f = { f.ewsNoted with ewsOutcome := (0, 0) } := by
  have none' : f.ewsNoted.launches = [] := (Fab.raise_launches ..).trans launches
  have off : f.ewsNoted.noivos = [] := (Fab.raise_noivos ..).trans noivos
  unfold ewsAsserted
  rw [if_neg (fun h => h rest)]
  extract_lets f1
  rw [show f1 = f.ewsNoted from rfl, Fab.foldl_abortPartition_of_none none', Fab.flush_of_none off]

/-- With EWS_N high the sample changes nothing. -/
theorem Fab.ewsSampled_of_high (high : f.inPins.ewsHigh = true) : f.ewsSampled = f :=
  if_neg (fun h => by simp [high] at h)

theorem Fab.warmEnds_of_high (high : f.inPins.ewsHigh = true) : f.warmEnds = ({ f with phase := .running } : Fab).resetClusters :=
  Fab.ewsSampled_of_high high

/-- The sample with EWS_N low and nothing in flight. -/
theorem Fab.ewsSampled_of_quiet (launches : f.launches = []) (noivos : f.noivos = []) (rest : f.dget 0x9200 2 = 0)
    (up : f.phase = .running) (low : f.inPins.ewsHigh = false) :
    f.ewsSampled.phase = .running ∧ f.ewsSampled.dget 0x9200 2 = 1 ∧ f.ewsSampled.clusters = f.clusters := by
  have ran : f.ewsSampled = ewsAsserted (if f.dget 0x2040 1 = 1 then f.dset 0x2040 1 0 else f) :=
    if_pos ⟨up, (Bool.not_eq_true' _).mpr low⟩
  have noted : ∃ g : Fab, f.ewsSampled = { g.ewsNoted with ewsOutcome := (0, 0) } ∧ g.phase = f.phase ∧ g.clusters = f.clusters := by
    by_cases gated : f.dget 0x2040 1 = 1
    · rw [if_pos gated, ewsAsserted_of_quiet ((Fab.dget_dset_ne _ (by decide)).trans rest) launches noivos] at ran
      exact ⟨_, ran, rfl, rfl⟩
    · rw [if_neg gated, ewsAsserted_of_quiet rest launches noivos] at ran
      exact ⟨_, ran, rfl, rfl⟩
  obtain ⟨g, ran, phase, clusters⟩ := noted
  have up' := g.ewsNoted_phase.trans (phase.trans up)
  have state := g.dget_ewsNoted
  have clusters' := g.ewsNoted_clusters.trans clusters
  rw [ran]
  generalize g.ewsNoted = noted at up' state clusters'
  exact ⟨up', (Fab.dget_of_dict (f := noted) rfl _ _).trans state, clusters'⟩

/-- The end of a warm reset with EWS_N low and nothing in flight. -/
theorem Fab.warmEnds_of_low (low : f.inPins.ewsHigh = false) (launches : f.launches = []) (noivos : f.noivos = [])
    (rest : f.dget 0x9200 2 = 0) :
    f.warmEnds.phase = .running ∧ f.warmEnds.dget 0x9200 2 = 1 ∧ ∀ c, c < 800 → (f.warmEnds.cluster c).phase = .resetting := by
  have same : ∃ g : Fab, f.warmEnds = g.ewsSampled ∧ g.launches = [] ∧ g.noivos = [] ∧ g.dget 0x9200 2 = 0 ∧ g.phase = .running ∧
      g.inPins.ewsHigh = false ∧ ∀ c, c < 800 → (g.cluster c).phase = .resetting := by
    refine ⟨({ f with phase := .running } : Fab).resetClusters, rfl, launches, noivos, ?_, rfl, low, fun c small => ?_⟩
    · exact (Fab.dget_of_dict (f := f) rfl _ _).trans rest
    · exact Fab.phase_resetClusters _ small
  obtain ⟨g, ends, launches', noivos', rest', up', low', clusters'⟩ := same
  obtain ⟨up, state, clusters⟩ := Fab.ewsSampled_of_quiet launches' noivos' rest' up' low'
  rw [ends]
  exact ⟨up, state, fun c small => (congrArg Cluster.phase (Fab.cluster_of_clusters clusters c)).trans (clusters' c small)⟩

/-! ### What a warm reset leaves -/

theorem W.rekeyAll_out (w : W) : w.rekeyAll.out = w.out := by
  unfold W.rekeyAll
  refine foldl_keeps (fun x : W => x.out) (fun _ _ => ?_) _ w
  rfl
theorem W.rekeyAll_mem (w : W) : w.rekeyAll.mem = w.mem := by
  unfold W.rekeyAll
  refine foldl_keeps (fun x : W => x.mem) (fun _ _ => ?_) _ w
  rfl
theorem W.rekeyAll_waits (w : W) : w.rekeyAll.waits = w.waits := by
  unfold W.rekeyAll
  refine foldl_keeps (fun x : W => x.waits) (fun _ _ => ?_) _ w
  rfl
theorem W.rekeyAll_faults (w : W) : w.rekeyAll.faults = w.faults := by
  unfold W.rekeyAll
  refine foldl_keeps (fun x : W => x.faults) (fun _ _ => ?_) _ w
  rfl
/-- New keys touch the device in its list of units being cleared alone. -/
theorem W.rekeyAll_fab (w : W) : { w.rekeyAll.fab with clearing := [] } = { w.fab with clearing := [] } := by
  unfold W.rekeyAll
  refine foldl_keeps (fun x : W => { x.fab with clearing := [] }) (fun x p => ?_) _ w
  dsimp only
  split <;> rfl

/-- What both warm resets promise of the device. -/
structure Cleared (f g : Fab) (cause : Nat) : Prop where
  launches : g.launches = []
  steps : g.steps = []
  txns : g.txns = []
  sas : g.sas = []
  state : g.dget 0x2040 1 = 0
  cause : g.dget 0x2050 3 = cause + if f.dget 0x2050 1 = 1 then 2 else 0
  high : g.inPins.ewsHigh = f.inPins.ewsHigh
  rst : g.inPins.rstN = f.inPins.rstN

theorem Cleared.of_same {g h : Fab} (cleared : Cleared f g cause) (launches : h.launches = g.launches) (steps : h.steps = g.steps)
    (txns : h.txns = g.txns) (sas : h.sas = g.sas) (pins : h.inPins = g.inPins)
    (entries : ∀ i j, j < 256 → i ≠ 0x1101 → h.dget i j = g.dget i j) : Cleared f h cause where
  launches := launches.trans cleared.launches
  steps := steps.trans cleared.steps
  txns := txns.trans cleared.txns
  sas := sas.trans cleared.sas
  state := (entries _ _ (by decide) (by decide)).trans cleared.state
  cause := (entries _ _ (by decide) (by decide)).trans cleared.cause
  high := (congrArg InPins.ewsHigh pins).trans cleared.high
  rst := (congrArg InPins.rstN pins).trans cleared.rst

/-- The list of units being cleared is none of it. -/
theorem Cleared.of_clearing {g h : Fab} (cleared : Cleared f g cause) (same : { h with clearing := [] } = { g with clearing := [] }) :
    Cleared f h cause :=
  cleared.of_same (congrArg (·.launches) same :) (congrArg (·.steps) same :) (congrArg (·.txns) same :) (congrArg (·.sas) same :)
    (congrArg (·.inPins) same :) (fun _ _ _ _ => Fab.dget_of_dict (congrArg (·.dict) same :) _ _)

/-- A warm reset leaves the pins, of which the link follows the cascade (R380). -/
theorem Fab.inPins_warm (f : Fab) (keep : Bool) : ∃ up, (f.warm keep).inPins = { f.inPins with linkUp := up } := ⟨_, rfl⟩

/-- The device after the reset of its entries, its work and its clusters. -/
theorem Fab.warm_cleared {n : Nat} (f g : Fab) (keep : Bool) (pins : g.inPins = f.inPins)
    (code : n = cause + if f.dget 0x2050 1 = 1 then 2 else 0) : Cleared f (((g.warm keep).dset 0x2050 3 n).dset 0x2040 1 0) cause where
  launches := rfl
  steps := rfl
  txns := rfl
  sas := rfl
  state := Fab.dget_dset_same _ _ _ _
  cause := (Fab.dget_dset_ne _ (by decide)).trans ((Fab.dget_dset_same _ _ _ _).trans code)
  high := by
    obtain ⟨up, kept⟩ := g.inPins_warm keep
    exact (congrArg InPins.ewsHigh kept).trans (congrArg InPins.ewsHigh pins : g.inPins.ewsHigh = _)
  rst := by
    obtain ⟨up, kept⟩ := g.inPins_warm keep
    exact (congrArg InPins.rstN kept).trans (congrArg InPins.rstN pins : g.inPins.rstN = _)

/-- A warm reset with retention (0x2050:01). -/
theorem W.warmReset_of_keep (keep : w.fab.dget 0x2050 1 = 1) (cause : Nat) : w.warmReset cause = { w.zeroSram with
    fab := ((w.zeroSram.fab.warm true).dset 0x2050 3 (cause + 2)).dset 0x2040 1 0, sec := { w.sec with logs := [], attest := [] } } := by
  unfold W.warmReset
  simp only [keep, beq_self_eq_true, if_true]
  rfl

/-- A warm reset without retention zeroes LPDDR5X and makes new keys. -/
theorem W.warmReset_of_lose (lose : w.fab.dget 0x2050 1 ≠ 1) (cause : Nat) : w.warmReset cause =
    W.rekeyAll { w.zeroSram.zero (lpddrBase 0) (8 * 2 ^ 39) with
      fab := (((w.zeroSram.zero (lpddrBase 0) (8 * 2 ^ 39)).fab.warm false).dset 0x2050 3 cause).dset 0x2040 1 0,
      sec := { w.sec with logs := [], attest := [] } } := by
  unfold W.warmReset
  simp only [beq_eq_false_iff_ne.2 lose, Bool.false_eq_true, if_false, Nat.add_zero]
  rfl

theorem W.warmReset_cleared (w : W) (cause : Nat) : Cleared w.fab (w.warmReset cause).fab cause := by
  by_cases keep : w.fab.dget 0x2050 1 = 1
  · rw [W.warmReset_of_keep keep]
    exact Fab.warm_cleared w.fab w.zeroSram.fab true rfl (by rw [if_pos keep])
  · rw [W.warmReset_of_lose keep]
    exact (Fab.warm_cleared w.fab (w.zeroSram.zero (lpddrBase 0) (8 * 2 ^ 39)).fab false rfl (by rw [if_neg keep, Nat.add_zero])).of_clearing
      (W.rekeyAll_fab _)

/-! ### Memory and the security block -/

theorem W.byte_zero (w : W) (a n b : Nat) : (w.zero a n).byte b = if a ≤ b ∧ b < a + n then 0 else w.byte b := rfl

theorem W.byte_rekeyAll (w : W) (a : Nat) : w.rekeyAll.byte a = w.byte a := by
  rw [W.byte, W.rekeyAll_mem, W.rekeyAll_out]
  rfl

theorem W.byte_zeroSram_lpddr (w : W) (high : lpddrBase 0 ≤ a) : w.zeroSram.byte a = w.byte a := by
  have away : ¬(inkwellBase 0 ≤ a ∧ a < inkwellBase 0 + 8 * 0x20000000) ∧ ¬(wellBase 0 ≤ a ∧ a < wellBase 0 + 800 * 0x100000) := by
    simp only [wellBase, inkwellBase, lpddrBase] at high ⊢
    omega
  rw [W.zeroSram, W.byte_map, W.byte_zero, if_neg away.1, W.byte_zero, if_neg away.2]

/-- What both warm resets promise of memory: zero Wells, and LPDDR5X kept or zero. -/
structure Wiped (w v : W) : Prop where
  wells : ∀ c i, c < 800 → i < 2 ^ 20 → v.byte (wellBase c + i) = 0
  kept : w.fab.dget 0x2050 1 = 1 → ∀ a, lpddrBase 0 ≤ a → v.byte a = w.byte a
  lost : w.fab.dget 0x2050 1 ≠ 1 → ∀ a, lpddrBase 0 ≤ a → a < lpddrBase 0 + 8 * 2 ^ 39 → v.byte a = 0
  keys : w.fab.dget 0x2050 1 = 1 → v.sec.keys = w.sec.keys
  fuses : v.sec.fuses = w.sec.fuses
  clean : v.faults = w.faults
  goes : v.waits = w.waits
  base : v.mem = w.mem

theorem W.warmReset_wiped (w : W) (cause : Nat) : Wiped w (w.warmReset cause) := by
  by_cases keep : w.fab.dget 0x2050 1 = 1
  · rw [W.warmReset_of_keep keep]
    exact { wells := fun c i low inside => w.byte_zeroSram_well low inside, kept := fun _ a high => w.byte_zeroSram_lpddr high,
            lost := fun lose => absurd keep lose, keys := fun _ => rfl, fuses := rfl, clean := rfl, goes := rfl, base := rfl }
  · rw [W.warmReset_of_lose keep]
    refine { wells := fun c i low inside => ?_, kept := fun held => absurd held keep, lost := fun _ a high below => ?_,
             keys := fun held => absurd held keep, fuses := W.rekeyAll_fuses _, clean := W.rekeyAll_faults _, goes := W.rekeyAll_waits _,
             base := W.rekeyAll_mem _ }
    · have under : ¬(lpddrBase 0 ≤ wellBase c + i ∧ wellBase c + i < lpddrBase 0 + 8 * 2 ^ 39) := by
        simp only [wellBase, lpddrBase]
        omega
      rw [W.byte_rekeyAll]
      exact (if_neg under).trans (w.byte_zeroSram_well low inside)
    · rw [W.byte_rekeyAll]
      exact if_pos ⟨high, below⟩

/-! ### The two resets and the release -/

/-- The promises of O55 from those of the work that a reset does. -/
theorem warm_promises {v : W} (wiped : Wiped w v) (cleared : Cleared w.fab t.fab cause) (start : ∀ a, w.byte a = Memory.read s.mem a)
    (sec : w.sec = s.sec) (mode : w.fab.dget 0x2050 1 = s.fab.dget 0x2050 1) (mem : ∀ a, Memory.read t.mem a = v.byte a)
    (after : t.sec = v.sec) :
    (t.fab.launches = [] ∧ t.fab.steps = [] ∧ t.fab.txns = [] ∧ t.fab.sas = [] ∧
      t.sec.fuses = s.sec.fuses ∧ t.fab.dget 0x2040 1 = 0 ∧
      (∀ c i, c < 800 → i < 2 ^ 20 → Memory.read t.mem (wellBase c + i) = 0) ∧
      (s.fab.dget 0x2050 1 = 1 → t.sec.keys = s.sec.keys ∧ ∀ a, lpddrBase 0 ≤ a → Memory.read t.mem a = Memory.read s.mem a) ∧
      (¬s.fab.dget 0x2050 1 = 1 → ∀ a, lpddrBase 0 ≤ a → a < lpddrBase 0 + 8 * 2 ^ 39 → Memory.read t.mem a = 0)) ∧
    t.fab.dget 0x2050 3 = cause + if s.fab.dget 0x2050 1 = 1 then 2 else 0 := by
  rw [← mode]
  refine ⟨⟨cleared.launches, cleared.steps, cleared.txns, cleared.sas, ?_, cleared.state, fun c i low inside => ?_,
    fun keep => ⟨?_, fun a high => ?_⟩, fun lose a high below => ?_⟩, cleared.cause⟩
  · rw [after, wiped.fuses, sec]
  · rw [mem, wiped.wells c i low inside]
  · rw [after, wiped.keys keep, sec]
  · rw [mem, wiped.kept keep a high, start]
  · rw [mem, wiped.lost lose a high below]

/-- Work of any phase that met no bad line. -/
theorem onAny_of_clean {k : W → W} {x : W} (ran : k (W.of s) = x) (clean : x.faults = []) :
    onAny s k = .next { s with mem := MemOp.applyAll s.mem x.out, fab := x.fab, sec := x.sec } := by
  unfold onAny
  rw [ran, settled_of_faults clean]

/-- WARM_RESET_PIN of a running device holds it in reset (R464). -/
theorem exec_warmResetPin (up : s.fab.phase = .running) :
    let w := (W.of s).map (fun f => { f with inPins := { f.inPins with rstN := false } })
    ∃ t, exec .warmResetPin s = .next t ∧ t.fab.phase = .warmHeld ∧ t.sec = (w.warmReset 1).sec ∧ Cleared w.fab t.fab 1 ∧
      ∀ a, Memory.read t.mem a = (w.warmReset 1).byte a := by
  intro w
  have wiped := w.warmReset_wiped 1
  have ran : warmResetPin (W.of s) = (w.warmReset 1).map (fun f => { f with phase := .warmHeld }) := by
    unfold warmResetPin
    rw [show (W.of s).fab.phase = .running from up]
  refine ⟨_, onAny_of_clean ran wiped.clean, rfl, rfl, ?_, fun a => ?_⟩
  · exact (w.warmReset_cleared 1).of_same rfl rfl rfl rfl rfl (fun _ _ _ _ => rfl)
  · exact (MemOp.read_applyAll _ _ _).trans (congrArg (MemOp.read · _ a) wiped.base.symm)

/-- WARM_RESET of a running device does the whole reset (R464). -/
theorem exec_warmReset (may : Claims.mayWriteNat s rq 0x2050 2 1 = true) (high : s.fab.inPins.ewsHigh = true) :
    let w := Claims.narrowed s rq 0x2050 2
    ∃ t, exec (.warmReset rq) s = .next t ∧ t.fab.phase = .running ∧ t.sec = (w.warmReset 2).sec ∧ Cleared w.fab t.fab 2 ∧
      Claims.allResetting t ∧ ∀ a, Memory.read t.mem a = (w.warmReset 2).byte a := by
  intro w
  have wiped := w.warmReset_wiped 2
  have cleared := w.warmReset_cleared 2
  have ends : (w.warmReset 2).fab.warmEnds = ({ (w.warmReset 2).fab with phase := .running } : Fab).resetClusters :=
    Fab.warmEnds_of_high (cleared.high.trans high)
  have effect : w.entryWrite 0x2050 2 (beNat (valueBytes 0x2050 2 1)) (valueBytes 0x2050 2 1) =
      (rinayOk, (w.warmReset 2).map (fun f => ({ f with phase := .running } : Fab).resetClusters)) := by
    rw [beNat_of_mayWriteNat may]
    exact congrArg (fun f => (rinayOk, { w.warmReset 2 with fab := f })) ends
  obtain ⟨t, next, wrote⟩ := exec_of_mayWrite (c := .warmReset rq) may (by decide) (by decide) rfl effect wiped.goes wiped.clean
  refine ⟨t, next, (congrArg (·.phase) wrote.rest :), wrote.sec, ?_, fun c low => ?_, fun a => ?_⟩
  · exact cleared.of_same (congrArg (·.launches) wrote.rest :) (congrArg (·.steps) wrote.rest :) (congrArg (·.txns) wrote.rest :)
      (congrArg (·.sas) wrote.rest :) (congrArg (·.inPins) wrote.rest :) (fun i j low away => wrote.dget away low)
  · rw [wrote.cluster]
    exact Fab.phase_resetClusters _ low
  · rw [wrote.mem, MemOp.read_applyAll]
    exact congrArg (MemOp.read · _ a) wiped.base.symm

/-- RST_N_RELEASE of a device that is held in reset (R464). -/
theorem rstRelease_of_held (held : s.fab.phase = .warmHeld) :
    rstRelease (W.of s) = { W.of s with fab := ({ s.fab with inPins := { s.fab.inPins with rstN := true } } : Fab).warmEnds } := by
  unfold rstRelease
  rw [show (W.of s).fab.phase = .warmHeld from held]
  rfl

/-- Settles O55: the pin, the command, and the release with EWS_N low and high. -/
theorem warmResetsClearTheDevice : Obligations.WarmResetsClearTheDevice := by
  unfold Obligations.WarmResetsClearTheDevice
  intro s keep cleared
  refine ⟨fun off => ?_, fun up => ?_, fun rq may high => ?_, fun held low launches noivos rest => ?_, fun held high => ?_⟩
  · have ran : warmResetPin (W.of s) = W.of s := by
      unfold warmResetPin
      rw [show (W.of s).fab.phase = .off from off]
    exact onAny_of_clean ran rfl
  · obtain ⟨t, next, phase, sec, clear, mem⟩ := exec_warmResetPin up
    obtain ⟨all, reason⟩ := warm_promises (W.warmReset_wiped _ 1) clear (fun _ => rfl) rfl rfl mem sec
    refine ⟨t, next, phase, clear.rst, all, reason.trans ?_⟩
    split <;> rfl
  · obtain ⟨t, next, phase, sec, clear, clusters, mem⟩ := exec_warmReset may high
    obtain ⟨all, reason⟩ := warm_promises (W.warmReset_wiped _ 2) clear (fun _ => rfl) rfl rfl mem sec
    refine ⟨t, next, phase, all, clusters, reason.trans ?_⟩
    split <;> rfl
  · obtain ⟨phase, state, clusters⟩ := Fab.warmEnds_of_low (f := { s.fab with inPins := { s.fab.inPins with rstN := true } })
      low launches noivos rest
    exact ⟨_, onAny_of_clean (rstRelease_of_held held) rfl, phase, clusters, state⟩
  · have ends := Fab.warmEnds_of_high (f := { s.fab with inPins := { s.fab.inPins with rstN := true } }) high
    have ran := (rstRelease_of_held held).trans (congrArg (fun f => { W.of s with fab := f }) ends)
    exact ⟨_, onAny_of_clean ran rfl, rfl, rfl, rfl, rfl, fun c low => Fab.phase_resetClusters _ low, rfl⟩

end Sys2Proof.Machine
end

section
/-! PROOFS. The start of a partition whose Noivos area table has an uncorrectable line (O58): the memory context of the partition ends
(R206), and the abort of a launch counts what it discards for a partition number that is not below 16. -/

namespace Sys2Proof.Machine

open Sys2Proof

/-- What the device is after a command that need not wait. -/
theorem onAll_fab {s t : State} (f : W → W) (up : s.fab.phase = .running) (goes : (f (W.of s)).settled.waits = false)
    (h : onAll s f = .next t) : t.fab = (f (W.of s)).settled.fab := by
  rw [onAll_running f up goes] at h
  injection h with h
  exact h ▸ rfl

/-- The firmware writes Partition command. -/
def startRq : Requester := ⟨.internal, 0, 7, 0, .none⟩

/-- Partition 0 is stopped and owns compute die 1 and the first units of Inkwell 0, where its area table stands on a bad line; its launch
runs on a cluster of compute die 0, whose owner entry makes the count of discarded segments the state of partition 0 (0xB001:01). -/
def startingState : State :=
  { State.reset with fab := { discardingFab [discardsTo 0xB001 1, (dictKey 0xB001 1, 1), (dictKey 0xB100 2, 0),
        (dictKey 0xB110 1, 65536 * 4), (dictKey 0x9100 1, 0x100000000)] with
      badLines := [0x100000000 / 64] } }

theorem startingState_may :
    Claims.mayWriteNat startingState startRq 0xB002 1 1 = true ∧ startingState.fab.dget 0xB001 1 ≠ 2 ∧
      startingState.fab.startRefusal 0 = 0 := by decide +kernel

theorem startingState_unhindered : Claims.unhindered (((Claims.narrowed startingState startRq 0xB002 1).startPartition 0).2) := by
  unfold Claims.unhindered
  decide +kernel

/-- The start makes the partition running (2), and the segment discarded counts in its state. -/
theorem partitionStart_startingState :
    ((W.of startingState).commandNat startRq 0xB002 1 1).settled.waits = false ∧
      ((W.of startingState).commandNat startRq 0xB002 1 1).settled.fab.dget 0xB001 1 = 3 := by decide +kernel

/-- Refutes O58 in its clause on PARTITION_START of a partition that R473 does not refuse: at `startingState` the state of the partition
(0xB001:01) reads 3. -/
theorem not_partitionsAreMappedStartedAndStopped : ¬ Obligations.PartitionsAreMappedStartedAndStopped := by
  unfold Obligations.PartitionsAreMappedStartedAndStopped
  rintro ⟨-, starts, -⟩
  obtain ⟨may, stopped, allowed⟩ := startingState_may
  obtain ⟨t, ht, -, -, runs, -⟩ := (starts startingState startRq 0 may stopped).1 allowed startingState_unhindered
  obtain ⟨goes, counted⟩ := partitionStart_startingState
  rw [onAll_fab (fun w => w.commandNat startRq 0xB002 1 1) rfl goes ht, counted] at runs
  exact absurd runs (by decide)

end Sys2Proof.Machine
end

section
/-! PROOFS. Ports, lanes, laser banks and base links (O42): each event by what it writes of the port's entries, and the record that it
raises (R356 to R363, R32, R425). -/

namespace Sys2Proof.Machine

open Sys2Proof Sys2Proof.Safety

variable {s t : State} {f g : Fab} {port n i j : Nat}

/-- What a command of the device does. -/
theorem onFab_ends {k : Fab → Fab} (up : s.fab.phase = .running) (ran : k s.fab = g) :
    ∃ t, onFab s k = .next t ∧ DeviceOnly s t ∧ t.fab = g :=
  ⟨_, onFab_running k up, ⟨rfl, rfl, rfl⟩, ran⟩

theorem onFab_stays {k : Fab → Fab} (up : s.fab.phase = .running) (ran : k s.fab = s.fab) : onFab s k = .next s :=
  (onFab_running k up).trans (by rw [ran])

/-! ### Records and bits -/

/-- A command whose one record is raised on a device with the log as it was. -/
theorem logged_of_raise {source code a b : Nat} {part : Option Nat} (log : g.log = s.fab.log)
    (mask : g.dget 0x9001 4 = s.fab.dget 0x9001 4) (after : t.fab.log = (g.raise source code part a b).log) :
    Claims.Logged s t source code part a b := by
  intro room wanted
  rw [after, ← log]
  exact Fab.log_raise g source code part a b (by rw [log]; exact room) (by rw [mask]; exact wanted)

/-- Setting or clearing the bits of a set of lanes. -/
theorem bit_foldl_setBit (lanes i : Nat) (up : Bool) (l : List Nat) (v : Nat) :
    bit (l.foldl (fun v i => if bit lanes i then setBit v i up else v) v) i = if i ∈ l ∧ bit lanes i = true then up else bit v i := by
  induction l generalizing v with
  | nil => simp
  | cons k l ih =>
    rw [List.foldl_cons, ih]
    by_cases lane : bit lanes k = true
    · rw [if_pos lane, bit_setBit]
      by_cases same : i = k
      · simp [same, lane]
      · simp [same]
    · rw [if_neg lane]
      by_cases same : i = k
      · subst same
        simp [lane]
      · simp [same]

/-- A bit of a field of a number. -/
theorem bit_bitsOf {v : Nat} (low : i < 8) : bit (bitsOf v 15 8) i = bit v (8 + i) := by
  rw [bit_eq_testBit, bit_eq_testBit, testBit_bitsOf]
  simp [low]

/-! ### A port's entries -/

theorem Fab.dget_showCascade_of_index (f : Fab) (up : Bool) (index : i ≠ 0x5050) (hj : j < 256) :
    (f.showCascade port up).dget i j = f.dget i j := by
  unfold Fab.showCascade
  split
  · exact Fab.dget_dset_ne _ (dictKey_ne index hj (by decide))
  · rfl

/-- A port set to a state keeps every entry but its own state and the cascade's. -/
theorem Fab.dget_setPort_of_index (f : Fab) (state lanes : Nat) (low : port < 32) (state' : i ≠ 0x5007) (index : i ≠ 0x5050)
    (hj : j < 256) : (f.setPort port state lanes).dget i j = f.dget i j :=
  (Fab.dget_showCascade_of_index _ _ index hj).trans (Fab.dget_dset_ne _ (dictKey_ne state' hj (by omega)))

theorem Fab.portState_setPort (f : Fab) (state lanes : Nat) (low : port < 32) : (f.setPort port state lanes).portState port = state :=
  (Fab.dget_showCascade_of_index _ _ (by decide) (by omega)).trans (Fab.dget_dset_same _ _ _ _)

theorem Fab.lanesOf_setPort (f : Fab) (port state lanes : Nat) : (f.setPort port state lanes).lanesOf port = lanes :=
  Tbl.get_set_same _ _ _ _

theorem Fab.log_setPort (f : Fab) (port state lanes : Nat) : (f.setPort port state lanes).log = f.log := by
  unfold Fab.setPort Fab.showCascade
  dsimp only
  split <;> rfl

/-- The lanes of an engine shown up or not. -/
theorem Fab.bit_showLanes (f : Fab) (lanes : Nat) (up : Bool) (low : i < 8) (lane : bit lanes i = true) :
    bit ((f.showLanes n lanes up).dget 0x5002 (n + 1)) i = up := by
  rw [Fab.showLanes, Fab.dget_dset_same, bit_foldl_setBit, if_pos ⟨List.mem_range.2 low, lane⟩]

theorem Fab.dget_showLanes_of_index (f : Fab) (lanes : Nat) (up : Bool) (low : n < 8) (index : i ≠ 0x5002) (hj : j < 256) :
    (f.showLanes n lanes up).dget i j = f.dget i j :=
  Fab.dget_dset_ne _ (dictKey_ne index hj (by omega))

/-- Sending the image only sends. -/
theorem Fab.sendImage_eq (f : Fab) (port : Nat) : ∃ out, f.sendImage port = { f with netOut := out } := by
  unfold Fab.sendImage
  split
  · exact ⟨_, rfl⟩
  · exact ⟨_, rfl⟩

/-- What a port does that comes up: its state, its lanes, and the lanes shown up. -/
structure CameUp (port use : Nat) (g : Fab) : Prop where
  state : g.portState port = 2
  lanes : g.lanesOf port = use
  shown : ∀ i, i < 8 → bit use i = true → bit (g.dget 0x5002 (port / 4 + 1)) i = true

theorem Fab.cameUp (f : Fab) (lanes : Nat) (low : port < 32) : CameUp port lanes ((f.setPort port 2 lanes).showLanes (port / 4) lanes true) where
  state := (Fab.dget_showLanes_of_index _ _ _ (by omega) (by decide) (by omega)).trans (Fab.portState_setPort f 2 lanes low)
  lanes := Fab.lanesOf_setPort f port 2 lanes
  shown := fun _ small lane => Fab.bit_showLanes _ _ _ small lane

/-- Nothing of a port changes with what only sends, or raises a record. -/
theorem CameUp.of_same {lanes : Nat} (up : CameUp port lanes f) (lanesKept : g.portLanes = f.portLanes)
    (entries : ∀ i j, i ≠ 0x9030 → j < 256 → g.dget i j = f.dget i j) (low : port < 32) : CameUp port lanes g where
  state := (entries _ _ (by decide) (by omega)).trans up.state
  lanes := (congrArg (Tbl.get · 0 port) lanesKept).trans up.lanes
  shown := fun i small lane => by rw [entries _ _ (by decide) (by omega)]; exact up.shown i small lane

theorem CameUp.raise {use : Nat} (up : CameUp port use f) (low : port < 32) (source code : Nat) (part : Option Nat) (a b : Nat) :
    CameUp port use (f.raise source code part a b) :=
  up.of_same (Fab.raise_portLanes ..) (fun _ _ paths small => Fab.dget_raise _ _ _ _ _ _ _ _ paths small) low

theorem Fab.log_sent (f : Fab) (out : List NetOut) : Fab.log { f with netOut := out } = f.log := rfl

theorem CameUp.sent {use : Nat} (up : CameUp port use f) (out : List NetOut) : CameUp port use { f with netOut := out } :=
  ⟨up.state, up.lanes, up.shown⟩

/-- What a port does that goes down. -/
structure WentDown (port use left : Nat) (g : Fab) : Prop where
  state : g.portState port = 0
  lanes : g.lanesOf port = left
  shown : ∀ i, i < 8 → bit use i = true → bit (g.dget 0x5002 (port / 4 + 1)) i = false

theorem Fab.wentDown (f : Fab) (left : Nat) (low : port < 32) : WentDown port (f.lanesOf port) left (f.dropPort port 0 left) where
  state := Fab.portState_setPort _ 0 left low
  lanes := Fab.lanesOf_setPort _ port 0 left
  shown := fun _ small lane => by
    rw [Fab.dropPort, Fab.dget_setPort_of_index _ _ _ low (by decide) (by decide) (by omega)]
    exact Fab.bit_showLanes _ _ _ small lane

theorem WentDown.raise {use left : Nat} (down : WentDown port use left f) (low : port < 32) (source code : Nat) (part : Option Nat)
    (a b : Nat) : WentDown port use left (f.raise source code part a b) where
  state := (Fab.dget_raise f _ _ _ _ _ 0x5007 (port + 1) (by decide) (by omega)).trans down.state
  lanes := (congrArg (Tbl.get · 0 port) (Fab.raise_portLanes ..)).trans down.lanes
  shown := fun i small lane => by rw [Fab.dget_raise _ _ _ _ _ _ _ _ (by decide) (by omega)]; exact down.shown i small lane

/-! ### Flows that move to another port -/

theorem Fab.qpResend_eq (f : Fab) (p i : Nat) : ∃ out, f.qpResend p i = { f with netOut := out } := by
  have sends : ∀ (l : List RdmaOut) (f : Fab), ∃ out, l.foldl (fun g r => g.rdmaPacket p i r) f = { f with netOut := out } := by
    intro l
    induction l with
    | nil => exact fun f => ⟨_, rfl⟩
    | cons r l ih => exact fun f => (ih (f.rdmaPacket p i r)).imp (fun _ h => h)
  exact sends _ f

/-- What sending again keeps of the ports. -/
structure PortsKept (f g : Fab) : Prop where
  lanes : g.portLanes = f.portLanes
  entries : ∀ i j, i ≠ 0x5021 → i ≠ 0x9030 → j < 256 → g.dget i j = f.dget i j

theorem PortsKept.trans {h : Fab} (first : PortsKept f g) (second : PortsKept g h) : PortsKept f h :=
  ⟨second.lanes.trans first.lanes, fun i j flows paths low => (second.entries i j flows paths low).trans (first.entries i j flows paths low)⟩

theorem PortsKept.of_netOut {out : List NetOut} : PortsKept f { f with netOut := out } := ⟨rfl, fun _ _ _ _ _ => rfl⟩

/-- Entries that raising a record and one count leave. -/
theorem PortsKept.of_raise {source code a b : Nat} {part : Option Nat} (count : Nat) :
    PortsKept f ((f.dadd 0x5021 1 count).raise source code part a b) where
  lanes := Fab.raise_portLanes ..
  entries := fun i j flows paths low => (Fab.dget_raise _ _ _ _ _ _ _ _ paths low).trans
    (Fab.dget_dadd_ne _ (dictKey_ne flows low (by decide)))

/-- Sending only sends. -/
theorem Fab.foldl_emit {α : Type} (o : α → NetOut) (l : List α) (f : Fab) :
    ∃ out, l.foldl (fun g u => g.emit (o u)) f = { f with netOut := out } := by
  induction l generalizing f with
  | nil => exact ⟨_, rfl⟩
  | cons u l ih => exact (ih (f.emit (o u))).imp (fun _ h => h)

theorem Fab.flowResend_kept (f : Fab) (k : FlowKey) : PortsKept f (f.flowResend k) := by
  unfold Fab.flowResend
  extract_lets x
  split
  · next f1 _ m _ _ =>
    obtain ⟨out, sent⟩ := Fab.foldl_emit (fun u : FlowMsg => .kolas (f.flowDress k u.channel) k 1 u.channel u.psn x.expect false true u.bytes)
      x.unacked f
    rw [show f1 = { f with netOut := out } from sent]
    exact PortsKept.of_netOut.trans (PortsKept.of_raise _)
  · exact PortsKept.of_netOut

/-- A fold of work that keeps the ports keeps them. -/
theorem PortsKept.foldl {α : Type} {step : Fab → α → Fab} (keeps : ∀ g a, PortsKept g (step g a)) (l : List α) (f : Fab) :
    PortsKept f (l.foldl step f) := by
  induction l generalizing f with
  | nil => exact PortsKept.of_netOut
  | cons a l ih => exact (keeps f a).trans (ih _)

theorem Fab.moveFlows_kept (before f : Fab) (port : Nat) : PortsKept f (before.moveFlows port f) := by
  unfold Fab.moveFlows
  split
  · exact PortsKept.of_netOut
  · refine (PortsKept.foldl (fun g (x : Flow) => Fab.flowResend_kept g x.key) _ f).trans (PortsKept.foldl (fun g (q : Qp) => ?_) _ _)
    obtain ⟨out, sent⟩ := Fab.qpResend_eq g q.partition q.entry
    rw [sent]
    exact PortsKept.of_netOut

/-! ### Ports -/

theorem portLinkUp_claims (up : s.fab.phase = .running) (low : port < 32) (light : s.fab.halts (936 + port / 4) = false)
    (down : s.fab.portState port = 0) (own : s.fab.ownLink port = false) (laid : s.fab.lanesOf port ≠ 0)
    (clean : lanesMeet (s.fab.lanesOf port) (s.fab.retiredLanes (port / 4)) = false) :
    ∃ t, exec (.portLinkUp port) s = .next t ∧ DeviceOnly s t ∧ CameUp port (s.fab.lanesOf port) t.fab := by
  obtain ⟨out, sends⟩ := Fab.sendImage_eq ((s.fab.setPort port 2 (s.fab.lanesOf port)).showLanes (port / 4) (s.fab.lanesOf port) true) port
  obtain ⟨t, next, only, fab⟩ := onFab_ends (k := portLinkUp port) up ((if_pos ⟨low, down, laid, (Bool.not_eq_true' _).mpr clean,
    (Bool.not_eq_true' _).mpr own, (Bool.not_eq_true' _).mpr light⟩).trans sends)
  exact ⟨t, next, only, fab ▸ (s.fab.cameUp (s.fab.lanesOf port) low).sent out⟩

theorem portLinkDown_claims (up : s.fab.phase = .running) (low : port < 32) :
    (s.fab.portState port = 2 → ∃ t, exec (.portLinkDown port) s = .next t ∧ DeviceOnly s t ∧
      WentDown port (s.fab.lanesOf port) (s.fab.lanesOf port) t.fab) ∧
    (s.fab.portState port ≠ 2 → exec (.portLinkDown port) s = .next s) := by
  refine ⟨fun there => ?_, fun absent => ?_⟩
  · have holds : (Nat.blt port 32 && s.fab.portState port == 2) = true := by
      rw [there, Nat.blt_eq.mpr low]
      rfl
    obtain ⟨t, next, only, fab⟩ := onFab_ends (k := fun f => if Nat.blt port 32 && f.portState port == 2
      then f.moveFlows port (f.dropPort port 0 (f.lanesOf port)) else f) up (if_pos holds)
    refine ⟨t, next, only, ?_⟩
    rw [fab]
    have dropped := s.fab.wentDown (s.fab.lanesOf port) low
    obtain ⟨lanes, entries⟩ := s.fab.moveFlows_kept (s.fab.dropPort port 0 (s.fab.lanesOf port)) port
    exact { state := (entries _ _ (by decide) (by decide) (by omega)).trans dropped.state,
            lanes := (congrArg (Tbl.get · 0 port) lanes).trans dropped.lanes,
            shown := fun i small lane => by rw [entries _ _ (by decide) (by decide) (by omega)]; exact dropped.shown i small lane }
  · refine onFab_stays up (if_neg ?_)
    rw [beq_eq_false_iff_ne.2 absent, Bool.and_false]
    exact Bool.false_ne_true

/-- A forming port comes up with an event (R361). -/
theorem portFormed_claims (up : s.fab.phase = .running) (low : port < 32) (light : s.fab.halts (936 + port / 4) = false)
    (forming : s.fab.portState port = 1) :
    ∃ t, exec (.portFormed port) s = .next t ∧ DeviceOnly s t ∧ CameUp port (s.fab.lanesOf port) t.fab ∧
      Claims.Logged s t (0x0800 + port) 0x0302 none port (s.fab.lanesOf port) := by
  let g := (s.fab.setPort port 2 (s.fab.lanesOf port)).showLanes (port / 4) (s.fab.lanesOf port) true
  obtain ⟨out, sends⟩ := Fab.sendImage_eq (g.raise (0x0800 + port) 0x0302 none port (s.fab.lanesOf port)) port
  obtain ⟨t, next, only, fab⟩ := onFab_ends (k := portFormed port) up
    ((if_pos ⟨low, forming, (Bool.not_eq_true' _).mpr light⟩).trans sends)
  refine ⟨t, next, only, fab ▸ ((s.fab.cameUp (s.fab.lanesOf port) low).raise low _ _ _ _ _).sent out, ?_⟩
  refine logged_of_raise (g := g) (s.fab.log_setPort port 2 (s.fab.lanesOf port)) ?_ ((congrArg Fab.log fab).trans (Fab.log_sent _ out))
  exact (Fab.dget_showLanes_of_index _ _ _ (by omega) (by decide) (by decide)).trans
    (Fab.dget_setPort_of_index _ _ _ low (by decide) (by decide) (by decide))

/-- A port that fails to form goes down with its own event (R361). -/
theorem portFormFailed_claims (up : s.fab.phase = .running) (low : port < 32) (forming : s.fab.portState port = 1) :
    ∃ t, exec (.portFormFailed port) s = .next t ∧ DeviceOnly s t ∧ t.fab.portState port = 0 ∧ t.fab.lanesOf port = 0 ∧
      Claims.Logged s t (0x0800 + port) 0x0303 none port 0 := by
  obtain ⟨t, next, only, fab⟩ := onFab_ends (k := portFormFailed port) up (if_pos ⟨low, forming⟩)
  have dropped := (s.fab.wentDown 0 low).raise low (0x0800 + port) 0x0303 none port 0
  refine ⟨t, next, only, fab ▸ dropped.state, fab ▸ dropped.lanes, ?_⟩
  refine logged_of_raise (g := s.fab.dropPort port 0 0) (Fab.log_setPort _ port 0 0) ?_ (congrArg Fab.log fab)
  exact (Fab.dget_setPort_of_index _ _ _ low (by decide) (by decide) (by decide)).trans
    (Fab.dget_showLanes_of_index _ _ _ (by omega) (by decide) (by decide))

theorem formed_of_other (up : s.fab.phase = .running) (other : s.fab.portState port ≠ 1) :
    exec (.portFormed port) s = .next s ∧ exec (.portFormFailed port) s = .next s :=
  ⟨onFab_stays (k := portFormed port) up (if_neg (fun h => other h.2.1)),
    onFab_stays (k := portFormFailed port) up (if_neg (fun h => other h.2))⟩

/-! ### Lanes -/

/-- What retires a lane: it reads retired and not up, with an event (R360). -/
def RetiresLane (s : State) (lane reason : Nat) (c : Instr) : Prop :=
  ∃ t, exec c s = .next t ∧ DeviceOnly s t ∧ bit (t.fab.retiredLanes (lane / 8)) (lane % 8) = true ∧
    bit (t.fab.dget 0x5002 (lane / 8 + 1)) (lane % 8) = false ∧ Claims.Logged s t (0x0840 + lane) 0x0301 none lane reason

variable {lane reason : Nat}

/-- A lane that no port uses is retired, and no port is formed anew. -/
theorem Fab.retireLane_of_unused (low : lane < 64) (clean : bit (f.retiredLanes (lane / 8)) (lane % 8) = false)
    (unused : ∀ k, k < 4 → bit (f.lanesOf (4 * (lane / 8) + k)) (lane % 8) = false) :
    f.retireLane lane reason = (f.dset 0x5002 (lane / 8 + 1)
      (setBit (setBit (f.dget 0x5002 (lane / 8 + 1)) (lane % 8) false) (8 + lane % 8) true)).raise (0x0840 + lane) 0x0301 none lane reason := by
  unfold Fab.retireLane
  extract_lets n i f1
  have live : ¬(64 ≤ lane ∨ bit (f.retiredLanes n) i = true) := by
    rintro (high | retired)
    · omega
    · exact Bool.false_ne_true (clean.symm.trans retired)
  have lanes : ∀ x, f1.lanesOf x = f.lanesOf x := fun x => congrArg (Tbl.get · 0 x) (Fab.raise_portLanes ..)
  have nobody : (List.range 4).find? (fun k => bit (f1.lanesOf (4 * n + k)) i) = none :=
    List.find?_eq_none.2 (fun k hk => by rw [lanes, unused k (List.mem_range.1 hk)]; exact Bool.false_ne_true)
  rw [if_neg live, nobody]

theorem retires_of_fab {c : Instr} {k : Fab → Fab} (lift : exec c s = onFab s k) (up : s.fab.phase = .running) (low : lane < 64)
    (kept : g.log = s.fab.log) (dict : g.dict = s.fab.dict) (lanes : g.portLanes = s.fab.portLanes)
    (ran : k s.fab = g.retireLane lane reason) (clean : bit (s.fab.retiredLanes (lane / 8)) (lane % 8) = false)
    (unused : ∀ k, k < 4 → bit (s.fab.lanesOf (4 * (lane / 8) + k)) (lane % 8) = false) : RetiresLane s lane reason c := by
  have entries := Fab.dget_of_dict dict
  have clean' : bit (g.retiredLanes (lane / 8)) (lane % 8) = false := by
    rw [Fab.retiredLanes, entries]
    exact clean
  have unused' : ∀ k, k < 4 → bit (g.lanesOf (4 * (lane / 8) + k)) (lane % 8) = false := by
    intro k small
    rw [Fab.lanesOf, lanes]
    exact unused k small
  obtain ⟨t, next, only, fab⟩ := onFab_ends (k := k) up (ran.trans (Fab.retireLane_of_unused low clean' unused'))
  have shown : t.fab.dget 0x5002 (lane / 8 + 1) =
      setBit (setBit (g.dget 0x5002 (lane / 8 + 1)) (lane % 8) false) (8 + lane % 8) true := by
    rw [fab, Fab.dget_raise _ _ _ _ _ _ _ _ (by decide) (by omega), Fab.dget_dset_same]
  refine ⟨t, lift.trans next, only, ?_, ?_, ?_⟩
  · rw [Fab.retiredLanes, shown, bit_bitsOf (by omega), bit_setBit, if_pos rfl]
  · rw [shown, bit_setBit, if_neg (by omega), bit_setBit, if_pos rfl]
  · refine logged_of_raise (g := g.dset 0x5002 (lane / 8 + 1) _) kept ?_ (congrArg Fab.log fab)
    rw [Fab.dget_dset_ne _ (dictKey_ne (by decide) (by decide) (by omega)), entries]

/-- The codewords of a lane that no port uses are not counted. -/
theorem Fab.fecCounts_of_unused (cor unc : Nat) (unused : ∀ k, k < 4 → bit (f.lanesOf (4 * (lane / 8) + k)) (lane % 8) = false) :
    f.fecCounts lane cor unc = f := by
  have nobody : (List.range 4).find? (fun k => bit (f.lanesOf (4 * (lane / 8) + k)) (lane % 8)) = none :=
    List.find?_eq_none.2 (fun k hk => by rw [unused k (List.mem_range.1 hk)]; exact Bool.false_ne_true)
  unfold Fab.fecCounts
  rw [nobody]

/-- A window of a lane that lives and that no port uses, by how bad it was (R360). -/
theorem laneWindow_eq (errors cor unc : Nat) (low : lane < 64) (clean : bit (f.retiredLanes (lane / 8)) (lane % 8) = false)
    (unused : ∀ k, k < 4 → bit (f.lanesOf (4 * (lane / 8) + k)) (lane % 8) = false) :
    laneWindow lane errors cor unc f =
      if errors ≤ f.dget 0x5010 0x41 then { f with laneBad := f.laneBad.set lane 0 }
      else if f.laneBad.get 0 lane < 2 then { f with laneBad := f.laneBad.set lane (f.laneBad.get 0 lane + 1) }
      else Fab.retireLane { f with laneBad := f.laneBad.set lane 0 } lane 1 := by
  have live : ¬(64 ≤ lane ∨ bit (f.retiredLanes (lane / 8)) (lane % 8) = true) := by
    rintro (high | retired)
    · omega
    · exact Bool.false_ne_true (clean.symm.trans retired)
  unfold laneWindow
  rw [if_neg live, Fab.fecCounts_of_unused cor unc unused]

theorem lane_claims (errors cor unc : Nat) (up : s.fab.phase = .running) (low : lane < 64)
    (clean : bit (s.fab.retiredLanes (lane / 8)) (lane % 8) = false)
    (unused : ∀ k, k < 4 → bit (s.fab.lanesOf (4 * (lane / 8) + k)) (lane % 8) = false) :
    RetiresLane s lane 0 (.laneSignalLoss lane) ∧
    (errors ≤ s.fab.dget 0x5010 0x41 → ∃ t, exec (.laneErrorWindow lane ⟨errors, cor, unc⟩) s = .next t ∧ DeviceOnly s t ∧
      t.fab.laneBad.get 0 lane = 0 ∧ { t.fab with laneBad := [] } = { s.fab with laneBad := [] }) ∧
    (s.fab.dget 0x5010 0x41 < errors → s.fab.laneBad.get 0 lane < 2 →
      ∃ t, exec (.laneErrorWindow lane ⟨errors, cor, unc⟩) s = .next t ∧ DeviceOnly s t ∧
        t.fab.laneBad.get 0 lane = s.fab.laneBad.get 0 lane + 1 ∧ { t.fab with laneBad := [] } = { s.fab with laneBad := [] }) ∧
    (s.fab.dget 0x5010 0x41 < errors → 2 ≤ s.fab.laneBad.get 0 lane →
      RetiresLane s lane 1 (.laneErrorWindow lane ⟨errors, cor, unc⟩)) := by
  have window := laneWindow_eq errors cor unc low clean unused
  refine ⟨?_, fun good => ?_, fun bad few => ?_, fun bad many => ?_⟩
  · exact retires_of_fab (k := fun f => f.retireLane lane 0) (g := s.fab) rfl up low rfl rfl rfl rfl clean unused
  · rw [if_pos good] at window
    obtain ⟨t, next, only, fab⟩ := onFab_ends (k := laneWindow lane errors cor unc) up window
    refine ⟨t, next, only, ?_, ?_⟩ <;> rw [fab]
    exact Tbl.get_set_same _ _ _ _
  · rw [if_neg (by omega), if_pos few] at window
    obtain ⟨t, next, only, fab⟩ := onFab_ends (k := laneWindow lane errors cor unc) up window
    refine ⟨t, next, only, ?_, ?_⟩ <;> rw [fab]
    exact Tbl.get_set_same _ _ _ _
  · rw [if_neg (by omega), if_neg (by omega)] at window
    exact retires_of_fab (k := laneWindow lane errors cor unc) (g := { s.fab with laneBad := s.fab.laneBad.set lane 0 })
      rfl up low rfl rfl rfl window clean unused

/-! ### Laser banks -/

variable {bank : Nat}

theorem Fab.dropPort_laserBad (f : Fab) (port state lanes : Nat) : (f.dropPort port state lanes).laserBad = f.laserBad := by
  unfold Fab.dropPort Fab.setPort Fab.showCascade
  dsimp only
  split <;> rfl

/-- An engine whose bank fails takes the other one where it is good (R363). -/
theorem Fab.laserSwitch_of_good (low : n < 8) (uses : f.dget 0x5011 (n + 1) = bank) (small : bank < 2)
    (good : bit (f.laserBad.get 0 n) (1 - bank) = false) :
    f.laserSwitch n = (Fab.dset { f with laserBad := f.laserBad.set n (setBit (f.laserBad.get 0 n) bank true) } 0x5011 (n + 1)
      (1 - bank)).raise (srcBase n 6) 0x0304 none n (1 - bank) := by
  unfold Fab.laserSwitch
  rw [uses]
  extract_lets b bad f1 next f2
  have live : ¬(8 ≤ n ∨ 2 ≤ bank) := by omega
  have other : next = 1 - bank := if_neg (by
    rw [show bad = setBit (f.laserBad.get 0 n) bank true from rfl, bit_setBit, if_neg (by omega), good]
    exact Bool.false_ne_true)
  rw [if_neg live, if_neg (by omega)]
  exact congrArg (fun x => (f1.dset 0x5011 (n + 1) x).raise (srcBase n 6) 0x0304 none n x) other

/-- The bank that engine n uses, and those of its banks that have failed. -/
def Fab.laserAt (f : Fab) (n : Nat) : Nat × Nat := (f.dget 0x5011 (n + 1), f.laserBad.get 0 n)

theorem Fab.laserAt_of_same {m : Nat} (entry : g.dget 0x5011 (m + 1) = f.dget 0x5011 (m + 1)) (bad : g.laserBad = f.laserBad) :
    g.laserAt m = f.laserAt m := by
  rw [Fab.laserAt, entry, bad]
  rfl

theorem Fab.laserAt_raise {m : Nat} (f : Fab) (source code : Nat) (part : Option Nat) (a b : Nat) (low : m < 8) :
    (f.raise source code part a b).laserAt m = f.laserAt m :=
  Fab.laserAt_of_same (Fab.dget_raise _ _ _ _ _ _ _ _ (by decide) (by omega)) (Fab.raise_laserBad ..)

/-- The switch of an engine leaves the banks of another. -/
theorem Fab.laserAt_laserSwitch {m : Nat} (f : Fab) (low : m < 8) (other : m ≠ n) : (f.laserSwitch n).laserAt m = f.laserAt m := by
  unfold Fab.laserSwitch
  extract_lets b bad f1 next f2
  split
  · rfl
  · next live =>
    have there : n < 8 := by omega
    have switched : f2.laserAt m = f.laserAt m := by
      rw [show f2 = _ from rfl, Fab.laserAt_raise _ _ _ _ _ _ low]
      refine Prod.ext ?_ ?_
      · exact Fab.dget_dset_ne _ (dictKey_ne_sub (by omega))
      · exact Tbl.get_set_ne _ _ _ other
    split
    · refine (foldl_keeps_of_mem (fun g : Fab => g.laserAt m) (fun g k hk => ?_) f2).trans switched
      have := List.mem_range.1 hk
      split
      · exact Fab.laserAt_of_same (Fab.dget_dropPort g _ _ (by omega) (by decide) (by omega)) (Fab.dropPort_laserBad ..)
      · rfl
    · exact switched

/-- A fold in which one element has an effect on what is measured. -/
theorem foldl_at {σ β : Type} {step : σ → Nat → σ} (measure : σ → β) {n : Nat} {l : List Nat} {before after : β} (mem : n ∈ l)
    (once : l.Nodup) (others : ∀ s, ∀ a ∈ l, a ≠ n → measure (step s a) = measure s)
    (here : ∀ s, measure s = before → measure (step s n) = after) {s : σ} (start : measure s = before) :
    measure (l.foldl step s) = after := by
  induction l generalizing s with
  | nil => cases mem
  | cons a l ih =>
    obtain ⟨fresh, once⟩ := List.nodup_cons.1 once
    have others' : ∀ s, ∀ b ∈ l, b ≠ n → measure (step s b) = measure s := fun s b hb => others s b (List.mem_cons_of_mem _ hb)
    by_cases same : a = n
    · subst same
      have rest : ∀ s, ∀ b ∈ l, measure (step s b) = measure s := fun s b hb => others' s b hb (fun h => fresh (h ▸ hb))
      exact (foldl_keeps_of_mem measure rest _).trans (here s start)
    · have mem' : n ∈ l := (List.mem_cons.1 mem).resolve_left (fun h => same h.symm)
      exact ih mem' once others' ((others s a (List.mem_cons_self ..) same).trans start)

/-- What firmware makes of a bank that has failed, at one engine (R363). -/
theorem laserFault_at {after : Nat × Nat} (low : n < 8) (small : bank < 2)
    (here : ∀ g : Fab, g.laserAt n = f.laserAt n → Fab.laserAt (if g.dget 0x5011 (n + 1) = bank then g.laserSwitch n
      else { g with laserBad := g.laserBad.set n (setBit (g.laserBad.get 0 n) bank true) }) n = after) :
    (laserFault bank f).laserAt n = after := by
  unfold laserFault
  refine (congrArg (Fab.laserAt · n) (if_neg (by omega))).trans ?_
  refine foldl_at (fun g : Fab => g.laserAt n) (List.mem_range.2 low) List.nodup_range (fun g m _ other => ?_) here rfl
  split
  · exact Fab.laserAt_laserSwitch g low (Ne.symm other)
  · exact Prod.ext rfl (Tbl.get_set_ne _ _ _ (Ne.symm other))

theorem laser_claims (up : s.fab.phase = .running) (low : n < 8) (uses : s.fab.dget 0x5011 (n + 1) = bank) (small : bank < 2)
    (good : bit (s.fab.laserBad.get 0 n) (1 - bank) = false) :
    (∃ t, exec (.laserLowLight n) s = .next t ∧ DeviceOnly s t ∧ t.fab.dget 0x5011 (n + 1) = 1 - bank ∧
      bit (t.fab.laserBad.get 0 n) bank = true ∧ Claims.Logged s t (srcBase n 6) 0x0304 none n (1 - bank)) ∧
    (∃ t, exec (.laserFault bank) s = .next t ∧ DeviceOnly s t ∧ t.fab.dget 0x5011 (n + 1) = 1 - bank) ∧
    ∃ t, exec (.laserFault (1 - bank)) s = .next t ∧ DeviceOnly s t ∧ t.fab.dget 0x5011 (n + 1) = bank ∧
      bit (t.fab.laserBad.get 0 n) (1 - bank) = true := by
  have switched : ∀ g : Fab, g.laserAt n = s.fab.laserAt n →
      (g.laserSwitch n).laserAt n = (1 - bank, setBit (s.fab.laserBad.get 0 n) bank true) := by
    intro g same
    obtain ⟨entry, bad⟩ := Prod.mk.inj same
    rw [Fab.laserSwitch_of_good low (entry.trans uses) small (by rw [bad]; exact good)]
    rw [Fab.laserAt_raise _ _ _ _ _ _ low]
    refine Prod.ext ?_ ?_
    · exact Fab.dget_dset_same _ _ _ _
    · exact (Tbl.get_set_same _ _ _ _).trans (by rw [bad])
  refine ⟨?_, ?_, ?_⟩
  · obtain ⟨t, next, only, fab⟩ := onFab_ends (k := fun f => f.laserSwitch n) up (Fab.laserSwitch_of_good low uses small good)
    obtain ⟨entry, bad⟩ := Prod.mk.inj (switched s.fab rfl)
    rw [Fab.laserSwitch_of_good low uses small good, ← fab] at entry bad
    refine ⟨t, next, only, entry, by rw [bad, bit_setBit, if_pos rfl], ?_⟩
    refine logged_of_raise (s := s) ?_ ?_ (congrArg Fab.log fab)
    · rfl
    · exact Fab.dget_dset_ne _ (dictKey_ne (by decide) (by decide) (by omega))
  · obtain ⟨t, next, only, fab⟩ := onFab_ends (k := laserFault bank) up rfl
    have here := laserFault_at (f := s.fab) low small (fun g same => by
      obtain ⟨entry, bad⟩ := Prod.mk.inj same
      rw [if_pos (entry.trans uses)]
      exact switched g same)
    exact ⟨t, next, only, by rw [fab]; exact congrArg Prod.fst here⟩
  · obtain ⟨t, next, only, fab⟩ := onFab_ends (k := laserFault (1 - bank)) up rfl
    have here := laserFault_at (f := s.fab) (bank := 1 - bank) low (by omega) (after := (bank, setBit (s.fab.laserBad.get 0 n) (1 - bank) true))
      (fun g same => by
        obtain ⟨entry, bad⟩ := Prod.mk.inj same
        rw [if_neg (by rw [entry, uses]; omega)]
        exact Prod.ext (entry.trans uses) ((Tbl.get_set_same _ _ _ _).trans (by rw [bad])))
    obtain ⟨entry, bad⟩ := Prod.mk.inj here
    refine ⟨t, next, only, by rw [fab]; exact entry, ?_⟩
    rw [fab]
    exact (congrArg (bit · _) bad).trans (by rw [bit_setBit, if_pos rfl])

theorem laserPresent_claims (up : s.fab.phase = .running) :
    (∃ t, exec (.laserPresent false) s = .next t ∧ DeviceOnly s t ∧
      t.fab = { s.fab with inPins := { s.fab.inPins with laserPresent := true, laserFltN := true } }) ∧
    (s.fab.pins.laserEnA = false → ∃ t, exec (.laserPresent true) s = .next t ∧ DeviceOnly s t ∧
      t.fab.inPins.laserPresent = true ∧ t.fab.pins = { s.fab.pins with laserEnA := true, laserEnB := true } ∧
      t.fab.laserBad = []) := by
  refine ⟨onFab_ends (k := laserPresent false) up rfl, fun dark => ?_⟩
  let lit : Fab := { s.fab with
    inPins := { s.fab.inPins with laserPresent := true, laserFltN := true }
    pins := { s.fab.pins with laserEnA := true, laserEnB := true }, laserBad := [] }
  have ran : laserPresent true s.fab =
      (List.range 8).foldl (fun g n => if g.dget 0x5011 (n + 1) = 2 then g.dset 0x5011 (n + 1) 0 else g) lit :=
    if_neg (by simp [dark])
  obtain ⟨t, next, only, fab⟩ := onFab_ends (k := laserPresent true) up ran
  have keeps : ∀ (f : Fab) (n : Nat), ({ (if f.dget 0x5011 (n + 1) = 2 then f.dset 0x5011 (n + 1) 0 else f) with dict := [] } : Fab) =
      { f with dict := [] } := by
    intro f n
    split <;> rfl
  have rest : { t.fab with dict := [] } = { lit with dict := [] } := by
    rw [fab]
    exact foldl_keeps (fun g : Fab => { g with dict := [] }) keeps _ _
  exact ⟨t, next, only, (congrArg (fun g => g.inPins.laserPresent) rest :), (congrArg (·.pins) rest :), (congrArg (·.laserBad) rest :)⟩

/-! ### Base links -/

/-- What retires a base link (R32, R425). -/
def RetiresLink (s : State) (link count : Nat) (c : Instr) : Prop :=
  ∃ t, exec c s = .next t ∧ DeviceOnly s t ∧
    bit (t.fab.dget 0x1010 2) link = false ∧ (∀ i, i ≠ link → bit (t.fab.dget 0x1010 2) i = bit (s.fab.dget 0x1010 2) i) ∧
    (s.fab.routeDraining = false → t.fab.routes = t.fab.dget 0x1010 2 ∧ t.fab.oldRoutes = s.fab.routes ∧
      t.fab.routeBank = !s.fab.routeBank ∧ t.fab.routeDraining = true) ∧
    Claims.Logged s t (0x0700 + link) 0x0305 none link count

variable {link : Nat}

/-- A retired link, with its record. -/
def Fab.linkNoted (f : Fab) (link count : Nat) : Fab :=
  (f.dset 0x1010 2 (setBit (f.dget 0x1010 2) link false)).raise (0x0700 + link) 0x0305 none link count

theorem Fab.retireLink_eq (f : Fab) (link count : Nat) : f.retireLink link count =
    if (f.linkNoted link count).routeDraining then f.linkNoted link count else (f.linkNoted link count).commitRoutes := rfl

theorem Fab.linkNoted_kept (f : Fab) (link count : Nat) : (f.linkNoted link count).routeDraining = f.routeDraining ∧
    (f.linkNoted link count).routes = f.routes ∧ (f.linkNoted link count).routeBank = f.routeBank := by
  rw [Fab.linkNoted, Fab.raise_routeDraining, Fab.raise_routes, Fab.raise_routeBank]
  exact ⟨rfl, rfl, rfl⟩

theorem Fab.commitRoutes_committed (f : Fab) : f.commitRoutes.routes = f.commitRoutes.dget 0x1010 2 ∧ f.commitRoutes.oldRoutes = f.routes ∧
    f.commitRoutes.routeBank = (!f.routeBank) ∧ f.commitRoutes.routeDraining = true := ⟨rfl, rfl, rfl, rfl⟩

theorem Fab.commitRoutes_kept (f : Fab) : f.commitRoutes.log = f.log ∧ ∀ i j, f.commitRoutes.dget i j = f.dget i j :=
  ⟨rfl, fun _ _ => rfl⟩

theorem Fab.retireLink_routes (f : Fab) (link count : Nat) (set : f.routeDraining = false) :
    (f.retireLink link count).routes = (f.retireLink link count).dget 0x1010 2 ∧ (f.retireLink link count).oldRoutes = f.routes ∧
      (f.retireLink link count).routeBank = (!f.routeBank) ∧ (f.retireLink link count).routeDraining = true := by
  obtain ⟨still, routes, bank⟩ := f.linkNoted_kept link count
  rw [Fab.retireLink_eq, still, set, if_neg Bool.false_ne_true, ← routes, ← bank]
  exact Fab.commitRoutes_committed _

theorem Fab.retireLink_log (f : Fab) (link count : Nat) : (f.retireLink link count).log = (f.linkNoted link count).log := by
  rw [Fab.retireLink_eq]
  split
  · rfl
  · exact (Fab.commitRoutes_kept _).1

theorem Fab.dget_retireLink (f : Fab) (link count : Nat) :
    (f.retireLink link count).dget 0x1010 2 = setBit (f.dget 0x1010 2) link false := by
  have noted : (f.linkNoted link count).dget 0x1010 2 = setBit (f.dget 0x1010 2) link false := by
    rw [Fab.linkNoted, Fab.dget_raise _ _ _ _ _ _ _ _ (by decide) (by decide), Fab.dget_dset_same]
  rw [Fab.retireLink_eq]
  split
  · exact noted
  · exact ((Fab.commitRoutes_kept _).2 _ _).trans noted

theorem retires_link {c : Instr} {k : Fab → Fab} {count : Nat} (lift : exec c s = onFab s k) (up : s.fab.phase = .running)
    (ran : k s.fab = g.retireLink link count) (log : g.log = s.fab.log) (dict : g.dict = s.fab.dict)
    (draining : g.routeDraining = s.fab.routeDraining) (routes : g.routes = s.fab.routes) (bank : g.routeBank = s.fab.routeBank) :
    RetiresLink s link count c := by
  obtain ⟨t, next, only, fab⟩ := onFab_ends (k := k) up ran
  have entries := Fab.dget_of_dict dict
  refine ⟨t, lift.trans next, only, ?_, fun i other => ?_, fun set => ?_, ?_⟩
  · rw [fab, Fab.dget_retireLink, bit_setBit, if_pos rfl]
  · rw [fab, Fab.dget_retireLink, bit_setBit, if_neg other, entries]
  · rw [fab, ← routes, ← bank]
    exact Fab.retireLink_routes g link count (draining.trans set)
  · refine logged_of_raise (g := g.dset 0x1010 2 (setBit (g.dget 0x1010 2) link false)) log ?_
      ((congrArg Fab.log fab).trans (Fab.retireLink_log g link count))
    exact (Fab.dget_dset_ne _ (by decide)).trans (entries _ _)

theorem link_claims (up : s.fab.phase = .running) :
    let l := s.fab.replays link
    (s.fab.linkLives link = true →
      (l.length < 15 → ∃ t, exec (.baseLinkCrcError link) s = .next t ∧ DeviceOnly s t ∧
        t.fab = { s.fab with linkReplays := s.fab.linkReplays.set link (l ++ [s.fab.cycle]) }) ∧
      (15 ≤ l.length → RetiresLink s link (l.length + 1) (.baseLinkCrcError link)) ∧
      RetiresLink s link l.length (.baseLinkReplayTimeout link)) ∧
    (s.fab.linkLives link = false →
      exec (.baseLinkCrcError link) s = .next s ∧ exec (.baseLinkReplayTimeout link) s = .next s) := by
  intro l
  have length : (s.fab.replays link ++ [s.fab.cycle]).length = l.length + 1 := by rw [List.length_append, List.length_singleton]
  let noted : Fab := { s.fab with linkReplays := s.fab.linkReplays.set link (l ++ [s.fab.cycle]) }
  refine ⟨fun lives => ⟨fun few => ?_, fun many => ?_, ?_⟩, fun gone => ⟨?_, ?_⟩⟩
  · have ran : linkCrc link s.fab = noted := by
      unfold linkCrc
      rw [if_neg (by simp [lives])]
      exact if_neg (by rw [length]; omega)
    exact onFab_ends (k := linkCrc link) up ran
  · have ran : linkCrc link s.fab = noted.retireLink link (l.length + 1) := by
      unfold linkCrc
      rw [if_neg (by simp [lives])]
      refine (if_pos (by rw [length]; omega)).trans ?_
      exact congrArg (noted.retireLink link) length
    exact retires_link (k := linkCrc link) (g := noted) rfl up ran rfl rfl rfl rfl rfl
  · exact retires_link (k := fun f => if f.linkLives link then f.retireLink link (f.replays link).length else f) (g := s.fab) rfl up
      (if_pos lives) rfl rfl rfl rfl rfl
  · exact onFab_stays (k := linkCrc link) up (if_pos (by simp [gone]))
  · exact onFab_stays (k := fun f => if f.linkLives link then f.retireLink link (f.replays link).length else f) up
      (if_neg (by simp [gone]))

/-- Settles O42: ports, lanes, laser banks and base links in turn. -/
theorem portsLanesAndLinks : Obligations.PortsLanesAndLinks := by
  unfold Obligations.PortsLanesAndLinks
  refine ⟨⟨?_, ?_, ?_, fun s up => laserPresent_claims up⟩, fun s link => ?_⟩
  · intro s port lanes up low light
    refine ⟨fun down own laid clean => ?_, fun there => ?_, ?_, fun forming => ⟨?_, ?_⟩, ?_⟩
    · obtain ⟨t, next, only, ups⟩ := portLinkUp_claims up low light down own laid clean
      exact ⟨t, next, only, ups.state, ups.lanes, ups.shown⟩
    · obtain ⟨t, next, only, downs⟩ := (portLinkDown_claims up low).1 there
      exact ⟨t, next, only, downs.state, downs.lanes, downs.shown⟩
    · exact (portLinkDown_claims up low).2
    · obtain ⟨t, next, only, ups, logged⟩ := portFormed_claims up low light forming
      exact ⟨t, next, only, ups.state, ups.lanes, logged⟩
    · exact portFormFailed_claims up low forming
    · exact formed_of_other up
  · intro s lane errors cor unc n i retires up low clean unused
    exact lane_claims errors cor unc up low clean unused
  · intro s n bank up low small good
    exact laser_claims up low rfl small good
  · intro l retires up
    exact link_claims up

end Sys2Proof.Machine
end

section
/-! PROOFS. Accesses of engines (R206, R326, R366): what a state that reaches a range gives an access of any source, what a write of sound
lines leaves of the device, and what the next state of such work reads. -/

namespace Sys2Proof.Machine

open Sys2Proof Sys2Proof.Safety

variable {s t : State} {f g : Fab} {w v : W} {p b a n x : Nat}

/-- A device reaches a range for partition p from the engine of base die b, and meets no faulty line there. -/
structure Fab.ReachedFrom (f : Fab) (p b a n : Nat) : Prop where
  inside : f.inWindows p a n = true
  way : (f.wayTo [] (some b) a).isSome = true
  sound : f.faultless a n
  calm : f.calm = true

theorem faultless_of_sound (sound : Claims.sound s a n = true) : s.fab.faultless a n := by
  intro l mem
  have both := List.all_eq_true.1 sound l mem
  rw [Bool.and_eq_true, Bool.not_eq_true', Bool.not_eq_true'] at both
  exact both

theorem reachedFrom_of_reaches {l : List (Nat × Nat × Bool)} (reaches : Claims.reaches s p b l) {r : Nat × Nat × Bool} (mem : r ∈ l) :
    s.fab.ReachedFrom p b r.1 r.2.1 := by
  obtain ⟨calm, -, all⟩ := reaches
  obtain ⟨inside, way, sound⟩ := all r mem
  exact ⟨inside, way, faultless_of_sound sound, calm⟩

/-- The way of an access exists whatever links lie before its base die. -/
theorem Fab.wayTo_up (f : Fab) (up : List Nat) (a : Nat) : (f.wayTo up (some b) a).isSome = (f.wayTo [] (some b) a).isSome := by
  unfold Fab.wayTo
  dsimp only
  split <;> simp

/-- An access of an engine that reaches its range is made, and only counts. -/
theorem W.access_from {tag : Nat → Tag} (hp : ∀ d, (tag d).partition = p) (from_ : ∀ d, (tag d).source.2 = some b)
    (reached : w.fab.ReachedFrom p b a n) (write : Bool) :
    ∃ f, w.access tag a n write = ({ w with fab := f }, .ok) ∧ w.fab.Served f := by
  by_cases empty : n = 0
  · exact ⟨w.fab, if_pos empty, .refl _⟩
  · have served := w.fab.rangeDone_served (shareOf (tag (w.fab.locate none a).die) ((w.fab.locate none a).die - 16) write) p a n write
    refine ⟨_, ?_, served⟩
    unfold W.access
    dsimp only
    rw [if_neg empty, hp, Fab.guarded_of_inWindows reached.inside]
    dsimp only
    have may : ∀ t, w.fab.mayAccess t a n write = true := fun t => by rw [Fab.mayAccess, reached.calm]; rfl
    rw [from_, Option.isNone_eq_false_iff.2 ((w.fab.wayTo_up _ a).trans reached.way), may, if_neg Bool.false_ne_true, if_neg (by simp)]
    cases write with
    | true => rfl
    | false =>
      rw [if_neg Bool.false_ne_true, Fab.badIn_of_faultless reached.sound]
      dsimp only
      rw [Fab.corrects_of_faultless (served.faultless reached.sound)]

theorem Fab.Served.wayTo (served : f.Served g) (up : List Nat) (a : Nat) :
    (g.wayTo up (some b) a).isSome = (f.wayTo up (some b) a).isSome := by
  have routes : g.routes = f.routes := (congrArg (·.routes) served.rest :)
  unfold Fab.wayTo
  rw [served.locate, routes]
  dsimp only
  split <;> simp

theorem Fab.Served.reachedFrom (served : f.Served g) (reached : f.ReachedFrom p b a n) : g.ReachedFrom p b a n where
  inside := (served.inWindows p a n).trans reached.inside
  way := (served.wayTo [] a).trans reached.way
  sound := served.faultless reached.sound
  calm := served.calm.trans reached.calm

/-- A write of sound lines changes of the device the keys of its lines and the dirty bits (R202, R437). -/
theorem W.store_fab_eq {bytes : List Byte} (idle : (w.fab.noivosOf p).running = none) (sound : w.fab.faultless a bytes.length) :
    ∃ keys noivos, (w.store p a bytes).fab = { w.fab with lineKey := keys, noivos := noivos } := by
  have keyed := W.rekeys_fab p (linesOf a bytes.length) w
  rw [W.store_eq idle (fun l hl => (sound l hl).1)]
  generalize (linesOf a bytes.length).foldl (fun x l => x.rekey p l) w = v at keyed
  have bad : v.fab.badLines = w.fab.badLines := congrArg (·.badLines) keyed
  have soft : v.fab.softLines = w.fab.softLines := congrArg (·.softLines) keyed
  have sound' : v.fab.faultless a bytes.length := fun l hl => by rw [bad, soft]; exact sound l hl
  have same : v.fab = { w.fab with lineKey := v.fab.lineKey } :=
    (congrArg (fun f : Fab => { f with lineKey := v.fab.lineKey }) keyed :)
  rw [W.map_fab, W.puts_fab, Fab.noteWrite_of_faultless sound', Fab.dirty]
  dsimp only
  split
  · exact ⟨_, _, same⟩
  · rw [same]
    exact ⟨_, _, rfl⟩

/-- The next state reads what the work read. -/
theorem W.load_of_next (mem : t.mem = MemOp.applyAll w.mem w.out) (fab : t.fab = w.fab) (sec : t.sec = w.sec) (p x : Nat) :
    (W.of t).load p x = w.load p x := by
  refine W.load_congr (by rw [show (W.of t).fab = t.fab from rfl, fab]) sec (fun y _ => ?_)
  show Memory.read t.mem y = _
  rw [mem]
  exact MemOp.read_applyAll _ _ _

/-- What a command that reaches memory leaves. -/
structure Ended (s t : State) (w : W) : Prop where
  pending : t.pending = s.pending
  sec : t.sec = s.sec
  fab : t.fab = w.fab
  mem : t.mem = MemOp.applyAll s.mem w.out
  load : ∀ p x, (W.of t).load p x = w.load p x

theorem Ended.deviceOnly (ended : Ended s t w) (out : w.out = []) : DeviceOnly s t :=
  ⟨ended.mem.trans (by rw [out]; rfl), ended.sec, ended.pending⟩

theorem onMem_ends {k : W → W} (up : s.fab.phase = .running) (ran : k (W.of s) = w) (clean : w.faults = []) (goes : w.waits = false)
    (mem : w.mem = s.mem) (sec : w.sec = s.sec) : ∃ t, onMem s k = .next t ∧ Ended s t w := by
  have settled : (k (W.of s)).settled = w := by
    rw [ran]
    exact settled_of_faults clean
  have next : onMem s k = .next { s with mem := MemOp.applyAll s.mem w.out, fab := w.fab } := by
    rw [onMem_running k up (by rw [settled]; exact goes), settled]
  exact ⟨_, next, rfl, rfl, rfl, rfl,
    W.load_of_next (t := { s with mem := MemOp.applyAll s.mem w.out, fab := w.fab }) (congrArg (MemOp.applyAll · w.out) mem.symm) rfl sec.symm⟩

/-- Work on a device alone. -/
theorem onMem_ends_of_fab {k : W → W} (up : s.fab.phase = .running) (ran : k (W.of s) = { W.of s with fab := g }) :
    ∃ t, onMem s k = .next t ∧ DeviceOnly s t ∧ t.fab = g := by
  obtain ⟨t, next, ended⟩ := onMem_ends up ran rfl rfl rfl rfl
  exact ⟨t, next, ended.deviceOnly rfl, ended.fab⟩

end Sys2Proof.Machine
end

section
/-! PROOFS. RoCEv2 requests, queue pairs, neighbours and PTP (O41; R359, R366 to R369, R413). -/

namespace Sys2Proof.Machine

open Sys2Proof Sys2Proof.Safety

variable {s t : State} {f g : Fab} {w v : W} {p b a n x i j port : Nat} {r : RdmaReq} {bytes : List Byte}

/-! ### Requests to a queue pair -/

/-- What a request leaves that its port has taken: the replay window, and the CNP of a CE mark. -/
def Fab.rdmaIn (f : Fab) (r : RdmaReq) : Fab :=
  if r.ce then (f.received r.port r.secured).emit (.cnp (f.answerTo r).1 r.peer (f.answerTo r).2) else f.received r.port r.secured

/-- What a CE mark sends. -/
def Fab.rdmaMark (f : Fab) (r : RdmaReq) : List NetOut := if r.ce then [.cnp (f.answerTo r).1 r.peer (f.answerTo r).2] else []

theorem Fab.received_eq (f : Fab) (port : Nat) (x : Option Secured) : ∃ sas, f.received port x = { f with sas := sas } := by
  unfold Fab.received
  split
  · exact ⟨_, rfl⟩
  · exact ⟨_, rfl⟩

theorem Fab.rdmaIn_eq (f : Fab) (r : RdmaReq) : ∃ sas, f.rdmaIn r = { f with sas := sas, netOut := f.netOut ++ f.rdmaMark r } := by
  obtain ⟨sas, taken⟩ := f.received_eq r.port r.secured
  refine ⟨sas, ?_⟩
  unfold Fab.rdmaIn Fab.rdmaMark
  rw [taken]
  split
  · rfl
  · exact congrArg (fun l => ({ f with sas := sas, netOut := l } : Fab)) (List.append_nil _).symm

/-- A request that its port takes and that comes to a queue pair of this device. -/
structure Fab.TakesRequest (f : Fab) (r : RdmaReq) : Prop where
  intact : r.intact = true
  up : f.portUp r.port = true
  secure : f.secureIn r.port r.secured = true
  channel : ∀ x, r.secured = some x → x.channel = rdmaPartition r
  there : f.atQp r = true

section Order

variable {write : Bool} {body : Dress → Nat → W → W} (takes : w.fab.TakesRequest r)
include takes

/-- A request by its place among those of its peer (R366, R367). -/
theorem W.rdma_of_takes :
    w.rdma r write body =
      let a := w.fab.answerTo r
      let f0 := w.fab.rdmaIn r
      let f1 := f0.rdmaMet r
      let nak := NetOut.rdmaNak a.1 r.peer a.2 r.psn false
      if w.fab.rdmaOrder r = .gt then
        { w with fab := f0.emit (.rdmaNak a.1 r.peer a.2 (w.fab.qp (rdmaPartition r) (rdmaEntry r)).expect true) }
      else if write && w.fab.rdmaOrder r = .lt then { w with fab := f0.emit (.rdmaAck a.1 r.peer a.2 r.psn) }
      else if !w.fab.exports r write then { w with fab := (f1.dadd 0x5021 3 1).emit nak }
      else match ({ w with fab := f1 } : W).access (fun d => f1.rdmaTag r write d) r.address r.length write with
        | (g, .ok) => body a.1 a.2 g
        | (g, .bad x) => (g.contextFault (rdmaPartition r) x).map (fun f => f.emit nak)
        | (g, _) => g.map (fun f => f.emit nak) := by
  have own : (match r.secured with | some x => x.channel != rdmaPartition r | none => false) = false := by
    cases h : r.secured with
    | none => rfl
    | some x => exact bne_eq_false_iff_eq.2 (takes.channel x h)
  unfold W.rdma
  dsimp only
  rw [if_neg (by simp [takes.up, takes.intact]), if_neg (by simp [takes.secure]), if_neg (by simp [takes.there])]
  exact if_neg (fun h => Bool.false_ne_true (own.symm.trans h))

theorem W.rdma_of_gt (order : w.fab.rdmaOrder r = .gt) : w.rdma r write body = { w with
    fab := (w.fab.rdmaIn r).emit
      (.rdmaNak (w.fab.answerTo r).1 r.peer (w.fab.answerTo r).2 (w.fab.qp (rdmaPartition r) (rdmaEntry r)).expect true) } :=
  (W.rdma_of_takes takes).trans (if_pos order)

theorem W.rdma_of_lt (order : w.fab.rdmaOrder r = .lt) : w.rdma r true body = { w with
    fab := (w.fab.rdmaIn r).emit (.rdmaAck (w.fab.answerTo r).1 r.peer (w.fab.answerTo r).2 r.psn) } :=
  (W.rdma_of_takes takes).trans ((if_neg (by rw [order]; exact nofun)).trans (if_pos (by simp [order])))

theorem W.rdma_of_refused (order : w.fab.rdmaOrder r ≠ .gt) (place : write = true → w.fab.rdmaOrder r = .eq)
    (refused : w.fab.exports r write = false) : w.rdma r write body = { w with
    fab := (((w.fab.rdmaIn r).rdmaMet r).dadd 0x5021 3 1).emit
      (.rdmaNak (w.fab.answerTo r).1 r.peer (w.fab.answerTo r).2 r.psn false) } := by
  refine (W.rdma_of_takes takes).trans ((if_neg order).trans ((if_neg ?_).trans (if_pos (by simp [refused]))))
  cases write with
  | false => simp
  | true => simp [place rfl]

theorem W.rdma_of_granted {f2 : Fab} (order : w.fab.rdmaOrder r ≠ .gt) (place : write = true → w.fab.rdmaOrder r = .eq)
    (grant : w.fab.exports r write = true)
    (access : ({ w with fab := (w.fab.rdmaIn r).rdmaMet r } : W).access (fun d => ((w.fab.rdmaIn r).rdmaMet r).rdmaTag r write d)
      r.address r.length write = ({ w with fab := f2 }, .ok)) :
    w.rdma r write body = body (w.fab.answerTo r).1 (w.fab.answerTo r).2 { w with fab := f2 } := by
  refine (W.rdma_of_takes takes).trans ((if_neg order).trans ((if_neg ?_).trans ((if_neg (by simp [grant])).trans ?_)))
  · cases write with
    | false => simp
    | true => simp [place rfl]
  · rw [access]

end Order

/-- A queue pair is the one of its endpoint. -/
theorem Fab.qp_named (f : Fab) (p i : Nat) : (f.qp p i).partition = p ∧ (f.qp p i).entry = i := by
  unfold Fab.qp
  cases found : f.qps.find? (fun q => q.partition == p && q.entry == i) with
  | none => exact ⟨rfl, rfl⟩
  | some q =>
    have holds := List.find?_some (p := fun q : Qp => q.partition == p && q.entry == i) found
    simpa using holds

theorem Fab.qp_of_qps (same : g.qps = f.qps) (p i : Nat) : g.qp p i = f.qp p i := by
  rw [Fab.qp, same]
  rfl

theorem Fab.onQp_self (f : Fab) (p i : Nat) (k : Qp → Qp) (named : ∀ q, (k q).partition = q.partition ∧ (k q).entry = q.entry) :
    (f.onQp p i k).qp p i = k (f.qp p i) := by
  obtain ⟨partition, entry⟩ := f.qp_named p i
  have gone : (f.qps.filter (fun q => !(q.partition == p && q.entry == i))).find? (fun q => q.partition == p && q.entry == i) = none := by
    refine List.find?_eq_none.2 (fun q hq => ?_)
    have other := (List.mem_filter.1 hq).2
    rw [Bool.not_eq_true'] at other
    rw [other]
    exact Bool.false_ne_true
  show (List.find? _ (_ ++ [_])).getD _ = _
  rw [List.find?_append, gone]
  simp [(named _).1, (named _).2, partition, entry]

theorem Fab.onQp_other (f : Fab) {p q i j : Nat} (k : Qp → Qp) (named : ∀ q, (k q).partition = q.partition ∧ (k q).entry = q.entry)
    (other : (q, j) ≠ (p, i)) : (f.onQp p i k).qp q j = f.qp q j := by
  obtain ⟨partition, entry⟩ := f.qp_named p i
  have theirs : ((k (f.qp p i)).partition == q && (k (f.qp p i)).entry == j) = false := by
    rw [(named _).1, (named _).2, partition, entry, Bool.eq_false_iff, ne_eq, Bool.and_eq_true, beq_iff_eq, beq_iff_eq]
    exact fun h => other (Prod.ext h.1.symm h.2.symm)
  have kept : ∀ l : List Qp, (l.filter (fun q => !(q.partition == p && q.entry == i))).find? (fun r => r.partition == q && r.entry == j) =
      l.find? (fun r => r.partition == q && r.entry == j) := by
    intro l
    induction l with
    | nil => rfl
    | cons r l ih =>
      cases here : (r.partition == p && r.entry == i) with
      | false => rw [List.filter_cons_of_pos (by simp [here]), List.find?_cons, List.find?_cons, ih]
      | true =>
        have away : (r.partition == q && r.entry == j) = false := by
          rw [Bool.and_eq_true, beq_iff_eq, beq_iff_eq] at here
          rw [Bool.eq_false_iff, ne_eq, Bool.and_eq_true, beq_iff_eq, beq_iff_eq]
          exact fun h => other (Prod.ext (h.1.symm.trans here.1) (h.2.symm.trans here.2))
        rw [List.filter_cons_of_neg (by simp [here]), List.find?_cons, away, ih]
  show (List.find? _ (_ ++ [_])).getD _ = _
  rw [List.find?_append, kept]
  simp only [List.find?_cons, theirs, List.find?_nil, Option.or_none]
  rfl

/-- What the requests of an expected place leave of the device: the replay window, the queue pair, and what was sent. -/
theorem Fab.rdmaMet_eq (f : Fab) (r : RdmaReq) :
    ∃ sas qps, (f.rdmaIn r).rdmaMet r = { f with sas := sas, netOut := f.netOut ++ f.rdmaMark r, qps := qps } := by
  obtain ⟨sas, taken⟩ := f.rdmaIn_eq r
  rw [taken, Fab.rdmaMet]
  split
  · exact ⟨sas, _, rfl⟩
  · exact ⟨sas, f.qps, rfl⟩

theorem Fab.rdmaTag_source (f : Fab) (write : Bool) (d : Nat) (low : r.port < 32) : (f.rdmaTag r write d).source.2 = some (r.port / 4) := by
  have engine : rdmaEngine r = r.port / 4 := rfl
  unfold Tag.source Fab.rdmaTag
  dsimp only
  rw [if_neg (by omega), if_pos (by omega), engine]
  simp

theorem portUp_lt (up : f.portUp port = true) : port < 32 := by
  unfold Fab.portUp at up
  simp only [Bool.and_eq_true] at up
  exact Nat.blt_eq.mp up.1.1

theorem takesRequest_of_passes (intact : r.intact = true) (passes : Claims.passes s r.port r.secured (rdmaPartition r))
    (there : s.fab.atQp r = true) : s.fab.TakesRequest r :=
  ⟨intact, passes.1, passes.2.1, passes.2.2, there⟩

/-- Reaching a range does not depend on what was sent, on secure channels or on queue pairs. -/
theorem Fab.ReachedFrom.sent (reached : f.ReachedFrom p b a n) (sas : List Sa) (out : List NetOut) (qps : List Qp) :
    ({ f with sas := sas, netOut := out, qps := qps } : Fab).ReachedFrom p b a n :=
  ⟨reached.inside, reached.way, reached.sound, reached.calm⟩

/-- The access of a request that is granted and reaches its range, on the device `f1` that the request has met. -/
theorem access_of_granted {f1 : Fab} {sas : List Sa} {out : List NetOut} {qps : List Qp} {write : Bool}
    (met : f1 = { s.fab with sas := sas, netOut := out, qps := qps }) (low : r.port < 32)
    (reaches : Claims.reaches s (rdmaPartition r) (r.port / 4) [(r.address, r.length, write)]) :
    ∃ f2, ({ W.of s with fab := f1 } : W).access (fun d => f1.rdmaTag r write d) r.address r.length write =
        ({ W.of s with fab := f2 }, .ok) ∧ f2.netOut = out ∧ f2.qps = qps ∧
      f2.ReachedFrom (rdmaPartition r) (r.port / 4) r.address r.length ∧ (f2.noivosOf (rdmaPartition r)).running = none ∧
      ∀ x, ({ W.of s with fab := f2 } : W).load (rdmaPartition r) x = (W.of s).load (rdmaPartition r) x := by
  have reached := reachedFrom_of_reaches reaches (List.mem_singleton.2 rfl)
  have reached' : f1.ReachedFrom (rdmaPartition r) (r.port / 4) r.address r.length := by
    rw [met]
    exact reached.sent _ _ _
  obtain ⟨f2, access, served⟩ := W.access_from (w := { W.of s with fab := f1 }) (tag := fun d => f1.rdmaTag r write d) (fun _ => rfl)
    (fun d => f1.rdmaTag_source write d low) reached' write
  have rest : f2.unmetered = f1.unmetered := served.rest
  have netOut : f2.netOut = f1.netOut := (congrArg (·.netOut) rest :)
  have pairs : f2.qps = f1.qps := (congrArg (·.qps) rest :)
  have noivos : f2.noivos = f1.noivos := (congrArg (·.noivos) rest :)
  have loads : ∀ x, ({ W.of s with fab := f2 } : W).load (rdmaPartition r) x = ({ W.of s with fab := f1 } : W).load (rdmaPartition r) x :=
    fun x => W.load_served (w := { W.of s with fab := f1 }) served x
  refine ⟨f2, access, ?_, ?_, served.reachedFrom reached', ?_, fun x => (loads x).trans ?_⟩
  · rw [netOut, met]
  · rw [pairs, met]
  · rw [Fab.noivosOf, noivos, met]
    exact reaches.2.1
  · rw [met]
    exact W.load_congr rfl rfl (fun _ _ => rfl)

section Requests

variable (up : s.fab.phase = .running) (takes : s.fab.TakesRequest r)
include up takes

/-- A read that is granted is answered with the bytes. -/
theorem exec_roceReadRequest (grant : s.fab.exports r false = true) (order : s.fab.rdmaOrder r ≠ .gt)
    (reaches : Claims.reaches s (rdmaPartition r) (r.port / 4) [(r.address, r.length, false)]) :
    ∃ t, exec (.roceReadRequest r) s = .next t ∧ DeviceOnly s t ∧ t.fab.netOut = s.fab.netOut ++ s.fab.rdmaMark r ++
      [.rdmaData (s.fab.answerTo r).1 r.peer (s.fab.answerTo r).2 r.psn ((W.of s).loads (rdmaPartition r) r.address r.length)] := by
  obtain ⟨sas, qps, met⟩ := s.fab.rdmaMet_eq r
  obtain ⟨f2, access, sent, -, -, -, loads⟩ := access_of_granted met (portUp_lt takes.up) reaches
  have reads : ({ W.of s with fab := f2 } : W).loads (rdmaPartition r) r.address r.length =
      (W.of s).loads (rdmaPartition r) r.address r.length := W.loads_congr (fun x _ _ => loads x)
  let k : W → W := fun w => w.rdma r false (fun d q w =>
    w.map (fun f => f.emit (.rdmaData d r.peer q r.psn (w.loads (rdmaPartition r) r.address r.length))))
  have ran : k (W.of s) = { W.of s with fab := f2.emit (.rdmaData (s.fab.answerTo r).1 r.peer (s.fab.answerTo r).2 r.psn
      ((W.of s).loads (rdmaPartition r) r.address r.length)) } := by
    rw [← reads]
    exact W.rdma_of_granted (w := W.of s) (write := false) takes order (fun h => absurd h Bool.false_ne_true) grant access
  obtain ⟨t, next, only, fab⟩ := onMem_ends_of_fab up ran
  exact ⟨t, next, only, by rw [fab]; exact congrArg (· ++ _) sent⟩

/-- A write in its place that is granted stores its bytes, is acknowledged, and moves the PSN expected on. -/
theorem exec_roceWriteRequest (grant : s.fab.exports r true = true) (order : s.fab.rdmaOrder r = .eq)
    (reaches : Claims.reaches s (rdmaPartition r) (r.port / 4) [(r.address, r.length, true)]) (length : bytes.length = r.length) :
    ∃ t, exec (.roceWriteRequest r bytes) s = .next t ∧ t.sec = s.sec ∧
      Claims.MemKept s t (rdmaPartition r) [(r.address, r.length)] ∧ (W.of t).loads (rdmaPartition r) r.address r.length = bytes ∧
      t.fab.netOut = s.fab.netOut ++ s.fab.rdmaMark r ++ [.rdmaAck (s.fab.answerTo r).1 r.peer (s.fab.answerTo r).2 r.psn] ∧
      (t.fab.qp (rdmaPartition r) (rdmaEntry r)).expect =
        ((s.fab.qp (rdmaPartition r) (rdmaEntry r)).expect + rdmaPackets r.length) % 2 ^ 24 := by
  obtain ⟨sas, qps, met⟩ := s.fab.rdmaMet_eq r
  obtain ⟨f2, access, sent, pairs, reached, idle, loads⟩ := access_of_granted met (portUp_lt takes.up) reaches
  have padded : (List.range r.length).map (fun i => bytes.getD i 0) = bytes := by
    refine List.ext_getElem (by simp [length]) (fun i _ hi => ?_)
    simp [List.getElem?_eq_getElem hi]
  have sound : f2.faultless r.address bytes.length := by
    rw [length]
    exact reached.sound
  let w2 : W := { W.of s with fab := f2 }
  obtain ⟨keys, noivos, fab2⟩ := W.store_fab_eq (w := w2) (p := rdmaPartition r) (bytes := bytes) idle sound
  obtain ⟨loads2, stored⟩ := W.store_spec (w := w2) (p := rdmaPartition r) (a := r.address) (bytes := bytes) idle
    (fun l hl => (sound l hl).1)
  let k : W → W := fun w => w.rdma r true (fun d q w =>
    (w.store (rdmaPartition r) r.address ((List.range r.length).map (fun i => bytes.getD i 0))).map (fun f =>
      f.emit (.rdmaAck d r.peer q r.psn)))
  have ran : k (W.of s) = (w2.store (rdmaPartition r) r.address bytes).map (fun f =>
      f.emit (.rdmaAck (s.fab.answerTo r).1 r.peer (s.fab.answerTo r).2 r.psn)) := by
    refine (W.rdma_of_granted (w := W.of s) (write := true) takes (by rw [show (W.of s).fab = s.fab from rfl, order]; exact nofun) (fun _ => order) grant access).trans ?_
    rw [padded]
    rfl
  obtain ⟨t, next, ended⟩ := onMem_ends up ran stored.faults stored.waits stored.mem stored.sec
  have reads : ∀ x, (W.of t).load (rdmaPartition r) x = (w2.store (rdmaPartition r) r.address bytes).load (rdmaPartition r) x :=
    fun x => (ended.load _ x).trans (W.load_congr rfl rfl (fun _ _ => rfl))
  refine ⟨t, next, ended.sec, fun x away => ?_, ?_, ?_, ?_⟩
  · have outside := away _ (List.mem_singleton.2 rfl)
    rw [reads, loads2, if_neg (by rw [length]; dsimp only at outside; omega)]
    exact loads x
  · rw [← length]
    refine W.loads_eq (fun x low high => ?_)
    rw [reads, loads2, if_pos ⟨low, high⟩]
  · rw [ended.fab]
    refine congrArg (· ++ _) (?_ : (w2.store (rdmaPartition r) r.address bytes).fab.netOut = _)
    exact (congrArg Fab.netOut fab2).trans sent
  · have qps' : t.fab.qps = ((s.fab.rdmaIn r).rdmaMet r).qps := by
      rw [ended.fab, met]
      exact (congrArg Fab.qps fab2).trans pairs
    have place : (s.fab.rdmaIn r).rdmaMet r = (s.fab.rdmaIn r).onQp (rdmaPartition r) (rdmaEntry r)
        (fun q => { q with expect := (q.expect + rdmaPackets r.length) % 2 ^ 24 }) := by
      obtain ⟨sas, taken⟩ := s.fab.rdmaIn_eq r
      refine if_pos ?_
      rw [taken]
      exact order
    rw [place] at qps'
    have moved := Fab.onQp_self (s.fab.rdmaIn r) (rdmaPartition r) (rdmaEntry r)
      (fun q => { q with expect := (q.expect + rdmaPackets r.length) % 2 ^ 24 }) (fun _ => ⟨rfl, rfl⟩)
    have same : (s.fab.rdmaIn r).qp (rdmaPartition r) (rdmaEntry r) = s.fab.qp (rdmaPartition r) (rdmaEntry r) := by
      obtain ⟨sas, taken⟩ := s.fab.rdmaIn_eq r
      rw [taken]
      rfl
    rw [same] at moved
    rw [Fab.qp_of_qps qps' _ _, moved]

/-- A write met before is acknowledged and not made again. -/
theorem exec_roceWriteRequest_met (order : s.fab.rdmaOrder r = .lt) :
    ∃ t, exec (.roceWriteRequest r bytes) s = .next t ∧ DeviceOnly s t ∧ t.fab.qps = s.fab.qps ∧
      t.fab.netOut = s.fab.netOut ++ s.fab.rdmaMark r ++ [.rdmaAck (s.fab.answerTo r).1 r.peer (s.fab.answerTo r).2 r.psn] := by
  obtain ⟨sas, taken⟩ := s.fab.rdmaIn_eq r
  obtain ⟨t, next, only, fab⟩ := onMem_ends_of_fab (k := fun w => w.rdma r true (fun d q w =>
    (w.store (rdmaPartition r) r.address ((List.range r.length).map (fun i => bytes.getD i 0))).map (fun f =>
      f.emit (.rdmaAck d r.peer q r.psn)))) up (W.rdma_of_lt (w := W.of s) takes order)
  rw [show (W.of s).fab = s.fab from rfl, taken] at fab
  exact ⟨t, next, only, by rw [fab]; rfl, by rw [fab]; rfl⟩

/-- A request ahead of its place is answered with the PSN expected. -/
theorem exec_roceRequest_ahead (order : s.fab.rdmaOrder r = .gt) (write : Bool) :
    ∃ t, exec (if write then .roceWriteRequest r bytes else .roceReadRequest r) s = .next t ∧ DeviceOnly s t ∧
      t.fab.qps = s.fab.qps ∧ t.fab.netOut = s.fab.netOut ++ s.fab.rdmaMark r ++
        [.rdmaNak (s.fab.answerTo r).1 r.peer (s.fab.answerTo r).2 (s.fab.qp (rdmaPartition r) (rdmaEntry r)).expect true] := by
  have answers : ∀ (c : Instr) (body : Dress → Nat → W → W), exec c s = onMem s (fun w => w.rdma r write body) →
      ∃ t, exec c s = .next t ∧ DeviceOnly s t ∧ t.fab.qps = s.fab.qps ∧ t.fab.netOut = s.fab.netOut ++ s.fab.rdmaMark r ++
        [.rdmaNak (s.fab.answerTo r).1 r.peer (s.fab.answerTo r).2 (s.fab.qp (rdmaPartition r) (rdmaEntry r)).expect true] := by
    intro c body lift
    obtain ⟨sas, taken⟩ := s.fab.rdmaIn_eq r
    obtain ⟨t, next, only, fab⟩ := onMem_ends_of_fab (k := fun w => w.rdma r write body) up (W.rdma_of_gt (w := W.of s) takes order)
    rw [show (W.of s).fab = s.fab from rfl, taken] at fab
    exact ⟨t, lift.trans next, only, by rw [fab]; rfl, by rw [fab]; rfl⟩
  cases write with
  | false => exact answers (.roceReadRequest r) _ rfl
  | true => exact answers (.roceWriteRequest r bytes) _ rfl

/-- A request that no export entry grants is refused and counted. -/
theorem exec_roceRequest_refused (write : Bool) (refused : s.fab.exports r write = false) (order : s.fab.rdmaOrder r ≠ .gt)
    (place : write = true → s.fab.rdmaOrder r = .eq) :
    ∃ t, exec (if write then .roceWriteRequest r bytes else .roceReadRequest r) s = .next t ∧ DeviceOnly s t ∧
      t.fab.netOut = s.fab.netOut ++ s.fab.rdmaMark r ++ [.rdmaNak (s.fab.answerTo r).1 r.peer (s.fab.answerTo r).2 r.psn false] ∧
      t.fab.dget 0x5021 3 = min (s.fab.dget 0x5021 3 + 1) (2 ^ 32 - 1) := by
  have answers : ∀ (c : Instr) (body : Dress → Nat → W → W), exec c s = onMem s (fun w => w.rdma r write body) →
      ∃ t, exec c s = .next t ∧ DeviceOnly s t ∧
        t.fab.netOut = s.fab.netOut ++ s.fab.rdmaMark r ++ [.rdmaNak (s.fab.answerTo r).1 r.peer (s.fab.answerTo r).2 r.psn false] ∧
        t.fab.dget 0x5021 3 = min (s.fab.dget 0x5021 3 + 1) (2 ^ 32 - 1) := by
    intro c body lift
    obtain ⟨sas, qps, met⟩ := s.fab.rdmaMet_eq r
    obtain ⟨t, next, only, fab⟩ := onMem_ends_of_fab (k := fun w => w.rdma r write body) up
      (W.rdma_of_refused (w := W.of s) takes order place refused)
    rw [show (W.of s).fab = s.fab from rfl, met] at fab
    refine ⟨t, lift.trans next, only, by rw [fab]; rfl, ?_⟩
    rw [fab]
    exact Fab.dget_dadd_same _ _ _ _
  cases write with
  | false => exact answers (.roceReadRequest r) _ rfl
  | true => exact answers (.roceWriteRequest r bytes) _ rfl

end Requests

/-! ### Queue pairs -/

/-- Sending requests again sends one packet for each. -/
theorem Fab.foldl_rdmaPacket (p i : Nat) (l : List RdmaOut) (f : Fab) :
    ∃ out, l.foldl (fun g r => g.rdmaPacket p i r) f = { f with netOut := f.netOut ++ out } ∧ out.length = l.length := by
  induction l generalizing f with
  | nil => exact ⟨[], congrArg (fun l => ({ f with netOut := l } : Fab)) (List.append_nil _).symm, rfl⟩
  | cons r l ih =>
    obtain ⟨out, sent, length⟩ := ih (f.rdmaPacket p i r)
    have one : ∃ o, f.rdmaPacket p i r = { f with netOut := f.netOut ++ [o] } := ⟨_, rfl⟩
    obtain ⟨o, packet⟩ := one
    refine ⟨o :: out, ?_, by rw [List.length_cons, List.length_cons, length]⟩
    rw [List.foldl_cons, sent, packet]
    exact congrArg (fun l => ({ f with netOut := l } : Fab)) (List.append_assoc _ _ _)

theorem exec_roceAckTimeout_again (up : s.fab.phase = .running) (there : s.fab.hasQp p i = true) (lives : (s.fab.qp p i).failed = false)
    (few : (s.fab.qp p i).retries < 7) (sent : (s.fab.qp p i).sent ≠ []) :
    ∃ t, exec (.roceAckTimeout p i) s = .next t ∧ DeviceOnly s t ∧
      t.fab.qp p i = { s.fab.qp p i with retries := (s.fab.qp p i).retries + 1 } ∧
      (∃ l, t.fab.netOut = s.fab.netOut ++ l ∧ l.length = (s.fab.qp p i).sent.length) ∧ ∀ j, j ≠ i → t.fab.qp p j = s.fab.qp p j := by
  let again : Qp → Qp := fun q => { q with retries := q.retries + 1 }
  have self := s.fab.onQp_self p i again (fun _ => ⟨rfl, rfl⟩)
  obtain ⟨out, packets, length⟩ := Fab.foldl_rdmaPacket p i ((s.fab.onQp p i again).qp p i).sent (s.fab.onQp p i again)
  rw [self] at length
  have ran : roceTimeout p i (W.of s) = { W.of s with fab := { s.fab.onQp p i again with netOut := (s.fab.onQp p i again).netOut ++ out } } := by
    unfold roceTimeout
    dsimp only
    rw [if_neg (by simp [there, sent, show (W.of s).fab = s.fab from rfl])]
    refine (if_pos ⟨few, by simp [lives, show (W.of s).fab = s.fab from rfl]⟩).trans ?_
    exact congrArg (fun f => { W.of s with fab := f }) packets
  obtain ⟨t, next, only, fab⟩ := onMem_ends_of_fab up ran
  refine ⟨t, next, only, ?_, ⟨out, by rw [fab]; rfl, length⟩, fun j other => ?_⟩
  · rw [fab]
    exact self
  · rw [fab]
    exact s.fab.onQp_other again (fun _ => ⟨rfl, rfl⟩) (fun h => other (Prod.mk.inj h).2)

/-! #### The end of a queue pair with nothing else in flight -/

/-- Nothing in flight: the ports have nothing to inject. -/
theorem Fab.pump_of_quiet (clusters : f.clusters = []) (txns : f.txns = []) (waiting : f.waiting = []) : f.pump = f := by
  have hops : f.hops = f := by
    unfold Fab.hops
    rw [txns]
    rfl
  have idle : f.injectNext = none := by
    unfold Fab.injectNext
    rw [waiting, clusters]
    rfl
  have fuel : ∀ n, Fab.pumpFuel n f = f := by
    intro n
    cases n with
    | zero => rfl
    | succ n =>
      unfold Fab.pumpFuel
      rw [idle]
  rw [Fab.pump, hops, fuel]

theorem W.flow_of_quiet (clusters : w.fab.clusters = []) (txns : w.fab.txns = []) (waiting : w.fab.waiting = []) : w.flow = w := by
  have still : w.map Fab.pump = w := by
    unfold W.map
    rw [Fab.pump_of_quiet clusters txns waiting]
  unfold W.flow
  rw [still]
  dsimp only
  rw [clusters]
  rfl

theorem Fab.failStreams_of_quiet (clusters : f.clusters = []) (txns : f.txns = []) (p i : Nat) : f.failStreams p i = f := by
  unfold Fab.failStreams
  rw [txns]
  dsimp only [List.filter_nil, List.foldl_nil]
  rw [clusters]
  rfl

/-- A fold of steps that do nothing. -/
theorem foldl_still {σ α : Type} {step : σ → α → σ} {x : σ} (still : ∀ a, step x a = x) (l : List α) : l.foldl step x = x := by
  induction l with
  | nil => rfl
  | cons a l ih => rw [List.foldl_cons, still, ih]

/-- The requests of an endpoint fail where nothing of the device used it (R367). -/
theorem W.endpointFails_of_quiet (clusters : w.fab.clusters = []) (txns : w.fab.txns = []) (waiting : w.fab.waiting = [])
    (ductus : w.fab.ductus = []) (idle : (w.fab.noivosOf p).running = none) : w.endpointFails p i =
      { w with fab := w.fab.onQp p i (fun q => { q with failed := true, retries := 0, sent := [], waiting := [] }) } := by
  let failed : Qp → Qp := fun q => { q with failed := true, retries := 0, sent := [], waiting := [] }
  let v : W := { w with fab := w.fab.onQp p i failed }
  have first : (w.map (fun f => (f.onQp p i failed).failStreams p i)).flow = v := by
    have still : w.map (fun f => (f.onQp p i failed).failStreams p i) = v :=
      congrArg (fun f => ({ w with fab := f } : W)) (Fab.failStreams_of_quiet (f := w.fab.onQp p i failed) clusters txns p i)
    rw [still]
    exact W.flow_of_quiet (w := v) clusters txns waiting
  have unit : ∀ b, v.fab.ductusOf b = .idle := by
    intro b
    show Tbl.get w.fab.ductus .idle b = _
    rw [ductus]
    rfl
  have noMove := foldl_still (x := v) (step := fun (x : W) b => match (x.fab.ductusOf b).move with
      | some m => if m.entry.partition = p ∧ (m.oldTier = 4 ∨ m.newTier = 4) ∧ m.peerWindow = i then x.endMove b .endpointDown else x
      | none => x) (fun b => by rw [unit b]; rfl) (List.range 8)
  have noJob := foldl_still (x := v) (step := fun (x : W) b => match (x.fab.ductusOf b).active.find? p with
      | some j => if jobKind j.desc = 2 ∧ jobEndpoint j.desc = i then (x.breakJob j).map (fun f => f.endActive b j 0x0A) else x
      | none => x) (fun b => by rw [unit b]; rfl) (List.range 8)
  have noTarget := foldl_still (x := v.fab) (step := fun (g : Fab) (e : Nat × Nat) =>
      if e.2 = i then g.failTarget p e.1 feedEndpointDown else g) (fun e => by
    have running : (v.fab.noivosOf p).running = none := idle
    unfold Fab.failTarget
    rw [running]
    exact ite_self _) (v.fab.noivosTargets p)
  unfold W.endpointFails
  rw [show (fun f : Fab => (f.onQp p i fun q => { q with failed := true, retries := 0, sent := [], waiting := [] }).failStreams p i) =
    fun f => (f.onQp p i failed).failStreams p i from rfl, first]
  refine (congrArg (W.map · _) ((congrArg (List.foldl _ · _) noMove).trans noJob)).trans ?_
  exact congrArg (fun f => ({ v with fab := f } : W)) noTarget

theorem exec_roceAckTimeout_fails (up : s.fab.phase = .running) (there : s.fab.hasQp p i = true) (sent : (s.fab.qp p i).sent ≠ [])
    (spent : (s.fab.qp p i).failed = true ∨ 7 ≤ (s.fab.qp p i).retries) (clusters : s.fab.clusters = []) (txns : s.fab.txns = [])
    (waiting : s.fab.waiting = []) (ductus : s.fab.ductus = []) (idle : (s.fab.noivosOf p).running = none) :
    ∃ t, exec (.roceAckTimeout p i) s = .next t ∧ DeviceOnly s t ∧
      t.fab.qp p i = { s.fab.qp p i with failed := true, retries := 0, sent := [], waiting := [] } := by
  let failed : Qp → Qp := fun q => { q with failed := true, retries := 0, sent := [], waiting := [] }
  have ran : roceTimeout p i (W.of s) = { W.of s with fab := s.fab.onQp p i failed } := by
    unfold roceTimeout
    dsimp only
    rw [if_neg (by simp [there, sent, show (W.of s).fab = s.fab from rfl])]
    refine (if_neg ?_).trans (W.endpointFails_of_quiet (w := W.of s) clusters txns waiting ductus idle)
    rintro ⟨few, lives⟩
    rw [show (W.of s).fab = s.fab from rfl] at few lives
    rcases spent with failed | many
    · simp [failed] at lives
    · omega
  obtain ⟨t, next, only, fab⟩ := onMem_ends_of_fab up ran
  exact ⟨t, next, only, by rw [fab]; exact s.fab.onQp_self p i failed (fun _ => ⟨rfl, rfl⟩)⟩

/-! ### Frames that a port takes or drops -/

variable {q : Option Secured} {channel : Nat} {body : Fab → Fab}

theorem Fab.framed_of_passes (passes : Claims.passes s port q channel) : s.fab.framed port q channel body = body (s.fab.received port q) := by
  obtain ⟨up, secure, own⟩ := passes
  unfold Fab.framed
  rw [if_neg (by simp [up]), secure]
  refine if_neg ?_
  cases q with
  | none => exact Bool.false_ne_true
  | some x => simp [own x rfl]

/-- A frame that its port does not take is counted (R369). -/
theorem unprotected_of_framed {c : Instr} (ran : exec c s = .next { s with fab := s.fab.framed port q channel body })
    (open_ : s.fab.portUp port = true) (refused : s.fab.secureIn port q = false) : Claims.Unprotected s c := by
  have dropped : s.fab.framed port q channel body = s.fab.dadd 0x5021 2 1 := by
    unfold Fab.framed
    rw [if_neg (by simp [open_]), if_pos (by simp [refused])]
  rw [dropped] at ran
  exact ⟨_, ran, ⟨rfl, rfl, rfl⟩, rfl, rfl, Fab.dget_dadd_same _ _ _ _⟩

theorem cnp_claims (up : s.fab.phase = .running) (there : s.fab.hasQp p i = true) (port : Nat) (x : Option Secured) :
    (Claims.passes s port x p → ∃ t, exec (.cnp ⟨p, port, x⟩ i) s = .next t ∧ DeviceOnly s t ∧
      t.fab.qp p i = { s.fab.qp p i with rate := max 1 ((s.fab.qp p i).rate / 2) } ∧ ∀ j, j ≠ i → t.fab.qp p j = s.fab.qp p j) ∧
    (s.fab.portUp port = true → s.fab.secureIn port x = false → Claims.Unprotected s (.cnp ⟨p, port, x⟩ i)) := by
  let slower : Qp → Qp := fun q => { q with rate := halved q.rate }
  have ran := onFab_running (fun f => f.framed port x p (fun f => if f.hasQp p i then f.onQp p i slower else f)) up
  refine ⟨fun passes => ?_, fun open_ refused => unprotected_of_framed ran open_ refused⟩
  obtain ⟨sas, taken⟩ := s.fab.received_eq port x
  have lowered : (s.fab.framed port x p fun f => if f.hasQp p i then f.onQp p i slower else f) =
      ({ s.fab with sas := sas } : Fab).onQp p i slower := by
    rw [Fab.framed_of_passes passes, taken]
    exact if_pos there
  rw [lowered] at ran
  refine ⟨_, ran, ⟨rfl, rfl, rfl⟩, ?_, fun j other => ?_⟩
  · exact Fab.onQp_self { s.fab with sas := sas } p i slower (fun _ => ⟨rfl, rfl⟩)
  · exact Fab.onQp_other { s.fab with sas := sas } slower (fun _ => ⟨rfl, rfl⟩) (fun h => other (Prod.mk.inj h).2)

/-! ### Neighbours -/

/-- Receiving a frame leaves the secure associations that this device sends with. -/
theorem Fab.txSa_received (f : Fab) (port : Nat) (x : Option Secured) (n channel : Nat) : (f.received port x).txSa n channel = f.txSa n channel := by
  unfold Fab.received
  split
  · rfl
  · next y =>
    let taken : Sa → Sa := fun a => if a.takes port y then { a with lowest := max a.lowest (y.pn + 1) } else a
    have same : ∀ a, (taken a).channel = a.channel ∧ (taken a).port = a.port ∧ (taken a).dir = a.dir ∧ (taken a).an = a.an := by
      intro a
      rcases Bool.eq_false_or_eq_true (a.takes port y) with fits | fits
      · rw [show taken a = { a with lowest := max a.lowest (y.pn + 1) } from if_pos fits]
        exact ⟨rfl, rfl, rfl, rfl⟩
      · rw [show taken a = a from if_neg (by rw [fits]; exact Bool.false_ne_true)]
        exact ⟨rfl, rfl, rfl, rfl⟩
    have chosen : (fun s : Sa => s.channel == channel && s.port == n && s.dir != 1) ∘ taken =
        fun s => s.channel == channel && s.port == n && s.dir != 1 := by
      funext a
      obtain ⟨channel', port', dir, -⟩ := same a
      simp only [Function.comp_apply, channel', port', dir]
    show Option.map (·.an) (((f.sas.map taken).filter _).getLast?) = Option.map (·.an) ((f.sas.filter _).getLast?)
    rw [List.filter_map, chosen, List.getLast?_map, Option.map_map]
    exact congrArg (Option.map · _) (funext fun a => (same a).2.2.2)

/-- What a port's frame for an own address is answered with. -/
theorem exec_asked {c : Instr} {target : Nat} {answer : Nat → Option Nat → NetOut} (up : s.fab.phase = .running)
    (lift : exec c s = onRead s (fun w => w.fab.asked w.managementAddress ⟨port, q⟩ target answer)) (passes : Claims.passes s port q 16) :
    exec c s = .next { s with fab := { s.fab.received port q with netOut := s.fab.netOut ++
      (if target = s.fab.engineAddress (port / 4) ∧ s.fab.protects port 16 = true then
        [answer (s.fab.dget 0x5006 (port + 1)) (if s.fab.dget 0x5008 (port + 1) = 0 then none else s.fab.txSa port 16)] else []) } } := by
  have low := portUp_lt passes.1
  obtain ⟨sas, taken⟩ := s.fab.received_eq port q
  have sends : ∀ n channel, (s.fab.received port q).txSa n channel = s.fab.txSa n channel := s.fab.txSa_received port q
  have entries : ∀ i j, (s.fab.received port q).dget i j = s.fab.dget i j := by
    rw [taken]
    exact fun _ _ => rfl
  have protects : (s.fab.received port q).protects port 16 = s.fab.protects port 16 := by
    rw [Fab.protects, Fab.protects, sends, entries]
  have own : (s.fab.received port q).engineAddress (port / 4) = s.fab.engineAddress (port / 4) := entries _ _
  have quiet : (s.fab.received port q).netOut = s.fab.netOut := by rw [taken]
  refine (lift.trans (onRead_running _ up)).trans ?_
  refine congrArg (fun f => Host.Outcome.next { s with fab := f }) ?_
  rw [Fab.asked, if_neg (show port ≠ 32 by omega), show (W.of s).fab = s.fab from rfl, Fab.framed_of_passes passes, own, protects, entries, entries,
    sends]
  dsimp only
  split
  · rw [← quiet]
    rfl
  · rw [← quiet, List.append_nil]

theorem neighbour_claims (up : s.fab.phase = .running) (passes : Claims.passes s port q 16) (dest : Nat) :
    let own := s.fab.engineAddress (port / 4)
    let hop := s.fab.dget 0x5006 (port + 1)
    let an := if s.fab.dget 0x5008 (port + 1) = 0 then none else s.fab.txSa port 16
    let after := fun (l : List NetOut) => Host.Outcome.next
      { s with fab := { s.fab.received port q with netOut := s.fab.netOut ++ l } }
    (s.fab.protects port 16 = true →
      exec (.neighbourSolicitation ⟨port, q⟩ own) s = after [.neighbourAdvert port hop own an] ∧
      exec (.echoRequest ⟨port, q⟩ own dest) s = after [.echoReply port hop own dest an]) ∧
    ∀ a, (a ≠ own ∨ s.fab.protects port 16 = false) →
      exec (.neighbourSolicitation ⟨port, q⟩ a) s = after [] ∧ exec (.echoRequest ⟨port, q⟩ a dest) s = after [] := by
  intro own hop an after
  have solicited := fun a => exec_asked (c := .neighbourSolicitation ⟨port, q⟩ a) up rfl passes
  have echoed := fun a => exec_asked (c := .echoRequest ⟨port, q⟩ a dest) up rfl passes
  refine ⟨fun protects => ?_, fun a refused => ?_⟩
  · have asks : own = s.fab.engineAddress (port / 4) ∧ s.fab.protects port 16 = true := ⟨rfl, protects⟩
    exact ⟨(solicited own).trans (by rw [if_pos asks]), (echoed own).trans (by rw [if_pos asks])⟩
  · have silent : ¬(a = s.fab.engineAddress (port / 4) ∧ s.fab.protects port 16 = true) := by
      rintro ⟨same, protects⟩
      rcases refused with other | bare
      · exact other same
      · rw [protects] at bare
        cases bare
    exact ⟨(solicited a).trans (by rw [if_neg silent]), (echoed a).trans (by rw [if_neg silent])⟩

theorem neighbour_unprotected (up : s.fab.phase = .running) (open_ : s.fab.portUp port = true) (refused : s.fab.secureIn port q = false)
    (a dest : Nat) : Claims.Unprotected s (.neighbourSolicitation ⟨port, q⟩ a) ∧ Claims.Unprotected s (.echoRequest ⟨port, q⟩ a dest) := by
  have low := portUp_lt open_
  have asked : ∀ (c : Instr) (answer : Nat → Option Nat → NetOut),
      exec c s = onRead s (fun w => w.fab.asked w.managementAddress ⟨port, q⟩ a answer) → Claims.Unprotected s c := by
    intro c answer lift
    have framed : s.fab.asked (W.of s).managementAddress ⟨port, q⟩ a answer = s.fab.framed port q 16 (fun f =>
        if a = f.engineAddress (port / 4) ∧ f.protects port 16 then
          f.emit (answer (f.dget 0x5006 (port + 1)) (if f.dget 0x5008 (port + 1) = 0 then none else f.txSa port 16)) else f) :=
      if_neg (show port ≠ 32 by omega)
    have ran := (lift.trans (onRead_running _ up)).trans (congrArg (fun f => Host.Outcome.next { s with fab := f }) framed)
    exact unprotected_of_framed ran open_ refused
  exact ⟨asked _ _ rfl, asked _ _ rfl⟩

theorem management_claims (up : s.fab.phase = .running) (x : Option Secured) (dest : Nat) :
    let own := (W.of s).managementAddress
    let after := fun (o : NetOut) => Host.Outcome.next { s with fab := { s.fab with netOut := s.fab.netOut ++ [o] } }
    exec (.neighbourSolicitation ⟨32, x⟩ own) s = after (.neighbourAdvert 32 0 own none) ∧
    exec (.echoRequest ⟨32, x⟩ own dest) s = after (.echoReply 32 0 own dest none) ∧
    ∀ a, a ≠ own → exec (.neighbourSolicitation ⟨32, x⟩ a) s = .next s ∧ exec (.echoRequest ⟨32, x⟩ a dest) s = .next s := by
  intro own after
  have asked : ∀ (c : Instr) (a : Nat) (answer : Nat → Option Nat → NetOut),
      exec c s = onRead s (fun w => w.fab.asked w.managementAddress ⟨32, x⟩ a answer) →
      exec c s = .next { s with fab := if a = own then s.fab.emit (answer 0 none) else s.fab } :=
    fun c a answer lift => lift.trans (onRead_running _ up)
  refine ⟨?_, ?_, fun a other => ⟨?_, ?_⟩⟩
  · exact (asked _ own (fun hop an => .neighbourAdvert 32 hop own an) rfl).trans (by rw [if_pos rfl]; rfl)
  · exact (asked _ own (fun hop an => .echoReply 32 hop own dest an) rfl).trans (by rw [if_pos rfl]; rfl)
  · exact (asked _ a (fun hop an => .neighbourAdvert 32 hop a an) rfl).trans (by rw [if_neg other])
  · exact (asked _ a (fun hop an => .echoReply 32 hop a dest an) rfl).trans (by rw [if_neg other])

/-! ### PTP -/

/-- Announcing the time only sends. -/
theorem Fab.ptpAnnounce_eq (f : Fab) (n : Nat) : ∃ out, f.ptpAnnounce n = { f with netOut := out } := by
  unfold Fab.ptpAnnounce
  split
  · exact ⟨_, rfl⟩
  · exact ⟨_, rfl⟩

theorem Fab.foldl_ptpAnnounce (l : List Nat) (f : Fab) : ∃ out, l.foldl Fab.ptpAnnounce f = { f with netOut := out } := by
  induction l generalizing f with
  | nil => exact ⟨_, rfl⟩
  | cons n l ih =>
    obtain ⟨out, announced⟩ := f.ptpAnnounce_eq n
    rw [List.foldl_cons, announced]
    exact (ih { f with netOut := out }).imp (fun _ h => h)

theorem ptp_claims (up : s.fab.phase = .running) (port : Nat) (off : Int) (lock : Bool) :
    let domain := s.fab.dget 0x5030 1
    (s.fab.dget 0x5030 2 = 1 → s.fab.ptpPort (port / 4) = some port →
      ∃ t, exec (.ptpMessage ⟨port, domain, false⟩ off lock) s = .next t ∧ DeviceOnly s t ∧
      t.fab.dget 0x5030 3 = (BitVec.ofInt 32 off).toNat ∧ t.fab.dget 0x5030 4 = (if lock then 2 else 1) ∧
      t.fab.timeBase = (((s.fab.timeBase : Int) - off) % 2 ^ 64).toNat) ∧
    (s.fab.dget 0x5030 2 ≠ 0 → s.fab.ptpPort (port / 4) = some port →
      ∃ t, exec (.ptpMessage ⟨port, domain, true⟩ off lock) s = .next t ∧ DeviceOnly s t ∧
      t.fab = { s.fab with netOut := s.fab.netOut ++ [.ptp port domain .delayResponse] }) ∧
    (s.fab.dget 0x5030 2 ≠ 1 → ∀ d, exec (.ptpMessage ⟨port, d, false⟩ off lock) s = .next s) ∧
    (s.fab.dget 0x5030 2 = 0 → ∀ d, exec (.ptpMessage ⟨port, d, true⟩ off lock) s = .next s) ∧
    ∀ d r, d ≠ domain → exec (.ptpMessage ⟨port, d, r⟩ off lock) s = .next s := by
  intro domain
  have listens : s.fab.ptpPort (port / 4) = some port → ¬(s.fab.ptpPort (port / 4) ≠ some port ∨ domain ≠ s.fab.dget 0x5030 1) :=
    fun here h => h.elim (fun away => away here) (fun other => other rfl)
  refine ⟨fun role here => ?_, fun role here => ?_, fun role d => ?_, fun role d => ?_, fun d r other => ?_⟩
  · let f1 := ((s.fab.dset 0x5030 3 (BitVec.ofInt 32 off).toNat).dset 0x5030 4 (if lock then 2 else 1)).stepTime (-off)
    obtain ⟨out, announced⟩ := Fab.foldl_ptpAnnounce ((List.range 8).filter (· != port / 4)) (f1.emit (.ptp port domain .delayRequest))
    have ran : ptpMessage port domain false off lock s.fab = { f1.emit (.ptp port domain .delayRequest) with netOut := out } :=
      ((if_neg (listens here)).trans ((if_neg Bool.false_ne_true).trans (if_pos role))).trans announced
    obtain ⟨t, next, only, fab⟩ := onFab_ends (k := ptpMessage port domain false off lock) up ran
    refine ⟨t, next, only, ?_, ?_, ?_⟩ <;> rw [fab]
    · exact (Fab.dget_dset_ne _ (by decide)).trans (Fab.dget_dset_same _ _ _ _)
    · exact Fab.dget_dset_same _ _ _ _
    · exact congrArg (fun z : Int => (z % 2 ^ 64).toNat) (Int.sub_eq_add_neg).symm
  · exact onFab_ends (k := ptpMessage port domain true off lock) up ((if_neg (listens here)).trans ((if_pos rfl).trans (if_neg role)))
  · refine onFab_stays (k := ptpMessage port d false off lock) up ?_
    exact (ite_congr rfl (fun _ => rfl) (fun _ => (if_neg Bool.false_ne_true).trans (if_neg role))).trans (ite_self _)
  · refine onFab_stays (k := ptpMessage port d true off lock) up ?_
    exact (ite_congr rfl (fun _ => rfl) (fun _ => (if_pos rfl).trans (if_pos role))).trans (ite_self _)
  · exact onFab_stays (k := ptpMessage port d r off lock) up (if_pos (.inr other))

/-- Settles O41: requests, queue pairs, neighbours and the time. -/
theorem rdmaAndNeighboursAreServed : Obligations.RdmaAndNeighboursAreServed := by
  unfold Obligations.RdmaAndNeighboursAreServed
  refine ⟨⟨?_, ?_⟩, ?_, fun s port x a dest up open_ refused => neighbour_unprotected up open_ refused a dest,
    fun s x dest => ?_, fun s port off lock => ?_⟩
  · intro s r bytes p a out order up intact passes there
    have takes := takesRequest_of_passes intact passes there
    exact ⟨fun grant order reaches => exec_roceReadRequest up takes grant order reaches,
      fun grant order reaches length => exec_roceWriteRequest up takes grant order reaches length,
      fun order => exec_roceWriteRequest_met up takes order, fun order write => exec_roceRequest_ahead up takes order write,
      fun write refused order place => exec_roceRequest_refused up takes write refused order place⟩
  · intro s p i q up there
    exact ⟨fun lives few sent => exec_roceAckTimeout_again up there lives few sent,
      fun sent spent clusters txns waiting ductus idle =>
        exec_roceAckTimeout_fails up there sent spent clusters txns waiting ductus idle,
      fun port x => cnp_claims up there port x⟩
  · intro s port x dest own hop an after up passes
    exact neighbour_claims up passes dest
  · intro own after up
    exact management_claims up x dest
  · intro domain up
    exact ptp_claims up port off lock

end Sys2Proof.Machine
end

section
/-! PROOFS. Frames (O48): those of the management port and of the in-band path joining the agent's queue, reads and writes at its head, stray
frames, and the TAP (R410 to R420, R493). -/

namespace Sys2Proof.Machine

open Sys2Proof Sys2Proof.Safety

variable {s t : State} {rq : Requester} {fr : Frame} {f g : Fab} {d : Desc} {src tag key st : Nat} {rest : List (Requester × Frame)}
  {secured : Option Secured}

/-! ### Frames that arrive -/

theorem onRead_ends {k : W → Fab} (up : s.fab.phase = .running) (ran : k (W.of s) = g) :
    ∃ t, onRead s k = .next t ∧ DeviceOnly s t ∧ t.fab = g :=
  ⟨_, onRead_running k up, ⟨rfl, rfl, rfl⟩, ran⟩

/-- A frame joins a queue that has room (R417). -/
theorem Fab.arrive_of_room (room : (f.agent.queue.filter (fun x =>
      [Transport.management, .inBand, .cascade].contains x.1.transport)).length < 64) (rq : Requester) (fr : Frame) :
    f.arrive rq fr = f.withAgent { f.agent with queue := f.agent.queue ++ [(rq, fr)] } := by
  unfold Fab.arrive
  extract_lets udp
  exact if_pos room

theorem find?_replayAfter (l : List (Nat × Nat)) (src n : Nat) :
    (replayAfter l src n).find? (fun x => x.1 == src) = some (src, n) ∧ (replayAfter l src n).length ≤ 16 := by
  refine ⟨?_, ?_⟩
  · simp [replayAfter]
  · rw [replayAfter, List.length_take]
    omega

/-- A dropped frame of the management port: what is counted, and where. -/
theorem mgmtFrame_counts {k : W → Fab} {n : Nat} (up : s.fab.phase = .running) (ran : k (W.of s) = s.fab.dadd 0x1101 n 1) :
    ∃ t, (onRead s k = .next t ∧ DeviceOnly s t) ∧ t.fab.agent = s.fab.agent ∧ t.fab.dget 0x1101 n =
      min (s.fab.dget 0x1101 n + 1) (2 ^ (8 * (((Dict.row 0x1101 n).map (fun d => d.ty.width)).getD 4)) - 1) := by
  obtain ⟨t, next, only, fab⟩ := onRead_ends up ran
  refine ⟨t, ⟨next, only⟩, ?_, ?_⟩ <;> rw [fab]
  · rfl
  · exact Fab.dget_dadd_same _ _ _ _

/-- MGMT_PORT_FRAME (R413, R422, R482). -/
theorem mgmtFrame_claims (s : State) (x : MgmtAt) (fr : Frame) (tag : Nat) (up : s.fab.phase = .running) :
    let udp := s.fab.agent.queue.filter (fun x => [Transport.management, .inBand, .cascade].contains x.1.transport)
    let seen := s.fab.agent.replay.any (fun y => y.1 == x.source && Nat.ble fr.sequence y.2)
    let ends := fun (t : State) => exec (.mgmtPortFrame x fr tag) s = .next t ∧ DeviceOnly s t
    (x.udpPort ≠ s.fab.eff 0x5020 2 → exec (.mgmtPortFrame x fr tag) s = .next s) ∧
    (x.udpPort = s.fab.eff 0x5020 2 → s.sec.managementKey = none → ∃ t, ends t ∧ t.fab.agent = s.fab.agent ∧
      t.fab.dget 0x1101 4 = min (s.fab.dget 0x1101 4 + 1) (2 ^ 32 - 1)) ∧
    (∀ key, x.udpPort = s.fab.eff 0x5020 2 → s.sec.managementKey = some key →
      (frameTag key x.source fr ≠ tag → ∃ t, ends t ∧ t.fab.agent = s.fab.agent ∧
        t.fab.dget 0x1101 4 = min (s.fab.dget 0x1101 4 + 1) (2 ^ 32 - 1)) ∧
      (frameTag key x.source fr = tag → seen = true → ∃ t, ends t ∧ t.fab.agent = s.fab.agent ∧
        t.fab.dget 0x1101 5 = min (s.fab.dget 0x1101 5 + 1) (2 ^ 32 - 1)) ∧
      (frameTag key x.source fr = tag → seen = false → udp.length < 64 → ∃ t, ends t ∧
        t.fab.agent.queue = s.fab.agent.queue ++
          [(⟨.management, x.source, fr.requestId, fr.reply, ⟨0, x.udpSource, (W.of s).managementAddress⟩⟩, fr)] ∧
        t.fab.agent.replay.find? (fun y => y.1 == x.source) = some (x.source, fr.sequence) ∧ t.fab.agent.replay.length ≤ 16 ∧
        t.fab.dict = s.fab.dict)) := by
  intro udp seen ends
  refine ⟨fun other => ?_, fun here without => ?_, fun key here held => ⟨fun wrong => ?_, fun right met => ?_, fun right new room => ?_⟩⟩
  · have ran : mgmtFrame x fr tag (W.of s) = s.fab := if_pos other
    exact (onRead_running _ up).trans (by rw [ran])
  · refine mgmtFrame_counts up ?_
    unfold mgmtFrame
    rw [show (W.of s).sec = s.sec from rfl, without]
    exact if_neg (not_not_intro here)
  · refine mgmtFrame_counts up ?_
    unfold mgmtFrame
    rw [show (W.of s).sec = s.sec from rfl, held]
    exact (if_neg (not_not_intro here)).trans (if_pos wrong)
  · refine mgmtFrame_counts up ?_
    unfold mgmtFrame
    rw [show (W.of s).sec = s.sec from rfl, held]
    exact (if_neg (not_not_intro here)).trans ((if_neg (not_not_intro right)).trans (if_pos met))
  · have ran : mgmtFrame x fr tag (W.of s) = (s.fab.withAgent { s.fab.agent with
        replay := replayAfter s.fab.agent.replay x.source fr.sequence }).arrive
        ⟨.management, x.source, fr.requestId, fr.reply, ⟨0, x.udpSource, (W.of s).managementAddress⟩⟩ fr := by
      unfold mgmtFrame
      rw [show (W.of s).sec = s.sec from rfl, held]
      exact (if_neg (not_not_intro here)).trans ((if_neg (not_not_intro right)).trans (if_neg (Bool.eq_false_iff.1 new)))
    obtain ⟨t, next, only, fab⟩ := onRead_ends up (ran.trans (Fab.arrive_of_room (f := s.fab.withAgent
      { s.fab.agent with replay := replayAfter s.fab.agent.replay x.source fr.sequence }) room _ _))
    obtain ⟨first, short⟩ := find?_replayAfter s.fab.agent.replay x.source fr.sequence
    refine ⟨t, ⟨next, only⟩, ?_⟩
    rw [fab]
    exact ⟨rfl, first, short, rfl⟩

theorem Fab.managers_contains (f : Fab) (src : Nat) :
    f.managers.contains src = true ↔ (src = f.dget 0x5040 4 ∨ src = f.dget 0x5040 5) ∧ src ≠ 0 := by
  simp [Fab.managers, List.mem_filter]

/-- The in-band path takes a frame (R373, R414). -/
def Fab.takesInBand (f : Fab) (port src : Nat) (secured : Option Secured) : Bool :=
  f.secureIn port secured && match secured with | some y => y.channel == 16 | none => f.managers.contains src

/-- IN_BAND_RINAY_FRAME of an intact packet to the Rinay UDP port (R364, R414, R420). -/
theorem inBandFrame_here (x : UdpAt) (up : f.portUp x.port = true) (whole : x.intact = true) (udp : x.udpPort = f.eff 0x5020 2) :
    inBandFrame src fr x secured f =
      if f.isMember && x.port == 28 then
        (if f.secureIn x.port secured then
          (f.received x.port secured).arrive ⟨.cascade, src, fr.requestId, fr.reply, ⟨x.port, x.udpSource, f.engineAddress (x.port / 4)⟩⟩ fr
        else f.dadd 0x5021 2 1)
      else if f.takesInBand x.port src secured then
        (f.received x.port secured).arrive ⟨.inBand, src, fr.requestId, fr.reply, ⟨x.port, x.udpSource, f.engineAddress (x.port / 4)⟩⟩ fr
      else f.dadd 0x5021 2 1 := by
  unfold inBandFrame Fab.takesInBand
  extract_lets path
  exact if_neg (by simp [up, whole, udp])

theorem inBandFrame_joins {k : Fab → Fab} {port : Nat} (up : s.fab.phase = .running)
    (room : (s.fab.agent.queue.filter (fun x => [Transport.management, .inBand, .cascade].contains x.1.transport)).length < 64)
    (ran : k s.fab = (s.fab.received port secured).arrive rq fr) :
    ∃ t, onFab s k = .next t ∧ DeviceOnly s t ∧ t.fab.agent.queue = s.fab.agent.queue ++ [(rq, fr)] ∧
      { t.fab with agent := s.fab.agent } = s.fab.received port secured := by
  obtain ⟨sas, same⟩ := Fab.received_eq s.fab port secured
  have agent : (s.fab.received port secured).agent = s.fab.agent := by
    rw [same]
  rw [Fab.arrive_of_room (by rw [agent]; exact room), agent] at ran
  obtain ⟨t, next, only, fab⟩ := onFab_ends up ran
  refine ⟨t, next, only, ?_, ?_⟩ <;> rw [fab]
  · rfl
  · rw [same]
    rfl

theorem inBandFrame_counts {k : Fab → Fab} (up : s.fab.phase = .running) (ran : k s.fab = s.fab.dadd 0x5021 2 1) :
    ∃ t, onFab s k = .next t ∧ DeviceOnly s t ∧ t.fab.agent = s.fab.agent ∧
      t.fab.dget 0x5021 2 = min (s.fab.dget 0x5021 2 + 1) (2 ^ 64 - 1) := by
  obtain ⟨t, next, only, fab⟩ := onFab_ends up ran
  refine ⟨t, next, only, ?_, ?_⟩ <;> rw [fab]
  · rfl
  · exact Fab.dget_dadd_same _ _ _ _

/-- What the statement calls a good frame is what the in-band path takes, but for a source that is no address. -/
theorem Fab.takesInBand_iff (port : Nat) : f.takesInBand port src secured = true ↔ (f.secureIn port secured = true ∧
    match secured with | some x => x.channel = 16 | none => (src = f.dget 0x5040 4 ∨ src = f.dget 0x5040 5) ∧ src ≠ 0) := by
  unfold Fab.takesInBand
  rw [Bool.and_eq_true]
  cases secured with
  | none => exact and_congr_right fun _ => Fab.managers_contains _ _
  | some x => exact and_congr_right fun _ => beq_iff_eq

theorem inBandFrame_claims (s : State) (src : Nat) (fr : Frame) (x : UdpAt) (secured : Option Secured) (up : s.fab.phase = .running) :
    let udp := s.fab.agent.queue.filter (fun x => [Transport.management, .inBand, .cascade].contains x.1.transport)
    let here := s.fab.portUp x.port = true ∧ x.intact = true ∧ x.udpPort = s.fab.eff 0x5020 2
    let link := s.fab.isMember = true ∧ x.port = 28
    let path : ReplyPath := ⟨x.port, x.udpSource, s.fab.engineAddress (x.port / 4)⟩
    let good := s.fab.secureIn x.port secured = true ∧
      match secured with | some x => x.channel = 16 | none => src = s.fab.dget 0x5040 4 ∨ src = s.fab.dget 0x5040 5
    (¬here → exec (.inBandRinayFrame src fr x secured) s = .next s) ∧
    (∀ transport, here → udp.length < 64 →
      (transport = .inBand ∧ ¬link ∧ good ∧ src ≠ 0 ∨ transport = .cascade ∧ link ∧ s.fab.secureIn x.port secured = true) →
      ∃ t, exec (.inBandRinayFrame src fr x secured) s = .next t ∧
      DeviceOnly s t ∧ t.fab.agent.queue = s.fab.agent.queue ++ [(⟨transport, src, fr.requestId, fr.reply, path⟩, fr)] ∧
      { t.fab with agent := s.fab.agent } = s.fab.received x.port secured) ∧
    (here → (¬link ∧ ¬good ∨ link ∧ s.fab.secureIn x.port secured = false) →
      ∃ t, exec (.inBandRinayFrame src fr x secured) s = .next t ∧
      DeviceOnly s t ∧ t.fab.agent = s.fab.agent ∧ t.fab.dget 0x5021 2 = min (s.fab.dget 0x5021 2 + 1) (2 ^ 64 - 1)) := by
  intro udp here link path good
  have linked : (s.fab.isMember && x.port == 28) = true ↔ link := by
    simp only [link, Bool.and_eq_true, beq_iff_eq]
  refine ⟨fun away => ?_, fun transport at_ room way => ?_, fun at_ refused => ?_⟩
  · refine onFab_stays up ?_
    have off : (!s.fab.portUp x.port || !x.intact || x.udpPort != s.fab.eff 0x5020 2) = true := by
      simp only [Bool.or_eq_true, Bool.not_eq_true', bne_iff_ne, ne_eq]
      by_contra none
      simp only [not_or, Bool.not_eq_false, Decidable.not_not] at none
      exact away ⟨none.1.1, none.1.2, none.2⟩
    unfold inBandFrame
    exact if_pos off
  · obtain ⟨open_, whole, port⟩ := at_
    rcases way with ⟨rfl, apart, ⟨checked, who⟩, known⟩ | ⟨rfl, member, checked⟩
    · refine inBandFrame_joins up room ?_
      have takes : s.fab.takesInBand x.port src secured = true := by
        refine (Fab.takesInBand_iff _).2 ⟨checked, ?_⟩
        cases secured with
        | none => exact ⟨who, known⟩
        | some y => exact who
      rw [inBandFrame_here x open_ whole port, if_neg (fun h => apart (linked.1 h)), if_pos takes]
    · refine inBandFrame_joins up room ?_
      rw [inBandFrame_here x open_ whole port, if_pos (linked.2 member), if_pos checked]
  · obtain ⟨open_, whole, port⟩ := at_
    refine inBandFrame_counts up ?_
    rcases refused with ⟨apart, bad⟩ | ⟨member, unchecked⟩
    · have leaves : ¬(s.fab.takesInBand x.port src secured = true) := by
        intro takes
        obtain ⟨checked, who⟩ := (Fab.takesInBand_iff _).1 takes
        refine bad ⟨checked, ?_⟩
        cases secured with
        | none => exact who.1
        | some y => exact who
      rw [inBandFrame_here x open_ whole port, if_neg (fun h => apart (linked.1 h)), if_neg leaves]
    · rw [inBandFrame_here x open_ whole port, if_pos (linked.2 member), if_neg (Bool.eq_false_iff.1 unchecked)]

/-! ### Requests at the head of the queue -/

/-- The device with the request at the head of its agent's queue taken, and what its requester held for another entry gone. -/
def Fab.takenRequest (f : Fab) (rq : Requester) (fr : Frame) (rest : List (Requester × Frame)) : Fab :=
  f.withAgent ({ f.agent with queue := rest }.narrow (requesterKey rq) fr.index fr.subindex)

theorem Fab.takeRequest_head (runs : f.serves? rq = true) (head : f.agent.queue = (rq, fr) :: rest) :
    f.takeRequest rq fr = some (f.withAgent { f.agent with queue := rest }) := by
  unfold Fab.takeRequest
  rw [if_neg (by simp [runs]), head]
  exact if_pos rfl

/-- A request of this package that meets its entry. -/
theorem Fab.front_of_access {k : Nat} (whole : badFrame rq fr k = false) (device : fr.device = 0)
    (access : f.entryAccess rq fr.index fr.subindex (k == 2) = .ok d) (type : fr.type = 0 ∨ fr.type = d.ty.code) :
    f.front rq fr k = .pass d := by
  unfold Fab.front
  extract_lets code
  rw [if_neg (Bool.eq_false_iff.1 whole), if_neg (fun h => h.1 device), access]
  refine if_neg fun h => ?_
  rcases type with none | same
  · exact h.1 none
  · exact h.2 same

theorem Fab.front_of_refusal {k : Nat} (whole : badFrame rq fr k = false) (device : fr.device = 0)
    (access : f.entryAccess rq fr.index fr.subindex (k == 2) = .error st) :
    f.front rq fr k = .refuse st (entryCode fr.index fr.subindex) := by
  unfold Fab.front
  extract_lets code
  rw [if_neg (Bool.eq_false_iff.1 whole), if_neg (fun h => h.1 device), access]

theorem length_beBytes (n v : Nat) : (beBytes n v).length = n := by
  rw [beBytes, List.length_reverse, leBytes_length]

/-- A value read has its entry's width: the Member record, 160 bytes, is the only one that is no number. -/
theorem W.length_entryBytes (w : W) {i j : Nat} (entry : Dict.entry i j = some d) (short : d.ty.width ≤ 48) :
    (w.entryBytes d i j).length = d.ty.width := by
  have record : ¬(i = 0x9061 ∧ j = 2) := by
    rintro ⟨rfl, rfl⟩
    have wide : ((Dict.entry 0x9061 2).map (fun d => d.ty.width)) = some 160 := by decide +kernel
    rw [entry, Option.map_some] at wide
    have wide := Option.some.inj wide
    omega
  unfold W.entryBytes
  extract_lets f n
  rw [if_neg record]
  repeat (split; · exact length_beBytes _ _)
  exact length_beBytes _ _

/-- What a read of a short value answers. -/
theorem W.readValue_short (w : W) (entry : Dict.entry fr.index fr.subindex = some d) (short : d.ty.width ≤ 48) (start : fr.offset = 0) :
    w.readValue rq fr d = w.fab.respond rq fr w.sec.managementKey rinayOk d.ty.code true (w.entryBytes d fr.index fr.subindex) := by
  have last : Nat.ble d.ty.width (0 + 48) = true := Nat.ble_eq_true_of_le (by omega)
  have whole : (w.entryBytes d fr.index fr.subindex).take 48 = w.entryBytes d fr.index fr.subindex :=
    List.take_of_length_le (by rw [W.length_entryBytes w entry short]; exact short)
  unfold W.readValue
  extract_lets f n o bytes answer refuse
  have o_eq : o = 0 := start
  rw [if_pos short, if_pos o_eq]
  have value : answer f bytes = f.respond rq fr w.sec.managementKey rinayOk d.ty.code (Nat.ble n (o + 48)) ((bytes.drop o).take 48) := rfl
  rw [value, o_eq, List.drop_zero]
  change f.respond rq fr _ _ _ (Nat.ble d.ty.width (0 + 48)) ((w.entryBytes d fr.index fr.subindex).take 48) = _
  rw [last, whole]

/-- A read at the head of the queue (R412, R417). -/
theorem rinayRead_of_head (w : W) (runs : w.fab.serves? rq = true) (head : w.fab.agent.queue = (rq, fr) :: rest)
    (admits : w.fab.admits rq = true) (kind : fr.kind = 1) :
    rinayRead rq fr w = match (w.fab.takenRequest rq fr rest).front rq fr 1 with
      | .forward k => (w.fab.takenRequest rq fr rest).forwardTo k rq fr w.sec.managementKey
      | .refuse st ty => (w.fab.takenRequest rq fr rest).respond rq fr w.sec.managementKey st ty false []
      | .pass d => ({ w with fab := w.fab.takenRequest rq fr rest } : W).readValue rq fr d := by
  have admits' : (w.fab.withAgent { w.fab.agent with queue := rest }).admits rq = true := by
    rw [← admits]
    rfl
  unfold rinayRead
  rw [if_neg (by omega), Fab.takeRequest_head runs head]
  exact if_neg (by simp [admits'])

theorem rinayRead_passes (w : W) (runs : w.fab.serves? rq = true) (head : w.fab.agent.queue = (rq, fr) :: rest)
    (admits : w.fab.admits rq = true) (kind : fr.kind = 1) (whole : badFrame rq fr 1 = false) (device : fr.device = 0)
    (access : w.fab.entryAccess rq fr.index fr.subindex false = .ok d) (type : fr.type = 0 ∨ fr.type = d.ty.code)
    (short : d.ty.width ≤ 48) (start : fr.offset = 0) :
    rinayRead rq fr w = (w.fab.takenRequest rq fr rest).respond rq fr w.sec.managementKey rinayOk d.ty.code true
      (w.entryBytes d fr.index fr.subindex) := by
  have access' : (w.fab.takenRequest rq fr rest).entryAccess rq fr.index fr.subindex (1 == 2) = .ok d := access
  rw [rinayRead_of_head w runs head admits kind, Fab.front_of_access whole device access' type]
  exact W.readValue_short _ (Fab.entry_of_entryAccess access) short start

/-- A response over the management port (R413, R422). -/
theorem Fab.respond_management (f : Fab) (by_ : rq.transport = .management) (fr : Frame) (key : Option Nat) (status type : Nat) (last : Bool)
    (payload : List Byte) : f.respond rq fr key status type last payload = (f.dadd 0x1101 (answerCount status) 1).emit
      (.rinayReply none rq.source rq.path.udpPort (responseFrame fr status type last payload)
        (frameTag (key.getD 0) rq.path.own (responseFrame fr status type last payload))) := by
  have count : (if status = rinayOk then f.dadd 0x1101 1 1 else f.dadd 0x1101 2 1) = f.dadd 0x1101 (answerCount status) 1 := by
    unfold answerCount
    split <;> rfl
  unfold Fab.respond
  rw [count, by_]

/-- A response over the TAP is given to it. -/
theorem Fab.respond_jtag (f : Fab) (by_ : rq.transport = .jtag) (fr : Frame) (key : Option Nat) (status type : Nat) (last : Bool)
    (payload : List Byte) : ∃ r : Response, r.status = status ∧ r.payload = payload ∧
      f.respond rq fr key status type last payload = (f.dadd 0x1101 (answerCount status) 1).withAgent
        { f.agent with given := f.agent.given ++ [r] } := by
  have count : (if status = rinayOk then f.dadd 0x1101 1 1 else f.dadd 0x1101 2 1) = f.dadd 0x1101 (answerCount status) 1 := by
    unfold answerCount
    split <;> rfl
  unfold Fab.respond
  rw [count, by_]
  exact ⟨_, by rfl, by rfl, rfl⟩

/-- RINAY_READ over the management port. -/
theorem rinayRead_claims (s : State) (rq : Requester) (fr : Frame) (rest : List (Requester × Frame)) (up : s.fab.phase = .running)
    (runs : s.fab.halts 944 = false) (head : s.fab.agent.queue = (rq, fr) :: rest) (by_ : rq.transport = .management) (kind : fr.kind = 1)
    (whole : badFrame rq fr 1 = false) (device : fr.device = 0) :
    let key := s.sec.managementKey.getD 0
    let reply := fun (g : Frame) => NetOut.rinayReply none rq.source rq.path.udpPort g (frameTag key rq.path.own g)
    (∀ d, s.fab.entryAccess rq fr.index fr.subindex false = .ok d → (fr.type = 0 ∨ fr.type = d.ty.code) → d.ty.width ≤ 48 →
      fr.offset = 0 → ∃ t, exec (.rinayRead rq fr) s = .next t ∧ DeviceOnly s t ∧ t.fab.agent.queue = rest ∧
        t.fab.netOut = s.fab.netOut ++
          [reply (responseFrame fr 0 d.ty.code true ((W.of s).entryBytes d fr.index fr.subindex))] ∧ Claims.WriteOk s t) ∧
    (∀ st, s.fab.entryAccess rq fr.index fr.subindex false = .error st → ∃ t, exec (.rinayRead rq fr) s = .next t ∧ DeviceOnly s t ∧
      t.fab.agent.queue = rest ∧ t.fab.netOut = s.fab.netOut ++
        [reply (responseFrame fr st (entryCode fr.index fr.subindex) false [])] ∧
      t.fab.dget 0x1101 2 = min (s.fab.dget 0x1101 2 + 1) (2 ^ 32 - 1)) := by
  intro key reply
  have runs' : (W.of s).fab.serves? rq = true := by
    rw [show (W.of s).fab = s.fab from rfl]
    unfold Fab.serves?
    rw [by_, runs]
    rfl
  have admits : (W.of s).fab.admits rq = true := by
    unfold Fab.admits
    rw [by_]
  refine ⟨fun d access type short start => ?_, fun st access => ?_⟩
  · have ran := rinayRead_passes (W.of s) runs' head admits kind whole device access type short start
    rw [Fab.respond_management _ by_] at ran
    obtain ⟨t, next, only, fab⟩ := onRead_ends up ran
    refine ⟨t, next, only, ?_, ?_, ?_, ?_⟩ <;> rw [fab]
    · rfl
    · rfl
    · exact Fab.dget_dadd_same _ _ _ _
    · exact Fab.dget_dadd_ne _ (by decide)
  · have access' : ((W.of s).fab.takenRequest rq fr rest).entryAccess rq fr.index fr.subindex (1 == 2) = .error st := access
    have ran := rinayRead_of_head (W.of s) runs' head admits kind
    rw [Fab.front_of_refusal whole device access'] at ran
    dsimp only at ran
    have count : answerCount st = 2 := if_neg (ne_ok_of_entryAccess access)
    rw [Fab.respond_management _ by_, count] at ran
    obtain ⟨t, next, only, fab⟩ := onRead_ends up ran
    refine ⟨t, next, only, ?_, ?_, ?_⟩ <;> rw [fab]
    · rfl
    · rfl
    · exact Fab.dget_dadd_same _ _ _ _

/-! ### Writes -/

/-- A whole value of a short entry is staged at once. -/
theorem Agent.stage_whole (a : Agent) {n : Nat} (width : fr.length = n) (short : n ≤ 48) (start : fr.offset = 0) :
    a.stage rq fr n = (rinayOk, some (fr.payload.take fr.length), a) := by
  unfold Agent.stage
  extract_lets payload clear
  rw [if_pos short, if_neg (not_not_intro width), if_neg (not_not_intro start)]

/-- A write at the head of the queue that meets its entry, of a whole value (R412, R417). -/
theorem rinayWrite_passes (w : W) (runs : w.fab.serves? rq = true) (head : w.fab.agent.queue = (rq, fr) :: rest)
    (admits : w.fab.admits rq = true) (kind : fr.kind = 2) (front : (w.fab.takenRequest rq fr rest).front rq fr 2 = .pass d)
    (width : fr.length = d.ty.width) (short : d.ty.width ≤ 48) (start : fr.offset = 0) :
    rinayWrite rq fr w =
      let y := (w.map (fun f => f.takenRequest rq fr rest)).applyWrite rq d fr.index fr.subindex (fr.payload.take fr.length)
      y.2.map (fun h => h.respond rq fr w.sec.managementKey y.1 d.ty.code false []) := by
  have admits' : (w.fab.withAgent { w.fab.agent with queue := rest }).admits rq = true := by
    rw [← admits]
    rfl
  unfold rinayWrite
  rw [if_neg (not_not_intro kind), Fab.takeRequest_head runs head]
  refine (if_neg (by simp [admits'])).trans ?_
  extract_lets a g answer
  have taken : g = w.fab.takenRequest rq fr rest := rfl
  clear_value g
  subst taken
  rw [front]
  dsimp only
  rw [Agent.stage_whole _ width short start]
  rfl

/-- A write of a short entry that a write only sets. -/
theorem rinayWrite_plain (w : W) (runs : w.fab.serves? rq = true) (head : w.fab.agent.queue = (rq, fr) :: rest)
    (admits : w.fab.admits rq = true) (kind : fr.kind = 2) (whole : badFrame rq fr 2 = false) (device : fr.device = 0)
    (access : w.fab.entryAccess rq fr.index fr.subindex true = .ok d) (type : fr.type = 0) (start : fr.offset = 0)
    (width : fr.length = d.ty.width) (short : d.ty.width ≤ 48) (plain : Claims.plainEntry fr.index = true)
    (awake : w.fab.dget 0x2040 1 ≠ 1) (idle : w.entryBusy d fr.index fr.subindex (beNat (fr.payload.take fr.length)) = false)
    (range : w.fab.rangeBad d fr.index fr.subindex (beNat (fr.payload.take fr.length)) (fr.payload.take fr.length) = false) :
    rinayWrite rq fr w = (w.map (fun f => (f.takenRequest rq fr rest).dset fr.index fr.subindex
      (beNat (fr.payload.take fr.length)))).map (fun h => h.respond rq fr w.sec.managementKey rinayOk d.ty.code false []) := by
  obtain ⟨clock, ews, -, key⟩ := ne_of_plain plain
  have access' : (w.fab.takenRequest rq fr rest).entryAccess rq fr.index fr.subindex (2 == 2) = .ok d := access
  have idle' := (W.entryBusy_withAgent w ({ w.fab.agent with queue := rest }.narrow (requesterKey rq) fr.index fr.subindex) d
    fr.subindex (beNat (fr.payload.take fr.length)) clock ews).trans idle
  have applied := (W.applyWrite_of_fits (rq := rq) (w.map (fun f => f.takenRequest rq fr rest)) awake (fun h => key h.1) idle' range).trans
    (W.entryWrite_of_plain _ plain)
  rw [rinayWrite_passes w runs head admits kind (Fab.front_of_access whole device access' (.inl type)) width short start, applied]
  rfl

/-- RINAY_WRITE. -/
theorem exec_rinayWrite (head : s.fab.agent.queue = (rq, fr) :: rest) (kind : fr.kind = 2) (whole : badFrame rq fr 2 = false)
    (device : fr.device = 0) (type : fr.type = 0) (start : fr.offset = 0) (short : (fr.payload.take fr.length).length ≤ 48)
    (length : (fr.payload.take fr.length).length = fr.length) (up : s.fab.phase = .running) (awake : s.fab.dget 0x2040 1 ≠ 1)
    (runs : s.fab.serves? rq = true) (admits : s.fab.admits rq = true)
    (fits : Claims.fits s rq fr.index fr.subindex (fr.payload.take fr.length) = true) (plain : Claims.plainEntry fr.index = true) :
    ∃ t, exec (.rinayWrite rq fr) s = .next t ∧ t.mem = s.mem ∧ t.sec = s.sec ∧ t.fab.agent.queue = rest ∧
      t.fab.dget fr.index fr.subindex = beNat (fr.payload.take fr.length) ∧ Claims.WriteOk s t := by
  obtain ⟨d, access, width, -, idle, range⟩ := fits_spec fits
  obtain ⟨low, -, agent⟩ := Fab.sub_lt_of_entryAccess access
  have ran := rinayWrite_plain (W.of s) runs head admits kind whole device access type start (length.symm.trans width)
    (width ▸ short) plain awake idle range
  have settled : (rinayWrite rq fr (W.of s)).settled = rinayWrite rq fr (W.of s) := by
    rw [ran]
    rfl
  have counts : ∀ k, k < 256 → ((W.of s).map (fun f => (f.takenRequest rq fr rest).dset fr.index fr.subindex
      (beNat (fr.payload.take fr.length)))).fab.dget 0x1101 k = s.fab.dget 0x1101 k :=
    fun k hk => Fab.dget_dset_ne _ (Ne.symm (dictKey_ne agent low hk))
  obtain ⟨t, next, wrote⟩ : ∃ t, exec (.rinayWrite rq fr) s = .next t ∧ Wrote s t (rinayOk, (W.of s).map (fun f =>
      (f.takenRequest rq fr rest).dset fr.index fr.subindex (beNat (fr.payload.take fr.length)))) := by
    obtain ⟨same, dict⟩ := Fab.respond_spec ((W.of s).map (fun f => (f.takenRequest rq fr rest).dset fr.index fr.subindex
      (beNat (fr.payload.take fr.length)))).fab rq fr s.sec.managementKey rinayOk d.ty.code false []
    refine ⟨_, onAll_running (rinayWrite rq fr) up (by rw [settled, ran]; rfl), ?_, ?_, rfl, ?_, ?_⟩
    all_goals rw [settled, ran]
    · rfl
    · rfl
    · exact same
    · exact dict
  refine ⟨t, next, wrote.mem, wrote.sec, (congrArg (·.agent.queue) wrote.rest :), ?_, wrote.ok (counts 1 (by decide)) (counts 2 (by decide))⟩
  exact (wrote.dget agent low).trans (Fab.dget_dset_same _ _ _ _)

/-! ### Stray frames, and the TAP -/

theorem exec_rinayStrayFrame (up : s.fab.phase = .running) (head : s.fab.agent.queue = (rq, fr) :: rest) (kind : fr.kind = 3 ∨ fr.kind = 4) :
    ∃ t, exec (.rinayStrayFrame fr) s = .next t ∧ DeviceOnly s t ∧ t.fab.agent.queue = rest ∧
      t.fab.dget 0x1101 3 = min (s.fab.dget 0x1101 3 + 1) (2 ^ 32 - 1) := by
  have ran : strayFrame fr s.fab = (s.fab.withAgent { s.fab.agent with queue := rest }).dropFrame := by
    unfold strayFrame
    rw [head]
    exact if_pos ⟨rfl, kind⟩
  obtain ⟨t, next, only, fab⟩ := onFab_ends up ran
  refine ⟨t, next, only, ?_, ?_⟩ <;> rw [fab]
  · rfl
  · exact Fab.dget_dadd_same _ _ _ _

/-- What TAP_RESET does to the work (R493). -/
def W.resetTap (w : W) : W :=
  if w.fab.phase = .off ∨ w.sec.fuses.debugDisable then w else { w with sec := { w.sec with tapReset := true } }

theorem exec_tapReset_shut (shut : s.sec.fuses.debugDisable = true) : exec .tapReset s = .next s :=
  onAny_of_clean (k := W.resetTap) (x := W.of s) (if_pos (Or.inr shut)) rfl

theorem exec_tapReset (up : s.fab.phase = .running) (whole : s.sec.fuses.debugDisable = false) :
    exec .tapReset s = .next { s with sec := { s.sec with tapReset := true } } := by
  have on : ¬((W.of s).fab.phase = .off ∨ (W.of s).sec.fuses.debugDisable = true) := by
    rw [show (W.of s).fab = s.fab from rfl, show (W.of s).sec = s.sec from rfl, up, whole]
    simp
  exact onAny_of_clean (k := W.resetTap) (x := { W.of s with sec := { s.sec with tapReset := true } }) (if_neg on) rfl

/-- The work of a TAP's access, with its request in the queue and the TAP out of its reset state (R417, R493). -/
def W.tapped (w : W) (rq : Requester) (fr : Frame) : W :=
  { w with fab := w.fab.enqueue rq [fr], sec := { w.sec with tapReset := false } }

/-- JTAG_DICTIONARY_ACCESS (R407, R417, R493). -/
theorem jtagAccess_claims (s : State) (fr : Frame) (up : s.fab.phase = .running) :
    let rq : Requester := ⟨.jtag, 0, fr.requestId, fr.reply, .none⟩
    (s.sec.fuses.debugDisable = true → exec (.jtagDictionaryAccess fr) s = .next s ∧ exec .tapReset s = .next s) ∧
    (s.sec.fuses.debugDisable = false → exec .tapReset s = .next { s with sec := { s.sec with tapReset := true } }) ∧
    (s.sec.fuses.debugDisable = false → s.fab.agent.queue ≠ [] → exec (.jtagDictionaryAccess fr) s = .next { s with
      sec := { s.sec with tapReset := false },
      fab := { s.fab with agent := { s.fab.agent with queue := s.fab.agent.queue ++ [(rq, fr)] } } }) ∧
    (∀ d, s.sec.fuses.debugDisable = false → s.fab.agent.queue = [] → s.fab.halts 944 = false → fr.kind = 1 → badFrame rq fr 1 = false → fr.device = 0 →
      s.fab.entryAccess rq fr.index fr.subindex false = .ok d → fr.type = 0 → d.ty.width ≤ 48 → fr.offset = 0 →
      ∃ t r, exec (.jtagDictionaryAccess fr) s = .next t ∧ t.mem = s.mem ∧ t.sec = { s.sec with tapReset := false } ∧
        t.fab.agent.queue = [] ∧ t.fab.agent.given = s.fab.agent.given ++ [r] ∧ r.status = 0 ∧
        r.payload = (W.of s).entryBytes d fr.index fr.subindex) := by
  intro rq
  have lift {x : W} (ran : jtagAccess fr (W.of s) = x) (clean : x.settled = x) (goes : x.waits = false) :
      exec (.jtagDictionaryAccess fr) s = .next { s with mem := MemOp.applyAll s.mem x.out, fab := x.fab, sec := x.sec } := by
    have run := onAll_running (s := s) (jtagAccess fr) up (by rw [ran, clean]; exact goes)
    rw [ran, clean] at run
    exact run
  have opened (whole : s.sec.fuses.debugDisable = false) : ¬((W.of s).sec.fuses.debugDisable = true) := Bool.eq_false_iff.1 whole
  refine ⟨fun shut => ⟨?_, exec_tapReset_shut shut⟩, exec_tapReset up, fun whole later => ?_,
    fun d whole first runs kind good device access type short start => ?_⟩
  · exact lift (x := W.of s) (if_pos shut) rfl rfl
  · refine lift (x := (W.of s).tapped rq fr) ?_ rfl rfl
    refine (if_neg (opened whole)).trans (if_pos ?_)
    simp [show (W.of s).fab = s.fab from rfl, later]
  · have head : ((W.of s).tapped rq fr).fab.agent.queue = (rq, fr) :: [] := congrArg (· ++ [(rq, fr)]) first
    have runs' : ((W.of s).tapped rq fr).fab.serves? rq = true := congrArg (!·) runs
    have read := rinayRead_passes ((W.of s).tapped rq fr) runs' head rfl kind good device access (.inl type) short start
    obtain ⟨r, status, payload, given⟩ := Fab.respond_jtag (((W.of s).tapped rq fr).fab.takenRequest rq fr []) (rq := rq) rfl fr
      ((W.of s).tapped rq fr).sec.managementKey rinayOk d.ty.code true (((W.of s).tapped rq fr).entryBytes d fr.index fr.subindex)
    have ran : jtagAccess fr (W.of s) = { (W.of s).tapped rq fr with fab := rinayRead rq fr ((W.of s).tapped rq fr) } := by
      refine (if_neg (opened whole)).trans ((if_neg ?_).trans ((if_neg ?_).trans (if_neg ?_)))
      · simp [show (W.of s).fab = s.fab from rfl, first]
      · omega
      · omega
    rw [read, given] at ran
    exact ⟨_, r, lift ran rfl rfl, rfl, rfl, rfl, rfl, status, payload⟩

/-- Settles O48: the clauses one by one. -/
theorem framesAreCheckedQueuedAndAnswered : Obligations.FramesAreCheckedQueuedAndAnswered := by
  unfold Obligations.FramesAreCheckedQueuedAndAnswered
  refine ⟨fun s x fr tag up => mgmtFrame_claims s x fr tag up, fun s src fr x secured up => inBandFrame_claims s src fr x secured up,
    fun s rq fr rest => ?_, fun s rq fr rest => ?_,
    fun s rq fr rest up head kind => exec_rinayStrayFrame up head kind, fun s fr up => jtagAccess_claims s fr up⟩
  · intro key up runs head by_ kind whole device
    exact rinayRead_claims s rq fr rest up runs head by_ kind whole device
  · intro b head kind whole device type start short length up awake runs admits fits plain
    exact exec_rinayWrite head kind whole device type start short length up awake runs admits fits plain

end Sys2Proof.Machine
end

section
/-! PROOFS. Weight versions (O35): the ring commands that open, switch and free them (R345 to R352). -/

namespace Sys2Proof.Machine

open Sys2Proof Sys2Proof.Safety

variable {s t : State} {w : W} {f g : Fab} {e : Entry} {c : Instr} {op p r k v n : Nat} {st : HostStatus} {x : VersionRec}
  {areas : List (Nat × Nat)}

/-! ### Records -/

theorem Fab.version_of_versions (h : g.versions = f.versions) (p r : Nat) : g.version p r = f.version p r :=
  congrArg (fun l : Tbl VersionRec => l.get .free (8 * p + r)) h

theorem Fab.version_setVersion_same (f : Fab) (p r : Nat) (x : VersionRec) : (f.setVersion p r x).version p r = x := Tbl.get_set_same _ _ _ _

theorem Fab.version_setVersion_ne (f : Fab) (x : VersionRec) {q k : Nat} (hr : r < 8) (hk : k < 8) (other : q ≠ p ∨ k ≠ r) :
    (f.setVersion p r x).version q k = f.version q k := Tbl.get_set_ne _ _ _ (by omega)

theorem Fab.otherVersions_of_setVersion (hr : r < 8) (h : t.fab.versions = (f.setVersion p r x).versions)
    (same : f.versions = s.fab.versions) : Claims.OtherVersions s t p r := by
  intro q k _ hk other
  rw [Fab.version_of_versions h, Fab.version_setVersion_ne _ _ hr hk other, Fab.version_of_versions same]

theorem Fab.currentNo_spec (h : f.currentNo p = some r) : r < 8 ∧ (f.version p r).state = .current := by
  have here := List.find?_some h
  have low := List.mem_of_find?_eq_some h
  exact ⟨List.mem_range.1 low, beq_iff_eq.1 here⟩

theorem Fab.versionNo_lt (h : f.versionNo p v = some r) : r < 8 := List.mem_range.1 (List.mem_of_find?_eq_some h)

/-- The first of the numbers below n that satisfies a condition. -/
theorem find?_range_eq {P : Nat → Bool} (low : r < n) (here : P r = true) (first : ∀ k, k < r → P k = false) :
    (List.range n).find? P = some r := by
  rw [List.find?_range_eq_some]
  exact ⟨here, List.mem_range.2 low, fun j hj => by rw [first j hj]; rfl⟩

/-- The entry of the Current version shows the record that alone is Current. -/
theorem Fab.dget_current_setVersion (f : Fab) (hr : r < 8) (current : x.state = .current)
    (alone : ∀ k, k < 8 → k ≠ r → (f.version p k).state ≠ .current) : (f.setVersion p r x).dget 0x7061 (p + 1) = x.version := by
  unfold Fab.setVersion
  extract_lets f1
  have versions : f1.versions = (f.setVersion p r x).versions := rfl
  have own : f1.version p r = x := (Fab.version_of_versions versions p r).trans (Fab.version_setVersion_same f p r x)
  have found : ((List.range 8).map (f1.version p)).find? (fun x => x.state == .current) = some x := by
    rw [List.find?_map, find?_range_eq hr]
    · exact congrArg some own
    · dsimp only [Function.comp]
      rw [own, current]
      rfl
    · intro k hk
      dsimp only [Function.comp]
      rw [Fab.version_of_versions versions, Fab.version_setVersion_ne f x hr (by omega) (.inr (by omega))]
      exact beq_false_of_ne (alone k (by omega) (by omega))
  rw [found, Fab.dget_dset_same]
  rfl

/-! ### Commands that end at once -/

/-- A ring command of the device whose work ends with a status. -/
theorem ring_completes (front : Claims.front s e op = true) {body : Fab → Fab} (lift : exec c s = onFab s (fun f => f.ring e op body))
    (ran : body (s.fab.withTaken e) = g.completeEntry e st n) (vfs : g.vfs = (s.fab.withTaken e).vfs) :
    ∃ t, exec c s = .next t ∧ Claims.Completed s t e st.code n ∧ DeviceOnly s t ∧ t.fab = g.completeEntry e st n ∧ g.Opened e := by
  obtain ⟨-, -, -, opened⟩ := front_spec front
  refine ⟨_, exec_ring_of_front front body lift, ?_, ⟨rfl, rfl, rfl⟩, ran, opened.withTaken.of_vfs vfs⟩
  rw [ran]
  exact completed_of_taken front vfs st n

/-- The same, where nothing was done before. -/
theorem ring_refuses (front : Claims.front s e op = true) {body : Fab → Fab} (lift : exec c s = onFab s (fun f => f.ring e op body))
    (ran : body (s.fab.withTaken e) = (s.fab.withTaken e).completeEntry e st n) :
    ∃ t, exec c s = .next t ∧ Claims.Completed s t e st.code n ∧ DeviceOnly s t ∧ t.fab.versions = s.fab.versions := by
  obtain ⟨t, next, completed, only, fab, opened⟩ := ring_completes front lift ran rfl
  refine ⟨t, next, completed, only, ?_⟩
  rw [fab]
  exact (congrArg (·.versions) (opened.completeEntry_rest st n) :)

/-! ### VERSION_OPEN -/

theorem rangesMeet_eq_false {a b : Nat × Nat} (h : Claims.apart a.1 a.2 b.1 b.2) : rangesMeet a b = false := by
  have blt {m k : Nat} (h : k ≤ m) : Nat.blt m k = false :=
    Bool.eq_false_iff.2 fun below => by have := Nat.le_of_ble_eq_true below; omega
  unfold rangesMeet
  rw [Bool.and_eq_false_iff]
  rcases h with h | h
  · exact .inr (blt h)
  · exact .inl (blt h)

/-- The used areas of the records of a partition that are not free (R347). -/
def Fab.areasInUse (f : Fab) (p : Nat) : List (Nat × Nat) :=
  (List.range 8).flatMap (fun r => if (f.version p r).state = .free then [] else usedAreas (f.version p r).areas)

/-- What VERSION_OPEN makes of eight areas that its entry's table gives. -/
def Fab.opens (f : Fab) (e : Entry) (areas : List (Nat × Nat)) : Fab :=
  let p := e.partition
  let v := word e 0 % 2 ^ 32
  let used := usedAreas areas
  if v = 0 ∨ v ≤ f.versionTop.get 0 p ∨ used = [] ∨ used.any (fun a => a.1 % 64 != 0 || a.2 % 64 != 0) then f.completeEntry e .badDescriptor
  else if used.any (fun a => !f.inWindows p a.1 a.2) then f.completeEntry e .outOfMap
  else if used.any (fun a => (f.areasInUse p).any (rangesMeet a)) || !disjoint used then f.completeEntry e .areaOverlap
  else match (List.range 8).find? (fun r => (f.version p r).state == .free) with
    | none => f.completeEntry e .versionState
    | some r => ({ f with versionTop := f.versionTop.set p v }.setVersion p r
        { VersionRec.free with version := v, state := .loading, areas := areas }).completeEntry e .done

/-- VERSION_OPEN whose area table its function reaches. -/
theorem exec_versionOpen (front : Claims.front s e 0x30 = true)
    (table : s.fab.inHostWindow e.partition (word e 1) 128 false = true) {all : List (Nat × Nat)}
    (eight : (areas ++ List.replicate 8 (0, 0)).take 8 = all) (ran : (s.fab.withTaken e).opens e all = g.completeEntry e st n)
    (vfs : g.vfs = (s.fab.withTaken e).vfs) :
    ∃ t, exec (.versionOpen e areas) s = .next t ∧ Claims.Completed s t e st.code n ∧ DeviceOnly s t ∧ t.fab = g.completeEntry e st n ∧
      g.Opened e := by
  refine ring_completes front rfl ?_ vfs
  have table' : (s.fab.withTaken e).inHostWindow e.partition (word e 1) 128 false = true := table
  dsimp only
  rw [eight, bitsOf_zero, if_neg (by rw [table']; decide)]
  exact ran

theorem versionOpen_claims (front : Claims.front s e 0x30 = true)
    (table : s.fab.inHostWindow e.partition (word e 1) 128 false = true) : let p := e.partition
     let v := word e 0 % 2 ^ 32
     (v ≤ s.fab.versionTop.get 0 p → ∃ t, exec (.versionOpen e areas) s = .next t ∧ Claims.Completed s t e 0x0C 0 ∧
         DeviceOnly s t ∧ t.fab.versions = s.fab.versions) ∧
       (∀ r, s.fab.versionTop.get 0 p < v → areas.length = 8 → usedAreas areas ≠ [] →
         (∀ a ∈ usedAreas areas, a.1 % 64 = 0 ∧ a.2 % 64 = 0 ∧ s.fab.inWindows p a.1 a.2 = true) → disjoint (usedAreas areas) = true →
         (∀ k a b, k < 8 → (s.fab.version p k).state ≠ .free → a ∈ usedAreas areas → b ∈ (s.fab.version p k).areas →
           b.2 ≠ 0 → Claims.apart a.1 a.2 b.1 b.2) →
         r < 8 → (s.fab.version p r).state = .free → (∀ k, k < r → (s.fab.version p k).state ≠ .free) →
         ∃ t, exec (.versionOpen e areas) s = .next t ∧ Claims.Completed s t e 0 0 ∧ DeviceOnly s t ∧
           t.fab.version p r = { VersionRec.free with version := v, state := .loading, areas := areas } ∧ Claims.OtherVersions s t p r ∧
           t.fab.versionTop.get 0 p = v) := by
  intro p v
  refine ⟨fun old => ?_, fun r new eight used good parted clear low free first => ?_⟩
  · obtain ⟨t, next, completed, only, fab, opened⟩ := exec_versionOpen (st := .badDescriptor) (n := 0) (areas := areas) front table rfl
      (if_pos (Or.inr (Or.inl old))) rfl
    refine ⟨t, next, completed, only, ?_⟩
    rw [fab]
    exact (congrArg (·.versions) (opened.completeEntry_rest .badDescriptor 0) :)
  · have whole : (areas ++ List.replicate 8 (0, 0)).take 8 = areas := by rw [List.take_append_of_le_length (by omega), ← eight, List.take_length]
    have found : (List.range 8).find? (fun k => ((s.fab.withTaken e).version p k).state == .free) = some r :=
      find?_range_eq low (beq_iff_eq.2 free) (fun k hk => beq_false_of_ne (first k hk))
    have odd : ¬((usedAreas areas).any (fun a => a.1 % 64 != 0 || a.2 % 64 != 0) = true) := by
      rw [List.any_eq_true]
      rintro ⟨a, ha, h⟩
      obtain ⟨start, size, -⟩ := good a ha
      simp [start, size] at h
    have inside : ¬((usedAreas areas).any (fun a => !(s.fab.withTaken e).inWindows p a.1 a.2) = true) := by
      rw [List.any_eq_true]
      rintro ⟨a, ha, h⟩
      have here : (s.fab.withTaken e).inWindows p a.1 a.2 = true := (good a ha).2.2
      simp [here] at h
    have meets : ¬(((usedAreas areas).any (fun a => ((s.fab.withTaken e).areasInUse p).any (rangesMeet a)) || !disjoint (usedAreas areas)) =
        true) := by
      rw [parted, Bool.or_eq_true, List.any_eq_true]
      rintro (⟨a, ha, h⟩ | h)
      · obtain ⟨b, hb, meet⟩ := List.any_eq_true.1 h
        obtain ⟨k, hk, own⟩ := List.mem_flatMap.1 hb
        split at own
        · cases own
        · next held =>
          obtain ⟨mine, size⟩ := List.mem_filter.1 own
          rw [rangesMeet_eq_false (clear k a b (List.mem_range.1 hk) held ha mine (bne_iff_ne.1 size))] at meet
          cases meet
      · cases h
    have ran : (s.fab.withTaken e).opens e areas = ({ s.fab.withTaken e with versionTop := s.fab.versionTop.set p v }.setVersion p r
        { VersionRec.free with version := v, state := .loading, areas := areas }).completeEntry e .done 0 := by
      refine (if_neg ?_).trans ((if_neg inside).trans ((if_neg meets).trans ?_))
      · rintro (zero | old | none | h)
        · have : v = 0 := zero
          omega
        · have : v ≤ s.fab.versionTop.get 0 p := old
          omega
        · exact used none
        · exact odd h
      · rw [found]
        rfl
    obtain ⟨t, next, completed, only, fab, opened⟩ := exec_versionOpen (st := .done) (n := 0) front table whole ran rfl
    have rest := opened.completeEntry_rest .done 0
    rw [← fab] at rest
    have versions : t.fab.versions = (s.fab.setVersion p r { VersionRec.free with version := v, state := .loading, areas := areas }).versions :=
      (congrArg (·.versions) rest :)
    have tops : t.fab.versionTop = s.fab.versionTop.set p v := (congrArg (·.versionTop) rest :)
    refine ⟨t, next, completed, only, ?_, Fab.otherVersions_of_setVersion low versions rfl, ?_⟩
    · rw [Fab.version_of_versions versions, Fab.version_setVersion_same]
    · rw [tops]
      exact Tbl.get_set_same _ _ _ _

/-! ### VERSION_SWITCH -/

/-- What VERSION_SWITCH makes of its entry. -/
theorem exec_versionSwitch (front : Claims.front s e 0x31 = true) {v : Nat} (named : word e 0 % 2 ^ 32 = v) (nonzero : v ≠ 0)
    (ran : (match s.fab.versionNo e.partition v with
      | none => (s.fab.withTaken e).completeEntry e .versionState
      | some r =>
        let x := s.fab.version e.partition r
        if x.state = .current then (s.fab.withTaken e).completeEntry e .done
        else if x.state = .loading ∧ (0 < x.outstanding ∨ (0 < x.failed ∧ word e 1 % 2 = 0)) then
          (s.fab.withTaken e).completeEntry e .versionIncomplete
        else ((match s.fab.currentNo e.partition with
          | some c => (s.fab.withTaken e).retire e.partition c
          | none => s.fab.withTaken e).setVersion e.partition r { x with state := .current }).completeEntry e .done) =
      g.completeEntry e st n) (vfs : g.vfs = (s.fab.withTaken e).vfs) :
    ∃ t, exec (.versionSwitch e) s = .next t ∧ Claims.Completed s t e st.code n ∧ DeviceOnly s t ∧ t.fab = g.completeEntry e st n ∧
      g.Opened e := by
  refine ring_completes front rfl ?_ vfs
  dsimp only
  rw [bitsOf_zero, show (2 : Nat) ^ (31 + 1) = 2 ^ 32 from rfl, named, if_neg nonzero]
  exact ran

theorem versionSwitch_claims (front : Claims.front s e 0x31 = true) : let p := e.partition
     let v := word e 0 % 2 ^ 32
     v ≠ 0 →
       (s.fab.versionNo p v = none → ∃ t, exec (.versionSwitch e) s = .next t ∧ Claims.Completed s t e 0x1C 0 ∧ DeviceOnly s t ∧
         t.fab.versions = s.fab.versions) ∧
       (∀ r, s.fab.versionNo p v = some r → (s.fab.version p r).state = .loading → 0 < (s.fab.version p r).outstanding →
         ∃ t, exec (.versionSwitch e) s = .next t ∧ Claims.Completed s t e 0x1D 0 ∧ DeviceOnly s t ∧
           t.fab.versions = s.fab.versions) ∧
       (∀ r c, s.fab.versionNo p v = some r → (s.fab.version p r).state = .loading → (s.fab.version p r).outstanding = 0 →
         (s.fab.version p r).failed = 0 → s.fab.currentNo p = some c → (s.fab.version p c).holds ≠ 0 →
         (∀ k, k < 8 → (s.fab.version p k).state = .current → k = c) →
         ∃ t, exec (.versionSwitch e) s = .next t ∧ Claims.Completed s t e 0 0 ∧ DeviceOnly s t ∧
           t.fab.version p r = { s.fab.version p r with state := .current } ∧
           t.fab.version p c = { s.fab.version p c with state := .retiring } ∧
           t.fab.dget 0x7061 (p + 1) = (s.fab.version p r).version) := by
  intro p v nonzero
  have kept {st : HostStatus} {n : Nat} (h : ∃ t, exec (.versionSwitch e) s = .next t ∧ Claims.Completed s t e st.code n ∧
      DeviceOnly s t ∧ t.fab = (s.fab.withTaken e).completeEntry e st n ∧ (s.fab.withTaken e).Opened e) :
      ∃ t, exec (.versionSwitch e) s = .next t ∧ Claims.Completed s t e st.code n ∧ DeviceOnly s t ∧ t.fab.versions = s.fab.versions := by
    obtain ⟨t, next, completed, only, fab, opened⟩ := h
    refine ⟨t, next, completed, only, ?_⟩
    rw [fab]
    exact (congrArg (·.versions) (opened.completeEntry_rest st n) :)
  refine ⟨fun unknown => kept (exec_versionSwitch (st := .versionState) front rfl nonzero (by rw [unknown]) rfl),
    fun r known loading out => kept (exec_versionSwitch (st := .versionIncomplete) front rfl nonzero ?_ rfl),
    fun r c known loading whole good current held alone => ?_⟩
  · rw [known]
    dsimp only
    rw [loading, if_neg (by decide), if_pos ⟨rfl, .inl out⟩]
  · obtain ⟨lowC, stateC⟩ := Fab.currentNo_spec current
    have lowR := Fab.versionNo_lt known
    have other : r ≠ c := by
      rintro rfl
      rw [loading] at stateC
      cases stateC
    have retired : (s.fab.withTaken e).retire p c = (s.fab.withTaken e).setVersion p c { s.fab.version p c with state := .retiring } :=
      if_neg held
    obtain ⟨t, next, completed, only, fab, opened⟩ := exec_versionSwitch (st := .done) (n := 0) front rfl nonzero
      (g := ((s.fab.withTaken e).setVersion p c { s.fab.version p c with state := .retiring }).setVersion p r
        { s.fab.version p r with state := .current }) (by
        rw [known]
        dsimp only
        rw [loading, if_neg (by decide), whole, good, if_neg (by simp), current]
        dsimp only
        rw [retired]) rfl
    have rest := opened.completeEntry_rest .done 0
    rw [← fab] at rest
    have versions : t.fab.versions = (((s.fab.withTaken e).setVersion p c { s.fab.version p c with state := .retiring }).setVersion p r
        { s.fab.version p r with state := .current }).versions := (congrArg (·.versions) rest :)
    have all := opened.completeEntry_vfs (st := .done) (by decide) 0
    rw [← fab] at all
    have dict : t.fab.dict = (((s.fab.withTaken e).setVersion p c { s.fab.version p c with state := .retiring }).setVersion p r
        { s.fab.version p r with state := .current }).dict := (congrArg (·.dict) all :)
    refine ⟨t, next, completed, only, ?_, ?_, ?_⟩
    · rw [Fab.version_of_versions versions, Fab.version_setVersion_same]
    · rw [Fab.version_of_versions versions, Fab.version_setVersion_ne _ _ lowR lowC (.inr (Ne.symm other)), Fab.version_setVersion_same]
    · rw [Fab.dget_of_dict dict]
      refine Fab.dget_current_setVersion _ lowR rfl fun k hk away => ?_
      by_cases here : k = c
      · rw [here, Fab.version_setVersion_same]
        exact VersionState.noConfusion
      · rw [Fab.version_setVersion_ne _ _ lowC hk (.inr here)]
        exact fun cur => here (alone k hk cur)

/-! ### VERSION_FREE -/

/-- The same for a ring command with memory that reaches none. -/
theorem ring_completes_of_onMem (front : Claims.front s e op = true) {body : W → W} (lift : exec c s = onMem s body)
    (ran : body (W.of s) = { W.of s with fab := g.completeEntry e st n }) (vfs : g.vfs = (s.fab.withTaken e).vfs) :
    ∃ t, exec c s = .next t ∧ Claims.Completed s t e st.code n ∧ DeviceOnly s t ∧ t.fab = g.completeEntry e st n ∧ g.Opened e := by
  obtain ⟨running, -, -, opened⟩ := front_spec front
  have settled : (body (W.of s)).settled = { W.of s with fab := g.completeEntry e st n } := by
    rw [ran]
    rfl
  have next := onMem_running body running (by rw [settled]; rfl)
  rw [settled] at next
  exact ⟨_, lift.trans next, completed_of_taken front vfs st n, ⟨rfl, rfl, rfl⟩, rfl, opened.withTaken.of_vfs vfs⟩

/-- Partition p has no job on any base die. -/
def Fab.jobless (f : Fab) (p : Nat) : Prop := ∀ b, (f.ductusOf b).queue.get [] p = [] ∧ (f.ductusOf b).active.find? p = none

/-- Jobs are cancelled where there are none (R352). -/
theorem W.cancelJobs_of_jobless (w : W) (b : Nat) (q : Job → Bool) (none : w.fab.jobless p) :
    w.cancelJobs p b q = w.map (fun f => f.onDuctus b (fun d => { d with queue := d.queue.set p [] })) := by
  obtain ⟨empty, idle⟩ := none b
  unfold W.cancelJobs
  extract_lets u l w1
  have queue : l = [] := empty
  have active : u.active.find? p = .none := idle
  rw [active]
  have same : w1 = w.map (fun f => f.onDuctus b (fun d => { d with queue := d.queue.set p [] })) := by
    change w.map (fun f => (l.filter q).foldl (fun g j => g.endJob b j 0x01)
      (f.onDuctus b (fun d => { d with queue := d.queue.set p (l.filter (fun j => !q j)) }))) = _
    rw [queue]
    rfl
  exact same

theorem Fab.jobless_onDuctus (none : f.jobless p) (b : Nat) :
    (f.onDuctus b (fun d => { d with queue := d.queue.set p [] })).jobless p := by
  intro b'
  by_cases here : b' = b
  · have own : (f.onDuctus b (fun d => { d with queue := d.queue.set p [] })).ductusOf b' =
        { f.ductusOf b with queue := (f.ductusOf b).queue.set p [] } := here ▸ Tbl.get_set_same _ _ _ _
    rw [own]
    exact ⟨Tbl.get_set_same _ _ _ _, (none b).2⟩
  · have other : (f.onDuctus b (fun d => { d with queue := d.queue.set p [] })).ductusOf b' = f.ductusOf b' := Tbl.get_set_ne _ _ _ here
    rw [other]
    exact none b'

/-- The same over base dies: what is left differs in its Ducti alone. -/
theorem W.foldl_cancelJobs_of_jobless (q : Job → Bool) (l : List Nat) (w : W) (none : w.fab.jobless p) :
    ∃ d, l.foldl (fun y b => y.cancelJobs p b q) w = { w with fab := { w.fab with ductus := d } } := by
  induction l generalizing w with
  | nil => exact ⟨w.fab.ductus, rfl⟩
  | cons b r ih =>
    rw [List.foldl_cons, W.cancelJobs_of_jobless w b q none]
    obtain ⟨d, ran⟩ := ih (w.map (fun f => f.onDuctus b (fun d => { d with queue := d.queue.set p [] }))) (Fab.jobless_onDuctus none b)
    exact ⟨d, ran⟩

theorem find?_congr_of_mem {α : Type} {P Q : α → Bool} {l : List α} (same : ∀ a ∈ l, P a = Q a) : l.find? P = l.find? Q := by
  induction l with
  | nil => rfl
  | cons a r ih =>
    rw [List.find?_cons, List.find?_cons, same a List.mem_cons_self, ih fun b hb => same b (List.mem_cons_of_mem _ hb)]

/-- A record that keeps its version and its state is found as before. -/
theorem Fab.versionNo_of_kept (hr : r < 8) (state : x.state = (f.version p r).state) (version : x.version = (f.version p r).version)
    (versions : g.versions = (f.setVersion p r x).versions) (v : Nat) : g.versionNo p v = f.versionNo p v := by
  refine find?_congr_of_mem fun k hk => ?_
  rw [Fab.version_of_versions versions]
  by_cases here : k = r
  · rw [here, Fab.version_setVersion_same, state, version]
  · rw [Fab.version_setVersion_ne _ _ hr (List.mem_range.1 hk) (.inr here)]

/-- The device whose loading record r waits for VERSION_FREE alone, with its jobs cancelled. -/
def Fab.freeingBy (f : Fab) (p r : Nat) (e : Entry) (d : Tbl Ductus) : Fab :=
  { f.setVersion p r { f.version p r with freeing := [e] } with ductus := d }

/-- It is freed (R352). -/
theorem Fab.freeLoaded_freeingBy (known : f.versionNo p v = some r) (whole : (f.version p r).outstanding = 0) (d : Tbl Ductus) :
    (f.freeingBy p r e d).freeLoaded p v = ((f.freeingBy p r e d).setVersion p r .free).completeEntry e .done := by
  have found : (f.freeingBy p r e d).versionNo p v = some r :=
    (Fab.versionNo_of_kept (f := f) (x := { f.version p r with freeing := [e] }) (Fab.versionNo_lt known) rfl rfl rfl v).trans known
  have own : (f.freeingBy p r e d).version p r = { f.version p r with freeing := [e] } := Fab.version_setVersion_same f p r _
  unfold Fab.freeLoaded
  rw [found]
  dsimp only
  rw [own]
  dsimp only
  rw [whole]
  rfl

theorem versionFree_of_front (front : Claims.front s e 0x32 = true) :
    versionFree e (W.of s) = (match s.fab.versionNo e.partition (word e 0 % 2 ^ 32) with
      | none => (W.begun s e).ends e .versionState
      | some r =>
        let x := s.fab.version e.partition r
        if x.state ≠ .loading then (W.begun s e).ends e .versionState
        else (((List.range 8).foldl (fun y b => y.cancelJobs e.partition b (fun j => jobDest j.desc != 0 &&
            jobVersion j.desc == word e 0 % 2 ^ 32))
          ((W.begun s e).map (fun f => f.setVersion e.partition r { x with freeing := x.freeing ++ [e] }))).map
            (fun f => f.freeLoaded e.partition (word e 0 % 2 ^ 32)))) := by
  unfold versionFree
  rw [W.ring_of_front front, bitsOf_zero]
  rfl

theorem versionFree_claims (front : Claims.front s e 0x32 = true) : let p := e.partition
     let v := word e 0 % 2 ^ 32
     (s.fab.versionNo p v = none → ∃ t, exec (.versionFree e) s = .next t ∧ Claims.Completed s t e 0x1C 0 ∧ t.mem = s.mem ∧
         t.fab.versions = s.fab.versions) ∧
       (∀ r, s.fab.versionNo p v = some r → (s.fab.version p r).state = .loading → (s.fab.version p r).outstanding = 0 →
         (s.fab.version p r).freeing = [] → s.fab.ductus = [] →
         ∃ t, exec (.versionFree e) s = .next t ∧ Claims.Completed s t e 0 0 ∧ t.mem = s.mem ∧
           t.fab.version p r = VersionRec.free ∧ Claims.OtherVersions s t p r) := by
  intro p v
  refine ⟨fun unknown => ?_, fun r known loading whole first idle => ?_⟩
  · have ran := versionFree_of_front front
    rw [unknown] at ran
    obtain ⟨t, next, completed, ⟨mem, -, -⟩, fab, opened⟩ := ring_completes_of_onMem (c := .versionFree e) (g := s.fab.withTaken e)
      (st := .versionState) (n := 0) front rfl ran rfl
    refine ⟨t, next, completed, mem, ?_⟩
    rw [fab]
    exact (congrArg (·.versions) (opened.completeEntry_rest .versionState 0) :)
  · have lowR := Fab.versionNo_lt known
    have ran := versionFree_of_front front
    rw [known] at ran
    dsimp only at ran
    rw [if_neg (not_not_intro loading), first, List.nil_append] at ran
    have jobless : ((W.begun s e).map (fun f => f.setVersion p r { s.fab.version p r with freeing := [e] })).fab.jobless p := by
      intro b
      have none : ((W.begun s e).map (fun f => f.setVersion p r { s.fab.version p r with freeing := [e] })).fab.ductusOf b = .idle :=
        congrArg (fun l : Tbl Ductus => l.get .idle b) idle
      rw [none]
      exact ⟨rfl, rfl⟩
    obtain ⟨d, cancelled⟩ := W.foldl_cancelJobs_of_jobless (fun j => jobDest j.desc != 0 && jobVersion j.desc == v) (List.range 8) _ jobless
    rw [cancelled] at ran
    have freed := Fab.freeLoaded_freeingBy (e := e) (f := s.fab.withTaken e) known whole d
    obtain ⟨t, next, completed, ⟨mem, -, -⟩, fab, opened⟩ := ring_completes_of_onMem (c := .versionFree e) (g := ((s.fab.withTaken e).freeingBy p r e d).setVersion p r .free)
      (st := .done) (n := 0) front rfl (ran.trans (congrArg (fun g : Fab => { W.of s with fab := g }) freed)) rfl
    have versions : t.fab.versions = (((s.fab.withTaken e).freeingBy p r e d).setVersion p r .free).versions := by
      rw [fab]
      exact (congrArg (·.versions) (opened.completeEntry_rest .done 0) :)
    refine ⟨t, next, completed, mem, ?_, fun q k _ hk other => ?_⟩
    · rw [Fab.version_of_versions versions, Fab.version_setVersion_same]
    · rw [Fab.version_of_versions versions, Fab.version_setVersion_ne _ _ lowR hk other]
      exact Fab.version_setVersion_ne (s.fab.withTaken e) _ lowR hk other

end Sys2Proof.Machine
end

section
/-! PROOFS. Batches (O35): the sequences they read, attach and let go of (R251, R258, R350, R351). -/

namespace Sys2Proof.Machine

open Sys2Proof Sys2Proof.Safety

variable {s t : State} {w : W} {f g : Fab} {e : Entry} {c : Instr} {op p r k v n a i : Nat} {st : HostStatus} {l : List Nat}
  {L : List (Nat × Nat)}

/-! ### Reading -/

/-- A range that the Rubric die reads or writes. -/
theorem W.Tends.rubricRange (h : W.Tends s f p L w) (inside : s.fab.inWindows p a n = true) (sound : s.fab.faultless a n)
    (calm : s.fab.calm = true) (nonzero : n ≠ 0) (write : Bool) :
    ∃ g, W.rubric p [(a, n, write)] w = ({ w with fab := g }, none) ∧ W.Tends s f p L { w with fab := g } ∧
      ∀ x, ({ w with fab := g } : W).load p x = w.load p x := by
  have inside' := (h.fab.inWindows p a n).trans inside
  have sound' := h.fab.faultless sound
  have calm' := h.fab.steady.calm.trans calm
  obtain ⟨_, done, _⟩ := W.access_done (w := w) (tag := fun d => w.fab.rubricTag p 0 d) (fun _ => rfl) (fun _ => rfl) nonzero
    inside' sound' calm' write
  obtain ⟨g, access, served, upper⟩ := W.access_of_ok (congrArg (·.2) done)
    (fun _ part served => Fab.corrects_of_faultless (served.faultless sound') part)
  refine ⟨g, ?_, h.served served upper, fun x => W.load_served served x⟩
  unfold W.rubric W.rubricReach W.reach
  dsimp only
  rw [access, if_pos rfl]
  rfl

/-- Records that the Rubric die reads one after the other, none of which is refused. -/
theorem W.Tends.reads (tag : Nat → Bool → Tag) (whose : ∀ d b, (tag d b).partition = p) (who : ∀ d b, (tag d b).source.2 = none)
    (l : List Nat) (h : W.Tends s f p L w) (reach : ∀ a ∈ l, s.fab.Reachable p a) :
    ∃ g, W.reach tag (l.map (fun a => (a, 64, false))) w = ({ w with fab := g }, .ok) ∧ W.Tends s f p L { w with fab := g } ∧
      ∀ x, ({ w with fab := g } : W).load p x = w.load p x := by
  induction l generalizing w with
  | nil => exact ⟨w.fab, rfl, h, fun _ => rfl⟩
  | cons a r ih =>
    have reach' := h.fab.reachable (reach a List.mem_cons_self)
    obtain ⟨_, done, _⟩ := W.access_done (w := w) (tag := fun d => tag d false) (fun d => whose d false) (fun d => who d false) (by decide)
      reach'.inside reach'.faultless reach'.calm false
    obtain ⟨g, access, served, upper⟩ := W.access_of_ok (congrArg (·.2) done)
      (fun _ part served => Fab.corrects_of_faultless (served.faultless reach'.faultless) part)
    obtain ⟨g', rest, tends, loads⟩ := ih (h.served served upper) (fun b hb => reach b (List.mem_cons_of_mem _ hb))
    refine ⟨g', ?_, tends, fun x => (loads x).trans (W.load_served served x)⟩
    rw [List.map_cons]
    unfold W.reach
    dsimp only
    rw [access, if_pos rfl]
    exact rest

/-- The sequences of a batch read. -/
theorem W.Tends.readSeqs (h : W.Tends s f p L w) (l : List Nat)
    (reach : ∀ i ∈ l, i < (s.fab.seqTable p).2 → s.fab.Reachable p (s.fab.seqAddr p i)) :
    ∃ w', w.readSeqs p l = (w', none) ∧ W.Tends s f p L w' ∧ ∀ x, w'.load p x = w.load p x := by
  have table : w.fab.seqTable p = s.fab.seqTable p := Fab.seqTable_of_inForce h.fab.inForce p
  have places : (l.filter (fun i => Nat.blt i (w.fab.seqTable p).2)).map (fun i => (w.fab.seqAddr p i, 64, false)) =
      ((l.filter (fun i => Nat.blt i (s.fab.seqTable p).2)).map (s.fab.seqAddr p)).map (fun a => (a, 64, false)) := by
    rw [List.map_map, table]
    exact List.map_congr_left fun i _ => by rw [h.fab.seqAddr]; rfl
  obtain ⟨g, read, tends, loads⟩ := h.reads (fun d _ => w.fab.rubricTag p 0 d) (fun _ _ => rfl) (fun _ _ => rfl)
    ((l.filter (fun i => Nat.blt i (s.fab.seqTable p).2)).map (s.fab.seqAddr p)) (fun a ha => by
      obtain ⟨i, hi, rfl⟩ := List.mem_map.1 ha
      obtain ⟨mem, low⟩ := List.mem_filter.1 hi
      exact reach i mem (Nat.le_of_ble_eq_true low))
  refine ⟨_, ?_, tends, loads⟩
  rw [W.readSeqs, places, W.rubric, W.rubricReach, read]

/-- The sequences of a batch checked (R258): what is read changes nothing, and one that passes may join. -/
theorem W.Tends.admissionList {version : Nat} (l : List Nat) (k : Nat) (h : W.Tends s f p [] w)
    (reach : ∀ i ∈ l, i < (s.fab.seqTable p).2 → s.fab.Reachable p (s.fab.seqAddr p i)) :
    W.Tends s f p [] (W.admissionList p version k l w).1 ∧ ((W.admissionList p version k l w).2 = none →
      ∀ i ∈ l, i < (s.fab.seqTable p).2 ∧ admissionCheck ((W.of s).seq p i) version = none) := by
  induction l generalizing w k with
  | nil => exact ⟨h, fun _ _ mem => nomatch mem⟩
  | cons i r ih =>
    have table : w.fab.seqTable p = s.fab.seqTable p := Fab.seqTable_of_inForce h.fab.inForce p
    unfold W.admissionList
    rw [table]
    by_cases past : (s.fab.seqTable p).2 ≤ i
    · rw [if_pos past]
      exact ⟨h, fun none => nomatch none⟩
    · obtain ⟨g, read, tends, -⟩ := h.readEntry (reach i List.mem_cons_self (by omega))
      have record : ({ w with fab := g } : W).seq p i = (W.of s).seq p i := by
        rw [W.seq, tends.fab.seqAddr]
        exact tends.record (fun _ none => nomatch none)
      rw [if_neg past, h.fab.seqAddr, read]
      dsimp only
      rw [record]
      split
      · exact ⟨tends, fun none => nomatch none⟩
      · next passes =>
        obtain ⟨tends', all⟩ := ih (k + 1) tends (fun j hj => reach j (List.mem_cons_of_mem _ hj))
        refine ⟨tends', fun none j hj => ?_⟩
        rcases List.mem_cons.1 hj with rfl | later
        · exact ⟨by omega, passes⟩
        · exact all none j later

/-! ### Writing one record after the other -/

theorem Fab.seqAddr_apart (f : Fab) (p : Nat) {i j : Nat} (other : i ≠ j) : Claims.apart (f.seqAddr p i) 64 (f.seqAddr p j) 64 := by
  unfold Claims.apart Fab.seqAddr
  omega

/-- A step that rewrites the record of one sequence by a function. -/
def W.Rewrites (s : State) (f : Fab) (p : Nat) (L : List (Nat × Nat)) (step : W → Nat → W) (F : Nat → Nat) (i : Nat) : Prop :=
  ∀ w, W.Tends s f p L w → ∃ w', W.Tends s f p L w' ∧ (∀ x, w'.load p x = w.load p x) ∧ step w i = w'.putSeq p i (F (w'.seq p i))

theorem W.foldl_rewrites {step : W → Nat → W} {F : Nat → Nat} (l : List Nat) (h : W.Tends s f p L w)
    (named : ∀ i ∈ l, (s.fab.seqAddr p i, 64) ∈ L) (reach : ∀ i ∈ l, s.fab.Reachable p (s.fab.seqAddr p i))
    (bound : ∀ v, v < 256 ^ 64 → F v < 256 ^ 64) (each : ∀ i ∈ l, W.Rewrites s f p L step F i) :
    W.Tends s f p L (l.foldl step w) ∧
      (∀ i, (l.foldl step w).loadNat p (s.fab.seqAddr p i) 64 = F^[l.count i] (w.loadNat p (s.fab.seqAddr p i) 64)) ∧
      ∀ x, (∀ i ∈ l, x < s.fab.seqAddr p i ∨ s.fab.seqAddr p i + 64 ≤ x) → (l.foldl step w).load p x = w.load p x := by
  induction l generalizing w with
  | nil => exact ⟨h, fun _ => rfl, fun _ _ => rfl⟩
  | cons i r ih =>
    obtain ⟨w', tends, loads, done⟩ := each i List.mem_cons_self w h
    have own : w'.seq p i = w.loadNat p (s.fab.seqAddr p i) 64 := by
      rw [W.seq, tends.fab.seqAddr]
      exact W.loadNat_congr (fun x _ _ => loads x)
    obtain ⟨put, record, rest⟩ := tends.putEntry (reach i List.mem_cons_self) (bound _ (w'.seq_lt p i))
    have place : w'.putSeq p i (F (w'.seq p i)) = w'.putEntry p (s.fab.seqAddr p i) (F (w'.seq p i)) := by rw [W.putSeq, tends.fab.seqAddr]
    have put' := put.mono (l' := L) (List.append_subset.2 ⟨fun _ h => h,
      List.cons_subset.2 ⟨named i List.mem_cons_self, List.nil_subset _⟩⟩)
    obtain ⟨last, records, others⟩ := ih put' (fun j hj => named j (List.mem_cons_of_mem _ hj)) (fun j hj => reach j (List.mem_cons_of_mem _ hj))
      (fun j hj => each j (List.mem_cons_of_mem _ hj))
    rw [List.foldl_cons, done, place]
    refine ⟨last, fun j => ?_, fun x hx => ?_⟩
    · rw [records j]
      by_cases here : j = i
      · rw [here, record, own, List.count_cons_self, Function.iterate_succ_apply]
      · rw [List.count_cons_of_ne (Ne.symm here)]
        exact congrArg _ (W.loadNat_congr fun x low high =>
          (rest x (outside_of_apart (s.fab.seqAddr_apart p here) low high)).trans (loads x))
    · rw [others x fun j hj => hx j (List.mem_cons_of_mem _ hj), rest x (hx i List.mem_cons_self), loads]

/-! ### Attaching and letting go -/

/-- A record of a sequence as another batch of a version joins it (R258). -/
def attached (version v : Nat) : Nat :=
  if seqVersion v = 0 then setBits (setAttach v (seqAttach v + 1)) 415 384 version else setAttach v (seqAttach v + 1)

/-- A record of a sequence as a batch lets it go (R258). -/
def detached (v : Nat) : Nat := setAttach v (seqAttach v - 1)

theorem seqAttach_lt (v : Nat) : seqAttach v < 65536 := Nat.mod_lt _ (by decide)

theorem setAttach_lt {v : Nat} (bound : v < 256 ^ 64) (x : Nat) : setAttach v x < 256 ^ 64 :=
  setBits_lt_entry bound (by decide) (by decide) x

theorem attached_lt {version v : Nat} (bound : v < 256 ^ 64) : attached version v < 256 ^ 64 := by
  unfold attached
  split
  · exact setBits_lt_entry (setAttach_lt bound _) (by decide) (by decide) _
  · exact setAttach_lt bound _

theorem seqAttach_setAttach (v x : Nat) : seqAttach (setAttach v x) = x % 65536 := bitsOf_setBits (by decide)

theorem seqAttach_attached (version v : Nat) : seqAttach (attached version v) = (seqAttach v + 1) % 65536 := by
  unfold attached
  split
  · rw [show seqAttach (setBits (setAttach v (seqAttach v + 1)) 415 384 version) = seqAttach (setAttach v (seqAttach v + 1)) from
      bitsOf_setBits_apart (by decide) (.inl (by decide)), seqAttach_setAttach]
  · rw [seqAttach_setAttach]

theorem seqVersion_attached {version v : Nat} (bound : version < 2 ^ 32) (may : seqVersion v = 0 ∨ seqVersion v = version) :
    seqVersion (attached version v) = version := by
  have kept : seqVersion (setAttach v (seqAttach v + 1)) = seqVersion v := bitsOf_setBits_apart (by decide) (.inr (by decide))
  unfold attached
  split
  · exact (bitsOf_setBits (by decide)).trans (Nat.mod_eq_of_lt bound)
  · next held => rw [kept, may.resolve_left held]

theorem seqAttach_iterate_attached (version : Nat) (n v : Nat) : seqAttach ((attached version)^[n] v) = (seqAttach v + n) % 65536 := by
  induction n with
  | zero => exact (Nat.mod_eq_of_lt (seqAttach_lt v)).symm
  | succ n ih =>
    rw [Function.iterate_succ_apply', seqAttach_attached, ih]
    omega

theorem seqVersion_iterate_attached {version : Nat} (bound : version < 2 ^ 32) {v : Nat} (may : seqVersion v = 0 ∨ seqVersion v = version) (n : Nat) :
    seqVersion ((attached version)^[n + 1] v) = version := by
  induction n with
  | zero => exact seqVersion_attached bound may
  | succ n ih =>
    rw [Function.iterate_succ_apply']
    exact seqVersion_attached bound (.inr ih)

theorem seqAttach_iterate_detached (n v : Nat) : seqAttach (detached^[n] v) = seqAttach v - n := by
  induction n with
  | zero => rfl
  | succ n ih =>
    have low := seqAttach_lt v
    rw [Function.iterate_succ_apply', detached, seqAttach_setAttach, ih]
    omega

theorem W.rewrites_attach (s : State) (f : Fab) (p : Nat) (L : List (Nat × Nat)) (version i : Nat) :
    W.Rewrites s f p L (fun x i => x.attach p version i) (attached version) i :=
  fun w h => ⟨w, h, fun _ => rfl, rfl⟩

theorem W.rewrites_detach (reach : s.fab.Reachable p (s.fab.seqAddr p i)) (f : Fab) (L : List (Nat × Nat)) :
    W.Rewrites s f p L (fun x i => x.onSeq p i (fun v x => x.putSeq p i (setAttach v (seqAttach v - 1)))) detached i := by
  intro w h
  obtain ⟨g, read, tends, loads⟩ := h.readEntry reach
  refine ⟨_, tends, loads, ?_⟩
  dsimp only
  rw [W.onSeq, h.fab.seqAddr, read]
  rfl

/-! ### BATCH_ADMIT -/

/-- BATCH_ADMIT of a running partition with a Current version and a list that its function reaches. -/
theorem batchAdmit_of_front {seqs : List Nat} (front : Claims.front s e 0x03 = true) (runs : s.fab.dget 0xB001 (e.partition + 1) = 2)
    (positive : 1 ≤ n) (few : n ≤ 4096) (size : word e 2 % 8192 = n) (length : seqs.length = n) (current : s.fab.currentNo e.partition = some r)
    (room : (s.fab.version e.partition r).holds < 65535) (table : s.fab.inHostWindow e.partition (word e 1) (2 * n) false = true) :
    batchAdmit e seqs (W.of s) =
      match W.admissionList e.partition (s.fab.version e.partition r).version 0 (seqs.map (· % 65536)) (W.begun s e) with
      | (w1, some (st, k, i)) => w1.ends e st (admissionDetail st k i)
      | (w1, none) =>
        match (if s.fab.inWindows e.partition (word e 0) 128 then W.rubric e.partition [(word e 0, 128, true)] w1 else (w1, some .outOfMap)) with
        | (w2, some st) => w2.ends e st
        | (w2, none) => (((seqs.map (· % 65536)).foldl (fun x i => x.attach e.partition (s.fab.version e.partition r).version i)
            (w2.store e.partition (word e 0) (versionBlock (s.fab.version e.partition r)))).map (fun f =>
          { f.setVersion e.partition r { s.fab.version e.partition r with holds := (s.fab.version e.partition r).holds + 1 } with
            batches := f.batches ++ [⟨e.partition, e.tag, (s.fab.version e.partition r).version, seqs.map (· % 65536)⟩] })).ends e .done
              (s.fab.version e.partition r).version := by
  have whole : (seqs ++ List.replicate n 0).take n = seqs := by rw [List.take_append_of_le_length (by omega), ← length, List.take_length]
  have current' : (W.begun s e).fab.currentNo e.partition = .some r := current
  have runs' : (W.begun s e).fab.dget 0xB001 (e.partition + 1) = 2 := runs
  have table' : (W.begun s e).fab.inHostWindow e.partition (word e 1) (2 * n) false = true := table
  unfold batchAdmit
  rw [W.ring_of_front front]
  dsimp only
  rw [bitsOf_zero, show (2 : Nat) ^ (12 + 1) = 8192 from rfl, size, whole, if_neg (not_not_intro runs'), if_neg (by omega), current']
  refine (if_neg (Nat.ne_of_lt room)).trans ((if_neg ?_).trans rfl)
  rw [table']
  decide

/-- A ring command whose work on tables ends with a change of the device that is nothing to memory, and then its completion. -/
theorem W.Tends.completes_with (front : Claims.front s e op = true) (h : W.Tends s (s.fab.withTaken e) e.partition L w)
    {body : W → W} (lift : exec c s = onMem s body) {k : Fab → Fab} (keys : (k w.fab).lineKey = w.fab.lineKey)
    (fills : (k w.fab).fills = w.fab.fills) (inForce : (k w.fab).inForce = w.fab.inForce) (vfs : (k w.fab).vfs = w.fab.vfs)
    (ran : body (W.of s) = (w.map k).ends e st n) :
    ∃ t, exec c s = .next t ∧ Claims.Completed s t e st.code n ∧ W.Leaves w s t e.partition L ∧ t.fab = (k w.fab).completeEntry e st n ∧
      (k w.fab).Opened e := by
  obtain ⟨running, -, -, opened⟩ := front_spec front
  have vfs' := vfs.trans h.vfs
  have opened' := opened.withTaken.of_vfs vfs'
  have rest := opened'.completeEntry_rest st n
  obtain ⟨t, next, fab, sec, -, leaves⟩ := h.next (g := fun f => (k f).completeEntry e st n) running
    ((congrArg (·.lineKey) rest : _).trans keys) ((congrArg (·.fills) rest : _).trans fills)
    ((congrArg (·.inForce) rest : _).trans inForce) ran
  obtain ⟨own, others⟩ := opened'.completeEntry_vf st n
  rw [← fab, Fab.vf_of_vfs vfs', Fab.withTaken, Fab.vf_onVf_same] at own
  refine ⟨t, lift.trans next, ⟨by rw [own], by rw [own], by rw [own], fun q other => ?_, sec⟩, leaves, fab, opened'⟩
  rw [fab, others q other, Fab.vf_of_vfs vfs', Fab.withTaken, Fab.vf_onVf_ne _ _ other]

/-- What its work on tables leaves of the weight versions and the batches. -/
theorem W.Tends.books (h : W.Tends s f p L w) : w.fab.versions = s.fab.versions ∧ w.fab.batches = s.fab.batches :=
  ⟨congrArg (·.versions) h.fab.steady.rest, congrArg (·.batches) h.fab.steady.rest⟩

theorem Fab.version_of_set {x : VersionRec} {l : Tbl VersionRec} (h : f.versions = l.set (8 * p + r) x) : f.version p r = x :=
  (congrArg (fun l : Tbl VersionRec => l.get .free (8 * p + r)) h).trans (Tbl.get_set_same _ _ _ _)

/-- BATCH_ADMIT of a partition that does not run. -/
theorem exec_batchAdmit_busy {seqs : List Nat} (front : Claims.front s e 0x03 = true) (stopped : s.fab.dget 0xB001 (e.partition + 1) ≠ 2) :
    ∃ t, exec (.batchAdmit e seqs) s = .next t ∧ Claims.Completed s t e 0x0B 0 ∧ t.mem = s.mem := by
  refine (W.tends_begun s e).refuses (st := .busy) (c := .batchAdmit e seqs) front rfl ?_
  unfold batchAdmit
  rw [W.ring_of_front front]
  exact if_pos stopped

theorem length_versionBlock (v : VersionRec) : (versionBlock v).length = 128 := by
  have places : ((List.range 8).flatMap (fun i => let a := v.areas.getD i (0, 0); leBytes 8 (if a.2 = 0 then 0 else a.1))).length = 64 := by
    simp only [List.length_flatMap, leBytes_length]
    rfl
  unfold versionBlock
  rw [List.length_append, List.length_append, List.length_append, leBytes_length, leBytes_length, List.length_replicate, places]

theorem admissionCheck_version {v version : Nat} (passes : admissionCheck v version = none) : seqVersion v = 0 ∨ seqVersion v = version := by
  by_contra other
  rw [not_or] at other
  unfold admissionCheck at passes
  iterate 4 (split at passes; · cases passes)
  cases passes

/-- What is stored reads back. -/
theorem loads_of_stored {bytes : List Byte} {old : Nat → Byte}
    (h : ∀ x, w.load p x = if a ≤ x ∧ x < a + bytes.length then bytes.getD (x - a) 0 else old x) :
    w.loads p a bytes.length = bytes := by
  refine List.ext_getElem (by simp [W.loads]) fun i hi hi' => ?_
  simp only [W.loads, List.getElem_map, List.getElem_range]
  rw [h, if_pos ⟨by omega, by omega⟩, Nat.add_sub_cancel_left,
    List.getD_eq_getElem _ _ hi']

theorem batchAdmit_claims (front : Claims.front s e 0x03 = true) (seqs : List Nat) (r : Nat) : let p := e.partition
      let n := word e 2 % 8192
      let l := seqs.map (· % 65536)
      let v := s.fab.version p r
      let a := word e 0
      let g := { W.of s with fab := s.fab.onVf p (fun v => { v with fetched := v.fetched.tail }) }
      s.fab.dget 0xB001 (p + 1) = 2 → 1 ≤ n → n ≤ 4096 → seqs.length = n →
       s.fab.currentNo p = some r → v.holds < 65535 → v.version < 2 ^ 32 → s.fab.inHostWindow p (word e 1) (2 * n) false = true →
       (∀ i ∈ l, i < (s.fab.seqTable p).2 → Claims.readable s p (s.fab.seqAddr p i) = true) →
       (∀ st k i, (W.admissionList p v.version 0 l g).2 = some (st, k, i) →
         ∃ t, exec (.batchAdmit e seqs) s = .next t ∧ 
           Claims.Completed s t e st.code (if st = .outOfMap ∨ st = .memUncorrectable then 0 else k * 2 ^ 32 + i) ∧ t.mem = s.mem ∧
           t.fab.batches = s.fab.batches) ∧
       ((W.admissionList p v.version 0 l g).2 = none → s.fab.inWindows p a 128 = true → Claims.sound s a 128 = true →
         (∀ i ∈ l, Claims.apart a 128 (s.fab.seqAddr p i) 64) →
         ∃ t, exec (.batchAdmit e seqs) s = .next t ∧ Claims.Completed s t e 0 v.version ∧
           Claims.MemKept s t p ((a, 128) :: l.map (fun i => (s.fab.seqAddr p i, 64))) ∧
           (W.of t).loads p a 128 = versionBlock v ∧ t.fab.batches = s.fab.batches ++ [⟨p, e.tag, v.version, l⟩] ∧
           t.fab.version p r = { v with holds := v.holds + 1 } ∧
           ∀ i ∈ l, seqVersion ((W.of t).seq p i) = v.version ∧
             seqAttach ((W.of t).seq p i) = (seqAttach ((W.of s).seq p i) + l.count i) % 65536) := by
  intro p n l v a g runs positive few length current room small table readable
  have reach : ∀ i ∈ l, i < (s.fab.seqTable p).2 → s.fab.Reachable p (s.fab.seqAddr p i) :=
    fun i hi low => Fab.reachable_of_readable (readable i hi low)
  have ran := batchAdmit_of_front front runs positive few rfl length current room table
  obtain ⟨tends, checked⟩ := W.Tends.admissionList (version := v.version) l 0 (W.tends_begun s e) reach
  have start : g = W.begun s e := rfl
  rw [start]
  refine ⟨fun st k i fails => ?_, fun passes inside sound clear => ?_⟩
  · rw [← Prod.mk.eta (p := W.admissionList e.partition (s.fab.version e.partition r).version 0 (seqs.map (· % 65536)) (W.begun s e)),
      fails] at ran
    obtain ⟨t, next, completed, leaves, fab, opened⟩ := tends.completes_with (k := fun f => f) (c := .batchAdmit e seqs) front rfl rfl rfl rfl
      rfl ran
    refine ⟨t, next, completed, leaves.mem rfl, ?_⟩
    rw [fab]
    exact (congrArg (·.batches) (opened.completeEntry_rest _ _) :).trans tends.books.2
  · rw [← Prod.mk.eta (p := W.admissionList e.partition (s.fab.version e.partition r).version 0 (seqs.map (· % 65536)) (W.begun s e)),
      passes] at ran
    dsimp only at ran
    have joins := checked passes
    obtain ⟨i0, mem0⟩ : ∃ i, i ∈ l := by
      obtain ⟨i, hi⟩ := List.exists_mem_of_length_pos (l := l) (by rw [List.length_map]; omega)
      exact ⟨i, hi⟩
    have any := reach i0 mem0 (joins i0 mem0).1
    have all : ∀ i ∈ l, s.fab.Reachable p (s.fab.seqAddr p i) := fun i hi => reach i hi (joins i hi).1
    obtain ⟨h, written, begun, same⟩ := tends.rubricRange inside (faultless_of_sound sound) any.calm (by decide) true
    rw [if_pos inside, written] at ran
    dsimp only at ran
    have block := length_versionBlock v
    obtain ⟨stored, loads⟩ := begun.store (a := a) (bytes := versionBlock v) any.idle (block ▸ faultless_of_sound sound)
    have wide := stored.mono (l' := (a, 128) :: l.map (fun i => (s.fab.seqAddr p i, 64))) (by
      rw [block]
      exact List.cons_subset.2 ⟨List.mem_cons_self, List.nil_subset _⟩)
    obtain ⟨last, records, others⟩ := W.foldl_rewrites (F := attached v.version) l wide
      (fun i hi => List.mem_cons_of_mem _ (List.mem_map.2 ⟨i, hi, rfl⟩)) all (fun _ => attached_lt) (fun i _ => W.rewrites_attach s _ p _ v.version i)
    obtain ⟨t, next, completed, leaves, fab, opened⟩ := last.completes_with (c := .batchAdmit e seqs) front rfl
      (k := fun f => { f.setVersion p r { v with holds := v.holds + 1 } with batches := f.batches ++ [⟨p, e.tag, v.version, l⟩] })
      rfl rfl rfl rfl ran
    have rest := opened.completeEntry_rest .done v.version
    rw [← fab] at rest
    have record (i : Nat) (hi : i ∈ l) : (W.of t).seq p i = (attached v.version)^[l.count i] ((W.of s).seq p i) := by
      rw [leaves.seq, records i]
      refine congrArg _ (W.loadNat_congr fun x low high => ?_)
      have away := outside_of_apart_right (clear i hi) low high
      rw [loads, if_neg (by rw [block]; omega), same]
      exact tends.kept x (fun _ none => nomatch none)
    refine ⟨t, next, completed, leaves.kept, ?_, ?_, ?_, fun i hi => ?_⟩
    · have back := loads_of_stored loads
      rw [block] at back
      rw [← back]
      refine W.loads_congr fun x low high => ?_
      rw [leaves.load, others x fun i hi => outside_of_apart (clear i hi) low high]
    · exact (congrArg (·.batches) rest :).trans (congrArg (· ++ [⟨p, e.tag, v.version, l⟩]) last.books.2)
    · exact Fab.version_of_set (congrArg (·.versions) rest :)
    · obtain ⟨m, count⟩ := Nat.exists_eq_succ_of_ne_zero (Nat.ne_of_gt (List.count_pos_iff.2 hi))
      rw [record i hi]
      refine ⟨?_, seqAttach_iterate_attached _ _ _⟩
      rw [count]
      exact seqVersion_iterate_attached small (admissionCheck_version (joins i hi).2) m

/-! ### BATCH_END -/

/-- The hold count of a Current version falls (R351). -/
theorem Fab.unhold_of_current (versions : g.versions = f.versions) (known : f.versionNo p v = some r)
    (current : (f.version p r).state = .current) :
    g.unhold p v = g.setVersion p r { f.version p r with holds := (f.version p r).holds - 1 } := by
  have known' : g.versionNo p v = some r := (find?_congr_of_mem fun k _ => by rw [Fab.version_of_versions versions]).trans known
  unfold Fab.unhold
  rw [known']
  dsimp only
  rw [Fab.version_of_versions versions]
  exact if_neg fun h => by rw [current] at h; cases h.1

/-- The end of a batch whose version is Current (R351). -/
theorem W.endBatch_of_current {b : Batch} {w2 : W} (mine : b.partition = p)
    (left : b.seqs.foldl (fun x i => x.onSeq p i (fun v x => x.putSeq p i (setAttach v (seqAttach v - 1)))) w = w2)
    (versions : w2.fab.versions = f.versions) (known : f.versionNo p b.version = some r) (current : (f.version p r).state = .current) :
    w.endBatch b = w2.map (fun g => { g with batches := removeFirst (· == b) g.batches }.setVersion p r
      { f.version p r with holds := (f.version p r).holds - 1 }) := by
  subst mine left
  unfold W.endBatch
  extract_lets w1
  exact congrArg (fun h : Fab => ({ w1 with fab := h } : W))
    (Fab.unhold_of_current (g := { w1.fab with batches := removeFirst (· == b) w1.fab.batches }) versions known current)

theorem batchEnd_claims (front : Claims.front s e 0x04 = true) : let p := e.partition
      (s.fab.batches.find? (fun b => b.partition == p && b.tag == word e 0 % 2 ^ 32) = none →
         ∃ t, exec (.batchEnd e) s = .next t ∧ Claims.Completed s t e 0x0D 0 ∧ t.mem = s.mem ∧ t.fab.batches = s.fab.batches) ∧
       (∀ b r, s.fab.batches.find? (fun b => b.partition == p && b.tag == word e 0 % 2 ^ 32) = some b →
         (∀ i ∈ b.seqs, i < (s.fab.seqTable p).2 ∧ Claims.readable s p (s.fab.seqAddr p i) = true) → s.fab.versionNo p b.version = some r →
         (s.fab.version p r).state = .current →
         ∃ t, exec (.batchEnd e) s = .next t ∧ Claims.Completed s t e 0 0 ∧
           Claims.MemKept s t p (b.seqs.map (fun i => (s.fab.seqAddr p i, 64))) ∧
           t.fab.batches = removeFirst (· == b) s.fab.batches ∧
           t.fab.version p r = { s.fab.version p r with holds := (s.fab.version p r).holds - 1 } ∧
           ∀ i ∈ b.seqs, seqAttach ((W.of t).seq p i) = seqAttach ((W.of s).seq p i) - b.seqs.count i) := by
  intro p
  have ran : batchEnd e (W.of s) = match s.fab.batches.find? (fun b => b.partition == p && b.tag == word e 0 % 2 ^ 32) with
      | none => (W.begun s e).ends e .notFound
      | some b => match (W.begun s e).readSeqs p b.seqs with
        | (w1, some st) => w1.ends e st
        | (w1, none) => (w1.endBatch b).ends e .done := by
    unfold batchEnd
    rw [W.ring_of_front front, bitsOf_zero]
    rfl
  refine ⟨fun unknown => ?_, fun b r found readable known current => ?_⟩
  · rw [unknown] at ran
    obtain ⟨t, next, completed, leaves, fab, opened⟩ := (W.tends_begun s e).completes_with (k := fun f => f) (c := .batchEnd e) front rfl rfl
      rfl rfl rfl ran
    refine ⟨t, next, completed, leaves.mem rfl, ?_⟩
    rw [fab]
    exact (congrArg (·.batches) (opened.completeEntry_rest _ _) :)
  · have mine : b.partition = p := by
      have here := List.find?_some found
      simp only [Bool.and_eq_true, beq_iff_eq] at here
      exact here.1
    have all : ∀ i ∈ b.seqs, s.fab.Reachable p (s.fab.seqAddr p i) := fun i hi => Fab.reachable_of_readable (readable i hi).2
    obtain ⟨w', read, tends, loads⟩ := (W.tends_begun s e).readSeqs b.seqs (fun i hi _ => all i hi)
    have wide := tends.mono (l' := b.seqs.map (fun i => (s.fab.seqAddr p i, 64))) (List.nil_subset _)
    obtain ⟨last, records, -⟩ := W.foldl_rewrites (F := detached) b.seqs wide (fun i hi => List.mem_map.2 ⟨i, hi, rfl⟩) all
      (fun _ bound => setAttach_lt bound _) (fun i hi => W.rewrites_detach (all i hi) _ _)
    rw [found] at ran
    dsimp only at ran
    rw [read] at ran
    dsimp only at ran
    rw [W.endBatch_of_current mine rfl last.books.1 known current] at ran
    obtain ⟨t, next, completed, leaves, fab, opened⟩ := last.completes_with (c := .batchEnd e) front rfl
      (k := fun f => { f with batches := removeFirst (· == b) f.batches }.setVersion p r
        { s.fab.version p r with holds := (s.fab.version p r).holds - 1 }) rfl rfl rfl rfl ran
    have rest := opened.completeEntry_rest .done 0
    rw [← fab] at rest
    refine ⟨t, next, completed, leaves.kept, (congrArg (·.batches) rest :).trans (congrArg (removeFirst (· == b)) last.books.2), ?_,
      fun i hi => ?_⟩
    · exact Fab.version_of_set (congrArg (·.versions) rest :)
    · have before : w'.loadNat p (s.fab.seqAddr p i) 64 = (W.of s).seq p i := W.loadNat_congr fun x _ _ => (loads x).trans
        ((W.tends_begun s e).kept x (fun _ none => nomatch none))
      have after : (W.of t).seq p i = detached^[b.seqs.count i] ((W.of s).seq p i) := by
        refine (leaves.seq i).trans ?_
        refine (records i).trans ?_
        exact congrArg _ before
      rw [after, seqAttach_iterate_detached]

/-- Settles O35: the commands of weight versions, then those of batches. -/
theorem versionsAndBatches : Obligations.VersionsAndBatches := by
  unfold Obligations.VersionsAndBatches
  refine ⟨fun s e => ?_, fun s e => ?_⟩
  · intro p v free low
    exact ⟨fun areas front table => versionOpen_claims front table, fun front nonzero => versionSwitch_claims front nonzero,
      fun front => versionFree_claims front⟩
  · intro p
    refine ⟨fun seqs r => ?_, fun seqs front stopped => exec_batchAdmit_busy front stopped, fun front => batchEnd_claims front⟩
    intro n l v a g front
    exact batchAdmit_claims front seqs r

end Sys2Proof.Machine
end

section
/-! PROOFS. Collectives as their messages find them (R306 to R327): the record of a collective, what it sends, the memory it reaches, and
what a message leaves of a collective that waits for nothing. -/

namespace Sys2Proof.Machine

open Sys2Proof Sys2Proof.Safety

variable {s t : State} {w : W} {f g h : Fab} {c d : Coll} {m : CollMsg} {k : FlowKey} {id n ch : Nat} {bytes : List Byte}
  {cast : Option (Nat × Nat × Bool)}

/-! ### The record of a collective -/

theorem Fab.id_of_coll? (found : f.coll? id = some c) : c.id = id := by
  have here : (c.id == id) = true := List.find?_some (p := fun c : Coll => c.id == id) found
  exact beq_iff_eq.1 here

theorem Fab.coll?_of_colls (same : g.colls = f.colls) (id : Nat) : g.coll? id = f.coll? id := by
  rw [Fab.coll?, same, Fab.coll?]

theorem Fab.coll?_onColl {step : Coll → Coll} (found : f.coll? id = some c) (keeps : (step c).id = c.id) :
    (f.onColl id step).coll? id = some (step c) :=
  find?_updateFirst found (beq_iff_eq.2 (keeps.trans (Fab.id_of_coll? found)))

/-! ### What a flow sends -/

/-- The device but for its flows and what goes out. -/
def Fab.unflowed (f : Fab) : Fab := { f with flows := [], netOut := [] }

/-- A device that differs by its flows and what goes out alone. -/
theorem Fab.eq_of_unflowed (same : g.unflowed = f.unflowed) : g = { f with flows := g.flows, netOut := g.netOut } :=
  congrArg (fun h : Fab => { h with flows := g.flows, netOut := g.netOut }) same

theorem Fab.unflowed_onFlow (f : Fab) (k : FlowKey) (step : Flow → Flow) : (f.onFlow k step).unflowed = f.unflowed := by
  unfold Fab.onFlow
  split <;> rfl

theorem Fab.netOut_onFlow (f : Fab) (k : FlowKey) (step : Flow → Flow) : (f.onFlow k step).netOut = f.netOut := by
  unfold Fab.onFlow
  split <;> rfl

theorem Fab.flow_onFlow {step : Flow → Flow} (f : Fab) (k : FlowKey) (keeps : ∀ x, (step x).key = x.key) :
    (f.onFlow k step).flow k = step (f.flow k) := by
  unfold Fab.onFlow Fab.flow
  by_cases known : f.flows.any (fun x => x.key == k) = true
  · obtain ⟨x, found⟩ : ∃ x, f.flows.find? (fun x => x.key == k) = some x := by
      obtain ⟨y, hy, here⟩ := List.any_eq_true.1 known
      exact Option.isSome_iff_exists.1 (List.find?_isSome.2 ⟨y, hy, here⟩)
    have key : ((step x).key == k) = true := by
      rw [keeps]
      exact List.find?_some (p := fun x : Flow => x.key == k) found
    rw [if_pos known, found]
    dsimp only
    rw [find?_updateFirst found key]
    rfl
  · have none : f.flows.find? (fun x => x.key == k) = .none := by
      rw [List.find?_eq_none]
      intro x hx here
      exact known (List.any_eq_true.2 ⟨x, hx, here⟩)
    have new : ((step (newFlow k)).key == k) = true := by
      rw [keeps]
      exact beq_self_eq_true k
    rw [if_neg known, none]
    dsimp only
    rw [List.find?_append, none, List.find?_cons, new]
    rfl

theorem Fab.unflowed_pumpFlow (k : FlowKey) (n : Nat) (f : Fab) : (Fab.pumpFlow k n f).unflowed = f.unflowed := by
  induction n generalizing f with
  | zero => rfl
  | succ n ih =>
    unfold Fab.pumpFlow
    extract_lets x
    split
    · split
      · rw [ih]
        exact Fab.unflowed_onFlow f k _
      · rfl
    · rfl

theorem Fab.unflowed_flowSend (f : Fab) (k : FlowKey) (ch : Nat) (bytes : List Byte) (cast : Option (Nat × Nat × Bool)) :
    (f.flowSend k ch bytes cast).unflowed = f.unflowed :=
  (Fab.unflowed_pumpFlow k _ _).trans (Fab.unflowed_onFlow f k _)

/-- The packet that a message becomes on a flow with room (R371). -/
def Fab.outPacket (f : Fab) (k : FlowKey) (ch : Nat) (bytes : List Byte) : NetOut :=
  .kolas (f.flowDress k ch) k 1 ch (f.flow k).nextPsn (f.flow k).expect false false bytes

/-- A message on a flow with room goes out at once (R371). -/
theorem Fab.netOut_flowSend (f : Fab) {k : FlowKey} (idle : (f.flow k).waiting = []) (room : (f.flow k).unacked.length < 512)
    (bytes : List Byte) (cast : Option (Nat × Nat × Bool)) :
    (f.flowSend k 0 bytes cast).netOut = f.netOut ++ [f.outPacket k 0 bytes] := by
  unfold Fab.flowSend
  extract_lets f1
  have own : f1.flow k = { f.flow k with waiting := [⟨0, 0, bytes, cast⟩] } := by
    rw [show f1.flow k = _ from f.flow_onFlow k (fun _ => rfl), idle]
    rfl
  have rest : f1 = { f with flows := f1.flows, netOut := f1.netOut } := Fab.eq_of_unflowed (f.unflowed_onFlow k _)
  have out : f1.netOut = f.netOut := f.netOut_onFlow k _
  have dress : f1.flowDress k 0 = f.flowDress k 0 := by
    have cls : (f1.flow k).cls = (f.flow k).cls := by rw [own]
    unfold Fab.flowDress
    rw [cls, rest]
    rfl
  clear_value f1
  rw [own]
  show (Fab.pumpFlow k 1 f1).netOut = _
  unfold Fab.pumpFlow
  extract_lets x
  have x_eq : x = { f.flow k with waiting := [⟨0, 0, bytes, cast⟩] } := own
  clear_value x
  subst x_eq
  dsimp only
  rw [if_pos room]
  unfold Fab.pumpFlow Fab.emit
  dsimp only
  rw [Fab.netOut_onFlow, out, dress]
  rfl

/-! ### What a collective sends -/

/-- Device g is f after collective `id` has sent messages: what goes out, the flows and its own outbox differ. -/
structure Fab.Chats (id : Nat) (f g : Fab) : Prop where
  rest : { g with flows := [], netOut := [], colls := [] } = { f with flows := [], netOut := [], colls := [] }
  coll : ∀ c, f.coll? id = some c → ∃ l, g.coll? id = some { c with outbox := l }

theorem Fab.Chats.refl (id : Nat) (f : Fab) : f.Chats id f := ⟨rfl, fun c found => ⟨c.outbox, found⟩⟩

theorem Fab.Chats.trans (first : f.Chats id g) (second : g.Chats id h) : f.Chats id h where
  rest := second.rest.trans first.rest
  coll c found := by
    obtain ⟨l, mid⟩ := first.coll c found
    obtain ⟨l', last⟩ := second.coll _ mid
    exact ⟨l', last⟩

/-- What a message sent leaves of its collective (R311, R327). -/
theorem Fab.coll?_collSend (found : f.coll? c.id = some d) (dest type : Nat) (m : CollMsg) (cast : Option Bool) :
    (f.collSend c dest type m cast).coll? c.id =
      some { d with outbox := d.outbox ++ [⟨dest, type, { m with via := c.flow dest }⟩] } := by
  unfold Fab.collSend
  extract_lets m'
  refine (Fab.coll?_of_colls ?_ c.id).trans (Fab.coll?_onColl
    (step := fun c => { c with outbox := c.outbox ++ [⟨dest, type, m'⟩] }) found rfl)
  exact (congrArg (·.colls) (Fab.unflowed_flowSend (f.onColl c.id (fun c => { c with outbox := c.outbox ++ [⟨dest, type, m'⟩] })) _ _ _ _) :)

theorem Fab.chats_collSend (f : Fab) (c : Coll) (dest type : Nat) (m : CollMsg) (cast : Option Bool) :
    f.Chats c.id (f.collSend c dest type m cast) where
  rest := by
    unfold Fab.collSend
    extract_lets m'
    exact (congrArg (fun g : Fab => { g with colls := [] })
      (Fab.unflowed_flowSend (f.onColl c.id (fun c => { c with outbox := c.outbox ++ [⟨dest, type, m'⟩] })) _ _ _ _) :)
  coll _ found := ⟨_, Fab.coll?_collSend found dest type m cast⟩

theorem Fab.Chats.foldl {α : Type} {step : Fab → α → Fab} (each : ∀ (f : Fab) a, f.Chats id (step f a)) (l : List α) (f : Fab) :
    f.Chats id (l.foldl step f) := by
  induction l generalizing f with
  | nil => exact .refl id f
  | cons a r ih => exact (each f a).trans (ih _)

/-! ### The memory that a collective reaches -/

/-- The unit of a base die that a request comes from, where there is one (R185). -/
theorem Fab.unitTag_source (f : Fab) (p dest : Nat) (write : Bool) {b : Nat} (low : b < 8) :
    (f.unitTag p b 4 dest write).source.2 = some b := by
  unfold Tag.source Fab.unitTag
  dsimp only
  rw [if_neg (by omega), if_pos (by omega)]
  exact congrArg some (Nat.add_sub_cancel_left 16 b)

theorem Fab.unitTag_source_past (f : Fab) (p dest : Nat) (write : Bool) {b : Nat} (past : ¬b < 8) :
    (f.unitTag p b 4 dest write).source.2 = none := by
  unfold Tag.source Fab.unitTag
  dsimp only
  rw [if_neg (by omega), if_neg (by omega)]

/-- An access of the collective engine of a base die that reaches its range is made, and only counts. -/
theorem W.access_of_engine {p b a n : Nat} (reached : w.fab.ReachedFrom p b a n) (write : Bool) :
    ∃ g, w.access (fun d => w.fab.unitTag p b 4 d write) a n write = ({ w with fab := g }, .ok) ∧ w.fab.Served g := by
  by_cases low : b < 8
  · exact W.access_from (tag := fun d => w.fab.unitTag p b 4 d write) (fun _ => rfl) (fun d => w.fab.unitTag_source p d write low)
      reached write
  · by_cases empty : n = 0
    · exact ⟨w.fab, if_pos empty, .refl _⟩
    · exact W.access_done (tag := fun d => w.fab.unitTag p b 4 d write) (fun _ => rfl)
        (fun d => w.fab.unitTag_source_past p d write low) empty reached.inside reached.sound reached.calm write

theorem W.collDo_of_reached {l : List (Nat × Nat × Bool)} (found : w.fab.coll? id = some c)
    (reached : ∀ r ∈ l, w.fab.ReachedFrom c.partition c.die r.1 r.2.1) :
    ∃ g, w.fab.Served g ∧ ∀ body, W.collDo id body l w = body { w with fab := g } := by
  induction l generalizing w with
  | nil => exact ⟨w.fab, .refl _, fun _ => rfl⟩
  | cons r rest ih =>
    obtain ⟨a, n, write⟩ := r
    obtain ⟨g, access, served⟩ := W.access_of_engine (reached (a, n, write) List.mem_cons_self) write
    have colls : g.colls = w.fab.colls := congrArg (·.colls) served.rest
    obtain ⟨g', served', ran⟩ := ih (w := { w with fab := g }) ((Fab.coll?_of_colls colls id).trans found)
      (fun r hr => served.reachedFrom (reached r (List.mem_cons_of_mem _ hr)))
    refine ⟨g', served.trans served', fun body => ?_⟩
    unfold W.collDo
    rw [found]
    dsimp only
    rw [access]
    exact ran body

/-! ### A message that its collective meets -/

theorem W.onMessage_of_found {heldToo reissue : Bool} (found : w.fab.collFor m heldToo reissue = .ok c) (body : Coll → W → W) :
    w.onMessage m body heldToo reissue =
      (W.pump c.id (c.early.length + 1) (body c { w with struck := m.faults })).servePulls c.id := by
  unfold W.onMessage
  rw [found]

/-- No block of a collective is still to begin. -/
def Coll.begun (c : Coll) : Prop := reduces c.op.kind = true → ∀ t, c.op.blocks ≤ c.nextBlock t

theorem W.beginBlocks_of_begun (found : w.fab.coll? id = some c) (begun : c.begun) (n : Nat) : W.beginBlocks id n w = w := by
  cases n with
  | zero => rfl
  | succ n =>
    have none : (if c.phase == .running && reduces c.op.kind then c.beginsNext else none) = .none := by
      split
      · next runs =>
        have all := begun (Bool.and_eq_true_iff.1 runs).2
        have full (t : Bool) : c.ringFree t = false := by
          unfold Coll.ringFree
          extract_lets b
          have past : Nat.blt b c.op.blocks = false :=
            Bool.eq_false_iff.2 fun below => absurd (Nat.le_of_ble_eq_true below) (Nat.not_le.2 (Nat.lt_succ_of_le (all t)))
          rw [past, Bool.false_and]
        unfold Coll.beginsNext
        rw [full, full]
        rfl
      · rfl
    unfold W.beginBlocks
    rw [found]
    dsimp only
    rw [none]

theorem W.pump_of_begun (found : w.fab.coll? id = some c) (begun : c.begun) (early : c.early = []) (n : Nat) :
    W.pump id n w = w := by
  cases n with
  | zero => rfl
  | succ n =>
    unfold W.pump
    rw [found]
    dsimp only
    rw [W.beginBlocks_of_begun found begun, found]
    dsimp only
    rw [early]
    rfl

theorem W.servePulls_of_none (found : w.fab.coll? id = some c) (none : c.pulls.filter c.holds = []) : w.servePulls id = w := by
  unfold W.servePulls
  rw [found]
  dsimp only
  rw [none]
  rfl

/-- A message of a collective that then waits for nothing does what its own meaning is. -/
theorem W.onMessage_of_quiet {heldToo reissue : Bool} {body : Coll → W → W} (found : w.fab.collFor m heldToo reissue = .ok c)
    (left : (body c { w with struck := m.faults }).fab.coll? c.id = some d) (begun : d.begun) (early : d.early = [])
    (none : d.pulls.filter d.holds = []) : w.onMessage m body heldToo reissue = body c { w with struck := m.faults } := by
  rw [W.onMessage_of_found found, W.pump_of_begun left begun early, W.servePulls_of_none left none]

end Sys2Proof.Machine
end

section
/-! PROOFS. Bytes and repair of a collective (O39; R306, R324, R325). -/

namespace Sys2Proof.Machine

open Sys2Proof Sys2Proof.Safety

variable {s t : State} {w : W} {f g h : Fab} {c d : Coll} {m : CollMsg} {id n a off : Nat} {bytes : List Byte}

theorem reduces_eq_false (kind : 5 ≤ c.op.kind) : reduces c.op.kind = false :=
  Bool.eq_false_iff.2 fun h => by have := Nat.le_of_ble_eq_true h; omega

theorem Coll.begun_of_bytes (kind : 5 ≤ c.op.kind) : c.begun := fun h => by rw [reduces_eq_false kind] at h; cases h

/-- A range without bytes has always come. -/
theorem Coll.has_zero (c : Coll) (off : Nat) : c.has off 0 = true := by
  have low : Nat.ble (off + 0) off = true := Nat.ble_eq_true_of_le (Nat.le_refl _)
  unfold Coll.has
  cases c.ranges.length with
  | zero => exact low
  | succ n => rw [covered, low, Bool.true_or]

/-- The work of a message, with the faults of the adders that it tells. -/
def W.met (s : State) (m : CollMsg) : W := { W.of s with struck := m.faults }

/-! ### Pieces -/

/-- What a piece that comes for the first time leaves: its bytes, and its note (R306, R325). -/
structure W.Pieced (s : State) (c : Coll) (off a : Nat) (bytes : List Byte) (w : W) : Prop where
  mem : w.mem = s.mem
  sec : w.sec = s.sec
  faults : w.faults = []
  waits : w.waits = false
  coll : w.fab.coll? c.id = some { c with ranges := c.ranges ++ [(off, bytes.length)] }
  load : ∀ x, w.load c.partition x = if a ≤ x ∧ x < a + bytes.length then bytes.getD (x - a) 0 else (W.of s).load c.partition x

theorem W.pieced_of_reaches (s : State) (m : CollMsg) (found : s.fab.coll? c.id = some c) (new : c.has off bytes.length = false)
    (place : c.pieceAddr off bytes.length = some a) (writes : c.writes = true)
    (reaches : Claims.reaches s c.partition c.die [(a, bytes.length, true)]) :
    W.Pieced s c off a bytes ((W.met s m).piece c.id off bytes) := by
  have found' : (W.met s m).fab.coll? c.id = some c := found
  obtain ⟨g, served, ran⟩ := W.collDo_of_reached (w := W.met s m) (l := [(a, bytes.length, true)]) found'
    (fun r hr => reachedFrom_of_reaches reaches hr)
  have idle : (g.noivosOf c.partition).running = none := by
    have noivos : g.noivos = s.fab.noivos := congrArg (·.noivos) served.rest
    rw [Fab.noivosOf, noivos]
    exact reaches.2.1
  have sound : g.faultless a bytes.length := served.faultless (reachedFrom_of_reaches reaches List.mem_cons_self).sound
  obtain ⟨loads, stored⟩ := W.store_spec (w := { W.met s m with fab := g }) (a := a) (bytes := bytes) idle (fun l hl => (sound l hl).1)
  obtain ⟨keys, noivos, fab⟩ := W.store_fab_eq (w := { W.met s m with fab := g }) (a := a) (bytes := bytes) idle sound
  have colls : (({ W.met s m with fab := g } : W).store c.partition a bytes).fab.colls = s.fab.colls := by
    rw [fab]
    exact congrArg (·.colls) served.rest
  have piece : (W.met s m).piece c.id off bytes = (({ W.met s m with fab := g } : W).store c.partition a bytes).map (fun f =>
      f.onColl c.id (fun c => { c with
        ranges := c.ranges ++ [(off, bytes.length)], kept := if c.writes then c.kept else c.kept ++ bytes })) := by
    unfold W.piece
    rw [found']
    dsimp only
    rw [if_neg (Bool.eq_false_iff.1 new), place]
    dsimp only
    rw [if_pos writes, ran, if_pos writes]
  have left : (({ W.met s m with fab := g } : W).store c.partition a bytes).fab.coll? c.id = some c := (Fab.coll?_of_colls colls _).trans found
  rw [piece]
  refine ⟨stored.mem, stored.sec, stored.faults, stored.waits, ?_, fun x => ?_⟩
  · refine (Fab.coll?_onColl left rfl).trans ?_
    rw [if_pos writes]
  · exact (W.load_congr rfl rfl (fun _ _ => rfl)).trans ((loads x).trans (by rw [W.load_served (w := W.met s m) served]; rfl))

/-- What a message that brings a piece leaves. -/
theorem exec_of_pieced {k : W → W} (up : s.fab.phase = .running) (ran : k (W.of s) = w) (pieced : W.Pieced s c off a bytes w) :
    ∃ t, onMem s k = .next t ∧ t.sec = s.sec ∧ Claims.MemKept s t c.partition [(a, bytes.length)] ∧
      (W.of t).loads c.partition a bytes.length = bytes ∧
      t.fab.coll? c.id = some { c with ranges := c.ranges ++ [(off, bytes.length)] } := by
  obtain ⟨t, next, ended⟩ := onMem_ends up ran pieced.faults pieced.waits pieced.mem pieced.sec
  refine ⟨t, next, ended.sec, fun x away => ?_, ?_, ?_⟩
  · have outside := away (a, bytes.length) List.mem_cons_self
    rw [ended.load, pieced.load, if_neg (by dsimp only at outside; omega)]
  · exact loads_of_stored fun x => (ended.load _ x).trans (pieced.load x)
  · rw [ended.fab]
    exact pieced.coll

/-- DATA of an exchange (R306). -/
theorem exec_dataMsg (up : s.fab.phase = .running) (own : s.fab.collFor m = .ok c) (found : s.fab.coll? c.id = some c)
    (kind : 5 ≤ c.op.kind) (pulls : c.pulls = []) (early : c.early = []) (count : m.count = m.payload.length)
    (new : c.has m.offset m.payload.length = false) (place : c.pieceAddr m.offset m.payload.length = some a) (writes : c.writes = true)
    (reaches : Claims.reaches s c.partition c.die [(a, m.payload.length, true)]) (format : m.format = 3) :
    ∃ t, exec (.dataMsg m) s = .next t ∧ t.sec = s.sec ∧ Claims.MemKept s t c.partition [(a, m.payload.length)] ∧
      (W.of t).loads c.partition a m.payload.length = m.payload ∧
      t.fab.coll? c.id = some { c with ranges := c.ranges ++ [(m.offset, m.payload.length)] } := by
  have pieced := W.pieced_of_reaches s m found new place writes reaches
  refine exec_of_pieced (k := dataMessage m) up ?_ pieced
  unfold dataMessage
  refine (W.onMessage_of_found (w := W.of s) own _).trans ?_
  have plain : (reduces c.op.kind || m.format != 3 || m.payload.length != m.count) = false := by
    rw [reduces_eq_false kind, format, count]
    simp
  dsimp only
  rw [plain, if_neg Bool.false_ne_true, if_neg (by omega)]
  change (W.pump c.id _ ((W.met s m).piece c.id m.offset m.payload)).servePulls c.id = _
  rw [W.pump_of_begun pieced.coll (Coll.begun_of_bytes kind) early, W.servePulls_of_none pieced.coll]
  rw [pulls]
  rfl

/-- PULL_DATA of a member that repairs (R325). -/
theorem exec_pullData (saturated : Bool) (up : s.fab.phase = .running) (own : s.fab.collFor m = .ok c) (found : s.fab.coll? c.id = some c)
    (kind : 5 ≤ c.op.kind) (pulls : c.pulls = []) (early : c.early = []) (count : m.count = m.payload.length)
    (new : c.has m.offset m.payload.length = false) (place : c.pieceAddr m.offset m.payload.length = some a) (writes : c.writes = true)
    (reaches : Claims.reaches s c.partition c.die [(a, m.payload.length, true)]) (repairs : c.repairs.contains m.treeB = true)
    (source : m.source = treeRepair c.desc) (leaf : treeDown c.desc (m.offset / 256 % 2 == 1) (treeRank c.desc) = []) :
    ∃ t, exec (.pullData ⟨m, saturated⟩) s = .next t ∧ t.sec = s.sec ∧ Claims.MemKept s t c.partition [(a, m.payload.length)] ∧
      (W.of t).loads c.partition a m.payload.length = m.payload ∧
      t.fab.coll? c.id = some { c with ranges := c.ranges ++ [(m.offset, m.payload.length)] } := by
  have pieced := W.pieced_of_reaches s m found new place writes reaches
  refine exec_of_pieced (k := pullDataMsg m saturated) up ?_ pieced
  unfold pullDataMsg
  refine (W.onMessage_of_found (w := W.of s) own _).trans ?_
  have tree : c.treeOf m.offset = (m.offset / 256 % 2 == 1) := by
    unfold Coll.treeOf
    rw [if_neg (by omega)]
  have whole : (m.payload.length != m.count) = false := by simp [count]
  have asked : (!c.repairs.contains m.treeB || m.source != treeRepair c.desc) = false := by
    rw [repairs, source]
    simp
  dsimp only
  rw [whole, if_neg Bool.false_ne_true, asked, if_neg Bool.false_ne_true, reduces_eq_false kind, if_neg Bool.false_ne_true, count, new,
    if_neg Bool.false_ne_true, tree]
  change (W.pump c.id _ (((W.met s m).piece c.id m.offset m.payload).map _)).servePulls c.id = _
  have ends : ((W.met s m).piece c.id m.offset m.payload).map (fun f => match f.coll? c.id with
      | some d => (d.children (m.offset / 256 % 2 == 1)).foldl (fun g k =>
          g.collCast d.id k 0x06 (d.dataMsg (m.offset / 256 % 2 == 1) m.offset m.payload) true) f
      | none => f) = (W.met s m).piece c.id m.offset m.payload := by
    unfold W.map
    dsimp only
    rw [pieced.coll]
    dsimp only
    unfold Coll.children
    rw [leaf]
    rfl
  refine (congrArg (fun w : W => (W.pump c.id (c.early.length + 1) w).servePulls c.id) ends).trans ?_
  rw [W.pump_of_begun pieced.coll (Coll.begun_of_bytes kind) early, W.servePulls_of_none pieced.coll]
  rw [pulls]
  rfl

/-! ### CUT -/

/-- What the PULLs of a list of ranges leave of their collective (R325). -/
theorem Fab.coll?_sendPulls (tree : Bool) (l : List (Nat × Nat)) (found : f.coll? c.id = some d) :
    ∃ out, (f.sendPulls c tree l).coll? c.id = some { d with outbox := d.outbox ++ out } ∧
      out.map (fun o => (o.dest, o.type, o.msg.offset, o.msg.count)) = l.map (fun q => (treeRepair c.desc, 8, q.1, q.2)) := by
  induction l generalizing f d with
  | nil => exact ⟨[], by rw [List.append_nil]; exact found, rfl⟩
  | cons q r ih =>
    obtain ⟨out, rest, same⟩ := ih (Fab.coll?_collSend found (treeRepair c.desc) 0x08
      { (c.msg tree 0 q.1 q.2 3 []) with last := r.isEmpty } none)
    refine ⟨⟨treeRepair c.desc, 8, { c.msg tree 0 q.1 q.2 3 [] with last := r.isEmpty, via := c.flow (treeRepair c.desc) }⟩ :: out, ?_, ?_⟩
    · unfold Fab.sendPulls
      rw [rest, List.append_assoc]
      rfl
    · rw [List.map_cons, List.map_cons, same]
      rfl

/-- The device with a CUT noted and its PULLs sent. -/
def Fab.cutBy (f : Fab) (c : Coll) (m : CollMsg) : Fab :=
  (f.onColl c.id (fun c => { c with repairs := c.repairs ++ [m.treeB] })).sendPulls c m.treeB (c.lacks m.treeB)

/-- CUT of the parent (R325). -/
theorem exec_cut (up : s.fab.phase = .running) (own : s.fab.collFor m = .ok c) (found : s.fab.coll? c.id = some c)
    (kind : 5 ≤ c.op.kind) (pulls : c.pulls = []) (early : c.early = [])
    (parent : treeUp c.desc m.treeB (treeRank c.desc) = some m.source) (first : c.repairs.contains m.treeB = false) :
    let pulls := fun (x : Coll) => x.outbox.map (fun o => (o.dest, o.type, o.msg.offset, o.msg.count))
    ∃ t, exec (.cut m) s = .next t ∧ DeviceOnly s t ∧ ∃ c', t.fab.coll? c.id = some c' ∧ c'.repairs = c.repairs ++ [m.treeB] ∧
      pulls c' = pulls c ++ (c.lacks m.treeB).map (fun q => (treeRepair c.desc, 8, q.1, q.2)) := by
  intro asked
  have cut := Fab.coll?_onColl (f := s.fab) (step := fun c => { c with repairs := c.repairs ++ [m.treeB] }) found rfl
  obtain ⟨out, left, same⟩ := Fab.coll?_sendPulls (c := c) m.treeB (c.lacks m.treeB) cut
  have ran : cutMsg m (W.of s) = { W.met s m with fab := s.fab.cutBy c m } := by
    unfold cutMsg
    refine (W.onMessage_of_found (w := W.of s) own _).trans ?_
    have goes : (!(treeUp c.desc m.treeB (treeRank c.desc) == some m.source ||
        (!reduces c.op.kind && treeTop c.desc m.treeB == treeRank c.desc)) || c.repairs.contains m.treeB) = false := by
      rw [parent, first]
      simp
    dsimp only
    rw [goes, if_neg Bool.false_ne_true]
    exact (congrArg (fun w : W => w.servePulls c.id) (W.pump_of_begun (w := { W.met s m with fab := s.fab.cutBy c m }) left
      (Coll.begun_of_bytes kind) early _)).trans
      (W.servePulls_of_none (w := { W.met s m with fab := s.fab.cutBy c m }) left (congrArg (List.filter _) pulls))
  obtain ⟨t, next, ended⟩ := onMem_ends up ran rfl rfl rfl rfl
  refine ⟨t, next, ended.deviceOnly rfl, _, (congrArg (fun f : Fab => f.coll? c.id) ended.fab).trans left, rfl, ?_⟩
  dsimp only [asked]
  rw [List.map_append, same]

/-! ### PULL -/

/-- PULL adds its request to those that wait (R325). -/
def Coll.asked (c : Coll) (m : CollMsg) : Coll :=
  { c with
    pulls := [(m.source, m.treeB, m.offset, m.count)]
    pullsEnd := if m.last then c.pullsEnd ++ [(m.source, m.treeB)] else c.pullsEnd }

/-- The device with a PULL noted. -/
def Fab.askedBy (f : Fab) (c : Coll) (m : CollMsg) : Fab :=
  f.onColl c.id (fun c => { c with
    pulls := c.pulls ++ [(m.source, m.treeB, m.offset, m.count)],
    pullsEnd := if m.last then c.pullsEnd ++ [(m.source, m.treeB)] else c.pullsEnd })

theorem Fab.coll?_askedBy (found : f.coll? c.id = some c) (pulls : c.pulls = []) : (f.askedBy c m).coll? c.id = some (c.asked m) := by
  refine (Fab.coll?_onColl found rfl).trans ?_
  rw [pulls]
  rfl

/-- What a PULL does: it is noted, and answered if it can be. -/
theorem pullMsg_eq (own : s.fab.collFor m = .ok c) (found : s.fab.coll? c.id = some c) (kind : 5 ≤ c.op.kind) (pulls : c.pulls = [])
    (early : c.early = []) : pullMsg m (W.of s) = ({ W.met s m with fab := s.fab.askedBy c m } : W).servePulls c.id := by
  unfold pullMsg
  refine (W.onMessage_of_found (w := W.of s) own _).trans ?_
  exact congrArg (fun w : W => w.servePulls c.id)
    (W.pump_of_begun (w := { W.met s m with fab := s.fab.askedBy c m }) (Fab.coll?_askedBy found pulls) (Coll.begun_of_bytes (c := c.asked m) kind)
      early _)

theorem Coll.holds_asked (kind : 5 ≤ c.op.kind) (q : Nat × Bool × Nat × Nat) : (c.asked m).holds q = c.has q.2.2.1 q.2.2.2 := by
  unfold Coll.holds
  rw [show (c.asked m).op = c.op from rfl, reduces_eq_false kind]
  rfl

/-- PULL of a range that has not come waits (R325). -/
theorem exec_pull_waits (up : s.fab.phase = .running) (own : s.fab.collFor m = .ok c) (found : s.fab.coll? c.id = some c)
    (kind : 5 ≤ c.op.kind) (pulls : c.pulls = []) (early : c.early = []) (lacks : c.has m.offset m.count = false) :
    ∃ t, exec (.pull m) s = .next t ∧ DeviceOnly s t ∧ t.fab.coll? c.id = some (c.asked m) := by
  have left := Fab.coll?_askedBy (m := m) found pulls
  have none : (c.asked m).pulls.filter (c.asked m).holds = [] := by
    rw [List.filter_eq_nil_iff]
    intro q hq
    rw [List.mem_singleton.1 hq, Coll.holds_asked kind, lacks]
    exact Bool.false_ne_true
  have ran := (pullMsg_eq own found kind pulls early).trans (W.servePulls_of_none (w := { W.met s m with fab := s.fab.askedBy c m }) left none)
  obtain ⟨t, next, ended⟩ := onMem_ends up ran rfl rfl rfl rfl
  exact ⟨t, next, ended.deviceOnly rfl, (congrArg (fun f : Fab => f.coll? c.id) ended.fab).trans left⟩

/-- The answer to a PULL, sent (R325, R327). -/
def Fab.answersPull (f : Fab) (c : Coll) (m : CollMsg) (bytes : List Byte) : Fab :=
  f.collSend c m.source 0x09
    { (c.msg m.treeB 0 m.offset m.count 3 bytes) with last := c.pullsEnd.contains (m.source, m.treeB) }

/-- PULL of a range that has come is answered with its bytes (R325). -/
theorem exec_pull_answered (up : s.fab.phase = .running) (own : s.fab.collFor m = .ok c) (found : s.fab.coll? c.id = some c)
    (kind : 5 ≤ c.op.kind) (pulls : c.pulls = []) (early : c.early = []) (has : c.has m.offset m.count = true)
    (place : c.pieceAddr m.offset m.count = some a) (writes : c.writes = true)
    (reaches : Claims.reaches s c.partition c.die [(a, m.count, false)]) :
    let ends := if m.last then c.pullsEnd ++ [(m.source, m.treeB)] else c.pullsEnd
    ∃ t, exec (.pull m) s = .next t ∧ DeviceOnly s t ∧ t.fab.coll? c.id = some { c with
      pullsEnd := ends, outbox := c.outbox ++ [⟨m.source, 9,
        { c.msg m.treeB 0 m.offset m.count 3 ((W.of s).loads c.partition a m.count) with
          last := ends.contains (m.source, m.treeB), via := c.flow m.source }⟩] } := by
  intro ends
  have left := Fab.coll?_askedBy (m := m) found pulls
  have emptied := Fab.coll?_onColl (step := fun c => { c with pulls := [] }) left rfl
  have reached := reachedFrom_of_reaches reaches List.mem_cons_self
  obtain ⟨g, served, done⟩ := W.collDo_of_reached
    (w := { W.met s m with fab := (s.fab.askedBy c m).onColl c.id (fun c => { c with pulls := [] }) }) (l := [(a, m.count, false)]) emptied
    (fun r hr => by
      rw [List.mem_singleton.1 hr]
      exact ⟨reached.inside, reached.way, reached.sound, reached.calm⟩)
  have still : g.coll? c.id = some { c.asked m with pulls := [] } := (Fab.coll?_of_colls (congrArg (·.colls) served.rest) _).trans emptied
  have bytes : ({ W.met s m with fab := g } : W).loads c.partition a m.count = (W.of s).loads c.partition a m.count :=
    W.loads_congr fun x _ _ => W.load_served (w := { W.met s m with fab := (s.fab.askedBy c m).onColl c.id (fun c => { c with pulls := [] }) })
      served x
  have ran : pullMsg m (W.of s) = { W.met s m with fab := g.answersPull (c.asked m) m ((W.of s).loads c.partition a m.count) } := by
    have one : (c.asked m).pulls.filter (c.asked m).holds = [(m.source, m.treeB, m.offset, m.count)] := by
      rw [show (c.asked m).pulls = [(m.source, m.treeB, m.offset, m.count)] from rfl, List.filter_cons, Coll.holds_asked kind, if_pos has]
      rfl
    have rest : removeFirst (· == (m.source, m.treeB, m.offset, m.count)) (c.asked m).pulls = [] := by
      rw [show (c.asked m).pulls = [(m.source, m.treeB, m.offset, m.count)] from rfl, removeFirst, if_pos (beq_self_eq_true _)]
    rw [pullMsg_eq own found kind pulls early]
    unfold W.servePulls
    rw [show ({ W.met s m with fab := s.fab.askedBy c m } : W).fab = s.fab.askedBy c m from rfl, left]
    dsimp only
    rw [one, List.foldl_cons, List.foldl_nil]
    unfold W.servePull
    rw [show ({ W.met s m with fab := s.fab.askedBy c m } : W).fab = s.fab.askedBy c m from rfl, left]
    dsimp only
    rw [rest, show (c.asked m).op = c.op from rfl, reduces_eq_false kind, if_neg Bool.false_ne_true,
      show (c.asked m).pieceAddr m.offset m.count = c.pieceAddr m.offset m.count from rfl, place]
    dsimp only
    rw [show (c.asked m).writes = c.writes from rfl, if_pos writes]
    refine (done _).trans ?_
    unfold W.map
    dsimp only
    rw [show (c.asked m).partition = c.partition from rfl, bytes, List.any_nil, Bool.not_false, Bool.and_true]
    rfl
  have sent : (g.answersPull (c.asked m) m ((W.of s).loads c.partition a m.count)).coll? c.id = _ :=
    Fab.coll?_collSend (c := c.asked m) still m.source 0x09 _ none
  obtain ⟨t, next, ended⟩ := onMem_ends up ran rfl rfl rfl rfl
  refine ⟨t, next, ended.deviceOnly rfl, (congrArg (fun f : Fab => f.coll? c.id) ended.fab).trans (sent.trans ?_)⟩
  exact congrArg (fun l => some ({ c with
    pulls := l, pullsEnd := ends, outbox := c.outbox ++ [(⟨m.source, 9,
      { c.msg m.treeB 0 m.offset m.count 3 ((W.of s).loads c.partition a m.count) with
        last := ends.contains (m.source, m.treeB), via := c.flow m.source }⟩ : OutMsg)] } : Coll)) pulls.symm

/-- Settles O39: pieces, then CUT, then PULL. -/
theorem bytesAreDeliveredAndRepaired : Obligations.BytesAreDeliveredAndRepaired := by
  unfold Obligations.BytesAreDeliveredAndRepaired
  intro s m c n up own found kind pulls early
  refine ⟨fun a count new place writes reaches => ⟨fun format => ?_, fun sat repairs source leaf => ?_⟩, fun parent first => ?_, ?_⟩
  · exact exec_dataMsg up own found kind pulls early count new place writes reaches format
  · exact exec_pullData sat up own found kind pulls early count new place writes reaches repairs source leaf
  · exact exec_cut up own found kind pulls early parent first
  · intro ends
    exact ⟨fun a has place writes reaches => exec_pull_answered up own found kind pulls early has place writes reaches,
      fun lacks => exec_pull_waits up own found kind pulls early lacks⟩

end Sys2Proof.Machine
end

section
/-! PROOFS. Messages find their collective, or NOT_READY (O38; R310, R311, R327). -/

namespace Sys2Proof.Machine

open Sys2Proof Sys2Proof.Safety

variable {s t : State} {w : W} {f g : Fab} {c d : Coll} {m : CollMsg} {k : FlowKey} {r : BlockRec} {id : Nat} {bytes : List Byte}

/-! ### Messages that find no collective -/

/-- A message command, as its row of the table of messages has it: what is done with a collective is its own. -/
structure Claims.MeetsColl (s : State) (i : Instr) (m : CollMsg) (re : Bool) : Prop where
  runs : ∃ body : Coll → W → W, exec i s = onMem s (fun w => w.onMessage m body false re)

theorem meetsColl_of_row (s : State) (m : CollMsg) : ∀ row ∈ Claims.messageRows, Claims.MeetsColl s (row.1 m) m row.2 := by
  unfold Claims.messageRows
  intro row mem
  simp only [List.mem_cons, List.not_mem_nil, or_false] at mem
  obtain rfl | rfl | rfl | rfl | rfl | rfl | rfl | rfl | rfl := mem <;> exact ⟨_, rfl⟩

theorem Fab.dict_flowSend (f : Fab) (k : FlowKey) (ch : Nat) (bytes : List Byte) (cast : Option (Nat × Nat × Bool)) :
    (f.flowSend k ch bytes cast).dict = f.dict := (congrArg (·.dict) (f.unflowed_flowSend k ch bytes cast) :)

theorem Fab.colls_flowSend (f : Fab) (k : FlowKey) (ch : Nat) (bytes : List Byte) (cast : Option (Nat × Nat × Bool)) :
    (f.flowSend k ch bytes cast).colls = f.colls := (congrArg (·.colls) (f.unflowed_flowSend k ch bytes cast) :)

/-- A message of the table that no collective of this member can take. -/
theorem unmet_claims (s : State) (m : CollMsg) (row : (CollMsg → Instr) × Bool) (mem : row ∈ Claims.messageRows)
    (up : s.fab.phase = .running) :
    (∀ d, s.fab.collFor m false row.2 = .notReady → (s.fab.scope m.partition).live.trees.find? m.tree = some d → Claims.flowFree s m.via →
       ∃ t, exec (row.1 m) s = .next t ∧ DeviceOnly s t ∧ t.fab.colls = s.fab.colls ∧
       t.fab.netOut = s.fab.netOut ++ [Claims.sent s m.via (collBytes 0x0A { m with
         source := treeRank d, payload := [], last := false, newScale := 0 })]) ∧
     (s.fab.collFor m false row.2 = .stale → ∃ t, exec (row.1 m) s = .next t ∧ DeviceOnly s t ∧ t.fab.netOut = s.fab.netOut ∧
       t.fab.dget 0x6030 3 = min (s.fab.dget 0x6030 3 + 1) (2 ^ 64 - 1)) ∧
     (s.fab.collFor m false row.2 = .drop →
       exec (row.1 m) s = .next { s with fab := { s.fab with badMessages := s.fab.badMessages + 1 } }) := by
  obtain ⟨body, runs⟩ := meetsColl_of_row s m row mem
  have found : (W.of s).fab.collFor m false row.2 = s.fab.collFor m false row.2 := rfl
  refine ⟨fun d early tree free => ?_, fun stale => ?_, fun bad => ?_⟩
  · obtain ⟨idle, room⟩ := free
    have ran : (W.of s).onMessage m body false row.2 = { W.of s with fab := s.fab.answerNotReady m } := by
      unfold W.onMessage
      rw [found, early]
      rfl
    obtain ⟨t, next, only, fab⟩ := onMem_ends_of_fab (k := fun w => w.onMessage m body false row.2) up ran
    have answer : s.fab.answerNotReady m =
        s.fab.flowSend m.via 0 (collBytes 0x0A { m with source := treeRank d, payload := [], last := false, newScale := 0 }) := by
      unfold Fab.answerNotReady
      rw [tree]
      rfl
    refine ⟨t, runs.trans next, only, ?_, ?_⟩ <;> rw [fab, answer]
    · exact Fab.colls_flowSend _ _ _ _ _
    · exact Fab.netOut_flowSend _ idle room _ _
  · have ran : (W.of s).onMessage m body false row.2 = { W.of s with fab := s.fab.dadd 0x6030 3 1 } := by
      unfold W.onMessage
      rw [found, stale]
      rfl
    obtain ⟨t, next, only, fab⟩ := onMem_ends_of_fab (k := fun w => w.onMessage m body false row.2) up ran
    refine ⟨t, runs.trans next, only, ?_, ?_⟩ <;> rw [fab]
    · rfl
    · exact Fab.dget_dadd_same _ _ _ _
  · have ran : (W.of s).onMessage m body false row.2 = { W.of s with fab := s.fab.dropMessage } := by
      unfold W.onMessage
      rw [found, bad]
      rfl
    rw [runs, onMem_running _ up (by rw [ran]; rfl), ran]
    rfl

/-! ### NOT_READY -/

theorem exec_notReady_stale (up : s.fab.phase = .running) (stale : s.fab.collFor m true = .stale) :
    ∃ t, exec (.notReady m) s = .next t ∧ DeviceOnly s t ∧ t.fab.repeats = s.fab.repeats ∧
      t.fab.dget 0x6030 3 = min (s.fab.dget 0x6030 3 + 1) (2 ^ 64 - 1) := by
  have ran : notReadyMsg m s.fab = s.fab.dadd 0x6030 3 1 := by
    unfold notReadyMsg
    rw [stale]
  obtain ⟨t, next, only, fab⟩ := onFab_ends up ran
  refine ⟨t, next, only, ?_, ?_⟩ <;> rw [fab]
  · rfl
  · exact Fab.dget_dadd_same _ _ _ _

theorem exec_notReady (up : s.fab.phase = .running) (found : s.fab.collFor m true = .ok c) {o : OutMsg} (outbox : c.outbox = [o])
    (dest : o.dest = m.source) (tree : o.msg.treeB = m.treeB) (attempt : o.msg.attempt = m.attempt) (offset : o.msg.offset = m.offset)
    (count : o.msg.count = m.count) :
    ∃ t, exec (.notReady m) s = .next t ∧ DeviceOnly s t ∧
      t.fab.repeats = s.fab.repeats ++ [⟨s.fab.nextRepeat, c.id, o⟩] ∧ t.fab.colls = s.fab.colls := by
  have ran : notReadyMsg m s.fab = { s.fab with
      repeats := s.fab.repeats ++ [⟨s.fab.nextRepeat, c.id, o⟩], nextRepeat := s.fab.nextRepeat + 1 } := by
    have here : c.outbox.reverse.find? (fun o => o.dest == m.source && o.msg.treeB == m.treeB && o.msg.attempt == m.attempt &&
        o.msg.offset == m.offset && o.msg.count == m.count) = some o := by
      rw [outbox]
      simp [dest, tree, attempt, offset, count]
    unfold notReadyMsg
    rw [found]
    dsimp only
    rw [here]
  obtain ⟨t, next, only, fab⟩ := onFab_ends up ran
  refine ⟨t, next, only, ?_, ?_⟩ <;> rw [fab]

/-- The counts of repeated messages are 64 bits wide. -/
theorem width_repeats {p : Nat} (low : p < 16) : ((Dict.row 0x6024 (p + 1)).map (fun d => d.ty.width)).getD 4 = 8 := by
  have all : ∀ p, p < 16 → ((Dict.row 0x6024 (p + 1)).map (fun d => d.ty.width)).getD 4 = 8 := by decide +kernel
  exact all p low

theorem exec_notReadyRepeat {r : Repeat} (up : s.fab.phase = .running) (one : s.fab.repeats = [r]) (found : s.fab.coll? r.coll = some c)
    (low : c.partition < 16) (whole : c.cuts = []) (free : Claims.flowFree s (c.flow r.message.dest)) :
    ∃ t, exec (.notReadyRepeat r.id) s = .next t ∧ DeviceOnly s t ∧ t.fab.repeats = [] ∧
      t.fab.netOut = s.fab.netOut ++ [Claims.sent s (c.flow r.message.dest) (collBytes r.message.type r.message.msg)] ∧
      t.fab.dget 0x6024 (c.partition + 1) = min (s.fab.dget 0x6024 (c.partition + 1) + 1) (2 ^ 64 - 1) := by
  obtain ⟨idle, room⟩ := free
  obtain ⟨cast, ran⟩ : ∃ cast, notReadyRepeat r.id s.fab = (Fab.flowSend { s.fab with repeats := [] } (c.flow r.message.dest) 0
      (collBytes r.message.type r.message.msg) cast).dadd 0x6024 (c.partition + 1) 1 := by
    have here : s.fab.repeats.find? (fun x => x.id == r.id) = some r := by rw [one]; simp
    have rest : s.fab.repeats.filter (fun x => x.id != r.id) = [] := by rw [one]; simp
    have found' : ({ s.fab with repeats := [] } : Fab).coll? r.coll = some c := found
    unfold notReadyRepeat
    rw [here]
    dsimp only
    rw [rest, found']
    dsimp only
    rw [whole]
    refine ⟨_, if_neg ?_⟩
    simp
  obtain ⟨t, next, only, fab⟩ := onFab_ends up ran
  have kept : (Fab.flowSend { s.fab with repeats := [] } (c.flow r.message.dest) 0 (collBytes r.message.type r.message.msg) cast).repeats = [] :=
    (congrArg (·.repeats) (Fab.unflowed_flowSend { s.fab with repeats := [] } (c.flow r.message.dest) 0 _ cast) :)
  refine ⟨t, next, only, ?_, ?_, ?_⟩ <;> rw [fab]
  · exact kept
  · exact Fab.netOut_flowSend (f := { s.fab with repeats := [] }) idle room _ _
  · rw [Fab.dget_dadd_same, Fab.dget_of_dict (Fab.dict_flowSend _ _ _ _ _)]
    rw [width_repeats low]
    rfl

end Sys2Proof.Machine
end

section
/-! PROOFS. The sums of a block rise (O38; R92, R313, R315, R317, R322). -/

namespace Sys2Proof.Machine

open Sys2Proof Sys2Proof.Safety

variable {s t : State} {w : W} {f g : Fab} {c d : Coll} {m : CollMsg} {k : FlowKey} {r r1 : BlockRec} {id b n : Nat} {bytes : List Byte}
  {lo x y sum k' : Kbx}

/-! ### Blocks -/

/-- A collective with a block's record set. -/
def Coll.withBlock (c : Coll) (b : Nat) (r : BlockRec) : Coll := { c with blocks := c.blocks.set b r }

theorem Coll.block?_withBlock (c : Coll) (b : Nat) (r : BlockRec) : (c.withBlock b r).block? b = some r := Tbl.find?_set_same _ _ _

theorem Fab.coll?_setBlock (found : f.coll? id = some c) (b : Nat) (r : BlockRec) : (f.setBlock id b r).coll? id = some (c.withBlock b r) :=
  Fab.coll?_onColl found rfl

theorem Fab.flow_setBlock (f : Fab) (id b : Nat) (r : BlockRec) (k : FlowKey) : (f.setBlock id b r).flow k = f.flow k := rfl

theorem Fab.outPacket_setBlock (f : Fab) (id b : Nat) (r : BlockRec) (k : FlowKey) (ch : Nat) (bytes : List Byte) :
    (f.setBlock id b r).outPacket k ch bytes = f.outPacket k ch bytes := rfl

/-- What Last says of a block does not depend on the block itself (R327). -/
theorem Coll.lastOf_withBlock (c : Coll) (tree : Bool) (b : Nat) (r : BlockRec) (p : BlockRec → Bool) :
    (c.withBlock b r).lastOf tree b p = c.lastOf tree b p := by
  unfold Coll.lastOf
  refine congrArg (fun q => (List.range c.op.blocks).all q) (funext fun i => ?_)
  by_cases here : i = b
  · simp [here]
  · have other : (c.withBlock b r).block? i = c.block? i := Tbl.find?_set_ne _ _ here
    rw [other]

/-- What a block of a message needs of its collective: the statement's conditions, by name. -/
structure ForBlock (s : State) (m : CollMsg) (re : Bool) (c : Coll) (r : BlockRec) : Prop where
  up : s.fab.phase = .running
  own : s.fab.collFor m false re = .ok c
  found : s.fab.coll? c.id = some c
  kind : reduces c.op.kind = true
  one : m.count = 1
  tree : (m.offset % 2 == 1) = m.treeB
  block : c.block? m.offset = some r
  begun : c.begun
  due : r.down = false
  good : r.bad = false
  slots : c.fallback = false
  early : c.early = []
  pulls : c.pulls = []
  faults : m.faults = []

theorem forBlock_spec {re : Bool} (h : Claims.forBlock s m re c r) : ForBlock s m re c r := by
  obtain ⟨up, own, found, kind, one, tree, block, due, good, slots, begun, early, pulls, faults⟩ := h
  refine ⟨up, own, found, Nat.ble_eq_true_of_le kind, one, ?_, block, fun _ => begun, due, good, slots, early, pulls, faults⟩
  rw [tree]
  cases m.treeB <;> rfl

/-- A message of one block that its collective meets at once. -/
theorem ForBlock.meets {re : Bool} (h : ForBlock s m re c r) {body : Coll → W → W} (met : body c (W.met s m) = w)
    (left : w.fab.coll? c.id = some d) (begun : d.begun) (early : d.early = []) (pulls : d.pulls = []) :
    (W.of s).onMessage m body false re = w := by
  refine (W.onMessage_of_quiet (w := W.of s) (d := d) h.own ?_ begun early ?_).trans met
  · exact (congrArg (fun w : W => w.fab.coll? c.id) met).trans left
  · rw [pulls]
    rfl

/-- What a message of one block leaves, where its work reaches no memory. -/
theorem ForBlock.ends {re : Bool} (h : ForBlock s m re c r) {body : Coll → W → W} (met : body c (W.met s m) = { W.met s m with fab := g })
    (left : g.coll? c.id = some d) (begun : d.begun) (early : d.early = []) (pulls : d.pulls = []) :
    ∃ t, onMem s (fun w => w.onMessage m body false re) = .next t ∧ DeviceOnly s t ∧ t.fab = g := by
  obtain ⟨t, next, ended⟩ := onMem_ends (k := fun w => w.onMessage m body false re) h.up (h.meets met left begun early pulls) rfl rfl rfl rfl
  exact ⟨t, next, ended.deviceOnly rfl, ended.fab⟩

/-- A message's share of a block that has begun. -/
theorem W.meet_of_block (e : BlockMsg) (found : w.fab.coll? id = some c) (block : c.block? e.block = some r) :
    w.meet id e = match e.type, e.kbx with
      | 1, some k => w.addUp id e.source e.block e.attempt k e.above e.fault e.narrowed
      | 3, _ => w.reissueBlock id e.source e.block e.attempt e.value
      | 4, _ => w.agreeBlock id e.source e.block e.value
      | _, _ => w := by
  unfold W.meet
  rw [found]
  dsimp only
  rw [block]
  rfl

/-! ### AGREE_UP -/

/-- Nothing goes on while a child's value is due (R313). -/
theorem W.agree_of_due (found : w.fab.coll? id = some c) (block : c.block? b = some r)
    (due : (treeDown c.desc (b % 2 == 1) (treeRank c.desc)).all r.agreed.contains = false) : w.agree id b = w := by
  unfold W.agree
  rw [found]
  dsimp only
  rw [block]
  dsimp only
  rw [due]
  rfl

theorem all_contains_append_eq_false {l got : List Nat} {src : Nat} (due : ∃ j ∈ l, j ≠ src ∧ got.contains j = false) :
    l.all (got ++ [src]).contains = false := by
  obtain ⟨j, child, other, missing⟩ := due
  rw [List.all_eq_false]
  refine ⟨j, child, ?_⟩
  rw [List.contains_append, missing, Bool.false_or]
  simp [other]

/-- A value of a child, while another child's is due (R313). -/
theorem W.agreeBlock_of_due (found : w.fab.coll? id = some c) (block : c.block? b = some r) (pre : r.pre = true) {src v : Nat}
    (new : r.agreed.contains src = false)
    (due : ∃ j ∈ treeDown c.desc (b % 2 == 1) (treeRank c.desc), j ≠ src ∧ r.agreed.contains j = false) :
    w.agreeBlock id src b v = w.map (fun f => f.setBlock id b { r with agreed := r.agreed ++ [src], cmax := max r.cmax v }) := by
  unfold W.agreeBlock
  rw [found]
  dsimp only
  rw [block]
  refine (if_neg (by rw [pre, new]; decide)).trans ?_
  exact W.agree_of_due (w := w.map (fun f => f.setBlock id b { r with agreed := r.agreed ++ [src], cmax := max r.cmax v }))
    (Fab.coll?_setBlock found b _) (Coll.block?_withBlock c b _) (all_contains_append_eq_false due)

/-- AGREE_UP of a child (R313). -/
theorem exec_agreeUp (h : ForBlock s m false c r) (length : m.payload.length = 8)
    (child : (treeDown c.desc m.treeB (treeRank c.desc)).contains m.source = true) (pre : r.pre = true)
    (new : r.agreed.contains m.source = false)
    (due : ∃ j ∈ treeDown c.desc m.treeB (treeRank c.desc), j ≠ m.source ∧ r.agreed.contains j = false) :
    ∃ t, exec (.agreeUp m) s = .next t ∧ DeviceOnly s t ∧ t.fab.netOut = s.fab.netOut ∧
      (t.fab.coll? c.id).bind (·.block? m.offset) = some { r with
        agreed := r.agreed ++ [m.source], cmax := max r.cmax (m.payload.getD 0 0).toNat } := by
  have left := Fab.coll?_setBlock h.found m.offset
    { r with agreed := r.agreed ++ [m.source], cmax := max r.cmax (m.payload.getD 0 0).toNat }
  obtain ⟨t, next, only, fab⟩ := h.ends (left := left) (begun := h.begun) (early := h.early) (pulls := h.pulls) (body := fun c w =>
    if !reduces c.op.kind || m.payload.length != (m.count + 7) / 8 * 8 then w.map Fab.dropMessage
    else if !(treeDown c.desc m.treeB (treeRank c.desc)).contains m.source then w
    else (List.range m.count).foldl (fun x i =>
      x.meet c.id ⟨4, m.source, m.offset + i, 0, (m.payload.getD i 0).toNat, none, false, (0, 0), (0, 0)⟩) w) (by
    dsimp only
    rw [h.kind, length, h.one, child, if_neg (by decide), if_neg (by decide)]
    refine (W.meet_of_block ⟨4, m.source, m.offset + 0, 0, (m.payload.getD 0 0).toNat, none, false, (0, 0), (0, 0)⟩
      (w := W.met s m) h.found h.block).trans ?_
    exact W.agreeBlock_of_due (w := W.met s m) h.found h.block pre new (by rw [h.tree]; exact due))
  refine ⟨t, next, only, ?_, ?_⟩ <;> rw [fab]
  · rfl
  · rw [left]
    exact Coll.block?_withBlock _ _ _

/-! ### Adds -/

/-- An add of an adder without a fault (R92). -/
theorem combine_of_sum (f : Fab) (c : Coll) (b : Nat) (add : kbxAdd x y = .sum sum false) : combine f c b (0, 0) x y = some (f, sum, false) := by
  have clean : f.addFault c b 0 0 = f := rfl
  unfold combine
  rw [add]
  dsimp only
  have level : (if sum.nf = true then 0 else if false = true then 3 else 0) = 0 := by split <;> rfl
  rw [level, clean]
  rfl

theorem W.keepFallback_of_slots (w : W) (slots : c.fallback = false) (b : Nat) (k : Kbx) (fresh : Bool) (adds : Nat) (body : W → W) :
    w.keepFallback c b k fresh adds body = body w := by
  unfold W.keepFallback
  rw [slots]
  rfl

theorem W.keepNarrowed_of_slots (w : W) (slots : c.fallback = false) (b : Nat) (r r1 : BlockRec) (body : W → W) :
    w.keepNarrowed c b r r1 body = body w := by
  unfold W.keepNarrowed
  split
  · split
    · rfl
    · exact w.keepFallback_of_slots slots _ _ _ _ _
  · rfl

/-- The sum of a block of which a child's is due goes no further (R315). -/
theorem W.advance_of_due (found : w.fab.coll? id = some c) (block : c.block? b = some r) (down : r.down = false) (good : r.bad = false)
    (slots : c.fallback = false) (converted : r.low = some lo) (due : (c.kids (b % 2 == 1)).1.all r.got.contains = false)
    (fault : Nat × Nat) (n : Nat) : W.advance id b fault (n + 1) false w = w.map (fun f => f.setBlock id b r) := by
  have total : totalOf w.fab c b fault r = some (w.fab, r, none, false) := by
    unfold totalOf
    extract_lets tree me kids
    rw [converted]
    exact if_pos (by rw [show kids.1.all r.got.contains = false from due]; rfl)
  unfold W.advance
  rw [found]
  dsimp only
  rw [block]
  dsimp only
  rw [down, good, if_neg (by decide), if_neg (by decide), total]
  dsimp only
  exact W.keepNarrowed_of_slots _ slots _ _ _ _

/-- The sum of a block goes up to the parent with the last child's, where the member does not narrow (R315). -/
theorem W.advance_of_last (found : w.fab.coll? id = some c) (block : c.block? b = some r) (down : r.down = false) (good : r.bad = false)
    (slots : c.fallback = false) (converted : r.low = some lo) (all : (c.kids (b % 2 == 1)).1.all r.got.contains = true)
    (wide : narrows c.desc (b % 2 == 1) (treeRank c.desc) = false) {u : Nat} (parent : treeUp c.desc (b % 2 == 1) (treeRank c.desc) = some u)
    (fault : Nat × Nat) (n : Nat) :
    W.advance id b fault (n + 1) false w = w.map (fun f => (f.setBlock id b r).sendUp id b u r lo) := by
  have total : totalOf w.fab c b fault r = some (w.fab, r, some lo, false) := by
    unfold totalOf
    extract_lets tree me kids
    rw [converted]
    refine (if_neg ?_).trans (if_pos ?_)
    · rw [show kids.1.all r.got.contains = true from all]
      decide
    · rw [show narrows c.desc tree me = false from wide]
      rfl
  unfold W.advance
  rw [found]
  dsimp only
  rw [block]
  dsimp only
  rw [down, good, if_neg (by decide), if_neg (by decide), total]
  dsimp only
  refine (W.keepNarrowed_of_slots _ slots _ _ _ _).trans ?_
  rw [parent]
  rfl

/-- A child's sum of the present attempt joins the block's (R315, R322). -/
theorem W.addUp_of_sum (found : w.fab.coll? id = some c) (block : c.block? b = some r) (down : r.down = false) (slots : c.fallback = false)
    {src : Nat} (new : r.got.contains src = false) (converted : r.low = some lo) (add : kbxAdd lo k' = .sum sum false) (narrowed : Nat × Nat) :
    w.addUp id src b r.attempt k' false (0, 0) narrowed =
      W.advance id b narrowed 8 false (w.map (fun f => f.setBlock id b { r with low := some sum, got := r.got ++ [src] })) := by
  unfold W.addUp
  rw [found]
  dsimp only
  rw [block]
  dsimp only
  rw [if_neg (Nat.lt_irrefl _), if_neg (by rw [new, down, converted]; simp), if_neg Bool.false_ne_true, converted]
  dsimp only
  rw [combine_of_sum _ _ _ add]
  dsimp only
  rw [W.keepFallback_of_slots _ slots]
  rfl

/-! ### UP -/

/-- The next state, where the device alone changes. -/
theorem eq_of_deviceOnly (only : DeviceOnly s t) (fab : t.fab = g) : t = { s with fab := g } := by
  obtain ⟨mem, sec, pending⟩ := only
  cases t
  cases s
  simp_all

/-- A child of this member's group is none among the group roots. -/
theorem Coll.kids_apart (c : Coll) (tree : Bool) {j : Nat} (own : (c.kids tree).1.contains j = true) : (c.kids tree).2.contains j = false := by
  unfold Coll.kids at own ⊢
  rw [List.partition_eq_filter_filter] at own ⊢
  have inside := (List.mem_filter.1 (List.contains_iff_mem.1 own)).2
  rw [Bool.eq_false_iff]
  intro above
  have outside := (List.mem_filter.1 (List.contains_iff_mem.1 above)).2
  simp [inside] at outside

/-- What UP does with its one block (R315, R327). -/
def W.upBlock (m : CollMsg) (c : Coll) (w : W) : W :=
  let k32 := m.format == 1
  let kids := c.kids m.treeB
  let n := kbxBytes k32
  if !reduces c.op.kind || m.format ≥ 2 || m.payload.length != n * m.count || m.count = 0 || 16 < m.count then w.map Fab.dropMessage
  else if !(kids.1.contains m.source || kids.2.contains m.source) then w
  else
    (List.range m.count).foldl (fun x i =>
      match kbxRead k32 (payloadBlock m n i) with
      | some k => if (m.offset + i) % 2 == (if m.treeB then 1 else 0) then
          x.meet c.id ⟨1, m.source, m.offset + i, m.attempt, 0, some k, kids.2.contains m.source, faultOf [] i,
            faultOf [] (i + 16)⟩ else x
      | none => x.map Fab.dropMessage) w

/-- A sum sent up (R315, R327). -/
theorem Fab.sendUp_of_found (found : f.coll? id = some c) (b u : Nat) (r : BlockRec) (total : Kbx) (plain : total.k32 = false) :
    f.sendUp id b u r total = (f.setBlock id b { r with upSent := true }).collSend c u 0x01
      { (c.msg (b % 2 == 1) r.attempt b 1 0 total.wire) with last := c.lastOf (b % 2 == 1) b (·.upSent) } := by
  unfold Fab.sendUp
  rw [found]
  dsimp only
  rw [plain]
  rfl

/-- A message of a collective goes out at once on a flow with room. -/
theorem Fab.netOut_collSend {k : FlowKey} {dest : Nat} (flow : c.flow dest = k) (idle : (f.flow k).waiting = [])
    (room : (f.flow k).unacked.length < 512) (type : Nat) (m : CollMsg) (cast : Option Bool) :
    (f.collSend c dest type m cast).netOut = f.netOut ++ [f.outPacket k 0 (collBytes type m)] := by
  subst flow
  exact Fab.netOut_flowSend (f := f.onColl c.id (fun d => { d with outbox := d.outbox ++ [⟨dest, type, { m with via := c.flow dest }⟩] }))
    idle room (collBytes type m) _

theorem ForBlock.upBlock (h : ForBlock s m false c r) (format : m.format = 0) (length : m.payload.length = 392)
    (child : (c.kids m.treeB).1.contains m.source = true) {k : Kbx} (read : kbxRead false m.payload = some k) :
    W.upBlock m c (W.met s m) = (W.met s m).addUp c.id m.source m.offset m.attempt k false (0, 0) (0, 0) := by
  have apart := c.kids_apart m.treeB child
  have parity : (m.offset + 0) % 2 == (if m.treeB then 1 else 0) := by
    rw [← h.tree, Nat.add_zero]
    have := Nat.mod_two_eq_zero_or_one m.offset
    rcases this with even | odd
    · rw [even]; rfl
    · rw [odd]; rfl
  have whole : payloadBlock m 392 0 = m.payload := by
    unfold payloadBlock
    rw [Nat.mul_zero, List.drop_zero, List.take_of_length_le (Nat.le_of_eq length)]
  unfold W.upBlock
  dsimp only
  rw [h.kind, format, length, h.one, child, apart]
  refine (if_neg (by decide)).trans ((if_neg (by decide)).trans ?_)
  change (match kbxRead false (payloadBlock m 392 0) with
    | some k => if (m.offset + 0) % 2 == (if m.treeB then 1 else 0) then
        (W.met s m).meet c.id ⟨1, m.source, m.offset + 0, m.attempt, 0, some k, false, (0, 0), (0, 0)⟩ else W.met s m
    | none => (W.met s m).map Fab.dropMessage) = _
  rw [whole, read]
  dsimp only
  rw [if_pos parity]
  exact W.meet_of_block ⟨1, m.source, m.offset + 0, m.attempt, 0, some k, false, (0, 0), (0, 0)⟩ (w := W.met s m) h.found h.block

/-- What UP leaves of a collective of whose block it makes the device g. -/
theorem ForBlock.exec_up (h : ForBlock s m false c r) (format : m.format = 0) (length : m.payload.length = 392)
    (child : (c.kids m.treeB).1.contains m.source = true) {k : Kbx} (read : kbxRead false m.payload = some k)
    (added : (W.met s m).addUp c.id m.source m.offset m.attempt k false (0, 0) (0, 0) = { W.met s m with fab := g })
    (left : g.coll? c.id = some d) (begun : d.begun) (early : d.early = []) (pulls : d.pulls = []) :
    exec (.upMsg m []) s = .next { s with fab := g } := by
  obtain ⟨t, next, only, fab⟩ := h.ends (body := fun c w => W.upBlock m c w) ((h.upBlock format length child read).trans added) left begun
    early pulls
  rw [← eq_of_deviceOnly only fab]
  exact next

/-- The device with a block's sum noted and sent up to the parent. -/
def Fab.sentUp (f : Fab) (c : Coll) (b : Nat) (r : BlockRec) (u : Nat) (total : Kbx) (last : Bool) : Fab :=
  (((f.setBlock c.id b r).setBlock c.id b r).setBlock c.id b { r with upSent := true }).collSend ((c.withBlock b r).withBlock b r) u 0x01
    { c.msg (b % 2 == 1) r.attempt b 1 0 total.wire with last := last }

theorem Fab.coll?_sentUp (found : f.coll? c.id = some c) (b : Nat) (r : BlockRec) (u : Nat) (total : Kbx) (last : Bool) :
    ∃ l, (f.sentUp c b r u total last).coll? c.id =
      some { ((c.withBlock b r).withBlock b r).withBlock b { r with upSent := true } with outbox := l } :=
  ⟨_, Fab.coll?_collSend (c := (c.withBlock b r).withBlock b r)
    (Fab.coll?_setBlock (Fab.coll?_setBlock (Fab.coll?_setBlock found b r) b r) b { r with upSent := true }) u 0x01 _ none⟩

theorem Fab.netOut_sentUp {u : Nat} (idle : (f.flow (c.flow u)).waiting = []) (room : (f.flow (c.flow u)).unacked.length < 512)
    (b : Nat) (r : BlockRec) (total : Kbx) (last : Bool) :
    (f.sentUp c b r u total last).netOut = f.netOut ++ [f.outPacket (c.flow u) 0 (collBytes 0x01
      { c.msg (b % 2 == 1) r.attempt b 1 0 total.wire with last := last })] := by
  unfold Fab.sentUp
  rw [Fab.netOut_collSend (c := (c.withBlock b r).withBlock b r) (k := c.flow u) rfl (by simp only [Fab.flow_setBlock]; exact idle)
    (by simp only [Fab.flow_setBlock]; exact room), Fab.outPacket_setBlock, Fab.outPacket_setBlock, Fab.outPacket_setBlock]
  rfl

/-- The sum of a block that is complete goes up. -/
theorem W.addUp_of_last (found : w.fab.coll? c.id = some c) (block : c.block? b = some r) (down : r.down = false) (good : r.bad = false)
    (slots : c.fallback = false) {src : Nat} (new : r.got.contains src = false) (converted : r.low = some lo)
    (add : kbxAdd lo k' = .sum sum false) (all : (c.kids (b % 2 == 1)).1.all (r.got ++ [src]).contains = true)
    (wide : narrows c.desc (b % 2 == 1) (treeRank c.desc) = false) {u : Nat} (parent : treeUp c.desc (b % 2 == 1) (treeRank c.desc) = some u)
    (plain : sum.k32 = false) :
    w.addUp c.id src b r.attempt k' false (0, 0) (0, 0) = { w with
      fab := w.fab.sentUp c b { r with low := some sum, got := r.got ++ [src] } u sum (c.lastOf (b % 2 == 1) b (·.upSent)) } := by
  have mid := Fab.coll?_setBlock found b { r with low := some sum, got := r.got ++ [src] }
  have went := W.advance_of_last (w := w.map (fun f => f.setBlock c.id b { r with low := some sum, got := r.got ++ [src] })) mid
    (c.block?_withBlock b _) down good slots (lo := sum) rfl all wide parent (0, 0) 7
  have sent := Fab.sendUp_of_found (Fab.coll?_setBlock mid b { r with low := some sum, got := r.got ++ [src] }) b u
    { r with low := some sum, got := r.got ++ [src] } sum plain
  rw [Coll.lastOf_withBlock, Coll.lastOf_withBlock] at sent
  exact (W.addUp_of_sum found block down slots new converted add (0, 0)).trans
    (went.trans (congrArg (fun g : Fab => { w with fab := g }) sent))

/-- UP of the last child (R315). -/
theorem ForBlock.exec_up_last (h : ForBlock s m false c r) (format : m.format = 0) (length : m.payload.length = 392)
    (child : (c.kids m.treeB).1.contains m.source = true) {k : Kbx} (read : kbxRead false m.payload = some k) (same : m.attempt = r.attempt)
    (new : r.got.contains m.source = false) (converted : r.low = some lo) (add : kbxAdd lo k = .sum sum false) {u : Nat}
    (all : ∀ j ∈ (c.kids m.treeB).1, j = m.source ∨ r.got.contains j = true)
    (wide : narrows c.desc m.treeB (treeRank c.desc) = false) (parent : treeUp c.desc m.treeB (treeRank c.desc) = some u)
    (plain : sum.k32 = false) (free : Claims.flowFree s (c.flow u)) :
    ∃ t, exec (.upMsg m []) s = .next t ∧ DeviceOnly s t ∧
      t.fab.netOut = s.fab.netOut ++ [Claims.sent s (c.flow u) (collBytes 0x01 { c.msg m.treeB r.attempt m.offset 1 0 sum.wire with
        last := c.lastOf m.treeB m.offset (·.upSent) })] ∧
      (t.fab.coll? c.id).bind (·.block? m.offset) = some { r with low := some sum, got := r.got ++ [m.source], upSent := true } := by
  obtain ⟨idle, room⟩ := free
  have every : (c.kids m.treeB).1.all (r.got ++ [m.source]).contains = true := by
    refine List.all_eq_true.2 fun j hj => ?_
    rw [List.contains_append]
    rcases all j hj with rfl | here
    · simp
    · rw [here, Bool.true_or]
  rw [← h.tree] at every wide parent
  have added := W.addUp_of_last (w := W.met s m) (k' := k) h.found h.block h.due h.good h.slots new converted add every wide parent plain
  obtain ⟨l, left⟩ := Fab.coll?_sentUp h.found m.offset { r with low := some sum, got := r.got ++ [m.source] } u sum
    (c.lastOf (m.offset % 2 == 1) m.offset (·.upSent))
  refine ⟨_, h.exec_up format length child read (by rw [same]; exact added) left h.begun h.early h.pulls, ⟨rfl, rfl, rfl⟩, ?_, ?_⟩
  · rw [← h.tree]
    exact Fab.netOut_sentUp idle room m.offset _ sum _
  · exact (congrArg (fun d : Option Coll => d.bind (·.block? m.offset)) left).trans (Coll.block?_withBlock _ _ _)

/-- UP of a child of this member's group (R315, R317, R322). -/
theorem upMsg_claims (h : ForBlock s m false c r) {k : Kbx} (format : m.format = 0) (length : m.payload.length = 392)
    (child : (c.kids m.treeB).1.contains m.source = true) (read : kbxRead false m.payload = some k) :
    let me := treeRank c.desc
    let kids := c.kids m.treeB
    (m.attempt < r.attempt → exec (.upMsg m []) s = .next { s with fab := { s.fab with lateBlocks := s.fab.lateBlocks + 1 } }) ∧
     (r.attempt < m.attempt → exec (.upMsg m []) s = .next s) ∧
     (m.attempt = r.attempt → r.got.contains m.source = false → r.low = some lo → kbxAdd lo k = .sum sum false →
       ((∃ j ∈ kids.1, j ≠ m.source ∧ r.got.contains j = false) →
         ∃ t, exec (.upMsg m []) s = .next t ∧ DeviceOnly s t ∧ t.fab.netOut = s.fab.netOut ∧
           (t.fab.coll? c.id).bind (·.block? m.offset) = some { r with low := some sum, got := r.got ++ [m.source] }) ∧
       (∀ u, (∀ j ∈ kids.1, j = m.source ∨ r.got.contains j = true) → narrows c.desc m.treeB me = false →
         treeUp c.desc m.treeB me = some u → sum.k32 = false → Claims.flowFree s (c.flow u) →
         ∃ t, exec (.upMsg m []) s = .next t ∧ DeviceOnly s t ∧
           t.fab.netOut = s.fab.netOut ++ [Claims.sent s (c.flow u) (collBytes 0x01 { c.msg m.treeB r.attempt m.offset 1 0 sum.wire with
             last := c.lastOf m.treeB m.offset (·.upSent) })] ∧
           (t.fab.coll? c.id).bind (·.block? m.offset) =
             some { r with low := some sum, got := r.got ++ [m.source], upSent := true })) := by
  intro me kids
  have run := fun {g : Fab} {d : Coll} (added : (W.met s m).addUp c.id m.source m.offset m.attempt k false (0, 0) (0, 0) =
    { W.met s m with fab := g }) (left : g.coll? c.id = some d) => h.exec_up format length child read added left
  have met : (W.met s m).fab.coll? c.id = some c := h.found
  refine ⟨fun late => ?_, fun later => ?_, fun same new converted add => ?_⟩
  · refine run (g := { s.fab with lateBlocks := s.fab.lateBlocks + 1 }) ?_ h.found h.begun h.early h.pulls
    unfold W.addUp
    rw [met]
    dsimp only
    rw [h.block]
    exact if_pos late
  · refine run (g := s.fab) ?_ h.found h.begun h.early h.pulls
    unfold W.addUp
    rw [met]
    dsimp only
    rw [h.block]
    exact (if_neg (by omega)).trans (if_pos (.inl (by omega)))
  · have summed := W.addUp_of_sum (w := W.met s m) met h.block h.due h.slots new converted add (0, 0)
    have run := fun {g : Fab} {d : Coll} (added : (W.met s m).addUp c.id m.source m.offset r.attempt k false (0, 0) (0, 0) =
      { W.met s m with fab := g }) (left : g.coll? c.id = some d) => run (by rw [same]; exact added) left
    have mid := Fab.coll?_setBlock h.found m.offset { r with low := some sum, got := r.got ++ [m.source] }
    have own := c.block?_withBlock m.offset { r with low := some sum, got := r.got ++ [m.source] }
    refine ⟨fun due => ?_, fun u all wide parent plain free => ?_⟩
    · have went := W.advance_of_due (w := (W.met s m).map (fun f => f.setBlock c.id m.offset
          { r with low := some sum, got := r.got ++ [m.source] })) mid own h.due h.good h.slots (lo := sum) rfl
        (by rw [h.tree]; exact all_contains_append_eq_false due) (0, 0) 7
      have left := Fab.coll?_setBlock mid m.offset { r with low := some sum, got := r.got ++ [m.source] }
      refine ⟨_, run (summed.trans went) left h.begun h.early h.pulls, ⟨rfl, rfl, rfl⟩, rfl, ?_⟩
      exact (congrArg (fun d : Option Coll => d.bind (·.block? m.offset)) left).trans (Coll.block?_withBlock _ _ _)
    · exact h.exec_up_last format length child read same new converted add all wide parent plain free

end Sys2Proof.Machine
end

section
/-! PROOFS. A block converted anew (O38; R313, R315 step 1, R317). -/

namespace Sys2Proof.Machine

open Sys2Proof Sys2Proof.Safety

variable {s t : State} {w v : W} {f g : Fab} {c d : Coll} {m : CollMsg} {r : BlockRec} {p die a n id b x : Nat} {own : Kbx}

/-! ### What counting and sending leave of a range that can be reached -/

/-- Entries of Kolas's counts are none that places, owners and links are told by. -/
theorem Fab.ReachedFrom.counted (reached : f.ReachedFrom p die a n) {j : Nat} (hj : j < 256) (k : Nat) :
    (f.dadd 0x6020 j k).ReachedFrom p die a n := by
  have dget : ∀ i sub, sub < 256 → i ≠ 0x6020 → (f.dadd 0x6020 j k).dget i sub = f.dget i sub := fun i sub hs hi =>
    f.dget_dadd_ne (dictKey_ne hi hs hj)
  have routes : (f.dadd 0x6020 j k).routes = f.routes := rfl
  have sound : (f.dadd 0x6020 j k).faultless a n := reached.sound
  have calm : (f.dadd 0x6020 j k).calm = f.calm := by
    refine congrArg (fun v : Nat => f.islands.isEmpty && f.txns.isEmpty && v != 2) ?_
    exact dget 0x2040 1 (by decide) (by decide)
  generalize f.dadd 0x6020 j k = g at dget routes sound calm ⊢
  have locate : ∀ y, g.locate none y = f.locate none y := by
    intro y
    have granules : ∀ i, g.granuleGone i = f.granuleGone i := fun i => by
      rw [Fab.granuleGone, Fab.granuleGone, dget 0x3010 1 (by decide) (by decide)]
    have slices : ∀ i, i < 8 → g.sliceGone i = f.sliceGone i := fun i hi => by
      rw [Fab.sliceGone, Fab.sliceGone, dget 0x3012 (i + 1) (by omega) (by decide)]
    unfold Fab.locate
    refine ite_congr rfl (fun _ => rfl) (fun _ => ite_congr rfl (fun _ => rfl) (fun _ => ite_congr rfl (fun _ => rfl)
      (fun _ => ite_congr rfl (fun upper => ?_) (fun _ => rfl))))
    dsimp only
    rw [granules, slices _ (by omega)]
  have inkwell : ∀ i o, g.placeOwner (.inkwell i o) = f.placeOwner (.inkwell i o) := fun i o => by
    have ranges : ∀ q ∈ partitions, g.mapRange 0xB110 i q = f.mapRange 0xB110 i q := fun q hq => by
      have small : q < 16 := List.mem_range.1 hq
      rw [Fab.mapRange, Fab.mapRange, dget (0xB110 + i) (q + 1) (by omega) (by omega)]
    change g.inkwellOwner i _ = f.inkwellOwner i _
    unfold Fab.inkwellOwner
    rw [List.find?_congr (fun q hq => by rw [ranges q hq])]
  refine ⟨Eq.trans ?_ reached.inside, Eq.trans ?_ reached.way, sound, calm.trans reached.calm⟩
  · unfold Fab.inWindows
    refine congrArg (fun q => (checkpoints a n).all q) (funext fun y => ?_)
    rw [locate]
    split
    · rw [inkwell]
    · next i o at_ =>
      have granule : o / 2 ^ 33 + 1 < 256 := by have := (Fab.locate_lpddr_bounds at_).2; omega
      rw [Fab.placeOwner, Fab.placeOwner, dget 0xB102 _ granule (by decide)]
    · rfl
  · unfold Fab.wayTo
    rw [locate, routes]
    dsimp only
    split <;> simp

/-- Reaching a range does not depend on collectives, on flows or on what was sent. -/
theorem Fab.ReachedFrom.sentOn (reached : f.ReachedFrom p die a n)
    (same : { g with flows := [], netOut := [], colls := [] } = { f with flows := [], netOut := [], colls := [] }) :
    g.ReachedFrom p die a n := by
  have eq : g = { f with flows := g.flows, netOut := g.netOut, colls := g.colls } :=
    congrArg (fun h : Fab => { h with flows := g.flows, netOut := g.netOut, colls := g.colls }) same
  rw [eq]
  exact ⟨reached.inside, reached.way, reached.sound, reached.calm⟩

/-! ### The contributions of a member -/

/-- Work that reads slices, slots and memory as other work does. -/
structure W.Sees (w v : W) : Prop where
  steps : v.fab.steps = w.fab.steps
  slots : v.fab.slots = w.fab.slots
  load : ∀ p x, v.load p x = w.load p x

theorem W.Sees.trans {u : W} (first : W.Sees w v) (second : W.Sees v u) : W.Sees w u :=
  ⟨second.steps.trans first.steps, second.slots.trans first.slots, fun p x => (second.load p x).trans (first.load p x)⟩

/-- Work on a device with the same steps, slots, line keys and fills. -/
theorem W.sees_of_fab (steps : g.steps = w.fab.steps) (slots : g.slots = w.fab.slots) (keys : g.lineKey = w.fab.lineKey)
    (fills : g.fills = w.fab.fills) (struck : List Nat) : W.Sees w { w with fab := g, struck := struck } :=
  ⟨steps, slots, fun _ _ => W.load_congr (by rw [Fab.keyOf, Fab.keyOf]; dsimp only; rw [keys, fills]) rfl (fun _ _ => rfl)⟩

theorem W.Sees.slice? (same : W.Sees w v) (p k : Nat) : v.fab.slice? p k = w.fab.slice? p k := by
  rw [Fab.slice?, Fab.slice?, same.steps]

theorem W.Sees.loadNat (same : W.Sees w v) (p x k : Nat) : v.loadNat p x k = w.loadNat p x k :=
  W.loadNat_congr fun y _ _ => same.load p y

theorem W.Sees.sliceElem (same : W.Sees w v) (p : Nat) (q : Slice) (i : Nat) : v.sliceElem p q i = w.sliceElem p q i := by
  unfold W.sliceElem Fab.slot
  rw [same.slots, same.loadNat]

theorem W.Sees.contributions (same : W.Sees w v) (c : Coll) (b : Nat) : v.contributions c b = w.contributions c b := by
  unfold W.contributions
  simp only [same.slice?, same.sliceElem, same.loadNat]

theorem W.Sees.sourceRanges (same : W.Sees w v) (c : Coll) (b : Nat) : v.sourceRanges c b = w.sourceRanges c b := by
  unfold W.sourceRanges
  simp only [same.slice?]

/-! ### A member's own block -/

/-- One contribution added to the sum of those before it, and whether an input was bad so far. -/
def addOwn (sum : Kbx × Bool) (k : Kbx) : Kbx × Bool :=
  match kbxAdd sum.1 k with
  | .mismatch => sum
  | .sum total bad => (total, sum.2 || (!total.nf && bad))

theorem addOwn_bad (sum : Kbx × Bool) (k : Kbx) (bad : sum.2 = true) : (addOwn sum k).2 = true := by
  unfold addOwn
  split
  · exact bad
  · rw [bad]; rfl

theorem foldl_addOwn_bad (l : List Kbx) (sum : Kbx × Bool) (bad : sum.2 = true) : (l.foldl addOwn sum).2 = true := by
  induction l generalizing sum with
  | nil => exact bad
  | cons k l ih => exact ih _ (addOwn_bad sum k bad)

/-- One contribution added by an adder whose faults no command tells. -/
def Fab.addOwn (c : Coll) (b : Nat) (struck : List Nat) (a : Fab × Kbx × Bool) (e : Kbx × Nat) : Fab × Kbx × Bool :=
  match combine a.1 c b (if e.2 = 0 then faultOf struck b else (0, 0)) a.2.1 e.1 with
  | some y => (y.1, y.2.1, a.2.2 || y.2.2)
  | none => a

theorem Fab.addOwn_spec (c : Coll) (b : Nat) (f : Fab) (sum : Kbx × Bool) (e : Kbx × Nat) :
    (Fab.addOwn c b [] (f, sum.1, sum.2) e).2 = Machine.addOwn sum e.1 ∧
      ((Machine.addOwn sum e.1).2 = false → (Fab.addOwn c b [] (f, sum.1, sum.2) e).1 = f) := by
  have told : (if e.2 = 0 then faultOf [] b else (0, 0)) = (0, 0) := by split <;> rfl
  unfold Fab.addOwn combine Machine.addOwn
  rw [told]
  dsimp only
  cases kbxAdd sum.1 e.1 with
  | mismatch => exact ⟨rfl, fun _ => rfl⟩
  | sum total bad =>
    dsimp only
    cases total.nf <;> cases bad <;> simp [Fab.addFault]

theorem Fab.foldl_addOwn (c : Coll) (b : Nat) (l : List (Kbx × Nat)) (f : Fab) (sum : Kbx × Bool) :
    (l.foldl (Fab.addOwn c b []) (f, sum.1, sum.2)).2 = (l.map (·.1)).foldl Machine.addOwn sum ∧
      (((l.map (·.1)).foldl Machine.addOwn sum).2 = false → (l.foldl (Fab.addOwn c b []) (f, sum.1, sum.2)).1 = f) := by
  induction l generalizing f sum with
  | nil => exact ⟨rfl, fun _ => rfl⟩
  | cons e l ih =>
    obtain ⟨value, device⟩ := Fab.addOwn_spec c b f sum e
    rw [List.foldl_cons, List.map_cons, List.foldl_cons]
    have next : Fab.addOwn c b [] (f, sum.1, sum.2) e =
        ((Fab.addOwn c b [] (f, sum.1, sum.2) e).1, (Machine.addOwn sum e.1).1, (Machine.addOwn sum e.1).2) := Prod.ext rfl value
    obtain ⟨values, devices⟩ := ih (Fab.addOwn c b [] (f, sum.1, sum.2) e).1 (Machine.addOwn sum e.1)
    rw [← next] at values devices
    refine ⟨values, fun clean => (devices clean).trans (device ?_)⟩
    exact Bool.eq_false_iff.2 fun bad => Bool.eq_false_iff.1 clean (foldl_addOwn_bad _ _ bad)

/-- The sum of a member's contributions on scale X where no adder faults, and whether an input is bad (R315 step 1). -/
def W.ownValue (w : W) (c : Coll) (b x : Nat) : Kbx × Bool :=
  match (w.contributions c b).map (fun v => kbxOf x (treeH c.desc) (v.map (·.1))) with
  | k :: r => r.foldl addOwn (k, false)
  | [] => (kbxOf x (treeH c.desc) (List.replicate 64 0), false)

theorem W.ownBlock_spec (struck : w.struck = []) (c : Coll) (b x : Nat) :
    (w.ownBlock c b x).2 = w.ownValue c b x ∧ ((w.ownValue c b x).2 = false → (w.ownBlock c b x).1 = w.fab) := by
  unfold W.ownBlock W.ownValue
  rw [struck]
  generalize (w.contributions c b).map (fun v => kbxOf x (treeH c.desc) (v.map (·.1))) = l
  cases l with
  | nil => exact ⟨rfl, fun _ => rfl⟩
  | cons k l =>
    have spec := Fab.foldl_addOwn c b l.zipIdx w.fab (k, false)
    rw [List.zipIdx_map_fst] at spec
    exact spec

theorem W.Sees.ownValue (same : W.Sees w v) (c : Coll) (b x : Nat) : v.ownValue c b x = w.ownValue c b x := by
  unfold W.ownValue
  rw [same.contributions]

/-! ### A block converted -/

theorem Fab.colls_countFlag (f : Fab) (raised : Bool) (j : Nat) : (f.countFlag raised j).colls = f.colls := by
  unfold Fab.countFlag
  split <;> rfl

theorem Fab.colls_countFlags (f : Fab) (e : Raise) : (f.countFlags e).colls = f.colls := by
  rw [Fab.countFlags_eq, Fab.colls_countFlag, Fab.colls_countFlag, Fab.colls_countFlag]

/-- A block's record once it is converted for an attempt. -/
def BlockRec.converted (r : BlockRec) (attempt x : Nat) (own : Kbx) : BlockRec :=
  { r with attempt := attempt, x := x, pre := false, low := some own, upper := none, got := [], bad := false }

/-- A conversion that meets no bad input sets the block's record, and counts its reads and flags (R315 step 1, R317). -/
theorem W.convert_of_reached (found : w.fab.coll? id = some c) (block : c.block? b = some r) (slots : c.fallback = false)
    (struck : w.struck = []) (reached : ∀ q ∈ w.sourceRanges c b, w.fab.ReachedFrom c.partition c.die q.1 q.2.1)
    (value : w.ownValue c b x = (own, false)) (attempt : Nat) :
    ∃ g : Fab, g.colls = w.fab.colls ∧ w.convert id b attempt x = { w with fab := g.setBlock id b (r.converted attempt x own) } := by
  obtain ⟨g, served, ran⟩ := W.collDo_of_reached found reached
  have sees : W.Sees w { w with fab := g } := W.sees_of_fab (g := g) (congrArg (·.steps) served.rest) (congrArg (·.slots) served.rest)
    (congrArg (·.lineKey) served.rest) (congrArg (·.fills) served.rest) w.struck
  obtain ⟨sum, device⟩ := W.ownBlock_spec (w := { w with fab := g }) struck c b x
  rw [sees.ownValue, value] at sum device
  have device := device rfl
  refine ⟨g.countFlags (({ w with fab := g } : W).ownFlags c b), ?_, ?_⟩
  · exact (Fab.colls_countFlags g _).trans (congrArg (·.colls) served.rest)
  · unfold W.convert
    rw [found]
    dsimp only
    rw [block]
    dsimp only
    rw [ran]
    dsimp only
    rw [W.keepFallback_of_slots _ slots, sum, device, struck]
    rfl

/-- A block converted of which a child's sum is due goes no further. -/
theorem W.advance_convert (found : w.fab.coll? id = some c) (block : c.block? b = some r) (down : r.down = false)
    (slots : c.fallback = false) (struck : w.struck = [])
    (reached : ∀ q ∈ w.sourceRanges c b, w.fab.ReachedFrom c.partition c.die q.1 q.2.1) (value : w.ownValue c b x = (own, false))
    (kids : (c.kids (b % 2 == 1)).1 ≠ []) (attempt : Nat) :
    ∃ g : Fab, g.coll? id = some ((c.withBlock b (r.converted attempt x own)).withBlock b (r.converted attempt x own)) ∧
      W.advance id b (0, 0) 8 false (w.convert id b attempt x) = { w with fab := g } := by
  obtain ⟨g, colls, converted⟩ := W.convert_of_reached found block slots struck reached value attempt
  have mid := Fab.coll?_setBlock ((Fab.coll?_of_colls colls id).trans found) b (r.converted attempt x own)
  have due : (c.kids (b % 2 == 1)).1.all (r.converted attempt x own).got.contains = false := by
    obtain ⟨j, l, children⟩ := List.exists_cons_of_ne_nil kids
    rw [children]
    rfl
  refine ⟨(g.setBlock id b (r.converted attempt x own)).setBlock id b (r.converted attempt x own), Fab.coll?_setBlock mid b _, ?_⟩
  rw [converted]
  exact W.advance_of_due (w := { w with fab := g.setBlock id b (r.converted attempt x own) }) mid (c.block?_withBlock b _) down rfl slots
    rfl due (0, 0) 7

/-! ### A message that converts a block anew -/

/-- Device f is that of s with the record of block b of collective c set to r, what the member sent of it noted, and nothing changed that
its source is read by. -/
structure State.Restarts (s : State) (c : Coll) (b : Nat) (r : BlockRec) (f : Fab) : Prop where
  coll : ∃ l, f.coll? c.id = some { c.withBlock b r with outbox := l }
  steps : f.steps = s.fab.steps
  slots : f.slots = s.fab.slots
  keys : f.lineKey = s.fab.lineKey
  fills : f.fills = s.fab.fills
  reached : ∀ p die a n, s.fab.ReachedFrom p die a n → f.ReachedFrom p die a n

theorem State.Restarts.chats (h : State.Restarts s c b r f) (chats : f.Chats c.id g) : State.Restarts s c b r g where
  coll := by
    obtain ⟨l, found⟩ := h.coll
    obtain ⟨l', left⟩ := chats.coll _ found
    exact ⟨l', left⟩
  steps := (congrArg (·.steps) chats.rest :).trans h.steps
  slots := (congrArg (·.slots) chats.rest :).trans h.slots
  keys := (congrArg (·.lineKey) chats.rest :).trans h.keys
  fills := (congrArg (·.fills) chats.rest :).trans h.fills
  reached p die a n reached := (h.reached p die a n reached).sentOn chats.rest

/-- What a message leaves that converts its block anew, while a child's sum is due (R313, R317). -/
theorem ForBlock.restarts {re : Bool} {r1 : BlockRec} (h : ForBlock s m re c r) (ready : State.Restarts s c m.offset r1 f)
    (down : r1.down = false) (source : Claims.reaches s c.partition c.die ((W.of s).sourceRanges c m.offset))
    (clean : ((W.of s).ownBlock c m.offset x).2.2 = false) (kids : (c.kids m.treeB).1 ≠ []) (attempt : Nat) {body : Coll → W → W}
    (met : body c (W.met s m) = W.advance c.id m.offset (0, 0) 8 false
      (({ W.met s m with fab := f } : W).convert c.id m.offset attempt x)) :
    ∃ t, onMem s (fun w => w.onMessage m body false re) = .next t ∧ DeviceOnly s t ∧
      (t.fab.coll? c.id).bind (·.block? m.offset) = some (r1.converted attempt x ((W.of s).ownBlock c m.offset x).2.1) := by
  obtain ⟨l, found⟩ := ready.coll
  have sees : W.Sees (W.of s) { W.of s with fab := f, struck := m.faults } := W.sees_of_fab ready.steps ready.slots ready.keys ready.fills _
  obtain ⟨value, -⟩ := W.ownBlock_spec (w := W.of s) rfl c m.offset x
  have same : ({ W.met s m with fab := f } : W).ownValue { c.withBlock m.offset r1 with outbox := l } m.offset x =
      (((W.of s).ownBlock c m.offset x).2.1, false) := by
    refine (sees.ownValue c m.offset x).trans (value.symm.trans ?_)
    rw [← clean]
  have ranges : ({ W.met s m with fab := f } : W).sourceRanges { c.withBlock m.offset r1 with outbox := l } m.offset =
      (W.of s).sourceRanges c m.offset := sees.sourceRanges c m.offset
  obtain ⟨g, left, done⟩ := W.advance_convert (w := { W.met s m with fab := f }) found (c.block?_withBlock m.offset r1) down h.slots h.faults
    (by rw [ranges]; exact fun q hq => ready.reached _ _ _ _ (reachedFrom_of_reaches source hq)) same
    (by rw [h.tree]; exact kids) attempt
  obtain ⟨t, next, only, fab⟩ := h.ends (met.trans done) left h.begun h.early h.pulls
  refine ⟨t, next, only, ?_⟩
  rw [fab, left]
  exact Coll.block?_withBlock _ _ _

/-! ### REISSUE -/

theorem Fab.chats_sendReissue (f : Fab) (d : Coll) (b attempt x : Nat) : f.Chats d.id (f.sendReissue d b attempt x) :=
  Fab.Chats.foldl (fun g k => g.chats_collSend d k _ _ _) _ f

/-- A reissue on another scale is counted as one of saturation (R318, R331). -/
theorem Fab.countReissue_of_found (found : f.coll? id = some c) (block : c.block? b = some r) :
    f.countReissue id b false = (f.setBlock id b { r with satReissues := r.satReissues + 1 }).dadd 0x6020 (c.partition + 1) 1 := by
  unfold Fab.countReissue
  rw [found]
  dsimp only
  rw [block]
  rfl

/-- A block's reissue by the parent on another scale: counted, sent on, and the block converted anew (R317). -/
theorem W.reissueBlock_of_parent (found : w.fab.coll? id = some c) (block : c.block? b = some r) (down : r.down = false) {src attempt : Nat}
    (parent : treeUp c.desc (b % 2 == 1) (treeRank c.desc) = some src) (later : r.attempt < attempt) (known : x ≠ 0xFF) (other : x ≠ r.x) :
    w.reissueBlock id src b attempt x = W.advance id b (0, 0) 8 false (({ w with
      fab := ((w.fab.setBlock id b { r with satReissues := r.satReissues + 1 }).dadd 0x6020 (c.partition + 1) 1).sendReissue c b attempt x }
        : W).convert id b attempt x) := by
  have counted := Fab.countReissue_of_found found block
  have scale : (x == r.x) = false := by simp [other]
  unfold W.reissueBlock
  rw [found]
  dsimp only
  rw [block]
  dsimp only
  refine (if_neg (by rw [down]; decide)).trans ((if_pos (by rw [parent]; simp)).trans ((if_neg (by simp [known]; omega)).trans ?_))
  rw [scale]
  exact congrArg (fun g : Fab => W.advance id b (0, 0) 8 false
    (({ w with fab := g.sendReissue c b attempt x } : W).convert id b attempt x)) counted

/-- REISSUE of the parent (R317). -/
theorem exec_reissue (h : ForBlock s m true c r) (source : Claims.reaches s c.partition c.die ((W.of s).sourceRanges c m.offset))
    (parent : treeUp c.desc m.treeB (treeRank c.desc) = some m.source) (later : r.attempt < m.attempt) (known : m.newScale ≠ 0xFF)
    (other : m.newScale ≠ r.x) (kids : (c.kids m.treeB).1 ≠ []) (few : c.partition < 16)
    (clean : ((W.of s).ownBlock c m.offset m.newScale).2.2 = false) :
    ∃ t, exec (.reissue m) s = .next t ∧ DeviceOnly s t ∧ (t.fab.coll? c.id).bind (·.block? m.offset) = some { r with
      attempt := m.attempt, x := m.newScale, pre := false, low := some ((W.of s).ownBlock c m.offset m.newScale).2.1, upper := none,
      got := [], satReissues := r.satReissues + 1 } := by
  have ready : State.Restarts s c m.offset { r with satReissues := r.satReissues + 1 }
      (((s.fab.setBlock c.id m.offset { r with satReissues := r.satReissues + 1 }).dadd 0x6020 (c.partition + 1) 1).sendReissue c m.offset
        m.attempt m.newScale) := by
    have first : State.Restarts s c m.offset { r with satReissues := r.satReissues + 1 }
        ((s.fab.setBlock c.id m.offset { r with satReissues := r.satReissues + 1 }).dadd 0x6020 (c.partition + 1) 1) :=
      ⟨⟨c.outbox, Fab.coll?_setBlock h.found m.offset _⟩, rfl, rfl, rfl, rfl, fun p die a n reached =>
        (reached.sentOn (g := s.fab.setBlock c.id m.offset { r with satReissues := r.satReissues + 1 }) rfl).counted (by omega) 1⟩
    exact first.chats (Fab.chats_sendReissue _ c _ _ _)
  obtain ⟨t, next, only, left⟩ := h.restarts ready h.due source clean kids m.attempt (body := fun c w =>
    if !reduces c.op.kind || (m.offset % 2 == 1) != m.treeB then w.map Fab.dropMessage
    else w.meet c.id ⟨3, m.source, m.offset, m.attempt, m.newScale, none, false, (0, 0), (0, 0)⟩) (by
    have plain : (!reduces c.op.kind || (m.offset % 2 == 1) != m.treeB) = false := by
      rw [h.kind, h.tree]
      simp
    dsimp only
    rw [plain, if_neg Bool.false_ne_true]
    refine (W.meet_of_block ⟨3, m.source, m.offset, m.attempt, m.newScale, none, false, (0, 0), (0, 0)⟩ (w := W.met s m) h.found
      h.block).trans ?_
    exact W.reissueBlock_of_parent (w := W.met s m) h.found h.block h.due (by rw [h.tree]; exact parent) later known other)
  refine ⟨t, next, only, left.trans ?_⟩
  rw [BlockRec.converted, ← h.good]

/-! ### AGREE_DOWN -/

theorem Fab.chats_sendAgreed (f : Fab) (d : Coll) (b v : Nat) : f.Chats d.id (f.sendAgreed d b v) :=
  Fab.Chats.foldl (fun g k => g.chats_collSend d k _ _ _) _ f

/-- An exponent agreed on is used (R313). -/
theorem W.agreed_of_found (found : w.fab.coll? id = some c) (block : c.block? b = some r) (eps : Nat) :
    w.agreed id b eps = W.advance id b (0, 0) 8 false (({ w with fab := w.fab.setBlock id b { r with eps := eps, pre := false } } : W).convert
      id b 0 (scaleOf eps (treeH c.desc))) := by
  unfold W.agreed
  rw [found]
  dsimp only
  rw [block]
  rfl

/-- AGREE_DOWN of the parent (R313). -/
theorem exec_agreeDown (h : ForBlock s m false c r) (source : Claims.reaches s c.partition c.die ((W.of s).sourceRanges c m.offset))
    (length : m.payload.length = 8) (parent : treeUp c.desc m.treeB (treeRank c.desc) = some m.source) (pre : r.pre = true)
    (kids : (c.kids m.treeB).1 ≠ []) {e : Nat} (agreed : (m.payload.getD 0 0).toNat = e)
    (clean : ((W.of s).ownBlock c m.offset (scaleOf e (treeH c.desc))).2.2 = false) :
    ∃ t, exec (.agreeDown m) s = .next t ∧ DeviceOnly s t ∧ (t.fab.coll? c.id).bind (·.block? m.offset) = some { r with
      eps := e, pre := false, attempt := 0, x := scaleOf e (treeH c.desc),
      low := some ((W.of s).ownBlock c m.offset (scaleOf e (treeH c.desc))).2.1, upper := none, got := [] } := by
  have chats := Fab.chats_sendAgreed s.fab c m.offset e
  obtain ⟨l, sent⟩ := chats.coll c h.found
  have ready : State.Restarts s c m.offset { r with eps := e, pre := false }
      ((s.fab.sendAgreed c m.offset e).setBlock c.id m.offset { r with eps := e, pre := false }) := by
    refine ⟨⟨l, Fab.coll?_setBlock sent _ _⟩, (congrArg (·.steps) chats.rest :), (congrArg (·.slots) chats.rest :),
      (congrArg (·.lineKey) chats.rest :), (congrArg (·.fills) chats.rest :), fun p die a n reached => ?_⟩
    exact (reached.sentOn chats.rest).sentOn rfl
  obtain ⟨t, next, only, left⟩ := h.restarts ready h.due source clean kids 0 (body := fun c w =>
    if !reduces c.op.kind || m.payload.length != (m.count + 7) / 8 * 8 then w.map Fab.dropMessage
    else if treeUp c.desc m.treeB (treeRank c.desc) != some m.source then w
    else
    (List.range m.count).foldl (fun x i =>
      match x.fab.coll? c.id with
      | some d =>
        match d.block? (m.offset + i) with
        | some r =>
          if !r.pre then x else
          let v := (m.payload.getD i 0).toNat
          (x.map (fun f => f.sendAgreed d (m.offset + i) v)).agreed c.id (m.offset + i) v
        | none => x
      | none => x) w) (by
    dsimp only
    rw [h.kind, length, h.one, parent, if_neg (by decide), if_neg (by simp)]
    change (match s.fab.coll? c.id with
      | some d =>
        match d.block? m.offset with
        | some r =>
          if !r.pre then W.met s m else
          ((W.met s m).map (fun f => f.sendAgreed d m.offset (m.payload.getD 0 0).toNat)).agreed c.id m.offset (m.payload.getD 0 0).toNat
        | none => W.met s m
      | none => W.met s m) = _
    rw [h.found]
    dsimp only
    rw [h.block]
    dsimp only
    rw [pre, agreed, if_neg (by decide)]
    exact W.agreed_of_found (w := { W.met s m with fab := s.fab.sendAgreed c m.offset e }) (c := { c with outbox := l }) sent h.block e)
  refine ⟨t, next, only, left.trans ?_⟩
  rw [BlockRec.converted, ← h.good]

end Sys2Proof.Machine
end

section
/-! PROOFS. A block that comes down its tree (O38; R314, R315 steps 4 and 5, R325). -/

namespace Sys2Proof.Machine

open Sys2Proof Sys2Proof.Safety

variable {s t : State} {w v : W} {f g h : Fab} {c d : Coll} {m : CollMsg} {r : BlockRec} {p a n e id b est : Nat} {bytes : List Byte}
  {data : List W32} {byte : Byte}

/-! ### Sent on to the children -/

/-- Device g is f after collective `id` has sent messages that cut children which lag: its own outbox and cuts differ, and nothing that
memory is read by. -/
structure Fab.Casts (id : Nat) (f g : Fab) : Prop where
  keys : g.lineKey = f.lineKey
  fills : g.fills = f.fills
  coll : ∀ c, f.coll? id = some c → ∃ l k, g.coll? id = some { c with outbox := l, cuts := k }

theorem Fab.Casts.refl (id : Nat) (f : Fab) : f.Casts id f := ⟨rfl, rfl, fun c found => ⟨c.outbox, c.cuts, found⟩⟩

theorem Fab.Casts.trans (first : f.Casts id g) (second : g.Casts id h) : f.Casts id h where
  keys := second.keys.trans first.keys
  fills := second.fills.trans first.fills
  coll c found := by
    obtain ⟨l, k, mid⟩ := first.coll c found
    obtain ⟨l', k', last⟩ := second.coll _ mid
    exact ⟨l', k', last⟩

theorem Fab.Casts.foldl {α : Type} {step : Fab → α → Fab} (each : ∀ (f : Fab) a, f.Casts id (step f a)) (l : List α) (f : Fab) :
    f.Casts id (l.foldl step f) := by
  induction l generalizing f with
  | nil => exact .refl id f
  | cons a r ih => exact (each f a).trans (ih _)

theorem Fab.Chats.casts (chats : f.Chats id g) : f.Casts id g where
  keys := (congrArg (·.lineKey) chats.rest :)
  fills := (congrArg (·.fills) chats.rest :)
  coll c found := by
    obtain ⟨l, left⟩ := chats.coll c found
    exact ⟨l, c.cuts, left⟩

/-- A child's place among the cut ones noted. -/
theorem Fab.casts_cut (f : Fab) (id dest : Nat) : f.Casts id (f.onColl id (fun c => { c with cuts := c.cuts ++ [dest] })) where
  keys := rfl
  fills := rfl
  coll c found := ⟨c.outbox, c.cuts ++ [dest], Fab.coll?_onColl (step := fun c => { c with cuts := c.cuts ++ [dest] }) found rfl⟩

/-- A count and an event. -/
theorem Fab.casts_reported (f : Fab) (id i j k source code : Nat) (part : Option Nat) (x y : Nat) :
    f.Casts id ((f.dadd i j k).raise source code part x y) where
  keys := Fab.raise_lineKey _ _ _ _ _ _
  fills := Fab.raise_fills _ _ _ _ _ _
  coll c found := ⟨c.outbox, c.cuts, (Fab.coll?_of_colls (Fab.raise_colls _ _ _ _ _ _) id).trans found⟩

theorem Fab.casts_collCast (f : Fab) (id dest type : Nat) (m : CollMsg) (repair : Bool) : f.Casts id (f.collCast id dest type m repair) := by
  unfold Fab.collCast
  split
  · next c found =>
    have own := Fab.id_of_coll? found
    subst own
    split
    · exact .refl _ f
    · extract_lets f1
      have first : f.Casts c.id f1 := (f.chats_collSend c dest type m _).casts
      clear_value f1
      split
      · exact first
      · exact ((first.trans (f1.casts_cut c.id dest)).trans (Fab.chats_collSend _ c _ _ _ _).casts).trans
          (Fab.casts_reported _ _ _ _ _ _ _ _ _ _)
  · exact .refl _ f

theorem Fab.casts_sendDown (f : Fab) (id b est : Nat) (data : Option (List W32)) (root repair : Bool) :
    f.Casts id (f.sendDown id b est data root repair) := by
  unfold Fab.sendDown
  split
  · exact Fab.Casts.foldl (fun g k => g.casts_collCast id k _ _ _) _ f
  · exact .refl id f

/-! ### Two stores -/

/-- A store to sound lines leaves the lines sound, no checkpoint running, and the collectives. -/
theorem W.store_leaves (idle : (w.fab.noivosOf p).running = none) (sound : w.fab.faultless a bytes.length) :
    (w.store p a bytes).fab.colls = w.fab.colls ∧ ((w.store p a bytes).fab.noivosOf p).running = none ∧
      ∀ x n, w.fab.faultless x n → (w.store p a bytes).fab.faultless x n := by
  have still := (W.store_fab idle sound).1.idle p idle
  obtain ⟨keys, noivos, fab⟩ := W.store_fab_eq idle sound
  refine ⟨by rw [fab], still, fun x n clean => ?_⟩
  rw [fab]
  exact clean

/-- A block and its estimate byte stored. -/
theorem W.store_store (idle : (w.fab.noivosOf p).running = none) (block : w.fab.faultless a bytes.length) (guess : w.fab.faultless e 1)
    (byte : Byte) : W.Stored w ((w.store p a bytes).store p e [byte]) ∧ ((w.store p a bytes).store p e [byte]).fab.colls = w.fab.colls ∧
      ∀ x, ((w.store p a bytes).store p e [byte]).load p x =
        if x = e then byte else if a ≤ x ∧ x < a + bytes.length then bytes.getD (x - a) 0 else w.load p x := by
  obtain ⟨colls, idle', clean⟩ := W.store_leaves idle block
  obtain ⟨colls', -, -⟩ := W.store_leaves (bytes := [byte]) idle' (clean _ _ guess)
  obtain ⟨loads, stored⟩ := W.store_spec idle (fun l hl => (block l hl).1)
  obtain ⟨loads', stored'⟩ := W.store_spec (w := w.store p a bytes) (a := e) (bytes := [byte]) idle' (fun l hl => (clean _ _ guess l hl).1)
  refine ⟨stored.trans stored', colls'.trans colls, fun x => (loads' x).trans ?_⟩
  by_cases here : x = e
  · subst here
    rw [if_pos ⟨Nat.le_refl _, by simp⟩, if_pos rfl, Nat.sub_self]
    rfl
  · rw [if_neg (by simp; omega), if_neg here]
    exact loads x

/-! ### FP32 elements -/

theorem fpMemory_length (data : List W32) : (fpMemory data).length = 4 * data.length := by
  unfold fpMemory
  induction data with
  | nil => rfl
  | cons x l ih => rw [List.flatMap_cons, List.length_append, ih, leBytes_length, List.length_cons]; omega

/-- Element j of the elements in memory. -/
theorem fpMemory_elem (data : List W32) {j : Nat} (hj : j < data.length) :
    ((fpMemory data).drop (4 * j)).take 4 = leBytes 4 (data[j]).toNat := by
  induction data generalizing j with
  | nil => cases hj
  | cons x l ih =>
    unfold fpMemory at ih ⊢
    rw [List.flatMap_cons]
    cases j with
    | zero => exact List.take_left' (leBytes_length 4 _)
    | succ j =>
      rw [show 4 * (j + 1) = (leBytes 4 x.toNat).length + 4 * j by rw [leBytes_length]; omega, List.drop_length_add_append]
      exact ih (Nat.lt_of_succ_lt_succ hj)

theorem fpMemory_getD (data : List W32) {j k : Nat} (hj : j < data.length) (hk : k < 4) :
    (fpMemory data).getD (4 * j + k) 0 = (leBytes 4 (data[j]).toNat).getD k 0 := by
  rw [← fpMemory_elem data hj]
  simp [List.getD, hk]

/-- An element stored reads back. -/
theorem W.loadNat_elem {v : W} (data : List W32) (loads : ∀ x, a ≤ x → x < a + 4 * data.length → v.load p x = (fpMemory data).getD (x - a) 0)
    {j : Nat} (hj : j < data.length) : v.loadNat p (a + 4 * j) 4 = (data[j]).toNat := by
  have words : v.loads p (a + 4 * j) (leBytes 4 (data[j]).toNat).length = leBytes 4 (data[j]).toNat := by
    refine W.loads_eq fun x low high => ?_
    rw [leBytes_length] at high
    rw [loads x (by omega) (by omega), show x - a = 4 * j + (x - (a + 4 * j)) by omega, fpMemory_getD data hj (by omega)]
  rw [leBytes_length] at words
  rw [W.loadNat, words, leNat_leBytes]
  exact Nat.mod_eq_of_lt (data[j]).isLt

theorem fpRead_length (l : List Byte) : (fpRead l).length = 64 := by simp [fpRead]

/-- Element j of a block on the wire (R327). -/
theorem fpRead_elem (l : List Byte) {j : Nat} (hj : j < 64) :
    ((fpRead l)[j]'(by rw [fpRead_length]; exact hj)).toNat = beNat ((l.drop (4 * j)).take 4) := by
  have small : beNat ((l.drop (4 * j)).take 4) < 2 ^ 32 := by
    refine Nat.lt_of_lt_of_le (leNat_lt _) ?_
    rw [List.length_reverse]
    exact Nat.pow_le_pow_right (by decide) (List.length_take_le 4 _)
  unfold fpRead
  rw [List.getElem_map, List.getElem_range, BitVec.toNat_ofNat]
  exact Nat.mod_eq_of_lt small

/-! ### A block that has come down -/

/-- A block's record once its result is here. -/
def BlockRec.arrived (r : BlockRec) : BlockRec :=
  { r with down := true, data := r.data || true, saturated := false, low := none, upper := none }

theorem Coll.sees_eq (c : Coll) (tree : Bool) (data : List W32) : ∃ l, c.sees tree data = { c with nonzero := l } := by
  unfold Coll.sees
  split
  · exact ⟨c.nonzero, rfl⟩
  · exact ⟨_, rfl⟩

/-- What a member that wants block b's result leaves of it (R314, R315): the result and the estimate stored, and the block noted. -/
structure W.Down (s : State) (c : Coll) (b : Nat) (r : BlockRec) (a e : Nat) (data : List W32) (byte : Byte) (w : W) : Prop where
  mem : w.mem = s.mem
  sec : w.sec = s.sec
  faults : w.faults = []
  waits : w.waits = false
  coll : ∃ l k z, w.fab.coll? c.id = some { c.withBlock b r.arrived with nonzero := z, outbox := l, cuts := k }
  load : ∀ x, w.load c.partition x = if x = e then byte else
    if a ≤ x ∧ x < a + 256 then (fpMemory data).getD (x - a) 0 else (W.of s).load c.partition x

/-- The result sent on to the children leaves what the block's arrival left. -/
theorem W.Down.casts (done : W.Down s c b r a e data byte w) (casts : w.fab.Casts c.id g) :
    W.Down s c b r a e data byte { w with fab := g } where
  mem := done.mem
  sec := done.sec
  faults := done.faults
  waits := done.waits
  coll := by
    obtain ⟨l, k, z, found⟩ := done.coll
    obtain ⟨l', k', left⟩ := casts.coll _ found
    exact ⟨l', k', z, left⟩
  load x := by
    have same : ({ w with fab := g } : W).load c.partition x = w.load c.partition x :=
      W.load_congr (by rw [Fab.keyOf, Fab.keyOf]; dsimp only; rw [casts.keys, casts.fills]) rfl (fun _ _ => rfl)
    exact same.trans (done.load x)

theorem W.blockDone_of_reached (s : State) (m : CollMsg) (found : s.fab.coll? c.id = some c) (block : c.block? b = some r)
    (wants : c.op.wants (treeN c.desc) (treeRank c.desc) b = true) {q : Nat × Nat} (guess : estimates c.desc c.op c.slice = some q)
    (reaches : Claims.reaches s c.partition c.die [(c.blockAddr b, 256, true), (q.1 + b, 1, true)]) (whole : data.length = 64) :
    W.Down s c b r (c.blockAddr b) (q.1 + b) data (BitVec.ofNat 8 est) ((W.met s m).blockDone c.id b est (some data) false) := by
  have found' : (W.met s m).fab.coll? c.id = some c := found
  obtain ⟨g, served, ran⟩ := W.collDo_of_reached (w := W.met s m) (l := [(c.blockAddr b, 256, true), (q.1 + b, 1, true)]) found'
    (fun r hr => reachedFrom_of_reaches reaches hr)
  have idle : (g.noivosOf c.partition).running = none := by
    have noivos : g.noivos = s.fab.noivos := congrArg (·.noivos) served.rest
    rw [Fab.noivosOf, noivos]
    exact reaches.2.1
  have length : (fpMemory data).length = 256 := by rw [fpMemory_length, whole]
  have room : g.faultless (c.blockAddr b) (fpMemory data).length := by
    rw [length]
    exact served.faultless (reachedFrom_of_reaches reaches List.mem_cons_self).sound
  have place : g.faultless (q.1 + b) 1 :=
    served.faultless (reachedFrom_of_reaches reaches (List.mem_cons_of_mem _ List.mem_cons_self)).sound
  obtain ⟨stored, colls, loads⟩ := W.store_store (w := { W.met s m with fab := g }) idle room place (BitVec.ofNat 8 est)
  have done : (W.met s m).blockDone c.id b est (some data) false =
      ((({ W.met s m with fab := g } : W).store c.partition (c.blockAddr b) (fpMemory data)).store c.partition (q.1 + b)
        [BitVec.ofNat 8 est]).map (fun f => (f.setBlock c.id b r.arrived).onColl c.id (fun c => c.sees (b % 2 == 1) data)) := by
    unfold W.blockDone
    rw [found']
    dsimp only
    rw [block]
    dsimp only
    rw [wants, guess]
    exact ran _
  have before : ∀ x, ({ W.met s m with fab := g } : W).load c.partition x = (W.of s).load c.partition x := fun x =>
    W.load_served (w := W.met s m) served x
  obtain ⟨mem, sec, faults, waits, -⟩ := stored
  rw [done]
  rw [length] at loads
  generalize (({ W.met s m with fab := g } : W).store c.partition (c.blockAddr b) (fpMemory data)).store c.partition (q.1 + b)
    [BitVec.ofNat 8 est] = v at mem sec faults waits colls loads ⊢
  have left : v.fab.coll? c.id = some c := (Fab.coll?_of_colls (colls.trans (congrArg (·.colls) served.rest)) _).trans found
  obtain ⟨z, sees⟩ := (c.withBlock b r.arrived).sees_eq (b % 2 == 1) data
  refine ⟨mem, sec, faults, waits, ⟨c.outbox, c.cuts, z, ?_⟩, fun x => ?_⟩
  · refine (Fab.coll?_onColl (step := fun c => c.sees (b % 2 == 1) data) (Fab.coll?_setBlock left b r.arrived) ?_).trans ?_
    · rw [sees]
    · rw [sees]
      rfl
  · have noted : (v.map (fun f => (f.setBlock c.id b r.arrived).onColl c.id (fun c => c.sees (b % 2 == 1) data))).load c.partition x =
        v.load c.partition x := W.load_congr rfl rfl (fun _ _ => rfl)
    rw [noted, loads, before]

/-! ### DOWN -/

theorem W.takeDown_of_parent (found : w.fab.coll? id = some c) (block : c.block? b = some r) (down : r.down = false)
    (parent : treeUp c.desc m.treeB (treeRank c.desc) = some m.source) (est : Nat) (data : Option (List W32)) (saturated : Bool) :
    w.takeDown id m b est data none saturated =
      (w.blockDone id b est data saturated).map (fun f => f.sendDown id b est data false false) := by
  unfold W.takeDown
  rw [found]
  dsimp only
  rw [block]
  dsimp only
  exact (if_pos (by rw [parent]; simp)).trans (if_neg (by rw [down]; decide))

/-- The FP32 result in a block's bytes. -/
theorem fpRead_payload {j : Nat} (hj : j < 64) (payload : List Byte) :
    ((fpRead (payload.take 256))[j]'(by rw [fpRead_length]; exact hj)).toNat = beNat ((payload.drop (4 * j)).take 4) := by
  rw [fpRead_elem _ hj, List.drop_take, List.take_take, Nat.min_eq_left (by omega)]

theorem down_met (h : ForBlock s m false c r) (parent : treeUp c.desc m.treeB (treeRank c.desc) = some m.source) (format : m.format = 2)
    (last : m.last = false) (length : m.payload.length = 264) (wants : c.op.wants (treeN c.desc) (treeRank c.desc) m.offset = true)
    {q : Nat × Nat} (guess : estimates c.desc c.op c.slice = some q)
    (reaches : Claims.reaches s c.partition c.die [(c.blockAddr m.offset, 256, true), (q.1 + m.offset, 1, true)]) :
    W.Down s c m.offset r (c.blockAddr m.offset) (q.1 + m.offset) (fpRead (m.payload.take 256)) (m.payload.getD 256 0)
      (down m [] (W.of s)) := by
  have done := W.blockDone_of_reached (est := (m.payload.getD 256 0).toNat) (data := fpRead (m.payload.take 256)) s m h.found h.block wants
    guess reaches (fpRead_length _)
  rw [BitVec.ofNat_toNat, BitVec.setWidth_eq] at done
  have sent := done.casts (Fab.casts_sendDown _ c.id m.offset (m.payload.getD 256 0).toNat (some (fpRead (m.payload.take 256))) false false)
  obtain ⟨l, k, z, left⟩ := sent.coll
  have took := W.takeDown_of_parent (w := W.met s m) (m := m) h.found h.block h.due parent (m.payload.getD 256 0).toNat
    (some (fpRead (m.payload.take 256))) false
  have ran : down m [] (W.of s) = ((W.met s m).blockDone c.id m.offset (m.payload.getD 256 0).toNat
      (some (fpRead (m.payload.take 256))) false).map (fun f => f.sendDown c.id m.offset (m.payload.getD 256 0).toNat
        (some (fpRead (m.payload.take 256))) false false) := by
    refine h.meets (body := fun c w => _) ?_ left h.begun h.early h.pulls
    dsimp only
    rw [h.kind, format, last, length, h.one, Bool.false_and]
    exact (if_neg (by decide)).trans took
  rw [ran]
  exact sent

/-- DOWN of the parent (R314, R315). -/
theorem exec_downMsg (h : ForBlock s m false c r) (parent : treeUp c.desc m.treeB (treeRank c.desc) = some m.source) (format : m.format = 2)
    (last : m.last = false) (length : m.payload.length = 264) (wants : c.op.wants (treeN c.desc) (treeRank c.desc) m.offset = true)
    {q : Nat × Nat} (guess : estimates c.desc c.op c.slice = some q)
    (reaches : Claims.reaches s c.partition c.die [(c.blockAddr m.offset, 256, true), (q.1 + m.offset, 1, true)])
    (apart : Claims.apart (c.blockAddr m.offset) 256 (q.1 + m.offset) 1) :
    ∃ t, exec (.downMsg ⟨m, []⟩) s = .next t ∧ t.sec = s.sec ∧
      Claims.MemKept s t c.partition [(c.blockAddr m.offset, 256), (q.1 + m.offset, 1)] ∧
      (∀ j, j < 64 → (W.of t).loadNat c.partition (c.blockAddr m.offset + 4 * j) 4 = beNat ((m.payload.drop (4 * j)).take 4)) ∧
      (W.of t).load c.partition (q.1 + m.offset) = m.payload.getD 256 0 ∧
      ∃ r', (t.fab.coll? c.id).bind (·.block? m.offset) = some r' ∧ r'.down = true ∧ r'.data = true := by
  have done := down_met h parent format last length wants guess reaches
  obtain ⟨t, next, ended⟩ := onMem_ends (k := down m []) h.up rfl done.faults done.waits done.mem done.sec
  have loads := fun x => (ended.load c.partition x).trans (done.load x)
  obtain ⟨l, k, z, left⟩ := done.coll
  refine ⟨t, next, ended.sec, fun x away => ?_, fun j hj => ?_, ?_, r.arrived, ?_, rfl, Bool.or_true _⟩
  · have block := away (c.blockAddr m.offset, 256) List.mem_cons_self
    have estimate := away (q.1 + m.offset, 1) (List.mem_cons_of_mem _ List.mem_cons_self)
    dsimp only at block estimate
    rw [loads, if_neg (by omega), if_neg (by omega)]
  · unfold Claims.apart at apart
    rw [W.loadNat_elem (fpRead (m.payload.take 256)) (fun x low high => ?_) (j := j) (by rw [fpRead_length]; exact hj)]
    · exact fpRead_payload hj m.payload
    · rw [fpRead_length] at high
      rw [loads, if_neg (by omega), if_pos ⟨low, by omega⟩]
  · rw [loads, if_pos rfl]
  · rw [ended.fab, left]
    exact Coll.block?_withBlock _ _ _

/-- Settles O38: by what each message does to a collective that has launched, and to one that has not; a sum and an exponent wait for the
last child, and a conversion reads what the partition reaches, whatever was counted and sent before. -/
theorem messagesReachTheirCollective : Obligations.MessagesReachTheirCollective := by
  unfold Obligations.MessagesReachTheirCollective
  refine ⟨⟨fun s m row mem up => unmet_claims s m row mem up, fun s m up stale => exec_notReady_stale up stale,
    fun s m c o up found outbox dest tree attempt offset count => exec_notReady up found outbox dest tree attempt offset count,
    fun s r c up one found low whole free => exec_notReadyRepeat up one found low whole free⟩, ?_, ?_⟩
  · intro s m c r lo k sum me kids block format length child read
    exact upMsg_claims (forBlock_spec block) format length child read
  · intro s m c r me b block source own
    refine ⟨fun e here parent format last length wants guess few reaches apart => ?_,
      fun here source parent later known other kids few clean => ?_, fun here length child pre new due => ?_,
      fun here source length parent pre kids => ?_⟩
    · exact exec_downMsg (forBlock_spec here) parent format last length wants guess reaches apart
    · exact exec_reissue (forBlock_spec here) source parent later known other kids few clean
    · exact exec_agreeUp (forBlock_spec here) length child pre new due
    · intro v clean
      exact exec_agreeDown (forBlock_spec here) source length parent pre kids rfl clean

end Sys2Proof.Machine
end
